-- ==== Sys2Proof/Word.lean ====
section
/-! DEFINITION. The word types of the machine: bytes, register widths (R29), and the sparse tables that hold indexed state. -/

namespace Sys2Proof

/-- One byte. -/
abbrev Byte := BitVec 8
/-- A `g` register (R29). -/
abbrev W32 := BitVec 32
/-- An `a` register (R29). -/
abbrev A48 := BitVec 48
/-- An `m` register (R29): one bit a lane. -/
abbrev M64 := BitVec 64
/-- A `v` register (R29). -/
abbrev V512 := BitVec 512

/-- Indexed state: key and value pairs, keys strictly rising, no entry equal to the
default that an unlisted key reads as. -/
abbrev Tab (α : Type) := List (Nat × α)

end Sys2Proof
end

