-- ==== Sys2Proof/Machine/Bits.lean ====
section
/-! DEFINITION. Sparse tables, bit fields, sign extension and byte order: the helpers that every chapter's meanings share. -/

namespace Sys2Proof.Machine

/-- What key `k` of a table holds; `d` where it is not listed. -/
def Tab.get {α : Type} (d : α) : Tab α → Nat → α
  | [], _ => d
  | (k', v) :: t, k => if k' = k then v else Tab.get d t k

/-- The table with `k` removed, the keys above kept. -/
def Tab.drop {α : Type} : Tab α → Nat → Tab α
  | [], _ => []
  | (k', v) :: t, k => if k' = k then Tab.drop t k else (k', v) :: Tab.drop t k

/-- The table with `v` at `k`, in key order. -/
def Tab.put {α : Type} : Tab α → Nat → α → Tab α
  | [], k, v => [(k, v)]
  | (k', v') :: t, k, v =>
    if k' = k then (k, v) :: t
    else if k < k' then (k, v) :: (k', v') :: t
    else (k', v') :: Tab.put t k v

/-- The table after `k` is written with `v`: writing the default removes the entry. -/
def Tab.set {α : Type} [DecidableEq α] (d : α) (t : Tab α) (k : Nat) (v : α) : Tab α :=
  if v = d then Tab.drop t k else Tab.put t k v

/-- Keys strictly rising from above `lo`, and no entry equal to the default. -/
def Tab.wfFrom {α : Type} [DecidableEq α] (d : α) : Option Nat → Tab α → Bool
  | _, [] => true
  | none, (k, v) :: t => decide (v ≠ d) && Tab.wfFrom d (some k) t
  | some lo, (k, v) :: t => decide (lo < k) && decide (v ≠ d) && Tab.wfFrom d (some k) t

/-- The canonical form of a table. -/
def Tab.wf {α : Type} [DecidableEq α] (d : α) (t : Tab α) : Bool := Tab.wfFrom d none t

/-- The table after the value at `k` goes through `f`. -/
def Tab.upd {α : Type} [DecidableEq α] (d : α) (t : Tab α) (k : Nat) (f : α → α) : Tab α :=
  Tab.set d t k (f (Tab.get d t k))

/-- Bits [lo + w − 1 : lo] of a number. -/
def bitsOf (x lo w : Nat) : Nat := x / 2 ^ lo % 2 ^ w

/-- Bit `i` of a number. -/
def bitOf (x i : Nat) : Bool := x / 2 ^ i % 2 = 1

/-- `x` with bits [lo + w − 1 : lo] replaced by the low bits of `v`. -/
def setBits (x lo w v : Nat) : Nat := x - bitsOf x lo w * 2 ^ lo + v % 2 ^ w * 2 ^ lo

/-- 1 for true, 0 for false. -/
def b2n (b : Bool) : Nat := if b then 1 else 0

/-- The number of one bits among bits [w − 1 : 0]. -/
def popc (x : Nat) : Nat → Nat
  | 0 => 0
  | w + 1 => b2n (bitOf x w) + popc x w

/-- The signed value of the low `w` bits of `x`. -/
def sgn (w x : Nat) : Int :=
  if x % 2 ^ w < 2 ^ (w - 1) then (x % 2 ^ w : Nat) else (x % 2 ^ w : Nat) - (2 ^ w : Nat)

/-- The low `w` bits of an integer in two's complement. -/
def unsgn (w : Nat) (i : Int) : Nat := (i % (2 ^ w : Nat)).toNat

/-- `x` limited to at most `m`: a saturating counter's next value. -/
def satTo (m x : Nat) : Nat := if x ≤ m then x else m

/-- The largest value of a `w`-bit field. -/
def allOnes (w : Nat) : Nat := 2 ^ w - 1

/-- Little-endian number of a list of bytes. -/
def leNat : List Byte → Nat
  | [] => 0
  | b :: t => b.toNat + 256 * leNat t

/-- The `n` bytes of a number, lowest first. -/
def leBytes : Nat → Nat → List Byte
  | 0, _ => []
  | n + 1, x => BitVec.ofNat 8 x :: leBytes n (x / 256)

/-- A number of a list of bytes, little-endian: `n` bytes from `b`. -/
def leField (l : List Byte) (b n : Nat) : Nat := leNat ((l.drop b).take n)

/-- Exactly `n` bytes of a list, zeros after its end. -/
def fixLen (n : Nat) (l : List Byte) : List Byte := l.take n ++ List.replicate (n - l.length) 0

/-- Is `i` in the list `a, a + 1, …` of `n` numbers? -/
def inRange (i a n : Nat) : Bool := decide (a ≤ i) && decide (i < a + n)

/-- Do [a, a + n) and [b, b + m) share an element? -/
def overlap (a n b m : Nat) : Bool :=
  decide (0 < n) && decide (0 < m) && decide (a < b + m) && decide (b < a + n)

/-- `⌈a ÷ b⌉`. -/
def ceilDiv (a b : Nat) : Nat := (a + b - 1) / b

/-- `f` applied to `0 … n − 1` in turn. -/
def forN {σ : Type} (n : Nat) (f : Nat → σ → σ) (s : σ) : σ :=
  (List.range n).foldl (fun s i => f i s) s

/-- `f` applied to each element in turn. -/
def forL {σ α : Type} (l : List α) (f : α → σ → σ) (s : σ) : σ :=
  l.foldl (fun s a => f a s) s

/-- The state changed where `c` holds. -/
def whenDo {σ : Type} (c : Bool) (f : σ → σ) (s : σ) : σ := if c then f s else s

/-- The elements of a list up to the first that satisfies `p`, that element removed. -/
def removeFirst {α : Type} (p : α → Bool) : List α → List α
  | [] => []
  | a :: t => if p a then t else a :: removeFirst p t

/-- The first element that satisfies `p` replaced by its image. -/
def updFirst {α : Type} (p : α → Bool) (f : α → α) : List α → List α
  | [] => []
  | a :: t => if p a then f a :: t else a :: updFirst p f t

end Sys2Proof.Machine
end

