-- ==== Sys2Proof/Syntax.lean ====
section
/-! DEFINITION. The commands the panel takes: one constructor a row of the opcode table, and the structures their operands use. -/

namespace Sys2Proof

/-- Who makes a register access (R8, R314, R644): firmware through local set-up space, or function `f` of the host. -/
inductive Src where
  | fw
  | fn (f : Nat)
  deriving DecidableEq, Repr

/-- Format M, the 64-bit long form without its opcode (R55). -/
structure FmtM where
  immB : BitVec 16
  immA : BitVec 16
  sub : BitVec 5
  t : BitVec 3
  fmt : BitVec 4
  aa : BitVec 3
  ab : BitVec 3
  shape : BitVec 4
  flags : BitVec 4
  deriving DecidableEq, Repr

/-- A memory error that the array has suffered: the local address of the 64-bit word, and whether
one bit (corrected) or more (uncorrectable) are wrong (R130 to R132, R251). -/
structure Upset where
  addr : Nat
  multi : Bool
  deriving DecidableEq, Repr

/-- A stream descriptor (R64), its 32 bytes by field; `rsv` holds 1 where a reserved bit is not zero. -/
structure StreamDesc where
  localOff : Nat
  rowBytes : Nat
  rowCount : Nat
  space : Nat
  addr : Nat
  vx : Nat
  vy : Nat
  slot : Nat
  roff : Nat
  vx1 : Nat
  vy1 : Nat
  lstride : Nat
  rstride : Nat
  lcnt : Nat
  lcntEn : Nat
  rcnt : Nat
  rcntEn : Nat
  linc : Nat
  rinc : Nat
  op : Nat
  rsv : Nat
  deriving DecidableEq, Repr

/-- The header of a bulk packet (R163). `x0`, `y0` name the destination core, `x0` the ring stop or the
length of a meld list; `addr` is ADDR or TOTAL. -/
structure BulkHdr where
  type : Nat
  vc : Nat
  hold : Bool
  dkind : Nat
  abs_ : Bool
  sperim : Bool
  status : Nat
  plen : Nat
  x0 : Nat
  y0 : Nat
  x1 : Nat
  y1 : Nat
  sx : Nat
  sy : Nat
  tag : Nat
  toff : Nat
  slot : Nat
  cnt : Nat
  cntEn : Bool
  op : Nat
  inc : Nat
  scode : Nat
  soff : Nat
  addr : Nat
  deriving DecidableEq, Repr

/-- One entry of a meld list (R182). -/
structure MeldEnt where
  x : Nat
  y : Nat
  tag : Nat
  deriving DecidableEq, Repr

/-- A packet of the perimeter ring (R21): its destination stop, whether it is a trump cell, and what it carries. -/
structure RingPkt where
  dst : Nat
  trump : Bool
  body : List Byte
  deriving DecidableEq, Repr

/-- The header of a control packet (R183). -/
structure CtlHdr where
  type : Nat
  vc : Nat
  bcast : Bool
  dnode : Nat
  dlocal : Nat
  snode : Nat
  slocal : Nat
  len : Nat
  msgid : Nat
  deriving DecidableEq, Repr

/-- An error in the buffers of the router of core `core` (R196): one bit, or with `multi` more. -/
structure BufErr where
  core : Nat
  multi : Bool
  deriving DecidableEq, Repr

/-- The start of FW_ACTIVATE (R621, R638): the descriptor's key in the model's list, and whether a chunk of its copy still fails after its resends. -/
structure FwStart where
  key : Nat
  bad : Bool
  deriving DecidableEq, Repr

/-- What a 1 s interval of an engine's lanes gives (R361): the corrected symbol errors of each lane, and the lanes on whose wavelength the module of their far
end has reported a laser switch in the interval. -/
structure LaneCounts where
  symbols : List Nat
  farSwitched : List Nat
  deriving DecidableEq, Repr

/-- The end at which a port's lanes switch at flit F (R364): the receiver, or the transmitter with the lanes that the far receiver holds good (R358). -/
inductive SwitchEnd where
  | rx
  | tx (farGood : List Nat)
  deriving DecidableEq, Repr

/-- What a module measures of its eight lasers (R369, R375): bias currents and cooler drives. -/
structure LaserReads where
  bias : List Nat
  cooler : List Nat
  deriving DecidableEq, Repr

/-- The check flit of a protected message (R632). -/
structure ChkFlit where
  alive : Nat
  crc : Nat
  deriving DecidableEq, Repr

/-- A request of the panel that the host rejects (R327, R329, R352): a descriptor fetch of a ring, a data request of a descriptor at a host
address, the completion write of a descriptor, the next write of an entry that is held for completion ring `cq`, the last event record of a function. -/
inductive HostReq where
  | fetch (ring : Nat)
  | data (k addr : Nat)
  | completion (k : Nat)
  | held (cq : Nat)
  | event (f : Nat)
  deriving DecidableEq, Repr

/-- What the power sensors read (R475): panel input in W, 10 mV and 0.1 A, its average over 5 ms, each blade's voltage and current, and each
cartridge's input and output in W. -/
structure PwrMeas where
  power : Nat
  volt : Nat
  curr : Nat
  avg5 : Nat
  blades : List (Nat × Nat)
  ins : List Nat
  outs : List Nat
  deriving DecidableEq, Repr

/-- What a guest's admission meets (R435): whether the sideband comes up and the mainband trains, at which rate and width, whether it is a Praone 2
tile on the compat field, and the capability structure and manifest that the guest presents. -/
structure GuestTry where
  g : Nat
  sideband : Bool
  mainband : Bool
  compat : Bool
  rate : Nat
  x8 : Bool
  cap : List Byte
  manifest : List Byte
  deriving DecidableEq, Repr
/-- The header of a Jexlink packet (R385). -/
structure JxHdr where
  vc : Nat
  sealed_ : Bool
  ptype : Nat
  ndata : Nat
  ackreq : Bool
  hops : Nat
  dst : Nat
  src : Nat
  addr : Nat
  len : Nat
  cnt : Nat
  cntEn : Bool
  op : Nat
  status : Nat
  inc : Nat
  pidx : Nat
  xid : Nat
  arg : Nat
  sctr : Nat
  hcrc : Nat
  pcrc : Nat
  tag : Nat
  deriving DecidableEq, Repr

/-- A link-control cell (R388): flags, sequence numbers, the running totals of freed cells by VC, and the lane-operation fields. -/
structure Lctl where
  nak : Bool
  replay : Bool
  init : Bool
  aseq : Nat
  rseq : Nat
  creds : List Nat
  lop : Nat
  llane : Nat
  slane : Nat
  neww : Nat
  fseq : Nat
  deriving DecidableEq, Repr

/-- How the units of the panel fare in a start-up (R532 to R535): for each steward the keyring self-test that fails (0 none) and the time in ms at
which it completes step 3 (0 never); host interface dies whose firmware fails, and the firmware digests they report; stacks that fail training and stacks with a
bank that has no spare row (R249); regions, dies and links that fail at their steps, and links that train only in compat mode; the identity record of each laser module (empty: none there); the good
lanes of each port; the time to READY in ms. -/
structure BootTry where
  fail0 : Nat
  fail1 : Nat
  done0 : Nat
  done1 : Nat
  hids : List Nat
  hidFw : List (List Byte)
  badStacks : List Nat
  noSpare : List Nat
  regions : List Nat
  dies : List Nat
  links : List (Nat × Nat)
  compat : List (Nat × Nat)
  mods : List (List Byte)
  ports : List (List Nat)
  ms : Nat
  deriving DecidableEq, Repr

/-- Where an SPDM request comes from (R615): a PF's DOE mailbox, or a packet that arrived by port `n` from panel `panel` with an XID. -/
inductive SpdmVia where
  | doe (f : Nat)
  | jex (n panel xid : Nat)
  deriving DecidableEq, Repr


/-- The commands of the panel: one constructor for each row of the opcode table, in the table's order. -/
inductive Instr where
  /-- ADD (R56): Scalar add: g[RD] takes g[RA] + g[RB], wrapping modulo 2^32. -/
  | add (c : Nat) (rd ra rb : BitVec 5)
  /-- SUB (R56): Scalar subtract: g[RD] takes g[RA] − g[RB], wrapping. -/
  | sub (c : Nat) (rd ra rb : BitVec 5)
  /-- AND (R56): Bitwise AND of g[RA] and g[RB] into g[RD]. -/
  | and (c : Nat) (rd ra rb : BitVec 5)
  /-- OR (R56): Bitwise OR of g[RA] and g[RB] into g[RD]. -/
  | or (c : Nat) (rd ra rb : BitVec 5)
  /-- XOR (R56): Bitwise exclusive OR of g[RA] and g[RB] into g[RD]. -/
  | xor (c : Nat) (rd ra rb : BitVec 5)
  /-- SLL (R56): Shift g[RA] left by g[RB][4:0] into g[RD]. -/
  | sll (c : Nat) (rd ra rb : BitVec 5)
  /-- SRL (R56): Logical shift of g[RA] right by g[RB][4:0] into g[RD]. -/
  | srl (c : Nat) (rd ra rb : BitVec 5)
  /-- SRA (R56): Arithmetic shift of g[RA] right by g[RB][4:0] into g[RD]. -/
  | sra (c : Nat) (rd ra rb : BitVec 5)
  /-- SLT (R56): g[RD] takes 1 if g[RA] < g[RB] signed, else 0. -/
  | slt (c : Nat) (rd ra rb : BitVec 5)
  /-- SLTU (R56): g[RD] takes 1 if g[RA] < g[RB] unsigned, else 0. -/
  | sltu (c : Nat) (rd ra rb : BitVec 5)
  /-- MIN (R56): Signed minimum of g[RA] and g[RB] into g[RD]. -/
  | smin (c : Nat) (rd ra rb : BitVec 5)
  /-- MAX (R56): Signed maximum of g[RA] and g[RB] into g[RD]. -/
  | smax (c : Nat) (rd ra rb : BitVec 5)
  /-- MINU (R56): Unsigned minimum of g[RA] and g[RB] into g[RD]. -/
  | minu (c : Nat) (rd ra rb : BitVec 5)
  /-- MAXU (R56): Unsigned maximum of g[RA] and g[RB] into g[RD]. -/
  | maxu (c : Nat) (rd ra rb : BitVec 5)
  /-- MUL (R56): Low 32 bits of the product of g[RA] and g[RB] into g[RD]. -/
  | mul (c : Nat) (rd ra rb : BitVec 5)
  /-- MULH (R56): High 32 bits of the signed product into g[RD]. -/
  | mulh (c : Nat) (rd ra rb : BitVec 5)
  /-- MULHU (R56): High 32 bits of the unsigned product into g[RD]. -/
  | mulhu (c : Nat) (rd ra rb : BitVec 5)
  /-- CLZ (R56): Count of leading zeros of g[RA] into g[RD]. -/
  | clz (c : Nat) (rd ra rb : BitVec 5)
  /-- POPC (R56): Count of one bits of g[RA] into g[RD]. -/
  | popc (c : Nat) (rd ra rb : BitVec 5)
  /-- SLLI (R56): Shift g[RA] left by the RB field value. -/
  | slli (c : Nat) (rd ra rb : BitVec 5)
  /-- SRLI (R56): Logical shift of g[RA] right by the RB field value. -/
  | srli (c : Nat) (rd ra rb : BitVec 5)
  /-- SRAI (R56): Arithmetic shift of g[RA] right by the RB field value. -/
  | srai (c : Nat) (rd ra rb : BitVec 5)
  /-- ADDA (R56): a[RD] takes a[RA] plus sign-extended g[RB], modulo 2^48. -/
  | adda (c : Nat) (rd ra rb : BitVec 5)
  /-- MOVA (R56): a[RD] takes g[RB][15:0] × 2^32 + g[RA]. -/
  | mova (c : Nat) (rd ra rb : BitVec 5)
  /-- MFAL (R56): g[RD] takes a[RA][31:0]. -/
  | mfal (c : Nat) (rd ra rb : BitVec 5)
  /-- MFAH (R56): g[RD] takes a[RA][47:32], zero-extended. -/
  | mfah (c : Nat) (rd ra rb : BitVec 5)
  /-- JALR (R56): Jump to g[RA] and link PC + 4 in g[RD], trapping on a misaligned or out-of-window target. -/
  | jalr (c : Nat) (rd ra rb : BitVec 5)
  /-- ADDI (R57): g[RD] takes g[RA] plus the sign-extended immediate. -/
  | addi (c : Nat) (rd ra : BitVec 5) (imm : BitVec 16)
  /-- ANDI (R57): g[RD] takes g[RA] AND the zero-extended immediate. -/
  | andi (c : Nat) (rd ra : BitVec 5) (imm : BitVec 16)
  /-- ORI (R57): g[RD] takes g[RA] OR the zero-extended immediate. -/
  | ori (c : Nat) (rd ra : BitVec 5) (imm : BitVec 16)
  /-- XORI (R57): g[RD] takes g[RA] XOR the zero-extended immediate. -/
  | xori (c : Nat) (rd ra : BitVec 5) (imm : BitVec 16)
  /-- SLTI (R57): g[RD] takes 1 if g[RA] is below the signed immediate. -/
  | slti (c : Nat) (rd ra : BitVec 5) (imm : BitVec 16)
  /-- LUI (R57): g[RD] takes IMM16 × 2^16. -/
  | lui (c : Nat) (rd ra : BitVec 5) (imm : BitVec 16)
  /-- ADDA_I (R57): a[RD] takes a[RA] plus the immediate, modulo 2^48. -/
  | addaI (c : Nat) (rd ra : BitVec 5) (imm : BitVec 16)
  /-- LD_A (R57): Load 8 bytes into a[RD], keeping bits [47:0]. -/
  | ldA (c : Nat) (rd ra : BitVec 5) (imm : BitVec 16)
  /-- ST_A (R57): Store a[RD] as 8 bytes with bits [63:48] zero. -/
  | stA (c : Nat) (rd ra : BitVec 5) (imm : BitVec 16)
  /-- BEQ (R57): Branch if g[RD] equals g[RA]. -/
  | beq (c : Nat) (rd ra : BitVec 5) (imm : BitVec 16)
  /-- BNE (R57): Branch if g[RD] differs from g[RA]. -/
  | bne (c : Nat) (rd ra : BitVec 5) (imm : BitVec 16)
  /-- BLT (R57): Branch if g[RD] < g[RA] signed. -/
  | blt (c : Nat) (rd ra : BitVec 5) (imm : BitVec 16)
  /-- BGE (R57): Branch if g[RD] ≥ g[RA] signed. -/
  | bge (c : Nat) (rd ra : BitVec 5) (imm : BitVec 16)
  /-- BLTU (R57): Branch if g[RD] < g[RA] unsigned. -/
  | bltu (c : Nat) (rd ra : BitVec 5) (imm : BitVec 16)
  /-- BGEU (R57): Branch if g[RD] ≥ g[RA] unsigned. -/
  | bgeu (c : Nat) (rd ra : BitVec 5) (imm : BitVec 16)
  /-- JAL (R681): Jump relative to PC and link PC + 4 in g[RD]; a target outside the window traps at fetch. -/
  | jal (c : Nat) (rd ra : BitVec 5) (imm : BitVec 16)
  /-- LOOP (R47): Make the following len instructions a hardware loop executed g[RD] times. -/
  | loop (c : Nat) (rd ra : BitVec 5) (imm : BitVec 16)
  /-- LD_W (R57): Load 4 bytes into g[RD], with alignment and bounds checks. -/
  | ldW (c : Nat) (rd ra : BitVec 5) (imm : BitVec 16)
  /-- LD_H (R57): Load 2 bytes zero-extended into g[RD]. -/
  | ldH (c : Nat) (rd ra : BitVec 5) (imm : BitVec 16)
  /-- LD_HS (R57): Load 2 bytes sign-extended into g[RD]. -/
  | ldHs (c : Nat) (rd ra : BitVec 5) (imm : BitVec 16)
  /-- LD_B (R57): Load 1 byte zero-extended into g[RD]. -/
  | ldB (c : Nat) (rd ra : BitVec 5) (imm : BitVec 16)
  /-- LD_BS (R57): Load 1 byte sign-extended into g[RD]. -/
  | ldBs (c : Nat) (rd ra : BitVec 5) (imm : BitVec 16)
  /-- ST_W (R57): Store the low 4 bytes of g[RD]. -/
  | stW (c : Nat) (rd ra : BitVec 5) (imm : BitVec 16)
  /-- ST_H (R57): Store the low 2 bytes of g[RD] by read-modify-write. -/
  | stH (c : Nat) (rd ra : BitVec 5) (imm : BitVec 16)
  /-- ST_B (R57): Store the low byte of g[RD] by read-modify-write. -/
  | stB (c : Nat) (rd ra : BitVec 5) (imm : BitVec 16)
  /-- STREAM_GATHER (R65): Copy and check a descriptor and start a stream from remote memory into the task window. -/
  | streamGather (c : Nat) (eng rsv : BitVec 2) (da : BitVec 3) (doff : BitVec 16)
  /-- STREAM_SEND (R65): Copy and check a descriptor and start a stream from the window to one target. -/
  | streamSend (c : Nat) (eng rsv : BitVec 2) (da : BitVec 3) (doff : BitVec 16)
  /-- STREAM_MCAST (R174): Start a multicast stream, computing the cover and choosing multicast or meld pull. -/
  | streamMcast (c : Nat) (eng rsv : BitVec 2) (da : BitVec 3) (doff : BitVec 16)
  /-- STREAM_RSEND (R201): Start a reduce-send stream, cut into RSEND packets. -/
  | streamRsend (c : Nat) (eng rsv : BitVec 2) (da : BitVec 3) (doff : BitVec 16)
  /-- WAIT_GE (R61): Complete as an acquire if the counter reaches the value, else make the task WAITING. -/
  | waitGe (c : Nat) (cidx : BitVec 6) (sf : BitVec 1) (imm : BitVec 16)
  /-- CNT_ADD (R62): Add to a counter modulo 2^32, releasing earlier window writes. -/
  | cntAdd (c : Nat) (cidx : BitVec 6) (sf : BitVec 1) (imm : BitVec 16)
  /-- CNT_SET (R62): Write a counter value, releasing earlier window writes. -/
  | cntSet (c : Nat) (cidx : BitVec 6) (sf : BitVec 1) (imm : BitVec 16)
  /-- CNT_RD (R62): Read a counter into g[GS]. -/
  | cntRd (c : Nat) (cidx : BitVec 6) (sf : BitVec 1) (imm : BitVec 16)
  /-- SYNC_ARRIVE (R74): Record the task's arrival at the current barrier phase; the core arrives when all participants have. -/
  | syncArrive (c : Nat) (ch : BitVec 3) (rsv : BitVec 20)
  /-- SYNC_WAIT (R74): Complete when the last arrived phase is released, else make the task WAITING. -/
  | syncWait (c : Nat) (ch : BitVec 3) (rsv : BitVec 20)
  /-- MSG_SEND (R70): Send 8 bytes and a counter increment to one task in the trump or control class. -/
  | msgSend (c : Nat) (rd ra rb : BitVec 5) (func : BitVec 11)
  /-- VADD (R59): Vector add per masked lane. -/
  | vadd (c : Nat) (rd ra rb : BitVec 5) (mask : BitVec 3) (fmt : BitVec 4)
  /-- VSUB (R59): Vector subtract per masked lane. -/
  | vsub (c : Nat) (rd ra rb : BitVec 5) (mask : BitVec 3) (fmt : BitVec 4)
  /-- VMUL (R59): Vector multiply per masked lane. -/
  | vmul (c : Nat) (rd ra rb : BitVec 5) (mask : BitVec 3) (fmt : BitVec 4)
  /-- VFMA (R59): Vector fused multiply-add with one rounding. -/
  | vfma (c : Nat) (rd ra rb : BitVec 5) (mask : BitVec 3) (fmt : BitVec 4)
  /-- VMAX (R59): Vector lane maximum. -/
  | vmax (c : Nat) (rd ra rb : BitVec 5) (mask : BitVec 3) (fmt : BitVec 4)
  /-- VMIN (R59): Vector lane minimum. -/
  | vmin (c : Nat) (rd ra rb : BitVec 5) (mask : BitVec 3) (fmt : BitVec 4)
  /-- VCMPLT (R59): Set mask bits where v[RA] < v[RB]. -/
  | vcmplt (c : Nat) (rd ra rb : BitVec 5) (mask : BitVec 3) (fmt : BitVec 4)
  /-- VCMPEQ (R59): Set mask bits where v[RA] equals v[RB]. -/
  | vcmpeq (c : Nat) (rd ra rb : BitVec 5) (mask : BitVec 3) (fmt : BitVec 4)
  /-- VSEL (R59): Select lanes of v[RA] or v[RB] by mask into all lanes. -/
  | vsel (c : Nat) (rd ra rb : BitVec 5) (mask : BitVec 3) (fmt : BitVec 4)
  /-- VRCP (R59): FP32 reciprocal per lane. -/
  | vrcp (c : Nat) (rd ra rb : BitVec 5) (mask : BitVec 3) (fmt : BitVec 4)
  /-- VRSQ (R59): FP32 reciprocal square root per lane. -/
  | vrsq (c : Nat) (rd ra rb : BitVec 5) (mask : BitVec 3) (fmt : BitVec 4)
  /-- VEXP2 (R59): FP32 power of two per lane. -/
  | vexp2 (c : Nat) (rd ra rb : BitVec 5) (mask : BitVec 3) (fmt : BitVec 4)
  /-- VRSUM (R60): Tree sum of masked lanes into bits [31:0] of v[RD]. -/
  | vrsum (c : Nat) (rd ra rb : BitVec 5) (mask : BitVec 3) (fmt : BitVec 4)
  /-- VRMAX (R59): Maximum of masked lanes into lane 0. -/
  | vrmax (c : Nat) (rd ra rb : BitVec 5) (mask : BitVec 3) (fmt : BitVec 4)
  /-- VBCAST (R59): Broadcast g[RA] into masked lanes. -/
  | vbcast (c : Nat) (rd ra rb : BitVec 5) (mask : BitVec 3) (fmt : BitVec 4)
  /-- VCVT (R117): Convert masked lanes between vector formats. -/
  | vcvt (c : Nat) (rd ra rb : BitVec 5) (mask : BitVec 3) (fmt : BitVec 4)
  /-- VLD (R59): Load 64 bytes into a vector register. -/
  | vld (c : Nat) (rd ra : BitVec 5) (imm : BitVec 16)
  /-- VST (R59): Store a vector register as 64 bytes. -/
  | vst (c : Nat) (rd ra : BitVec 5) (imm : BitVec 16)
  /-- MAND (R59): Predicate AND. -/
  | mand (c : Nat) (rd ra rb : BitVec 5)
  /-- MOR (R59): Predicate OR. -/
  | mor (c : Nat) (rd ra rb : BitVec 5)
  /-- MXOR (R59): Predicate exclusive OR. -/
  | mxor (c : Nat) (rd ra rb : BitVec 5)
  /-- MNOT (R59): Predicate NOT. -/
  | mnot (c : Nat) (rd ra rb : BitVec 5)
  /-- MSET (R59): Set a mask from two g registers. -/
  | mset (c : Nat) (rd ra rb : BitVec 5)
  /-- MGETL (R59): Read the low word of a mask. -/
  | mgetl (c : Nat) (rd ra rb : BitVec 5)
  /-- MGETH (R59): Read the high word of a mask. -/
  | mgeth (c : Nat) (rd ra rb : BitVec 5)
  /-- MPOPC (R59): Count set bits of a mask. -/
  | mpopc (c : Nat) (rd ra rb : BitVec 5)
  /-- MMA (R89): Check and queue a matrix multiply-accumulate into an accumulator tile. -/
  | mma (c : Nat) (w : FmtM)
  /-- SPARSE_LD (R109): Queue a copy of 16 rows into the side buffer. -/
  | sparseLd (c : Nat) (w : FmtM)
  /-- ACC_CVT (R114): Queue a conversion of an accumulator tile into the window. -/
  | accCvt (c : Nat) (w : FmtM)
  /-- ZMASK (R111): Queue a write of the ZMASK enable bit. -/
  | zmask (c : Nat) (w : FmtM)
  /-- TILE_LD (R71): Queue a move of 16 rows into a tile, the weight buffer or an input slot. -/
  | tileLd (c : Nat) (w : FmtM)
  /-- TILE_ST (R72): Queue a store of an accumulator tile as FP32 rows. -/
  | tileSt (c : Nat) (w : FmtM)
  /-- MATRIX_QUEUE_START (R73): A queued matrix or tile-move instruction starts on the array or mover once resources and operands allow. -/
  | matrixQueueStart (c : Nat) (mover : Bool)
  /-- MATRIX_OP_END (R107): A running matrix or tile-move operation completes and writes its results. -/
  | matrixOpEnd (c : Nat) (mover : Bool) (ces : Nat) (ue : Bool)
  /-- NOP (R76): No operation. -/
  | nop (c : Nat) (rd ra rb : BitVec 5)
  /-- SYS_RD (R48): Read a task status register into g[RD]. -/
  | sysRd (c : Nat) (rd ra rb : BitVec 5)
  /-- SYS_WR (R48): Write an RW task status register. -/
  | sysWr (c : Nat) (rd ra rb : BitVec 5)
  /-- FENCE_I (R46): Make later instruction fetch see earlier stores. -/
  | fenceI (c : Nat) (rd ra rb : BitVec 5)
  /-- END (R77): The task becomes DONE and the core selects another slot. -/
  | taskEnd (c : Nat) (ra : BitVec 5) (imm : BitVec 16)
  /-- TRAP (R76): The task traps with cause USER. -/
  | trap (c : Nat) (ra : BitVec 5) (imm : BitVec 16)
  /-- RESERVED_OPCODE (R49): Execution of a reserved or illegal opcode traps with ILLEGAL. -/
  | reservedOpcode (c : Nat) (w : BitVec 64)
  /-- ASYNC_TRAP (R69): An asynchronous trap takes effect at the task's next instruction boundary. -/
  | asyncTrap (c slot : Nat)
  /-- CORE_DONE (R37): When all slots are DONE and all work is complete, the core arrives on the commit barrier. -/
  | coreDone (c : Nat)
  /-- STUCK_TASK (R38): The die manager declares a task stuck after its time limit and the core is folded. -/
  | stuckTask (c slot : Nat)
  /-- TRAP_VALID_CLEAR (R86): Firmware clears CD_CORE_TRAP.VALID and the next pending trap record loads. -/
  | trapValidClear (c : Nat)
  /-- SCRUB_TICK (R133): The scratchpad scrubber reads the next line every 8,192 cycles. -/
  | scrubTick (c : Nat) (upsets : List Upset)
  /-- SP_LINMAP_WRITE (R127): A write to CD_SP_LINMAPk changes block modes, or is ignored while any slot is active. -/
  | spLinmapWrite (c k : Nat) (v : W32)
  /-- SP_CE_CLR (R153): Writing CE_CLR clears the scratchpad corrected-error count and saturation bit. -/
  | spCeClr (c : Nat)
  /-- BULK_WRITE (R165): A unicast bulk WRITE reaches a router or target and is routed, checked and written. -/
  | bulkWrite (at_ : Nat) (cr : List Nat) (h : BulkHdr) (data : List Byte)
  /-- MC_WRITE (R175): A multicast data packet is replicated along its tree and delivered to each router's core. -/
  | mcWrite (at_ : Nat) (cr : List Nat) (h : BulkHdr) (data : List Byte)
  /-- MC_OPEN (R176): A multicast open reserves tree entries or is refused. -/
  | mcOpen (at_ : Nat) (cr : List Nat) (h : BulkHdr)
  /-- MC_OPEN_RSP (R176): Merged answers to MC_OPEN reach the source, which then starts or falls back to meld. -/
  | mcOpenRsp (at_ : Nat) (cr : List Nat) (h : BulkHdr)
  /-- MC_CLOSE (R176): A multicast close releases tree entries. -/
  | mcClose (at_ : Nat) (cr : List Nat) (h : BulkHdr)
  /-- BULK_READ_REQ (R181): A read request reaches a serving core or hub and joins or opens a read-queue entry. -/
  | bulkReadReq (at_ : Nat) (cr : List Nat) (h : BulkHdr)
  /-- BULK_READ_RSP (R165): Read data returns to one requester. -/
  | bulkReadRsp (at_ : Nat) (cr : List Nat) (h : BulkHdr) (data : List Byte)
  /-- MELD_RSP (R182): Read data is split by direction and delivered to up to 8 requesters. -/
  | meldRsp (at_ : Nat) (cr : List Nat) (h : BulkHdr) (l : List MeldEnt) (data : List Byte)
  /-- PULL (R180): A target asked to pull a meld-served stream issues its reads. -/
  | pull (at_ : Nat) (cr : List Nat) (h : BulkHdr) (d : StreamDesc)
  /-- BULK_ACK (R167): An acknowledgement of a transfer reaches its sender. -/
  | bulkAck (at_ : Nat) (cr : List Nat) (h : BulkHdr)
  /-- BULK_ERROR (R166): An ERROR packet reports an undeliverable packet to its source. -/
  | bulkError (at_ : Nat) (cr : List Nat) (h : BulkHdr)
  /-- RING_DETOUR (R170): A perimeter-ring packet carried through the mesh arrives and is put back on the ring. -/
  | ringDetour (at_ : Nat) (cr : List Nat) (h : BulkHdr) (p : RingPkt)
  /-- RING_PACKET (R21): A packet travels on the perimeter ring toward its stop by the shorter direction. -/
  | ringPacket (stop : Nat) (p : RingPkt)
  /-- RING_BREAK (R22): A stop or segment is marked broken and traffic reroutes around it. -/
  | ringBreak (seg : Bool) (k : Nat)
  /-- RING_STOP_RETURN (R22): A returning stop is retrained and its broken mark cleared. -/
  | ringStopReturn (stop : Nat)
  /-- MELD_HOLD_EXPIRY (R181): A read-queue entry opened with HOLD is served when its hold time ends. -/
  | meldHoldExpiry (c : Nat) (addr len : Nat)
  /-- RSEND_PACKET (R202): An RSEND packet is combined in a router lane or into the target window with its increment. -/
  | rsendPacket (at_ : Nat) (cr : List Nat) (h : BulkHdr) (data : List Byte)
  /-- RSEND_HOLD_EXPIRY (R206): A held RSEND packet is forwarded when its hold time ends. -/
  | rsendHoldExpiry (at_ : Nat) (ent : Nat)
  /-- CTL_MSG (R184): A task message arrives, is checked, written and acknowledged. -/
  | ctlMsg (h : CtlHdr) (lo hi : W32) (slot cidx off : Nat)
  /-- MSG_ACK (R184): A message acknowledgement completes the message at its sender. -/
  | msgAck (h : CtlHdr) (status : Nat)
  /-- SETUP (R185): A firmware set-up access packet is performed by the owning block. -/
  | setup (h : CtlHdr) (off : Nat) (wr size8 : Bool) (data : Nat) (rsv : Bool)
  /-- SETUP_RSP (R185): The answer to a set-up access returns to its requester. -/
  | setupRsp (h : CtlHdr) (status data : Nat)
  /-- FAULT (R186): A fault report reaches the active steward's dealer agent and is acted on once. -/
  | fault (h : CtlHdr) (code unit kind dir time : Nat)
  /-- FAULT_RESEND (R186): An unacknowledged FAULT is resent every 1 ms. -/
  | faultResend (node msgid : Nat)
  /-- DEMAND (R484): A region manager reports measured and predicted power to the steward. -/
  | demand (h : CtlHdr) (region meas pred : Nat) (notP01 : Bool) (chk : ChkFlit)
  /-- GRANT (R484): The steward gives a region its budget and hard limit. -/
  | grant (h : CtlHdr) (region budget hard : Nat) (chk : ChkFlit)
  /-- GRANT_REQ (R567): A region manager asks for an immediate GRANT. -/
  | grantReq (h : CtlHdr) (region : Nat) (chk : ChkFlit)
  /-- FLOOR (R509): The steward sends a region its thermal floor. -/
  | floor (h : CtlHdr) (region floor : Nat) (chk : ChkFlit)
  /-- MGMT_ACK (R633): The acknowledgement of a protected management message. -/
  | mgmtAck (h : CtlHdr) (mtype alive : Nat) (chk : ChkFlit)
  /-- CHUNK_CRC (R638): The steward sends the CRC of a firmware chunk to a region manager. -/
  | chunkCrc (h : CtlHdr) (image chunk crc : Nat) (chk : ChkFlit)
  /-- CHUNK_RESULT (R638): A region manager reports whether a chunk's CRC matched. -/
  | chunkResult (h : CtlHdr) (image chunk die : Nat) (ok : Bool) (chk : ChkFlit)
  /-- HEARTBEAT (R566): A heartbeat from a region manager or the active steward arrives and is answered. -/
  | heartbeat (h : CtlHdr) (role count : Nat)
  /-- HEARTBEAT_ACK (R566): An answer to a heartbeat arrives. -/
  | heartbeatAck (h : CtlHdr) (who count : Nat)
  /-- PREPARE (R188): A die manager prepares its cores for a layer from the plan. -/
  | prepare (h : CtlHdr) (part layer planAddr : Nat)
  /-- DEALER_READY (R188): A die manager reports PREPARE done or failed. -/
  | dealerReady (h : CtlHdr) (part die layer : Nat) (failed : Bool)
  /-- DEALER_STOP (R553): A die manager discards slots and drains in-flight work of a stopped layer. -/
  | dealerStop (h : CtlHdr) (part layer : Nat)
  /-- QUIET (R553): A die reports quiet to the dealer after a STOP. -/
  | quiet (h : CtlHdr) (part die layer : Nat)
  /-- DEALER_WAKE (R188): The dealer asks a region manager to wake to a target state. -/
  | dealerWake (h : CtlHdr) (region target : Nat)
  /-- SUMMARY (R188): A die manager reports the OR of its tasks' FFLAGS. -/
  | summary (h : CtlHdr) (part die layer fflags : Nat)
  /-- FAULT_ACK (R186): The dealer acknowledges a FAULT, ending its resends. -/
  | faultAck (h : CtlHdr) (msgid : Nat)
  /-- SYNC_ARRIVE_FRAME (R193): A sync node counts an arrival and passes it up, or the root releases. -/
  | syncArriveFrame (node ch phase : Nat)
  /-- SYNC_RELEASE_FRAME (R213): A barrier release passes down the tree and toggles core phases. -/
  | syncReleaseFrame (node ch phase : Nat)
  /-- SYNC_GO (R32): The layer-start GO frame moves every loaded slot from EMPTY to READY. -/
  | syncGo (node sender seq layer : Nat)
  /-- CLAMP (R190): An emergency clamp frame gates or releases regions at the level it carries. -/
  | clamp (node sender seq level : Nat)
  /-- TRICK_FRAME (R584): A trick frame arms every unit to copy its counters at time T. -/
  | trickFrame (node sender seq t n : Nat)
  /-- TRICK_COPY (R584): At the first tick at or after T a unit copies its counters into its shadow. -/
  | trickCopy (unit : Nat)
  /-- SYNC_FLIP (R173): A FLIP frame switches a die's routing-table bank when armed and the version matches. -/
  | syncFlip (node sender seq ver : Nat)
  /-- SYNC_TIME_REQ (R458): A child's panel-time request arrives at its parent. -/
  | syncTimeReq (node child id : Nat)
  /-- SYNC_TIME_RSP (R458): A parent's time response lets the child compute its offset and adjust. -/
  | syncTimeRsp (node id t2 dt : Nat) (resent : Bool)
  /-- TIME_SET (R458): A die loads panel time from its parent. -/
  | timeSet (node value frac : Nat)
  /-- TIME_SLEW (R461): Every die applies the same time adjustment over the given ticks. -/
  | timeSlew (node sender seq start : Nat) (adj : Int) (ticks : Nat)
  /-- TIME_STEP (R461): Every die steps panel time by a signed amount at the start time. -/
  | timeStep (node sender seq start : Nat) (delta : Int)
  /-- SYNC_FRAME_CRC_ERROR (R190): A sync frame with a CRC error is discarded and the message is resent from the replay store. -/
  | syncFrameCrcError (node sender type : Nat)
  /-- TABLE_CHANGE (R173): The steward writes new fault tables to inactive banks, arms them and holds traffic. -/
  | tableChange (tabs : List (Nat × List Byte))
  /-- TABLE_BUFFERS_DRAINED (R173): Once every die reports empty buffers the steward sends FLIP and then resumes traffic. -/
  | tableBuffersDrained
  /-- RT_FLIP_ARM (R199): Writing CD_RT_CTL.FLIP arms a bank switch. -/
  | rtFlipArm (d : Nat)
  /-- LINK_FLIT_ERROR (R196): A flit with a CRC or parity error on a die link is resent and counted. -/
  | linkFlitError (d way : Nat) (onDie same : Bool)
  /-- LINK_RESEND_LIMIT (R196): A link with 16 consecutive resends stops carrying flits and its ends are tested. -/
  | linkResendLimit (d way : Nat) (onDie near far : Bool)
  /-- ROUTER_BUFFER_UE (R196): An uncorrectable router buffer error is a die fault. -/
  | routerBufferUe (c : BufErr)
  /-- REDUCE_REMOTE (R217): Descriptor: combine a local store range into another panel's store. -/
  | reduceRemote (k : Nat)
  /-- HUB_SCRUB (R252): A hub reads each line of its stacks once in 24 hours, correcting errors. -/
  | hubScrub (k a : Nat) (upsets : List Upset)
  /-- PPR_REPAIR (R254): A hub repairs a failing DRAM row with a spare by post-package repair. -/
  | pprRepair (stack : Nat) (spare : Bool)
  /-- STACK_FAULT (R257): A stack controller fault holds requests while the stack retrains. -/
  | stackFault (stack : Nat)
  /-- STACK_RETRAIN_TIMEOUT (R257): Retraining fails after 1 ms, held requests get TIMEOUT and the stack is reported. -/
  | stackRetrainTimeout (stack : Nat)
  /-- STACK_THERMAL_TRIP (R257): A stack at 105 °C is taken out of service and is LOST at once. -/
  | stackThermalTrip (stack : Nat)
  /-- REBUILD_STRIPE (R260): A surviving stack rebuilds the next stripe of a degraded group. -/
  | rebuildStripe (stack : Nat)
  /-- STORE_INIT (R249): Writing MH_STORE_CFG.INIT zeros and retrains the store, if allowed. -/
  | storeInit (src : Src)
  /-- STORE_INIT_COMPLETE (R249): Initialisation finishes and READY is set. -/
  | storeInitComplete (failed noSpare : List Nat)
  /-- RECON_START (R264): Writing MH_RECON_CTL.START starts rebuilding in every DEGRADED group. -/
  | reconStart (src : Src)
  /-- SEG_MAP_WRITE (R230): A write to MH_SEG_MAPj, refusing MODE changes on assigned segments. -/
  | segMapWrite (src : Src) (j : Nat) (v : W32)
  /-- RXA_ENABLE (R244): Writing MH_RXA_CTL.EN enables a reception area or sets CFG_ERR. -/
  | rxaEnable (src : Src) (n : Nat) (v : W32)
  /-- RXA_RD_WRITE (R247): Writing RD_IDX frees reception slots or is refused. -/
  | rxaRdWrite (src : Src) (n : Nat) (v : W32)
  /-- RXA_NOTIFY (R248): A reception area posts an RXA_NOTIFY record at most once per microsecond. -/
  | rxaNotify (n : Nat)
  /-- HUB_CE_CLR (R266): Writing MH_ERR_STAT.CE_CLR clears the hub's corrected-error counts. -/
  | hubCeClr (src : Src) (k : Nat)
  /-- LOAD_KERNEL (R270): Descriptor: read, check and bind a kernel object to a handle. -/
  | loadKernel (k : Nat)
  /-- PLACE (R275): Descriptor: embed a virtual grid onto eligible dies and write placement maps. -/
  | place (k : Nat)
  /-- RUN_LAYER (R289): Descriptor: check a plan, prepare cores, send GO and start weight streams. -/
  | runLayer (k : Nat) (temps : List (Nat × Nat))
  /-- COMMIT (R297): Descriptor: make the next layer with outputs write a commit copy. -/
  | commit (k : Nat)
  /-- RELEASE (R270): Descriptor: unbind a kernel handle. -/
  | release (k : Nat)
  /-- WEIGHT_STREAM_COMPLETE (R290): A weight stream record completes and starts the records chained after it. -/
  | weightStreamComplete (part idx : Nat)
  /-- COMMIT_COPY_START (R291): When a core's slots are DONE the die manager starts its commit-copy streams. -/
  | commitCopyStart (c : Nat)
  /-- LAYER_TIME_LIMIT (R292): The layer time limit expires and the layer ends with TIMEOUT. -/
  | layerTimeLimit (part : Nat)
  /-- SQ_DOORBELL (R323): A doorbell write sets a submission ring's tail, or is discarded or puts the ring in ERROR. -/
  | sqDoorbell (f r : Nat) (v : W32)
  /-- CQ_DOORBELL (R323): A doorbell write sets a completion ring's head, releasing held entries. -/
  | cqDoorbell (f r : Nat) (v : W32)
  /-- DESCRIPTOR_FETCH (R324): A host interface die chooses a ring by arbitration and fetches descriptors. -/
  | descriptorFetch (die : Nat) (slots : List (List Byte))
  /-- DESCRIPTOR_COMPLETE (R347): A descriptor's effects finish and its completion is reported. -/
  | descriptorComplete (k : Nat)
  /-- COALESCE_TIMEOUT (R348): CTIME expires after the first qualifying entry and the vector is sent. -/
  | coalesceTimeout (r : Nat)
  /-- RING_ENABLE (R321): Writing RING_CFG.EN = 1 enables a ring or refuses it. -/
  | ringEnable (src : Src) (r : Nat) (v : W32)
  /-- RING_DISABLE (R326): Writing RING_CFG.EN = 0 moves a ring to DRAINING. -/
  | ringDisable (src : Src) (r : Nat) (v : W32)
  /-- RING_DRAINED (R326): A draining ring's fetched descriptors finish and it becomes DISABLED. -/
  | ringDrained (r : Nat)
  /-- EVT_HEAD_WRITE (R329): Writing HID_EVT_HEAD frees event slots and may post EVENT_OVERFLOW. -/
  | evtHeadWrite (src : Src) (f : Nat) (v : W32)
  /-- EVT_ENABLE (R332): Writing HID_EVT_CFG.EN resets the event ring's indexes. -/
  | evtEnable (src : Src) (f : Nat) (v : W32)
  /-- PART_WRITE (R318): A PF write to HID_PARTp, refused or discarding the partition's placement. -/
  | partWrite (src : Src) (p : Nat) (v : W32)
  /-- SEG_APPLY (R319): Writing HID_SEG_APPLY.GO hands segment requests to firmware. -/
  | segApply (src : Src) (v : W32)
  /-- SEG_APPLY_DONE (R319): Firmware applies or refuses the segment requests when no affected layer runs. -/
  | segApplyDone
  /-- BAR0_ACCESS (R313): A BAR0 access to set-up space under the access and visibility rules. -/
  | bar0Access (f off n : Nat) (data : Option Nat)
  /-- BAR2_READ (R313): A read of BAR2 returns zero. -/
  | bar2Read (f off n : Nat)
  /-- BAR4_ACCESS (R315): A BAR4 access through the aperture to the store or a window, checked for rights. -/
  | bar4Access (f : Nat) (wr poison : Bool) (off n : Nat) (data : List Byte)
  /-- FLR (R350): A function-level reset disables the function's rings and aborts its layers. -/
  | flr (f : Nat)
  /-- D3HOT_ENTRY (R350): Entering D3hot has the effect of an FLR. -/
  | d3hotEntry (f : Nat)
  /-- PERST (R351): PERST0_N or PERST1_N resets one endpoint. -/
  | perst (ep : Nat)
  /-- PCIE_LINK_DOWN (R351): An endpoint's link goes down, a conventional reset of it. -/
  | pcieLinkDown (ep : Nat)
  /-- PCIE_LINK_CHANGE (R346): The PCIe link retrains to a new rate or width and LINK_CHANGE is posted. -/
  | pcieLinkChange (ep rate width : Nat)
  /-- COPY (R337): Descriptor: copy bytes between host and local memory. -/
  | copy (k : Nat) (data : List Byte)
  /-- FILL (R337): Descriptor: fill a local range with an 8-byte pattern. -/
  | fill (k : Nat)
  /-- CHECK (R636): Descriptor: compute a configured CRC over a local range by page partials. -/
  | check (k : Nat)
  /-- SEND_REMOTE (R404): Descriptor: send a local range to another panel in Jexlink packets. -/
  | sendRemote (k : Nat)
  /-- SET_TOLERANCE (R339): Descriptor: set a partition's latency tolerance and wake regions as needed. -/
  | setTolerance (k : Nat)
  /-- SET_BUDGET (R482): Descriptor: set the host panel budget. -/
  | setBudget (k : Nat)
  /-- TRICK (R584): Descriptor: request a trick at time T. -/
  | trick (k : Nat)
  /-- READ_LOG (R594): Descriptor: copy filtered logbook records to host memory. -/
  | readLog (k : Nat)
  /-- FENCE (R341): Descriptor: complete after every earlier descriptor in scope. -/
  | fence (k : Nat)
  /-- BARRIER (R405): Descriptor: send a barrier arrival to the root panel and wait for release. -/
  | barrier (k : Nat)
  /-- BARRIER_TIMEOUT (R341): A BARRIER's timeout passes and it completes with TIMEOUT. -/
  | barrierTimeout (k : Nat)
  /-- FW_STAGE (R621): Descriptor: write an image chunk into staging, verifying at the last chunk. -/
  | fwStage (k : Nat) (data : List Byte)
  /-- FW_ACTIVATE (R621): Descriptor: copy a verified image to the boot flash and run the hitless update. -/
  | fwActivate (k : FwStart)
  /-- ATTEST (R618): Descriptor: write a signed attestation report. -/
  | attest (k : Nat)
  /-- LANE_HEALTH_INTERVAL (R361): Each 1 s interval judges each RX lane for a crossing and updates lane states. -/
  | laneHealthInterval (k : Nat) (counts : LaneCounts)
  /-- SWAP_CONFIRM_TIMEOUT (R364): The far end does not confirm a swap within 1 ms and the port narrows. -/
  | swapConfirmTimeout (n : Nat)
  /-- LANE_SWITCH_AT_FLIT (R364): Both ends move a logical lane to the spare at the agreed flit F. -/
  | laneSwitchAtFlit (n : Nat) (tx : SwitchEnd)
  /-- PORT_RETRAIN_WRITE (R360): Writing OE_PORT_CTLp.RETRAIN takes the port down and trains it again. -/
  | portRetrainWrite (src : Src) (n : Nat)
  /-- LANE_RETEST (R362): Writing OE_LANE_CTLl.RETEST retrains a BAD lane alone. -/
  | laneRetest (src : Src) (k l : Nat) (good : Bool)
  /-- BASELINE_WRITE (R367): Writing OE_BASELINE takes new fibre or feed baselines. -/
  | baselineWrite (src : Src) (k : Nat) (v : W32)
  /-- PORT_TRAINING_COMPLETE (R358): Port training ends, setting width and ACTIVE, STANDBY or BAD lanes. -/
  | portTrainingComplete (n : Nat) (rx tx : List Nat)
  /-- OPTICAL_POWER_SAMPLE (R366): Once per second an engine measures powers and judges each fibre's loss level. -/
  | opticalPowerSample (k : Nat) (tx rx feed out : List Int)
  /-- NOFAR_TIMEOUT (R366): No far TX report for 5 s sets NOFAR. -/
  | nofarTimeout (k j : Nat)
  /-- MARGIN_SAMPLE (R375): Firmware samples margin readings each second for daily statistics. -/
  | marginSample
  /-- LASER_TREND_CHECK (R369): A module compares each laser's bias with its baseline, warning or switching to spare. -/
  | laserTrendCheck (k : Nat) (bias : LaserReads) (weak : List Nat)
  /-- LASER_SUDDEN_FAIL (R370): A laser's output falls 3 dB and the module switches to the spare at once. -/
  | laserSuddenFail (k w : Nat)
  /-- INTERLOCK_BREAK (R372): A module's interlock breaks, its lasers go off and its engines go dark. -/
  | interlockBreak (k : Nat)
  /-- MODULE_INSERT (R374): An inserted module's interlock mates; it is powered and verified. -/
  | moduleInsert (k : Nat) (record : List Byte)
  /-- LASER_WARMUP_COMPLETE (R374): Coolers lock, lasers come on and the fed ports start training. -/
  | laserWarmupComplete (k : Nat) (bias : List Nat)
  /-- ELS_SWAP_REQ (R374): Writing OE_ELS_CTL.SWAP_REQ drains and darkens a module's engines for removal. -/
  | elsSwapReq (src : Src) (k : Nat)
  /-- ELS_SWAP_CANCEL (R374): Writing SWAP_CANCEL before SWAP_READY returns the engines to service. -/
  | elsSwapCancel (src : Src) (k : Nat)
  /-- DRAIN_COMPLETE (R400): Every packet of draining ports has left and been acknowledged. -/
  | drainComplete (n : Nat)
  /-- DRAIN_TIMEOUT (R400): A drain not finished in 10 ms moves or drops the packets still queued. -/
  | drainTimeout (n : Nat)
  /-- FLIT_RECEIVE (R384): A Jexlink flit arrives and its cells are parsed and delivered in order. -/
  | flitReceive (n : Nat) (good : Bool) (cells : List (List Byte))
  /-- LCTL_ACK_CREDIT (R389): A link-control cell reports acknowledged flits and freed credits. -/
  | lctlAckCredit (n : Nat) (c : Lctl)
  /-- LCTL_NAK (R393): A NAK makes the sender replay from ASEQ + 1. -/
  | lctlNak (n : Nat) (c : Lctl)
  /-- LCTL_REPLAY_MARKER (R394): A replay marker lets the receiver accept flits again. -/
  | lctlReplayMarker (n : Nat) (c : Lctl)
  /-- LCTL_INIT (R395): An INIT cell initialises Jexlink sequence numbers and credits on the port. -/
  | lctlInit (n : Nat) (c : Lctl)
  /-- LCTL_SWAP_REQ (R364): A lane swap request reaches the far transmitter. -/
  | lctlSwapReq (n : Nat) (c : Lctl)
  /-- LCTL_SWAP_CONF (R364): A swap confirmation names the switching flit. -/
  | lctlSwapConf (n : Nat) (c : Lctl)
  /-- LCTL_NARROW_REQ (R360): A narrowing request reaches the far end. -/
  | lctlNarrowReq (n : Nat) (c : Lctl)
  /-- LCTL_NARROW_CONF (R360): A narrowing confirmation sets the flit at which the port narrows. -/
  | lctlNarrowConf (n : Nat) (c : Lctl)
  /-- LCTL_REJECT (R389): A lane-operation request is rejected. -/
  | lctlReject (n : Nat) (c : Lctl)
  /-- REPLAY_TIMEOUT (R393): ASEQ makes no progress for 20 µs and the sender replays. -/
  | replayTimeout (n : Nat)
  /-- LCTL_SEND_TIMER (R389): A receiver's LCTL reporting interval elapses and it sends an LCTL cell. -/
  | lctlSendTimer (n : Nat)
  /-- JX_PORT_UP (R395): The optical layer brings a port UP and Jexlink initialises it. -/
  | jxPortUp (n : Nat)
  /-- JX_WRITE (R401): A Jexlink WRITE is routed onward or delivered to the store or a core window. -/
  | jxWrite (n : Nat) (h : JxHdr) (data : List Byte)
  /-- JX_DELIVER (R401): A DELIVER packet lands in the arriving port's reception area. -/
  | jxDeliver (n : Nat) (h : JxHdr) (data : List Byte)
  /-- JX_REDUCE (R218): A REDUCE packet is combined granule by granule at the owning hub. -/
  | jxReduce (n : Nat) (h : JxHdr) (data : List Byte)
  /-- JX_READ_REQ (R401): A remote store read is served and answered with READ_RSP. -/
  | jxReadReq (n : Nat) (h : JxHdr)
  /-- JX_READ_RSP (R401): Remote read data returns to the requesting unit. -/
  | jxReadRsp (n : Nat) (h : JxHdr) (data : List Byte)
  /-- JX_ACK (R403): An acknowledgement with status returns to the sender of a packet. -/
  | jxAck (n : Nat) (h : JxHdr)
  /-- JX_TRANSFER_TIMEOUT (R403): A packet's answer is missing after JX_CFG.TMO and counts as TIMEOUT. -/
  | jxTransferTimeout (xid pidx : Nat)
  /-- BAR_ARRIVE (R405): The root's active steward counts a barrier arrival and releases at COUNT. -/
  | barArrive (n : Nat) (h : JxHdr) (data : List Byte)
  /-- BAR_RELEASE (R405): A barrier release or refusal completes a member's BARRIER. -/
  | barRelease (n : Nat) (h : JxHdr)
  /-- HELLO (R406): A HELLO records the far panel and port. -/
  | hello (n : Nat) (h : JxHdr) (data : List Byte)
  /-- HELLO_TIMER (R406): Each UP port sends HELLO every 100 ms. -/
  | helloTimer (n : Nat)
  /-- FARVALID_TIMEOUT (R406): No HELLO for 1 s clears FARVALID. -/
  | farvalidTimeout (n : Nat)
  /-- ROUTE_ADV (R407): A discovery advertisement updates routing-table entries. -/
  | routeAdv (n : Nat) (h : JxHdr) (data : List Byte)
  /-- ROUTE_ADV_TIMER (R407): The full advertisement is sent every 30 s. -/
  | routeAdvTimer
  /-- TIME_REQ (R408): A cross-panel time request arrives and is answered. -/
  | timeReq (n : Nat) (h : JxHdr) (data : List Byte)
  /-- TIME_RSP (R408): A time response yields an offset handed to panel-time adjustment. -/
  | timeRsp (n : Nat) (h : JxHdr) (data : List Byte)
  /-- JX_TIME_TIMER (R408): Every 10 ms a panel starts a time exchange with its parent. -/
  | jxTimeTimer
  /-- TIME_LOCK_LOSS (R409): 1 s without an exchange clears LOCKED. -/
  | timeLockLoss
  /-- LINKINFO (R365): A far panel's TX fibre powers arrive. -/
  | linkinfo (n : Nat) (h : JxHdr) (data : List Byte)
  /-- SEAL_OFFER (R619): A far OFFER is verified and the sealing keys are derived. -/
  | sealOffer (n : Nat) (offer : List Byte) (far : Option (List Byte))
  /-- SEAL_CONFIRM (R619): A far CONFIRM is verified and the receiving side switches keys. -/
  | sealConfirm (n : Nat) (tag : List Byte)
  /-- SEAL_OFFER_TIMEOUT (R620): No OFFER within 1 s makes the agreement FAILED. -/
  | sealOfferTimeout (n : Nat)
  /-- SEAL_RETRY_TIMER (R620): A FAILED port tries key agreement again every 1 s. -/
  | sealRetryTimer (n : Nat)
  /-- REKEY_TIMER (R410): 24 hours or SCTR nearing 2^40 starts a fresh key agreement. -/
  | rekeyTimer (n : Nat)
  /-- SEAL_REQ_WRITE (R619): Writing JX_SEAL_CTLp.REQ starts or stops sealing of a port. -/
  | sealReqWrite (src : Src) (n : Nat) (v : W32)
  /-- SEAL_REKEY (R619): Writing JX_SEAL_CTLp.REKEY agrees a fresh key now. -/
  | sealRekey (src : Src) (n : Nat)
  /-- JX_RT_WRITE (R396): A write to JX_RTd updates every copy of the routing table. -/
  | jxRtWrite (src : Src) (d : Nat) (v : W32)
  /-- JX_SELF_WRITE (R413): Writing JX_SELF sets the panel ID and clears SHADOWED. -/
  | jxSelfWrite (src : Src) (v : W32)
  /-- JX_ALIAS_WRITE (R412): Writing JX_ALIASi makes the panel answer for an alias ID. -/
  | jxAliasWrite (src : Src) (k : Nat) (v : W32)
  /-- LINK_TRAINING (R422): A die link is trained: control wires, eye sweep, mapping, test flits, or compat. -/
  | linkTraining (d way : Nat) (ctl sync : Bool) (eyes farEyes : List (List Nat)) (good compat : Bool)
  /-- MONITOR_SWEEP (R424): Every 1 ms a lane group's monitor measures one wire's eye. -/
  | monitorSweep (d way group wire eye : Nat)
  /-- COMPAT_TRAINING_COMPLETE (R427): Fallback training ends: traffic resumes at compat rate, or the link goes down and a recovery runs. -/
  | compatTrainingComplete (d way : Nat) (ok : Bool)
  /-- FORCE_COMPAT_WRITE (R426): Writing CD_LNK_CTLd.FORCE_COMPAT makes the link fall back. -/
  | forceCompatWrite (src : Src) (d w : Nat) (v : W32)
  /-- LINK_RETRAIN_WRITE (R429): Writing CD_LNK_CTLd.RETRAIN trains a link again. -/
  | linkRetrainWrite (src : Src) (d w : Nat)
  /-- GUEST_WRITE (R431): A guest's WRITE is checked against its windows and sent to the owning hub. -/
  | guestWrite (g : Nat) (h : BulkHdr) (data : List Byte)
  /-- GUEST_READ_REQ (R431): A guest's READ_REQ is checked and served. -/
  | guestReadReq (g : Nat) (h : BulkHdr)
  /-- GUEST_CREDIT (R432): A CREDIT unit returns freed request or response units. -/
  | guestCredit (g req rsp : Nat)
  /-- SIDEBAND_TIMEOUT (R433): A missing or bad control-channel response is retried, then the admission step fails. -/
  | sidebandTimeout (g : Nat)
  /-- GUEST_ADMISSION (R435): A guest is powered, trained, checked, verified and its windows opened. -/
  | guestAdmission (q : GuestTry)
  /-- MBOX_GO (R438): Writing GS_CTL.MBOX_GO sends the mailbox to the guest and rings its doorbell. -/
  | mboxGo (src : Src) (g : Nat)
  /-- MBOX_POLL (R438): Every 10 µs the adapter reads the guest's done flag and copies the answer. -/
  | mboxPoll (g : Nat) (flag : Bool) (answer : List Byte)
  /-- MBOX_TIMEOUT (R438): No answer within 100 ms sets MBOX_DONE and MBOX_TMO. -/
  | mboxTimeout (g : Nat)
  /-- GUEST_LINK_DROP (R443): The guest link drops and the site is admitted again from step 2. -/
  | guestLinkDrop (g : Nat)
  /-- REFCLK_LOST (R445): A die's selected reference is lost and it switches to the other. -/
  | refclkLost (node : Nat) (b : Bool)
  /-- REFCLK_MISMATCH (R445): The two references differ by over 100 ppm and dies move to the steward's reference. -/
  | refclkMismatch (node : Nat)
  /-- REFCLK_RESTORED (R445): A reference becomes good again after 100 ms in tolerance. -/
  | refclkRestored (node : Nat) (b : Bool) (boot : BootTry)
  /-- DROOP_DETECT (R451): A cluster's supply droop raises its stretch level. -/
  | droopDetect (d cl mv : Nat)
  /-- DROOP_RELAX (R451): After 16 cycles below threshold a cluster drops one stretch level. -/
  | droopRelax (d cl : Nat)
  /-- CLUSTER_FLOOR_WRITE (R452): A write to PFLOOR or RFLOOR changes a cluster's level at a cycle boundary. -/
  | clusterFloorWrite (src : Src) (d cl : Nat) (v : W32)
  /-- REPLICA_READING (R454): Each 1 ms reading of a replica monitor may raise RFLOOR or fold the core. -/
  | replicaReading (u slack : Nat)
  /-- ANCHOR_LATCH (R463): Every 256 ticks each cluster latches a panel-time and cycle anchor. -/
  | anchorLatch
  /-- PT_EXCHANGE_TIMER (R459): A die starts a panel-time exchange with its parent. -/
  | ptExchangeTimer (node : Nat)
  /-- PT_LOCK_TIMEOUT (R459): An admitted die without PT_LOCK for 10 ms has a die fault. -/
  | ptLockTimeout (node : Nat)
  /-- BLADE_LOST (R473): A blade is lost and the budget is capped if two are lost. -/
  | bladeLost (b : Nat)
  /-- BLADE_RESTORED (R473): A lost blade is restored. -/
  | bladeRestored (b : Nat)
  /-- PHASE_IMBALANCE (R476): A regulator phase out of balance for 10 µs, or faulted, is shed. -/
  | phaseImbalance (d phase : Nat)
  /-- CT_PHASE_FAIL (R477): A cartridge phase fails and the spare absorbs it or output is limited. -/
  | ctPhaseFail (n phase : Nat)
  /-- FUSE_TRIP (R478): A region cartridge's fuse opens and the region becomes a hole. -/
  | fuseTrip (n cause : Nat)
  /-- FUSE_RETRY (R478): Writing PWR_CT_CTLn.RETRY closes a tripped fuse and takes an ante. -/
  | fuseRetry (src : Src) (n : Nat)
  /-- CT_SWAP_REQ (R480): Writing SWAP_REQ starts a cartridge swap. -/
  | ctSwapReq (src : Src) (n : Nat)
  /-- CT_SWAP_PROCEED (R480): At the commit or after 10 s the region is holed, powered off and SWAP_READY. -/
  | ctSwapProceed (n : Nat)
  /-- CT_SWAP_CANCEL (R480): Writing SWAP_CANCEL before SWAP_READY ends the swap. -/
  | ctSwapCancel (src : Src) (n : Nat)
  /-- CT_SEATED (R481): A seated cartridge's identity record is checked and it is brought up by an ante. -/
  | ctSeated (n : Nat) (record : List Byte)
  /-- CT_PULLED (R481): A cartridge pulled without request is handled as a fuse trip. -/
  | ctPulled (n : Nat)
  /-- BUDGET_EXCHANGE (R484): Every 1 ms the steward computes the pool and sends GRANTs. -/
  | budgetExchange (m : PwrMeas)
  /-- GRANT_TIMEOUT (R484): No GRANT for 3 ms and the region keeps its last budget. -/
  | grantTimeout (r : Nat)
  /-- REGION_POWER_LOOP (R485): Every 10 µs a region manager raises or lowers floors against its budget. -/
  | regionPowerLoop (r input : Nat) (order : List (Nat × Nat))
  /-- HARD_LIMIT_TRIP (R486): Input above the hard limit for 1 µs forces every cluster to level 5 for 1 ms. -/
  | hardLimitTrip (rgn : Bool) (n : Nat)
  /-- EXCURSION_LIMIT (R483): An excursion above 16 kW reaching 4 ms makes hard limits equal budgets. -/
  | excursionLimit
  /-- EXCURSION_RECOVERED (R483): After the input stays at or below 16 kW as long, hard limits are restored. -/
  | excursionRecovered
  /-- ANTE_REQUEST (R488): A cartridge controller requests an ante for its region. -/
  | anteRequest (r why : Nat)
  /-- ANTE_EVALUATION (R489): Every 100 µs the steward grants pending antes whose conditions hold. -/
  | anteEvaluation (m : PwrMeas)
  /-- ANTE_TIMEOUT (R489): An ante not granted within TMO is refused. -/
  | anteTimeout (r : Nat)
  /-- RAMP_COMPLETE (R490): A region's 12 V bus reaches regulation and the ramp slot frees. -/
  | rampComplete (r : Nat)
  /-- ANTE_PERIOD_END (R487): 10 ms after regulation the region leaves its worst-case reservation. -/
  | antePeriodEnd (r : Nat)
  /-- IDLE_STATE_ENTRY (R492): An idle region enters the deepest state its tolerance permits after the idle time. -/
  | idleStateEntry (r target : Nat) (tabs : List (Nat × List Byte))
  /-- REGION_WAKE (R493): A region leaves C1 or C3 on a wake request or first packet. -/
  | regionWake (r : Nat)
  /-- INPUT_V_OUT_OF_RANGE (R494): Input outside 44 V to 58 V for 100 µs posts INPUT_V. -/
  | inputVOutOfRange (volt : Nat)
  /-- INPUT_V_LOW_CLAMP (R494): Input below 42 V for 1 ms issues CLAMP level 2. -/
  | inputVLowClamp (volt : Nat)
  /-- INPUT_V_CUTOFF (R494): Input below 40 V or above 60 V turns every cartridge off. -/
  | inputVCutoff (volt : Nat)
  /-- INPUT_V_RESTORED (R494): Input back in range for 100 ms releases the clamp. -/
  | inputVRestored (volt : Nat)
  /-- COOLANT_POLL (R501): Every 10 ms the steward reads the tray coolant sensors. -/
  | coolantPoll (inlet outlet : Int) (flow : Nat) (fault rising : Bool)
  /-- COOLANT_DATA_TIMEOUT (R503): No valid flow reading for 1 s limits the budget to BLIND_W. -/
  | coolantDataTimeout
  /-- FLOW_FAULT_ASSERT (R517): FLOW_FAULT_N asserts and an abrupt stop begins. -/
  | flowFaultAssert
  /-- JUNCTION_SAMPLE (R505): Each 10 µs cluster sensors are sampled and judged for the governing temperature. -/
  | junctionSample (d cl : Nat) (diode ring : Int)
  /-- CLUSTER_HOLD_RELEASE (R506): A held cluster is released after 10 s of plausible readings. -/
  | clusterHoldRelease (d cl : Nat)
  /-- THERMAL_RANK (R509): Every 1 ms the steward raises or lowers region thermal floors. -/
  | thermalRank
  /-- HOLD_RELEASE (R510): A held region leaves P1 after 100 ms below HOLD − 5 °C. -/
  | holdRelease (r : Nat)
  /-- THERMAL_TRIP (R511): A trip comparator turns a region's cartridge off and the region becomes a hole. -/
  | thermalTrip (r d : Nat)
  /-- TRIP_RETURN (R512): A tripped region returns once time, flow and inlet conditions hold, unless locked. -/
  | tripReturn (r : Nat)
  /-- TRIP_CLR_WRITE (R512): Writing THM_CTL.TRIP_CLR releases a locked region. -/
  | tripClrWrite (src : Src) (v : W32)
  /-- PERIM_THERMAL_LIMIT (R513): A perimeter unit reaches its limit or trip and takes its action. -/
  | perimThermalLimit (u : Nat) (temp : Int)
  /-- MANAGED_STOP (R515): Flow below 12 L/min for 5 s begins a managed stop. -/
  | managedStop
  /-- MANAGED_STOP_LAYER_LIMIT (R515): A layer not committed STOP_S after the stop began is ended. -/
  | managedStopLayerLimit
  /-- MANAGED_STOP_CLAMP (R515): With no layer running, or at 30 s, CLAMP level 2 is issued. -/
  | managedStopClamp
  /-- MANAGED_STOP_END (R516): Flow at 16 L/min for 10 s ends the stop and releases the clamp. -/
  | managedStopEnd
  /-- ABRUPT_CLAMP_LEVEL2 (R517): Within 500 µs of an abrupt stop CLAMP level 2 is issued. -/
  | abruptClampLevel2
  /-- ABRUPT_LAYER_END (R517): After 30 s without flow every running layer ends with POWER_LIMIT. -/
  | abruptLayerEnd
  /-- ABRUPT_STOP_END (R518): FLOW_FAULT_N deasserted and flow restored for 10 s release the clamp. -/
  | abruptStopEnd
  /-- FLOW_GUARD (R519): A cartridge seeing FLOW_FAULT_N for 10 ms with an unclamped region turns off. -/
  | flowGuard (r : Nat)
  /-- POWER_ON (R532): 48 V power-on runs the start-up sequence to READY. -/
  | powerOn (b : BootTry)
  /-- TRAY_RESET (R525): TRAY_RESET_N low for 10 µs causes a panel cold reset. -/
  | trayReset
  /-- WARM_RESET (R525): Writing RST_CTL.WARM with 0x5752 starts a panel warm reset. -/
  | warmReset (src : Src) (v : W32) (b : BootTry)
  /-- WATCHDOG_KICK (R529): Firmware writes RST_WDOG.KICK, restarting the watchdog. -/
  | watchdogKick (src : Src) (sd : Nat)
  /-- WATCHDOG_EXPIRY (R529): The steward watchdog expires and that steward is reset. -/
  | watchdogExpiry (sd us : Nat)
  /-- BLOCK_RESET (R530): The reset controller asserts a block's idle request. -/
  | blockReset (scope cause : Nat)
  /-- BLOCK_IDLE (R530): A block reports idle and is reset. -/
  | blockIdle (scope : Nat)
  /-- BLOCK_IDLE_TIMEOUT (R530): A block not idle after TMO_US is reset by force. -/
  | blockIdleTimeout (scope : Nat)
  /-- REGION_RESET (R525): Firmware resets one region. -/
  | regionReset (r : Nat)
  /-- DIE_RESET (R525): Firmware resets one compute die. -/
  | dieReset (d : Nat)
  /-- CONFIG_SAVE (R536): Writing RST_CTL.SAVE records the owner configuration in the logbook. -/
  | configSave (src : Src)
  /-- CORE_FOLD (R552): An immediate fold fences a core, stops its partition and redoes the layer. -/
  | coreFold (c code : Nat)
  /-- BOUNDARY_FOLD (R554): A fold between layers re-places the core and restores its state. -/
  | boundaryFold (c : Nat)
  /-- QUIET_TIMEOUT (R553): A die not quiet 5 ms after STOP has a die fault. -/
  | quietTimeout (part die : Nat)
  /-- DIE_FOLD (R556): A die becomes a hole, tables bridge it and stopped layers are redone. -/
  | dieFold (d code : Nat) (tabs : List (Nat × List Byte)) (lost : List (Nat × Nat))
  /-- DIE_RETRY (R550): A retriable die fault resets, self-tests and retrains the die. -/
  | dieRetry (d : Nat) (ok : Bool) (tabs : List (Nat × List Byte))
  /-- REGION_LOSS (R557): A region becomes a hole, routes change and partitions are re-embedded. -/
  | regionLoss (r : Nat) (tabs : List (Nat × List Byte)) (lost : List (Nat × Nat))
  /-- REGION_RETURN (R558): A region returns after ante, re-admission and training. -/
  | regionReturn (r : Nat) (tabs : List (Nat × List Byte))
  /-- KITTY_SELFTEST (R548): The die manager self-tests a kitty core every 24 hours or before a stray. -/
  | kittySelftest (c : Nat) (pass : Bool)
  /-- STEWARD_HEARTBEAT_TIMER (R562): The active steward sends a heartbeat every 10 ms on both paths. -/
  | stewardHeartbeatTimer (wire : Bool)
  /-- STEWARD_TAKEOVER (R563): 5 missed heartbeats on both paths make the standby reset the active and take over. -/
  | stewardTakeover (us : Nat)
  /-- STANDBY_FAILURE (R682): 5 missed answers make the active reset the standby. -/
  | standbyFailure
  /-- STEWARD_LOST (R564): A host interface die sees no heartbeat for 100 ms and posts STEWARD_LOST. -/
  | stewardLost (hid : Nat)
  /-- MANAGER_HEARTBEAT_TIMER (R566): A region manager sends its heartbeat every 1 ms. -/
  | managerHeartbeatTimer (r : Nat) (sent : Bool)
  /-- MANAGER_TAKEOVER (R567): 3 missed heartbeats make the next die take over as region manager. -/
  | managerTakeover (r : Nat)
  /-- TRICK_COLLECTION_TIMEOUT (R584): 20 ms after T the steward completes the trick marking unreported units absent. -/
  | trickCollectionTimeout
  /-- TRICK_COMPLETE (R584): All units have reported and the steward writes the header and completes. -/
  | trickComplete
  /-- DAILY_TRICK (R593): At each day boundary firmware takes a trick and writes daily records. -/
  | dailyTrick
  /-- COUNTER_WRAP_EVENT (R579): A unit posts COUNTER_WRAP at most once per second. -/
  | counterWrapEvent (unit : Nat)
  /-- LOG_RECORD_WRITE (R590): Firmware programs a record to both logbook devices. -/
  | logRecordWrite (kind unit : Nat) (payload : List Byte)
  /-- LOG_DEVICE_FAIL (R595): A logbook device fails and firmware continues on the other. -/
  | logDeviceFail (dev : Nat)
  /-- TEL_IMG_WRITE (R586): A write to TEL_IMG sets the trick image area or is refused. -/
  | telImgWrite (src : Src) (v : M64)
  /-- HLTH_CLR (R598): Writing a CLR field clears health counts and saturation bits. -/
  | hlthClr (src : Src) (d : Nat) (n : Option Nat) (v : W32)
  /-- AUTH_CHALLENGE (R623): Mailbox: the keyring returns a 32-byte challenge. -/
  | authChallenge (q role : Nat)
  /-- AUTH_RESPONSE (R604): Mailbox: a signed response grants a role or counts a failure. -/
  | authResponse (q role keyid : Nat) (sig : List Byte)
  /-- AUTH_LOCK_EXPIRY (R604): A 60 s AUTH lock ends. -/
  | authLockExpiry (q : Nat)
  /-- AUTH_DROP (R604): Mailbox: the PF drops its role. -/
  | authDrop (q : Nat)
  /-- OWNER_ENROLL (R608): Mailbox: enrol an owner key in an OTP slot. -/
  | ownerEnroll (q slot : Nat) (key : List Byte)
  /-- OWNER_REVOKE (R608): Mailbox: revoke an owner slot. -/
  | ownerRevoke (q slot : Nat)
  /-- COSIGN_SET (R608): Mailbox: burn the co-signature fuse. -/
  | cosignSet (q : Nat)
  /-- OPERATOR_SET (R623): Mailbox: set or clear an operator key. -/
  | operatorSet (q slot : Nat) (key : List Byte)
  /-- ZEROISE (R613): Mailbox: clear keys and trigger a panel warm reset. -/
  | zeroise (q : Nat) (b : BootTry)
  /-- SELFTEST (R611): Mailbox: rerun the keyring's known-answer tests. -/
  | selftest (q failed : Nat)
  /-- KEYRING_TAMPER (R612): A tamper condition zeroises the keyring and warm-resets the panel. -/
  | keyringTamper (sd kind : Nat) (b : BootTry)
  /-- SPDM_GET_VERSION (R614): SPDM request for the supported versions. -/
  | spdmGetVersion (via : SpdmVia)
  /-- SPDM_GET_CAPABILITIES (R614): SPDM request for capabilities. -/
  | spdmGetCapabilities (via : SpdmVia)
  /-- SPDM_NEGOTIATE_ALGORITHMS (R614): SPDM algorithm negotiation. -/
  | spdmNegotiateAlgorithms (via : SpdmVia) (offers : Bool)
  /-- SPDM_GET_DIGESTS (R614): SPDM request for certificate digests. -/
  | spdmGetDigests (via : SpdmVia)
  /-- SPDM_GET_CERTIFICATE (R614): SPDM request for the slot 0 chain. -/
  | spdmGetCertificate (via : SpdmVia) (slot off len : Nat)
  /-- SPDM_CHALLENGE (R614): SPDM challenge answered with a signature. -/
  | spdmChallenge (via : SpdmVia) (slot : Nat) (nonce : List Byte)
  /-- SPDM_GET_MEASUREMENTS (R616): SPDM request returning measurement slots. -/
  | spdmGetMeasurements (via : SpdmVia) (idx : Nat) (signed : Bool) (nonce : List Byte)
  /-- SPDM_VENDOR_LOG_READ (R617): Vendor-defined SPDM request returning signed logbook records. -/
  | spdmVendorLogRead (via : SpdmVia) (cursor die kind maxlen : Nat) (req : List Byte)
  /-- CKU_START (R630): Writing CKU_CTL.START loads INIT into RUN. -/
  | ckuStart (src : Src) (u : Nat) (v : W32)
  /-- CKU_DATA_WRITE (R630): A write to CKU_DATA feeds bytes through the CRC. -/
  | ckuDataWrite (src : Src) (u : Nat) (v : M64)
  /-- CKU_CLR (R640): Writing CKU_STAT.CLR clears the check counts. -/
  | ckuClr (src : Src) (u : Nat) (v : W32)
  /-- PROTECTED_ACK_TIMEOUT (R633): An unacknowledged protected message is resent after 100 µs, up to 8 times. -/
  | protectedAckTimeout (snode dnode mtype alive : Nat)
  /-- SETUP_LOCK_WRITE (R653): Writing SETUP_LOCK.LOCK records and latches every RWL field, or is held until READY. -/
  | setupLockWrite (src : Src) (v : W32)
  /-- REGISTER_WRITE (R648): A write to a register field without a row of its own, under its access code. -/
  | registerWrite (src : Src) (off n v : Nat)
  /-- I3C_ROLE_REQUEST (R673): The tray requests the I3C controller role and the steward hands the bus over. -/
  | i3cRoleRequest
  /-- I3C_TAKE_BACK (R673): After 2 ms or on hand-back the steward takes the bus back. -/
  | i3cTakeBack
  /-- TRAY_I3C_ACCESS (R673): A tray access to target 0x5A reads set-up space or writes allowed registers. -/
  | trayI3cAccess (wr : Option (List Byte))
  /-- I3C_TARGET_TIMEOUT (R669): A module or cartridge that does not answer within 1 ms is retried, then fails. -/
  | i3cTargetTimeout (els : Bool) (k : Nat)
  /-- ELS_LASER_EN (R669): Writing LASER_EN in a module lets its lasers emit while interlocks are mated. -/
  | elsLaserEn (k : Nat) (v : W32)
  /-- CT_OUT_EN (R669): Writing OUT_EN in a cartridge ramps its output. -/
  | ctOutEn (k : Nat) (v : W32)
  /-- STACK_RETRAINED (R257): A stack being retrained after a controller fault trains again within 1 ms, and the hub serves the requests it held. -/
  | stackRetrained (stack : Nat)
  /-- CARTRIDGE_FAULT (R479): A memory or optical cartridge (CT16 to CT19) fails, and the hubs and stacks, or the engines, lasers and guest site it feeds, go out of service or dark. -/
  | cartridgeFault (n : Nat)
  /-- VF_ENABLE (R311): The host writes VF Enable or NumVFs in a PF's SR-IOV capability, enabling or disabling virtual functions. -/
  | vfEnable (ep : Nat) (en : Bool) (num : Nat)
  /-- HOST_REQUEST_REJECTED (R327): The host answers a descriptor fetch, data read or completion, event or data write with an error or poisoned data. -/
  | hostRequestRejected (q : HostReq)
  /-- PERST_DEASSERTION (R546): PERST0_N or PERST1_N is released and the endpoint leaves reset and its default ring pair is written. -/
  | perstDeassertion (ep : Nat)
  /-- TRAY_RESET_RELEASE (R679): TRAY_RESET_N is released and the start-up sequence runs from step 1. -/
  | trayResetRelease (b : BootTry)
  /-- FLOW_FAULT_DEASSERTED (R518): The tray releases FLOW_FAULT_N, ending the cartridges' flow-guard count and enabling the end of an abrupt stop. -/
  | flowFaultDeasserted
  /-- HARD_LIMIT_FORCE_END (R486): The 1 ms during which a cartridge or die regulator forces every cluster to level 5 expires, and the forced level is lifted. -/
  | hardLimitForceEnd (rgn : Bool) (n : Nat)
  /-- PERIM_THERMAL_CLEAR (R513): A perimeter unit's temperature has stayed 5 °C below its limit for 1 s and it clears its limit action. -/
  | perimThermalClear (u : Nat) (temp : Int)
  /-- LANE_LOCK_LOSS (R361): An optical RX lane loses CDR or symbol lock, counting in OE_LANE_LOCKl and clearing LOCK, and later regains it. -/
  | laneLockLoss (k l : Nat) (regained : Bool)
  /-- SLEW_STEP_START (R461): Panel time reaches the start time of a received SLEW or STEP, and each die begins the adjustment or applies the step. -/
  | slewStepStart
  /-- STANDBY_MIRROR_COMPLETE (R682): A reset steward has booted as standby and completed its mirror, and STANDBY_OK becomes 1. -/
  | standbyMirrorComplete
  /-- HANDOVER_WAIT_EXPIRY (R568): The 10 s that the active steward waits for running layers to commit during a planned handover expires, and it stops them and hands over. -/
  | handoverWaitExpiry
  /-- ENTROPY_HEALTH_TEST_FAIL (R611): A continuous health test of the keyring's entropy source fails and the keyring enters ERROR. -/
  | entropyHealthTestFail (sd : Nat)
  deriving DecidableEq, Repr

end Sys2Proof
end

