-- ==== Sys2Proof/Decode.lean ====
section
/-! DEFINITION. Words. The table's rows are commands that arrive as register accesses, packets, frames and events; it gives no row any bits, so no word
spells a command by them. The rows that a core's instructions are stand in its window as words whose formats the spec does give (R49 to R55): `decodeWord`
reads them. -/

namespace Sys2Proof

/-- The command that a word of the table's bits spells: none, since no row has bits. -/
def decodeTableWord (_nbits _w : Nat) : Option Instr := none

end Sys2Proof

namespace Sys2Proof.Machine

/-! ### Instruction words of a core (R45, R49 to R55)

Bits [31:0] are the word at the lower offset, bits [63:32] the second word of the long form. -/

/-- The detail with which a word traps as reserved or illegal (R49, R680): 0 for its opcode, 1 for its FUNC, SUB or KIND; none for a word
of a defined instruction. -/
def reservedDetail (w : BitVec 64) : Option Nat :=
  let op := bitsOf w.toNat 26 6
  let func := bitsOf w.toNat 0 11
  let sub := bitsOf w.toNat 23 3
  if op = 0 ∨ op = 9 ∨ (0x0C ≤ op ∧ op ≤ 0x0F) ∨ (0x21 ≤ op ∧ op ≤ 0x23) ∨ op = 0x27 ∨ (0x2C ≤ op ∧ op ≤ 0x2F) ∨
     (0x36 ≤ op ∧ op ≤ 0x3B) ∨ op = 0x3E ∨ op = 0x3F then some 0
  else if op = 1 ∧ (func = 0x16 ∨ func = 0x17 ∨ 0x1D ≤ func) then some 1
  else if op = 0x20 ∧ 4 ≤ sub then some 1
  else if op = 0x24 ∧ 4 ≤ sub then some 1
  else if op = 0x25 ∧ 2 ≤ sub then some 1
  else if op = 0x2B ∧ 8 ≤ func then some 1
  else if op = 0x3C ∧ 4 ≤ func then some 1
  else if op = 0x3D ∧ 2 ≤ bitsOf w.toNat 21 5 then some 1
  else none

/-- Is a word long form (R45)? -/
def longForm (w : BitVec 64) : Bool := decide (bitsOf w.toNat 29 3 = 6)

/-- RD, RA and RB of formats A and I, and IMM16 (R51, R52). -/
def fieldRD (w : BitVec 64) : BitVec 5 := w.extractLsb' 21 5
def fieldRA (w : BitVec 64) : BitVec 5 := w.extractLsb' 16 5
def fieldRB (w : BitVec 64) : BitVec 5 := w.extractLsb' 11 5
def fieldImm (w : BitVec 64) : BitVec 16 := w.extractLsb' 0 16

/-- The fields of format M (R55). -/
def fieldsM (w : BitVec 64) : FmtM :=
  { immB := w.extractLsb' 48 16, immA := w.extractLsb' 32 16, sub := w.extractLsb' 21 5, t := w.extractLsb' 18 3, fmt := w.extractLsb' 14 4
    aa := w.extractLsb' 11 3, ab := w.extractLsb' 8 3, shape := w.extractLsb' 4 4, flags := w.extractLsb' 0 4 }

/-- A scalar instruction of major opcode 0x01, by FUNC (R51, R56). -/
def decodeScalar (c : Nat) (w : BitVec 64) : Instr :=
  let rd := fieldRD w
  let ra := fieldRA w
  let rb := fieldRB w
  match bitsOf w.toNat 0 11 with
  | 0x00 => .add c rd ra rb
  | 0x01 => .sub c rd ra rb
  | 0x02 => .and c rd ra rb
  | 0x03 => .or c rd ra rb
  | 0x04 => .xor c rd ra rb
  | 0x05 => .sll c rd ra rb
  | 0x06 => .srl c rd ra rb
  | 0x07 => .sra c rd ra rb
  | 0x08 => .slt c rd ra rb
  | 0x09 => .sltu c rd ra rb
  | 0x0A => .smin c rd ra rb
  | 0x0B => .smax c rd ra rb
  | 0x0C => .minu c rd ra rb
  | 0x0D => .maxu c rd ra rb
  | 0x0E => .mul c rd ra rb
  | 0x0F => .mulh c rd ra rb
  | 0x10 => .mulhu c rd ra rb
  | 0x11 => .clz c rd ra rb
  | 0x12 => .popc c rd ra rb
  | 0x13 => .slli c rd ra rb
  | 0x14 => .srli c rd ra rb
  | 0x15 => .srai c rd ra rb
  | 0x18 => .adda c rd ra rb
  | 0x19 => .mova c rd ra rb
  | 0x1A => .mfal c rd ra rb
  | 0x1B => .mfah c rd ra rb
  | 0x1C => .jalr c rd ra rb
  | _ => .reservedOpcode c w

/-- A vector instruction of major opcode 0x28: FUNC is MASK, FMT and VOP (R59). -/
def decodeVector (c : Nat) (w : BitVec 64) : Instr :=
  let rd := fieldRD w
  let ra := fieldRA w
  let rb := fieldRB w
  let mask : BitVec 3 := w.extractLsb' 8 3
  let fmt : BitVec 4 := w.extractLsb' 4 4
  match bitsOf w.toNat 0 4 with
  | 0 => .vadd c rd ra rb mask fmt
  | 1 => .vsub c rd ra rb mask fmt
  | 2 => .vmul c rd ra rb mask fmt
  | 3 => .vfma c rd ra rb mask fmt
  | 4 => .vmax c rd ra rb mask fmt
  | 5 => .vmin c rd ra rb mask fmt
  | 6 => .vcmplt c rd ra rb mask fmt
  | 7 => .vcmpeq c rd ra rb mask fmt
  | 8 => .vsel c rd ra rb mask fmt
  | 9 => .vrcp c rd ra rb mask fmt
  | 10 => .vrsq c rd ra rb mask fmt
  | 11 => .vexp2 c rd ra rb mask fmt
  | 12 => .vrsum c rd ra rb mask fmt
  | 13 => .vrmax c rd ra rb mask fmt
  | 14 => .vbcast c rd ra rb mask fmt
  | _ => .vcvt c rd ra rb mask fmt

/-- A predicate instruction of major opcode 0x2B, by FUNC (R59). -/
def decodePredicate (c : Nat) (w : BitVec 64) : Instr :=
  let rd := fieldRD w
  let ra := fieldRA w
  let rb := fieldRB w
  match bitsOf w.toNat 0 11 with
  | 0 => .mand c rd ra rb
  | 1 => .mor c rd ra rb
  | 2 => .mxor c rd ra rb
  | 3 => .mnot c rd ra rb
  | 4 => .mset c rd ra rb
  | 5 => .mgetl c rd ra rb
  | 6 => .mgeth c rd ra rb
  | 7 => .mpopc c rd ra rb
  | _ => .reservedOpcode c w

/-- A stream instruction of major opcode 0x20, by KIND (R53). -/
def decodeStream (c : Nat) (w : BitVec 64) : Instr :=
  let eng : BitVec 2 := w.extractLsb' 21 2
  let rsv : BitVec 2 := w.extractLsb' 19 2
  let da : BitVec 3 := w.extractLsb' 16 3
  let doff := fieldImm w
  match bitsOf w.toNat 23 3 with
  | 0 => .streamGather c eng rsv da doff
  | 1 => .streamSend c eng rsv da doff
  | 2 => .streamMcast c eng rsv da doff
  | 3 => .streamRsend c eng rsv da doff
  | _ => .reservedOpcode c w

/-- An instruction of major opcode 0x24, by SUB (R54). -/
def decodeCounter (c : Nat) (w : BitVec 64) : Instr :=
  let cidx : BitVec 6 := w.extractLsb' 17 6
  let sf : BitVec 1 := w.extractLsb' 16 1
  match bitsOf w.toNat 23 3 with
  | 0 => .waitGe c cidx sf (fieldImm w)
  | 1 => .cntAdd c cidx sf (fieldImm w)
  | 2 => .cntSet c cidx sf (fieldImm w)
  | 3 => .cntRd c cidx sf (fieldImm w)
  | _ => .reservedOpcode c w

/-- An instruction of major opcode 0x25, by SUB (R54). -/
def decodeSync (c : Nat) (w : BitVec 64) : Instr :=
  let ch : BitVec 3 := w.extractLsb' 20 3
  let rsv : BitVec 20 := w.extractLsb' 0 20
  match bitsOf w.toNat 23 3 with
  | 0 => .syncArrive c ch rsv
  | 1 => .syncWait c ch rsv
  | _ => .reservedOpcode c w

/-- A system instruction of major opcode 0x3C, by FUNC, or 0x3D, by RD (R76). -/
def decodeSystem (c : Nat) (w : BitVec 64) : Instr :=
  if bitsOf w.toNat 26 6 = 0x3D then
    match bitsOf w.toNat 21 5 with
    | 0 => .taskEnd c (fieldRA w) (fieldImm w)
    | 1 => .trap c (fieldRA w) (fieldImm w)
    | _ => .reservedOpcode c w
  else
    match bitsOf w.toNat 0 11 with
    | 0 => .nop c (fieldRD w) (fieldRA w) (fieldRB w)
    | 1 => .sysRd c (fieldRD w) (fieldRA w) (fieldRB w)
    | 2 => .sysWr c (fieldRD w) (fieldRA w) (fieldRB w)
    | 3 => .fenceI c (fieldRD w) (fieldRA w) (fieldRB w)
    | _ => .reservedOpcode c w

/-- The instruction that a word of core `c`'s window spells (R49): its major opcode picks the format and the group. -/
def decodeWord (c : Nat) (w : BitVec 64) : Instr :=
  let rd := fieldRD w
  let ra := fieldRA w
  let imm := fieldImm w
  let m := fieldsM w
  match bitsOf w.toNat 26 6 with
  | 0x01 => decodeScalar c w
  | 0x02 => .addi c rd ra imm
  | 0x03 => .andi c rd ra imm
  | 0x04 => .ori c rd ra imm
  | 0x05 => .xori c rd ra imm
  | 0x06 => .slti c rd ra imm
  | 0x07 => .lui c rd ra imm
  | 0x08 => .addaI c rd ra imm
  | 0x0A => .ldA c rd ra imm
  | 0x0B => .stA c rd ra imm
  | 0x10 => .beq c rd ra imm
  | 0x11 => .bne c rd ra imm
  | 0x12 => .blt c rd ra imm
  | 0x13 => .bge c rd ra imm
  | 0x14 => .bltu c rd ra imm
  | 0x15 => .bgeu c rd ra imm
  | 0x16 => .jal c rd ra imm
  | 0x17 => .loop c rd ra imm
  | 0x18 => .ldW c rd ra imm
  | 0x19 => .ldH c rd ra imm
  | 0x1A => .ldHs c rd ra imm
  | 0x1B => .ldB c rd ra imm
  | 0x1C => .ldBs c rd ra imm
  | 0x1D => .stW c rd ra imm
  | 0x1E => .stH c rd ra imm
  | 0x1F => .stB c rd ra imm
  | 0x20 => decodeStream c w
  | 0x24 => decodeCounter c w
  | 0x25 => decodeSync c w
  | 0x26 => .msgSend c rd ra (fieldRB w) (w.extractLsb' 0 11)
  | 0x28 => decodeVector c w
  | 0x29 => .vld c rd ra imm
  | 0x2A => .vst c rd ra imm
  | 0x2B => decodePredicate c w
  | 0x30 => .mma c m
  | 0x31 => .sparseLd c m
  | 0x32 => .accCvt c m
  | 0x33 => .zmask c m
  | 0x34 => .tileLd c m
  | 0x35 => .tileSt c m
  | 0x3C => decodeSystem c w
  | 0x3D => decodeSystem c w
  | _ => .reservedOpcode c w

end Sys2Proof.Machine
end

