-- ==== Sys2Proof/Machine/Crc.lean ====
section
/-! DEFINITION. The cyclic redundancy checks (R630, R631). -/

namespace Sys2Proof.Machine

/-- `w` bits in the reverse order. -/
def reflect : Nat → Nat → Nat
  | 0, _ => 0
  | w + 1, x => x % 2 * 2 ^ w + reflect w (x / 2)

/-- One input bit (R630). -/
def crcBit (w poly run bit : Nat) : Nat :=
  let r := run * 2 % 2 ^ w
  if bitsOf run (w - 1) 1 = bit then r else Nat.xor r (poly % 2 ^ w)

/-- One input byte (R630). -/
def crcByte (w poly : Nat) (refin : Bool) (run : Nat) (b : Byte) : Nat :=
  let v := if refin then reflect 8 b.toNat else b.toNat
  [7, 6, 5, 4, 3, 2, 1, 0].foldl (fun r i => crcBit w poly r (bitsOf v i 1)) run

/-- RUN after bytes (R630). -/
def crcRun (w poly : Nat) (refin : Bool) (run : Nat) (l : List Byte) : Nat := l.foldl (crcByte w poly refin) run

/-- The result of a running value (R630). -/
def crcResult (w : Nat) (refout : Bool) (xorout run : Nat) : Nat := Nat.xor (if refout then reflect w run else run % 2 ^ w) (xorout % 2 ^ w)

/-- The check value of bytes under a setting (R630). -/
def crc (w poly init xorout : Nat) (refin refout : Bool) (l : List Byte) : Nat :=
  crcResult w refout xorout (crcRun w poly refin (init % 2 ^ w) l)

/-- CRC-32 with the IEEE 802.3 settings, and CRC-32C (R631). -/
def crc32 (l : List Byte) : Nat := crc 32 0x04C11DB7 0xFFFFFFFF 0xFFFFFFFF true true l
def crc32c (l : List Byte) : Nat := crc 32 0x1EDC6F41 0xFFFFFFFF 0xFFFFFFFF true true l

end Sys2Proof.Machine
end

