-- ==== Sys2Proof/Config.lean ====
section
/-! DEFINITION. What the spec leaves open: free values, which nothing in Lean can evaluate, and the primitives that the
spec names by their standards without giving them (uninterpreted functions). -/

namespace Sys2Proof

/-- DESIGN CHOICE, log entry 4: the `n`-th free value the machine draws. The step supplies `n` from State.fresh. -/
opaque Config.freeValue : Nat → Nat

/-- DESIGN CHOICE, log entry 4: the `i`-th part of the `n`-th free value, where one command leaves several values open. -/
opaque Config.freePart : Nat → Nat → Nat

/-- DESIGN CHOICE, log entry 5: SHA-512 of a message (FIPS 180-4, named in R601). -/
opaque Config.sha512 : List Byte → List Byte

/-- DESIGN CHOICE, log entry 5: the Ed25519 signature of a message by a seed (RFC 8032, named in R601). -/
opaque Config.sign : Nat → List Byte → List Byte

/-- DESIGN CHOICE, log entry 5: whether a signature verifies under a public key (RFC 8032, named in R601). -/
opaque Config.verify : List Byte → List Byte → List Byte → Bool

/-- DESIGN CHOICE, log entry 5: a key derived from a shared secret and its context (HKDF, named in R619). -/
opaque Config.derive : Nat → List Byte → Nat

/-- DESIGN CHOICE, log entry 5: the X25519 shared secret of a private and a public value (RFC 7748, named in R619). -/
opaque Config.x25519 : Nat → List Byte → Nat

/-- DESIGN CHOICE, log entry 5: the X25519 public value of a private one (RFC 7748, named in R619). -/
opaque Config.x25519Pub : Nat → List Byte

/-- DESIGN CHOICE, log entry 5: the public key of an Ed25519 seed (RFC 8032, named in R601). -/
opaque Config.pubKey : Nat → List Byte

/-- DESIGN CHOICE, log entry 5: the bytes that AES-256-GCM gives for a key, a nonce, additional data and a plain text: the sealed text and its 16-byte
tag (named in R410). -/
opaque Config.seal : Nat → Nat → List Byte → List Byte → List Byte × Nat

/-- DESIGN CHOICE, log entry 5: the plain text of a sealed text with its additional data and tag, none where the tag fails (named in R410). -/
opaque Config.unseal : Nat → Nat → List Byte → List Byte → Nat → Option (List Byte)

/-- DESIGN CHOICE, log entry 3: the serial number that the panel's certificate names (per panel, R650). -/
opaque Config.serial : Nat

/-- DESIGN CHOICE, log entry 3: whether the part is a PRA-144-G (per part, R650). -/
opaque Config.partG : Bool

/-- DESIGN CHOICE, log entry 3: the guest sites fitted at the factory, bit g for GSg (per panel, R650). -/
opaque Config.fitted : Nat

/-- DESIGN CHOICE, log entry 3: a steward die's device secret, from which its attestation key is derived (R605). -/
opaque Config.deviceSecret : Nat → Nat

/-- DESIGN CHOICE, log entry 3: the certificate chain of a steward die's keyring for a measurement slot M1, and its last certificate (R605). -/
opaque Config.chain : Nat → List Byte → List Byte
opaque Config.attCert : Nat → List Byte → List Byte

/-- DESIGN CHOICE, log entry 3: the contents of a steward die's boot ROM and keyring firmware (R609). -/
opaque Config.rom : Nat → List Byte

/-- DESIGN CHOICE, log entry 3: the host interface die firmware that a steward image's payload carries (R606, R609); its place there is not given. -/
opaque Config.hidImage : List Byte → List Byte

/-- DESIGN CHOICE, log entry 3: the Grenviris root public key (R605). -/
opaque Config.rootKey : List Byte

/-- DESIGN CHOICE, log entry 98: the target voltage in a die's calibration record, as mV above the 700 mV of R474 (taken modulo the 151 values of its range). -/
opaque Config.calibration : Nat → Nat

/-- DESIGN CHOICE, log entry 8: the DRAM row of a stack that holds a stack-local address; the spec speaks of rows and does not
give their layout (R254, R257). -/
opaque Config.dramRow : Nat → Nat

/-- DESIGN CHOICE, log entry 4: the payload of a record into which old daily records of one kind and unit are merged; R591 does not lay it out. -/
opaque Config.logMerge : Nat → List (List Byte) → List Byte

end Sys2Proof
end

