-- ==== Sys2Proof/Machine/Float.lean ====
section
/-! DEFINITION. Exact floating-point: the element formats (R93), exact sums and products, one rounding (R60, R90, R115, R204), and the
flags (R78) as a mask: NX 1, UF 2, OF 4, DZ 8, NV 16, SAT 32. -/

namespace Sys2Proof.Machine

/-- A floating-point value: NaN, infinity, or the finite number ± m × 2^e (`neg` also holds the sign of zero). -/
inductive FV where
  | nan
  | inf (neg : Bool)
  | fin (neg : Bool) (m : Nat) (e : Int)
  deriving DecidableEq, Repr

/-- Which special values a format has (R93). -/
inductive FKind where
  /-- E all ones: infinity and NaN. -/
  | ieee
  /-- No infinity, NaN only at all ones (FP8 E4M3). -/
  | e4m3
  /-- Neither (FP6, FP4). -/
  | none
  deriving DecidableEq, Repr

/-- An element format: exponent and mantissa bits, bias, special values. -/
structure FFmt where
  eb : Nat
  mb : Nat
  bias : Int
  kind : FKind
  deriving DecidableEq, Repr

def fp32 : FFmt := ⟨8, 23, 127, .ieee⟩
def bf16 : FFmt := ⟨8, 7, 127, .ieee⟩
def fp16 : FFmt := ⟨5, 10, 15, .ieee⟩
def fp8e4m3 : FFmt := ⟨4, 3, 7, .e4m3⟩
def fp8e5m2 : FFmt := ⟨5, 2, 15, .ieee⟩
def fp6e3m2 : FFmt := ⟨3, 2, 3, .none⟩
def fp6e2m3 : FFmt := ⟨2, 3, 1, .none⟩
def fp4e2m1 : FFmt := ⟨2, 1, 1, .none⟩

/-- The floating format of a format code (R92); none for INT8, INT32 and reserved codes. -/
def fmtOf : Nat → Option FFmt
  | 0 => some fp32 | 1 => some bf16 | 2 => some fp16 | 3 => some fp8e4m3 | 4 => some fp8e5m2
  | 7 => some fp6e3m2 | 8 => some fp6e2m3 | 9 => some fp4e2m1 | 10 => some fp4e2m1
  | _ => none

/-- Bits per element of a format code (R92). -/
def fmtBits : Nat → Nat
  | 0 => 32 | 1 => 16 | 2 => 16 | 3 => 8 | 4 => 8 | 5 => 8 | 6 => 32 | 7 => 6 | 8 => 6 | 9 => 4 | 10 => 4
  | _ => 32

/-- The bits of an encoding as sign, exponent field and mantissa field. -/
def FFmt.width (f : FFmt) : Nat := 1 + f.eb + f.mb

/-- The value that `x` encodes (R93). -/
def FFmt.decode (f : FFmt) (x : Nat) : FV :=
  let neg := bitOf x (f.eb + f.mb)
  let ef := bitsOf x f.mb f.eb
  let mf := bitsOf x 0 f.mb
  let ones := 2 ^ f.eb - 1
  if f.kind = .ieee ∧ ef = ones then (if mf = 0 then .inf neg else .nan)
  else if f.kind = .e4m3 ∧ ef = ones ∧ mf = 2 ^ f.mb - 1 then .nan
  else if ef = 0 then .fin neg mf (1 - f.bias - f.mb)
  else .fin neg (2 ^ f.mb + mf) (ef - f.bias - f.mb)

/-- The magnitude bits of the largest finite value (R93). -/
def FFmt.maxBits (f : FFmt) : Nat :=
  match f.kind with
  | .ieee => (2 ^ f.eb - 1) * 2 ^ f.mb - 1
  | .e4m3 => 2 ^ (f.eb + f.mb) - 2
  | .none => 2 ^ (f.eb + f.mb) - 1

/-- The canonical NaN and its flags: FP6 and FP4 have none and give +0 with NV (R115). -/
def FFmt.canon (f : FFmt) : Nat × Nat :=
  match f.kind with
  | .ieee => ((2 ^ f.eb - 1) * 2 ^ f.mb + 2 ^ (f.mb - 1), 0)
  | .e4m3 => (2 ^ (f.eb + f.mb) - 1, 0)
  | .none => (0, 16)

/-- The sign bit of an encoding. -/
def FFmt.signBit (f : FFmt) (neg : Bool) : Nat := if neg then 2 ^ (f.eb + f.mb) else 0

/-- An exact infinity in the format (R60, R115). -/
def FFmt.infBits (f : FFmt) (neg : Bool) : Nat × Nat :=
  if f.kind = .ieee then (f.signBit neg + (2 ^ f.eb - 1) * 2 ^ f.mb, 0) else (f.signBit neg + f.maxBits, 32)

/-- An overflow in the format (R60, R115): infinity with OF and NX, or the largest finite value with SAT too. -/
def FFmt.ovf (f : FFmt) (satm neg : Bool) : Nat × Nat :=
  if f.kind = .ieee ∧ satm = false then (f.signBit neg + (2 ^ f.eb - 1) * 2 ^ f.mb, 5)
  else (f.signBit neg + f.maxBits, 37)

/-- How a magnitude between two neighbours rounds: nearest even, or up with the 24-bit draw `u` (R116). -/
inductive Rnd where
  | nearest
  | stoch (u : Nat)
  deriving DecidableEq, Repr

/-- m ÷ 2^d rounded to an integer. -/
def roundShift (r : Rnd) (m d : Nat) : Nat :=
  let q := m / 2 ^ d
  let rem := m % 2 ^ d
  match r with
  | .nearest => if 2 * rem > 2 ^ d ∨ (2 * rem = 2 ^ d ∧ q % 2 = 1) then q + 1 else q
  | .stoch u => if rem * 2 ^ 24 / 2 ^ d + u ≥ 2 ^ 24 then q + 1 else q

/-- The finite value ± m × 2^e rounded once into the format, with its flags (R60, R115). -/
def FFmt.round (f : FFmt) (r : Rnd) (satm neg : Bool) (m : Nat) (e : Int) : Nat × Nat :=
  if m = 0 then (f.signBit neg, 0)
  else
    let top : Int := Nat.log2 m + e
    let emin : Int := 1 - f.bias
    let qe : Int := (if top < emin then emin else top) - f.mb
    let mant := if qe ≤ e then m * 2 ^ (e - qe).toNat else roundShift r m (qe - e).toNat
    let inexact := decide (e < qe) && decide (m % 2 ^ (qe - e).toNat ≠ 0)
    -- mant × 2^qe as an encoding: a carry into the next binade is the next encoding in order
    let enc : Nat := if mant < 2 ^ f.mb then mant
      else (qe + f.mb + f.bias - 1).toNat * 2 ^ f.mb + mant
    if enc > f.maxBits then f.ovf satm neg
    else (f.signBit neg + enc, if inexact then (if top < emin then 3 else 1) else 0)

/-- Any value rounded into the format (R60, R115, R117). -/
def FFmt.encode (f : FFmt) (r : Rnd) (satm : Bool) : FV → Nat × Nat
  | .nan => f.canon
  | .inf neg => f.infBits neg
  | .fin neg m e => f.round r satm neg m e

/-- The finite value as an integer multiple of 2^e0, where e0 ≤ e. -/
def scaled (neg : Bool) (m : Nat) (e e0 : Int) : Int :=
  if neg then -((m * 2 ^ (e - e0).toNat : Nat) : Int) else ((m * 2 ^ (e - e0).toNat : Nat) : Int)

/-- Exact sum and whether the operation is invalid (infinity minus infinity); a NaN operand gives NaN and is reported too (R60).
The sum of two zeros of one sign keeps it; any other zero sum is +0 (PRESUMED, log entry 6). -/
def FV.add : FV → FV → FV × Bool
  | .nan, _ => (.nan, true)
  | _, .nan => (.nan, true)
  | .inf a, .inf b => if a = b then (.inf a, false) else (.nan, true)
  | .inf a, .fin _ _ _ => (.inf a, false)
  | .fin _ _ _, .inf b => (.inf b, false)
  | .fin a m e, .fin b n k =>
    let e0 := if e < k then e else k
    let t := scaled a m e e0 + scaled b n k e0
    if t = 0 then (.fin (a && b && decide (m = 0) && decide (n = 0)) 0 0, false)
    else (.fin (decide (t < 0)) t.natAbs e0, false)

/-- The value with its sign inverted. -/
def FV.neg : FV → FV
  | .nan => .nan
  | .inf a => .inf (!a)
  | .fin a m e => .fin (!a) m e

/-- Exact product and whether the operation is invalid (zero times infinity) or an operand is NaN (R60). A zero product has the exclusive or of its
factors' signs, an INT8 element's being its integer's: R90 gives none for zero times a negative integer (DESIGN CHOICE, log entry 88). -/
def FV.mul : FV → FV → FV × Bool
  | .nan, _ => (.nan, true)
  | _, .nan => (.nan, true)
  | .inf a, .inf b => (.inf (a != b), false)
  | .inf a, .fin b n _ => if n = 0 then (.nan, true) else (.inf (a != b), false)
  | .fin a m _, .inf b => if m = 0 then (.nan, true) else (.inf (a != b), false)
  | .fin a m e, .fin b n k => (.fin (a != b) (m * n) (e + k), false)

/-- The value times 2^k. -/
def FV.scale (k : Int) : FV → FV
  | .nan => .nan
  | .inf a => .inf a
  | .fin a m e => .fin a m (e + k)

/-- Is the value NaN? -/
def FV.isNan : FV → Bool
  | .nan => true
  | _ => false

/-- Is the value infinite? -/
def FV.isInf : FV → Bool
  | .inf _ => true
  | _ => false

/-- `a < b` for values that are not NaN, with −0 below +0 where `z` holds (R60, R204). -/
def FV.lt (z : Bool) : FV → FV → Bool
  | .nan, _ => false
  | _, .nan => false
  | .inf a, .inf b => a && !b
  | .inf a, .fin _ _ _ => a
  | .fin _ _ _, .inf b => !b
  | .fin a m e, .fin b n k =>
    let e0 := if e < k then e else k
    let x := scaled a m e e0
    let y := scaled b n k e0
    decide (x < y) || (z && decide (x = 0) && decide (y = 0) && a && !b)

/-- `a == b`: zeros of either sign are equal; NaN equals nothing (R60). -/
def FV.eq : FV → FV → Bool
  | .nan, _ => false
  | _, .nan => false
  | a, b => !(FV.lt false a b) && !(FV.lt false b a)

/-- Two encodings combined by an exact operation and one rounding, with NV where it is invalid (R60). -/
def FFmt.bin (f : FFmt) (op : FV → FV → FV × Bool) (x y : Nat) : Nat × Nat :=
  let r := op (f.decode x) (f.decode y)
  let o := f.encode .nearest false r.1
  (o.1, o.2 ||| (if r.2 then 16 else 0))

/-- a × b + c with one rounding (VFMA, R60). -/
def FFmt.fma (f : FFmt) (c a b : Nat) : Nat × Nat :=
  let p := FV.mul (f.decode a) (f.decode b)
  let t := FV.add (f.decode c) p.1
  let o := f.encode .nearest false t.1
  (o.1, o.2 ||| (if p.2 || t.2 then 16 else 0))

/-- The larger (`big`) or smaller of two encodings; a NaN operand gives the canonical NaN and NV (R60, R204). -/
def FFmt.pick (f : FFmt) (big : Bool) (x y : Nat) : Nat × Nat :=
  let a := f.decode x
  let b := f.decode y
  if a.isNan || b.isNan then (f.canon.1, 16)
  else if FV.lt true a b = big then (y, 0) else (x, 0)

/-- An RSEND combination of two elements, no flag (R204). -/
def redOp (op x y : Nat) : Nat :=
  match op with
  | 0 => (fp32.bin FV.add x y).1
  | 1 => (bf16.bin FV.add x y).1
  | 2 => (fp32.pick true x y).1
  | 3 => (fp32.pick false x y).1
  | 4 => (bf16.pick true x y).1
  | _ => (bf16.pick false x y).1

/-- Bytes per element of an RSEND operation (R204). -/
def redBytes (op : Nat) : Nat := if op = 0 ∨ op = 2 ∨ op = 3 then 4 else 2

/-- Two byte strings of one length combined element by element (R202, R204). -/
def redCombine (op : Nat) : Nat → List Byte → List Byte → List Byte
  | 0, _, _ => []
  | n + 1, a, b =>
    let w := redBytes op
    if a.length < w then [] else
    leBytes w (redOp op (leNat (a.take w)) (leNat (b.take w))) ++ redCombine op n (a.drop w) (b.drop w)

/-- Integer square root rounded down, by bisection on `n` bits. -/
def isqrt (x : Nat) : Nat → Nat
  | 0 => 0
  | n + 1 =>
    let r := 2 * isqrt (x / 4) n
    if (r + 1) * (r + 1) ≤ x then r + 1 else r

/-- A value q × 2^e known only to lie in [q, q + 1) × 2^e, or exactly at q (`ex`), as an FP32 encoding off by the free
choice `u`: the neighbours within 1 ulp, or within 2 ulp where `two` (R59). -/
def approx32 (two ex neg : Bool) (q : Nat) (e : Int) (u : Nat) : Nat × Nat :=
  -- q has at least 24 bits: cut it to the format's own step
  let top : Int := Nat.log2 q + e
  let qe : Int := (if top < -126 then -126 else top) - 23
  let d := (qe - e).toNat
  let l := q / 2 ^ d
  let exact := ex && decide (q % 2 ^ d = 0)
  let cand : List Int :=
    if exact then (if two then [0, 1, -1, 2, -2] else [0, 1, -1]) else (if two then [0, 1, -1, 2] else [0, 1])
  let m := ((l : Int) + cand.getD (u % cand.length) 0).toNat
  let o := fp32.round .nearest false neg m qe
  let off := decide (cand.getD (u % cand.length) 0 ≠ 0)
  (o.1, o.2 ||| (if exact && !off then 0 else 1) |||
    (if !(exact && !off) && decide (top < -126) then 2 else 0))

/-- VRCP of an FP32 encoding (R59, R60). -/
def vrcp32 (x u : Nat) : Nat × Nat :=
  match fp32.decode x with
  | .nan => (fp32.canon.1, 16)
  | .inf neg => (fp32.signBit neg, 0)
  | .fin neg m e =>
    if m = 0 then ((fp32.infBits neg).1, 8)
    else approx32 false (decide (2 ^ 80 % m = 0)) neg (2 ^ 80 / m) (-80 - e) u

/-- VRSQ of an FP32 encoding (R59, R60). -/
def vrsq32 (x u : Nat) : Nat × Nat :=
  match fp32.decode x with
  | .nan => (fp32.canon.1, 16)
  | .inf neg => if neg then (fp32.canon.1, 16) else (0, 0)
  | .fin neg m e =>
    if m = 0 then ((fp32.infBits neg).1, 8)
    else if neg then (fp32.canon.1, 16)
    else
      -- 1 ÷ √(m × 2^e) with e made even: √(2^160 ÷ m) × 2^(−80 − e ÷ 2)
      let odd := decide (e % 2 ≠ 0)
      let m' := if odd then 2 * m else m
      let e' := if odd then e - 1 else e
      let t := 2 ^ 160 / m'
      let r := isqrt t 81
      approx32 false (decide (r * r * m' = 2 ^ 160)) false r (-80 - e' / 2) u

/-- 2^(2^−k) × 2^96, k-th square root in turn. -/
def rootTwo : Nat → Nat
  | 0 => 2 ^ 97
  | k + 1 => isqrt (rootTwo k * 2 ^ 96) 98

/-- The product of 2^(2^−k) over the one bits of a 32-bit fraction, × 2^96. -/
def exp2Frac (fr : Nat) : Nat → Nat
  | 0 => 2 ^ 96
  | k + 1 => if bitOf fr (31 - k) then exp2Frac fr k * rootTwo (k + 1) / 2 ^ 96 else exp2Frac fr k

/-- VEXP2 of an FP32 encoding (R59, R60). Fractions below 2^−32 move 2^x by less than 2^−8 ulp and are dropped. -/
def vexp232 (x u : Nat) : Nat × Nat :=
  match fp32.decode x with
  | .nan => (fp32.canon.1, 16)
  | .inf neg => if neg then (0, 0) else ((fp32.infBits false).1, 0)
  | .fin neg m e =>
    if m = 0 then approx32 true true false (2 ^ 96) (-96) u
    else
      let t : Int := if 0 ≤ e then scaled neg m e 0 * 2 ^ 32
        else if neg then -((ceilDiv (m * 2 ^ 32) (2 ^ (-e).toNat) : Nat) : Int) else ((m * 2 ^ 32 / 2 ^ (-e).toNat : Nat) : Int)
      let n := t / 2 ^ 32
      let fr := (t % 2 ^ 32).toNat
      let whole := decide (0 ≤ e) || decide (m % 2 ^ (-e).toNat = 0)
      if n > 128 then fp32.ovf false false
      else if n < -200 then (u % 3, 3)
      else approx32 true whole false (exp2Frac fr 32) (n - 96) u

/-- A real value limited to a signed integer of `w` bits, rounded first (R115, R117): the bits and the flags. -/
def toIntFmt (r : Rnd) (w : Nat) : FV → Nat × Nat
  | .nan => (0, 16)
  | .inf neg => (if neg then 2 ^ (w - 1) else 2 ^ (w - 1) - 1, 32)
  | .fin neg m e =>
    let mag := if 0 ≤ e then m * 2 ^ e.toNat else roundShift r m (-e).toNat
    let inexact := decide (e < 0) && decide (m % 2 ^ (-e).toNat ≠ 0)
    let lim := if neg then 2 ^ (w - 1) else 2 ^ (w - 1) - 1
    if mag > lim then (if neg then 2 ^ (w - 1) else 2 ^ (w - 1) - 1, 37)
    else (if neg then (2 ^ w - mag) % 2 ^ w else mag, if inexact then 1 else 0)

/-- The value of an element of a format code: integers as exact numbers (R92, R93). -/
def elemVal (code x : Nat) : FV :=
  match fmtOf code with
  | some f => f.decode x
  | none =>
    let v := sgn (fmtBits code) x
    .fin (decide (v < 0)) v.natAbs 0

/-- A value converted into a format code (R115, R117). -/
def elemEnc (code : Nat) (r : Rnd) (satm : Bool) (v : FV) : Nat × Nat :=
  match fmtOf code with
  | some f => f.encode r satm v
  | none => toIntFmt r (fmtBits code) v

/-- The 24-bit draw of R116 for seed, n, row and column. -/
def stochDraw (seed : BitVec 64) (n r c : Nat) : Nat :=
  let x0 := seed + BitVec.ofNat 64 (n * 256 + r * 16 + c)
  let x1 := (x0 ^^^ (x0 >>> 33)) * 0xFF51AFD7ED558CCD#64
  let x2 := (x1 ^^^ (x1 >>> 33)) * 0xC4CEB9FE1A85EC53#64
  ((x2 ^^^ (x2 >>> 33)) >>> 40).toNat

end Sys2Proof.Machine
end

