-- ==== Sys2Proof/Machine/State.lean ====
section
/-! DEFINITION. State: everything the spec gives the panel, as plain data; the outcomes' reason types; the state after reset. -/

namespace Sys2Proof.Machine

/-- Reasons a run stops. No command of the model raises one: the spec names no behaviour of the block that has no
effect (NOTES.md, Stops). -/
inductive Fault where
  /-- Kept for an access to an address the spec says does not exist where no error answer is given; raised by nothing. Safe. -/
  | noSuchAddress (a : Nat)
  deriving DecidableEq, Repr

/-- Reasons a command has no meaning here. -/
inductive Refusal where
  /-- The command has no meaning in this model yet; raised by exec's arm of that name. Safe. -/
  | notModelled (mnemonic : String)
  deriving DecidableEq, Repr

/-- The state of a task slot (R31), in the order of its codes. -/
inductive TaskSt where
  | empty | ready | running | waiting | trapped | done
  deriving DecidableEq, Repr

/-- What a WAITING task waits for (R34). -/
inductive WaitCond where
  /-- WAIT.GE on a core counter (R61). -/
  | counter (idx : Nat) (v : W32)
  /-- SYNC.WAIT on a channel whose phase is not released (R74). -/
  | phase (ch : Nat)
  /-- A second SYNC.ARRIVE at the current phase (R34). -/
  | arrive (ch : Nat)
  /-- A stream engine without a free entry (R67). -/
  | engine (e : Nat)
  /-- The message queue is full (R70). -/
  | msgs
  deriving DecidableEq, Repr

/-- The hardware loop of a task (R47): first instruction, the offset after the body, executions left. -/
structure LoopSt where
  start : Nat
  finish : Nat
  left : Nat
  deriving DecidableEq, Repr

/-- A trap record (R79, R86). -/
structure TrapRec where
  cause : Nat
  detail : Nat
  code : Nat
  pc : Nat
  addr : Nat
  deriving DecidableEq, Repr

/-- One task slot (R29, R31, R48). -/
structure Task where
  /-- state; 3 bits as CD_CORE_STATE codes it; R31; reset EMPTY -/
  st : TaskSt
  /-- a task has been loaded for the next or running layer; 1 bit; R31, R32; reset false -/
  loaded : Bool
  /-- entry offset of the kernel object; 18 bits; R32; reset DESIGN CHOICE 0, log entry 2 -/
  entry : BitVec 18
  /-- seed of the layer plan; 64 bits; R32; reset DESIGN CHOICE 0, log entry 2 -/
  seed0 : BitVec 64
  /-- g1 to g31; 32 bits each; R29, R32; zero at layer start; reset DESIGN CHOICE 0, log entry 2 -/
  g : Tab W32
  /-- a0 to a7; 48 bits each; R29, R32; reset DESIGN CHOICE 0, log entry 2 -/
  a : Tab A48
  /-- m1 to m7; 64 bits each; R29, R32; reset DESIGN CHOICE 0, log entry 2 -/
  m : Tab M64
  /-- v0 to v15; 512 bits each; R29, R32; reset DESIGN CHOICE 0, log entry 2 -/
  v : Tab V512
  /-- PC; 18 bits; R29, R32; reset DESIGN CHOICE 0, log entry 2 -/
  pc : BitVec 18
  /-- PC of the last instruction executed, which a fetch trap reports; 18 bits; R681; reset 0, log entry 2 -/
  lastPc : BitVec 18
  /-- target [17:0] of a transfer or fall out of the window that has not trapped yet; R681; reset none -/
  badFetch : Option Nat
  /-- hardware loop; R47; reset none -/
  loop : Option LoopSt
  /-- TID.VX; 8 bits; R48; reset DESIGN CHOICE 0, log entry 2 -/
  vx : Nat
  /-- TID.VY; 7 bits; R48; reset DESIGN CHOICE 0, log entry 2 -/
  vy : Nat
  /-- TBASE; 18 bits; R39, R48; reset DESIGN CHOICE 0, log entry 2 -/
  tbase : Nat
  /-- TBOUND; 18 bits; R39, R48; reset DESIGN CHOICE 0, log entry 2 -/
  tbound : Nat
  /-- TCBASE; 6 bits; R43, R48; reset DESIGN CHOICE 0, log entry 2 -/
  tcbase : Nat
  /-- TCCOUNT; 7 bits; R43, R48; reset DESIGN CHOICE 0, log entry 2 -/
  tccount : Nat
  /-- TCTL.LINEAR; 1 bit; R48, R126; reset DESIGN CHOICE 0, log entry 2 -/
  linear : Bool
  /-- TCTL.MX; 1 bit; R30, R48; reset DESIGN CHOICE 0, log entry 2 -/
  mx : Bool
  /-- TCTL.BARMASK; 8 bits; R48, R212; reset DESIGN CHOICE 0, log entry 2 -/
  barmask : Nat
  /-- FFLAGS: NX, UF, OF, DZ, NV, SAT from bit 0; 6 bits; R48, R78; reset 0 at layer start -/
  fflags : BitVec 6
  /-- SEED_LO; 32 bits; R48; reset DESIGN CHOICE 0, log entry 2 -/
  seedLo : W32
  /-- SEED_HI; 32 bits; R48; reset DESIGN CHOICE 0, log entry 2 -/
  seedHi : W32
  /-- latch behind CYCLE_HI; 32 bits; R48; reset DESIGN CHOICE 0, log entry 2 -/
  cycleHi : W32
  /-- latch behind PTIME_HI; 32 bits; R48; reset DESIGN CHOICE 0, log entry 2 -/
  ptimeHi : W32
  /-- LAYER; 32 bits; R48; reset DESIGN CHOICE 0, log entry 2 -/
  layer : W32
  /-- n of R116: ACC.CVT with SR = 1 since layer start or the last SEED write; 64 bits; reset 0, log entry 2 -/
  srN : Nat
  /-- what the slot waits for while WAITING; R34; reset none -/
  wait : Option WaitCond
  /-- bit b: arrived at the current, unreleased phase of channel b; 8 bits; R74; reset 0 -/
  arrived : Nat
  /-- bit b: an arrival on b since the last SYNC.WAIT b; 8 bits; R74; reset 0 -/
  since : Nat
  /-- trap record not yet loaded into CD_CORE_TRAP; R83, R86; reset none -/
  trap : Option TrapRec
  deriving DecidableEq, Repr

/-- A slot with no task. -/
def Task.reset : Task :=
  { st := .empty, loaded := false, entry := 0, seed0 := 0, g := [], a := [], m := [], v := [], pc := 0,
    lastPc := 0, badFetch := none, loop := none, vx := 0, vy := 0, tbase := 0, tbound := 0, tcbase := 0,
    tccount := 0, linear := false, mx := false, barmask := 0, fflags := 0, seedLo := 0, seedHi := 0,
    cycleHi := 0, ptimeHi := 0, layer := 0, srN := 0, wait := none, arrived := 0, since := 0, trap := none }

/-- A queued matrix or tile-move operation with what it captured at issue (R71 to R73, R109, R111, R114, R122);
`base` is the task offset of row 0, `stride` the bytes between rows. -/
inductive MOp where
  | tileLd (sub t fmt rowBytes unit base stride : Nat) (zdet : Bool)
  | tileSt (t base stride : Nat)
  | sparse (unit rowBytes base stride : Nat)
  | cvt (t fmt : Nat) (scale : Int) (satm clr sr : Bool) (base stride : Nat) (seed : BitVec 64) (n : Nat)
  | mma (w : FmtM) (vab : V512)
  | zmask (en : Bool)
  deriving DecidableEq, Repr

/-- An entry of the matrix queue or a running operation: the slot that issued it (R73). -/
structure MEnt where
  slot : Nat
  op : MOp
  deriving DecidableEq, Repr

/-- A rectangle of physical cores (R174). -/
structure Rect where
  x0 : Nat
  y0 : Nat
  x1 : Nat
  y1 : Nat
  deriving DecidableEq, Repr

/-- A transfer of a stream that is awaited: its TAG and the core it goes to, or 36,864 + s for ring stop s. -/
inductive Xfer where
  /-- A READ_REQ whose data goes to `len` bytes at scratchpad address `at_` (R65). -/
  | read (tag dst at_ len : Nat)
  /-- A WRITE, PULL or RSEND that has not been acknowledged (R167). -/
  | ack (tag dst : Nat)
  /-- A piece whose MC_OPEN has not been answered (R176). -/
  | opening (tag : Nat) (r : Rect)
  /-- A piece that has been accepted and is not acknowledged (R176). -/
  | piece (tag : Nat) (r : Rect)
  deriving DecidableEq, Repr

/-- A stream that is not complete (R67). -/
structure Stream where
  /-- Names the stream in its core: the value of nextTag at issue. -/
  id : Nat
  eng : Nat
  slot : Nat
  /-- PC of the STREAM, which an asynchronous trap reports (R86). -/
  pc : Nat
  /-- 0 GATHER, 1 SEND, 2 MCAST, 3 RSEND (R53). -/
  kind : Nat
  d : StreamDesc
  started : Bool
  /-- The MC_WRITE packets have been sent (R176). -/
  sent : Bool
  xfers : List Xfer
  /-- Served by meld pull, so that LCNT waits for the last ACK (R180). -/
  pulled : Bool
  deriving DecidableEq, Repr

/-- A message that is not complete (R70). -/
structure MsgOut where
  msgid : Nat
  slot : Nat
  pc : Nat
  /-- Core that it goes to. -/
  dst : Nat
  deriving DecidableEq, Repr

/-- An entry of the arrival tracker (R136): source coded as SX + 256 SY + 65,536 SPERIM; bytes that have arrived; whether it carries a
counter and so takes one of the 64 entries; whether the transfer has failed here, and been acknowledged. -/
structure TrkEnt where
  src : Nat
  tag : Nat
  got : Nat
  cnt : Bool
  bad : Bool
  acked : Bool
  deriving DecidableEq, Repr

/-- A pull that this core performs for a meld-served stream (R180). -/
structure PullEnt where
  h : BulkHdr
  d : StreamDesc
  reads : List Xfer
  deriving DecidableEq, Repr

/-- An asynchronous trap that waits for the task's next instruction boundary (R69). -/
structure AsyncTrap where
  slot : Nat
  tr : TrapRec
  deriving DecidableEq, Repr

/-- One core (R29, R87). -/
structure Core where
  /-- the four slots; R29; reset EMPTY -/
  tasks : Tab Task
  /-- slot that was last RUNNING; the selection order starts after it; 2 bits; R35; reset DESIGN CHOICE 3, log entry 2 -/
  last : Nat
  /-- arrival counters; 64 of 32 bits; R29, R141; reset 0 -/
  counters : Tab W32
  /-- cycle counter; 64 bits; R29; reset DESIGN CHOICE 0, log entry 2 -/
  cycle : BitVec 64
  /-- loop buffer: lines by scratchpad address, most recently used first; 64 of 64 bytes; R46; reset empty -/
  lbuf : List (Nat × V512)
  /-- streams that are not complete, in issue order; 4 engines of 4; R67; reset empty -/
  streams : List Stream
  /-- messages that are not complete; 8; R70; reset empty -/
  msgs : List MsgOut
  /-- TAG and MSGID of the next transfer of this core; R163, R183; reset DESIGN CHOICE 0, log entry 2 -/
  nextTag : Nat
  /-- matrix queue, oldest first; 4 entries; R73; reset empty -/
  mq : List MEnt
  /-- operation running on the array; R107; reset none -/
  array : Option MEnt
  /-- operation running on the tile mover; R73; reset none -/
  mover : Option MEnt
  /-- accumulator tiles, element (t, r, c) at 256 t + 16 r + c; 32 bits each; R29, R88; zero after C3 or C6; reset 0 -/
  tiles : Tab W32
  /-- weight buffer; 32 KiB; R29, R88; reset 0 -/
  wbuf : Tab Byte
  /-- input slots i0 to i3, slot i at 1024 i; 4 KiB; R29, R88; reset 0 -/
  islots : Tab Byte
  /-- side buffer; 16 KiB; R87, R88; reset 0 -/
  side : Tab Byte
  /-- zero masks z0 to z3; 8 bits each; R87, R88; reset 0 -/
  z : Tab Nat
  /-- ZMASK enable; 1 bit; R87, R88; reset 0 -/
  zen : Bool
  /-- arrival tracker; 64 entries; R136; reset empty -/
  tracker : List TrkEnt
  /-- pulls under way at this target; R180; reset empty -/
  pulls : List PullEnt
  /-- asynchronous traps pending; R69; reset empty -/
  async : List AsyncTrap
  /-- folded and fenced; 1 bit; R85, R552; reset 0 -/
  fenced : Bool
  /-- phase of each barrier channel; 8 bits; R213; reset 0 -/
  phase : Nat
  /-- arrived on channel b and awaiting release; 8 bits; R85; reset 0 -/
  barPend : Nat
  /-- arrived on the commit barrier (R37); 1 bit; reset 0 -/
  doneArr : Bool
  /-- next line of the scrubber; 0 to 3,071; R133; reset DESIGN CHOICE 0, log entry 2 -/
  scrub : Nat
  /-- commit copies under way; R291; reset 0 -/
  copies : Nat
  /-- a commit copy of the core has failed since its slots were loaded, so that the core does not arrive (R132, R291); reset false -/
  copyBad : Bool
  /-- times of corrected errors, for the 24-hour count; R549; reset empty -/
  ceTimes : List Nat
  deriving DecidableEq, Repr

/-- A core after reset. -/
def Core.reset : Core :=
  { tasks := [], last := 3, counters := [], cycle := 0, lbuf := [], streams := [], msgs := [], nextTag := 0,
    mq := [], array := none, mover := none, tiles := [], wbuf := [], islots := [], side := [], z := [],
    zen := false, tracker := [], pulls := [], async := [], fenced := false, phase := 0, barPend := 0,
    doneArr := false, scrub := 0, copies := 0, copyBad := false, ceTimes := [] }

/-- A multicast tree entry of a router (R176). -/
structure TreeEnt where
  src : Nat
  tag : Nat
  /-- Ways out of the rectangle's branches at this router, and 9 for its own core. -/
  branches : List Nat
  /-- Direction back up the tree: 0 E, 1 N, 2 W, 3 S; 4 at the entry core, whose answers go to the source. -/
  up : Nat
  /-- Answers to MC_OPEN awaited, then ACKs awaited, and the status merged so far (R166). -/
  opens : Nat
  acks : Nat
  status : Nat
  deriving DecidableEq, Repr

/-- A contributor of a combined RSEND packet (R207). -/
structure Contrib where
  sx : Nat
  sy : Nat
  tag : Nat
  deriving DecidableEq, Repr

/-- A reduction lane entry (R205 to R208): the packet held, until it leaves, and its contributors. -/
structure LaneEnt where
  idx : Nat
  /-- The way the packet leaves by; 9 the router's own core. -/
  way : Nat
  held : Option (BulkHdr × List Byte)
  by_ : List Contrib
  deriving DecidableEq, Repr

/-- A requester recorded in a read-queue entry (R181). -/
structure Requester where
  src : Nat
  tag : Nat
  deriving DecidableEq, Repr

/-- A read-queue entry of a serving core or hub (R181, R240). -/
structure RdEnt where
  addr : Nat
  len : Nat
  vc : Nat
  hold : Bool
  /-- It met an uncorrectable error, and is answered FOLDED once the core is fenced (R132). -/
  dead : Bool
  /-- A write has touched its bytes: it takes no further requesters (R240). -/
  shut : Bool
  reqs : List Requester
  deriving DecidableEq, Repr

/-- One bulk router and its core's read queue (R176, R181, R205). -/
structure Router where
  /-- tree entries; 32; R176; reset empty -/
  tree : List TreeEnt
  /-- reduction lane entries; 16; R205; reset empty -/
  lanes : List LaneEnt
  /-- read queue; 16 entries; R181; reset empty -/
  readQ : List RdEnt
  deriving DecidableEq, Repr

/-- A router after reset. -/
def Router.reset : Router := { tree := [], lanes := [], readQ := [] }

/-- A FAULT that the dealer has not acknowledged (R186). -/
structure FaultMsg where
  snode : Nat
  slocal : Nat
  msgid : Nat
  code : Nat
  unit : Nat
  kind : Nat
  dir : Nat
  time : Nat
  deriving DecidableEq, Repr

/-- A node of the control and sync networks: a die (0 to 143) or a ring stop (144 + s). -/
structure Node where
  /-- broadcasts seen, newest first, as (SNODE, MSGID); 64; R189; reset empty -/
  seen : List (Nat × Nat)
  /-- last SEQ forwarded, by frame TYPE; 4 bits each, 16 meaning none; R192; reset none -/
  seq : Tab Nat
  /-- arrivals counted at the current phase, by channel; R193; reset 0 -/
  count : Tab Nat
  /-- MSGID of the node's next control message; 8 bits; R183; reset DESIGN CHOICE 0, log entry 2 -/
  msgid : Nat
  /-- FAULTs not acknowledged; R186; reset empty -/
  faults : List FaultMsg
  /-- SETUP requests outstanding, by MSGID; 16; R185; reset empty -/
  setups : List Nat
  /-- links by way that have stopped carrying flits (R196), and consecutive resends by way; reset empty -/
  stopped : List Nat
  resends : Tab Nat
  /-- firmware bytes that the die's manager has taken from VC5, by offset, and their chunk + 1 and length; R187, R638; reset empty, 0 -/
  fw : Tab (List Byte)
  fwTag : Nat
  fwLen : Nat
  deriving DecidableEq, Repr

/-- A node after reset. -/
def Node.reset : Node :=
  { seen := [], seq := [], count := [], msgid := 0, faults := [], setups := [], stopped := [], resends := [], fw := [], fwTag := 0, fwLen := 0 }

/-- A routing-table change under way (R173). -/
structure TableChg where
  ver : Nat
  /-- FLIP has been sent; traffic resumes when every die reports the version. -/
  flipped : Bool
  deriving DecidableEq, Repr

/-- What a bulk packet carries: data, a meld list with its data (R182), or the descriptor of a PULL (R180). -/
inductive BulkBody where
  | data (l : List Byte)
  | meld (l : List MeldEnt) (d : List Byte)
  | pull (d : StreamDesc)
  deriving DecidableEq, Repr

/-- A bulk packet at an output port: `came` is the link by which it came, in whose input buffer it stays until it has left (R162). -/
structure BulkPkt where
  h : BulkHdr
  body : BulkBody
  came : Option Nat
  deriving DecidableEq, Repr

/-- A control packet at an output port (R156, R162). -/
structure CtlPkt where
  h : CtlHdr
  flits : List Nat
  deriving DecidableEq, Repr

/-- An output port and the input buffer at the far end of its link (R161, R162). -/
structure Port (α : Type) where
  /-- packets that wait to leave, oldest first; reset empty -/
  queue : List α
  /-- packets in the far end's input buffer, oldest first: the credits in use, by VC; reset empty -/
  fly : List α
  /-- flits of the first waiting packet of a VC that have left, by VC; reset 0 -/
  part : Tab Nat
  /-- VC whose turn it is, and flits left of the turn; reset DESIGN CHOICE 0, log entry 2 -/
  turn : Nat
  left : Nat
  deriving DecidableEq, Repr

/-- A port after reset. -/
def Port.reset {α : Type} : Port α := { queue := [], fly := [], part := [], turn := 0, left := 0 }

/-- A sync message: its first frame's fields and its data frames (R190). -/
structure SyncMsg where
  type : Nat
  seq : Nat
  arg : Nat
  data : List Nat
  deriving DecidableEq, Repr

/-- A link of a sync node (R190, R191). -/
structure SyncLink where
  /-- panel time until which the link is sending; reset 0 -/
  busy : Nat
  /-- messages that wait, oldest first; reset empty -/
  wait : List SyncMsg
  /-- replay store of the last 8 frames, newest message first; R190; reset empty -/
  store : List SyncMsg
  deriving DecidableEq, Repr

/-- A sync link after reset. -/
def SyncLink.reset : SyncLink := { busy := 0, wait := [], store := [] }

/-- A ring packet on its way from a stop to the next one (R21, R22). -/
structure RingHop where
  stop : Nat
  up : Bool
  p : RingPkt
  deriving DecidableEq, Repr

/-- The networks' panel-wide state. -/
structure Net where
  /-- bulk output ports, by 16 × location + way; R161, R162; reset as Port.reset -/
  ports : Tab (Port BulkPkt)
  /-- control output ports, by 16 × node + way; R161, R162; reset as Port.reset -/
  cports : Tab (Port CtlPkt)
  /-- sync links, by 256 × node + neighbour; R190, R191; reset as SyncLink.reset -/
  syncs : Tab SyncLink
  /-- ring packets on a segment; R21, R22; reset empty -/
  ring : List RingHop
  /-- ring packets at a stop that wait to detour until a table change ends, as (stop, packet); R22, R173; reset empty -/
  ringWait : List (Nat × RingPkt)
  /-- TAGs of bulk transfers whose packets were lost in a die, as (sender, TAG), until their loss is announced; R197, R222; reset empty -/
  lostTags : List (Nat × Nat)
  /-- task messages lost in a die, as (sender, MSGID), until their loss is announced; R197; reset empty -/
  lostMsgs : List (Nat × Nat)
  /-- control and sync nodes; R156; reset as Node.reset -/
  nodes : Tab Node
  /-- ring stops marked broken; R22; reset empty -/
  brkStops : List Nat
  /-- ring segments marked broken, segment i joining stop i and i + 1; R22; reset empty -/
  brkSegs : List Nat
  /-- table change under way; R173; reset none -/
  chg : Option TableChg
  /-- version of the next table change; 16 bits; R173; reset DESIGN CHOICE 1, log entry 2 -/
  nextVer : Nat
  /-- SEQ of the next broadcast, by TYPE, at the active steward; 4 bits; R192; reset DESIGN CHOICE 0, log entry 2 -/
  bseq : Tab Nat
  /-- faults the dealer has acted on, by (SNODE, MSGID); R186; reset empty -/
  acted : List (Nat × Nat)
  /-- clamp level in force panel-wide; R190; reset 0 -/
  clamp : Nat
  deriving DecidableEq, Repr

/-- The networks after reset. -/
def Net.reset : Net :=
  { ports := [], cports := [], syncs := [], ring := [], ringWait := [], lostTags := [], lostMsgs := [], nodes := [], brkStops := [], brkSegs := [], chg := none, nextVer := 1, bseq := [], acted := [], clamp := 0 }

/-- Where a fetched descriptor is (R324, R334, R347). -/
inductive DescSt where
  /-- Fetched, not started. -/
  | fetched
  /-- Started, its effects under way. -/
  | running
  /-- Its effects have finished; the completion is not reported yet. -/
  | finished
  deriving DecidableEq, Repr

/-- A fetched descriptor that has not been reported (R324, R342). -/
structure Desc where
  key : Nat
  ring : Nat
  fn : Nat
  raw : List Byte
  st : DescSt
  status : Nat
  detail : Nat
  r0 : Nat
  r1 : Nat
  evt : Bool
  deriving DecidableEq, Repr

/-- A completion entry held for a full or failed completion ring (R325, R327): its 32 bytes without SQ_HEAD and P. -/
structure HeldEnt where
  cq : Nat
  sq : Nat
  lo : Nat
  r0 : Nat
  r1 : Nat
  qual : Bool
  deriving DecidableEq, Repr

/-- The host interface dies (R310 to R352). -/
structure HostSide where
  /-- number of the next fetched descriptor; the model's own; reset 0 -/
  nextKey : Nat
  /-- descriptors fetched and not reported, in fetch order; at most 2,048 a die; R324; reset empty -/
  descs : List Desc
  /-- entries held for completion rings; R325; reset empty -/
  held : List HeldEnt
  /-- by die: trump ring last fetched, other ring last fetched, descriptors left in its turn; R328; reset DESIGN CHOICE 0, log entry 2 -/
  rrTrump : Tab Nat
  rrRing : Tab Nat
  rrLeft : Tab Nat
  /-- qualifying entries since the last vector, by completion ring; R348; reset 0 -/
  coal : Tab Nat
  /-- SEQ of the next event record, by function; 32 bits; R345; reset 0 -/
  evtSeq : Tab Nat
  /-- records lost since the last EVENT_OVERFLOW, by function; R329; reset 0 -/
  evtLost : Tab Nat
  /-- MSI-X table words, key 8192 f + 4 entry + word; 32 bits; word 3 (vector control) is held XOR 1; R330, R349; reset masked -/
  msix : Tab Nat
  /-- MSI-X pending bits, key 2048 f + vector; R330, R349; reset 0 -/
  pba : Tab Nat
  /-- VF Enable and NumVFs by endpoint; 1 and 16 bits; R311, R351; reset 0 -/
  vfEn : Tab Nat
  numVfs : Tab Nat
  /-- endpoint held in reset by PERST, by endpoint; 1 bit; R351, R546; reset 1, held XOR 1 -/
  inReset : Tab Nat
  /-- link down, rate (GT/s ÷ 2.5) and width by endpoint; R346, R351; reset DESIGN CHOICE 0, log entry 2 -/
  linkDown : Tab Nat
  linkRate : Tab Nat
  linkWidth : Tab Nat
  /-- ring last served an RXA record, by port: panel time of the last RXA_NOTIFY + 1; R248; reset 0 -/
  rxaLast : Tab Nat
  /-- WR_IDX has advanced since the last RXA_NOTIFY, by port; R248; reset 0 -/
  rxaDue : Tab Nat
  /-- steward lost, by host interface die: STEWARD_LOST posted; R564; reset 0 -/
  stwLost : Tab Nat
  /-- completion rings whose next held entry the host will reject; R325, R327, R352; reset empty -/
  rejects : List Nat
  /-- PCIe configuration space that no command writes but a reset (log entry 101): BAR registers, the SR-IOV VF BAR registers among them, key 8 f + BAR (64 bits; R312); Max_Payload_Size and
  Max_Read_Request_Size as encoded, relaxed ordering and 14-bit tags enabled, by endpoint (R310); reset 0, 0, 2, 1, 0 -/
  bars : Tab Nat
  mps : Tab Nat
  mrrs : Tab Nat
  relaxed : Tab Nat
  tags14 : Tab Nat
  /-- AER uncorrectable error status, by function: bit 12, a poisoned TLP received; R310, R315; reset 0 -/
  aer : Tab Nat
  /-- D3hot, by function; R310, R350; reset 0 (D0) -/
  d3hot : Tab Nat
  /-- MSI-X Enable, held XOR 1, and Function Mask, by function; R349; reset enabled, not masked, log entry 62 -/
  msixOff : Tab Nat
  fnMask : Tab Nat
  deriving DecidableEq, Repr

/-- The host side after reset. -/
def HostSide.reset : HostSide :=
  { nextKey := 0, descs := [], held := [], rrTrump := [], rrRing := [], rrLeft := [], coal := [], evtSeq := [],
    evtLost := [], msix := [], pba := [], vfEn := [], numVfs := [], inReset := [], linkDown := [], linkRate := [],
    linkWidth := [], rxaLast := [], rxaDue := [], stwLost := [], rejects := [], bars := [], mps := [], mrrs := [], relaxed := [], tags14 := [], aer := [], d3hot := [], msixOff := [], fnMask := [] }

/-- A task record of a kernel object (R273). -/
structure KTask where
  slot : Nat
  mx : Bool
  linear : Bool
  ncnt : Nat
  wsize : Nat
  entry : Nat
  codeOff : Nat
  codeLen : Nat
  codeSrc : Nat
  constOff : Nat
  constLen : Nat
  constSrc : Nat
  deriving DecidableEq, Repr

/-- A counter record of a plan (R284). -/
structure CntRec where
  slot : Nat
  first : Nat
  count : Nat
  value : Nat
  deriving DecidableEq, Repr

/-- An input or output extent of a plan (R285). -/
structure Extent where
  sp : Nat
  len : Nat
  store : Nat
  src : Bool
  deriving DecidableEq, Repr

/-- A weight stream record of a plan (R287). -/
structure WsRec where
  saddr : Nat
  rowBytes : Nat
  rowCount : Nat
  sstride : Nat
  vx0 : Nat
  vx1 : Nat
  vy0 : Nat
  vy1 : Nat
  roff : Nat
  slot : Nat
  rstride : Nat
  cnt : Nat
  cntEn : Bool
  after : Nat
  inc : Nat
  deriving DecidableEq, Repr

/-- A layer plan (R282). -/
structure Plan where
  policy : Nat
  heavy : Nat
  noshuf : Bool
  n : Nat
  kernel : Nat
  gx : Nat
  gy : Nat
  limitUs : Nat
  seedBase : Nat
  cbase : Nat
  len : Nat
  tbase : List Nat
  tcbase : List Nat
  barmask : List Nat
  cnts : List CntRec
  ins : List Extent
  outs : List Extent
  ws : List WsRec
  deriving DecidableEq, Repr

/-- A block record of a placement: a virtual rectangle translated onto cores (R277). -/
structure Block where
  vx0 : Nat
  vy0 : Nat
  w : Nat
  h : Nat
  px0 : Nat
  py0 : Nat
  deriving DecidableEq, Repr

/-- A stray record: one virtual core on one physical core (R277). -/
structure Stray where
  vx : Nat
  vy : Nat
  px : Nat
  py : Nat
  deriving DecidableEq, Repr

/-- A placement (R275 to R278). -/
structure Placement where
  gx : Nat
  gy : Nat
  heavy : Nat
  blocks : List Block
  strays : List Stray
  deriving DecidableEq, Repr

/-- A layer under way (R289). -/
structure LayerRun where
  /-- Descriptor that started it, and the address of its plan. -/
  key : Nat
  own : Nat
  /-- The layer that runs now, its own or one that is replayed for it (R299): plan, address and sequence number. -/
  plan : Plan
  planAddr : Nat
  num : Nat
  /-- 2 waiting for its regions; 3 for the fold of a core that a shuffle's copy met; 4 preparing; 9 released by GO; 20 stopped, waiting for quiet. -/
  step : Nat
  /-- Dies that have answered PREPARE, and that are quiet after STOP. -/
  ready : List Nat
  quiet : List Nat
  /-- Weight stream records started, and complete. -/
  wsOn : List Nat
  wsDone : List Nat
  /-- OR of FFLAGS of the tasks (R78). -/
  fflags : Nat
  goTime : Nat
  redo : Nat
  shuf : Bool
  /-- A replay has run for it (R295, R299). -/
  replayed : Bool
  /-- The resident inputs are loaded from the valid half before GO (R299). -/
  restore : Bool
  /-- A commit copy is due, where it goes, and whether a core has started it (R291, R296). -/
  copyDue : Bool
  copyBase : Nat
  copyHalf : Nat
  copyStarted : Bool
  /-- Cores whose copy has started. -/
  copied : List Nat
  /-- The time limit is running (R292, R553). -/
  limitOn : Bool
  /-- The grid is embedded again before the redo (R556, R557). -/
  reembed : Bool
  /-- Step 3 is still to come (R289), and the mean temperatures of dies over the layer before, in 0.01 °C (R520). -/
  shufDue : Bool
  temps : List (Nat × Nat)
  deriving DecidableEq, Repr

/-- What the dealer records with a valid copy (R296). -/
structure CommitRec where
  cbase : Nat
  c : Nat
  gx : Nat
  gy : Nat
  outs : List Extent
  /-- Layer sequence number whose outputs the half holds, and which half it is. -/
  layer : Nat
  half : Nat
  deriving DecidableEq, Repr

/-- The dealer's state of one partition (R269 to R304). -/
structure Part where
  /-- kernel handles 0 to 63: object address + 1, 0 unbound; R270; reset unbound -/
  kernels : Tab Nat
  /-- current placement; R275; reset none -/
  place : Option Placement
  /-- layer sequence number; 32 bits; R271; reset 0 -/
  seq : Nat
  /-- layer under way; R289; reset none -/
  run : Option LayerRun
  /-- record of the valid commit copy; R296; reset none -/
  commit : Option CommitRec
  /-- a COMMIT makes the next layer with outputs write a copy; R297; reset false -/
  commitNext : Bool
  /-- the last layer whose inputs all come from the store and are guarded in the hubs; R298; reset none -/
  guardAt : Option Nat
  /-- a boundary fold has discarded the placement, and no PLACE has succeeded since; R554; reset false -/
  noRes : Bool
  /-- plans of the layers since the valid copy, oldest first, for a replay; R299; reset empty -/
  since : List Nat
  /-- layers still to be replayed before the next one; R299, R554; reset empty -/
  replay : List Nat
  /-- folded cores of the placement whose boundary handling is due; R554; reset empty -/
  foldsDue : List Nat
  /-- dies that were shuffle targets at the last boundary; R520; reset empty -/
  shufT : List Nat
  /-- a region that the partition's layer or tolerance waits for was refused its ante; R339, R489; reset false -/
  refused : Bool
  deriving DecidableEq, Repr

/-- A partition of the dealer after reset. -/
def Part.reset : Part :=
  { kernels := [], place := none, seq := 0, run := none, commit := none, commitNext := false, guardAt := none, noRes := false,
    since := [], replay := [], foldsDue := [], shufT := [], refused := false }

/-- A guarded range of the hubs (R298). -/
structure Guard where
  part : Nat
  /-- Layer whose inputs it holds. -/
  layer : Nat
  lo : Nat
  hi : Nat
  struck : Bool
  deriving DecidableEq, Repr

/-- A Jexlink packet waiting in a port's queue (R392), or held at a port (R247): its payload in plain text, and the port it came by (72: this
panel's own). `vc` is the virtual channel that it leaves by (R399). -/
structure JxPkt where
  h : JxHdr
  data : List Byte
  came : Nat
  vc : Nat
  deriving DecidableEq, Repr

/-- A request that a hub holds while its stack retrains (R257). -/
inductive HeldReq where
  /-- A bulk packet. -/
  | pkt (stack : Nat) (h : BulkHdr) (data : List Byte)
  /-- The store access of a descriptor. -/
  | desc (stack key : Nat)
  /-- A REDUCE of Jexlink in the combine pool (R241). -/
  | red (stack : Nat) (p : JxPkt)
  deriving DecidableEq, Repr

/-- A range of the local address space whose unlisted bytes read as free values: byte `a` as part `a` of free value `n` (log entry 4). -/
structure OpenRange where
  lo : Nat
  hi : Nat
  n : Nat
  /-- Pages that read zero again, as (placement, half of the stacks): placement 0 interleaved, 1 edge-local, 2 in parity mode; half 0 HS00 to HS23, 1 HS24 to
  HS47 (R268). -/
  shut : List (Nat × Nat)
  deriving DecidableEq, Repr

/-- A piece of a weight stream record at the hub that owns its page (R178, R242, R290): `n` bytes from store address `addr`, for offset `toff` of each target. -/
structure WsPiece where
  /-- Names the piece. -/
  id : Nat
  part : Nat
  idx : Nat
  hub : Nat
  /-- The record that it is a piece of. -/
  w : WsRec
  addr : Nat
  n : Nat
  toff : Nat
  /-- The piece that carries the record's increment. -/
  last : Bool
  /-- Its bytes, once they stand in the weight-stream pool. -/
  data : Option (List Byte)
  /-- Its multicast has begun; its MC_WRITEs have left. -/
  on : Bool
  sent : Bool
  /-- Its layer has not ended. -/
  live : Bool
  /-- What has not been answered (R176). -/
  xfers : List Xfer
  deriving DecidableEq, Repr

/-- The central store behind its registers (R223 to R268). -/
structure Store where
  /-- read queues of the hubs, by hub; 256 entries each; R240; reset empty -/
  readQ : Tab (List RdEnt)
  /-- requests held for retraining stacks, oldest first; R257; reset empty -/
  held : List HeldReq
  /-- lost stacks of each parity group, in the order of their loss; R261; reset empty -/
  lost : Tab (List Nat)
  /-- stripes rebuilt in order, by the stack that held their parity; R260; reset 0 -/
  built : Tab Nat
  /-- stripes rebuilt out of order, as (stack that held their parity, stripe); R260; reset empty -/
  early : List (Nat × Nat)
  /-- corrected errors of the last 24 hours, as (stack, row, time); R254; reset empty -/
  ceRows : List (Nat × Nat × Nat)
  /-- uncorrectable errors of the last hour, as (stack, row, time); R257; reset empty -/
  ueRows : List (Nat × Nat × Nat)
  /-- rows that await a repair, as (stack, row); R254; reset empty -/
  repairs : List (Nat × Nat)
  /-- soft repairs recorded, not yet permanent, as (stack, row); R254; reset empty -/
  soft : List (Nat × Nat)
  /-- an initialisation is under way; R249; reset false -/
  initing : Bool
  /-- pieces of weight streams, in the dealer's order; those with their bytes fill the weight-stream pools; R178, R241, R242; reset empty -/
  ws : List WsPiece
  /-- name of the next piece; reset 0 -/
  wsNext : Nat
  /-- next TAG of each hub; R163; reset 0 -/
  tags : Tab Nat
  /-- staging pools that are full, as (hub, pool); R241, R266; reset empty -/
  full : List (Nat × Nat)
  deriving DecidableEq, Repr

/-- The central store after reset. -/
def Store.reset : Store :=
  { readQ := [], held := [], lost := [], built := [], early := [], ceRows := [], ueRows := [], repairs := [], soft := [], initing := false, ws := [], wsNext := 0, tags := [], full := [] }


/-- A protected management message that its peer has not acknowledged (R633). -/
structure Prot where
  snode : Nat
  slocal : Nat
  dnode : Nat
  dlocal : Nat
  mtype : Nat
  /-- Payload flits without the check flit. -/
  flits : List Nat
  alive : Nat
  tries : Nat
  deriving DecidableEq, Repr

/-- Management traffic: protected messages (R632 to R635), heartbeats (R562 to R567, R682). -/
structure Mgmt where
  /-- protected messages not acknowledged; R633; reset empty -/
  sent : List Prot
  /-- next alive value, by 32 × sending unit + peer; R633; reset DESIGN CHOICE 0, log entry 2 -/
  alive : Tab Nat
  /-- heartbeats sent: by region, 16 for the stewards; R562, R566; reset DESIGN CHOICE 0, log entry 2 -/
  beats : Tab Nat
  /-- consecutive heartbeats that a die (0 to 143) has not answered; R567; reset 0 -/
  unanswered : Tab Nat
  /-- consecutive heartbeats of a region's manager missed, by region; R567; reset 0 -/
  mgrMissed : Tab Nat
  /-- consecutive heartbeats of the active that the standby missed: 0 control network, 1 substrate wires; R563; reset 0 -/
  stwMissed : Tab Nat
  /-- consecutive answers of the standby that the active missed, by path; R682; reset 0 -/
  sbyMissed : Tab Nat
  deriving DecidableEq, Repr

/-- Management traffic after reset. -/
def Mgmt.reset : Mgmt :=
  { sent := [], alive := [], beats := [], unanswered := [], mgrMissed := [], stwMissed := [], sbyMissed := [] }

/-- A pending ante (R488, R489). -/
structure Ante where
  region : Nat
  /-- Panel time of the request. -/
  since : Nat
  /-- What the region asks for: 0 bring-up, 1 leaving C6, 2 swap, 3 fuse retry, 4 trip. -/
  why : Nat
  /-- Cause code of R498 of the last evaluation that failed, + 1. -/
  cause : Nat
  deriving DecidableEq, Repr

/-- A step that a region manager's loop has taken and not undone (R485): a cluster raised by one level, or the issue rate halved. -/
inductive LoopStep where
  | raise (die cl : Nat)
  | halve
  deriving DecidableEq, Repr

/-- Power delivery behind its registers (R471 to R499). -/
structure Power where
  /-- antes pending, in order of request; R489; reset empty -/
  antes : List Ante
  /-- ante reservation held by region, W; R487, R488; reset 0 -/
  resv : Tab Nat
  /-- region in the state it enters when its ramp ends: why of its ante + 1; R490; reset 0 -/
  ramp : Tab Nat
  /-- steps of each region's loop, newest first; R485; reset empty -/
  loop : Tab (List LoopStep)
  /-- consecutive loops of a region below 95 % of its budget; R485; reset 0 -/
  calm : Tab Nat
  /-- regions whose cartridge forces level 5 for 1 ms, and dies whose regulator does; R486; reset empty -/
  forced : List Nat
  forcedDie : List Nat
  /-- hard limits equal budgets; R483; reset false -/
  tight : Bool
  /-- swaps under way by cartridge: 1 waiting for the commit; R480; reset 0 -/
  swap : Tab Nat
  /-- panel time of the last RETRY of a cartridge's fuse + 1; R478; reset 0 -/
  retryAt : Tab Nat
  /-- failed phases by cartridge; R477; reset 0 -/
  ctPhase : Tab Nat
  /-- panel time until which a pair with a lost blade takes no grant; R499; reset 0 -/
  pairHold : Tab Nat
  /-- what holds the clamp in force: 0 input voltage, 1 managed stop, 2 abrupt stop; R494, R515, R517; reset empty -/
  holds : List Nat
  /-- readings above 16 kW of the last second, as (panel time, W above it); R483; reset empty -/
  excess : List (Nat × Nat)
  /-- regions that a waiting packet wakes from C1 or C3; R172, R493; reset empty -/
  waking : List Nat
  /-- target voltage of each die's core rail, in mV, as its calibration record gives it; R474; 0 before the first bring-up -/
  target : Tab Nat
  deriving DecidableEq, Repr

/-- Power delivery after reset. -/
def Power.reset : Power :=
  { antes := [], resv := [], ramp := [], loop := [], calm := [], forced := [], forcedDie := [], tight := false, swap := [], retryAt := [], ctPhase := [],
    pairHold := [], holds := [], excess := [], waking := [], target := [] }
/-- A planned steward handover, or a die-manager update, that a descriptor waits for (R568, R569). -/
structure Update where
  /-- Descriptor that asked for it. -/
  key : Nat
  /-- Image: 0 steward, 1 die manager. -/
  image : Nat
  /-- Step of R568 reached; for a die-manager image 0. -/
  step : Nat
  /-- Dies that run the new image (R569); d + 256 beside d: die d is left on its old one (R638). -/
  dies : List Nat
  deriving DecidableEq, Repr

/-- Folding and recovery behind the registers (R547 to R576). -/
structure Rcv where
  /-- fold fuses of the two steward dies, which blow the same bits, by word: 0 to 1,151 cores, 1,152 to 1,156 dies; R551; reset 0 (none folded at
  shipment, R301) -/
  fuses : Tab Nat
  /-- fault code of a core's fold + 1, by core; R547, R554; reset 0 -/
  code : Tab Nat
  /-- panel time of the last detection of the recovery in progress; R559, R575; reset 0 -/
  since : Nat
  /-- panel time at which a die's retry began + 1, by die; R550; reset 0 -/
  retry : Tab Nat
  /-- fault code of the retry, by die; R550; reset 0 -/
  retryCode : Tab Nat
  /-- panel time of a die's last retriable fault + 1, by die; R550; reset 0 -/
  lastRetry : Tab Nat
  /-- panel time of a core's last self-test + 1; R548; reset 0 -/
  tested : Tab Nat
  /-- regions whose output has gone off and whose loss the steward has not handled: cause of REGION_HOLE + 1, by region; R557; reset 0 -/
  lossDue : Tab Nat
  /-- dies that were not quiet at STOP, with its partition and layer: they report as soon as they are; R553; reset empty -/
  quietDue : List (Nat × Nat × Nat)
  /-- update under way; R568, R569; reset none -/
  update : Option Update
  /-- the reset steward has not completed its mirror; R563, R682; reset false -/
  booting : Bool
  deriving DecidableEq, Repr

/-- Recovery after reset. -/
def Rcv.reset : Rcv :=
  { fuses := [], code := [], since := 0, retry := [], retryCode := [], lastRetry := [], tested := [], lossDue := [], quietDue := [], update := none, booting := false }

/-- A panel-time exchange that a die has begun (R458): its identity, and t1 in units of 1/16 ns. -/
structure PtReq where
  id : Nat
  t1 : Nat
  deriving DecidableEq, Repr

/-- A SLEW or STEP that the active steward has issued (R458, R461). -/
structure PtAdj where
  step : Bool
  /-- Low word of the start time, ns. -/
  start : Nat
  /-- SLEW: signed adjustment per tick in 2^−16 ns; STEP: signed change in ns. -/
  amount : Int
  /-- Ticks of a SLEW. -/
  ticks : Nat
  /-- Dies that have received it. -/
  got : List Nat
  deriving DecidableEq, Repr

/-- An anchor of a cluster (R463): panel time, cycle counter, and G. -/
structure Anchor where
  time : Nat
  cycle : Nat
  gated : Bool
  deriving DecidableEq, Repr

/-- Clocks and panel time behind the registers (R444 to R470). -/
structure Clocks where
  /-- hidden fraction of panel time; 16 bits; R457; reset DESIGN CHOICE 0, log entry 2 -/
  frac : Nat
  /-- each die's panel time less the root's, in units of 1/16 ns; R457, R458; reset 0 -/
  ofs : Tab Int
  /-- exchanges in progress, by die; R458; reset none -/
  req : Tab (Option PtReq)
  /-- identity of a die's next exchange; 16 bits; R458; reset DESIGN CHOICE 0, log entry 2 -/
  nextId : Tab Nat
  /-- consecutive exchanges within ±1 ns, by die; R459; reset 0 -/
  good : Tab Nat
  /-- dies that are on and have loaded no panel time since (1), or have not held PT_LOCK since (2); R457, R464; reset 0 -/
  untimed : Tab Nat
  /-- SLEW or STEP issued, not yet begun; R461; reset none -/
  adj : Option PtAdj
  /-- ticks left of the SLEW in progress, and its adjustment; R457, R461; reset 0 -/
  slewLeft : Nat
  slewAmt : Int
  /-- droop level of a cluster, by 16 × die + cluster; 0 to 5; R451; reset 0 -/
  droop : Tab Nat
  /-- regions whose clusters have been gated since the previous anchor; R463; reset empty -/
  gated : List Nat
  /-- anchors of a cluster, newest first, by 16 × die + cluster; 2,048; R463; reset empty -/
  anchors : Tab (List Anchor)
  /-- clusters (16 × die + cluster) that have run stretched since the previous anchor; R453; reset empty -/
  stretched : List Nat
  /-- references good at a node that is no compute die: A + 2 B, by node; R445; reset 0 -/
  refs : Tab Nat
  /-- a reference (0 A, 1 B) that every die treats as lost after a mismatch + 1; R445; reset 0 -/
  shun : Nat
  /-- a panel warm reset awaits a good reference; R447; reset false -/
  warmDue : Bool
  /-- smallest slack of each monitor since the last logbook record, by core (36,864 and 36,865 the stewards), held as 63 − slack; R454; reset 0 -/
  daily : Tab Nat
  /-- high word of CLK_PTIME latched by a 4-byte read of its low word; 32 bits; R466; reset DESIGN CHOICE 0, log entry 2 -/
  ptHigh : Nat
  deriving DecidableEq, Repr

/-- Clocks after reset. -/
def Clocks.reset : Clocks :=
  { frac := 0, ofs := [], req := [], nextId := [], good := [], untimed := [], adj := none, slewLeft := 0, slewAmt := 0, droop := [],
    gated := [], anchors := [], stretched := [], refs := [], shun := 0, warmDue := false, daily := [], ptHigh := 0 }

/-- Cooling behind the registers (R500 to R524). -/
structure Cooling where
  /-- consecutive diode samples of a cluster at or above 115 °C, by 16 × die + cluster; R511; reset 0 -/
  hot : Tab Nat
  /-- panel time of a cluster's last THM_DISAGREE + 1; R505; reset 0 -/
  disagree : Tab Nat
  /-- sensors of a cluster that read implausibly at its last sample: diode + 2 × ring, by 16 × die + cluster; R505; reset 0 -/
  bad : Tab Nat
  /-- consecutive millisecond ranks of a region below THR − 3 °C; R509; reset 0 -/
  cool : Tab Nat
  /-- thermal floor that a region's manager has received; R509; reset 0 -/
  floor : Tab Nat
  /-- panel time of a region's last automatic return + 1; R512; reset 0 -/
  autoAt : Tab Nat
  /-- regions off through the flow guard; R519; reset empty -/
  guarded : List Nat
  /-- a hub's weight-stream pool at half rate, an HBM stack at doubled refresh (1) or half rate (2), by unit u; R513; reset 0 -/
  pace : Tab Nat
  /-- pin FLOW_FAULT_N asserted, behind the filter; R502; reset false -/
  faultN : Bool
  deriving DecidableEq, Repr

/-- Cooling after reset. -/
def Cooling.reset : Cooling :=
  { hot := [], disagree := [], bad := [], cool := [], floor := [], autoAt := [], guarded := [], pace := [], faultN := false }
/-- A lane operation of a port (R360, R364): a swap of a logical lane onto a spare, or a narrowing to a width code; F once it is confirmed. -/
structure LaneOp where
  narrow : Bool
  llane : Nat
  slane : Nat
  neww : Nat
  fseq : Option Nat
  deriving DecidableEq, Repr

/-- A change that firmware keeps as it happens (R375): 0 a lane's state (48 × engine + lane), 1 a swap (port; lane left, spare taken), 2 a width (port;
codes), 3 a laser switch (8 × module + wavelength; how, as LASER_SPARED's byte 18). -/
structure OptChange where
  time : Nat
  kind : Nat
  unit : Nat
  old : Nat
  new : Nat
  deriving DecidableEq, Repr

/-- A reading's statistics of the day (R375). -/
structure Daily where
  n : Nat
  least : Int
  most : Int
  sum : Int
  deriving DecidableEq, Repr

/-- The optical side behind its registers (R353 to R379). Lanes are keyed by 48 k + l, fibres by 6 k + j, feeds by 4 k + f, ports by ID. -/
structure Optics where
  /-- identity record of the module in a socket; 128 bytes; R669; kept in the module; reset none -/
  modRec : Tab (List Byte)
  /-- crossings of a lane in the last 600 s: panel times; R362; reset empty -/
  cross : Tab (List Nat)
  /-- lanes that have lost lock in the current interval; R361; reset empty -/
  lostNow : List Nat
  /-- wavelengths (8 × module + w) that a module has switched in the current interval; R361; reset empty -/
  switched : List Nat
  /-- lane operation that a port's receiver has requested; R364; reset none -/
  rxOp : Tab (Option LaneOp)
  /-- lane operation that a port's transmitter has confirmed; R364; reset none -/
  txOp : Tab (Option LaneOp)
  /-- logical lane + 1 that a TX lane carries, by 16 × port + lane; R358, R364; reset 0 -/
  txLane : Tab Nat
  /-- width code of a port's transmit direction, held XOR 3; R358; reset 3 -/
  txWidth : Tab Nat
  /-- TX power that the far end of a fibre last reported, as its 16-bit code + 1; R365; reset 0 -/
  farTx : Tab Nat
  /-- baseline of a fibre's RX power, as its 16-bit code + 1; R366, R367; reset 0 -/
  rxBase : Tab Nat
  /-- baseline of a feed fibre's loss, 0.01 dB, + 1; R366, R367; reset 0 -/
  feedBase : Tab Nat
  /-- lasers (8 × module + w) whose LASER_WARN is posted; R369; reset empty -/
  warned : List Nat
  /-- bias baseline of a laser + 1, by 16 × module + 2 w + (1 for the spare); R369; reset 0 -/
  laserBase : Tab Nat
  /-- swap of a module: 0 none, 1 draining, 4 lasers off, 3 SWAP_READY or waiting for the module or its cartridge, 2 inserted; R374, R381; reset 0 -/
  swap : Tab Nat
  /-- daily statistics by reading, and the day that they cover; R375; reset empty -/
  margins : Tab Daily
  day : Nat
  /-- changes kept as they happen, newest first; R375; reset empty -/
  changes : List OptChange
  deriving DecidableEq, Repr

/-- The optical side after reset. -/
def Optics.reset : Optics :=
  { modRec := [], cross := [], lostNow := [], switched := [], rxOp := [], txOp := [], txLane := [], txWidth := [], farTx := [], rxBase := [], feedBase := [],
    warned := [], laserBase := [], swap := [], margins := [], day := 0, changes := [] }

/-- A packet whose header has arrived and whose data cells are arriving (R383, R394). -/
structure JxOpen where
  h : JxHdr
  got : List Byte
  left : Nat
  deriving DecidableEq, Repr

/-- A key agreement of a port (R619): this end's X25519 private value and its OFFER; the far OFFER; the keys derived from both (sending, receiving:
key and salt); whether the CONFIRM of each end has passed. -/
structure SealTry where
  priv : Nat
  offer : List Byte
  far : Option (List Byte)
  keys : Option ((Nat × Nat) × (Nat × Nat))
  gotConf : Bool
  deriving DecidableEq, Repr

/-- Jexlink's state of one port (R382 to R411). -/
structure JxPort where
  /-- number of the next numbered flit sent, and of the next one awaited; 12 bits; R384; reset 0 -/
  txNext : Nat
  rxNext : Nat
  /-- numbered flits sent and not acknowledged, oldest first, with their numbers; at most 4,095; R393; reset empty -/
  unacked : List (Nat × List (List Byte))
  /-- replays of the oldest flit without progress; R395; reset 0 -/
  stuck : Nat
  /-- a bad flit has arrived: flits are discarded until a good marker; R394; reset false -/
  bad : Bool
  /-- a NAK is to be sent; R389; reset false -/
  nak : Bool
  /-- numbered flits received since the last LCTL cell sent; R389; reset 0 -/
  unreported : Nat
  /-- packet whose data cells are arriving; R383; reset none -/
  open_ : Option JxOpen
  /-- cells sent by VC, and the far receiver's running total of cells freed; 16 bits; R391; reset 0 -/
  sent : Tab Nat
  seen : Tab Nat
  /-- cells freed here by VC since initialisation; 16 bits; R388; reset 0 -/
  freed : Tab Nat
  /-- packets queued, in order of arrival; R392; reset empty -/
  queue : List JxPkt
  /-- place in the round robin (0: VC1), and the cells that each VC has sent in its turn, or beyond its turns; R392; reset DESIGN CHOICE 0, log entry 2 -/
  turn : Nat
  debt : Tab Nat
  /-- packets that wait for the reception area of the port; R247, R401; reset empty -/
  held : List JxPkt
  /-- sealing keys (key, salt): sending and receiving; R410; reset none -/
  txKey : Option (Nat × Nat)
  rxKey : Option (Nat × Nat)
  /-- SCTR of the next sealed packet; R410; reset 0 -/
  txCtr : Nat
  /-- last SCTR accepted + 1; R411; reset 0 -/
  rxCtr : Nat
  /-- agreement in progress; R619; reset none -/
  agr : Option SealTry
  /-- attestation key of a far chain verified since the port came up; R619; reset none -/
  farKey : Option (List Byte)
  /-- panel times of packets that failed authentication in the last second; R411; reset empty -/
  authAt : List Nat
  deriving DecidableEq, Repr

/-- A port after reset. -/
def JxPort.reset : JxPort :=
  { txNext := 0, rxNext := 0, unacked := [], stuck := 0, bad := false, nak := false, unreported := 0, open_ := none, sent := [], seen := [],
    freed := [], queue := [], turn := 0, debt := [], held := [], txKey := none, rxKey := none, txCtr := 0, rxCtr := 0, agr := none, farKey := none,
    authAt := [] }

/-- A delivered packet whose bulk packets inside the panel are not all answered (R401, R403): the location that sent them, their TAGs with their
offsets in the payload, what has been read, and the merged status. -/
structure JxPend where
  loc : Nat
  p : JxPkt
  tags : List (Nat × Nat)
  data : List Byte
  status : Nat
  deriving DecidableEq, Repr

/-- A SEND_REMOTE or REDUCE_REMOTE that awaits answers (R403): its XID, its descriptor, the packets not answered, the status so far. -/
structure JxXfer where
  xid : Nat
  key : Nat
  wait : List Nat
  status : Nat
  deriving DecidableEq, Repr

/-- A BARRIER that awaits its release (R405). -/
structure JxBar where
  xid : Nat
  key : Nat
  deriving DecidableEq, Repr

/-- Arrivals counted at a root (R405): group, generation, COUNT of the first, and who arrived (SRC, the ID it named, XID, VC). -/
structure BarCount where
  group : Nat
  gen : Nat
  count : Nat
  got : List (Nat × Nat × Nat × Nat)
  deriving DecidableEq, Repr

/-- Jexlink and the panel router behind their registers (R382 to R416). -/
structure Jexlink where
  /-- ports by ID; reset as JxPort.reset -/
  ports : Tab JxPort
  /-- delivered packets not yet performed; R401; reset empty -/
  pend : List JxPend
  /-- TAG of the next bulk packet of a perimeter die for a Jexlink packet; 16 bits; R163; reset DESIGN CHOICE 0, log entry 2 -/
  nextTag : Nat
  /-- transfers of descriptors; R403; reset empty -/
  xfers : List JxXfer
  /-- barriers awaited, and counts open at this root (4,096); R405; reset empty -/
  bars : List JxBar
  counts : List BarCount
  /-- XID of the next transfer; 32 bits; R385; reset DESIGN CHOICE 0, log entry 2 -/
  nextXid : Nat
  /-- hop counts + 1 heard by port, key 131,072 × port + 65,536 × alias + ID; R407; reset empty -/
  heard : Tab Nat
  /-- time exchange in progress: port, t1; R408; reset none -/
  exch : Option (Nat × Nat)
  /-- consecutive exchanges within 20 ns, and the last offset; R409; reset 0 -/
  agree : Nat
  lastOfs : Int
  /-- LOCKED has been 1 since the last panel warm reset; R461; reset false -/
  wasLocked : Bool
  deriving DecidableEq, Repr

/-- Jexlink after reset. -/
def Jexlink.reset : Jexlink :=
  { ports := [], pend := [], nextTag := 0, xfers := [], bars := [], counts := [], nextXid := 0, heard := [], exch := none, agree := 0, lastOfs := 0,
    wasLocked := false }

/-- The keyrings behind their registers (R601 to R625). Slots of both keyrings that are fuses hold the same (log entry 10). -/
structure Keyring where
  /-- challenge outstanding of mailbox q, and the role it is for; R604; reset none -/
  chal : Tab (List Byte)
  chalRole : Tab Nat
  /-- panel times of failed responses in the last 60 s, by mailbox; R604; reset empty -/
  fails : Tab (List Nat)
  /-- panel time + 1 at which AUTH of a mailbox was locked, 0 where it is not; R604; reset 0 -/
  lock : Tab Nat
  /-- operator keys, 32 bytes, by slot; R605; reset none -/
  ops : Tab (List Byte)
  /-- measurement slots of the standby's keyring; R609; reset 64 zero bytes, held as empty -/
  sbyMeas : Tab (List Byte)
  /-- KEY_STAT.STATE of the standby's keyring; R611; reset 0 -/
  sbyState : Nat
  /-- images in the boot flash, by 4 × steward + 2 × bank + image; R605, R621; survives; reset empty, log entry 2 -/
  flash : Tab (List Byte)
  /-- bank marked active, by 2 × steward + image; R622; survives; reset DESIGN CHOICE 0, log entry 2 -/
  bank : Tab Nat
  /-- image verified without an owner signature, by type (1); R627; reset 0 -/
  rootOnly : Tab Nat
  /-- transport key of an engine + 1; R602; reset none -/
  engKey : Tab Nat
  /-- SPDM connection of a requester (function, or 16 + port): 1 version, 2 capabilities, 3 algorithms; R614; reset 0 -/
  spdm : Tab Nat
  /-- SPDM messages that have arrived by Jexlink and wait for the active steward, oldest first: port, source panel, XID, message; R401, R615; reset empty -/
  inbox : List (Nat × Nat × Nat × List Byte)
  /-- staged bytes received, by image: covered ranges [lo, hi) in rising order, disjoint; R621; reset empty -/
  staged : Tab (List (Nat × Nat))
  /-- a chunk of a firmware copy sent to a die: chunk and tries; R638; reset none -/
  chunk : Option (Nat × Nat × Nat)
  deriving DecidableEq, Repr

/-- The keyrings after reset. -/
def Keyring.reset : Keyring :=
  { chal := [], chalRole := [], fails := [], lock := [], ops := [], sbyMeas := [], sbyState := 0, flash := [], bank := [], rootOnly := [],
    engKey := [], staged := [], spdm := [], inbox := [], chunk := none }

/-- Reset, bring-up and the tray's pins behind the registers (R525 to R546, R671 to R673). -/
structure Boot where
  /-- blocks whose idle request is asserted: scope and cause; R530; reset empty -/
  idle : List (Nat × Nat)
  /-- cartridges whose SWAP_REQ came before READY; R546; reset empty -/
  heldSwaps : List Nat
  /-- a write of SETUP_LOCK came before READY; R655; reset false -/
  lockDue : Bool
  /-- a save of the owner configuration waits for a segment request; R546; reset false -/
  saveDue : Bool
  /-- endpoints (1) whose die's firmware failed, which stay in the minimal state; R610; reset 0 -/
  minimal : Tab Nat
  /-- TRAY_RESET_N is low; R671; reset false -/
  trayLow : Bool
  /-- the 48 V input is cut off; R494; reset true, held as on = false -/
  on : Bool
  /-- panel time of the last KICK, by steward; R529; reset 0 -/
  kick : Tab Nat
  /-- the tray holds the I3C bus; R673; reset false -/
  tray : Bool
  /-- set-up offset of target 0x5A; 32 bits; R673; reset DESIGN CHOICE 0, log entry 2 -/
  i3cOfs : Nat
  /-- retries of a module's (k) or cartridge's (12 + n) controller; R669; reset 0 -/
  i3cTries : Tab Nat
  deriving DecidableEq, Repr

/-- Reset and bring-up after reset. -/
def Boot.reset : Boot :=
  { idle := [], heldSwaps := [], lockDue := false, saveDue := false, minimal := [], trayLow := false, on := false, kick := [], tray := false, i3cOfs := 0, i3cTries := [] }


/-- Die-to-die links behind the registers (R419 to R429). A link end is keyed by 9 × die + way, a lane group by 16 × that + group. -/
structure LinkSide where
  /-- spares in use by lane group of a receiver; R424; reset 0 -/
  used : Tab Nat
  /-- eye of a wire at its last sweep + 1, or 100 for a wire that a repair retired, by 512 × lane group + wire; R424, R441; reset none -/
  eyes : Tab Nat
  /-- millisecond of the window that resends are counted in, and the count, by link end; R425; reset 0 -/
  winMs : Tab Nat
  winCnt : Tab Nat
  /-- cause of the fallback in progress + 1, by link end; R426, R427; reset none -/
  falling : Tab Nat
  /-- link ends that await training since their power came; R422, R464; reset empty -/
  due : List Nat
  /-- mode of a corner die's corner link, held XOR 2; R419, R441; reset down -/
  corner : Tab Nat
  deriving DecidableEq, Repr

/-- Links after reset. -/
def LinkSide.reset : LinkSide := { used := [], eyes := [], winMs := [], winCnt := [], falling := [], due := [], corner := [] }

/-- A window of an admitted guest (R436). -/
structure GuestWin where
  base : Nat
  size : Nat
  rd : Bool
  wr : Bool
  deriving DecidableEq, Repr

/-- An answer that waits for the guest's response credits (R432). -/
structure GuestAns where
  h : BulkHdr
  data : List Byte
  deriving DecidableEq, Repr

/-- A guest site behind its registers (R430 to R439). -/
structure Guest where
  /-- windows opened at admission; R435, R436; reset empty -/
  wins : List GuestWin
  /-- TAGs of requests that await an answer; R432; reset empty -/
  reqs : List Nat
  /-- response units sent, and freed by the guest, since admission; request units freed here; 16 bits each; R432; reset 0 -/
  rspSent : Nat
  rspFreed : Nat
  reqFreed : Nat
  /-- answers that wait for credits, oldest first; R432; reset empty -/
  queue : List GuestAns
  /-- mailbox exchange in progress; R438; reset false -/
  mbox : Bool
  /-- step of R435 in progress, and retries of its sideband request; R433, R435; reset 0 -/
  step : Nat
  tries : Nat
  deriving DecidableEq, Repr

/-- A guest site after reset. -/
def Guest.reset : Guest := { wins := [], reqs := [], rspSent := 0, rspFreed := 0, reqFreed := 0, queue := [], mbox := false, step := 0, tries := 0 }
/-- A logbook record (R592). -/
structure LogRec where
  kind : Nat
  life : Bool
  unit : Nat
  seq : Nat
  time : Nat
  /-- From byte 24, CRC aside. -/
  payload : List Byte
  deriving DecidableEq, Repr

/-- The trick in progress (R583, R584). -/
structure Trick where
  /-- Descriptor that asked for it; none: firmware's own. -/
  key : Option Nat
  n : Nat
  t : Nat
  /-- GLB_RCV_GEN that the trick uses (R572). -/
  gen : Nat
  /-- TEL_IMG when it began (R600): base where EN. -/
  image : Option Nat
  /-- Nodes that the TRICK frame has reached. -/
  armed : List Nat
  /-- When the active steward took the trick over from a failed one (R600); else 0. -/
  since : Nat
  deriving DecidableEq, Repr

/-- Telemetry's state behind the registers (R577 to R600). -/
structure Tel where
  /-- WRAP bits set since the unit's last COUNTER_WRAP, by unit (0 to 195 as DNODE); R579; reset 0 -/
  wraps : Tab Nat
  /-- panel time of the unit's last COUNTER_WRAP + 1, 0 none; R579; reset none -/
  wrapAt : Tab Nat
  /-- logbook records retained, oldest first, on every device in service and in the mirror; R590; reset empty, log entry 2 -/
  log : List LogRec
  /-- trick in progress; R583; reset none -/
  trick : Option Trick
  /-- number of the next trick; 32 bits; R584; reset 1, held XOR 1 -/
  next : Nat
  /-- shadows that units have copied, by unit (0 to 195 as DNODE, 196 and 197 guest sites); R584; reset empty -/
  shadow : Tab (List Byte)
  /-- firmware's day-boundary trick is due; R583, R600; reset false -/
  daily : Bool
  /-- what the day has counted for its records (R593): corrected errors of core `c` at key `c`, of stack `n` at 40,000 + `n`, repairs of stack `n` at
  40,100 + `n`, and of way `w` of die `d` at 41,000 + 4 `d` + `w`; reset 0 -/
  day : Tab Nat
  /-- kind, unit and payload of the daily records to be written after firmware's trick; R593; reset empty -/
  dayRecs : List (Nat × Nat × List Byte)
  deriving DecidableEq, Repr

/-- Telemetry after reset. -/
def Tel.reset : Tel := { wraps := [], wrapAt := [], log := [], trick := none, next := 0, shadow := [], daily := false, day := [], dayRecs := [] }
/-- What the panel shows or sends: to its networks, the host, the ports and pins. Newest first in State.out. -/
inductive Out where
  /-- A bulk packet leaves location `node`. From a router, `way` is 0 to 7 as the bits of R168, 8 the corner link, 10 to 13 the next router E, N, W, S, and
  14 its own core's entry. From a ring stop it is 8 and 9 the ring upwards and downwards, 4 a skip link, 10 the edge or corner link, and 14 its own
  entry. -/
  | bulk (node way : Nat) (h : BulkHdr) (data : List Byte)
  /-- A MELD_RSP with its list (R182). -/
  | meld (node way : Nat) (h : BulkHdr) (l : List MeldEnt) (data : List Byte)
  /-- A PULL with its descriptor (R180). -/
  | pull (node way : Nat) (h : BulkHdr) (d : StreamDesc)
  /-- A control packet with its payload flits (R183). -/
  | ctl (h : CtlHdr) (flits : List Nat)
  /-- A sync message from a node to one neighbour or child: type, ARG and data frames (R190). -/
  | sync (node toward type seq arg : Nat) (data : List Nat)
  /-- A perimeter-ring packet leaves a stop; `up` is the direction of increasing stop number (R21). -/
  | ring (stop : Nat) (up : Bool) (p : RingPkt)
  /-- A perimeter-ring packet reaches its stop (R21). -/
  | ringEnd (stop : Nat) (p : RingPkt)
  /-- The panel writes host memory for function `fn` (R325, R329, R337). -/
  | hostWrite (fn addr : Nat) (data : List Byte)
  /-- The panel reads host memory (R324, R337). -/
  | hostRead (fn addr len : Nat)
  /-- An MSI-X message of function `fn` (R348, R349): address and data of the table entry. -/
  | msix (fn vec addr data : Nat)
  /-- The answer to a read through BAR0, BAR2 or BAR4, or by firmware; `poison` a poisoned completion (R313, R315). -/
  | readData (src : Src) (value : Nat) (bytes : Nat) (poison : Bool)
  /-- The die manager's report of a task trap to the dealer (R80). -/
  | trapReport (core slot : Nat) (cause detail code pc addr : Nat)
  /-- The dealer's command to a hub: serve weight stream record `rec` of a partition (R290). -/
  | weight (part idx hub : Nat)
  /-- A packet or CREDIT unit to guest site `site` (R431, R432). -/
  | guest (site : Nat) (h : BulkHdr) (data : List Byte)
  /-- A read or write of 4 bytes at a guest's sideband address (R433, R438). -/
  | sideband (site : Nat) (wr : Bool) (addr data : Nat)
  /-- The request frame of the compat field's control channel, with its CRC-8 (R433). -/
  | frame (site : Nat) (bytes : List Byte)
  /-- A flit leaves an optical port: its number where it is numbered, and its four cells (R382, R384). -/
  | flit (port : Nat) (seq : Option Nat) (cells : List (List Byte))
  /-- The answer to an SPDM request, by response kind: the contents that the spec states (R614 to R617). -/
  | spdm (via : SpdmVia) (kind : Nat) (data : List Byte)
  /-- The bytes that target 0x5A returns to the tray (R673). -/
  | i3c (data : List Byte)
  deriving DecidableEq, Repr

/-- The panel. -/
structure State where
  /-- commands waiting, first in, first out -/
  pending : List Instr
  /-- set-up registers and module and cartridge registers, by field: key = 8 × byte offset + low bit; entry = value XOR reset value -/
  regs : Tab Nat
  /-- bytes of the local address space: central store and scratchpad windows; unlisted bytes read 0; in a range of `opens` the
  entry is the byte XOR what the byte reads unlisted -/
  mem : List Host.Cell
  /-- ranges whose contents have become unspecified (R127, R230), newest first; reset empty -/
  opens : List OpenRange
  /-- words with a memory error, by local address ÷ 8: 1 one bit, 2 more; R130, R251; reset empty -/
  ecc : Tab Nat
  /-- cores by physical core ID; R13; reset as Core.reset -/
  cores : Tab Core
  /-- bulk routers by physical core ID; R156; reset as Router.reset -/
  routers : Tab Router
  /-- networks; R156 to R200 -/
  net : Net
  /-- host interface dies; R310 to R352 -/
  host : HostSide
  /-- the dealer's partitions 0 to 15; R269; reset as Part.reset -/
  parts : Tab Part
  /-- guarded ranges of the hubs; 128; R298; reset empty -/
  guards : List Guard
  /-- central store; R223 to R268 -/
  store : Store
  /-- telemetry; R577 to R600 -/
  tel : Tel
  /-- management traffic; R562 to R567, R632 to R635 -/
  mgmt : Mgmt
  /-- power delivery; R471 to R499 -/
  power : Power
  /-- folding and recovery; R547 to R576 -/
  rcv : Rcv
  /-- clocks and panel time; R444 to R470 -/
  clk : Clocks
  /-- cooling; R500 to R524 -/
  therm : Cooling
  /-- die-to-die links; R419 to R429 -/
  links : LinkSide
  /-- guest sites 0 and 1; R430 to R439; reset as Guest.reset -/
  guests : Tab Guest
  /-- optical engines, ports and laser sources; R353 to R381 -/
  opt : Optics
  /-- Jexlink and the panel router; R382 to R418 -/
  jx : Jexlink
  /-- keyrings; R601 to R627 -/
  key : Keyring
  /-- reset, bring-up and the tray; R525 to R546, R671 to R673 -/
  boot : Boot
  /-- panel time; 64 bits, ns; R457; reset 0 (R466) -/
  ptime : Nat
  /-- the model's own count of free values drawn -/
  fresh : Nat
  /-- what the panel has sent and shown, newest first -/
  out : List Out
  deriving DecidableEq, Repr

/-- The panel right after reset. -/
def State.reset : State :=
  { pending := [], regs := [], mem := [], opens := [], ecc := [], cores := [], routers := [], net := Net.reset, host := HostSide.reset, parts := [],
    guards := [], store := Store.reset, tel := Tel.reset, mgmt := Mgmt.reset, power := Power.reset, rcv := Rcv.reset, clk := Clocks.reset, therm := Cooling.reset, links := LinkSide.reset, guests := [], opt := Optics.reset, jx := Jexlink.reset, key := Keyring.reset, boot := Boot.reset, ptime := 0,
    fresh := 0, out := [] }

end Sys2Proof.Machine
end

