-- ==== Sys2Proof/Machine/RegMap.lean ====
section
/-! DEFINITION. The register map: a name for every register field of set-up space (R643 to R660) and of the module and
cartridge register files (R669), with width, reset value and access code as the spec's field tables give them. Fields are
named REGISTER.FIELD as the spec names them; an indexed register takes its indexes, die or unit first. -/

namespace Sys2Proof.Machine

/-- A register field: key = 8 × the register's offset + the field's low bit; width; reset value. -/
structure Field where
  key : Nat
  w : Nat
  reset : Nat
  deriving DecidableEq, Repr

/-- The access codes (R8). -/
inductive Access where
  | rw | ro | rc | w1c | wo | rwl
  deriving DecidableEq, Repr

/-- Who may write a register through BAR0 (R648 and the chapters' own rules). -/
inductive Bar0 where
  /-- Nobody. -/
  | none
  /-- A PF, its RW, RWL, W1C and WO fields. -/
  | pf
  /-- A PF, W1C and CLR fields only (R597). -/
  | w1cOnly
  /-- The PF that owns the port (R263). -/
  | portOwner
  /-- Not in set-up space: a register of a module or cartridge (R669). -/
  | i3c
  deriving DecidableEq, Repr

/-- A field in the map: access code, the field at an index, and the range outside which a written value is
replaced: (least, greatest, value stored below, value stored above). -/
structure FieldRow where
  acc : Access
  fld : List Nat → Field
  clamp : Option (Nat × Nat × Nat × Nat)

/-- A register in the map: first offset, (count, stride) of each index, size in bytes, BAR0 writers, fields. -/
structure RegRow where
  base : Nat
  dims : List (Nat × Nat)
  bytes : Nat
  bar0 : Bar0
  fields : List FieldRow

/-- Blade pair code of cartridge slot `n` (R471). -/
def pairOf (n : Nat) : Nat := if n < 16 then n % 6 else n - 14

def GLB_ID_VENDOR.VENDOR : Field := ⟨8 * (0x0) + 0, 16, 0xD3B5⟩
def GLB_ID_VENDOR.DEVICE : Field := ⟨8 * (0x0) + 16, 16, 0x0144⟩
def GLB_ID_PART.PART : Field := ⟨8 * (0x4) + 0, 4, 0⟩
def GLB_ID_PART.STEP_LETTER : Field := ⟨8 * (0x4) + 8, 8, 0x42⟩
def GLB_ID_PART.STEP_NUM : Field := ⟨8 * (0x4) + 16, 8, 1⟩
def GLB_ID_SERIAL.SERIAL : Field := ⟨8 * (0x8) + 0, 64, 0⟩
def GLB_ID_MAP.MAP_VER : Field := ⟨8 * (0x10) + 0, 8, 1⟩
def GLB_ID_MAP.LOG2_SIZE : Field := ⟨8 * (0x10) + 8, 8, 26⟩
def GLB_ID_UNITS.DIES : Field := ⟨8 * (0x14) + 0, 8, 144⟩
def GLB_ID_UNITS.HUBS : Field := ⟨8 * (0x14) + 8, 8, 24⟩
def GLB_ID_UNITS.ENGINES : Field := ⟨8 * (0x14) + 16, 8, 24⟩
def GLB_ID_UNITS.GUESTS : Field := ⟨8 * (0x14) + 24, 2, 0⟩
def GLB_ID_FWVER.STEWARD : Field := ⟨8 * (0x18) + 0, 32, 0⟩
def GLB_ID_FWVER.DIEMGR : Field := ⟨8 * (0x18) + 32, 32, 0⟩
def HID_FN_ID.FN (f : Nat) : Field := ⟨8 * (0x10000 + f * 0x100) + 0, 4, f⟩
def HID_FN_ID.PF (f : Nat) : Field := ⟨8 * (0x10000 + f * 0x100) + 4, 1, if f = 0 ∨ f = 8 then 1 else 0⟩
def HID_FN_ID.EN (f : Nat) : Field := ⟨8 * (0x10000 + f * 0x100) + 5, 1, 0⟩
def HID_FN_AP.BASE (f : Nat) : Field := ⟨8 * (0x10008 + f * 0x100) + 30, 18, 0⟩
def HID_EVT_BASE.BASE (f : Nat) : Field := ⟨8 * (0x10010 + f * 0x100) + 12, 52, 0⟩
def HID_EVT_CFG.EN (f : Nat) : Field := ⟨8 * (0x10018 + f * 0x100) + 0, 1, 0⟩
def HID_EVT_CFG.LOG2SIZE (f : Nat) : Field := ⟨8 * (0x10018 + f * 0x100) + 8, 4, 6⟩
def HID_EVT_CFG.VEC (f : Nat) : Field := ⟨8 * (0x10018 + f * 0x100) + 16, 11, 0⟩
def HID_EVT_HEAD.HEAD (f : Nat) : Field := ⟨8 * (0x1001C + f * 0x100) + 0, 12, 0⟩
def HID_EVT_TAIL.TAIL (f : Nat) : Field := ⟨8 * (0x10020 + f * 0x100) + 0, 12, 0⟩
def HID_EVT_TAIL.PHASE (f : Nat) : Field := ⟨8 * (0x10020 + f * 0x100) + 16, 1, 1⟩
def HID_FN_ERR.DB_FOREIGN (f : Nat) : Field := ⟨8 * (0x10024 + f * 0x100) + 0, 1, 0⟩
def HID_FN_ERR.AP_ERR (f : Nat) : Field := ⟨8 * (0x10024 + f * 0x100) + 1, 1, 0⟩
def HID_FN_ERR.BAR0_DENIED (f : Nat) : Field := ⟨8 * (0x10024 + f * 0x100) + 2, 1, 0⟩
def HID_FN_ERR.EVLOST (f : Nat) : Field := ⟨8 * (0x10024 + f * 0x100) + 16, 16, 0⟩
def HID_FN_PARTS.PARTS (f : Nat) : Field := ⟨8 * (0x10028 + f * 0x100) + 0, 16, 0⟩
def HID_PERF_DESC.COUNT (f : Nat) : Field := ⟨8 * (0x10040 + f * 0x100) + 0, 48, 0⟩
def HID_PERF_RDB.COUNT (f : Nat) : Field := ⟨8 * (0x10048 + f * 0x100) + 0, 48, 0⟩
def HID_PERF_WRB.COUNT (f : Nat) : Field := ⟨8 * (0x10050 + f * 0x100) + 0, 48, 0⟩
def HID_PERF_WRAP.WRAP (f : Nat) : Field := ⟨8 * (0x10058 + f * 0x100) + 0, 3, 0⟩
def HID_PART.REGIONS (p : Nat) : Field := ⟨8 * (0x11000 + p * 0x10) + 0, 16, 0⟩
def HID_PART.OWNER (p : Nat) : Field := ⟨8 * (0x11000 + p * 0x10) + 16, 4, 0⟩
def HID_PART.EN (p : Nat) : Field := ⟨8 * (0x11000 + p * 0x10) + 20, 1, 0⟩
def HID_PART.CFG_ERR (p : Nat) : Field := ⟨8 * (0x11000 + p * 0x10) + 21, 1, 0⟩
def HID_PART_TOL.TOL (p : Nat) : Field := ⟨8 * (0x11004 + p * 0x10) + 0, 32, 0⟩
def HID_SEG_REQ.ASSIGNED (j : Nat) : Field := ⟨8 * (0x12000 + j * 0x4) + 0, 1, 0⟩
def HID_SEG_REQ.SHARED (j : Nat) : Field := ⟨8 * (0x12000 + j * 0x4) + 1, 1, 0⟩
def HID_SEG_REQ.MODE (j : Nat) : Field := ⟨8 * (0x12000 + j * 0x4) + 2, 1, 0⟩
def HID_SEG_REQ.OWNER (j : Nat) : Field := ⟨8 * (0x12000 + j * 0x4) + 4, 4, 0⟩
def HID_SEG_APPLY.GO : Field := ⟨8 * (0x12100) + 0, 1, 0⟩
def HID_SEG_APPLY.BUSY : Field := ⟨8 * (0x12100) + 1, 1, 0⟩
def HID_SEG_APPLY.APPLIED : Field := ⟨8 * (0x12100) + 2, 1, 0⟩
def HID_SEG_APPLY.ERR : Field := ⟨8 * (0x12100) + 3, 1, 0⟩
def HID_SEG_APPLY.ERR_SEG : Field := ⟨8 * (0x12100) + 4, 6, 0⟩
def RING_BASE.BASE (r : Nat) : Field := ⟨8 * (0x20000 + r * 0x20) + 12, 52, 0⟩
def RING_CFG.EN (r : Nat) : Field := ⟨8 * (0x20008 + r * 0x20) + 0, 1, 0⟩
def RING_CFG.KIND (r : Nat) : Field := ⟨8 * (0x20008 + r * 0x20) + 1, 1, 0⟩
def RING_CFG.TRUMP (r : Nat) : Field := ⟨8 * (0x20008 + r * 0x20) + 2, 1, 0⟩
def RING_CFG.LOG2SIZE (r : Nat) : Field := ⟨8 * (0x20008 + r * 0x20) + 8, 5, 6⟩
def RING_CFG.FUNC (r : Nat) : Field := ⟨8 * (0x20008 + r * 0x20) + 16, 4, if r < 2048 then 0 else 8⟩
def RING_LINK.CQ (r : Nat) : Field := ⟨8 * (0x2000C + r * 0x20) + 0, 12, 0⟩
def RING_LINK.ARB (r : Nat) : Field := ⟨8 * (0x2000C + r * 0x20) + 12, 4, 0⟩
def RING_LINK.VEC (r : Nat) : Field := ⟨8 * (0x2000C + r * 0x20) + 0, 11, 0⟩
def RING_LINK.CTHR (r : Nat) : Field := ⟨8 * (0x2000C + r * 0x20) + 16, 8, 0⟩
def RING_LINK.CTIME (r : Nat) : Field := ⟨8 * (0x2000C + r * 0x20) + 24, 8, 0⟩
def RING_HEAD.HEAD (r : Nat) : Field := ⟨8 * (0x20010 + r * 0x20) + 0, 16, 0⟩
def RING_TAIL.TAIL (r : Nat) : Field := ⟨8 * (0x20014 + r * 0x20) + 0, 16, 0⟩
def RING_TAIL.PHASE (r : Nat) : Field := ⟨8 * (0x20014 + r * 0x20) + 16, 1, 1⟩
def RING_STAT.STATE (r : Nat) : Field := ⟨8 * (0x20018 + r * 0x20) + 0, 2, 0⟩
def RING_STAT.ERR (r : Nat) : Field := ⟨8 * (0x20018 + r * 0x20) + 4, 4, 0⟩
def RING_STAT.FULL (r : Nat) : Field := ⟨8 * (0x20018 + r * 0x20) + 8, 1, 0⟩
def RING_STAT.DBDROP (r : Nat) : Field := ⟨8 * (0x20018 + r * 0x20) + 16, 16, 0⟩
def PWR_BUDGET.HOST_W : Field := ⟨8 * (0x80000) + 0, 16, 16000⟩
def PWR_BUDGET.EFF_W : Field := ⟨8 * (0x80000) + 16, 16, 16000⟩
def PWR_IN.POWER : Field := ⟨8 * (0x80008) + 0, 16, 0⟩
def PWR_IN.VOLT : Field := ⟨8 * (0x80008) + 16, 16, 0⟩
def PWR_IN.CURR : Field := ⟨8 * (0x80008) + 32, 16, 0⟩
def PWR_IN.AVG5 : Field := ⟨8 * (0x80008) + 48, 16, 0⟩
def PWR_BLADE.OK (b : Nat) : Field := ⟨8 * (0x80010 + b * 0x4) + 0, 1, 0⟩
def PWR_BLADE.CURR (b : Nat) : Field := ⟨8 * (0x80010 + b * 0x4) + 8, 8, 0⟩
def PWR_BLADE.VOLT (b : Nat) : Field := ⟨8 * (0x80010 + b * 0x4) + 16, 16, 0⟩
def PWR_CT_STAT.STATE (n : Nat) : Field := ⟨8 * (0x80100 + n * 0x10) + 0, 3, 0⟩
def PWR_CT_STAT.SPARE_USED (n : Nat) : Field := ⟨8 * (0x80100 + n * 0x10) + 3, 1, 0⟩
def PWR_CT_STAT.RETRY_LOCK (n : Nat) : Field := ⟨8 * (0x80100 + n * 0x10) + 4, 1, 0⟩
def PWR_CT_STAT.PAIR (n : Nat) : Field := ⟨8 * (0x80100 + n * 0x10) + 8, 3, pairOf n⟩
def PWR_CT_STAT.OUT_W (n : Nat) : Field := ⟨8 * (0x80100 + n * 0x10) + 16, 16, 0⟩
def PWR_CT_CTL.SWAP_REQ (n : Nat) : Field := ⟨8 * (0x80104 + n * 0x10) + 0, 1, 0⟩
def PWR_CT_CTL.SWAP_CANCEL (n : Nat) : Field := ⟨8 * (0x80104 + n * 0x10) + 1, 1, 0⟩
def PWR_CT_CTL.RETRY (n : Nat) : Field := ⟨8 * (0x80104 + n * 0x10) + 2, 1, 0⟩
def PWR_CT_ID.SERIAL (n : Nat) : Field := ⟨8 * (0x80108 + n * 0x10) + 0, 48, 0⟩
def PWR_CT_ID.HWREV (n : Nat) : Field := ⟨8 * (0x80108 + n * 0x10) + 48, 8, 0⟩
def PWR_CT_ENERGY.COUNT (n : Nat) : Field := ⟨8 * (0x80300 + n * 0x8) + 0, 48, 0⟩
def PWR_ANTE_CFG.NBR_PCT : Field := ⟨8 * (0x80400) + 0, 8, 90⟩
def PWR_ANTE_CFG.IN_PCT : Field := ⟨8 * (0x80400) + 8, 8, 95⟩
def PWR_ANTE_CFG.TMO : Field := ⟨8 * (0x80400) + 16, 16, 50⟩
def PWR_ANTE_STAT.PEND : Field := ⟨8 * (0x80404) + 0, 16, 0⟩
def PWR_ANTE_STAT.RAMP : Field := ⟨8 * (0x80404) + 16, 6, 0⟩
def PWR_STATE_CFG.FREE_STATE : Field := ⟨8 * (0x80408) + 0, 3, 3⟩
def PWR_STATE_CFG.C6_RELOAD : Field := ⟨8 * (0x80408) + 16, 16, 2000⟩
def THM_COOLANT.INLET : Field := ⟨8 * (0xA0000) + 0, 16, 0⟩
def THM_COOLANT.OUTLET : Field := ⟨8 * (0xA0000) + 16, 16, 0⟩
def THM_COOLANT.FLOW : Field := ⟨8 * (0xA0000) + 32, 16, 0⟩
def THM_COOLANT.VIN : Field := ⟨8 * (0xA0000) + 48, 1, 0⟩
def THM_COOLANT.VOUT : Field := ⟨8 * (0xA0000) + 49, 1, 0⟩
def THM_COOLANT.VFLOW : Field := ⟨8 * (0xA0000) + 50, 1, 0⟩
def THM_COOLANT.FAULT_N_LOW : Field := ⟨8 * (0xA0000) + 51, 1, 0⟩
def THM_FLOW_CFG.OUT_MAX : Field := ⟨8 * (0xA0008) + 0, 8, 55⟩
def THM_FLOW_CFG.STOP_S : Field := ⟨8 * (0xA0008) + 8, 8, 20⟩
def THM_FLOW_CFG.BLIND_W : Field := ⟨8 * (0xA0008) + 16, 16, 8000⟩
def THM_CFG.THR : Field := ⟨8 * (0xA000C) + 0, 8, 95⟩
def THM_CFG.HOLD : Field := ⟨8 * (0xA000C) + 8, 8, 105⟩
def THM_STAT.FLOW_STATE : Field := ⟨8 * (0xA0010) + 0, 2, 0⟩
def THM_STAT.NOFLOWDATA : Field := ⟨8 * (0xA0010) + 2, 1, 0⟩
def THM_STAT.FLOW_W : Field := ⟨8 * (0xA0010) + 16, 16, 16000⟩
def THM_SHUF_CFG.HOT : Field := ⟨8 * (0xA0014) + 0, 8, 85⟩
def THM_SHUF_CFG.DELTA : Field := ⟨8 * (0xA0014) + 8, 8, 6⟩
def THM_CTL.TRIP_CLR : Field := ⟨8 * (0xA0018) + 0, 16, 0⟩
def THM_RGN.TJ (r : Nat) : Field := ⟨8 * (0xA0100 + r * 0x8) + 0, 16, 0⟩
def THM_RGN.FLOOR (r : Nat) : Field := ⟨8 * (0xA0100 + r * 0x8) + 16, 3, 0⟩
def THM_RGN.HELD (r : Nat) : Field := ⟨8 * (0xA0100 + r * 0x8) + 19, 1, 0⟩
def THM_RGN.TRIPPED (r : Nat) : Field := ⟨8 * (0xA0100 + r * 0x8) + 20, 1, 0⟩
def THM_RGN.TRIP_LOCK (r : Nat) : Field := ⟨8 * (0xA0100 + r * 0x8) + 21, 1, 0⟩
def THM_RGN.TRIPS (r : Nat) : Field := ⟨8 * (0xA0100 + r * 0x8) + 24, 8, 0⟩
def THM_UNIT.TEMP (u : Nat) : Field := ⟨8 * (0xA0400 + u * 0x4) + 0, 16, 0⟩
def THM_UNIT.LEVEL (u : Nat) : Field := ⟨8 * (0xA0400 + u * 0x4) + 16, 2, 0⟩
def THM_UNIT.VALID (u : Nat) : Field := ⟨8 * (0xA0400 + u * 0x4) + 18, 1, 0⟩
def CLK_PTIME.TIME : Field := ⟨8 * (0xC0000) + 0, 64, 0⟩
def CLK_PT_CFG.SLEW_PPM : Field := ⟨8 * (0xC0008) + 0, 10, 100⟩
def CLK_PT_CFG.STEP_EN : Field := ⟨8 * (0xC0008) + 16, 1, 1⟩
def CLK_PT_STAT.ROOT : Field := ⟨8 * (0xC000C) + 0, 8, 157⟩
def CLK_PT_STAT.UNLOCKED : Field := ⟨8 * (0xC000C) + 8, 8, 0⟩
def CLK_PT_STAT.STEPPED : Field := ⟨8 * (0xC000C) + 16, 1, 0⟩
def CLK_PT_STAT.SLEWING : Field := ⟨8 * (0xC000C) + 17, 1, 0⟩
def CLK_REF_STAT.A_OK : Field := ⟨8 * (0xC0010) + 0, 1, 0⟩
def CLK_REF_STAT.B_OK : Field := ⟨8 * (0xC0010) + 1, 1, 0⟩
def CLK_REF_STAT.ONB : Field := ⟨8 * (0xC0010) + 16, 8, 0⟩
def CLK_REF_STAT.SWITCHED : Field := ⟨8 * (0xC0010) + 24, 1, 0⟩
def CLK_REF_PERIM.PERIM : Field := ⟨8 * (0xC0018) + 0, 52, 0⟩
def CLK_REF_CD.CD (w : Nat) : Field := ⟨8 * (0xC0020 + w * 0x4) + 0, 32, 0⟩
def RST_CTL.WARM : Field := ⟨8 * (0xE0000) + 0, 16, 0⟩
def RST_CTL.SAVE : Field := ⟨8 * (0xE0000) + 16, 1, 0⟩
def RST_CTL.SAVED : Field := ⟨8 * (0xE0000) + 17, 1, 0⟩
def RST_IDLE_CFG.TMO_US : Field := ⟨8 * (0xE0004) + 0, 14, 100⟩
def RST_BOOT_STAT.STEP : Field := ⟨8 * (0xE0008) + 0, 4, 0⟩
def RST_BOOT_STAT.STATE : Field := ⟨8 * (0xE0008) + 4, 2, 0⟩
def RST_BOOT_STAT.DEGRADED : Field := ⟨8 * (0xE0008) + 6, 1, 0⟩
def RST_BOOT_STAT.ACTIVE_SD : Field := ⟨8 * (0xE0008) + 7, 1, 0⟩
def RST_BOOT_STAT.FAILED : Field := ⟨8 * (0xE0008) + 8, 6, 0⟩
def RST_BOOT_STAT.NOHIST : Field := ⟨8 * (0xE0008) + 14, 1, 0⟩
def RST_WDOG.KICK : Field := ⟨8 * (0xE000C) + 0, 1, 0⟩
def RST_WDOG.TMO : Field := ⟨8 * (0xE000C) + 8, 8, 200⟩
def RST_BOOT_TIME.MS : Field := ⟨8 * (0xE0010) + 0, 32, 0⟩
def RST_LAST_CAUSE.CAUSE (s : Nat) : Field := ⟨8 * (0xE0100 + s * 0x10) + 0, 8, 0⟩
def RST_LAST_CAUSE.FORCED (s : Nat) : Field := ⟨8 * (0xE0100 + s * 0x10) + 8, 1, 0⟩
def RST_LAST_TIME.TIME (s : Nat) : Field := ⟨8 * (0xE0108 + s * 0x10) + 0, 64, 0⟩
def KEY_STAT.STATE : Field := ⟨8 * (0x100000) + 0, 2, 0⟩
def KEY_STAT.APPROVED : Field := ⟨8 * (0x100000) + 2, 1, 0⟩
def KEY_STAT.OWNED : Field := ⟨8 * (0x100000) + 3, 1, 0⟩
def KEY_STAT.COSIGN : Field := ⟨8 * (0x100000) + 4, 1, 0⟩
def KEY_STAT.SD : Field := ⟨8 * (0x100000) + 5, 1, 0⟩
def KEY_CFG.APPROVED_ONLY : Field := ⟨8 * (0x100004) + 0, 1, 0⟩
def KEY_OTP.SW_IDX : Field := ⟨8 * (0x100008) + 0, 7, 0⟩
def KEY_OTP.DM_IDX : Field := ⟨8 * (0x100008) + 8, 7, 0⟩
def KEY_OWNER_KEY.KEY (i w : Nat) : Field := ⟨8 * (0x100040 + i * 0x40 + w * 0x4) + 0, 32, 0⟩
def KEY_OWNER.VALID (i : Nat) : Field := ⟨8 * (0x100060 + i * 0x40) + 0, 1, 0⟩
def KEY_OWNER.REVOKED (i : Nat) : Field := ⟨8 * (0x100060 + i * 0x40) + 1, 1, 0⟩
def KEY_MEAS.DIGEST (m w : Nat) : Field := ⟨8 * (0x100200 + m * 0x40 + w * 0x4) + 0, 32, 0⟩
def KEY_FW_STAGE0.STATE (s : Nat) : Field := ⟨8 * (0x100400 + s * 0x20) + 0, 2, 0⟩
def KEY_FW_STAGE1.BYTES (s : Nat) : Field := ⟨8 * (0x100404 + s * 0x20) + 0, 25, 0⟩
def KEY_FW_STAGE2.FWVER (s : Nat) : Field := ⟨8 * (0x100408 + s * 0x20) + 0, 32, 0⟩
def KEY_FW_STAGE3.SVN (s : Nat) : Field := ⟨8 * (0x10040C + s * 0x20) + 0, 7, 0⟩
def KEY_MBOX_CTL.GO (q : Nat) : Field := ⟨8 * (0x101000 + q * 0x400) + 0, 1, 0⟩
def KEY_MBOX_CTL.BUSY (q : Nat) : Field := ⟨8 * (0x101000 + q * 0x400) + 1, 1, 0⟩
def KEY_MBOX_CTL.STATUS (q : Nat) : Field := ⟨8 * (0x101000 + q * 0x400) + 4, 3, 0⟩
def KEY_MBOX_CTL.APPROVED (q : Nat) : Field := ⟨8 * (0x101000 + q * 0x400) + 7, 1, 0⟩
def KEY_MBOX_CTL.ROLE (q : Nat) : Field := ⟨8 * (0x101000 + q * 0x400) + 8, 2, 0⟩
def KEY_MBOX_REQ.DATA (q w : Nat) : Field := ⟨8 * (0x101100 + q * 0x400 + w * 0x4) + 0, 32, 0⟩
def KEY_MBOX_RSP.DATA (q w : Nat) : Field := ⟨8 * (0x101200 + q * 0x400 + w * 0x4) + 0, 32, 0⟩
def CKU_CFG.WIDTH (u : Nat) : Field := ⟨8 * (0x120000 + u * 0x100) + 0, 7, 32⟩
def CKU_CFG.REFIN (u : Nat) : Field := ⟨8 * (0x120000 + u * 0x100) + 8, 1, 1⟩
def CKU_CFG.REFOUT (u : Nat) : Field := ⟨8 * (0x120000 + u * 0x100) + 9, 1, 1⟩
def CKU_CFG.ALIVE8 (u : Nat) : Field := ⟨8 * (0x120000 + u * 0x100) + 12, 1, 1⟩
def CKU_CTL.START (u : Nat) : Field := ⟨8 * (0x120004 + u * 0x100) + 0, 1, 0⟩
def CKU_CTL.LAST_N (u : Nat) : Field := ⟨8 * (0x120004 + u * 0x100) + 1, 3, 0⟩
def CKU_POLY.VALUE (u : Nat) : Field := ⟨8 * (0x120008 + u * 0x100) + 0, 64, 0x1EDC6F41⟩
def CKU_INIT.VALUE (u : Nat) : Field := ⟨8 * (0x120010 + u * 0x100) + 0, 64, 0xFFFFFFFF⟩
def CKU_XOROUT.VALUE (u : Nat) : Field := ⟨8 * (0x120018 + u * 0x100) + 0, 64, 0xFFFFFFFF⟩
def CKU_RUN.RUN (u : Nat) : Field := ⟨8 * (0x120020 + u * 0x100) + 0, 64, 0⟩
def CKU_DATA.DATA (u : Nat) : Field := ⟨8 * (0x120028 + u * 0x100) + 0, 64, 0⟩
def CKU_RESULT.RESULT (u : Nat) : Field := ⟨8 * (0x120030 + u * 0x100) + 0, 64, 0⟩
def CKU_STAT.BUSY (u : Nat) : Field := ⟨8 * (0x120038 + u * 0x100) + 0, 1, 0⟩
def CKU_STAT.BAD_SAT (u : Nat) : Field := ⟨8 * (0x120038 + u * 0x100) + 1, 1, 0⟩
def CKU_STAT.REP_SAT (u : Nat) : Field := ⟨8 * (0x120038 + u * 0x100) + 2, 1, 0⟩
def CKU_STAT.SKIP_SAT (u : Nat) : Field := ⟨8 * (0x120038 + u * 0x100) + 3, 1, 0⟩
def CKU_STAT.CLR (u : Nat) : Field := ⟨8 * (0x120038 + u * 0x100) + 4, 1, 0⟩
def CKU_BAD.COUNT (u : Nat) : Field := ⟨8 * (0x120040 + u * 0x100) + 0, 32, 0⟩
def CKU_REPEAT.COUNT (u : Nat) : Field := ⟨8 * (0x120044 + u * 0x100) + 0, 32, 0⟩
def CKU_SKIP.COUNT (u : Nat) : Field := ⟨8 * (0x120048 + u * 0x100) + 0, 32, 0⟩
def CKU_ALIVE.LAST (u k : Nat) : Field := ⟨8 * (0x120080 + u * 0x100 + k * 0x4) + 0, 8, 0⟩
def CKU_ALIVE.VALID (u k : Nat) : Field := ⟨8 * (0x120080 + u * 0x100 + k * 0x4) + 8, 1, 0⟩
def TEL_IMG.BASE : Field := ⟨8 * (0x140000) + 0, 48, 0⟩
def TEL_IMG.EN : Field := ⟨8 * (0x140000) + 63, 1, 0⟩
def TEL_TRICK_STAT.BUSY : Field := ⟨8 * (0x140008) + 0, 1, 0⟩
def TEL_TRICK_STAT.VALID : Field := ⟨8 * (0x140008) + 1, 1, 0⟩
def TEL_TRICK_STAT.IMG_ERR : Field := ⟨8 * (0x140008) + 2, 1, 0⟩
def TEL_TRICK_STAT.ABSENT : Field := ⟨8 * (0x140008) + 16, 16, 0⟩
def TEL_TRICK_NUM.N : Field := ⟨8 * (0x14000C) + 0, 32, 0⟩
def TEL_TRICK_T.T : Field := ⟨8 * (0x140010) + 0, 64, 0⟩
def TEL_TRICK_NEXT.T : Field := ⟨8 * (0x140018) + 0, 64, 0⟩
def TEL_LOG_STAT.DEV0_OK : Field := ⟨8 * (0x140020) + 0, 1, 0⟩
def TEL_LOG_STAT.DEV1_OK : Field := ⟨8 * (0x140020) + 1, 1, 0⟩
def TEL_LOG_STAT.MIRROR_OK : Field := ⟨8 * (0x140020) + 2, 1, 0⟩
def TEL_LOG_STAT.FILL : Field := ⟨8 * (0x140020) + 8, 8, 0⟩
def TEL_LOG_SEQ.SEQ : Field := ⟨8 * (0x140028) + 0, 64, 0⟩
def MH_HUB_STAT.INSERVICE (k : Nat) : Field := ⟨8 * (0x200000 + k * 0x10000) + 0, 1, 0⟩
def MH_HUB_STAT.STG_BUSY (k : Nat) : Field := ⟨8 * (0x200000 + k * 0x10000) + 1, 1, 0⟩
def MH_CE_CNT.COUNT (k i : Nat) : Field := ⟨8 * (0x200010 + k * 0x10000 + i * 0x4) + 0, 32, 0⟩
def MH_ERR_STAT.CE_SAT0 (k : Nat) : Field := ⟨8 * (0x200020 + k * 0x10000) + 0, 1, 0⟩
def MH_ERR_STAT.CE_SAT1 (k : Nat) : Field := ⟨8 * (0x200020 + k * 0x10000) + 1, 1, 0⟩
def MH_ERR_STAT.CE_CLR (k : Nat) : Field := ⟨8 * (0x200020 + k * 0x10000) + 2, 1, 0⟩
def MH_ERR_STAT.UE (k : Nat) : Field := ⟨8 * (0x200020 + k * 0x10000) + 3, 1, 0⟩
def MH_ERR_STAT.UE_STACK (k : Nat) : Field := ⟨8 * (0x200020 + k * 0x10000) + 4, 1, 0⟩
def MH_ERR_STAT.UE_FIXED (k : Nat) : Field := ⟨8 * (0x200020 + k * 0x10000) + 5, 1, 0⟩
def MH_UE_ADDR.ADDR (k i : Nat) : Field := ⟨8 * (0x200028 + k * 0x10000 + i * 0x8) + 0, 48, 0⟩
def MH_PPR_CTL.CE_THR (k : Nat) : Field := ⟨8 * (0x200040 + k * 0x10000) + 0, 8, 8⟩
def MH_PPR_CTL.EN (k : Nat) : Field := ⟨8 * (0x200040 + k * 0x10000) + 8, 1, 1⟩
def MH_PPR_STAT.DONE (k : Nat) : Field := ⟨8 * (0x200044 + k * 0x10000) + 0, 16, 0⟩
def MH_PPR_STAT.BUSY (k : Nat) : Field := ⟨8 * (0x200044 + k * 0x10000) + 16, 1, 0⟩
def MH_PPR_STAT.NOSPARE (k : Nat) : Field := ⟨8 * (0x200044 + k * 0x10000) + 17, 1, 0⟩
def MH_MELD_CNT.COUNT (k : Nat) : Field := ⟨8 * (0x200050 + k * 0x10000) + 0, 32, 0⟩
def MH_STG_FULL.COUNT (k : Nat) : Field := ⟨8 * (0x200054 + k * 0x10000) + 0, 32, 0⟩
def MH_PERF_RD.COUNT (k i : Nat) : Field := ⟨8 * (0x200100 + k * 0x10000 + i * 0x10) + 0, 48, 0⟩
def MH_PERF_WR.COUNT (k i : Nat) : Field := ⟨8 * (0x200108 + k * 0x10000 + i * 0x10) + 0, 48, 0⟩
def MH_PERF_WRAP.WRAP (k : Nat) : Field := ⟨8 * (0x200120 + k * 0x10000) + 0, 4, 0⟩
def MH_STORE_CFG.PARITY : Field := ⟨8 * (0x380000) + 0, 1, 0⟩
def MH_STORE_CFG.INIT : Field := ⟨8 * (0x380000) + 1, 1, 0⟩
def MH_STORE_CFG.READY : Field := ⟨8 * (0x380000) + 2, 1, 0⟩
def MH_STORE_CFG.PMODE : Field := ⟨8 * (0x380000) + 3, 1, 0⟩
def MH_STORE_CFG.MODE_ERR : Field := ⟨8 * (0x380000) + 4, 1, 0⟩
def MH_FW_AREA.BASE : Field := ⟨8 * (0x380008) + 0, 48, 0x023FC0000000⟩
def MH_SEG_MAP.ASSIGNED (j : Nat) : Field := ⟨8 * (0x380100 + j * 0x4) + 0, 1, 0⟩
def MH_SEG_MAP.SHARED (j : Nat) : Field := ⟨8 * (0x380100 + j * 0x4) + 1, 1, 0⟩
def MH_SEG_MAP.MODE (j : Nat) : Field := ⟨8 * (0x380100 + j * 0x4) + 2, 1, 0⟩
def MH_SEG_MAP.OWNER (j : Nat) : Field := ⟨8 * (0x380100 + j * 0x4) + 4, 4, 0⟩
def MH_STACK_STATE.STATE (s : Nat) : Field := ⟨8 * (0x380200 + s * 0x4) + 0, 2, 0b11⟩
def MH_STACK_STATE.NOSPARE (s : Nat) : Field := ⟨8 * (0x380200 + s * 0x4) + 2, 1, 0⟩
def MH_PGRP_STATE.STATE (g : Nat) : Field := ⟨8 * (0x380300 + g * 0x8) + 0, 3, 0⟩
def MH_PGRP_STATE.LOST_STACK (g : Nat) : Field := ⟨8 * (0x380300 + g * 0x8) + 4, 6, 0⟩
def MH_PGRP_PROG.STRIPE (g : Nat) : Field := ⟨8 * (0x380304 + g * 0x8) + 0, 24, 0⟩
def MH_RECON_CTL.RATE : Field := ⟨8 * (0x380320) + 0, 4, 4⟩
def MH_RECON_CTL.AUTO : Field := ⟨8 * (0x380320) + 4, 1, 1⟩
def MH_RECON_CTL.START : Field := ⟨8 * (0x380320) + 5, 1, 0⟩
def MH_RXA_HDR.BASE (n : Nat) : Field := ⟨8 * (0x381000 + n * 0x20) + 0, 48, 0⟩
def MH_RXA_DATA.BASE (n : Nat) : Field := ⟨8 * (0x381008 + n * 0x20) + 0, 48, 0⟩
def MH_RXA_CTL.EN (n : Nat) : Field := ⟨8 * (0x381010 + n * 0x20) + 0, 1, 0⟩
def MH_RXA_CTL.NOTIFY (n : Nat) : Field := ⟨8 * (0x381010 + n * 0x20) + 1, 1, 0⟩
def MH_RXA_CTL.LOG2N (n : Nat) : Field := ⟨8 * (0x381010 + n * 0x20) + 4, 5, 8⟩
def MH_RXA_CTL.FUNC (n : Nat) : Field := ⟨8 * (0x381010 + n * 0x20) + 12, 4, 0⟩
def MH_RXA_WR.WR_IDX (n : Nat) : Field := ⟨8 * (0x381014 + n * 0x20) + 0, 32, 0⟩
def MH_RXA_RD.RD_IDX (n : Nat) : Field := ⟨8 * (0x381018 + n * 0x20) + 0, 32, 0⟩
def MH_RXA_STAT.FULL (n : Nat) : Field := ⟨8 * (0x38101C + n * 0x20) + 0, 1, 0⟩
def MH_RXA_STAT.CFG_ERR (n : Nat) : Field := ⟨8 * (0x38101C + n * 0x20) + 1, 1, 0⟩
def MH_RXA_STAT.FULLCNT (n : Nat) : Field := ⟨8 * (0x38101C + n * 0x20) + 16, 16, 0⟩
def OE_STAT.INSERVICE (k : Nat) : Field := ⟨8 * (0x400000 + k * 0x10000) + 0, 1, 0⟩
def OE_STAT.DARK (k : Nat) : Field := ⟨8 * (0x400000 + k * 0x10000) + 1, 1, 1⟩
def OE_STAT.CAUSE (k : Nat) : Field := ⟨8 * (0x400000 + k * 0x10000) + 4, 4, 0⟩
def OE_PORT_STAT.STATE (k p : Nat) : Field := ⟨8 * (0x400010 + k * 0x10000 + p * 0x4) + 0, 2, 0⟩
def OE_PORT_STAT.WIDTH (k p : Nat) : Field := ⟨8 * (0x400010 + k * 0x10000 + p * 0x4) + 2, 2, 3⟩
def OE_PORT_STAT.BAD (k p : Nat) : Field := ⟨8 * (0x400010 + k * 0x10000 + p * 0x4) + 8, 16, 0⟩
def OE_PORT_CTL.EN (k p : Nat) : Field := ⟨8 * (0x400020 + k * 0x10000 + p * 0x4) + 0, 1, 1⟩
def OE_PORT_CTL.RETRAIN (k p : Nat) : Field := ⟨8 * (0x400020 + k * 0x10000 + p * 0x4) + 1, 1, 0⟩
def OE_PORT_CTL.MINW (k p : Nat) : Field := ⟨8 * (0x400020 + k * 0x10000 + p * 0x4) + 2, 2, 2⟩
def OE_LANE_STAT.HSTATE (k l : Nat) : Field := ⟨8 * (0x400100 + k * 0x10000 + l * 0x10) + 0, 3, 0⟩
def OE_LANE_STAT.CROSS (k l : Nat) : Field := ⟨8 * (0x400100 + k * 0x10000 + l * 0x10) + 3, 2, 0⟩
def OE_LANE_STAT.LOCK (k l : Nat) : Field := ⟨8 * (0x400100 + k * 0x10000 + l * 0x10) + 5, 1, 0⟩
def OE_LANE_STAT.LOGICAL (k l : Nat) : Field := ⟨8 * (0x400100 + k * 0x10000 + l * 0x10) + 8, 8, 0xFF⟩
def OE_LANE_SER.COUNT (k l : Nat) : Field := ⟨8 * (0x400104 + k * 0x10000 + l * 0x10) + 0, 32, 0⟩
def OE_LANE_CTL.RETEST (k l : Nat) : Field := ⟨8 * (0x400108 + k * 0x10000 + l * 0x10) + 0, 1, 0⟩
def OE_LANE_LOCK.COUNT (k l : Nat) : Field := ⟨8 * (0x40010C + k * 0x10000 + l * 0x10) + 0, 16, 0⟩
def OE_FTX.POWER (k j : Nat) : Field := ⟨8 * (0x400400 + k * 0x10000 + j * 0x10) + 0, 16, 0⟩
def OE_FRX.POWER (k j : Nat) : Field := ⟨8 * (0x400404 + k * 0x10000 + j * 0x10) + 0, 16, 0⟩
def OE_FLOSS.LOSS (k j : Nat) : Field := ⟨8 * (0x400408 + k * 0x10000 + j * 0x10) + 0, 16, 0⟩
def OE_FLOSS.BASE (k j : Nat) : Field := ⟨8 * (0x400408 + k * 0x10000 + j * 0x10) + 16, 16, 0⟩
def OE_FSTAT.LEVEL (k j : Nat) : Field := ⟨8 * (0x40040C + k * 0x10000 + j * 0x10) + 0, 2, 0⟩
def OE_FSTAT.NOFAR (k j : Nat) : Field := ⟨8 * (0x40040C + k * 0x10000 + j * 0x10) + 2, 1, 1⟩
def OE_FEED.POWER (k f : Nat) : Field := ⟨8 * (0x400500 + k * 0x10000 + f * 0x4) + 0, 16, 0⟩
def OE_FEED.LOSS (k f : Nat) : Field := ⟨8 * (0x400500 + k * 0x10000 + f * 0x4) + 16, 8, 0⟩
def OE_FEED.LEVEL (k f : Nat) : Field := ⟨8 * (0x400500 + k * 0x10000 + f * 0x4) + 24, 2, 0⟩
def OE_LH_CFG.THR (k : Nat) : Field := ⟨8 * (0x400600 + k * 0x10000) + 0, 24, 0x1E8480⟩
def OE_PWR_CFG.WARN_DB (k : Nat) : Field := ⟨8 * (0x400604 + k * 0x10000) + 0, 8, 20⟩
def OE_PWR_CFG.LOW_DB (k : Nat) : Field := ⟨8 * (0x400604 + k * 0x10000) + 8, 8, 35⟩
def OE_BASELINE.FIBRE (k : Nat) : Field := ⟨8 * (0x400608 + k * 0x10000) + 0, 1, 0⟩
def OE_BASELINE.FEED (k : Nat) : Field := ⟨8 * (0x400608 + k * 0x10000) + 1, 1, 0⟩
def OE_PERF_TX.COUNT (k p : Nat) : Field := ⟨8 * (0x400800 + k * 0x10000 + p * 0x10) + 0, 48, 0⟩
def OE_PERF_RX.COUNT (k p : Nat) : Field := ⟨8 * (0x400808 + k * 0x10000 + p * 0x10) + 0, 48, 0⟩
def OE_PERF_WRAP.PORT_WRAP (k : Nat) : Field := ⟨8 * (0x400B00 + k * 0x10000) + 0, 6, 0⟩
def OE_PERF_WRAP.LANE_WRAP (k : Nat) : Field := ⟨8 * (0x400B00 + k * 0x10000) + 16, 48, 0⟩
def OE_LANE_CSYM.COUNT (k l : Nat) : Field := ⟨8 * (0x400C00 + k * 0x10000 + l * 0x8) + 0, 48, 0⟩
def JX_PORT_STAT.LSTATE (k p : Nat) : Field := ⟨8 * (0x404000 + k * 0x10000 + p * 0x40) + 0, 2, 0⟩
def JX_PORT_STAT.SSTATE (k p : Nat) : Field := ⟨8 * (0x404000 + k * 0x10000 + p * 0x40) + 2, 2, 0⟩
def JX_PORT_STAT.ASEQ (k p : Nat) : Field := ⟨8 * (0x404000 + k * 0x10000 + p * 0x40) + 4, 12, 0⟩
def JX_PORT_FAR.PANEL (k p : Nat) : Field := ⟨8 * (0x404004 + k * 0x10000 + p * 0x40) + 0, 16, 0⟩
def JX_PORT_FAR.PORT (k p : Nat) : Field := ⟨8 * (0x404004 + k * 0x10000 + p * 0x40) + 16, 7, 0x7F⟩
def JX_PORT_FAR.FARVALID (k p : Nat) : Field := ⟨8 * (0x404004 + k * 0x10000 + p * 0x40) + 23, 1, 0⟩
def JX_PORT_RPL.COUNT (k p : Nat) : Field := ⟨8 * (0x404008 + k * 0x10000 + p * 0x40) + 0, 32, 0⟩
def JX_PORT_ERR.HDR (k p : Nat) : Field := ⟨8 * (0x40400C + k * 0x10000 + p * 0x40) + 0, 16, 0⟩
def JX_PORT_ERR.AUTHFAIL (k p : Nat) : Field := ⟨8 * (0x40400C + k * 0x10000 + p * 0x40) + 16, 16, 0⟩
def JX_SEAL_CTL.REQ (k p : Nat) : Field := ⟨8 * (0x404010 + k * 0x10000 + p * 0x40) + 0, 1, 0⟩
def JX_SEAL_CTL.REKEY (k p : Nat) : Field := ⟨8 * (0x404010 + k * 0x10000 + p * 0x40) + 1, 1, 0⟩
def JX_RT.P0 (d : Nat) : Field := ⟨8 * (0x580000 + d * 0x4) + 0, 7, 0x7F⟩
def JX_RT.DL0 (d : Nat) : Field := ⟨8 * (0x580000 + d * 0x4) + 7, 1, 0⟩
def JX_RT.P1 (d : Nat) : Field := ⟨8 * (0x580000 + d * 0x4) + 8, 7, 0x7F⟩
def JX_RT.DL1 (d : Nat) : Field := ⟨8 * (0x580000 + d * 0x4) + 15, 1, 0⟩
def JX_RT.P2 (d : Nat) : Field := ⟨8 * (0x580000 + d * 0x4) + 16, 7, 0x7F⟩
def JX_RT.DL2 (d : Nat) : Field := ⟨8 * (0x580000 + d * 0x4) + 23, 1, 0⟩
def JX_RT.P3 (d : Nat) : Field := ⟨8 * (0x580000 + d * 0x4) + 24, 7, 0x7F⟩
def JX_RT.DL3 (d : Nat) : Field := ⟨8 * (0x580000 + d * 0x4) + 31, 1, 0⟩
def OE_ELS_STAT.PRESENT (k : Nat) : Field := ⟨8 * (0x5C0000 + k * 0x100) + 0, 1, 0⟩
def OE_ELS_STAT.VERIFIED (k : Nat) : Field := ⟨8 * (0x5C0000 + k * 0x100) + 1, 1, 0⟩
def OE_ELS_STAT.STATE (k : Nat) : Field := ⟨8 * (0x5C0000 + k * 0x100) + 2, 2, 0⟩
def OE_ELS_STAT.REPLACE (k : Nat) : Field := ⟨8 * (0x5C0000 + k * 0x100) + 4, 1, 0⟩
def OE_ELS_STAT.SPARED (k : Nat) : Field := ⟨8 * (0x5C0000 + k * 0x100) + 8, 8, 0⟩
def OE_ELS_STAT.FAILED (k : Nat) : Field := ⟨8 * (0x5C0000 + k * 0x100) + 16, 8, 0⟩
def OE_ELS_CTL.SWAP_REQ (k : Nat) : Field := ⟨8 * (0x5C0004 + k * 0x100) + 0, 1, 0⟩
def OE_ELS_CTL.SWAP_CANCEL (k : Nat) : Field := ⟨8 * (0x5C0004 + k * 0x100) + 1, 1, 0⟩
def OE_ELS_ID.SERIAL (k : Nat) : Field := ⟨8 * (0x5C0008 + k * 0x100) + 0, 48, 0⟩
def OE_ELS_ID.HWREV (k : Nat) : Field := ⟨8 * (0x5C0008 + k * 0x100) + 48, 8, 0⟩
def OE_ELS_BIAS.BIAS (k w : Nat) : Field := ⟨8 * (0x5C0010 + k * 0x100 + w * 0x8) + 0, 16, 0⟩
def OE_ELS_BIAS.BASE (k w : Nat) : Field := ⟨8 * (0x5C0010 + k * 0x100 + w * 0x8) + 16, 16, 0⟩
def OE_ELS_BIAS.ON_SPARE (k w : Nat) : Field := ⟨8 * (0x5C0010 + k * 0x100 + w * 0x8) + 32, 1, 0⟩
def OE_ELS_BIAS.SPARE_FAIL (k w : Nat) : Field := ⟨8 * (0x5C0010 + k * 0x100 + w * 0x8) + 33, 1, 0⟩
def OE_ELS_CFG.WARN_PCT (k : Nat) : Field := ⟨8 * (0x5C0050 + k * 0x100) + 0, 8, 30⟩
def OE_ELS_CFG.EOL_PCT (k : Nat) : Field := ⟨8 * (0x5C0050 + k * 0x100) + 8, 8, 50⟩
def JX_SELF.ID : Field := ⟨8 * (0x5E0000) + 0, 16, 0⟩
def JX_SELF.ASSIGNED : Field := ⟨8 * (0x5E0000) + 16, 1, 0⟩
def JX_SELF.SHADOWED : Field := ⟨8 * (0x5E0000) + 17, 1, 0⟩
def JX_CFG.TMO : Field := ⟨8 * (0x5E0004) + 0, 10, 10⟩
def JX_CFG.HOPS : Field := ⟨8 * (0x5E0004) + 16, 6, 63⟩
def JX_CFG.DISC_EN : Field := ⟨8 * (0x5E0004) + 24, 1, 1⟩
def JX_TIME_CFG.ROOT : Field := ⟨8 * (0x5E0008) + 0, 16, 0⟩
def JX_TIME_CFG.EN : Field := ⟨8 * (0x5E0008) + 16, 1, 1⟩
def JX_TIME_STAT.HOPS : Field := ⟨8 * (0x5E000C) + 0, 6, 63⟩
def JX_TIME_STAT.LOCKED : Field := ⟨8 * (0x5E000C) + 8, 1, 0⟩
def JX_TIME_STAT.PARENT : Field := ⟨8 * (0x5E000C) + 16, 7, 0x7F⟩
def JX_TIME_OFS.OFS : Field := ⟨8 * (0x5E0010) + 0, 32, 0⟩
def JX_DROP.HOPS0 : Field := ⟨8 * (0x5E0014) + 0, 16, 0⟩
def JX_DROP.NOROUTE : Field := ⟨8 * (0x5E0014) + 16, 16, 0⟩
def JX_ALIAS.ID (i : Nat) : Field := ⟨8 * (0x5E0020 + i * 0x4) + 0, 16, 0⟩
def JX_ALIAS.EN (i : Nat) : Field := ⟨8 * (0x5E0020 + i * 0x4) + 16, 1, 0⟩
def JX_PORT_OWN.PF (n : Nat) : Field := ⟨8 * (0x5E0040 + n * 0x4) + 0, 1, if n < 36 then 0 else 1⟩
def JX_RACC0.PLO (i : Nat) : Field := ⟨8 * (0x5E0200 + i * 0x10) + 0, 16, 0⟩
def JX_RACC0.PHI (i : Nat) : Field := ⟨8 * (0x5E0200 + i * 0x10) + 16, 16, 0⟩
def JX_RACC1.RD (i : Nat) : Field := ⟨8 * (0x5E0204 + i * 0x10) + 0, 1, 0⟩
def JX_RACC1.WR (i : Nat) : Field := ⟨8 * (0x5E0204 + i * 0x10) + 1, 1, 0⟩
def JX_RACC1.RED (i : Nat) : Field := ⟨8 * (0x5E0204 + i * 0x10) + 2, 1, 0⟩
def JX_RACC1.WIN (i : Nat) : Field := ⟨8 * (0x5E0204 + i * 0x10) + 3, 1, 0⟩
def JX_RACC1.SEALED_ONLY (i : Nat) : Field := ⟨8 * (0x5E0204 + i * 0x10) + 4, 1, 0⟩
def JX_RACC1.EN (i : Nat) : Field := ⟨8 * (0x5E0204 + i * 0x10) + 5, 1, 0⟩
def JX_RACC1.PARTS (i : Nat) : Field := ⟨8 * (0x5E0204 + i * 0x10) + 16, 16, 0⟩
def JX_RACC2.SEGMASK (i : Nat) : Field := ⟨8 * (0x5E0208 + i * 0x10) + 0, 48, 0⟩
def RGN_PWR_STAT.STATE (r : Nat) : Field := ⟨8 * (0x800000 + r * 0x40000) + 0, 3, 4⟩
def RGN_PWR_STAT.CLAMPED (r : Nat) : Field := ⟨8 * (0x800000 + r * 0x40000) + 3, 1, 0⟩
def RGN_PWR_STAT.MANAGER (r : Nat) : Field := ⟨8 * (0x800000 + r * 0x40000) + 4, 4, 0⟩
def RGN_PWR_STAT.USED_W (r : Nat) : Field := ⟨8 * (0x800000 + r * 0x40000) + 16, 16, 0⟩
def RGN_PWR_BUD.BUDGET (r : Nat) : Field := ⟨8 * (0x800004 + r * 0x40000) + 0, 16, 0⟩
def RGN_PWR_BUD.DEMAND (r : Nat) : Field := ⟨8 * (0x800004 + r * 0x40000) + 16, 16, 0⟩
def RGN_PWR_HARD.HARD (r : Nat) : Field := ⟨8 * (0x800008 + r * 0x40000) + 0, 16, 0⟩
def RGN_DIE_PWR.SHED (r i : Nat) : Field := ⟨8 * (0x800010 + r * 0x40000 + i * 0x4) + 0, 16, 0⟩
def RGN_DIE_PWR.LIMIT (r i : Nat) : Field := ⟨8 * (0x800010 + r * 0x40000 + i * 0x4) + 16, 8, 80⟩
def CD_PERF.COUNT (d n i : Nat) : Field := ⟨8 * (0x1000000 + d * 0x10000 + n * 0x80 + i * 0x8) + 0, 48, 0⟩
def CD_PERF_WRAP.WRAP (d n : Nat) : Field := ⟨8 * (0x1000068 + d * 0x10000 + n * 0x80) + 0, 13, 0⟩
def CD_HLTH_STRERR.COUNT (d n : Nat) : Field := ⟨8 * (0x100006C + d * 0x10000 + n * 0x80) + 0, 32, 0⟩
def CD_HLTH_MXCE.COUNT (d n : Nat) : Field := ⟨8 * (0x1000070 + d * 0x10000 + n * 0x80) + 0, 32, 0⟩
def CD_HLTH_STAT.STRERR_SAT (d n : Nat) : Field := ⟨8 * (0x1000074 + d * 0x10000 + n * 0x80) + 0, 1, 0⟩
def CD_HLTH_STAT.MXCE_SAT (d n : Nat) : Field := ⟨8 * (0x1000074 + d * 0x10000 + n * 0x80) + 1, 1, 0⟩
def CD_HLTH_STAT.CLR (d n : Nat) : Field := ⟨8 * (0x1000074 + d * 0x10000 + n * 0x80) + 2, 1, 0⟩
def CD_CORE_STATE.T0_STATE (d n : Nat) : Field := ⟨8 * (0x1008000 + d * 0x10000 + n * 0x10) + 0, 3, 0⟩
def CD_CORE_STATE.T1_STATE (d n : Nat) : Field := ⟨8 * (0x1008000 + d * 0x10000 + n * 0x10) + 3, 3, 0⟩
def CD_CORE_STATE.T2_STATE (d n : Nat) : Field := ⟨8 * (0x1008000 + d * 0x10000 + n * 0x10) + 6, 3, 0⟩
def CD_CORE_STATE.T3_STATE (d n : Nat) : Field := ⟨8 * (0x1008000 + d * 0x10000 + n * 0x10) + 9, 3, 0⟩
def CD_CORE_STATE.FENCED (d n : Nat) : Field := ⟨8 * (0x1008000 + d * 0x10000 + n * 0x10) + 12, 1, 0⟩
def CD_CORE_STATE.DONE (d n : Nat) : Field := ⟨8 * (0x1008000 + d * 0x10000 + n * 0x10) + 13, 1, 0⟩
def CD_CORE_STATE.BAR_PEND (d n : Nat) : Field := ⟨8 * (0x1008000 + d * 0x10000 + n * 0x10) + 16, 8, 0⟩
def CD_CORE_TRAP.CAUSE (d n : Nat) : Field := ⟨8 * (0x1008004 + d * 0x10000 + n * 0x10) + 0, 4, 0⟩
def CD_CORE_TRAP.TASK (d n : Nat) : Field := ⟨8 * (0x1008004 + d * 0x10000 + n * 0x10) + 4, 2, 0⟩
def CD_CORE_TRAP.MULTI (d n : Nat) : Field := ⟨8 * (0x1008004 + d * 0x10000 + n * 0x10) + 6, 1, 0⟩
def CD_CORE_TRAP.VALID (d n : Nat) : Field := ⟨8 * (0x1008004 + d * 0x10000 + n * 0x10) + 7, 1, 0⟩
def CD_CORE_TRAP.DETAIL (d n : Nat) : Field := ⟨8 * (0x1008004 + d * 0x10000 + n * 0x10) + 8, 8, 0⟩
def CD_CORE_TRAP.CODE (d n : Nat) : Field := ⟨8 * (0x1008004 + d * 0x10000 + n * 0x10) + 16, 16, 0⟩
def CD_CORE_TRAPPC.PC (d n : Nat) : Field := ⟨8 * (0x1008008 + d * 0x10000 + n * 0x10) + 0, 18, 0⟩
def CD_CORE_TRAPADDR.ADDR (d n : Nat) : Field := ⟨8 * (0x100800C + d * 0x10000 + n * 0x10) + 0, 18, 0⟩
def CD_CLK_STAT.REFSEL (d : Nat) : Field := ⟨8 * (0x1009000 + d * 0x10000) + 0, 1, 0⟩
def CD_CLK_STAT.A_OK (d : Nat) : Field := ⟨8 * (0x1009000 + d * 0x10000) + 1, 1, 0⟩
def CD_CLK_STAT.B_OK (d : Nat) : Field := ⟨8 * (0x1009000 + d * 0x10000) + 2, 1, 0⟩
def CD_CLK_STAT.PLL_LOCK (d : Nat) : Field := ⟨8 * (0x1009000 + d * 0x10000) + 3, 1, 0⟩
def CD_CLK_STAT.PT_LOCK (d : Nat) : Field := ⟨8 * (0x1009000 + d * 0x10000) + 4, 1, 0⟩
def CD_CLK_STAT.HOLDOVER (d : Nat) : Field := ⟨8 * (0x1009000 + d * 0x10000) + 5, 1, 0⟩
def CD_CLK_STAT.SWITCHES (d : Nat) : Field := ⟨8 * (0x1009000 + d * 0x10000) + 16, 16, 0⟩
def CD_CLK_CFG.DROOP1 (d : Nat) : Field := ⟨8 * (0x1009004 + d * 0x10000) + 0, 8, 20⟩
def CD_CLK_CFG.DROOP_STEP (d : Nat) : Field := ⟨8 * (0x1009004 + d * 0x10000) + 8, 8, 10⟩
def CD_CLK_CFG.RPL_WARN (d : Nat) : Field := ⟨8 * (0x1009004 + d * 0x10000) + 16, 6, 6⟩
def CD_CLK_PTOFS.OFS (d : Nat) : Field := ⟨8 * (0x1009008 + d * 0x10000) + 0, 32, 0⟩
def CD_CLK_CL.LEVEL (d c : Nat) : Field := ⟨8 * (0x1009100 + d * 0x10000 + c * 0x10) + 0, 3, 0⟩
def CD_CLK_CL.PFLOOR (d c : Nat) : Field := ⟨8 * (0x1009100 + d * 0x10000 + c * 0x10) + 4, 3, 0⟩
def CD_CLK_CL.RFLOOR (d c : Nat) : Field := ⟨8 * (0x1009100 + d * 0x10000 + c * 0x10) + 8, 3, 0⟩
def CD_CLK_STR.COUNT (d c : Nat) : Field := ⟨8 * (0x1009108 + d * 0x10000 + c * 0x10) + 0, 48, 0⟩
def CD_CLK_RPL.SLACK (d n : Nat) : Field := ⟨8 * (0x1009400 + d * 0x10000 + n * 0x4) + 0, 6, 0x3F⟩
def CD_CLK_RPL.MIN (d n : Nat) : Field := ⟨8 * (0x1009400 + d * 0x10000 + n * 0x4) + 8, 6, 0x3F⟩
def CD_CLK_RPL.WARN (d n : Nat) : Field := ⟨8 * (0x1009400 + d * 0x10000 + n * 0x4) + 16, 1, 0⟩
def CD_CLK_RPL.MIN_CLR (d n : Nat) : Field := ⟨8 * (0x1009400 + d * 0x10000 + n * 0x4) + 24, 1, 0⟩
def CD_SP_LINMAP.LINEAR (d n k : Nat) : Field := ⟨8 * (0x100A000 + d * 0x10000 + n * 0x20 + k * 0x4) + 0, 32, 0⟩
def CD_SP_CE.COUNT (d n : Nat) : Field := ⟨8 * (0x100A018 + d * 0x10000 + n * 0x20) + 0, 32, 0⟩
def CD_SP_STAT.CE_BANK (d n : Nat) : Field := ⟨8 * (0x100A01C + d * 0x10000 + n * 0x20) + 0, 4, 0⟩
def CD_SP_STAT.CE_ROW (d n : Nat) : Field := ⟨8 * (0x100A01C + d * 0x10000 + n * 0x20) + 4, 8, 0⟩
def CD_SP_STAT.CE_SAT (d n : Nat) : Field := ⟨8 * (0x100A01C + d * 0x10000 + n * 0x20) + 12, 1, 0⟩
def CD_SP_STAT.CE_CLR (d n : Nat) : Field := ⟨8 * (0x100A01C + d * 0x10000 + n * 0x20) + 13, 1, 0⟩
def CD_SP_STAT.UE (d n : Nat) : Field := ⟨8 * (0x100A01C + d * 0x10000 + n * 0x20) + 14, 1, 0⟩
def CD_SP_STAT.UE_CNT (d n : Nat) : Field := ⟨8 * (0x100A01C + d * 0x10000 + n * 0x20) + 15, 1, 0⟩
def CD_SP_STAT.UE_BANK (d n : Nat) : Field := ⟨8 * (0x100A01C + d * 0x10000 + n * 0x20) + 16, 4, 0⟩
def CD_SP_STAT.UE_ROW (d n : Nat) : Field := ⟨8 * (0x100A01C + d * 0x10000 + n * 0x20) + 20, 8, 0⟩
def CD_CNT_WRAP_LO.WRAP (d n : Nat) : Field := ⟨8 * (0x100C000 + d * 0x10000 + n * 0x8) + 0, 32, 0⟩
def CD_CNT_WRAP_HI.WRAP (d n : Nat) : Field := ⟨8 * (0x100C004 + d * 0x10000 + n * 0x8) + 0, 32, 0⟩
def CD_THM_CL.DIODE (d c : Nat) : Field := ⟨8 * (0x100C800 + d * 0x10000 + c * 0x8) + 0, 16, 0⟩
def CD_THM_CL.RING (d c : Nat) : Field := ⟨8 * (0x100C800 + d * 0x10000 + c * 0x8) + 16, 16, 0⟩
def CD_THM_CL.GOV (d c : Nat) : Field := ⟨8 * (0x100C800 + d * 0x10000 + c * 0x8) + 32, 16, 0⟩
def CD_THM_CL.DIODE_OK (d c : Nat) : Field := ⟨8 * (0x100C800 + d * 0x10000 + c * 0x8) + 48, 1, 0⟩
def CD_THM_CL.RING_OK (d c : Nat) : Field := ⟨8 * (0x100C800 + d * 0x10000 + c * 0x8) + 49, 1, 0⟩
def CD_THM_CL.HELD (d c : Nat) : Field := ⟨8 * (0x100C800 + d * 0x10000 + c * 0x8) + 50, 1, 0⟩
def CD_NET_TX.COUNT (d t : Nat) : Field := ⟨8 * (0x100CC00 + d * 0x10000 + t * 0x8) + 0, 48, 0⟩
def CD_REG_ENERGY.COUNT (d : Nat) : Field := ⟨8 * (0x100CC20 + d * 0x10000) + 0, 48, 0⟩
def CD_PERF_DWRAP.NET_WRAP (d : Nat) : Field := ⟨8 * (0x100CC28 + d * 0x10000) + 0, 4, 0⟩
def CD_PERF_DWRAP.ENERGY_WRAP (d : Nat) : Field := ⟨8 * (0x100CC28 + d * 0x10000) + 4, 1, 0⟩
def CD_PERF_DWRAP.STR_WRAP (d : Nat) : Field := ⟨8 * (0x100CC28 + d * 0x10000) + 5, 16, 0⟩
def CD_NET_CE.COUNT (d : Nat) : Field := ⟨8 * (0x100CC2C + d * 0x10000) + 0, 32, 0⟩
def CD_THM_DISAG.COUNT (d : Nat) : Field := ⟨8 * (0x100CC30 + d * 0x10000) + 0, 32, 0⟩
def CD_DIE_HSTAT.NET_CE_SAT (d : Nat) : Field := ⟨8 * (0x100CC34 + d * 0x10000) + 0, 1, 0⟩
def CD_DIE_HSTAT.DISAG_SAT (d : Nat) : Field := ⟨8 * (0x100CC34 + d * 0x10000) + 1, 1, 0⟩
def CD_DIE_HSTAT.CLR (d : Nat) : Field := ⟨8 * (0x100CC34 + d * 0x10000) + 2, 1, 0⟩
def CD_RT_CTL.ACTIVE (d : Nat) : Field := ⟨8 * (0x100D000 + d * 0x10000) + 0, 1, 0⟩
def CD_RT_CTL.FLIP (d : Nat) : Field := ⟨8 * (0x100D000 + d * 0x10000) + 1, 1, 0⟩
def CD_RT_CTL.PEND (d : Nat) : Field := ⟨8 * (0x100D000 + d * 0x10000) + 2, 1, 0⟩
def CD_RT_VER.VER0 (d : Nat) : Field := ⟨8 * (0x100D004 + d * 0x10000) + 0, 16, 0⟩
def CD_RT_VER.VER1 (d : Nat) : Field := ⟨8 * (0x100D004 + d * 0x10000) + 16, 16, 0⟩
def CD_RT_SEAM.E (d : Nat) : Field := ⟨8 * (0x100D008 + d * 0x10000) + 0, 2, 0b10⟩
def CD_RT_SEAM.N (d : Nat) : Field := ⟨8 * (0x100D008 + d * 0x10000) + 2, 2, 0b10⟩
def CD_RT_SEAM.W (d : Nat) : Field := ⟨8 * (0x100D008 + d * 0x10000) + 4, 2, 0b10⟩
def CD_RT_SEAM.S (d : Nat) : Field := ⟨8 * (0x100D008 + d * 0x10000) + 6, 2, 0b10⟩
def CD_MC_REFUSE.COUNT (d : Nat) : Field := ⟨8 * (0x100D00C + d * 0x10000) + 0, 32, 0⟩
def CD_SYNC_TREE.PARENT (d : Nat) : Field := ⟨8 * (0x100D010 + d * 0x10000) + 0, 4, 0⟩
def CD_SYNC_TREE.CHILD (d : Nat) : Field := ⟨8 * (0x100D010 + d * 0x10000) + 4, 9, 0⟩
def CD_NET_ERR.CE (d : Nat) : Field := ⟨8 * (0x100D014 + d * 0x10000) + 0, 1, 0⟩
def CD_NET_ERR.UE (d : Nat) : Field := ⟨8 * (0x100D014 + d * 0x10000) + 1, 1, 0⟩
def CD_NET_ERR.DROP (d : Nat) : Field := ⟨8 * (0x100D014 + d * 0x10000) + 2, 1, 0⟩
def CD_NET_ERR.MC_SAT (d : Nat) : Field := ⟨8 * (0x100D014 + d * 0x10000) + 3, 1, 0⟩
def CD_NET_ERR.DROP_STATUS (d : Nat) : Field := ⟨8 * (0x100D014 + d * 0x10000) + 4, 4, 0⟩
def CD_SYNC_EXP.EXP (d b : Nat) : Field := ⟨8 * (0x100D020 + d * 0x10000 + b * 0x4) + 0, 9, 0⟩
def CD_RT_FT0.E0 (d w : Nat) : Field := ⟨8 * (0x100D100 + d * 0x10000 + w * 0x4) + 0, 8, 0⟩
def CD_RT_FT0.E1 (d w : Nat) : Field := ⟨8 * (0x100D100 + d * 0x10000 + w * 0x4) + 8, 8, 0⟩
def CD_RT_FT0.E2 (d w : Nat) : Field := ⟨8 * (0x100D100 + d * 0x10000 + w * 0x4) + 16, 8, 0⟩
def CD_RT_FT0.E3 (d w : Nat) : Field := ⟨8 * (0x100D100 + d * 0x10000 + w * 0x4) + 24, 8, 0⟩
def CD_RT_FT1.E0 (d w : Nat) : Field := ⟨8 * (0x100D200 + d * 0x10000 + w * 0x4) + 0, 8, 0⟩
def CD_RT_FT1.E1 (d w : Nat) : Field := ⟨8 * (0x100D200 + d * 0x10000 + w * 0x4) + 8, 8, 0⟩
def CD_RT_FT1.E2 (d w : Nat) : Field := ⟨8 * (0x100D200 + d * 0x10000 + w * 0x4) + 16, 8, 0⟩
def CD_RT_FT1.E3 (d w : Nat) : Field := ⟨8 * (0x100D200 + d * 0x10000 + w * 0x4) + 24, 8, 0⟩
def CD_RED_CTL.HOLD (d : Nat) : Field := ⟨8 * (0x100D400 + d * 0x10000) + 0, 8, 8⟩
def CD_RED_CTL.DIS (d : Nat) : Field := ⟨8 * (0x100D400 + d * 0x10000) + 8, 1, 0⟩
def CD_RED_COMB.COUNT (d : Nat) : Field := ⟨8 * (0x100D404 + d * 0x10000) + 0, 32, 0⟩
def CD_RED_NOENT.COUNT (d : Nat) : Field := ⟨8 * (0x100D408 + d * 0x10000) + 0, 32, 0⟩
def CD_SYNC_PHASE.PHASE (d : Nat) : Field := ⟨8 * (0x100D40C + d * 0x10000) + 0, 8, 0⟩
def CD_LNK_STAT.MODE (d l : Nat) : Field := ⟨8 * (0x100D500 + d * 0x10000 + l * 0x10) + 0, 2, 0b10⟩
def CD_LNK_STAT.MIN_EYE (d l : Nat) : Field := ⟨8 * (0x100D500 + d * 0x10000 + l * 0x10) + 2, 6, 0⟩
def CD_LNK_STAT.MIN_GROUP (d l : Nat) : Field := ⟨8 * (0x100D500 + d * 0x10000 + l * 0x10) + 8, 4, 0⟩
def CD_LNK_STAT.SPARES_LOW (d l : Nat) : Field := ⟨8 * (0x100D500 + d * 0x10000 + l * 0x10) + 12, 4, 0⟩
def CD_LNK_STAT.TRAINING (d l : Nat) : Field := ⟨8 * (0x100D500 + d * 0x10000 + l * 0x10) + 16, 1, 0⟩
def CD_LNK_CTL.RETRAIN (d l : Nat) : Field := ⟨8 * (0x100D504 + d * 0x10000 + l * 0x10) + 0, 1, 0⟩
def CD_LNK_CTL.FORCE_COMPAT (d l : Nat) : Field := ⟨8 * (0x100D504 + d * 0x10000 + l * 0x10) + 1, 1, 0⟩
def CD_LNK_ERR.REPAIRS (d l : Nat) : Field := ⟨8 * (0x100D508 + d * 0x10000 + l * 0x10) + 0, 16, 0⟩
def CD_LNK_ERR.RESENDS (d l : Nat) : Field := ⟨8 * (0x100D508 + d * 0x10000 + l * 0x10) + 16, 16, 0⟩
def CD_STORE_CFG.PMODE (d : Nat) : Field := ⟨8 * (0x100D800 + d * 0x10000) + 0, 1, 0⟩
def CD_STORE_LOST_LO.LOST (d : Nat) : Field := ⟨8 * (0x100D804 + d * 0x10000) + 0, 32, 0⟩
def CD_STORE_LOST_HI.LOST (d : Nat) : Field := ⟨8 * (0x100D808 + d * 0x10000) + 0, 16, 0⟩
def CD_SEG_MAP.ASSIGNED (d j : Nat) : Field := ⟨8 * (0x100D900 + d * 0x10000 + j * 0x4) + 0, 1, 0⟩
def CD_SEG_MAP.SHARED (d j : Nat) : Field := ⟨8 * (0x100D900 + d * 0x10000 + j * 0x4) + 1, 1, 0⟩
def CD_SEG_MAP.MODE (d j : Nat) : Field := ⟨8 * (0x100D900 + d * 0x10000 + j * 0x4) + 2, 1, 0⟩
def CD_SEG_MAP.OWNER (d j : Nat) : Field := ⟨8 * (0x100D900 + d * 0x10000 + j * 0x4) + 4, 4, 0⟩
def CD_PMAP_GRID.GX (d : Nat) : Field := ⟨8 * (0x100E000 + d * 0x10000) + 0, 9, 0⟩
def CD_PMAP_GRID.GY (d : Nat) : Field := ⟨8 * (0x100E000 + d * 0x10000) + 9, 8, 0⟩
def CD_PMAP_GRID.HEAVY (d : Nat) : Field := ⟨8 * (0x100E000 + d * 0x10000) + 17, 1, 0⟩
def CD_PMAP_CNT.NREC (d : Nat) : Field := ⟨8 * (0x100E004 + d * 0x10000) + 0, 10, 0⟩
def CD_PMAP_CNT.NSTRAY (d : Nat) : Field := ⟨8 * (0x100E004 + d * 0x10000) + 10, 9, 0⟩
def CD_PMAP_STRAY.VX (d i : Nat) : Field := ⟨8 * (0x100E400 + d * 0x10000 + i * 0x4) + 0, 8, 0⟩
def CD_PMAP_STRAY.VY (d i : Nat) : Field := ⟨8 * (0x100E400 + d * 0x10000 + i * 0x4) + 8, 7, 0⟩
def CD_PMAP_STRAY.PX (d i : Nat) : Field := ⟨8 * (0x100E400 + d * 0x10000 + i * 0x4) + 16, 8, 0⟩
def CD_PMAP_STRAY.PY (d i : Nat) : Field := ⟨8 * (0x100E400 + d * 0x10000 + i * 0x4) + 24, 8, 0⟩
def CD_PMAP_REC.VX0 (d i : Nat) : Field := ⟨8 * (0x100F000 + d * 0x10000 + i * 0x8) + 0, 8, 0⟩
def CD_PMAP_REC.VY0 (d i : Nat) : Field := ⟨8 * (0x100F000 + d * 0x10000 + i * 0x8) + 8, 7, 0⟩
def CD_PMAP_REC.WM1 (d i : Nat) : Field := ⟨8 * (0x100F000 + d * 0x10000 + i * 0x8) + 16, 8, 0⟩
def CD_PMAP_REC.HM1 (d i : Nat) : Field := ⟨8 * (0x100F000 + d * 0x10000 + i * 0x8) + 24, 7, 0⟩
def CD_PMAP_REC.PX0 (d i : Nat) : Field := ⟨8 * (0x100F000 + d * 0x10000 + i * 0x8) + 32, 8, 0⟩
def CD_PMAP_REC.PY0 (d i : Nat) : Field := ⟨8 * (0x100F000 + d * 0x10000 + i * 0x8) + 40, 8, 0⟩
def GS_STAT.STATE (g : Nat) : Field := ⟨8 * (0x2000000 + g * 0x10000) + 0, 3, 0⟩
def GS_STAT.MODE (g : Nat) : Field := ⟨8 * (0x2000000 + g * 0x10000) + 3, 1, 0⟩
def GS_STAT.RATE (g : Nat) : Field := ⟨8 * (0x2000000 + g * 0x10000) + 4, 3, 0⟩
def GS_STAT.X8 (g : Nat) : Field := ⟨8 * (0x2000000 + g * 0x10000) + 7, 1, 0⟩
def GS_STAT.CAUSE (g : Nat) : Field := ⟨8 * (0x2000000 + g * 0x10000) + 8, 4, 0⟩
def GS_STAT.MBOX_DONE (g : Nat) : Field := ⟨8 * (0x2000000 + g * 0x10000) + 12, 1, 0⟩
def GS_STAT.MBOX_TMO (g : Nat) : Field := ⟨8 * (0x2000000 + g * 0x10000) + 13, 1, 0⟩
def GS_CTL.READMIT (g : Nat) : Field := ⟨8 * (0x2000004 + g * 0x10000) + 0, 1, 0⟩
def GS_CTL.MBOX_GO (g : Nat) : Field := ⟨8 * (0x2000004 + g * 0x10000) + 1, 1, 0⟩
def GS_CFG.PART (g : Nat) : Field := ⟨8 * (0x2000008 + g * 0x10000) + 0, 4, 0⟩
def GS_ERR.DROPPED (g : Nat) : Field := ⟨8 * (0x200000C + g * 0x10000) + 0, 16, 0⟩
def GS_ERR.EXTENT (g : Nat) : Field := ⟨8 * (0x200000C + g * 0x10000) + 16, 16, 0⟩
def GS_CAP.CAP (g w : Nat) : Field := ⟨8 * (0x2000020 + g * 0x10000 + w * 0x4) + 0, 32, 0⟩
def GS_WIN_BASE.BASE (g i : Nat) : Field := ⟨8 * (0x2000040 + g * 0x10000 + i * 0x10) + 0, 48, 0⟩
def GS_WIN_SIZE.SIZE (g i : Nat) : Field := ⟨8 * (0x2000048 + g * 0x10000 + i * 0x10) + 0, 28, 0⟩
def GS_WIN_CTL.RD (g i : Nat) : Field := ⟨8 * (0x200004C + g * 0x10000 + i * 0x10) + 0, 1, 0⟩
def GS_WIN_CTL.WR (g i : Nat) : Field := ⟨8 * (0x200004C + g * 0x10000 + i * 0x10) + 1, 1, 0⟩
def GS_WIN_CTL.EN (g i : Nat) : Field := ⟨8 * (0x200004C + g * 0x10000 + i * 0x10) + 2, 1, 0⟩
def GS_MBOX.DATA (g w : Nat) : Field := ⟨8 * (0x2000100 + g * 0x10000 + w * 0x4) + 0, 32, 0⟩
def GS_MBOX_RSP.DATA (g w : Nat) : Field := ⟨8 * (0x2000140 + g * 0x10000 + w * 0x4) + 0, 32, 0⟩
def SETUP_LOCK.LOCK : Field := ⟨8 * (0x3000000) + 0, 1, 0⟩
def SETUP_LOCK.PENDING : Field := ⟨8 * (0x3000000) + 1, 1, 0⟩
def SETUP_LOCK.BY : Field := ⟨8 * (0x3000000) + 16, 4, 0⟩
def SETUP_LOCK.BY_FW : Field := ⟨8 * (0x3000000) + 20, 1, 0⟩
def GLB_LOCK_TIME.TIME : Field := ⟨8 * (0x3000008) + 0, 64, 0⟩
def GLB_DLR_STAT.AVAIL : Field := ⟨8 * (0x3002000) + 0, 16, 0⟩
def GLB_DLR_STAT.FOLDED : Field := ⟨8 * (0x3002000) + 16, 16, 0⟩
def GLB_DLR_HOLE.HOLECORES : Field := ⟨8 * (0x3002004) + 0, 16, 0⟩
def GLB_DLR_HOLE.GUAR : Field := ⟨8 * (0x3002004) + 16, 1, 0⟩
def GLB_DLR_CTL.KITTY_WARN : Field := ⟨8 * (0x3002008) + 0, 16, 1024⟩
def GLB_DLR_CTL.SHUF_EN : Field := ⟨8 * (0x3002008) + 16, 1, 1⟩
def GLB_DLR_PART0.AVAIL (p : Nat) : Field := ⟨8 * (0x3002100 + p * 0x10) + 0, 16, 0⟩
def GLB_DLR_PART0.PLACED (p : Nat) : Field := ⟨8 * (0x3002100 + p * 0x10) + 16, 16, 0⟩
def GLB_DLR_PART1.KITTY (p : Nat) : Field := ⟨8 * (0x3002104 + p * 0x10) + 0, 16, 0⟩
def GLB_DLR_PART1.NSTRAY (p : Nat) : Field := ⟨8 * (0x3002104 + p * 0x10) + 16, 9, 0⟩
def GLB_DLR_PART2.LAYER (p : Nat) : Field := ⟨8 * (0x3002108 + p * 0x10) + 0, 32, 0⟩
def GLB_DLR_PART3.VALID (p : Nat) : Field := ⟨8 * (0x300210C + p * 0x10) + 0, 2, 0⟩
def GLB_DLR_PART3.STALE (p : Nat) : Field := ⟨8 * (0x300210C + p * 0x10) + 2, 1, 0⟩
def GLB_DLR_PART3.RUNNING (p : Nat) : Field := ⟨8 * (0x300210C + p * 0x10) + 3, 1, 0⟩
def GLB_DLR_PART3.SINCE (p : Nat) : Field := ⟨8 * (0x300210C + p * 0x10) + 4, 8, 0⟩
def GLB_LNK_CFG.TRAIN_EYE : Field := ⟨8 * (0x3003000) + 0, 6, 20⟩
def GLB_LNK_CFG.REPAIR_EYE : Field := ⟨8 * (0x3003000) + 6, 6, 16⟩
def GLB_LNK_CFG.RESEND_MAX : Field := ⟨8 * (0x3003000) + 12, 16, 1000⟩
def GLB_SKIP.STATE (i : Nat) : Field := ⟨8 * (0x3003100 + i * 0x4) + 0, 2, 0b10⟩
def GLB_SKIP.SPARES_LOW (i : Nat) : Field := ⟨8 * (0x3003100 + i * 0x4) + 2, 4, 0⟩
def GLB_RCV_GEN.GEN : Field := ⟨8 * (0x3004000) + 0, 32, 0⟩
def GLB_RCV_STAT.ACTIVE : Field := ⟨8 * (0x3004004) + 0, 1, 0⟩
def GLB_RCV_STAT.CLASS : Field := ⟨8 * (0x3004004) + 1, 3, 0⟩
def GLB_RCV_STAT.RESUME_MS : Field := ⟨8 * (0x3004004) + 16, 16, 0⟩
def GLB_FOLD_CFG.CE_THR : Field := ⟨8 * (0x3004008) + 0, 16, 64⟩
def GLB_FOLD_CFG.DIE_RETRY : Field := ⟨8 * (0x3004008) + 16, 1, 1⟩
def GLB_STW_STAT.ACTIVE_SD : Field := ⟨8 * (0x3004010) + 0, 1, 0⟩
def GLB_STW_STAT.STANDBY_OK : Field := ⟨8 * (0x3004010) + 1, 1, 0⟩
def GLB_STW_STAT.LOST_BOTH : Field := ⟨8 * (0x3004010) + 2, 1, 0⟩
def GLB_STW_STAT.FAILOVERS : Field := ⟨8 * (0x3004010) + 16, 16, 0⟩
def GLB_HOLE_DIE.HOLE (w : Nat) : Field := ⟨8 * (0x3004020 + w * 0x4) + 0, 32, 0⟩
def GLB_HOLE_RGN.HOLE : Field := ⟨8 * (0x3004034) + 0, 16, 0⟩
def GLB_RCV_PART.LOSS_PENDING (p : Nat) : Field := ⟨8 * (0x3004100 + p * 0x4) + 0, 1, 0⟩
def GLB_RCV_PART.REPLAYING (p : Nat) : Field := ⟨8 * (0x3004100 + p * 0x4) + 1, 1, 0⟩
def GLB_FOLD_MAP.FOLDED (w : Nat) : Field := ⟨8 * (0x3006000 + w * 0x4) + 0, 32, 0⟩
def ELS_CTL.LASER_EN (k : Nat) : Field := ⟨8 * (0x4000100 + k * 0x400) + 0, 1, 0⟩
def ELS_CTL.IND (k : Nat) : Field := ⟨8 * (0x4000100 + k * 0x400) + 1, 3, 0⟩
def ELS_STAT.ILK_A (k : Nat) : Field := ⟨8 * (0x4000104 + k * 0x400) + 0, 1, 0⟩
def ELS_STAT.ILK_B (k : Nat) : Field := ⟨8 * (0x4000104 + k * 0x400) + 1, 1, 0⟩
def ELS_STAT.LOCKED (k : Nat) : Field := ⟨8 * (0x4000104 + k * 0x400) + 2, 1, 0⟩
def ELS_STAT.SPARED (k : Nat) : Field := ⟨8 * (0x4000104 + k * 0x400) + 8, 8, 0⟩
def ELS_STAT.FAILED (k : Nat) : Field := ⟨8 * (0x4000104 + k * 0x400) + 16, 8, 0⟩
def ELS_LAS.BIAS (k w : Nat) : Field := ⟨8 * (0x4000110 + k * 0x400 + w * 0x8) + 0, 16, 0⟩
def ELS_LAS.COOLER (k w : Nat) : Field := ⟨8 * (0x4000110 + k * 0x400 + w * 0x8) + 16, 16, 0⟩
def ELS_LAS.ON_SPARE (k w : Nat) : Field := ⟨8 * (0x4000110 + k * 0x400 + w * 0x8) + 32, 1, 0⟩
def ELS_LAS.SPARE_FAIL (k w : Nat) : Field := ⟨8 * (0x4000110 + k * 0x400 + w * 0x8) + 33, 1, 0⟩
def ELS_FEED.FEEDlo (k h : Nat) : Field := ⟨8 * (0x4000150 + k * 0x400 + h * 0x4) + 0, 16, 0⟩
def ELS_FEED.FEEDhi (k h : Nat) : Field := ⟨8 * (0x4000150 + k * 0x400 + h * 0x4) + 16, 16, 0⟩
def CT_CTL.OUT_EN (n : Nat) : Field := ⟨8 * (0x4010100 + n * 0x400) + 0, 1, 0⟩
def CT_CTL.RETRY (n : Nat) : Field := ⟨8 * (0x4010100 + n * 0x400) + 1, 1, 0⟩
def CT_CTL.IND (n : Nat) : Field := ⟨8 * (0x4010100 + n * 0x400) + 2, 3, 0⟩
def CT_STAT.STATE (n : Nat) : Field := ⟨8 * (0x4010104 + n * 0x400) + 0, 3, 1⟩
def CT_STAT.ANTE_REQ (n : Nat) : Field := ⟨8 * (0x4010104 + n * 0x400) + 3, 1, 0⟩
def CT_STAT.PHASE_OK (n : Nat) : Field := ⟨8 * (0x4010104 + n * 0x400) + 8, 8, 0⟩
def CT_STAT.SLOT (n : Nat) : Field := ⟨8 * (0x4010104 + n * 0x400) + 16, 5, n⟩
def CT_IN.VIN_A (n : Nat) : Field := ⟨8 * (0x4010108 + n * 0x400) + 0, 16, 0⟩
def CT_IN.VIN_B (n : Nat) : Field := ⟨8 * (0x4010108 + n * 0x400) + 16, 16, 0⟩
def CT_IN.IIN_A (n : Nat) : Field := ⟨8 * (0x4010108 + n * 0x400) + 32, 16, 0⟩
def CT_IN.IIN_B (n : Nat) : Field := ⟨8 * (0x4010108 + n * 0x400) + 48, 16, 0⟩
def CT_OUT.POUT (n : Nat) : Field := ⟨8 * (0x4010110 + n * 0x400) + 0, 16, 0⟩

/-- Entry `i` of fault-table bank `b` of die `d` (R168, R198). -/
def ftEntry (d b i : Nat) : Field := ⟨8 * (0x100D100 + d * 0x10000 + b * 0x100 + i), 8, 0⟩

/-- The registers of the map, part 1. -/
def regRows0 : List RegRow := [
  ⟨0x0, [], 4, .none, [⟨.ro, fun _ => GLB_ID_VENDOR.VENDOR, none⟩,
    ⟨.ro, fun _ => GLB_ID_VENDOR.DEVICE, none⟩]⟩,
  ⟨0x4, [], 4, .none, [⟨.ro, fun _ => GLB_ID_PART.PART, none⟩,
    ⟨.ro, fun _ => GLB_ID_PART.STEP_LETTER, none⟩,
    ⟨.ro, fun _ => GLB_ID_PART.STEP_NUM, none⟩]⟩,
  ⟨0x8, [], 8, .none, [⟨.ro, fun _ => GLB_ID_SERIAL.SERIAL, none⟩]⟩,
  ⟨0x10, [], 4, .none, [⟨.ro, fun _ => GLB_ID_MAP.MAP_VER, none⟩,
    ⟨.ro, fun _ => GLB_ID_MAP.LOG2_SIZE, none⟩]⟩,
  ⟨0x14, [], 4, .none, [⟨.ro, fun _ => GLB_ID_UNITS.DIES, none⟩,
    ⟨.ro, fun _ => GLB_ID_UNITS.HUBS, none⟩,
    ⟨.ro, fun _ => GLB_ID_UNITS.ENGINES, none⟩,
    ⟨.ro, fun _ => GLB_ID_UNITS.GUESTS, none⟩]⟩,
  ⟨0x18, [], 8, .none, [⟨.ro, fun _ => GLB_ID_FWVER.STEWARD, none⟩,
    ⟨.ro, fun _ => GLB_ID_FWVER.DIEMGR, none⟩]⟩,
  ⟨0x10000, [(16, 0x100)], 4, .none, [⟨.ro, fun ix => HID_FN_ID.FN (ix.getD 0 0), none⟩,
    ⟨.ro, fun ix => HID_FN_ID.PF (ix.getD 0 0), none⟩,
    ⟨.ro, fun ix => HID_FN_ID.EN (ix.getD 0 0), none⟩]⟩,
  ⟨0x10008, [(16, 0x100)], 8, .pf, [⟨.rw, fun ix => HID_FN_AP.BASE (ix.getD 0 0), none⟩]⟩,
  ⟨0x10010, [(16, 0x100)], 8, .pf, [⟨.rw, fun ix => HID_EVT_BASE.BASE (ix.getD 0 0), none⟩]⟩,
  ⟨0x10018, [(16, 0x100)], 4, .pf, [⟨.rw, fun ix => HID_EVT_CFG.EN (ix.getD 0 0), none⟩,
    ⟨.rw, fun ix => HID_EVT_CFG.LOG2SIZE (ix.getD 0 0), some (6, 12, 6, 6)⟩,
    ⟨.rw, fun ix => HID_EVT_CFG.VEC (ix.getD 0 0), none⟩]⟩,
  ⟨0x1001C, [(16, 0x100)], 4, .pf, [⟨.rw, fun ix => HID_EVT_HEAD.HEAD (ix.getD 0 0), none⟩]⟩,
  ⟨0x10020, [(16, 0x100)], 4, .pf, [⟨.ro, fun ix => HID_EVT_TAIL.TAIL (ix.getD 0 0), none⟩,
    ⟨.ro, fun ix => HID_EVT_TAIL.PHASE (ix.getD 0 0), none⟩]⟩,
  ⟨0x10024, [(16, 0x100)], 4, .pf, [⟨.w1c, fun ix => HID_FN_ERR.DB_FOREIGN (ix.getD 0 0), none⟩,
    ⟨.w1c, fun ix => HID_FN_ERR.AP_ERR (ix.getD 0 0), none⟩,
    ⟨.w1c, fun ix => HID_FN_ERR.BAR0_DENIED (ix.getD 0 0), none⟩,
    ⟨.ro, fun ix => HID_FN_ERR.EVLOST (ix.getD 0 0), none⟩]⟩,
  ⟨0x10028, [(16, 0x100)], 4, .pf, [⟨.ro, fun ix => HID_FN_PARTS.PARTS (ix.getD 0 0), none⟩]⟩,
  ⟨0x10040, [(16, 0x100)], 8, .w1cOnly, [⟨.ro, fun ix => HID_PERF_DESC.COUNT (ix.getD 0 0), none⟩]⟩,
  ⟨0x10048, [(16, 0x100)], 8, .w1cOnly, [⟨.ro, fun ix => HID_PERF_RDB.COUNT (ix.getD 0 0), none⟩]⟩,
  ⟨0x10050, [(16, 0x100)], 8, .w1cOnly, [⟨.ro, fun ix => HID_PERF_WRB.COUNT (ix.getD 0 0), none⟩]⟩,
  ⟨0x10058, [(16, 0x100)], 4, .w1cOnly, [⟨.w1c, fun ix => HID_PERF_WRAP.WRAP (ix.getD 0 0), none⟩]⟩,
  ⟨0x11000, [(16, 0x10)], 4, .pf, [⟨.rwl, fun ix => HID_PART.REGIONS (ix.getD 0 0), none⟩,
    ⟨.rwl, fun ix => HID_PART.OWNER (ix.getD 0 0), none⟩,
    ⟨.rwl, fun ix => HID_PART.EN (ix.getD 0 0), none⟩,
    ⟨.w1c, fun ix => HID_PART.CFG_ERR (ix.getD 0 0), none⟩]⟩,
  ⟨0x11004, [(16, 0x10)], 4, .pf, [⟨.ro, fun ix => HID_PART_TOL.TOL (ix.getD 0 0), none⟩]⟩]

/-- The registers of the map, part 2. -/
def regRows1 : List RegRow := [
  ⟨0x12000, [(48, 0x4)], 4, .pf, [⟨.rw, fun ix => HID_SEG_REQ.ASSIGNED (ix.getD 0 0), none⟩,
    ⟨.rw, fun ix => HID_SEG_REQ.SHARED (ix.getD 0 0), none⟩,
    ⟨.rw, fun ix => HID_SEG_REQ.MODE (ix.getD 0 0), none⟩,
    ⟨.rw, fun ix => HID_SEG_REQ.OWNER (ix.getD 0 0), none⟩]⟩,
  ⟨0x12100, [], 4, .pf, [⟨.wo, fun _ => HID_SEG_APPLY.GO, none⟩,
    ⟨.ro, fun _ => HID_SEG_APPLY.BUSY, none⟩,
    ⟨.w1c, fun _ => HID_SEG_APPLY.APPLIED, none⟩,
    ⟨.w1c, fun _ => HID_SEG_APPLY.ERR, none⟩,
    ⟨.ro, fun _ => HID_SEG_APPLY.ERR_SEG, none⟩]⟩,
  ⟨0x20000, [(4096, 0x20)], 8, .pf, [⟨.rw, fun ix => RING_BASE.BASE (ix.getD 0 0), none⟩]⟩,
  ⟨0x20008, [(4096, 0x20)], 4, .pf, [⟨.rw, fun ix => RING_CFG.EN (ix.getD 0 0), none⟩,
    ⟨.rw, fun ix => RING_CFG.KIND (ix.getD 0 0), none⟩,
    ⟨.rw, fun ix => RING_CFG.TRUMP (ix.getD 0 0), none⟩,
    ⟨.rw, fun ix => RING_CFG.LOG2SIZE (ix.getD 0 0), some (6, 16, 6, 6)⟩,
    ⟨.rwl, fun ix => RING_CFG.FUNC (ix.getD 0 0), none⟩]⟩,
  ⟨0x2000C, [(4096, 0x20)], 4, .pf, [⟨.rw, fun ix => RING_LINK.CQ (ix.getD 0 0), none⟩,
    ⟨.rw, fun ix => RING_LINK.ARB (ix.getD 0 0), none⟩,
    ⟨.rw, fun ix => RING_LINK.CTHR (ix.getD 0 0), none⟩,
    ⟨.rw, fun ix => RING_LINK.CTIME (ix.getD 0 0), none⟩]⟩,
  ⟨0x20010, [(4096, 0x20)], 4, .pf, [⟨.ro, fun ix => RING_HEAD.HEAD (ix.getD 0 0), none⟩]⟩,
  ⟨0x20014, [(4096, 0x20)], 4, .pf, [⟨.ro, fun ix => RING_TAIL.TAIL (ix.getD 0 0), none⟩,
    ⟨.ro, fun ix => RING_TAIL.PHASE (ix.getD 0 0), none⟩]⟩,
  ⟨0x20018, [(4096, 0x20)], 4, .pf, [⟨.ro, fun ix => RING_STAT.STATE (ix.getD 0 0), none⟩,
    ⟨.ro, fun ix => RING_STAT.ERR (ix.getD 0 0), none⟩,
    ⟨.ro, fun ix => RING_STAT.FULL (ix.getD 0 0), none⟩,
    ⟨.ro, fun ix => RING_STAT.DBDROP (ix.getD 0 0), none⟩]⟩,
  ⟨0x80000, [], 4, .none, [⟨.ro, fun _ => PWR_BUDGET.HOST_W, none⟩,
    ⟨.ro, fun _ => PWR_BUDGET.EFF_W, none⟩]⟩,
  ⟨0x80008, [], 8, .none, [⟨.ro, fun _ => PWR_IN.POWER, none⟩,
    ⟨.ro, fun _ => PWR_IN.VOLT, none⟩,
    ⟨.ro, fun _ => PWR_IN.CURR, none⟩,
    ⟨.ro, fun _ => PWR_IN.AVG5, none⟩]⟩,
  ⟨0x80010, [(4, 0x4)], 4, .none, [⟨.ro, fun ix => PWR_BLADE.OK (ix.getD 0 0), none⟩,
    ⟨.ro, fun ix => PWR_BLADE.CURR (ix.getD 0 0), none⟩,
    ⟨.ro, fun ix => PWR_BLADE.VOLT (ix.getD 0 0), none⟩]⟩,
  ⟨0x80100, [(20, 0x10)], 4, .none, [⟨.ro, fun ix => PWR_CT_STAT.STATE (ix.getD 0 0), none⟩,
    ⟨.ro, fun ix => PWR_CT_STAT.SPARE_USED (ix.getD 0 0), none⟩,
    ⟨.ro, fun ix => PWR_CT_STAT.RETRY_LOCK (ix.getD 0 0), none⟩,
    ⟨.ro, fun ix => PWR_CT_STAT.PAIR (ix.getD 0 0), none⟩,
    ⟨.ro, fun ix => PWR_CT_STAT.OUT_W (ix.getD 0 0), none⟩]⟩,
  ⟨0x80104, [(20, 0x10)], 4, .pf, [⟨.wo, fun ix => PWR_CT_CTL.SWAP_REQ (ix.getD 0 0), none⟩,
    ⟨.wo, fun ix => PWR_CT_CTL.SWAP_CANCEL (ix.getD 0 0), none⟩,
    ⟨.wo, fun ix => PWR_CT_CTL.RETRY (ix.getD 0 0), none⟩]⟩,
  ⟨0x80108, [(20, 0x10)], 8, .none, [⟨.ro, fun ix => PWR_CT_ID.SERIAL (ix.getD 0 0), none⟩,
    ⟨.ro, fun ix => PWR_CT_ID.HWREV (ix.getD 0 0), none⟩]⟩,
  ⟨0x80300, [(20, 0x8)], 8, .w1cOnly, [⟨.ro, fun ix => PWR_CT_ENERGY.COUNT (ix.getD 0 0), none⟩]⟩,
  ⟨0x80400, [], 4, .pf, [⟨.rw, fun _ => PWR_ANTE_CFG.NBR_PCT, none⟩,
    ⟨.rw, fun _ => PWR_ANTE_CFG.IN_PCT, none⟩,
    ⟨.rw, fun _ => PWR_ANTE_CFG.TMO, some (1, 65535, 1, 1)⟩]⟩,
  ⟨0x80404, [], 4, .none, [⟨.ro, fun _ => PWR_ANTE_STAT.PEND, none⟩,
    ⟨.ro, fun _ => PWR_ANTE_STAT.RAMP, none⟩]⟩,
  ⟨0x80408, [], 4, .pf, [⟨.rw, fun _ => PWR_STATE_CFG.FREE_STATE, some (2, 4, 2, 2)⟩,
    ⟨.rw, fun _ => PWR_STATE_CFG.C6_RELOAD, none⟩]⟩,
  ⟨0xA0000, [], 8, .none, [⟨.ro, fun _ => THM_COOLANT.INLET, none⟩,
    ⟨.ro, fun _ => THM_COOLANT.OUTLET, none⟩,
    ⟨.ro, fun _ => THM_COOLANT.FLOW, none⟩,
    ⟨.ro, fun _ => THM_COOLANT.VIN, none⟩,
    ⟨.ro, fun _ => THM_COOLANT.VOUT, none⟩,
    ⟨.ro, fun _ => THM_COOLANT.VFLOW, none⟩,
    ⟨.ro, fun _ => THM_COOLANT.FAULT_N_LOW, none⟩]⟩,
  ⟨0xA0008, [], 4, .pf, [⟨.rwl, fun _ => THM_FLOW_CFG.OUT_MAX, some (45, 60, 55, 55)⟩,
    ⟨.rw, fun _ => THM_FLOW_CFG.STOP_S, some (1, 25, 20, 20)⟩,
    ⟨.rwl, fun _ => THM_FLOW_CFG.BLIND_W, none⟩]⟩]

/-- The registers of the map, part 3. -/
def regRows2 : List RegRow := [
  ⟨0xA000C, [], 4, .pf, [⟨.rwl, fun _ => THM_CFG.THR, some (85, 95, 95, 95)⟩,
    ⟨.rwl, fun _ => THM_CFG.HOLD, some (95, 105, 105, 105)⟩]⟩,
  ⟨0xA0010, [], 4, .none, [⟨.ro, fun _ => THM_STAT.FLOW_STATE, none⟩,
    ⟨.ro, fun _ => THM_STAT.NOFLOWDATA, none⟩,
    ⟨.ro, fun _ => THM_STAT.FLOW_W, none⟩]⟩,
  ⟨0xA0014, [], 4, .pf, [⟨.rw, fun _ => THM_SHUF_CFG.HOT, none⟩,
    ⟨.rw, fun _ => THM_SHUF_CFG.DELTA, none⟩]⟩,
  ⟨0xA0018, [], 4, .pf, [⟨.wo, fun _ => THM_CTL.TRIP_CLR, none⟩]⟩,
  ⟨0xA0100, [(16, 0x8)], 8, .none, [⟨.ro, fun ix => THM_RGN.TJ (ix.getD 0 0), none⟩,
    ⟨.ro, fun ix => THM_RGN.FLOOR (ix.getD 0 0), none⟩,
    ⟨.ro, fun ix => THM_RGN.HELD (ix.getD 0 0), none⟩,
    ⟨.ro, fun ix => THM_RGN.TRIPPED (ix.getD 0 0), none⟩,
    ⟨.ro, fun ix => THM_RGN.TRIP_LOCK (ix.getD 0 0), none⟩,
    ⟨.ro, fun ix => THM_RGN.TRIPS (ix.getD 0 0), none⟩]⟩,
  ⟨0xA0400, [(100, 0x4)], 4, .none, [⟨.ro, fun ix => THM_UNIT.TEMP (ix.getD 0 0), none⟩,
    ⟨.ro, fun ix => THM_UNIT.LEVEL (ix.getD 0 0), none⟩,
    ⟨.ro, fun ix => THM_UNIT.VALID (ix.getD 0 0), none⟩]⟩,
  ⟨0xC0000, [], 8, .none, [⟨.ro, fun _ => CLK_PTIME.TIME, none⟩]⟩,
  ⟨0xC0008, [], 4, .pf, [⟨.rw, fun _ => CLK_PT_CFG.SLEW_PPM, some (1, 1023, 1, 1000)⟩,
    ⟨.rwl, fun _ => CLK_PT_CFG.STEP_EN, none⟩]⟩,
  ⟨0xC000C, [], 4, .none, [⟨.ro, fun _ => CLK_PT_STAT.ROOT, none⟩,
    ⟨.ro, fun _ => CLK_PT_STAT.UNLOCKED, none⟩,
    ⟨.w1c, fun _ => CLK_PT_STAT.STEPPED, none⟩,
    ⟨.ro, fun _ => CLK_PT_STAT.SLEWING, none⟩]⟩,
  ⟨0xC0010, [], 4, .none, [⟨.ro, fun _ => CLK_REF_STAT.A_OK, none⟩,
    ⟨.ro, fun _ => CLK_REF_STAT.B_OK, none⟩,
    ⟨.ro, fun _ => CLK_REF_STAT.ONB, none⟩,
    ⟨.w1c, fun _ => CLK_REF_STAT.SWITCHED, none⟩]⟩,
  ⟨0xC0018, [], 8, .none, [⟨.ro, fun _ => CLK_REF_PERIM.PERIM, none⟩]⟩,
  ⟨0xC0020, [(5, 0x4)], 4, .none, [⟨.ro, fun ix => CLK_REF_CD.CD (ix.getD 0 0), none⟩]⟩,
  ⟨0xE0000, [], 4, .pf, [⟨.wo, fun _ => RST_CTL.WARM, none⟩,
    ⟨.wo, fun _ => RST_CTL.SAVE, none⟩,
    ⟨.w1c, fun _ => RST_CTL.SAVED, none⟩]⟩,
  ⟨0xE0004, [], 4, .pf, [⟨.rwl, fun _ => RST_IDLE_CFG.TMO_US, some (1, 10000, 1, 10000)⟩]⟩,
  ⟨0xE0008, [], 4, .none, [⟨.ro, fun _ => RST_BOOT_STAT.STEP, none⟩,
    ⟨.ro, fun _ => RST_BOOT_STAT.STATE, none⟩,
    ⟨.ro, fun _ => RST_BOOT_STAT.DEGRADED, none⟩,
    ⟨.ro, fun _ => RST_BOOT_STAT.ACTIVE_SD, none⟩,
    ⟨.ro, fun _ => RST_BOOT_STAT.FAILED, none⟩,
    ⟨.ro, fun _ => RST_BOOT_STAT.NOHIST, none⟩]⟩,
  ⟨0xE000C, [], 4, .none, [⟨.wo, fun _ => RST_WDOG.KICK, none⟩,
    ⟨.ro, fun _ => RST_WDOG.TMO, none⟩]⟩,
  ⟨0xE0010, [], 4, .none, [⟨.ro, fun _ => RST_BOOT_TIME.MS, none⟩]⟩,
  ⟨0xE0100, [(215, 0x10)], 4, .none, [⟨.ro, fun ix => RST_LAST_CAUSE.CAUSE (ix.getD 0 0), none⟩,
    ⟨.ro, fun ix => RST_LAST_CAUSE.FORCED (ix.getD 0 0), none⟩]⟩,
  ⟨0xE0108, [(215, 0x10)], 8, .none, [⟨.ro, fun ix => RST_LAST_TIME.TIME (ix.getD 0 0), none⟩]⟩,
  ⟨0x100000, [], 4, .none, [⟨.ro, fun _ => KEY_STAT.STATE, none⟩,
    ⟨.ro, fun _ => KEY_STAT.APPROVED, none⟩,
    ⟨.ro, fun _ => KEY_STAT.OWNED, none⟩,
    ⟨.ro, fun _ => KEY_STAT.COSIGN, none⟩,
    ⟨.ro, fun _ => KEY_STAT.SD, none⟩]⟩]

/-- The registers of the map, part 4. -/
def regRows3 : List RegRow := [
  ⟨0x100004, [], 4, .pf, [⟨.rwl, fun _ => KEY_CFG.APPROVED_ONLY, none⟩]⟩,
  ⟨0x100008, [], 4, .none, [⟨.ro, fun _ => KEY_OTP.SW_IDX, none⟩,
    ⟨.ro, fun _ => KEY_OTP.DM_IDX, none⟩]⟩,
  ⟨0x100040, [(4, 0x40), (8, 0x4)], 4, .none, [⟨.ro, fun ix => KEY_OWNER_KEY.KEY (ix.getD 0 0) (ix.getD 1 0), none⟩]⟩,
  ⟨0x100060, [(4, 0x40)], 4, .none, [⟨.ro, fun ix => KEY_OWNER.VALID (ix.getD 0 0), none⟩,
    ⟨.ro, fun ix => KEY_OWNER.REVOKED (ix.getD 0 0), none⟩]⟩,
  ⟨0x100200, [(8, 0x40), (16, 0x4)], 4, .none, [⟨.ro, fun ix => KEY_MEAS.DIGEST (ix.getD 0 0) (ix.getD 1 0), none⟩]⟩,
  ⟨0x100400, [(2, 0x20)], 4, .none, [⟨.ro, fun ix => KEY_FW_STAGE0.STATE (ix.getD 0 0), none⟩]⟩,
  ⟨0x100404, [(2, 0x20)], 4, .none, [⟨.ro, fun ix => KEY_FW_STAGE1.BYTES (ix.getD 0 0), none⟩]⟩,
  ⟨0x100408, [(2, 0x20)], 4, .none, [⟨.ro, fun ix => KEY_FW_STAGE2.FWVER (ix.getD 0 0), none⟩]⟩,
  ⟨0x10040C, [(2, 0x20)], 4, .none, [⟨.ro, fun ix => KEY_FW_STAGE3.SVN (ix.getD 0 0), none⟩]⟩,
  ⟨0x101000, [(2, 0x400)], 4, .pf, [⟨.wo, fun ix => KEY_MBOX_CTL.GO (ix.getD 0 0), none⟩,
    ⟨.ro, fun ix => KEY_MBOX_CTL.BUSY (ix.getD 0 0), none⟩,
    ⟨.ro, fun ix => KEY_MBOX_CTL.STATUS (ix.getD 0 0), none⟩,
    ⟨.ro, fun ix => KEY_MBOX_CTL.APPROVED (ix.getD 0 0), none⟩,
    ⟨.ro, fun ix => KEY_MBOX_CTL.ROLE (ix.getD 0 0), none⟩]⟩,
  ⟨0x101100, [(2, 0x400), (64, 0x4)], 4, .pf, [⟨.rw, fun ix => KEY_MBOX_REQ.DATA (ix.getD 0 0) (ix.getD 1 0), none⟩]⟩,
  ⟨0x101200, [(2, 0x400), (64, 0x4)], 4, .none, [⟨.ro, fun ix => KEY_MBOX_RSP.DATA (ix.getD 0 0) (ix.getD 1 0), none⟩]⟩,
  ⟨0x120000, [(20, 0x100)], 4, .none, [⟨.rw, fun ix => CKU_CFG.WIDTH (ix.getD 0 0), some (1, 64, 64, 64)⟩,
    ⟨.rw, fun ix => CKU_CFG.REFIN (ix.getD 0 0), none⟩,
    ⟨.rw, fun ix => CKU_CFG.REFOUT (ix.getD 0 0), none⟩,
    ⟨.rw, fun ix => CKU_CFG.ALIVE8 (ix.getD 0 0), none⟩]⟩,
  ⟨0x120004, [(20, 0x100)], 4, .none, [⟨.wo, fun ix => CKU_CTL.START (ix.getD 0 0), none⟩,
    ⟨.rw, fun ix => CKU_CTL.LAST_N (ix.getD 0 0), none⟩]⟩,
  ⟨0x120008, [(20, 0x100)], 8, .none, [⟨.rw, fun ix => CKU_POLY.VALUE (ix.getD 0 0), none⟩]⟩,
  ⟨0x120010, [(20, 0x100)], 8, .none, [⟨.rw, fun ix => CKU_INIT.VALUE (ix.getD 0 0), none⟩]⟩,
  ⟨0x120018, [(20, 0x100)], 8, .none, [⟨.rw, fun ix => CKU_XOROUT.VALUE (ix.getD 0 0), none⟩]⟩,
  ⟨0x120020, [(20, 0x100)], 8, .none, [⟨.rw, fun ix => CKU_RUN.RUN (ix.getD 0 0), none⟩]⟩,
  ⟨0x120028, [(20, 0x100)], 8, .none, [⟨.wo, fun ix => CKU_DATA.DATA (ix.getD 0 0), none⟩]⟩,
  ⟨0x120030, [(20, 0x100)], 8, .none, [⟨.ro, fun ix => CKU_RESULT.RESULT (ix.getD 0 0), none⟩]⟩]

/-- The registers of the map, part 5. -/
def regRows4 : List RegRow := [
  ⟨0x120038, [(20, 0x100)], 4, .none, [⟨.ro, fun ix => CKU_STAT.BUSY (ix.getD 0 0), none⟩,
    ⟨.ro, fun ix => CKU_STAT.BAD_SAT (ix.getD 0 0), none⟩,
    ⟨.ro, fun ix => CKU_STAT.REP_SAT (ix.getD 0 0), none⟩,
    ⟨.ro, fun ix => CKU_STAT.SKIP_SAT (ix.getD 0 0), none⟩,
    ⟨.wo, fun ix => CKU_STAT.CLR (ix.getD 0 0), none⟩]⟩,
  ⟨0x120040, [(20, 0x100)], 4, .none, [⟨.ro, fun ix => CKU_BAD.COUNT (ix.getD 0 0), none⟩]⟩,
  ⟨0x120044, [(20, 0x100)], 4, .none, [⟨.ro, fun ix => CKU_REPEAT.COUNT (ix.getD 0 0), none⟩]⟩,
  ⟨0x120048, [(20, 0x100)], 4, .none, [⟨.ro, fun ix => CKU_SKIP.COUNT (ix.getD 0 0), none⟩]⟩,
  ⟨0x120080, [(20, 0x100), (17, 0x4)], 4, .none, [⟨.ro, fun ix => CKU_ALIVE.LAST (ix.getD 0 0) (ix.getD 1 0), none⟩,
    ⟨.ro, fun ix => CKU_ALIVE.VALID (ix.getD 0 0) (ix.getD 1 0), none⟩]⟩,
  ⟨0x140000, [], 8, .pf, [⟨.rw, fun _ => TEL_IMG.BASE, none⟩,
    ⟨.rw, fun _ => TEL_IMG.EN, none⟩]⟩,
  ⟨0x140008, [], 4, .pf, [⟨.ro, fun _ => TEL_TRICK_STAT.BUSY, none⟩,
    ⟨.ro, fun _ => TEL_TRICK_STAT.VALID, none⟩,
    ⟨.w1c, fun _ => TEL_TRICK_STAT.IMG_ERR, none⟩,
    ⟨.ro, fun _ => TEL_TRICK_STAT.ABSENT, none⟩]⟩,
  ⟨0x14000C, [], 4, .none, [⟨.ro, fun _ => TEL_TRICK_NUM.N, none⟩]⟩,
  ⟨0x140010, [], 8, .none, [⟨.ro, fun _ => TEL_TRICK_T.T, none⟩]⟩,
  ⟨0x140018, [], 8, .none, [⟨.ro, fun _ => TEL_TRICK_NEXT.T, none⟩]⟩,
  ⟨0x140020, [], 4, .none, [⟨.ro, fun _ => TEL_LOG_STAT.DEV0_OK, none⟩,
    ⟨.ro, fun _ => TEL_LOG_STAT.DEV1_OK, none⟩,
    ⟨.ro, fun _ => TEL_LOG_STAT.MIRROR_OK, none⟩,
    ⟨.ro, fun _ => TEL_LOG_STAT.FILL, none⟩]⟩,
  ⟨0x140028, [], 8, .none, [⟨.ro, fun _ => TEL_LOG_SEQ.SEQ, none⟩]⟩,
  ⟨0x200000, [(24, 0x10000)], 4, .none, [⟨.ro, fun ix => MH_HUB_STAT.INSERVICE (ix.getD 0 0), none⟩,
    ⟨.ro, fun ix => MH_HUB_STAT.STG_BUSY (ix.getD 0 0), none⟩]⟩,
  ⟨0x200010, [(24, 0x10000), (2, 0x4)], 4, .none, [⟨.ro, fun ix => MH_CE_CNT.COUNT (ix.getD 0 0) (ix.getD 1 0), none⟩]⟩,
  ⟨0x200020, [(24, 0x10000)], 4, .none, [⟨.ro, fun ix => MH_ERR_STAT.CE_SAT0 (ix.getD 0 0), none⟩,
    ⟨.ro, fun ix => MH_ERR_STAT.CE_SAT1 (ix.getD 0 0), none⟩,
    ⟨.wo, fun ix => MH_ERR_STAT.CE_CLR (ix.getD 0 0), none⟩,
    ⟨.w1c, fun ix => MH_ERR_STAT.UE (ix.getD 0 0), none⟩,
    ⟨.ro, fun ix => MH_ERR_STAT.UE_STACK (ix.getD 0 0), none⟩,
    ⟨.ro, fun ix => MH_ERR_STAT.UE_FIXED (ix.getD 0 0), none⟩]⟩,
  ⟨0x200028, [(24, 0x10000), (2, 0x8)], 8, .none, [⟨.ro, fun ix => MH_UE_ADDR.ADDR (ix.getD 0 0) (ix.getD 1 0), none⟩]⟩,
  ⟨0x200040, [(24, 0x10000)], 4, .none, [⟨.rw, fun ix => MH_PPR_CTL.CE_THR (ix.getD 0 0), none⟩,
    ⟨.rw, fun ix => MH_PPR_CTL.EN (ix.getD 0 0), none⟩]⟩,
  ⟨0x200044, [(24, 0x10000)], 4, .none, [⟨.ro, fun ix => MH_PPR_STAT.DONE (ix.getD 0 0), none⟩,
    ⟨.ro, fun ix => MH_PPR_STAT.BUSY (ix.getD 0 0), none⟩,
    ⟨.ro, fun ix => MH_PPR_STAT.NOSPARE (ix.getD 0 0), none⟩]⟩,
  ⟨0x200050, [(24, 0x10000)], 4, .none, [⟨.ro, fun ix => MH_MELD_CNT.COUNT (ix.getD 0 0), none⟩]⟩,
  ⟨0x200054, [(24, 0x10000)], 4, .none, [⟨.ro, fun ix => MH_STG_FULL.COUNT (ix.getD 0 0), none⟩]⟩]

/-- The registers of the map, part 6. -/
def regRows5 : List RegRow := [
  ⟨0x200100, [(24, 0x10000), (2, 0x10)], 8, .w1cOnly, [⟨.ro, fun ix => MH_PERF_RD.COUNT (ix.getD 0 0) (ix.getD 1 0), none⟩]⟩,
  ⟨0x200108, [(24, 0x10000), (2, 0x10)], 8, .w1cOnly, [⟨.ro, fun ix => MH_PERF_WR.COUNT (ix.getD 0 0) (ix.getD 1 0), none⟩]⟩,
  ⟨0x200120, [(24, 0x10000)], 4, .w1cOnly, [⟨.w1c, fun ix => MH_PERF_WRAP.WRAP (ix.getD 0 0), none⟩]⟩,
  ⟨0x380000, [], 4, .none, [⟨.rwl, fun _ => MH_STORE_CFG.PARITY, none⟩,
    ⟨.wo, fun _ => MH_STORE_CFG.INIT, none⟩,
    ⟨.ro, fun _ => MH_STORE_CFG.READY, none⟩,
    ⟨.ro, fun _ => MH_STORE_CFG.PMODE, none⟩,
    ⟨.w1c, fun _ => MH_STORE_CFG.MODE_ERR, none⟩]⟩,
  ⟨0x380008, [], 8, .none, [⟨.ro, fun _ => MH_FW_AREA.BASE, none⟩]⟩,
  ⟨0x380100, [(48, 0x4)], 4, .none, [⟨.rw, fun ix => MH_SEG_MAP.ASSIGNED (ix.getD 0 0), none⟩,
    ⟨.rw, fun ix => MH_SEG_MAP.SHARED (ix.getD 0 0), none⟩,
    ⟨.rw, fun ix => MH_SEG_MAP.MODE (ix.getD 0 0), none⟩,
    ⟨.rw, fun ix => MH_SEG_MAP.OWNER (ix.getD 0 0), none⟩]⟩,
  ⟨0x380200, [(48, 0x4)], 4, .none, [⟨.ro, fun ix => MH_STACK_STATE.STATE (ix.getD 0 0), none⟩,
    ⟨.ro, fun ix => MH_STACK_STATE.NOSPARE (ix.getD 0 0), none⟩]⟩,
  ⟨0x380300, [(4, 0x8)], 4, .none, [⟨.ro, fun ix => MH_PGRP_STATE.STATE (ix.getD 0 0), none⟩,
    ⟨.ro, fun ix => MH_PGRP_STATE.LOST_STACK (ix.getD 0 0), none⟩]⟩,
  ⟨0x380304, [(4, 0x8)], 4, .none, [⟨.ro, fun ix => MH_PGRP_PROG.STRIPE (ix.getD 0 0), none⟩]⟩,
  ⟨0x380320, [], 4, .none, [⟨.rw, fun _ => MH_RECON_CTL.RATE, none⟩,
    ⟨.rw, fun _ => MH_RECON_CTL.AUTO, none⟩,
    ⟨.wo, fun _ => MH_RECON_CTL.START, none⟩]⟩,
  ⟨0x381000, [(72, 0x20)], 8, .portOwner, [⟨.rw, fun ix => MH_RXA_HDR.BASE (ix.getD 0 0), none⟩]⟩,
  ⟨0x381008, [(72, 0x20)], 8, .portOwner, [⟨.rw, fun ix => MH_RXA_DATA.BASE (ix.getD 0 0), none⟩]⟩,
  ⟨0x381010, [(72, 0x20)], 4, .portOwner, [⟨.rw, fun ix => MH_RXA_CTL.EN (ix.getD 0 0), none⟩,
    ⟨.rw, fun ix => MH_RXA_CTL.NOTIFY (ix.getD 0 0), none⟩,
    ⟨.rw, fun ix => MH_RXA_CTL.LOG2N (ix.getD 0 0), some (8, 16, 8, 8)⟩,
    ⟨.rw, fun ix => MH_RXA_CTL.FUNC (ix.getD 0 0), none⟩]⟩,
  ⟨0x381014, [(72, 0x20)], 4, .portOwner, [⟨.ro, fun ix => MH_RXA_WR.WR_IDX (ix.getD 0 0), none⟩]⟩,
  ⟨0x381018, [(72, 0x20)], 4, .portOwner, [⟨.rw, fun ix => MH_RXA_RD.RD_IDX (ix.getD 0 0), none⟩]⟩,
  ⟨0x38101C, [(72, 0x20)], 4, .portOwner, [⟨.ro, fun ix => MH_RXA_STAT.FULL (ix.getD 0 0), none⟩,
    ⟨.w1c, fun ix => MH_RXA_STAT.CFG_ERR (ix.getD 0 0), none⟩,
    ⟨.ro, fun ix => MH_RXA_STAT.FULLCNT (ix.getD 0 0), none⟩]⟩,
  ⟨0x400000, [(24, 0x10000)], 4, .none, [⟨.ro, fun ix => OE_STAT.INSERVICE (ix.getD 0 0), none⟩,
    ⟨.ro, fun ix => OE_STAT.DARK (ix.getD 0 0), none⟩,
    ⟨.ro, fun ix => OE_STAT.CAUSE (ix.getD 0 0), none⟩]⟩,
  ⟨0x400010, [(24, 0x10000), (3, 0x4)], 4, .none, [⟨.ro, fun ix => OE_PORT_STAT.STATE (ix.getD 0 0) (ix.getD 1 0), none⟩,
    ⟨.ro, fun ix => OE_PORT_STAT.WIDTH (ix.getD 0 0) (ix.getD 1 0), none⟩,
    ⟨.ro, fun ix => OE_PORT_STAT.BAD (ix.getD 0 0) (ix.getD 1 0), none⟩]⟩,
  ⟨0x400020, [(24, 0x10000), (3, 0x4)], 4, .pf, [⟨.rw, fun ix => OE_PORT_CTL.EN (ix.getD 0 0) (ix.getD 1 0), none⟩,
    ⟨.wo, fun ix => OE_PORT_CTL.RETRAIN (ix.getD 0 0) (ix.getD 1 0), none⟩,
    ⟨.rw, fun ix => OE_PORT_CTL.MINW (ix.getD 0 0) (ix.getD 1 0), none⟩]⟩,
  ⟨0x400100, [(24, 0x10000), (48, 0x10)], 4, .none, [⟨.ro, fun ix => OE_LANE_STAT.HSTATE (ix.getD 0 0) (ix.getD 1 0), none⟩,
    ⟨.ro, fun ix => OE_LANE_STAT.CROSS (ix.getD 0 0) (ix.getD 1 0), none⟩,
    ⟨.ro, fun ix => OE_LANE_STAT.LOCK (ix.getD 0 0) (ix.getD 1 0), none⟩,
    ⟨.ro, fun ix => OE_LANE_STAT.LOGICAL (ix.getD 0 0) (ix.getD 1 0), none⟩]⟩]

/-- The registers of the map, part 7. -/
def regRows6 : List RegRow := [
  ⟨0x400104, [(24, 0x10000), (48, 0x10)], 4, .none, [⟨.ro, fun ix => OE_LANE_SER.COUNT (ix.getD 0 0) (ix.getD 1 0), none⟩]⟩,
  ⟨0x400108, [(24, 0x10000), (48, 0x10)], 4, .pf, [⟨.wo, fun ix => OE_LANE_CTL.RETEST (ix.getD 0 0) (ix.getD 1 0), none⟩]⟩,
  ⟨0x40010C, [(24, 0x10000), (48, 0x10)], 4, .none, [⟨.ro, fun ix => OE_LANE_LOCK.COUNT (ix.getD 0 0) (ix.getD 1 0), none⟩]⟩,
  ⟨0x400400, [(24, 0x10000), (6, 0x10)], 4, .none, [⟨.ro, fun ix => OE_FTX.POWER (ix.getD 0 0) (ix.getD 1 0), none⟩]⟩,
  ⟨0x400404, [(24, 0x10000), (6, 0x10)], 4, .none, [⟨.ro, fun ix => OE_FRX.POWER (ix.getD 0 0) (ix.getD 1 0), none⟩]⟩,
  ⟨0x400408, [(24, 0x10000), (6, 0x10)], 4, .none, [⟨.ro, fun ix => OE_FLOSS.LOSS (ix.getD 0 0) (ix.getD 1 0), none⟩,
    ⟨.ro, fun ix => OE_FLOSS.BASE (ix.getD 0 0) (ix.getD 1 0), none⟩]⟩,
  ⟨0x40040C, [(24, 0x10000), (6, 0x10)], 4, .none, [⟨.ro, fun ix => OE_FSTAT.LEVEL (ix.getD 0 0) (ix.getD 1 0), none⟩,
    ⟨.ro, fun ix => OE_FSTAT.NOFAR (ix.getD 0 0) (ix.getD 1 0), none⟩]⟩,
  ⟨0x400500, [(24, 0x10000), (4, 0x4)], 4, .none, [⟨.ro, fun ix => OE_FEED.POWER (ix.getD 0 0) (ix.getD 1 0), none⟩,
    ⟨.ro, fun ix => OE_FEED.LOSS (ix.getD 0 0) (ix.getD 1 0), none⟩,
    ⟨.ro, fun ix => OE_FEED.LEVEL (ix.getD 0 0) (ix.getD 1 0), none⟩]⟩,
  ⟨0x400600, [(24, 0x10000)], 4, .none, [⟨.rw, fun ix => OE_LH_CFG.THR (ix.getD 0 0), none⟩]⟩,
  ⟨0x400604, [(24, 0x10000)], 4, .none, [⟨.rw, fun ix => OE_PWR_CFG.WARN_DB (ix.getD 0 0), none⟩,
    ⟨.rw, fun ix => OE_PWR_CFG.LOW_DB (ix.getD 0 0), none⟩]⟩,
  ⟨0x400608, [(24, 0x10000)], 4, .pf, [⟨.wo, fun ix => OE_BASELINE.FIBRE (ix.getD 0 0), none⟩,
    ⟨.wo, fun ix => OE_BASELINE.FEED (ix.getD 0 0), none⟩]⟩,
  ⟨0x400800, [(24, 0x10000), (3, 0x10)], 8, .w1cOnly, [⟨.ro, fun ix => OE_PERF_TX.COUNT (ix.getD 0 0) (ix.getD 1 0), none⟩]⟩,
  ⟨0x400808, [(24, 0x10000), (3, 0x10)], 8, .w1cOnly, [⟨.ro, fun ix => OE_PERF_RX.COUNT (ix.getD 0 0) (ix.getD 1 0), none⟩]⟩,
  ⟨0x400B00, [(24, 0x10000)], 8, .w1cOnly, [⟨.w1c, fun ix => OE_PERF_WRAP.PORT_WRAP (ix.getD 0 0), none⟩,
    ⟨.w1c, fun ix => OE_PERF_WRAP.LANE_WRAP (ix.getD 0 0), none⟩]⟩,
  ⟨0x400C00, [(24, 0x10000), (48, 0x8)], 8, .w1cOnly, [⟨.ro, fun ix => OE_LANE_CSYM.COUNT (ix.getD 0 0) (ix.getD 1 0), none⟩]⟩,
  ⟨0x404000, [(24, 0x10000), (3, 0x40)], 4, .none, [⟨.ro, fun ix => JX_PORT_STAT.LSTATE (ix.getD 0 0) (ix.getD 1 0), none⟩,
    ⟨.ro, fun ix => JX_PORT_STAT.SSTATE (ix.getD 0 0) (ix.getD 1 0), none⟩,
    ⟨.ro, fun ix => JX_PORT_STAT.ASEQ (ix.getD 0 0) (ix.getD 1 0), none⟩]⟩,
  ⟨0x404004, [(24, 0x10000), (3, 0x40)], 4, .none, [⟨.ro, fun ix => JX_PORT_FAR.PANEL (ix.getD 0 0) (ix.getD 1 0), none⟩,
    ⟨.ro, fun ix => JX_PORT_FAR.PORT (ix.getD 0 0) (ix.getD 1 0), none⟩,
    ⟨.ro, fun ix => JX_PORT_FAR.FARVALID (ix.getD 0 0) (ix.getD 1 0), none⟩]⟩,
  ⟨0x404008, [(24, 0x10000), (3, 0x40)], 4, .none, [⟨.ro, fun ix => JX_PORT_RPL.COUNT (ix.getD 0 0) (ix.getD 1 0), none⟩]⟩,
  ⟨0x40400C, [(24, 0x10000), (3, 0x40)], 4, .none, [⟨.ro, fun ix => JX_PORT_ERR.HDR (ix.getD 0 0) (ix.getD 1 0), none⟩,
    ⟨.ro, fun ix => JX_PORT_ERR.AUTHFAIL (ix.getD 0 0) (ix.getD 1 0), none⟩]⟩,
  ⟨0x404010, [(24, 0x10000), (3, 0x40)], 4, .pf, [⟨.rw, fun ix => JX_SEAL_CTL.REQ (ix.getD 0 0) (ix.getD 1 0), none⟩,
    ⟨.wo, fun ix => JX_SEAL_CTL.REKEY (ix.getD 0 0) (ix.getD 1 0), none⟩]⟩]

/-- The registers of the map, part 8. -/
def regRows7 : List RegRow := [
  ⟨0x580000, [(65536, 0x4)], 4, .pf, [⟨.rw, fun ix => JX_RT.P0 (ix.getD 0 0), none⟩,
    ⟨.rw, fun ix => JX_RT.DL0 (ix.getD 0 0), none⟩,
    ⟨.rw, fun ix => JX_RT.P1 (ix.getD 0 0), none⟩,
    ⟨.rw, fun ix => JX_RT.DL1 (ix.getD 0 0), none⟩,
    ⟨.rw, fun ix => JX_RT.P2 (ix.getD 0 0), none⟩,
    ⟨.rw, fun ix => JX_RT.DL2 (ix.getD 0 0), none⟩,
    ⟨.rw, fun ix => JX_RT.P3 (ix.getD 0 0), none⟩,
    ⟨.rw, fun ix => JX_RT.DL3 (ix.getD 0 0), none⟩]⟩,
  ⟨0x5C0000, [(12, 0x100)], 4, .none, [⟨.ro, fun ix => OE_ELS_STAT.PRESENT (ix.getD 0 0), none⟩,
    ⟨.ro, fun ix => OE_ELS_STAT.VERIFIED (ix.getD 0 0), none⟩,
    ⟨.ro, fun ix => OE_ELS_STAT.STATE (ix.getD 0 0), none⟩,
    ⟨.ro, fun ix => OE_ELS_STAT.REPLACE (ix.getD 0 0), none⟩,
    ⟨.ro, fun ix => OE_ELS_STAT.SPARED (ix.getD 0 0), none⟩,
    ⟨.ro, fun ix => OE_ELS_STAT.FAILED (ix.getD 0 0), none⟩]⟩,
  ⟨0x5C0004, [(12, 0x100)], 4, .pf, [⟨.wo, fun ix => OE_ELS_CTL.SWAP_REQ (ix.getD 0 0), none⟩,
    ⟨.wo, fun ix => OE_ELS_CTL.SWAP_CANCEL (ix.getD 0 0), none⟩]⟩,
  ⟨0x5C0008, [(12, 0x100)], 8, .none, [⟨.ro, fun ix => OE_ELS_ID.SERIAL (ix.getD 0 0), none⟩,
    ⟨.ro, fun ix => OE_ELS_ID.HWREV (ix.getD 0 0), none⟩]⟩,
  ⟨0x5C0010, [(12, 0x100), (8, 0x8)], 8, .none, [⟨.ro, fun ix => OE_ELS_BIAS.BIAS (ix.getD 0 0) (ix.getD 1 0), none⟩,
    ⟨.ro, fun ix => OE_ELS_BIAS.BASE (ix.getD 0 0) (ix.getD 1 0), none⟩,
    ⟨.ro, fun ix => OE_ELS_BIAS.ON_SPARE (ix.getD 0 0) (ix.getD 1 0), none⟩,
    ⟨.ro, fun ix => OE_ELS_BIAS.SPARE_FAIL (ix.getD 0 0) (ix.getD 1 0), none⟩]⟩,
  ⟨0x5C0050, [(12, 0x100)], 4, .none, [⟨.rw, fun ix => OE_ELS_CFG.WARN_PCT (ix.getD 0 0), none⟩,
    ⟨.rw, fun ix => OE_ELS_CFG.EOL_PCT (ix.getD 0 0), none⟩]⟩,
  ⟨0x5E0000, [], 4, .pf, [⟨.rwl, fun _ => JX_SELF.ID, none⟩,
    ⟨.rwl, fun _ => JX_SELF.ASSIGNED, none⟩,
    ⟨.ro, fun _ => JX_SELF.SHADOWED, none⟩]⟩,
  ⟨0x5E0004, [], 4, .pf, [⟨.rw, fun _ => JX_CFG.TMO, some (1, 1023, 1, 1000)⟩,
    ⟨.rw, fun _ => JX_CFG.HOPS, some (1, 63, 63, 63)⟩,
    ⟨.rw, fun _ => JX_CFG.DISC_EN, none⟩]⟩,
  ⟨0x5E0008, [], 4, .pf, [⟨.rw, fun _ => JX_TIME_CFG.ROOT, none⟩,
    ⟨.rw, fun _ => JX_TIME_CFG.EN, none⟩]⟩,
  ⟨0x5E000C, [], 4, .none, [⟨.ro, fun _ => JX_TIME_STAT.HOPS, none⟩,
    ⟨.ro, fun _ => JX_TIME_STAT.LOCKED, none⟩,
    ⟨.ro, fun _ => JX_TIME_STAT.PARENT, none⟩]⟩,
  ⟨0x5E0010, [], 4, .none, [⟨.ro, fun _ => JX_TIME_OFS.OFS, none⟩]⟩,
  ⟨0x5E0014, [], 4, .none, [⟨.ro, fun _ => JX_DROP.HOPS0, none⟩,
    ⟨.ro, fun _ => JX_DROP.NOROUTE, none⟩]⟩,
  ⟨0x5E0020, [(4, 0x4)], 4, .pf, [⟨.rw, fun ix => JX_ALIAS.ID (ix.getD 0 0), none⟩,
    ⟨.rw, fun ix => JX_ALIAS.EN (ix.getD 0 0), none⟩]⟩,
  ⟨0x5E0040, [(72, 0x4)], 4, .pf, [⟨.rwl, fun ix => JX_PORT_OWN.PF (ix.getD 0 0), none⟩]⟩,
  ⟨0x5E0200, [(16, 0x10)], 4, .pf, [⟨.rw, fun ix => JX_RACC0.PLO (ix.getD 0 0), none⟩,
    ⟨.rw, fun ix => JX_RACC0.PHI (ix.getD 0 0), none⟩]⟩,
  ⟨0x5E0204, [(16, 0x10)], 4, .pf, [⟨.rw, fun ix => JX_RACC1.RD (ix.getD 0 0), none⟩,
    ⟨.rw, fun ix => JX_RACC1.WR (ix.getD 0 0), none⟩,
    ⟨.rw, fun ix => JX_RACC1.RED (ix.getD 0 0), none⟩,
    ⟨.rw, fun ix => JX_RACC1.WIN (ix.getD 0 0), none⟩,
    ⟨.rw, fun ix => JX_RACC1.SEALED_ONLY (ix.getD 0 0), none⟩,
    ⟨.rw, fun ix => JX_RACC1.EN (ix.getD 0 0), none⟩,
    ⟨.rw, fun ix => JX_RACC1.PARTS (ix.getD 0 0), none⟩]⟩,
  ⟨0x5E0208, [(16, 0x10)], 8, .pf, [⟨.rw, fun ix => JX_RACC2.SEGMASK (ix.getD 0 0), none⟩]⟩,
  ⟨0x800000, [(16, 0x40000)], 4, .none, [⟨.ro, fun ix => RGN_PWR_STAT.STATE (ix.getD 0 0), none⟩,
    ⟨.ro, fun ix => RGN_PWR_STAT.CLAMPED (ix.getD 0 0), none⟩,
    ⟨.ro, fun ix => RGN_PWR_STAT.MANAGER (ix.getD 0 0), none⟩,
    ⟨.ro, fun ix => RGN_PWR_STAT.USED_W (ix.getD 0 0), none⟩]⟩,
  ⟨0x800004, [(16, 0x40000)], 4, .none, [⟨.ro, fun ix => RGN_PWR_BUD.BUDGET (ix.getD 0 0), none⟩,
    ⟨.ro, fun ix => RGN_PWR_BUD.DEMAND (ix.getD 0 0), none⟩]⟩,
  ⟨0x800008, [(16, 0x40000)], 4, .none, [⟨.ro, fun ix => RGN_PWR_HARD.HARD (ix.getD 0 0), none⟩]⟩]

/-- The registers of the map, part 9. -/
def regRows8 : List RegRow := [
  ⟨0x800010, [(16, 0x40000), (9, 0x4)], 4, .none, [⟨.ro, fun ix => RGN_DIE_PWR.SHED (ix.getD 0 0) (ix.getD 1 0), none⟩,
    ⟨.ro, fun ix => RGN_DIE_PWR.LIMIT (ix.getD 0 0) (ix.getD 1 0), none⟩]⟩,
  ⟨0x1000000, [(144, 0x10000), (256, 0x80), (13, 0x8)], 8, .w1cOnly, [⟨.ro, fun ix => CD_PERF.COUNT (ix.getD 0 0) (ix.getD 1 0) (ix.getD 2 0), none⟩]⟩,
  ⟨0x1000068, [(144, 0x10000), (256, 0x80)], 4, .w1cOnly, [⟨.w1c, fun ix => CD_PERF_WRAP.WRAP (ix.getD 0 0) (ix.getD 1 0), none⟩]⟩,
  ⟨0x100006C, [(144, 0x10000), (256, 0x80)], 4, .w1cOnly, [⟨.ro, fun ix => CD_HLTH_STRERR.COUNT (ix.getD 0 0) (ix.getD 1 0), none⟩]⟩,
  ⟨0x1000070, [(144, 0x10000), (256, 0x80)], 4, .w1cOnly, [⟨.ro, fun ix => CD_HLTH_MXCE.COUNT (ix.getD 0 0) (ix.getD 1 0), none⟩]⟩,
  ⟨0x1000074, [(144, 0x10000), (256, 0x80)], 4, .w1cOnly, [⟨.ro, fun ix => CD_HLTH_STAT.STRERR_SAT (ix.getD 0 0) (ix.getD 1 0), none⟩,
    ⟨.ro, fun ix => CD_HLTH_STAT.MXCE_SAT (ix.getD 0 0) (ix.getD 1 0), none⟩,
    ⟨.wo, fun ix => CD_HLTH_STAT.CLR (ix.getD 0 0) (ix.getD 1 0), none⟩]⟩,
  ⟨0x1008000, [(144, 0x10000), (256, 0x10)], 4, .none, [⟨.ro, fun ix => CD_CORE_STATE.T0_STATE (ix.getD 0 0) (ix.getD 1 0), none⟩,
    ⟨.ro, fun ix => CD_CORE_STATE.T1_STATE (ix.getD 0 0) (ix.getD 1 0), none⟩,
    ⟨.ro, fun ix => CD_CORE_STATE.T2_STATE (ix.getD 0 0) (ix.getD 1 0), none⟩,
    ⟨.ro, fun ix => CD_CORE_STATE.T3_STATE (ix.getD 0 0) (ix.getD 1 0), none⟩,
    ⟨.ro, fun ix => CD_CORE_STATE.FENCED (ix.getD 0 0) (ix.getD 1 0), none⟩,
    ⟨.ro, fun ix => CD_CORE_STATE.DONE (ix.getD 0 0) (ix.getD 1 0), none⟩,
    ⟨.ro, fun ix => CD_CORE_STATE.BAR_PEND (ix.getD 0 0) (ix.getD 1 0), none⟩]⟩,
  ⟨0x1008004, [(144, 0x10000), (256, 0x10)], 4, .none, [⟨.ro, fun ix => CD_CORE_TRAP.CAUSE (ix.getD 0 0) (ix.getD 1 0), none⟩,
    ⟨.ro, fun ix => CD_CORE_TRAP.TASK (ix.getD 0 0) (ix.getD 1 0), none⟩,
    ⟨.ro, fun ix => CD_CORE_TRAP.MULTI (ix.getD 0 0) (ix.getD 1 0), none⟩,
    ⟨.w1c, fun ix => CD_CORE_TRAP.VALID (ix.getD 0 0) (ix.getD 1 0), none⟩,
    ⟨.ro, fun ix => CD_CORE_TRAP.DETAIL (ix.getD 0 0) (ix.getD 1 0), none⟩,
    ⟨.ro, fun ix => CD_CORE_TRAP.CODE (ix.getD 0 0) (ix.getD 1 0), none⟩]⟩,
  ⟨0x1008008, [(144, 0x10000), (256, 0x10)], 4, .none, [⟨.ro, fun ix => CD_CORE_TRAPPC.PC (ix.getD 0 0) (ix.getD 1 0), none⟩]⟩,
  ⟨0x100800C, [(144, 0x10000), (256, 0x10)], 4, .none, [⟨.ro, fun ix => CD_CORE_TRAPADDR.ADDR (ix.getD 0 0) (ix.getD 1 0), none⟩]⟩,
  ⟨0x1009000, [(144, 0x10000)], 4, .none, [⟨.ro, fun ix => CD_CLK_STAT.REFSEL (ix.getD 0 0), none⟩,
    ⟨.ro, fun ix => CD_CLK_STAT.A_OK (ix.getD 0 0), none⟩,
    ⟨.ro, fun ix => CD_CLK_STAT.B_OK (ix.getD 0 0), none⟩,
    ⟨.ro, fun ix => CD_CLK_STAT.PLL_LOCK (ix.getD 0 0), none⟩,
    ⟨.ro, fun ix => CD_CLK_STAT.PT_LOCK (ix.getD 0 0), none⟩,
    ⟨.ro, fun ix => CD_CLK_STAT.HOLDOVER (ix.getD 0 0), none⟩,
    ⟨.ro, fun ix => CD_CLK_STAT.SWITCHES (ix.getD 0 0), none⟩]⟩,
  ⟨0x1009004, [(144, 0x10000)], 4, .none, [⟨.rw, fun ix => CD_CLK_CFG.DROOP1 (ix.getD 0 0), none⟩,
    ⟨.rw, fun ix => CD_CLK_CFG.DROOP_STEP (ix.getD 0 0), some (1, 255, 1, 1)⟩,
    ⟨.rw, fun ix => CD_CLK_CFG.RPL_WARN (ix.getD 0 0), none⟩]⟩,
  ⟨0x1009008, [(144, 0x10000)], 4, .none, [⟨.ro, fun ix => CD_CLK_PTOFS.OFS (ix.getD 0 0), none⟩]⟩,
  ⟨0x1009100, [(144, 0x10000), (16, 0x10)], 4, .none, [⟨.ro, fun ix => CD_CLK_CL.LEVEL (ix.getD 0 0) (ix.getD 1 0), none⟩,
    ⟨.rw, fun ix => CD_CLK_CL.PFLOOR (ix.getD 0 0) (ix.getD 1 0), some (0, 5, 0, 5)⟩,
    ⟨.rw, fun ix => CD_CLK_CL.RFLOOR (ix.getD 0 0) (ix.getD 1 0), some (0, 5, 0, 5)⟩]⟩,
  ⟨0x1009108, [(144, 0x10000), (16, 0x10)], 8, .none, [⟨.ro, fun ix => CD_CLK_STR.COUNT (ix.getD 0 0) (ix.getD 1 0), none⟩]⟩,
  ⟨0x1009400, [(144, 0x10000), (256, 0x4)], 4, .none, [⟨.ro, fun ix => CD_CLK_RPL.SLACK (ix.getD 0 0) (ix.getD 1 0), none⟩,
    ⟨.ro, fun ix => CD_CLK_RPL.MIN (ix.getD 0 0) (ix.getD 1 0), none⟩,
    ⟨.ro, fun ix => CD_CLK_RPL.WARN (ix.getD 0 0) (ix.getD 1 0), none⟩,
    ⟨.wo, fun ix => CD_CLK_RPL.MIN_CLR (ix.getD 0 0) (ix.getD 1 0), none⟩]⟩,
  ⟨0x100A000, [(144, 0x10000), (256, 0x20), (6, 0x4)], 4, .pf, [⟨.rw, fun ix => CD_SP_LINMAP.LINEAR (ix.getD 0 0) (ix.getD 1 0) (ix.getD 2 0), none⟩]⟩,
  ⟨0x100A018, [(144, 0x10000), (256, 0x20)], 4, .pf, [⟨.ro, fun ix => CD_SP_CE.COUNT (ix.getD 0 0) (ix.getD 1 0), none⟩]⟩,
  ⟨0x100A01C, [(144, 0x10000), (256, 0x20)], 4, .pf, [⟨.ro, fun ix => CD_SP_STAT.CE_BANK (ix.getD 0 0) (ix.getD 1 0), none⟩,
    ⟨.ro, fun ix => CD_SP_STAT.CE_ROW (ix.getD 0 0) (ix.getD 1 0), none⟩,
    ⟨.ro, fun ix => CD_SP_STAT.CE_SAT (ix.getD 0 0) (ix.getD 1 0), none⟩,
    ⟨.wo, fun ix => CD_SP_STAT.CE_CLR (ix.getD 0 0) (ix.getD 1 0), none⟩,
    ⟨.w1c, fun ix => CD_SP_STAT.UE (ix.getD 0 0) (ix.getD 1 0), none⟩,
    ⟨.ro, fun ix => CD_SP_STAT.UE_CNT (ix.getD 0 0) (ix.getD 1 0), none⟩,
    ⟨.ro, fun ix => CD_SP_STAT.UE_BANK (ix.getD 0 0) (ix.getD 1 0), none⟩,
    ⟨.ro, fun ix => CD_SP_STAT.UE_ROW (ix.getD 0 0) (ix.getD 1 0), none⟩]⟩,
  ⟨0x100C000, [(144, 0x10000), (256, 0x8)], 4, .pf, [⟨.w1c, fun ix => CD_CNT_WRAP_LO.WRAP (ix.getD 0 0) (ix.getD 1 0), none⟩]⟩]

/-- The registers of the map, part 10. -/
def regRows9 : List RegRow := [
  ⟨0x100C004, [(144, 0x10000), (256, 0x8)], 4, .pf, [⟨.w1c, fun ix => CD_CNT_WRAP_HI.WRAP (ix.getD 0 0) (ix.getD 1 0), none⟩]⟩,
  ⟨0x100C800, [(144, 0x10000), (16, 0x8)], 8, .none, [⟨.ro, fun ix => CD_THM_CL.DIODE (ix.getD 0 0) (ix.getD 1 0), none⟩,
    ⟨.ro, fun ix => CD_THM_CL.RING (ix.getD 0 0) (ix.getD 1 0), none⟩,
    ⟨.ro, fun ix => CD_THM_CL.GOV (ix.getD 0 0) (ix.getD 1 0), none⟩,
    ⟨.ro, fun ix => CD_THM_CL.DIODE_OK (ix.getD 0 0) (ix.getD 1 0), none⟩,
    ⟨.ro, fun ix => CD_THM_CL.RING_OK (ix.getD 0 0) (ix.getD 1 0), none⟩,
    ⟨.ro, fun ix => CD_THM_CL.HELD (ix.getD 0 0) (ix.getD 1 0), none⟩]⟩,
  ⟨0x100CC00, [(144, 0x10000), (4, 0x8)], 8, .w1cOnly, [⟨.ro, fun ix => CD_NET_TX.COUNT (ix.getD 0 0) (ix.getD 1 0), none⟩]⟩,
  ⟨0x100CC20, [(144, 0x10000)], 8, .w1cOnly, [⟨.ro, fun ix => CD_REG_ENERGY.COUNT (ix.getD 0 0), none⟩]⟩,
  ⟨0x100CC28, [(144, 0x10000)], 4, .w1cOnly, [⟨.w1c, fun ix => CD_PERF_DWRAP.NET_WRAP (ix.getD 0 0), none⟩,
    ⟨.w1c, fun ix => CD_PERF_DWRAP.ENERGY_WRAP (ix.getD 0 0), none⟩,
    ⟨.w1c, fun ix => CD_PERF_DWRAP.STR_WRAP (ix.getD 0 0), none⟩]⟩,
  ⟨0x100CC2C, [(144, 0x10000)], 4, .w1cOnly, [⟨.ro, fun ix => CD_NET_CE.COUNT (ix.getD 0 0), none⟩]⟩,
  ⟨0x100CC30, [(144, 0x10000)], 4, .w1cOnly, [⟨.ro, fun ix => CD_THM_DISAG.COUNT (ix.getD 0 0), none⟩]⟩,
  ⟨0x100CC34, [(144, 0x10000)], 4, .w1cOnly, [⟨.ro, fun ix => CD_DIE_HSTAT.NET_CE_SAT (ix.getD 0 0), none⟩,
    ⟨.ro, fun ix => CD_DIE_HSTAT.DISAG_SAT (ix.getD 0 0), none⟩,
    ⟨.wo, fun ix => CD_DIE_HSTAT.CLR (ix.getD 0 0), none⟩]⟩,
  ⟨0x100D000, [(144, 0x10000)], 4, .none, [⟨.ro, fun ix => CD_RT_CTL.ACTIVE (ix.getD 0 0), none⟩,
    ⟨.wo, fun ix => CD_RT_CTL.FLIP (ix.getD 0 0), none⟩,
    ⟨.ro, fun ix => CD_RT_CTL.PEND (ix.getD 0 0), none⟩]⟩,
  ⟨0x100D004, [(144, 0x10000)], 4, .none, [⟨.rw, fun ix => CD_RT_VER.VER0 (ix.getD 0 0), none⟩,
    ⟨.rw, fun ix => CD_RT_VER.VER1 (ix.getD 0 0), none⟩]⟩,
  ⟨0x100D008, [(144, 0x10000)], 4, .none, [⟨.ro, fun ix => CD_RT_SEAM.E (ix.getD 0 0), none⟩,
    ⟨.ro, fun ix => CD_RT_SEAM.N (ix.getD 0 0), none⟩,
    ⟨.ro, fun ix => CD_RT_SEAM.W (ix.getD 0 0), none⟩,
    ⟨.ro, fun ix => CD_RT_SEAM.S (ix.getD 0 0), none⟩]⟩,
  ⟨0x100D00C, [(144, 0x10000)], 4, .none, [⟨.ro, fun ix => CD_MC_REFUSE.COUNT (ix.getD 0 0), none⟩]⟩,
  ⟨0x100D010, [(144, 0x10000)], 4, .none, [⟨.rw, fun ix => CD_SYNC_TREE.PARENT (ix.getD 0 0), none⟩,
    ⟨.rw, fun ix => CD_SYNC_TREE.CHILD (ix.getD 0 0), none⟩]⟩,
  ⟨0x100D014, [(144, 0x10000)], 4, .none, [⟨.w1c, fun ix => CD_NET_ERR.CE (ix.getD 0 0), none⟩,
    ⟨.w1c, fun ix => CD_NET_ERR.UE (ix.getD 0 0), none⟩,
    ⟨.w1c, fun ix => CD_NET_ERR.DROP (ix.getD 0 0), none⟩,
    ⟨.ro, fun ix => CD_NET_ERR.MC_SAT (ix.getD 0 0), none⟩,
    ⟨.ro, fun ix => CD_NET_ERR.DROP_STATUS (ix.getD 0 0), none⟩]⟩,
  ⟨0x100D020, [(144, 0x10000), (8, 0x4)], 4, .none, [⟨.rw, fun ix => CD_SYNC_EXP.EXP (ix.getD 0 0) (ix.getD 1 0), none⟩]⟩,
  ⟨0x100D100, [(144, 0x10000), (49, 0x4)], 4, .none, [⟨.rw, fun ix => CD_RT_FT0.E0 (ix.getD 0 0) (ix.getD 1 0), none⟩,
    ⟨.rw, fun ix => CD_RT_FT0.E1 (ix.getD 0 0) (ix.getD 1 0), none⟩,
    ⟨.rw, fun ix => CD_RT_FT0.E2 (ix.getD 0 0) (ix.getD 1 0), none⟩,
    ⟨.rw, fun ix => CD_RT_FT0.E3 (ix.getD 0 0) (ix.getD 1 0), none⟩]⟩,
  ⟨0x100D200, [(144, 0x10000), (49, 0x4)], 4, .none, [⟨.rw, fun ix => CD_RT_FT1.E0 (ix.getD 0 0) (ix.getD 1 0), none⟩,
    ⟨.rw, fun ix => CD_RT_FT1.E1 (ix.getD 0 0) (ix.getD 1 0), none⟩,
    ⟨.rw, fun ix => CD_RT_FT1.E2 (ix.getD 0 0) (ix.getD 1 0), none⟩,
    ⟨.rw, fun ix => CD_RT_FT1.E3 (ix.getD 0 0) (ix.getD 1 0), none⟩]⟩,
  ⟨0x100D400, [(144, 0x10000)], 4, .none, [⟨.rw, fun ix => CD_RED_CTL.HOLD (ix.getD 0 0), none⟩,
    ⟨.rw, fun ix => CD_RED_CTL.DIS (ix.getD 0 0), none⟩]⟩,
  ⟨0x100D404, [(144, 0x10000)], 4, .none, [⟨.ro, fun ix => CD_RED_COMB.COUNT (ix.getD 0 0), none⟩]⟩,
  ⟨0x100D408, [(144, 0x10000)], 4, .none, [⟨.ro, fun ix => CD_RED_NOENT.COUNT (ix.getD 0 0), none⟩]⟩]

/-- The registers of the map, part 11. -/
def regRows10 : List RegRow := [
  ⟨0x100D40C, [(144, 0x10000)], 4, .none, [⟨.ro, fun ix => CD_SYNC_PHASE.PHASE (ix.getD 0 0), none⟩]⟩,
  ⟨0x100D500, [(144, 0x10000), (4, 0x10)], 4, .none, [⟨.ro, fun ix => CD_LNK_STAT.MODE (ix.getD 0 0) (ix.getD 1 0), none⟩,
    ⟨.ro, fun ix => CD_LNK_STAT.MIN_EYE (ix.getD 0 0) (ix.getD 1 0), none⟩,
    ⟨.ro, fun ix => CD_LNK_STAT.MIN_GROUP (ix.getD 0 0) (ix.getD 1 0), none⟩,
    ⟨.ro, fun ix => CD_LNK_STAT.SPARES_LOW (ix.getD 0 0) (ix.getD 1 0), none⟩,
    ⟨.ro, fun ix => CD_LNK_STAT.TRAINING (ix.getD 0 0) (ix.getD 1 0), none⟩]⟩,
  ⟨0x100D504, [(144, 0x10000), (4, 0x10)], 4, .none, [⟨.wo, fun ix => CD_LNK_CTL.RETRAIN (ix.getD 0 0) (ix.getD 1 0), none⟩,
    ⟨.rw, fun ix => CD_LNK_CTL.FORCE_COMPAT (ix.getD 0 0) (ix.getD 1 0), none⟩]⟩,
  ⟨0x100D508, [(144, 0x10000), (4, 0x10)], 4, .none, [⟨.ro, fun ix => CD_LNK_ERR.REPAIRS (ix.getD 0 0) (ix.getD 1 0), none⟩,
    ⟨.ro, fun ix => CD_LNK_ERR.RESENDS (ix.getD 0 0) (ix.getD 1 0), none⟩]⟩,
  ⟨0x100D800, [(144, 0x10000)], 4, .none, [⟨.rw, fun ix => CD_STORE_CFG.PMODE (ix.getD 0 0), none⟩]⟩,
  ⟨0x100D804, [(144, 0x10000)], 4, .none, [⟨.rw, fun ix => CD_STORE_LOST_LO.LOST (ix.getD 0 0), none⟩]⟩,
  ⟨0x100D808, [(144, 0x10000)], 4, .none, [⟨.rw, fun ix => CD_STORE_LOST_HI.LOST (ix.getD 0 0), none⟩]⟩,
  ⟨0x100D900, [(144, 0x10000), (48, 0x4)], 4, .none, [⟨.rw, fun ix => CD_SEG_MAP.ASSIGNED (ix.getD 0 0) (ix.getD 1 0), none⟩,
    ⟨.rw, fun ix => CD_SEG_MAP.SHARED (ix.getD 0 0) (ix.getD 1 0), none⟩,
    ⟨.rw, fun ix => CD_SEG_MAP.MODE (ix.getD 0 0) (ix.getD 1 0), none⟩,
    ⟨.rw, fun ix => CD_SEG_MAP.OWNER (ix.getD 0 0) (ix.getD 1 0), none⟩]⟩,
  ⟨0x100E000, [(144, 0x10000)], 4, .none, [⟨.rw, fun ix => CD_PMAP_GRID.GX (ix.getD 0 0), none⟩,
    ⟨.rw, fun ix => CD_PMAP_GRID.GY (ix.getD 0 0), none⟩,
    ⟨.rw, fun ix => CD_PMAP_GRID.HEAVY (ix.getD 0 0), none⟩]⟩,
  ⟨0x100E004, [(144, 0x10000)], 4, .none, [⟨.rw, fun ix => CD_PMAP_CNT.NREC (ix.getD 0 0), none⟩,
    ⟨.rw, fun ix => CD_PMAP_CNT.NSTRAY (ix.getD 0 0), none⟩]⟩,
  ⟨0x100E400, [(144, 0x10000), (256, 0x4)], 4, .none, [⟨.rw, fun ix => CD_PMAP_STRAY.VX (ix.getD 0 0) (ix.getD 1 0), none⟩,
    ⟨.rw, fun ix => CD_PMAP_STRAY.VY (ix.getD 0 0) (ix.getD 1 0), none⟩,
    ⟨.rw, fun ix => CD_PMAP_STRAY.PX (ix.getD 0 0) (ix.getD 1 0), none⟩,
    ⟨.rw, fun ix => CD_PMAP_STRAY.PY (ix.getD 0 0) (ix.getD 1 0), none⟩]⟩,
  ⟨0x100F000, [(144, 0x10000), (512, 0x8)], 8, .none, [⟨.rw, fun ix => CD_PMAP_REC.VX0 (ix.getD 0 0) (ix.getD 1 0), none⟩,
    ⟨.rw, fun ix => CD_PMAP_REC.VY0 (ix.getD 0 0) (ix.getD 1 0), none⟩,
    ⟨.rw, fun ix => CD_PMAP_REC.WM1 (ix.getD 0 0) (ix.getD 1 0), none⟩,
    ⟨.rw, fun ix => CD_PMAP_REC.HM1 (ix.getD 0 0) (ix.getD 1 0), none⟩,
    ⟨.rw, fun ix => CD_PMAP_REC.PX0 (ix.getD 0 0) (ix.getD 1 0), none⟩,
    ⟨.rw, fun ix => CD_PMAP_REC.PY0 (ix.getD 0 0) (ix.getD 1 0), none⟩]⟩,
  ⟨0x2000000, [(2, 0x10000)], 4, .none, [⟨.ro, fun ix => GS_STAT.STATE (ix.getD 0 0), none⟩,
    ⟨.ro, fun ix => GS_STAT.MODE (ix.getD 0 0), none⟩,
    ⟨.ro, fun ix => GS_STAT.RATE (ix.getD 0 0), none⟩,
    ⟨.ro, fun ix => GS_STAT.X8 (ix.getD 0 0), none⟩,
    ⟨.ro, fun ix => GS_STAT.CAUSE (ix.getD 0 0), none⟩,
    ⟨.w1c, fun ix => GS_STAT.MBOX_DONE (ix.getD 0 0), none⟩,
    ⟨.w1c, fun ix => GS_STAT.MBOX_TMO (ix.getD 0 0), none⟩]⟩,
  ⟨0x2000004, [(2, 0x10000)], 4, .pf, [⟨.wo, fun ix => GS_CTL.READMIT (ix.getD 0 0), none⟩,
    ⟨.wo, fun ix => GS_CTL.MBOX_GO (ix.getD 0 0), none⟩]⟩,
  ⟨0x2000008, [(2, 0x10000)], 4, .pf, [⟨.rwl, fun ix => GS_CFG.PART (ix.getD 0 0), none⟩]⟩,
  ⟨0x200000C, [(2, 0x10000)], 4, .none, [⟨.ro, fun ix => GS_ERR.DROPPED (ix.getD 0 0), none⟩,
    ⟨.ro, fun ix => GS_ERR.EXTENT (ix.getD 0 0), none⟩]⟩,
  ⟨0x2000020, [(2, 0x10000), (8, 0x4)], 4, .none, [⟨.ro, fun ix => GS_CAP.CAP (ix.getD 0 0) (ix.getD 1 0), none⟩]⟩,
  ⟨0x2000040, [(2, 0x10000), (8, 0x10)], 8, .pf, [⟨.rwl, fun ix => GS_WIN_BASE.BASE (ix.getD 0 0) (ix.getD 1 0), none⟩]⟩,
  ⟨0x2000048, [(2, 0x10000), (8, 0x10)], 4, .pf, [⟨.rwl, fun ix => GS_WIN_SIZE.SIZE (ix.getD 0 0) (ix.getD 1 0), none⟩]⟩,
  ⟨0x200004C, [(2, 0x10000), (8, 0x10)], 4, .pf, [⟨.rwl, fun ix => GS_WIN_CTL.RD (ix.getD 0 0) (ix.getD 1 0), none⟩,
    ⟨.rwl, fun ix => GS_WIN_CTL.WR (ix.getD 0 0) (ix.getD 1 0), none⟩,
    ⟨.rwl, fun ix => GS_WIN_CTL.EN (ix.getD 0 0) (ix.getD 1 0), none⟩]⟩]

/-- The registers of the map, part 12. -/
def regRows11 : List RegRow := [
  ⟨0x2000100, [(2, 0x10000), (16, 0x4)], 4, .pf, [⟨.rw, fun ix => GS_MBOX.DATA (ix.getD 0 0) (ix.getD 1 0), none⟩]⟩,
  ⟨0x2000140, [(2, 0x10000), (16, 0x4)], 4, .none, [⟨.ro, fun ix => GS_MBOX_RSP.DATA (ix.getD 0 0) (ix.getD 1 0), none⟩]⟩,
  ⟨0x3000000, [], 4, .pf, [⟨.rwl, fun _ => SETUP_LOCK.LOCK, none⟩,
    ⟨.ro, fun _ => SETUP_LOCK.PENDING, none⟩,
    ⟨.ro, fun _ => SETUP_LOCK.BY, none⟩,
    ⟨.ro, fun _ => SETUP_LOCK.BY_FW, none⟩]⟩,
  ⟨0x3000008, [], 8, .none, [⟨.ro, fun _ => GLB_LOCK_TIME.TIME, none⟩]⟩,
  ⟨0x3002000, [], 4, .pf, [⟨.ro, fun _ => GLB_DLR_STAT.AVAIL, none⟩,
    ⟨.ro, fun _ => GLB_DLR_STAT.FOLDED, none⟩]⟩,
  ⟨0x3002004, [], 4, .pf, [⟨.ro, fun _ => GLB_DLR_HOLE.HOLECORES, none⟩,
    ⟨.ro, fun _ => GLB_DLR_HOLE.GUAR, none⟩]⟩,
  ⟨0x3002008, [], 4, .pf, [⟨.rwl, fun _ => GLB_DLR_CTL.KITTY_WARN, none⟩,
    ⟨.rw, fun _ => GLB_DLR_CTL.SHUF_EN, none⟩]⟩,
  ⟨0x3002100, [(16, 0x10)], 4, .pf, [⟨.ro, fun ix => GLB_DLR_PART0.AVAIL (ix.getD 0 0), none⟩,
    ⟨.ro, fun ix => GLB_DLR_PART0.PLACED (ix.getD 0 0), none⟩]⟩,
  ⟨0x3002104, [(16, 0x10)], 4, .pf, [⟨.ro, fun ix => GLB_DLR_PART1.KITTY (ix.getD 0 0), none⟩,
    ⟨.ro, fun ix => GLB_DLR_PART1.NSTRAY (ix.getD 0 0), none⟩]⟩,
  ⟨0x3002108, [(16, 0x10)], 4, .pf, [⟨.ro, fun ix => GLB_DLR_PART2.LAYER (ix.getD 0 0), none⟩]⟩,
  ⟨0x300210C, [(16, 0x10)], 4, .pf, [⟨.ro, fun ix => GLB_DLR_PART3.VALID (ix.getD 0 0), none⟩,
    ⟨.ro, fun ix => GLB_DLR_PART3.STALE (ix.getD 0 0), none⟩,
    ⟨.ro, fun ix => GLB_DLR_PART3.RUNNING (ix.getD 0 0), none⟩,
    ⟨.ro, fun ix => GLB_DLR_PART3.SINCE (ix.getD 0 0), none⟩]⟩,
  ⟨0x3003000, [], 4, .pf, [⟨.rwl, fun _ => GLB_LNK_CFG.TRAIN_EYE, none⟩,
    ⟨.rwl, fun _ => GLB_LNK_CFG.REPAIR_EYE, none⟩,
    ⟨.rwl, fun _ => GLB_LNK_CFG.RESEND_MAX, none⟩]⟩,
  ⟨0x3003100, [(288, 0x4)], 4, .none, [⟨.ro, fun ix => GLB_SKIP.STATE (ix.getD 0 0), none⟩,
    ⟨.ro, fun ix => GLB_SKIP.SPARES_LOW (ix.getD 0 0), none⟩]⟩,
  ⟨0x3004000, [], 4, .none, [⟨.ro, fun _ => GLB_RCV_GEN.GEN, none⟩]⟩,
  ⟨0x3004004, [], 4, .none, [⟨.ro, fun _ => GLB_RCV_STAT.ACTIVE, none⟩,
    ⟨.ro, fun _ => GLB_RCV_STAT.CLASS, none⟩,
    ⟨.ro, fun _ => GLB_RCV_STAT.RESUME_MS, none⟩]⟩,
  ⟨0x3004008, [], 4, .pf, [⟨.rwl, fun _ => GLB_FOLD_CFG.CE_THR, none⟩,
    ⟨.rwl, fun _ => GLB_FOLD_CFG.DIE_RETRY, none⟩]⟩,
  ⟨0x3004010, [], 4, .none, [⟨.ro, fun _ => GLB_STW_STAT.ACTIVE_SD, none⟩,
    ⟨.ro, fun _ => GLB_STW_STAT.STANDBY_OK, none⟩,
    ⟨.ro, fun _ => GLB_STW_STAT.LOST_BOTH, none⟩,
    ⟨.ro, fun _ => GLB_STW_STAT.FAILOVERS, none⟩]⟩,
  ⟨0x3004020, [(5, 0x4)], 4, .none, [⟨.ro, fun ix => GLB_HOLE_DIE.HOLE (ix.getD 0 0), none⟩]⟩,
  ⟨0x3004034, [], 4, .none, [⟨.ro, fun _ => GLB_HOLE_RGN.HOLE, none⟩]⟩,
  ⟨0x3004100, [(16, 0x4)], 4, .none, [⟨.ro, fun ix => GLB_RCV_PART.LOSS_PENDING (ix.getD 0 0), none⟩,
    ⟨.ro, fun ix => GLB_RCV_PART.REPLAYING (ix.getD 0 0), none⟩]⟩]

/-- The registers of the map, part 13. -/
def regRows12 : List RegRow := [
  ⟨0x3006000, [(1152, 0x4)], 4, .none, [⟨.ro, fun ix => GLB_FOLD_MAP.FOLDED (ix.getD 0 0), none⟩]⟩,
  ⟨0x4000100, [(12, 0x400)], 4, .i3c, [⟨.rw, fun ix => ELS_CTL.LASER_EN (ix.getD 0 0), none⟩,
    ⟨.rw, fun ix => ELS_CTL.IND (ix.getD 0 0), none⟩]⟩,
  ⟨0x4000104, [(12, 0x400)], 4, .i3c, [⟨.ro, fun ix => ELS_STAT.ILK_A (ix.getD 0 0), none⟩,
    ⟨.ro, fun ix => ELS_STAT.ILK_B (ix.getD 0 0), none⟩,
    ⟨.ro, fun ix => ELS_STAT.LOCKED (ix.getD 0 0), none⟩,
    ⟨.ro, fun ix => ELS_STAT.SPARED (ix.getD 0 0), none⟩,
    ⟨.ro, fun ix => ELS_STAT.FAILED (ix.getD 0 0), none⟩]⟩,
  ⟨0x4000110, [(12, 0x400), (8, 0x8)], 8, .i3c, [⟨.ro, fun ix => ELS_LAS.BIAS (ix.getD 0 0) (ix.getD 1 0), none⟩,
    ⟨.ro, fun ix => ELS_LAS.COOLER (ix.getD 0 0) (ix.getD 1 0), none⟩,
    ⟨.ro, fun ix => ELS_LAS.ON_SPARE (ix.getD 0 0) (ix.getD 1 0), none⟩,
    ⟨.ro, fun ix => ELS_LAS.SPARE_FAIL (ix.getD 0 0) (ix.getD 1 0), none⟩]⟩,
  ⟨0x4000150, [(12, 0x400), (4, 0x4)], 4, .i3c, [⟨.ro, fun ix => ELS_FEED.FEEDlo (ix.getD 0 0) (ix.getD 1 0), none⟩,
    ⟨.ro, fun ix => ELS_FEED.FEEDhi (ix.getD 0 0) (ix.getD 1 0), none⟩]⟩,
  ⟨0x4010100, [(20, 0x400)], 4, .i3c, [⟨.rw, fun ix => CT_CTL.OUT_EN (ix.getD 0 0), none⟩,
    ⟨.wo, fun ix => CT_CTL.RETRY (ix.getD 0 0), none⟩,
    ⟨.rw, fun ix => CT_CTL.IND (ix.getD 0 0), none⟩]⟩,
  ⟨0x4010104, [(20, 0x400)], 4, .i3c, [⟨.ro, fun ix => CT_STAT.STATE (ix.getD 0 0), none⟩,
    ⟨.ro, fun ix => CT_STAT.ANTE_REQ (ix.getD 0 0), none⟩,
    ⟨.ro, fun ix => CT_STAT.PHASE_OK (ix.getD 0 0), none⟩,
    ⟨.ro, fun ix => CT_STAT.SLOT (ix.getD 0 0), none⟩]⟩,
  ⟨0x4010108, [(20, 0x400)], 8, .i3c, [⟨.ro, fun ix => CT_IN.VIN_A (ix.getD 0 0), none⟩,
    ⟨.ro, fun ix => CT_IN.VIN_B (ix.getD 0 0), none⟩,
    ⟨.ro, fun ix => CT_IN.IIN_A (ix.getD 0 0), none⟩,
    ⟨.ro, fun ix => CT_IN.IIN_B (ix.getD 0 0), none⟩]⟩,
  ⟨0x4010110, [(20, 0x400)], 4, .i3c, [⟨.ro, fun ix => CT_OUT.POUT (ix.getD 0 0), none⟩]⟩]

/-- Every register of the map. -/
def regRows : List RegRow := regRows0 ++ regRows1 ++ regRows2 ++ regRows3 ++ regRows4 ++ regRows5 ++ regRows6 ++ regRows7 ++ regRows8 ++ regRows9 ++ regRows10 ++ regRows11 ++ regRows12

/-- The indexes of offset `off` under a row's dimensions, and the byte within the register; none where it lies outside. -/
def RegRow.locate : List (Nat × Nat) → Nat → Option (List Nat × Nat)
  | [], r => some ([], r)
  | (n, st) :: t, r =>
    if r / st < n then (RegRow.locate t (r % st)).map (fun p => (r / st :: p.1, p.2)) else none

/-- Where offset `off` lies in a register: its indexes and the byte within it. -/
def RegRow.at? (row : RegRow) (off : Nat) : Option (List Nat × Nat) :=
  if off < row.base then none
  else match RegRow.locate row.dims (off - row.base) with
    | some (ix, b) => if b < row.bytes then some (ix, b) else none
    | none => none

/-- The register that an offset names, its indexes, and the byte within it (R646: none where no chapter defines it). -/
def findReg : List RegRow → Nat → Option (RegRow × List Nat × Nat)
  | [], _ => none
  | row :: t, off =>
    match row.at? off with
    | some (ix, b) => some (row, ix, b)
    | none => findReg t off

/-- A field's value. -/
def State.rd (s : State) (f : Field) : Nat := Nat.xor (Tab.get 0 s.regs f.key) f.reset % 2 ^ f.w

/-- The state with a field's value replaced; bits above the field's width are dropped. -/
def State.wr (s : State) (f : Field) (v : Nat) : State :=
  { s with regs := Tab.set 0 s.regs f.key (Nat.xor (v % 2 ^ f.w) f.reset) }

/-- A one-bit field as a truth value. -/
def State.bit (s : State) (f : Field) : Bool := s.rd f = 1

/-- A field back at its reset value. -/
def State.rst (s : State) (f : Field) : State := s.wr f f.reset

/-- A counter field that saturates at all ones, `n` added (R577). -/
def State.sat (s : State) (f : Field) (n : Nat) : State := s.wr f (satTo (allOnes f.w) (s.rd f + n))

/-- Bit `i` of a field written with `b`. -/
def State.wrBit (s : State) (f : Field) (i : Nat) (b : Bool) : State := s.wr f (setBits (s.rd f) i 1 (b2n b))

end Sys2Proof.Machine
end

