-- ==== Sys2Proof/Machine/Parts.lean ====
section
/-! DEFINITION. Access to the parts of State, free values, the geometry of cores and nodes (R10 to R14, R183), and counters of the P and H kinds
(R577). -/

namespace Sys2Proof.Machine

/-- The outcome of a command. -/
abbrev Res := Host.Outcome State Fault Refusal

/-! ### Parts of State -/

def State.core (s : State) (c : Nat) : Core := Tab.get Core.reset s.cores c

def State.setCore (s : State) (c : Nat) (k : Core) : State := { s with cores := Tab.set Core.reset s.cores c k }

def State.updCore (s : State) (c : Nat) (f : Core → Core) : State := s.setCore c (f (s.core c))

def Core.task (k : Core) (i : Nat) : Task := Tab.get Task.reset k.tasks i

def Core.setTask (k : Core) (i : Nat) (t : Task) : Core := { k with tasks := Tab.set Task.reset k.tasks i t }

def State.task (s : State) (c i : Nat) : Task := (s.core c).task i

def State.setTask (s : State) (c i : Nat) (t : Task) : State := s.setCore c ((s.core c).setTask i t)

def State.updTask (s : State) (c i : Nat) (f : Task → Task) : State := s.setTask c i (f (s.task c i))

def State.router (s : State) (c : Nat) : Router := Tab.get Router.reset s.routers c

def State.setRouter (s : State) (c : Nat) (r : Router) : State := { s with routers := Tab.set Router.reset s.routers c r }

def State.updRouter (s : State) (c : Nat) (f : Router → Router) : State := s.setRouter c (f (s.router c))

def State.node (s : State) (n : Nat) : Node := Tab.get Node.reset s.net.nodes n

def State.setNode (s : State) (n : Nat) (x : Node) : State :=
  { s with net := { s.net with nodes := Tab.set Node.reset s.net.nodes n x } }

def State.updNode (s : State) (n : Nat) (f : Node → Node) : State := s.setNode n (f (s.node n))

def State.updNet (s : State) (f : Net → Net) : State := { s with net := f s.net }

def State.updHost (s : State) (f : HostSide → HostSide) : State := { s with host := f s.host }

def State.part (s : State) (p : Nat) : Part := Tab.get Part.reset s.parts p

def State.setPart (s : State) (p : Nat) (x : Part) : State := { s with parts := Tab.set Part.reset s.parts p x }

def State.updPart (s : State) (p : Nat) (f : Part → Part) : State := s.setPart p (f (s.part p))

/-- The panel sends or shows `o`. -/
def State.emit (s : State) (o : Out) : State := { s with out := o :: s.out }

/-- A free value of the machine (log entry 4) and the state that has drawn it. -/
def State.draw (s : State) : Nat × State := (Config.freeValue s.fresh, { s with fresh := s.fresh + 1 })

/-- Free values by index, drawn together. -/
def State.drawMany (s : State) : (Nat → Nat) × State := (Config.freePart s.fresh, { s with fresh := s.fresh + 1 })

/-! ### Geometry -/

/-- The die of a core, and its local index (R13). -/
def coreDie (c : Nat) : Nat := c / 256
def coreN (c : Nat) : Nat := c % 256

/-- The panel coordinates of a core (R13). -/
def coreX (c : Nat) : Nat := c / 256 % 12 * 16 + c % 16
def coreY (c : Nat) : Nat := c / 256 / 12 * 16 + c % 256 / 16

/-- The core at panel coordinates (R13). -/
def coreAt (x y : Nat) : Nat := (y / 16 * 12 + x / 16) * 256 + y % 16 * 16 + x % 16

/-- The region of a die: 3 × 3 dies each, numbered row by row (R11). -/
def regionOf (d : Nat) : Nat := d / 12 / 3 * 4 + d % 12 / 3

/-- The cluster of a core within its die: 4 × 4 cores each (R12). -/
def clusterOf (n : Nat) : Nat := n / 16 / 4 * 4 + n % 16 / 4

/-- Core `i` of 16 of a cluster. -/
def coreIn (cl i : Nat) : Nat := 16 * (4 * (cl / 4) + i / 4) + 4 * (cl % 4) + i % 4

/-- Is `d` a compute die? -/
def isDie (d : Nat) : Bool := decide (d < 144)

/-- The `i`-th die of a region, row by row (R11). -/
def regionDie (r i : Nat) : Nat := (r / 4 * 3 + i / 3) * 12 + r % 4 * 3 + i % 3

/-- Is die `d` a hole: itself, or its region (R569)? -/
def State.dieHole (s : State) (d : Nat) : Bool :=
  bitOf (s.rd (GLB_HOLE_DIE.HOLE (d / 32))) (d % 32) || bitOf (s.rd GLB_HOLE_RGN.HOLE) (regionOf d)

/-- The power state of a die's region (R491). -/
def State.rgnState (s : State) (r : Nat) : Nat := s.rd (RGN_PWR_STAT.STATE r)

/-- Is a compute die off or a hole, so that set-up accesses to it are answered ABSENT (R185)? -/
def State.dieAbsent (s : State) (d : Nat) : Bool := s.dieHole d || decide (4 ≤ s.rgnState (regionOf d))

/-- A node's panel time in units of 1/16 ns, and in ns (R457, R458): the root's, and the node's own offset from it. -/
def State.time16 (s : State) (n : Nat) : Nat := ((((s.ptime * 16 : Nat) : Int) + Tab.get 0 s.clk.ofs n) % ((2 ^ 68 : Nat) : Int)).toNat
def State.dieTime (s : State) (n : Nat) : Nat := s.time16 n / 16

/-- The node of the active steward: SD0 at ring stop 13, SD1 at ring stop 39 (R183, R189). -/
def State.stewardNode (s : State) : Nat := if s.bit GLB_STW_STAT.ACTIVE_SD then 183 else 157

/-! ### Placement of pages (R232 to R234) -/

/-- Stack and stack-local page of a page of an interleaved segment, parity mode off (R232). -/
def interleaved (p : Nat) : Nat × Nat := (p % 3 * 16 + Nat.xor (p / 3 % 16) (p / 48 % 16), p / 48)

/-- Stack and stack-local page in an edge-local segment (R233). -/
def edgeLocal (j a : Nat) : Nat × Nat :=
  let o := a - j * (48 * 2 ^ 30)
  let r := o / 2 ^ 32
  let q := o % 2 ^ 32 / 4096
  let st := match q % 4 with
    | 0 => 2 * r
    | 1 => 24 + 2 * r
    | 2 => 2 * r + 1
    | _ => 25 + 2 * r
  (st, j * 262144 + q / 4)

/-- Stack and stripe of a page with parity mode on (R234). -/
def parityPage (p : Nat) : Nat × Nat :=
  (12 * (p % 44 % 4) + (p / 44 % 12 + 1 + p % 44 / 4) % 12, p / 44)

/-- The stack that holds the parity of stripe `st` in group `g` (R234). -/
def parityStack (g st : Nat) : Nat := 12 * g + st % 12

/-- Where the parity pages stand in the model: past the store of parity mode, at addresses that are invalid then (R224). A page of parity has no local address;
its error marks have one (DESIGN CHOICE, log entry 95). -/
def parityBase : Nat := 0x021000000000

/-- The parity page of stripe `st` in group `g`. -/
def parityAddr (g st : Nat) : Nat := parityBase + (4 * st + g) * 4096

/-- Group and stripe of an address, of a data or of a parity page (R234). -/
def stripeOf (a : Nat) : Nat × Nat :=
  if a < parityBase then (a / 4096 % 44 % 4, a / 4096 / 44) else ((a - parityBase) / 4096 % 4, (a - parityBase) / 4096 / 4)

/-- The addresses at offset `o` of the 11 data pages of a stripe (R234). -/
def stripeData (g st o : Nat) : List Nat := (List.range 11).map (fun d => (44 * st + 4 * d + g) * 4096 + o)

/-- Stack of a page under a placement: 0 interleaved, 1 edge-local, 2 in parity mode. -/
def placedOn (kind a : Nat) : Nat :=
  if kind = 0 then (interleaved (a / 4096)).1 else if kind = 1 then (edgeLocal (a / (48 * 2 ^ 30)) a).1 else (parityPage (a / 4096)).1

/-! ### Counters (R577) -/

/-- A P counter `f` counts `n`: it wraps modulo 2^48 and sets its WRAP bit, which the unit's next COUNTER_WRAP counts. -/
def State.pcount (s : State) (unit : Nat) (f wrap : Field) (bit n : Nat) : State :=
  let t := s.rd f + n
  let s := s.wr f t
  if t < 2 ^ 48 then s
  else if bitOf (s.rd wrap) bit then s
  else
    let s := s.wrBit wrap bit true
    { s with tel := { s.tel with wraps := Tab.upd 0 s.tel.wraps unit (· + 1) } }

/-- An H counter `f` counts `n`: it saturates and sets its SAT bit at the largest value. -/
def State.hcount (s : State) (f sat : Field) (n : Nat) : State :=
  let s := s.sat f n
  if s.rd f = allOnes f.w then s.wr sat 1 else s

/-- The day counts `n` more at a key for the daily records (R593). -/
def State.dayCount (s : State) (key n : Nat) : State := { s with tel := { s.tel with day := Tab.upd 0 s.tel.day key (· + n) } }

/-- A core's performance counter `i` counts `n` (R581). -/
def State.perf (s : State) (c i n : Nat) : State :=
  s.pcount (coreDie c) (CD_PERF.COUNT (coreDie c) (coreN c) i) (CD_PERF_WRAP.WRAP (coreDie c) (coreN c)) i n

end Sys2Proof.Machine
end

