-- ==== Sys2Proof/Machine/Links.lean ====
section
/-! DEFINITION. Links between nodes (R16 to R25, R168): where each way of a die leads, which carry traffic, and what the fault tables permit. -/

namespace Sys2Proof.Machine

/-- Locations: a core's router is the core's ID, ring stop s is 36,864 + s. -/
def stopAt (st : Nat) : Nat := 36864 + st

/-- Panel coordinates of a die (R10). -/
def dieX (d : Nat) : Nat := d % 12
def dieY (d : Nat) : Nat := d / 12

/-- The node of hub MHk and of engine OEk: 144 + its ring stop (R20). -/
def hubNode (k : Nat) : Nat := if k < 12 then 144 + (51 - k) else 144 + (k + 2)
def engNode (k : Nat) : Nat := if k < 12 then 144 + (k + 1) else 144 + (50 - k)

/-- The ring stop of a hub or engine, and the reverse (R20). -/
def hubStop (k : Nat) : Nat := hubNode k - 144
def engStop (k : Nat) : Nat := engNode k - 144
def stopHub (s : Nat) : Option Nat :=
  if 14 ≤ s ∧ s ≤ 25 then some (s - 2) else if 40 ≤ s ∧ s ≤ 51 then some (51 - s) else none
def stopEng (s : Nat) : Option Nat :=
  if 1 ≤ s ∧ s ≤ 12 then some (s - 1) else if 27 ≤ s ∧ s ≤ 38 then some (50 - s) else none

/-- The node at panel position (x, y), which may lie one step outside the dies: a hub to the left or right, an engine below or
above (R16, R17). Positions are shifted by one, so that 0 and 13 are the perimeter. -/
def nodeAt (x1 y1 : Nat) : Option Nat :=
  if 1 ≤ x1 ∧ x1 ≤ 12 ∧ 1 ≤ y1 ∧ y1 ≤ 12 then some ((y1 - 1) * 12 + (x1 - 1))
  else if x1 = 0 ∧ 1 ≤ y1 ∧ y1 ≤ 12 then some (hubNode (y1 - 1))
  else if x1 = 13 ∧ 1 ≤ y1 ∧ y1 ≤ 12 then some (hubNode (y1 + 11))
  else if y1 = 0 ∧ 1 ≤ x1 ∧ x1 ≤ 12 then some (engNode (x1 - 1))
  else if y1 = 13 ∧ 1 ≤ x1 ∧ x1 ≤ 12 then some (engNode (x1 + 11))
  else none

/-- The node that a die's corner link leads to (R18). -/
def cornerNode (d : Nat) : Option Nat :=
  if d = 0 then some 144 else if d = 11 then some 157 else if d = 143 then some 170 else if d = 132 then some 183 else none

/-- The die at the other end of a corner die's corner link (R18). -/
def cornerDie (n : Nat) : Option Nat :=
  if n = 144 then some 0 else if n = 157 then some 11 else if n = 170 then some 143 else if n = 183 then some 132 else none

/-- Where way `w` of a die leads: 0 to 3 E, N, W, S; 4 to 7 the skip paths; 8 the corner link (R168). -/
def wayNode (d w : Nat) : Option Nat :=
  let x := dieX d + 1
  let y := dieY d + 1
  match w with
  | 0 => nodeAt (x + 1) y
  | 1 => nodeAt x (y + 1)
  | 2 => nodeAt (x - 1) y
  | 3 => nodeAt x (y - 1)
  | 4 => if x = 12 then none else nodeAt (x + 2) y
  | 5 => if y = 12 then none else nodeAt x (y + 2)
  | 6 => if x = 1 then none else nodeAt (x - 2) y
  | 7 => if y = 1 then none else nodeAt x (y - 2)
  | 8 => cornerNode d
  | _ => none

/-- The state of the seam or edge link of a die in direction 0 to 3 (R199). -/
def State.seam (s : State) (d w : Nat) : Nat :=
  match w with
  | 0 => s.rd (CD_RT_SEAM.E d)
  | 1 => s.rd (CD_RT_SEAM.N d)
  | 2 => s.rd (CD_RT_SEAM.W d)
  | _ => s.rd (CD_RT_SEAM.S d)

/-- The die that the skip path of way 4 to 7 passes over (R23). -/
def skipOver (d w : Nat) : Option Nat := wayNode d (w - 4)

/-- Is the unit of a perimeter node in service: a hub or an engine; the corner dies have no such mark (R262, R377)? -/
def State.perimIn (s : State) (n : Nat) : Bool :=
  match stopHub (n - 144), stopEng (n - 144) with
  | some k, _ => s.bit (MH_HUB_STAT.INSERVICE k)
  | none, some k => s.bit (OE_STAT.INSERVICE k)
  | none, none => true

/-- May way `w` of die `d` carry traffic: a seam or edge link native or compat to a node in service, a usable skip path over a
hole between units in service (R23, R24, R171), or the corner link, trained (R423). -/
def State.wayOk (s : State) (d w : Nat) : Bool :=
  match wayNode d w with
  | none => false
  | some n =>
    !((s.node d).stopped.contains w) && (if isDie n then !s.dieAbsent n else s.perimIn n) &&
    (if w < 4 then decide (s.seam d w ≤ 1)
     else if w < 8 then (match skipOver d w with
       | some o => isDie o && s.dieAbsent o && decide (s.rd (GLB_SKIP.STATE (2 * o + w % 2)) = 0)
       | none => false)
     else decide (Nat.xor (Tab.get 0 s.links.corner d) 2 ≤ 1))

/-- The key of a link end, and of one of its lane groups. -/
def endKey (d way : Nat) : Nat := 9 * d + way
def grpKey (d way g : Nat) : Nat := 16 * endKey d way + g

/-- The other end of a link as (die, way), where a compute die stands there. -/
def farEnd (d way : Nat) : Option (Nat × Nat) :=
  match wayNode d way with
  | some n => if isDie n then some (n, if way < 4 then (way + 2) % 4 else 4 + (way + 2) % 4) else none
  | none => none

/-- The ends of a link at compute dies, its own first. -/
def linkEnds (d way : Nat) : List (Nat × Nat) := (d, way) :: (farEnd d way).toList

/-- Is a fallback or a training of the link in progress? -/
def State.linkBusy (s : State) (d way : Nat) : Bool :=
  (linkEnds d way).any (fun e => decide (Tab.get 0 s.links.falling (endKey e.1 e.2) ≠ 0) || (decide (e.2 < 4) && s.bit (CD_LNK_STAT.TRAINING e.1 e.2)))

/-- The ways of a node's sync and control links in service, and where each leads. -/
def State.nbrs (s : State) (n : Nat) : List Nat :=
  if isDie n then (List.range 9).filterMap (fun w => if s.wayOk n w then wayNode n w else none)
  else
    (List.range 144).filter (fun d => !s.dieAbsent d && (List.range 9).any (fun w => decide (wayNode d w = some n) && s.wayOk d w))

/-! ### Fault tables (R168) -/

/-- The active fault-table entry of die `d` for destination `e`: a die, or 144 + ring stop (R168). -/
def State.ftEntry (s : State) (d e : Nat) : Nat :=
  let w := e / 4
  if s.rd (CD_RT_CTL.ACTIVE d) = 0 then
    match e % 4 with
    | 0 => s.rd (CD_RT_FT0.E0 d w)
    | 1 => s.rd (CD_RT_FT0.E1 d w)
    | 2 => s.rd (CD_RT_FT0.E2 d w)
    | _ => s.rd (CD_RT_FT0.E3 d w)
  else
    match e % 4 with
    | 0 => s.rd (CD_RT_FT1.E0 d w)
    | 1 => s.rd (CD_RT_FT1.E1 d w)
    | 2 => s.rd (CD_RT_FT1.E2 d w)
    | _ => s.rd (CD_RT_FT1.E3 d w)

/-- The node of a location: its die, or 144 + ring stop. -/
def locNode (loc : Nat) : Nat := if loc < 36864 then coreDie loc else 144 + (loc - 36864)

/-- The permitted way with the most free credits, ties in bit order (R169). -/
def bestWay (entry : Nat) (cr : List Nat) : Nat :=
  ((List.range 8).filter (fun b => bitOf entry b)).foldl (fun (m : Nat) b =>
    if m = 8 then b else if cr.getD m 0 < cr.getD b 0 then b else m) 8

/-- A die's entry for a destination without the skip bits whose path carries nothing (R23, R24). -/
def State.usable (s : State) (d e : Nat) : Nat :=
  let x := s.ftEntry d e
  if x = 0x0F then x else x % 16 + ((List.range 4).filter (fun b => bitOf x (4 + b) && s.wayOk d (4 + b))).foldl (fun n b => n + 2 ^ (4 + b)) 0

end Sys2Proof.Machine
end

