-- ==== Sys2Proof/Machine/Ports.lean ====
section
/-! DEFINITION. Output ports and the buffers at their far ends (R156, R158 to R162): bulk and control packets leave by arbitration and credits, and are taken
from a buffer where they arrive; sync messages leave by priority (R190, R191). -/

namespace Sys2Proof

/-- A header of zeros. -/
def hdr0 : BulkHdr :=
  { type := 0, vc := 2, hold := false, dkind := 0, abs_ := false, sperim := false, status := 0, plen := 0, x0 := 0, y0 := 0, x1 := 0,
    y1 := 0, sx := 0, sy := 0, tag := 0, toff := 0, slot := 0, cnt := 0, cntEn := false, op := 0, inc := 0, scode := 0, soff := 0, addr := 0 }

/-- A header with a location as its source (R163). -/
def BulkHdr.src (h : BulkHdr) (loc : Nat) : BulkHdr :=
  if loc < 36864 then { h with sperim := false, sx := Machine.coreX loc, sy := Machine.coreY loc }
  else { h with sperim := true, sx := loc - 36864, sy := 0 }

/-- A header with a location as its destination (R163). -/
def BulkHdr.dst (h : BulkHdr) (loc : Nat) : BulkHdr :=
  if loc < 36864 then { h with dkind := 0, x0 := Machine.coreX loc, y0 := Machine.coreY loc }
  else { h with dkind := 1, x0 := loc - 36864, y0 := 0 }

/-- A header with a rectangle as its destination (R163). -/
def BulkHdr.rect (h : BulkHdr) (r : Machine.Rect) : BulkHdr := { h with dkind := 2, x0 := r.x0, y0 := r.y0, x1 := r.x1, y1 := r.y1 }

/-- The location that sent a packet. -/
def BulkHdr.from_ (h : BulkHdr) : Nat := if h.sperim then Machine.stopAt h.sx else Machine.coreAt h.sx h.sy

/-- The location that a packet of DKIND 0 or 1 is for. -/
def BulkHdr.dest (h : BulkHdr) : Nat := if h.dkind = 1 then Machine.stopAt h.x0 else Machine.coreAt h.x0 h.y0

/-- The source of a packet as tracker and tree entries hold it. -/
def BulkHdr.srcCode (h : BulkHdr) : Nat := h.sx + 256 * h.sy + 65536 * Machine.b2n h.sperim

end Sys2Proof

namespace Sys2Proof.Machine

/-- The flits of a packet (R164). -/
def flits (h : BulkHdr) : Nat :=
  if h.type = 0 ∨ h.type = 1 ∨ h.type = 5 ∨ h.type = 9 ∨ h.type = 0xA then (if h.plen ≤ 96 then 1 else 1 + ceilDiv h.plen 128)
  else if h.type = 6 then 1 + ceilDiv h.plen 128
  else 1

/-- Flits that leave a die by a seam, skip path or edge link are counted by direction (R582). -/
def State.txCount (s : State) (from_ way : Nat) (h : BulkHdr) : State :=
  if from_ < 36864 ∧ way < 8 then
    s.pcount (coreDie from_) (CD_NET_TX.COUNT (coreDie from_) (way % 4)) (CD_PERF_DWRAP.NET_WRAP (coreDie from_)) (way % 4) (flits h)
  else s

/-- The way of a step to the neighbouring router: 10 + direction inside the die, the direction across a seam. -/
def stepWay (c dir : Nat) : Nat :=
  let x := coreN c % 16
  let y := coreN c / 16
  if (dir = 0 ∧ x = 15) ∨ (dir = 1 ∧ y = 15) ∨ (dir = 2 ∧ x = 0) ∨ (dir = 3 ∧ y = 0) then dir else 10 + dir

/-- The neighbouring router in a direction. -/
def stepCore (c dir : Nat) : Nat :=
  let x := coreX c
  let y := coreY c
  match dir with
  | 0 => coreAt (x + 1) y
  | 1 => coreAt x (y + 1)
  | 2 => coreAt (x - 1) y
  | _ => coreAt x (y - 1)

/-! ### A port (R161, R162) -/

/-- The virtual channels of a network after VC0, in the order of their turns, with their weights in flits (R161). -/
def bulkTurns : List (Nat × Nat) := [(2, 4), (3, 4), (4, 4), (5, 1)]
def ctlTurns : List (Nat × Nat) := [(1, 4), (5, 1)]

/-- The flits that a bulk input port holds for a VC, and a control input port (R162). -/
def bulkCap (vc : Nat) : Nat := if vc = 0 then 4 else 16
def ctlCap (_vc : Nat) : Nat := 8

/-- The flits of a VC in the far buffer: its credits in use. -/
def Port.used {α : Type} (vc size : α → Nat) (p : Port α) (v : Nat) : Nat := ((p.fly.filter (fun q => decide (vc q = v))).map size).sum

/-- May a VC send a flit: a packet of it waits, and has begun, or finds room; one larger than the buffer begins when the buffer is empty. -/
def Port.ready {α : Type} (vc size : α → Nat) (cap : Nat → Nat) (p : Port α) (v : Nat) : Bool :=
  match p.queue.find? (fun q => decide (vc q = v)) with
  | some q => decide (0 < Tab.get 0 p.part v) || decide (p.used vc size v = 0) || decide (p.used vc size v + size q ≤ cap v)
  | none => false

/-- The VC whose flit goes next and the port after the choice (R161): VC0, else the VC whose turn lasts, else the next in the round that is ready. -/
def Port.choose {α : Type} (turns : List (Nat × Nat)) (ready : Nat → Bool) (p : Port α) : Option (Nat × Port α) :=
  if ready 0 then some (0, p)
  else if 0 < p.left ∧ ready p.turn = true then some (p.turn, { p with left := p.left - 1 })
  else
    let rest := turns.dropWhile (fun t => decide (t.1 ≠ p.turn))
    match (rest.tail ++ turns).find? (fun t => ready t.1) with
    | some t => some (t.1, { p with turn := t.1, left := t.2 - 1 })
    | none => none

/-- One flit leaves a port: the port after it, and the packet whose last flit it was. -/
def Port.step {α : Type} (vc size : α → Nat) (cap : Nat → Nat) (turns : List (Nat × Nat)) (p : Port α) : Option (Port α × Option α) :=
  match p.choose turns (p.ready vc size cap) with
  | none => none
  | some (v, p) =>
    match p.queue.find? (fun q => decide (vc q = v)) with
    | none => none
    | some q =>
      let n := Tab.get 0 p.part v + 1
      if size q ≤ n then
        some ({ p with queue := removeFirst (fun x => decide (vc x = v)) p.queue, fly := p.fly ++ [q], part := Tab.set 0 p.part v 0 }, some q)
      else some ({ p with part := Tab.set 0 p.part v n }, none)

/-- Is a packet that satisfies `me` in the far buffer behind another of its VC (R162, R172)? -/
def Port.behind {α : Type} (vc : α → Nat) (me : α → Bool) (p : Port α) : Bool :=
  match p.fly.find? me with
  | some q => !((p.fly.find? (fun x => decide (vc x = vc q))).map me).getD true
  | none => false

/-! ### The bulk network -/

def State.bport (s : State) (k : Nat) : Port BulkPkt := Tab.get Port.reset s.net.ports k

def State.setBport (s : State) (k : Nat) (p : Port BulkPkt) : State := { s with net := { s.net with ports := Tab.set Port.reset s.net.ports k p } }

/-- The key of an output port. -/
def portKey (loc way : Nat) : Nat := 16 * loc + way

/-- The compute die that a perimeter die's edge or corner link leads to, or by way 4 the one beyond it on the skip path (R16 to R18, R23). -/
def stopDie (st : Nat) (far : Bool) : Option Nat :=
  (List.range 144).find? (fun d => (List.range 9).any (fun w => decide (wayNode d w = some (144 + st)) && decide (4 ≤ w ∧ w < 8) == far))

/-- The die that a port leads to, another than its own. -/
def portDie (k : Nat) : Option Nat :=
  let loc := k / 16
  let w := k % 16
  if loc < 36864 then (if w < 8 then (wayNode (coreDie loc) w).filter isDie else none)
  else if w = 10 then stopDie (loc - 36864) false
  else if w = 4 then stopDie (loc - 36864) true
  else none

/-- Does the link of a port carry traffic: a seam, skip path, edge link or corner link in service (R23, R196), from a die or from a perimeter die, with no fallback
or training in progress, while which its packets wait (R427, R429); or a link inside a die, or of the ring? -/
def State.portUp (s : State) (k : Nat) : Bool :=
  let loc := k / 16
  let w := k % 16
  if loc < 36864 then 9 ≤ w || (s.wayOk (coreDie loc) w && !s.linkBusy (coreDie loc) w)
  else
    match portDie k with
    | some d => !s.dieAbsent d && (List.range 9).any (fun v => decide (wayNode d v = some (144 + (loc - 36864))) && s.wayOk d v && !s.linkBusy d v)
    | none => true

/-- Where a packet that leaves by a port arrives (R159): the edge router of the same row or column across a seam or a skip path, the perimeter die, the
next router or the next stop. From a perimeter die into the mesh it is any router of the edge, as its source chose the lane (R170): none. -/
def portEnd (k : Nat) : Option Nat :=
  let loc := k / 16
  let w := k % 16
  if loc < 36864 then
    if 10 ≤ w then (if w < 14 then some (stepCore loc (w - 10)) else none)
    else
      match wayNode (coreDie loc) w with
      | none => none
      | some n =>
        if !isDie n then some (stopAt (n - 144))
        else
          let x := coreN loc % 16
          let y := coreN loc / 16
          some (n * 256 + (match w % 4 with
            | 0 => y * 16
            | 1 => x
            | 2 => y * 16 + 15
            | _ => 240 + x))
  else if w = 8 then some (stopAt ((loc - 36864 + 1) % 52))
  else if w = 9 then some (stopAt ((loc - 36864 + 51) % 52))
  else none

/-- May a packet that left by a port arrive at a location? -/
def reachesBy (k loc : Nat) : Bool :=
  match portEnd k with
  | some l => decide (l = loc)
  | none => decide (36864 ≤ k / 16) && decide (loc < 36864)

/-- A packet whose last flit has left a port is on its link (R582), and frees the buffer that it came from. -/
def State.sendOff (s : State) (k : Nat) (q : BulkPkt) : State :=
  let loc := k / 16
  let w := k % 16
  let s := match q.came with
    | some j => let p := s.bport j
      s.setBport j { p with fly := removeFirst (fun x => decide (x.h = q.h)) p.fly }
    | none => s
  let s := s.txCount loc w q.h
  s.emit (match q.body with
    | .data l => .bulk loc w q.h l
    | .meld l d => .meld loc w q.h l d
    | .pull d => .pull loc w q.h d)

/-- Ports send what arbitration and credits let go: the ports listed, and the ports whose credits a departure frees. -/
def State.bpump : Nat → List Nat → State → State
  | 0, _, s => s
  | _ + 1, [], s => s
  | n + 1, k :: ks, s =>
    match if s.portUp k then (s.bport k).step (fun q => q.h.vc) (fun q => flits q.h) bulkCap bulkTurns else none with
    | none => State.bpump n ks s
    | some (p, none) => State.bpump n (k :: ks) (s.setBport k p)
    | some (p, some q) => State.bpump n (k :: q.came.toList ++ ks) ((s.setBport k p).sendOff k q)

/-- Steps enough for every flit that waits. -/
def State.pumpFuel (s : State) : Nat :=
  (s.net.ports.map (fun e => (e.2.queue.map (fun q => flits q.h + 2)).sum)).sum + 2

/-- Ports send what may go. -/
def State.pumpPorts (s : State) (ks : List Nat) : State := State.bpump (s.pumpFuel + ks.length) ks s

/-- Every port sends what may go, as when a link carries traffic again. -/
def State.pumpAll (s : State) : State := s.pumpPorts (s.net.ports.map (fun e => e.1))

/-- A packet joins an output port (R161, R162): it leaves at once where nothing is ahead of it. -/
def State.leaveBy (s : State) (loc way : Nat) (q : BulkPkt) : State :=
  let k := portKey loc way
  let p := s.bport k
  (s.setBport k { p with queue := p.queue ++ [q] }).pumpPorts [k]

/-- A packet with data leaves a router or stop. -/
def State.leave (s : State) (loc way : Nat) (h : BulkHdr) (data : List Byte) : State := s.leaveBy loc way ⟨h, .data data, none⟩

/-- The link by which a packet came to a location. -/
def State.cameBy (s : State) (loc : Nat) (h : BulkHdr) : Option Nat :=
  (s.net.ports.find? (fun e => reachesBy e.1 loc && e.2.fly.any (fun q => decide (q.h = h)))).map (fun e => e.1)

/-- Does a packet wait behind another one of its VC in its input buffer (R162, R172), or is it on a link that leads elsewhere (R159)? -/
def State.blocked (s : State) (loc : Nat) (h : BulkHdr) : Bool :=
  match s.cameBy loc h with
  | some k => (s.bport k).behind (fun q => q.h.vc) (fun q => decide (q.h = h))
  | none => s.net.ports.any (fun e => e.2.fly.any (fun q => decide (q.h = h)))

/-- The reset scopes that a location lies in (R543). -/
def scopesOf (loc : Nat) : List Nat :=
  if loc < 36864 then [21 + coreDie loc, 5 + regionOf (coreDie loc)]
  else
    let st := loc - 36864
    match stopHub st, stopEng st with
    | some k, _ => [165 + k]
    | _, some k => [189 + k]
    | none, none => if st = 0 then [3] else if st = 26 then [4] else if st = 13 then [1] else if st = 39 then [2] else []

/-- Does a location's block stop accepting new requests: its idle request is asserted (R530 step 1)? -/
def State.idling (s : State) (loc : Nat) : Bool := s.boot.idle.any (fun e => (scopesOf loc).contains e.1)

/-- Is a bulk packet a request, rather than an answer (R166)? -/
def BulkHdr.request (h : BulkHdr) : Bool := !([3, 5, 6, 8, 0xB].contains h.type)

/-- A packet is taken from its input buffer, whose credits go back over its link (R162). -/
def State.took (s : State) (loc : Nat) (h : BulkHdr) : State :=
  match s.cameBy loc h with
  | some k =>
    let p := s.bport k
    (s.setBport k { p with fly := removeFirst (fun q => decide (q.h = h)) p.fly }).pumpPorts [k]
  | none => s


/-! ### The control network -/

def State.cport (s : State) (k : Nat) : Port CtlPkt := Tab.get Port.reset s.net.cports k

def State.setCport (s : State) (k : Nat) (p : Port CtlPkt) : State := { s with net := { s.net with cports := Tab.set Port.reset s.net.cports k p } }

/-- The compute die that a perimeter node's edge or corner link leads to, and the way of that die; over a hole by the skip path (R16 to R18, R23). -/
def State.entryDies (s : State) (n : Nat) : List (Nat × Nat) :=
  (List.range 144).flatMap (fun d => ((List.range 9).filter (fun w => decide (wayNode d w = some n) && !s.dieAbsent d && s.wayOk d w)).map (fun w => (d, w)))

/-- The next hop of a control packet from a node towards a node, and the way of it (R156, R168, R171): by the tables of the bulk network; from a
perimeter die by its link, way 10. -/
def State.ctlHop (s : State) (n dst : Nat) : Option (Nat × Nat) :=
  if isDie n then
    let e := s.usable n dst
    let own := (List.range 9).find? (fun w => !isDie dst && decide (wayNode n w = some dst) && s.wayOk n w)
    match own with
    | some w => some (w, dst)
    | none =>
      let w := if e = 0x0F then 8 else bestWay e []
      if e = 0 ∨ s.wayOk n w = false then none else (wayNode n w).map (fun m => (w, m))
  else (s.entryDies n).head?.map (fun e => (10, e.1))

/-- Do the tables lead from a node to another (R171)? `fuel` bounds the hops. -/
def State.ctlLeads (s : State) (dst : Nat) : Nat → Nat → Bool
  | 0, n => decide (n = dst)
  | fuel + 1, n => decide (n = dst) || match s.ctlHop n dst with
    | some (_, m) => s.ctlLeads dst fuel m
    | none => false

/-- Is a node's control router on: that of a die with its fabric island (R157)? -/
def State.nodeOn (s : State) (n : Nat) : Bool := !isDie n || !s.dieAbsent n

/-- May a control packet arrive: its nodes' routers are on and the tables lead to DNODE (R156, R157, R171)? -/
def State.ctlRoute (s : State) (src dst : Nat) : Bool := s.nodeOn src && s.nodeOn dst && s.ctlLeads dst 64 src

/-- Control ports send what may go. -/
def State.cpump : Nat → Nat → State → State
  | 0, _, s => s
  | n + 1, k, s =>
    match (s.cport k).step (fun q => q.h.vc) (fun q => 1 + q.flits.length) ctlCap ctlTurns with
    | none => s
    | some (p, none) => State.cpump n k (s.setCport k p)
    | some (p, some q) => State.cpump n k ((s.setCport k p).emit (.ctl q.h q.flits))

/-- A control packet leaves its node by the port of its first hop (R161, R162); one that no table leads on is dropped; inside a node it needs no port. -/
def State.ctlOut (s : State) (h : CtlHdr) (flits : List Nat) : State :=
  if h.snode = h.dnode then s.emit (.ctl h flits)
  else
    match s.ctlHop h.snode h.dnode with
    | none => s.emit (.ctl h flits)
    | some (w, _) =>
      let k := 16 * h.snode + w
      let p := s.cport k
      let s := s.setCport k { p with queue := p.queue ++ [⟨h, flits⟩] }
      State.cpump (((s.cport k).queue.map (fun q => q.flits.length + 2)).sum + 1) k s

/-- A control packet is taken at its node: its credits go back to the port that it left by (R162). -/
def State.ctlTook (s : State) (h : CtlHdr) : State :=
  match s.net.cports.find? (fun e => decide (e.1 / 16 = h.snode) && e.2.fly.any (fun q => decide (q.h = h))) with
  | some (k, p) =>
    let s := s.setCport k { p with fly := removeFirst (fun q => decide (q.h = h)) p.fly }
    State.cpump ((p.queue.map (fun q => q.flits.length + 2)).sum + 1) k s
  | none => s

/-! ### A die's fabric goes off (R157, R197) -/

/-- The transfers that a bulk packet belongs to, as (sender, TAG): of an answer and of READ_RSP those of its destination. -/
def BulkPkt.owners (q : BulkPkt) : List (Nat × Nat) :=
  match q.body with
  | .meld l _ => l.map (fun e => (coreAt e.x e.y, e.tag))
  | _ => if q.h.type = 3 ∨ q.h.type = 5 ∨ q.h.type = 8 ∨ q.h.type = 0xB then [(q.h.dest, q.h.tag)] else [(q.h.from_, q.h.tag)]

/-- The contributors that wait behind transfers of routers' lane entries (R207): for each of those, the transfers that its entry has combined. -/
def State.laneOwners (s : State) : Nat → List (Nat × Nat) → List (Nat × Nat)
  | 0, l => l
  | n + 1, l =>
    if l.all (fun e => decide (e.2 < 0xFFF0)) then l
    else s.laneOwners n (l.flatMap (fun e =>
      if e.2 < 0xFFF0 then [e]
      else ((s.router e.1).lanes.filter (fun x => decide (x.idx = e.2 - 0xFFF0))).flatMap (fun x => x.by_.map (fun b => (coreAt b.sx b.sy, b.tag)))))

/-- The message that a control packet is part of, as (sender, MSGID). -/
def CtlPkt.owner (q : CtlPkt) : List (Nat × Nat) :=
  if q.h.type = 0 then [(q.h.snode * 256 + q.h.slocal, q.h.msgid)] else if q.h.type = 1 then [(q.h.dnode * 256 + q.h.dlocal, q.h.msgid)] else []

/-- The nodes that the tables lead a control packet through. -/
def State.ctlPath (s : State) (dst : Nat) : Nat → Nat → List Nat
  | 0, n => [n]
  | fuel + 1, n => if n = dst then [n] else match s.ctlHop n dst with
    | some (_, m) => n :: s.ctlPath dst fuel m
    | none => [n]

/-- The fabric island of a die goes off (R157): what its routers, its ports and the buffers of its links hold is lost, and so is what waits for a link to it
(R197, R200, R222). Whose transfers those were is kept until the loss is announced. A control packet in flight is lost where its path leads through the die
(DESIGN CHOICE, log entry 92). -/
def State.fabricOff (s : State) (d : Nat) : State :=
  let mine := fun (loc : Nat) => decide (loc < 36864) && decide (coreDie loc = d)
  let toMe := fun (k : Nat) => decide (portDie k = some d)
  let at_ := s.routers.filter (fun e => mine e.1)
  let gone := s.net.ports.flatMap (fun e => if toMe e.1 then e.2.queue ++ e.2.fly else if mine (e.1 / 16) then e.2.queue else [])
  let through := fun (q : CtlPkt) => (s.ctlPath q.h.dnode 64 q.h.snode).contains d
  let tags := gone.flatMap BulkPkt.owners ++ at_.flatMap (fun e => e.2.lanes.flatMap (fun x => x.by_.map (fun b => (coreAt b.sx b.sy, b.tag))) ++
    e.2.tree.map (fun t => (if 65536 ≤ t.src then stopAt (t.src % 256) else coreAt (t.src % 256) (t.src / 256), t.tag)))
  let msgs := s.net.cports.flatMap (fun e => ((e.2.queue ++ e.2.fly).filter through).flatMap CtlPkt.owner)
  let cut := fun (e : Nat × Port BulkPkt) =>
    (e.1, { e.2 with queue := e.2.queue.map (fun q => if (q.came.map (fun j => toMe j || mine (j / 16))).getD false then { q with came := none } else q) })
  { s with net := { s.net with
    lostTags := s.net.lostTags ++ s.laneOwners 16 tags
    lostMsgs := s.net.lostMsgs ++ msgs
    ports := (s.net.ports.filter (fun e => !mine (e.1 / 16) && !toMe e.1)).map cut
    cports := ((s.net.cports.filter (fun e => decide (e.1 / 16 ≠ d))).map (fun e =>
      (e.1, { e.2 with queue := e.2.queue.filter (fun q => !through q), fly := e.2.fly.filter (fun q => !through q) }))).filter (fun e => decide (e.2 ≠ Port.reset))
    syncs := s.net.syncs.filter (fun e => decide (e.1 / 256 ≠ d) && decide (e.1 % 256 ≠ d)) } }

/-! ### The sync network (R190, R191) -/

def State.syncLink (s : State) (n m : Nat) : SyncLink := Tab.get SyncLink.reset s.net.syncs (256 * n + m)

def State.setSync (s : State) (n m : Nat) (x : SyncLink) : State := { s with net := { s.net with syncs := Tab.set SyncLink.reset s.net.syncs (256 * n + m) x } }

/-- The place of a message type in the order of R191: CLAMP, ARRIVE and RELEASE, GO, FLIP, TRICK, TIME. -/
def syncRank (type : Nat) : Nat :=
  match type with
  | 4 => 0
  | 1 => 1
  | 2 => 1
  | 3 => 2
  | 7 => 3
  | 5 => 4
  | _ => 5

/-- Of the messages that wait, the first in order of priority, oldest first. -/
def syncPick (l : List SyncMsg) : Option SyncMsg :=
  (List.range 6).findSome? (fun r => l.find? (fun m => decide (syncRank m.type = r)))

/-- Frames of a message: its first frame and its data frames (R190). -/
def SyncMsg.frames (m : SyncMsg) : Nat := 1 + m.data.length

/-- The messages of the replay store that 8 frames hold, newest first (R190). -/
def syncKeep : Nat → List SyncMsg → List SyncMsg
  | _, [] => []
  | n, m :: t => if m.frames ≤ n then m :: syncKeep (n - m.frames) t else []

/-- A message goes on a link: 4 ns for each frame (R156), and into the replay store. -/
def State.syncGo (s : State) (n m : Nat) (x : SyncMsg) : State :=
  let l := s.syncLink n m
  (s.setSync n m { l with busy := max l.busy s.ptime + 4 * x.frames, store := syncKeep 8 (x :: l.store) }).emit (.sync n m x.type x.seq x.arg x.data)

/-- A sync node sends a message to a neighbour (R191): at once where the link is idle, else it waits for the message before it to end. -/
def State.syncSend (s : State) (n m type seq arg : Nat) (data : List Nat) : State :=
  let l := s.syncLink n m
  let x : SyncMsg := { type := type, seq := seq, arg := arg, data := data }
  if l.busy ≤ s.ptime ∧ l.wait = [] then s.syncGo n m x
  else s.setSync n m { l with wait := l.wait ++ [x] }

/-- Messages that wait leave a link as it becomes idle, by priority, at message boundaries (R191). -/
def State.syncDrain (n m : Nat) : Nat → State → State
  | 0, s => s
  | fuel + 1, s =>
    let l := s.syncLink n m
    if s.ptime < l.busy then s
    else
      match syncPick l.wait with
      | none => s
      | some x => State.syncDrain n m fuel ((s.setSync n m { l with wait := removeFirst (fun y => decide (y = x)) l.wait }).syncGo n m x)

/-- Every sync link sends what its time allows. -/
def State.syncTick (s : State) : State :=
  forL s.net.syncs (fun e s => State.syncDrain (e.1 / 256) (e.1 % 256) e.2.wait.length s) s

end Sys2Proof.Machine
end

