-- ==== Sys2Proof/Machine/Ops.lean ====
section
/-! DEFINITION. The operations every chapter's meanings share: host memory writes and MSI-X (R349), event records (R345, R346), L counters (R577), fault
reports (R186), bytes of the local address space, and the scratchpad with its error codes (R123 to R134). -/

namespace Sys2Proof.Machine

/-! ### The host: memory writes, MSI-X, event records -/

/-- A write into host memory for function `fn`, counted in HID_PERF_WRB (R582). -/
def State.hostWrite (s : State) (fn addr : Nat) (data : List Byte) : State :=
  (s.pcount 0xFFFE (HID_PERF_WRB.COUNT fn) (HID_PERF_WRAP.WRAP fn) 2 data.length).emit (.hostWrite fn addr data)

/-- A read of host memory for function `fn`, counted in HID_PERF_RDB (R582). -/
def State.hostRead (s : State) (fn addr n : Nat) : State :=
  (s.pcount 0xFFFE (HID_PERF_RDB.COUNT fn) (HID_PERF_WRAP.WRAP fn) 1 n).emit (.hostRead fn addr n)

/-- Word `w` of entry `v` of a function's MSI-X table; the mask bit of word 3 resets to 1 (R349). -/
def State.msixWord (s : State) (fn v w : Nat) : Nat :=
  Nat.xor (Tab.get 0 s.host.msix (8192 * fn + 4 * v + w)) (if w = 3 then 1 else 0)

/-- The vector of a function: a message, or its pending bit while the entry or the function is masked; nothing while MSI-X is disabled (R349, log entry
62). -/
def State.msix (s : State) (fn v : Nat) : State :=
  if Tab.get 0 s.host.msixOff fn = 1 then s
  else if bitOf (s.msixWord fn v 3) 0 || decide (Tab.get 0 s.host.fnMask fn = 1) then s.updHost (fun h => { h with pba := Tab.set 0 h.pba (2048 * fn + v) 1 })
  else s.emit (.msix fn v (s.msixWord fn v 0 + s.msixWord fn v 1 * 2 ^ 32) (s.msixWord fn v 2))

/-- The 32 bytes of an event record (R345); `part` is 31 where the event concerns none. -/
def evtBytes (ty part sev ph seq time : Nat) (payload : List Byte) : List Byte :=
  leBytes 2 ty ++ leBytes 1 (part % 32 + sev * 32) ++ leBytes 1 ph ++ leBytes 4 seq ++ leBytes 8 time ++
    payload.take 16 ++ List.replicate (16 - payload.length) 0

/-- Is a function's event ring full (R329, R325)? -/
def State.evtFull (s : State) (f : Nat) : Bool :=
  decide ((s.rd (HID_EVT_TAIL.TAIL f) + 1) % 2 ^ s.rd (HID_EVT_CFG.LOG2SIZE f) = s.rd (HID_EVT_HEAD.HEAD f))

/-- A record is written at the tail, which advances, the phase inverting as it wraps (R325, R329, R345), and the vector sent (R349). -/
def State.evtPut (s : State) (f ty part sev : Nat) (payload : List Byte) : State :=
  let t := s.rd (HID_EVT_TAIL.TAIL f)
  let seq := Tab.get 0 s.host.evtSeq f
  let s := s.hostWrite f (s.rd (HID_EVT_BASE.BASE f) * 4096 + 32 * t)
    (evtBytes ty part sev (s.rd (HID_EVT_TAIL.PHASE f)) seq s.ptime payload)
  let s := s.updHost (fun h => { h with evtSeq := Tab.set 0 h.evtSeq f ((seq + 1) % 2 ^ 32) })
  let t' := (t + 1) % 2 ^ s.rd (HID_EVT_CFG.LOG2SIZE f)
  let s := if t' = 0 then s.wr (HID_EVT_TAIL.PHASE f) (1 - s.rd (HID_EVT_TAIL.PHASE f)) else s
  (s.wr (HID_EVT_TAIL.TAIL f) t').msix f (s.rd (HID_EVT_CFG.VEC f))

/-- One record lost: counted in EVLOST, in SEQ, and for the next EVENT_OVERFLOW (R329, R345). -/
def State.evtLose (s : State) (f : Nat) : State :=
  (s.sat (HID_FN_ERR.EVLOST f) 1).updHost (fun h =>
    { h with evtSeq := Tab.upd 0 h.evtSeq f (fun q => (q + 1) % 2 ^ 32), evtLost := Tab.upd 0 h.evtLost f (· + 1) })

/-- The EVENT_OVERFLOW record that is due, where the ring is enabled and has a free slot (R329, R345). -/
def State.evtFlush (s : State) (f : Nat) : State :=
  let n := Tab.get 0 s.host.evtLost f
  if n = 0 || s.evtFull f || !s.bit (HID_EVT_CFG.EN f) then s
  else (s.evtPut f 2 31 1 (leBytes 4 n)).updHost (fun h => { h with evtLost := Tab.set 0 h.evtLost f 0 })

/-- An event of function `f` is posted, or lost on a full ring; nothing where its ring is not enabled (R329, R345). -/
def State.postEvent (s : State) (f ty part sev : Nat) (payload : List Byte) : State :=
  if s.bit (HID_EVT_CFG.EN f) then
    let s := s.evtFlush f
    if s.evtFull f then s.evtLose f else s.evtPut f ty part sev payload
  else s

/-- An event to every enabled PF (R346). -/
def State.postPanel (s : State) (ty part sev : Nat) (payload : List Byte) : State :=
  forL [0, 8] (fun f s => if s.bit (HID_FN_ID.EN f) then s.postEvent f ty part sev payload else s) s

/-- An event to the owner of a partition (R346). -/
def State.postOwner (s : State) (p ty sev : Nat) (payload : List Byte) : State :=
  if s.bit (HID_PART.EN p) then s.postEvent (s.rd (HID_PART.OWNER p)) ty p sev payload else s

/-- An event to the owner of a partition and to every enabled PF that is not that owner (R346). -/
def State.postBoth (s : State) (p ty sev : Nat) (payload : List Byte) : State :=
  let s' := s.postOwner p ty sev payload
  forL [0, 8] (fun f t => if t.bit (HID_FN_ID.EN f) && !(t.bit (HID_PART.EN p) && decide (t.rd (HID_PART.OWNER p) = f))
    then t.postEvent f ty p sev payload else t) s'

/-- The enabled partition that holds a region, none where no enabled partition does (R316). -/
def State.partOfRegion (s : State) (r : Nat) : Option Nat :=
  (List.range 16).find? (fun p => s.bit (HID_PART.EN p) && bitOf (s.rd (HID_PART.REGIONS p)) r)

/-- An event naming a region: to the owner of its partition and to every enabled PF (R498, R523). -/
def State.postRegion (s : State) (r ty sev : Nat) (payload : List Byte) : State :=
  match s.partOfRegion r with
  | some p => s.postBoth p ty sev payload
  | none => s.postPanel ty 31 sev payload

/-- An L counter counts `n`: it saturates at 0xFFFF, and COUNTER_LIMIT is posted as it reaches 0x8000 and 0xFFFF (R577, R579). -/
def State.lcount (s : State) (unit off idx : Nat) (f : Field) (n : Nat) : State :=
  let o := s.rd f
  let s := s.sat f n
  let v := s.rd f
  let post := fun (s : State) (lvl : Nat) =>
    s.postPanel 0x0901 31 1 (leBytes 2 unit ++ leBytes 2 off ++ leBytes 1 idx ++ leBytes 1 lvl)
  let s := if o < 0x8000 && 0x8000 ≤ v then post s 0 else s
  if o < 0xFFFF && v = 0xFFFF then post s 1 else s

/-! ### Control packets and fault reports -/

/-- The header of a control packet. -/
def ctlHdr (type vc dnode dlocal snode slocal len msgid : Nat) : CtlHdr :=
  { type := type, vc := vc, bcast := false, dnode := dnode, dlocal := dlocal, snode := snode, slocal := slocal, len := len,
    msgid := msgid }

/-- The next MSGID of a node's agent, 8 bits, advanced (R183). -/
def State.takeMsgid (s : State) (n : Nat) : Nat × State :=
  let m := (s.node n).msgid
  (m, s.updNode n (fun x => { x with msgid := (m + 1) % 256 }))

/-- A control packet of a node's agent with its flits; it takes a fresh MSGID (R183). -/
def State.sendCtl (s : State) (type vc dnode dlocal snode slocal : Nat) (flits : List Nat) : State :=
  let (m, s) := s.takeMsgid snode
  s.ctlOut (ctlHdr type vc dnode dlocal snode slocal flits.length m) flits

/-- The payload flit of a FAULT (R186). -/
def faultFlit (f : FaultMsg) : Nat :=
  f.code + f.unit * 2 ^ 8 + f.kind * 2 ^ 24 + f.dir * 2 ^ 26 + f.time * 2 ^ 32

/-- A fault is reported to the active steward's dealer agent and kept for resends (R186). -/
def State.sendFault (s : State) (snode slocal code unit kind dir : Nat) : State :=
  let (m, s) := s.takeMsgid snode
  let f : FaultMsg :=
    { snode := snode, slocal := slocal, msgid := m, code := code, unit := unit, kind := kind, dir := dir,
      time := s.ptime % 2 ^ 32 }
  let s := s.updNode snode (fun x => { x with faults := x.faults ++ [f] })
  s.ctlOut (ctlHdr 4 1 s.stewardNode 258 snode slocal 1 m) [faultFlit f]

/-- A core fault, reported by its die manager (R547). -/
def State.coreFault (s : State) (c code : Nat) : State := s.sendFault (coreDie c) 256 code c 0 0

/-- A die fault, reported by the die's manager (R547). -/
def State.dieFault (s : State) (d code : Nat) : State := s.sendFault d 256 code d 1 0

/-! ### The local address space -/

/-- What a byte of the local address space reads as while nothing is written there: 0 (log entry 7), or a free value where its
contents have become unspecified (log entry 4). -/
def State.unlisted (s : State) (a : Nat) : Byte :=
  match s.opens.find? (fun r => decide (r.lo ≤ a) && decide (a < r.hi)) with
  | some r => if r.shut.any (fun e => decide (placedOn e.1 a / 24 = e.2)) then 0 else BitVec.ofNat 8 (Config.freePart r.n a)
  | none => 0

/-- A byte of the local address space. -/
def State.byte (s : State) (a : Nat) : Byte := Tab.get 0 s.mem a ^^^ s.unlisted a

/-- `n` bytes from local address `a`. -/
def State.bytes (s : State) (a n : Nat) : List Byte := (List.range n).map (fun i => s.byte (a + i))

/-- The memory after bytes are written from `a`; `u` is what each byte reads as unlisted. -/
def memWrite (u : Nat → Byte) (m : List Host.Cell) (a : Nat) : List Byte → List Host.Cell
  | [] => m
  | b :: t => memWrite u (Tab.set 0 m a (b ^^^ u a)) (a + 1) t

/-- The state after bytes are written from local address `a`. -/
def State.write (s : State) (a : Nat) (l : List Byte) : State := { s with mem := memWrite s.unlisted s.mem a l }

/-- The bytes [lo, hi) read as zero again. -/
def State.zeroRange (s : State) (lo hi : Nat) : State :=
  { s with
    mem := s.mem.filter (fun e => !(decide (lo ≤ e.1) && decide (e.1 < hi)))
    opens := s.opens.filter (fun r => !(decide (lo ≤ r.lo) && decide (r.hi ≤ hi)))
    ecc := s.ecc.filter (fun e => !(decide (lo ≤ 8 * e.1) && decide (8 * e.1 < hi))) }

/-- The contents of [lo, hi) become unspecified: free values (log entry 4). -/
def State.openRange (s : State) (lo hi : Nat) : State :=
  let s := s.zeroRange lo hi
  { s with opens := ⟨lo, hi, s.fresh, []⟩ :: s.opens, fresh := s.fresh + 1 }

/-- The canonical form of memory. -/
def Memory.wf (m : List Host.Cell) : Bool := Tab.wf 0 m

/-- The scratchpad window of core `c` (R147). -/
def winBase (c : Nat) : Nat := 0x800000000000 + c * 0x40000

/-- An arrival counter after an increment, and its wrap flag (R142, R154). -/
def State.cntAdd (s : State) (c i v : Nat) : State :=
  let t := (Tab.get (0 : W32) (s.core c).counters i).toNat + v
  let s := s.updCore c (fun k => { k with counters := Tab.set 0 k.counters i (BitVec.ofNat 32 t) })
  if t < 2 ^ 32 then s
  else if i < 32 then s.wrBit (CD_CNT_WRAP_LO.WRAP (coreDie c) (coreN c)) i true
  else s.wrBit (CD_CNT_WRAP_HI.WRAP (coreDie c) (coreN c)) (i - 32) true

/-- An arrival counter written (R62). -/
def State.cntSet (s : State) (c i : Nat) (v : W32) : State :=
  s.updCore c (fun k => { k with counters := Tab.set 0 k.counters i v })

/-! ### The scratchpad: banks and error codes -/

/-- The bank of scratchpad address `a` of a core (R124 to R126). -/
def State.bank (s : State) (c a : Nat) : Nat :=
  if bitOf (s.rd (CD_SP_LINMAP.LINEAR (coreDie c) (coreN c) (a / 0x8000))) (a / 0x400 % 32) then bitsOf a 6 4
  else Nat.xor (Nat.xor (bitsOf a 6 4) (bitsOf a 10 4)) (bitsOf a 14 4)

/-- The bank row of scratchpad address `a` (R123). -/
def bankRow (a : Nat) : Nat := a / 0x400

/-- The corrected errors of a core enter its 24-hour count, and a count above CE_THR is fault 0x07, reported as the threshold
is passed (R549). -/
def State.ceRate (s : State) (c n : Nat) : State :=
  let recent := ((s.core c).ceTimes ++ List.replicate n s.ptime).filter (fun t => decide (s.ptime < t + 86400000000000))
  let thr := s.rd GLB_FOLD_CFG.CE_THR
  let above := decide (thr ≠ 0) && decide (thr < recent.length) &&
    !decide (thr < ((s.core c).ceTimes.filter (fun t => decide (s.ptime < t + 86400000000000))).length)
  let s := (s.updCore c (fun k => { k with ceTimes := recent })).dayCount c n
  if above then s.coreFault c 7 else s

/-- A single-bit error in the word at scratchpad address `a` is corrected and counted (R131, R153). -/
def State.noteCe (s : State) (c a : Nat) : State :=
  let d := coreDie c
  let n := coreN c
  let s := s.hcount (CD_SP_CE.COUNT d n) (CD_SP_STAT.CE_SAT d n) 1
  let s := (s.wr (CD_SP_STAT.CE_BANK d n) (s.bank c a)).wr (CD_SP_STAT.CE_ROW d n) (bankRow a)
  { s with ecc := Tab.set 0 s.ecc ((winBase c + a) / 8) 0 }.ceRate c 1

/-- An uncorrectable error in the word at scratchpad address `a` is recorded and reported as a core fault (R132, R547). -/
def State.noteUe (s : State) (c a : Nat) : State :=
  let d := coreDie c
  let n := coreN c
  let s := (s.wr (CD_SP_STAT.UE d n) 1).wr (CD_SP_STAT.UE_CNT d n) 0
  let s := (s.wr (CD_SP_STAT.UE_BANK d n) (s.bank c a)).wr (CD_SP_STAT.UE_ROW d n) (bankRow a)
  s.coreFault c 1

/-- A corrected or uncorrectable error in arrival counter `i` (R134, R153). -/
def State.noteCounter (s : State) (c i : Nat) (multi : Bool) : State :=
  let d := coreDie c
  let n := coreN c
  if multi then
    let s := (s.wr (CD_SP_STAT.UE d n) 1).wr (CD_SP_STAT.UE_CNT d n) 1
    ((s.wr (CD_SP_STAT.UE_BANK d n) 0).wr (CD_SP_STAT.UE_ROW d n) i).coreFault c 3
  else
    let s := s.hcount (CD_SP_CE.COUNT d n) (CD_SP_STAT.CE_SAT d n) 1
    ((s.wr (CD_SP_STAT.CE_BANK d n) 0).wr (CD_SP_STAT.CE_ROW d n) (0xC0 + i / 2)).ceRate c 1

/-- A memory error strikes the word at a local address: a second one in a word is uncorrectable (R130, R251). -/
def State.upset (s : State) (a : Nat) (multi : Bool) : State :=
  { s with ecc := Tab.upd 0 s.ecc (a / 8) (fun o => if multi || decide (o ≠ 0) then 2 else 1) }

/-- The words of scratchpad addresses [a, a + n) are read: single-bit errors are corrected (R131); the answer is the address of
the first word with an uncorrectable error, which is recorded (R132). -/
def State.spCheck (s : State) (c a n : Nat) : State × Option Nat :=
  let w0 := (winBase c + a) / 8
  let hits := if n = 0 then [] else s.ecc.filter (fun e => inRange e.1 w0 ((winBase c + a + n - 1) / 8 - w0 + 1))
  let s := forL (hits.filter (fun e => decide (e.2 = 1))) (fun e s => s.noteCe c (e.1 * 8 - winBase c)) s
  match hits.find? (fun e => decide (e.2 ≠ 1)) with
  | some e => (s.noteUe c (e.1 * 8 - winBase c), some (e.1 * 8 - winBase c))
  | none => (s, none)

/-- Scratchpad bytes as they stand, error codes aside. -/
def State.spBytes (s : State) (c a n : Nat) : List Byte := s.bytes (winBase c + a) n

/-- A read of the scratchpad: the bytes, or the bank of an uncorrectable error (R131, R132). -/
def State.spRead (s : State) (c a n : Nat) : State × Except Nat (List Byte) :=
  match s.spCheck c a n with
  | (s, some e) => (s, .error (s.bank c e))
  | (s, none) => (s, .ok (s.spBytes c a n))

/-- The error marks of the words [a, a + n) that are written whole are gone: they have new check bits (R130). -/
def State.freshCodes (s : State) (c a n : Nat) : State :=
  let lo := ceilDiv (winBase c + a) 8
  let hi := (winBase c + a + n) / 8
  { s with ecc := s.ecc.filter (fun e => !(decide (lo ≤ e.1) && decide (e.1 < hi))) }

/-- A write into the scratchpad. A word written in part is read, merged and written, so an uncorrectable error there stops the
write (R130 to R132): the answer is its bank. -/
def State.spWrite (s : State) (c a : Nat) (l : List Byte) : State × Option Nat :=
  let n := l.length
  if n = 0 then (s, none) else
  let first := a % 8
  let last := (a + n) % 8
  let r1 := if first = 0 then (s, none) else s.spCheck c (a - first) 8
  match r1 with
  | (s, some e) => (s, some (s.bank c e))
  | (s, none) =>
    let r2 := if last = 0 then (s, none) else s.spCheck c (a + n - last) 8
    match r2 with
    | (s, some e) => (s, some (s.bank c e))
    | (s, none) => ((s.freshCodes c a n).write (winBase c + a) l, none)

end Sys2Proof.Machine
end

