-- ==== Sys2Proof/Machine/DealerOps.lean ====
section
/-! DEFINITION. The dealer's shared operations: placement maps (R275 to R281), descriptors' results (R343), the layer summary (R302),
and requests for an ante (R488). -/

namespace Sys2Proof.Machine

/-! ### Placements -/

/-- The virtual cores and their physical cores, block by block, row by row (R277). -/
def Block.cells (b : Block) : List (Nat × Nat × Nat) :=
  (List.range b.h).flatMap (fun j => (List.range b.w).map (fun i => (b.vx0 + i, b.vy0 + j, coreAt (b.px0 + i) (b.py0 + j))))

/-- Every virtual core of a placement with its physical core (R277). -/
def Placement.cells (pl : Placement) : List (Nat × Nat × Nat) :=
  pl.blocks.flatMap Block.cells ++ pl.strays.map (fun r => (r.vx, r.vy, coreAt r.px r.py))

/-- The placed physical cores. -/
def Placement.cores (pl : Placement) : List Nat := pl.cells.map (fun e => e.2.2)

/-- Does a block hold a virtual core? -/
def Block.holds (b : Block) (vx vy : Nat) : Bool := inRange vx b.vx0 b.w && inRange vy b.vy0 b.h

/-- The physical core of a virtual core; none outside the placed grid (R66, R277). -/
def Placement.locate (pl : Placement) (vx vy : Nat) : Option Nat :=
  match pl.strays.find? (fun r => decide (r.vx = vx) && decide (r.vy = vy)) with
  | some r => some (coreAt r.px r.py)
  | none =>
    match pl.blocks.find? (fun b => b.holds vx vy) with
    | some b => some (coreAt (b.px0 + (vx - b.vx0)) (b.py0 + (vy - b.vy0)))
    | none => none

/-- The virtual coordinates of a placed core (R277). -/
def Placement.virtualOf (pl : Placement) (c : Nat) : Option (Nat × Nat) :=
  (pl.cells.find? (fun e => decide (e.2.2 = c))).map (fun e => (e.1, e.2.1))

/-- The block record that a re-placed core leaves: up to four records around it, empty ones omitted (R279). -/
def splitBlock (b : Block) (vx vy : Nat) : List Block :=
  let dx := vx - b.vx0
  let dy := vy - b.vy0
  (if dy = 0 then [] else [{ b with h := dy }]) ++
  (if dx = 0 then [] else [{ b with vy0 := vy, py0 := b.py0 + dy, w := dx, h := 1 }]) ++
  (if dx + 1 < b.w then
    [{ vx0 := vx + 1, vy0 := vy, w := b.w - dx - 1, h := 1, px0 := b.px0 + dx + 1, py0 := b.py0 + dy }] else []) ++
  (if dy + 1 < b.h then [{ b with vy0 := vy + 1, py0 := b.py0 + dy + 1, h := b.h - dy - 1 }] else [])

/-- A placement with virtual core (vx, vy) taken out of its block record (R279). -/
def Placement.uncover (pl : Placement) (vx vy : Nat) : Placement :=
  { pl with
    blocks := pl.blocks.flatMap (fun b => if b.holds vx vy then splitBlock b vx vy else [b])
    strays := pl.strays.filter (fun r => !(decide (r.vx = vx) && decide (r.vy = vy))) }

/-- Is a core folded for life or fenced (R551, R552)? -/
def State.coreFolded (s : State) (c : Nat) : Bool :=
  bitOf (s.rd (GLB_FOLD_MAP.FOLDED (c / 32))) (c % 32) || (s.core c).fenced

/-- A die is eligible for partition `p`: in a region that the partition owns, in service, and no hole (R275). A die under retry
is out of service until it returns (R550). -/
def State.eligible (s : State) (p d : Nat) : Bool :=
  isDie d && bitOf (s.rd (HID_PART.REGIONS p)) (regionOf d) && !s.dieHole d

/-- The dies of a partition's regions (R305). -/
def State.partDies (s : State) (p : Nat) : List Nat :=
  (List.range 144).filter (fun d => bitOf (s.rd (HID_PART.REGIONS p)) (regionOf d))

/-- The partition of a core's region. -/
def State.partOfCore (s : State) (c : Nat) : Option Nat := s.partOfRegion (regionOf (coreDie c))

/-- The cores of a partition that are neither folded nor in a hole (R301). -/
def State.partAvail (s : State) (p : Nat) : List Nat :=
  ((List.range 144).filter (s.eligible p)).flatMap (fun d =>
    ((List.range 256).map (fun n => d * 256 + n)).filter (fun c => !s.coreFolded c))

/-- The kitty of a partition: available cores that the placement does not use (R301). -/
def State.kitty (s : State) (p : Nat) : List Nat :=
  let used := match (s.part p).place with
    | some pl => pl.cores
    | none => []
  (s.partAvail p).filter (fun c => !used.contains c)

/-- The placement map that a die holds, as its registers give it (R277, R306). -/
def State.pmap (s : State) (d : Nat) : Placement :=
  { gx := s.rd (CD_PMAP_GRID.GX d), gy := s.rd (CD_PMAP_GRID.GY d), heavy := s.rd (CD_PMAP_GRID.HEAVY d),
    blocks := (List.range (min 512 (s.rd (CD_PMAP_CNT.NREC d)))).map (fun i =>
      { vx0 := s.rd (CD_PMAP_REC.VX0 d i), vy0 := s.rd (CD_PMAP_REC.VY0 d i), w := s.rd (CD_PMAP_REC.WM1 d i) + 1,
        h := s.rd (CD_PMAP_REC.HM1 d i) + 1, px0 := s.rd (CD_PMAP_REC.PX0 d i), py0 := s.rd (CD_PMAP_REC.PY0 d i) }),
    strays := (List.range (min 256 (s.rd (CD_PMAP_CNT.NSTRAY d)))).map (fun i =>
      { vx := s.rd (CD_PMAP_STRAY.VX d i), vy := s.rd (CD_PMAP_STRAY.VY d i), px := s.rd (CD_PMAP_STRAY.PX d i),
        py := s.rd (CD_PMAP_STRAY.PY d i) }) }

/-- One stray record written (R306). -/
def putStray (d : Nat) (e : Stray × Nat) (s : State) : State :=
  (((s.wr (CD_PMAP_STRAY.VX d e.2) e.1.vx).wr (CD_PMAP_STRAY.VY d e.2) e.1.vy).wr (CD_PMAP_STRAY.PX d e.2) e.1.px).wr
    (CD_PMAP_STRAY.PY d e.2) e.1.py

/-- One block record written (R306). -/
def putBlock (d : Nat) (e : Block × Nat) (s : State) : State :=
  (((((s.wr (CD_PMAP_REC.VX0 d e.2) e.1.vx0).wr (CD_PMAP_REC.VY0 d e.2) e.1.vy0).wr (CD_PMAP_REC.WM1 d e.2) (e.1.w - 1)).wr
    (CD_PMAP_REC.HM1 d e.2) (e.1.h - 1)).wr (CD_PMAP_REC.PX0 d e.2) e.1.px0).wr (CD_PMAP_REC.PY0 d e.2) e.1.py0

/-- A placement, or its absence, is written into one die's map (R277, R306). -/
def putPmap (pl : Option Placement) (d : Nat) (s : State) : State :=
  match pl with
  | none => ((s.wr (CD_PMAP_GRID.GX d) 0).wr (CD_PMAP_CNT.NREC d) 0).wr (CD_PMAP_CNT.NSTRAY d) 0
  | some pl =>
    let s := ((s.wr (CD_PMAP_GRID.GX d) pl.gx).wr (CD_PMAP_GRID.GY d) pl.gy).wr (CD_PMAP_GRID.HEAVY d) pl.heavy
    let s := (s.wr (CD_PMAP_CNT.NREC d) pl.blocks.length).wr (CD_PMAP_CNT.NSTRAY d) pl.strays.length
    forL pl.strays.zipIdx (putStray d) (forL pl.blocks.zipIdx (putBlock d) s)

/-- The counts of the panel and of every partition, zero for one that is not enabled, with KITTY_LOW where a kitty falls below its threshold and GUARANTEE where the
guarantee is first missed (R301, R308). -/
def State.account (s : State) : State :=
  let folded := (List.range 1152).foldl (fun n w => n + popc (s.rd (GLB_FOLD_MAP.FOLDED w)) 32) 0
  let holes := (List.range 144).filter s.dieHole
  let holeCores := holes.foldl (fun n d => n + 256 -
    ((List.range 8).foldl (fun m w => m + popc (s.rd (GLB_FOLD_MAP.FOLDED (8 * d + w))) 32) 0)) 0
  let s := ((s.wr GLB_DLR_STAT.FOLDED folded).wr GLB_DLR_HOLE.HOLECORES holeCores).wr GLB_DLR_STAT.AVAIL (36864 - folded - holeCores)
  let low := decide (36864 - folded < 32768)
  let s := if low && !s.bit GLB_DLR_HOLE.GUAR then s.postPanel 0x0013 31 2 (leBytes 2 folded) else s
  let s := s.wr GLB_DLR_HOLE.GUAR (b2n low)
  forN 16 (fun p s =>
    if s.bit (HID_PART.EN p) then
      let avail := (s.partAvail p).length
      let placed := match (s.part p).place with
        | some pl => pl.gx * pl.gy
        | none => 0
      let strays := match (s.part p).place with
        | some pl => pl.strays.length
        | none => 0
      let k := avail - placed
      let was := s.rd (GLB_DLR_PART1.KITTY p)
      let s := (((s.wr (GLB_DLR_PART0.AVAIL p) avail).wr (GLB_DLR_PART0.PLACED p) placed).wr (GLB_DLR_PART1.KITTY p) k).wr
        (GLB_DLR_PART1.NSTRAY p) strays
      let thr := s.rd GLB_DLR_CTL.KITTY_WARN
      if k < thr && thr ≤ was then s.postBoth p 0x0012 1 (leBytes 2 0 ++ leBytes 2 k) else s
    else (((s.wr (GLB_DLR_PART0.AVAIL p) 0).wr (GLB_DLR_PART0.PLACED p) 0).wr (GLB_DLR_PART1.KITTY p) 0).wr (GLB_DLR_PART1.NSTRAY p) 0) s

/-! ### Descriptors -/

/-- The fetched descriptors go through `f`. -/
def State.updDescs (s : State) (f : List Desc → List Desc) : State := s.updHost (fun h => { h with descs := f h.descs })

/-- A running descriptor's effects have finished with a status and results (R342, R343). -/
def State.finishDesc (s : State) (key status detail r0 r1 : Nat) : State :=
  s.updDescs (updFirst (fun d => decide (d.key = key) && decide (d.st = .running))
    (fun d => { d with st := .finished, status := status, detail := detail, r0 := r0, r1 := r1 }))

/-- A descriptor that has not finished ends with a status. -/
def State.abortDesc (s : State) (key status : Nat) : State :=
  s.updDescs (updFirst (fun d => decide (d.key = key) && decide (d.st ≠ .finished))
    (fun d => { d with st := .finished, status := status, detail := 0, r0 := 0, r1 := 0 }))

/-- An event record that concerns a descriptor has been posted (R342, EVT). -/
def State.noteEvt (s : State) (key : Nat) : State :=
  s.updDescs (updFirst (fun d => decide (d.key = key)) (fun d => { d with evt := true }))

/-! ### Layers -/

/-- A discarded slot: EMPTY, its registers as they stand (R33). -/
def Task.discard (t : Task) : Task :=
  { t with st := .empty, loaded := false, wait := none, trap := none, badFetch := none, loop := none }

/-- Every slot is discarded: EMPTY, whatever its state (R33), and the queued matrix work with it. -/
def Core.discard (k : Core) : Core :=
  { k with
    tasks := (k.tasks.map (fun e => (e.1, e.2.discard))).filter (fun e => decide (e.2 ≠ Task.reset))
    mq := []
    async := []
    doneArr := false
    barPend := 0 }

/-- The placed cores of a partition. -/
def State.placedCores (s : State) (p : Nat) : List Nat :=
  match (s.part p).place with
  | some pl => pl.cores
  | none => []

/-- A partition's layer stops: pieces of its weight streams that have not begun are dropped, the others complete or fail (R293, R553). -/
def State.cutWeights (s : State) (p : Nat) : State :=
  { s with store := { s.store with ws := (s.store.ws.filter (fun x => decide (x.part ≠ p) || x.on)).map (fun x => if x.part = p then { x with live := false } else x) } }

/-- Every slot of the partition's placed cores is discarded (R33, R293, R553). -/
def State.discardPart (s : State) (p : Nat) : State := forL (s.placedCores p) (fun c s => s.updCore c Core.discard) (s.cutWeights p)

/-- OR of the FFLAGS of the partition's tasks (R78, R302). -/
def State.partFflags (s : State) (p : Nat) : Nat :=
  (s.placedCores p).foldl (fun n c => (s.core c).tasks.foldl (fun n e => if e.2.loaded then Nat.lor n e.2.fflags.toNat else n) n) 0

/-- The layer summary (R302). -/
def summaryWord (seq : Nat) (l : LayerRun) (fflags time : Nat) (copied : Bool) : Nat :=
  seq % 2 ^ 32 + fflags % 64 * 2 ^ 32 + l.redo % 16 * 2 ^ 40 + b2n l.shuf * 2 ^ 44 + b2n copied * 2 ^ 45 + satTo 0xFFFF time * 2 ^ 48

/-- A region that is off asks for an ante (R488). -/
def State.wantAnte (s : State) (r why : Nat) : State :=
  if s.power.antes.any (fun a => decide (a.region = r)) || decide (s.rgnState r < 4) || decide (Tab.get 0 s.power.ramp r ≠ 0) then s
  else
    let s := { s with power := { s.power with antes := s.power.antes ++ [(⟨r, s.ptime, why, 0⟩ : Ante)] } }
    s.wrBit PWR_ANTE_STAT.PEND r true

/-- A region is in P1 while every cluster of its dies in service has PFLOOR at level 5, and otherwise in P0 (R491, R452). -/
def State.showP (s : State) (r : Nat) : State :=
  if 2 ≤ s.rgnState r then s
  else
    let ds := ((List.range 9).map (regionDie r)).filter (fun d => !s.dieHole d)
    let all := !ds.isEmpty && ds.all (fun d => (List.range 16).all (fun cl => decide (s.rd (CD_CLK_CL.PFLOOR d cl) = 5)))
    s.wr (RGN_PWR_STAT.STATE r) (b2n all)

/-- A region leaves C1 or C3 (R493, R172). -/
def State.wakeRegion (s : State) (r target : Nat) : State :=
  let s := { s with power := { s.power with waking := s.power.waking.filter (fun x => decide (x ≠ r)) } }
  if s.rgnState r = 2 ∨ s.rgnState r = 3 then (s.wr (RGN_PWR_STAT.STATE r) target).showP r else s

/-- The regions of the placed cores of a partition. -/
def State.placedRegions (s : State) (p : Nat) : List Nat :=
  (List.range 16).filter (fun r => (s.placedCores p).any (fun c => decide (regionOf (coreDie c) = r)))

/-- The dies of the placed cores of a partition. -/
def State.placedDies (s : State) (p : Nat) : List Nat :=
  (List.range 144).filter (fun d => (s.placedCores p).any (fun c => decide (coreDie c = d)))

end Sys2Proof.Machine
end

