-- ==== Sys2Proof/Machine/JxOps.lean ====
section
/-! DEFINITION. Jexlink below delivery (R382 to R400, R410): cells as bytes, credits, the order of packets at a port, numbered flits and their
replay, the choice of a port, and answers that reach this panel (R403). -/

namespace Sys2Proof.Machine

/-- The engine of a port, and its place there (R17). -/
def portK (n : Nat) : Nat := n / 3
def portP (n : Nat) : Nat := n % 3

def State.port (s : State) (n : Nat) : JxPort := Tab.get JxPort.reset s.jx.ports n

def State.setPort (s : State) (n : Nat) (x : JxPort) : State := { s with jx := { s.jx with ports := Tab.set JxPort.reset s.jx.ports n x } }

def State.updPort (s : State) (n : Nat) (f : JxPort → JxPort) : State := s.setPort n (f (s.port n))

/-- LSTATE, SSTATE, and whether sealing is asked for (R416). -/
def State.lstate (s : State) (n : Nat) : Nat := s.rd (JX_PORT_STAT.LSTATE (portK n) (portP n))
def State.sstate (s : State) (n : Nat) : Nat := s.rd (JX_PORT_STAT.SSTATE (portK n) (portP n))
def State.sealReq (s : State) (n : Nat) : Bool := s.bit (JX_SEAL_CTL.REQ (portK n) (portP n))

/-! ### Cells as bytes -/

/-- Header bytes 0 to 39 (R385). -/
def jxHead (h : JxHdr) : List Byte :=
  leBytes 1 (2 + h.vc % 8 * 16 + b2n h.sealed_ * 128) ++ leBytes 1 h.ptype ++ leBytes 1 (h.ndata % 128 + b2n h.ackreq * 128) ++ leBytes 1 (h.hops % 64) ++
    leBytes 2 h.dst ++ leBytes 2 h.src ++ leBytes 8 (h.addr % 2 ^ 48) ++ leBytes 2 (h.len % 2 ^ 13) ++
    leBytes 1 (h.cnt % 64 + b2n h.cntEn * 128) ++ leBytes 1 (h.op % 16 + h.status % 16 * 16) ++ leBytes 2 h.inc ++ leBytes 2 h.pidx ++
    leBytes 4 h.xid ++ leBytes 4 h.arg ++ leBytes 8 h.sctr

/-- A HEADER cell (R385). -/
def jxCell (h : JxHdr) : List Byte := jxHead h ++ leBytes 4 h.hcrc ++ leBytes 4 h.pcrc ++ leBytes 16 h.tag

/-- The header that a cell holds (R385). -/
def parseHdr (c : List Byte) : JxHdr :=
  let f := fun b n => leNat ((c.drop b).take n)
  { vc := bitsOf (f 0 1) 4 3, sealed_ := bitOf (f 0 1) 7, ptype := f 1 1, ndata := bitsOf (f 2 1) 0 7, ackreq := bitOf (f 2 1) 7,
    hops := bitsOf (f 3 1) 0 6, dst := f 4 2, src := f 6 2, addr := bitsOf (f 8 8) 0 48, len := bitsOf (f 16 2) 0 13,
    cnt := bitsOf (f 18 1) 0 6, cntEn := bitOf (f 18 1) 7, op := bitsOf (f 19 1) 0 4, status := bitsOf (f 19 1) 4 4, inc := f 20 2, pidx := f 22 2,
    xid := f 24 4, arg := f 28 4, sctr := f 32 8, hcrc := f 40 4, pcrc := f 44 4, tag := f 48 16 }

/-- Bytes 0 to 59 of an LCTL cell, and the cell (R388). -/
def lctlHead (c : Lctl) : List Byte :=
  leBytes 1 1 ++ leBytes 1 (b2n c.nak + b2n c.replay * 2 + b2n c.init * 4) ++ leBytes 2 (c.aseq % 4096) ++ leBytes 2 (c.rseq % 4096) ++
    (List.range 8).flatMap (fun v => leBytes 2 (c.creds.getD v 0)) ++ leBytes 1 (c.lop % 8) ++ leBytes 1 (c.llane % 16) ++
    leBytes 1 (c.slane % 16) ++ leBytes 1 (c.neww % 4) ++ leBytes 2 (c.fseq % 4096) ++ List.replicate 32 0
def lctlCell (c : Lctl) : List Byte := lctlHead c ++ leBytes 4 (crc32 (lctlHead c))

/-- The link-control cell that bytes hold; none where LCRC fails (R388, R389). -/
def parseLctl (c : List Byte) : Option Lctl :=
  let f := fun b n => leNat ((c.drop b).take n)
  if f 60 4 = crc32 (c.take 60) then
    some { nak := bitOf (f 1 1) 0, replay := bitOf (f 1 1) 1, init := bitOf (f 1 1) 2, aseq := bitsOf (f 2 2) 0 12, rseq := bitsOf (f 4 2) 0 12,
           creds := (List.range 8).map (fun v => f (6 + 2 * v) 2), lop := bitsOf (f 22 1) 0 3, llane := bitsOf (f 23 1) 0 4,
           slane := bitsOf (f 24 1) 0 4, neww := bitsOf (f 25 1) 0 2, fseq := bitsOf (f 26 2) 0 12 }
  else none

/-- An IDLE cell (R383). -/
def idleCell : List Byte := List.replicate 64 0

/-- Data cells of a payload: bytes beyond it in the last cell are zero (R384). -/
def dataCells (l : List Byte) : List (List Byte) :=
  (List.range (ceilDiv l.length 64)).map (fun i =>
    let c := (l.drop (64 * i)).take 64
    c ++ List.replicate (64 - c.length) 0)

/-! ### Credits and the order of packets (R390 to R392) -/

/-- Cells reserved for a VC (R390). -/
def jxReserved (vc : Nat) : Nat :=
  match vc with
  | 0 => 256
  | 1 => 1024
  | 6 => 1024
  | 7 => 256
  | _ => 512

def jxBulk (vc : Nat) : Bool := decide (2 ≤ vc) && decide (vc ≤ 5)

/-- Cells of a VC that the far receiver holds, as the sender accounts for them (R391). -/
def JxPort.inFlight (x : JxPort) (vc : Nat) : Nat := (Tab.get 0 x.sent vc + 65536 - Tab.get 0 x.seen vc % 65536) % 65536

/-- Credits for `n` cells of a VC: reserved cells first, then, for a bulk VC, the shared pool of 11,776 (R390, R391). -/
def JxPort.credit (x : JxPort) (vc n : Nat) : Bool :=
  let f := x.inFlight vc + n
  if jxBulk vc then
    let others := ([2, 3, 4, 5].filter (fun v => decide (v ≠ vc))).foldl (fun t v => t + (x.inFlight v - 512)) 0
    decide (f - 512 + others ≤ 11776)
  else decide (f ≤ jxReserved vc)

/-- The cells of a packet. -/
def jxCells (h : JxHdr) : Nat := 1 + h.ndata

/-- Payload bytes that a packet carries. -/
def jxLoad (h : JxHdr) : Nat := min h.len (64 * h.ndata)

/-- The first packet of a VC that has its credits. -/
def JxPort.ready (x : JxPort) (ok : JxPkt → Bool) (vc : Nat) : Option JxPkt :=
  match x.queue.find? (fun p => decide (p.vc = vc) && ok p) with
  | some p => if x.credit vc (jxCells p.h) then some p else none
  | none => none

/-- The round robin's weights (R392). -/
def jxWeight (vc : Nat) : Nat := if vc = 7 then 1 else 4

/-- The next packet of the round robin over VC1 to VC7 (R392): a VC sends until its turn's cells are spent, packet after packet; what its last packet takes beyond
them its next turns pay; one with nothing to send or without credits gives up its turn (DESIGN CHOICE, log entry 11: the spec does not say how a packet larger than a
turn is paid). -/
def JxPort.wrr (ok : JxPkt → Bool) : Nat → JxPort → Option (JxPkt × JxPort)
  | 0, _ => none
  | n + 1, x =>
    let vc := x.turn + 1
    let x' := { x with turn := (x.turn + 1) % 7 }
    match x.ready ok vc with
    | none => JxPort.wrr ok n { x' with debt := Tab.set 0 x.debt vc 0 }
    | some p =>
      let d := Tab.get 0 x.debt vc
      let w := jxWeight vc
      if w ≤ d then JxPort.wrr ok n { x' with debt := Tab.set 0 x.debt vc (d - w) }
      else
        let d := d + jxCells p.h
        some (p, if d < w then { x with debt := Tab.set 0 x.debt vc d } else { x' with debt := Tab.set 0 x.debt vc (d - w) })

/-- The packet that a port sends next: VC0 first (R392). -/
def JxPort.next (x : JxPort) (ok : JxPkt → Bool) : Option (JxPkt × JxPort) :=
  match x.ready ok 0 with
  | some p => some (p, x)
  | none => if [1, 2, 3, 4, 5, 6, 7].any (fun v => (x.ready ok v).isSome) then x.wrr ok 490 else none

/-! ### Flits (R384, R393) -/

/-- As its CONFIRM leaves, a port's sending side switches to the agreed key, counting SCTR from 0 (R619). -/
def JxPort.confirmed (x : JxPort) (p : JxPkt) : JxPort :=
  match x.agr.bind (fun a => a.keys) with
  | some k => if p.data.getD 0 0 = 2 then { x with txKey := some k.1, txCtr := 0 } else x
  | none => x

/-- The cells of a packet as it leaves a port, HOPS reduced by 1 (R398): sealed where the port is (R410, R411), the header's checks written (R387). -/
def JxPort.seal (x : JxPort) (p : JxPkt) : JxPort × List (List Byte) :=
  let plain := fun (h : JxHdr) (cells : List (List Byte)) =>
    let h := { h with sealed_ := false, sctr := 0, tag := 0 }
    jxCell { h with hcrc := crc32 (jxHead h) } :: cells
  let o := { p.h with hops := p.h.hops - 1, vc := p.vc }
  match x.txKey with
  | some (key, salt) =>
    if p.h.ptype = 0x15 then (x.confirmed p, plain o (dataCells p.data))
    else
      let h := { o with sealed_ := true, sctr := x.txCtr }
      let c := Config.seal key (salt * 2 ^ 64 + x.txCtr) (jxHead h) (dataCells p.data).flatten
      ({ x with txCtr := x.txCtr + 1 }, jxCell { h with hcrc := crc32 (jxHead h), tag := c.2 } :: dataCells (c.1.take (64 * h.ndata)))
  | none => (if p.h.ptype = 0x15 then x.confirmed p else x, plain o (dataCells p.data))

/-- Packets that a port may send, as cells in order (R383, R391 to R393), while its retry buffer has room, and its key has SCTR below 2^40 (R410). -/
def JxPort.take (ok : JxPkt → Bool) (room : Nat) : Nat → JxPort → JxPort × List (List Byte) × List JxPkt
  | 0, x => (x, [], [])
  | n + 1, x =>
    match x.next ok with
    | none => (x, [], [])
    | some (p, y) =>
      let c := (jxCells p.h)
      if room < c ∨ (x.txKey.isSome ∧ 2 ^ 40 ≤ x.txCtr ∧ p.h.ptype ≠ 0x15) then (x, [], [])
      else
        let y := { y with queue := removeFirst (fun q => decide (q = p)) y.queue, sent := Tab.upd 0 y.sent p.vc (fun t => (t + c) % 65536) }
        let (y, l) := y.seal p
        let (z, m, ps) := JxPort.take ok (room - c) n y
        (z, l ++ m, p :: ps)

/-- Cells packed four to a flit, the last filled with IDLE cells (R382, R383). -/
def packFlits : List (List Byte) → List (List (List Byte))
  | a :: b :: c :: d :: t => [a, b, c, d] :: packFlits t
  | [] => []
  | l => [l ++ List.replicate (4 - l.length) idleCell]

/-- A numbered flit leaves, and is kept until it is acknowledged (R384, R393). -/
def State.sendFlit (s : State) (n : Nat) (cells : List (List Byte)) : State :=
  let x := s.port n
  let s := s.setPort n { x with txNext := (x.txNext + 1) % 4096, unacked := x.unacked ++ [(x.txNext, cells)] }
  s.emit (.flit n (some x.txNext) cells)

/-- Payload bytes of packets sent or received on a port (R582). -/
def State.portPerf (s : State) (n : Nat) (rx : Bool) (bytes : Nat) : State :=
  let k := portK n
  let p := portP n
  let wrap := OE_PERF_WRAP.PORT_WRAP k
  if rx then s.pcount (engNode k) (OE_PERF_RX.COUNT k p) wrap (2 * p + 1) bytes else s.pcount (engNode k) (OE_PERF_TX.COUNT k p) wrap (2 * p) bytes

/-- A port sends what it may: while an agreement is open or has failed only SEAL and SPDM packets (R620). -/
def State.pump (s : State) (n : Nat) : State :=
  if s.lstate n < 2 then s
  else
    let x := s.port n
    let shut := s.sealReq n && (decide (s.sstate n = 1) || decide (s.sstate n = 3))
    let ok := fun (p : JxPkt) => !shut || decide (p.h.ptype = 0x15) || decide (p.h.ptype = 0x16)
    let (y, cells, ps) := x.take ok (4 * (4095 - x.unacked.length)) (x.queue.length + 1)
    let s := forL ps (fun p s => s.portPerf n false (jxLoad p.h)) (s.setPort n y)
    forL (packFlits cells) (fun f s => s.sendFlit n f) s

/-! ### Link control -/

/-- The LCTL cell that a port has to report (R388, R389): what it has received and freed, and the lane operation it asks for. -/
def State.lctlNow (s : State) (n : Nat) : Lctl :=
  let x := s.port n
  let l : Lctl := { nak := x.nak, replay := false, init := decide (s.lstate n = 1), aseq := (x.rxNext + 4095) % 4096, rseq := 0, creds := (List.range 8).map (fun v => Tab.get 0 x.freed v),
                    lop := 0, llane := 0, slane := 0, neww := 0, fseq := 0 }
  let l := if s.lstate n = 1 then { l with aseq := 0, creds := List.replicate 8 0 } else l
  match Tab.get none s.opt.rxOp n with
  | some o => if o.fseq.isNone then { l with lop := if o.narrow then 3 else 1, llane := o.llane, slane := o.slane, neww := o.neww } else l
  | none => l

/-- An unnumbered flit with one LCTL cell leaves (R384, R389). -/
def State.sendLctl (s : State) (n : Nat) (c : Lctl) : State := s.emit (.flit n none [lctlCell c, idleCell, idleCell, idleCell])

/-- What a port has to report is sent (R389); its NAK has been sent with it. -/
def State.reportLctl (s : State) (n : Nat) : State :=
  (s.sendLctl n (s.lctlNow n)).updPort n (fun x => { x with nak := false, unreported := 0 })

/-- Cells leave a port's receive store (R388). -/
def State.freeCells (s : State) (n : Nat) (h : JxHdr) : State :=
  if n < 72 then s.updPort n (fun x => { x with freed := Tab.upd 0 x.freed h.vc (fun t => (t + jxCells h) % 65536) }) else s

/-! ### The panel router (R396 to R400) -/

/-- Candidate `i` of a routing-table entry: port and dateline bit (R397). -/
def State.rtEntry (s : State) (d : Nat) : List (Nat × Bool) :=
  [(s.rd (JX_RT.P0 d), s.bit (JX_RT.DL0 d)), (s.rd (JX_RT.P1 d), s.bit (JX_RT.DL1 d)), (s.rd (JX_RT.P2 d), s.bit (JX_RT.DL2 d)),
    (s.rd (JX_RT.P3 d), s.bit (JX_RT.DL3 d))].filter (fun e => decide (e.1 < 72))

/-- Does this panel answer for an ID: its own, assigned, or an enabled alias (R398, R412)? -/
def State.ownId (s : State) (d : Nat) : Bool :=
  (s.bit JX_SELF.ASSIGNED && decide (s.rd JX_SELF.ID = d)) || (List.range 4).any (fun i => s.bit (JX_ALIAS.EN i) && decide (s.rd (JX_ALIAS.ID i) = d))

/-- Lanes of a width code (R358). -/
def widthOf (c : Nat) : Nat := match c with
  | 0 => 15
  | 1 => 12
  | 2 => 8
  | _ => 0

/-- Width of a port's transmit direction, in lanes. -/
def State.txWidth (s : State) (n : Nat) : Nat := widthOf (Nat.xor (Tab.get 0 s.opt.txWidth n) 3)

/-- Cells queued for a port (R398). -/
def State.queued (s : State) (n : Nat) : Nat := (s.port n).queue.foldl (fun t p => t + (jxCells p.h)) 0

/-- The eligible candidates of a packet (R398, R399, R620). -/
def State.eligiblePorts (s : State) (p : JxPkt) : List (Nat × Bool) :=
  (s.rtEntry p.h.dst).filter (fun e =>
    decide (s.lstate e.1 = 2) && !(e.2 && decide (p.h.vc = 5)) && decide (e.1 ≠ p.came) &&
    !(s.sealReq e.1 && (decide (s.sstate e.1 = 1) || decide (s.sstate e.1 = 3))))

/-- The candidate with the smallest cells queued ÷ width, the earlier one where they are equal (R398). -/
def State.leastQueued (s : State) : List (Nat × Bool) → Option (Nat × Bool)
  | [] => none
  | e :: t =>
    match s.leastQueued t with
    | none => some e
    | some f => if s.queued f.1 * s.txWidth e.1 < s.queued e.1 * s.txWidth f.1 then some f else some e

/-- A packet joins the queue of the port that the router chooses, its VC moved at a dateline (R398, R399); none where it is dropped. HOPS is reduced as
it leaves. -/
def State.routeOut (s : State) (p : JxPkt) : Option State :=
  if p.came < 72 ∧ p.h.hops = 0 then none
  else
    match s.leastQueued (s.eligiblePorts p) with
    | none => none
    | some e =>
      let p := { p with vc := if e.2 && jxBulk p.h.vc then p.h.vc + 1 else p.h.vc }
      some ((s.updPort e.1 (fun x => { x with queue := x.queue ++ [p] })).pump e.1)

/-- An empty header. -/
def jxHdr0 : JxHdr :=
  { vc := 0, sealed_ := false, ptype := 0, ndata := 0, ackreq := false, hops := 0, dst := 0, src := 0, addr := 0, len := 0, cnt := 0, cntEn := false,
    op := 0, status := 0, inc := 0, pidx := 0, xid := 0, arg := 0, sctr := 0, hcrc := 0, pcrc := 0, tag := 0 }

/-- The answer to a packet with its payload (R403, R405, R412): ACK, READ_RSP without data, or BAR_RELEASE with GROUP in ARG and GEN in ADDR (R386), from the ID that
the request named; none is due to a packet without ACKREQ. -/
def jxAnswerOf (h : JxHdr) (data : List Byte) (status hops : Nat) : Option JxHdr :=
  let a := { jxHdr0 with hops := hops, dst := h.src, src := h.dst, status := status, xid := h.xid, pidx := h.pidx }
  if h.ptype = 0x04 then some { a with ptype := 0x05, vc := 1 }
  else if h.ptype = 0x08 then some { a with ptype := 0x09, vc := h.vc, arg := leField data 0 4, addr := leField data 4 4 }
  else if h.ackreq then some { a with ptype := 0x06, vc := if h.vc = 0 then 0 else 1 }
  else none

/-- Statuses by rank: SECURITY, INVALID, DATA_ERROR, TIMEOUT, highest first (R403). -/
def jxRank (st : Nat) : Nat := match st with
  | 6 => 4
  | 2 => 3
  | 8 => 2
  | 7 => 1
  | _ => 0
def jxWorse (a b : Nat) : Nat := if jxRank a < jxRank b then b else a

/-- A packet of a transfer is answered, or counts as TIMEOUT: the last one completes the descriptor (R403); a second answer is discarded. On a DATA_ERROR that the
destination reports RESULT0 is the descriptor's SRC (DESIGN CHOICE, log entry 102: R343 does not say which line is named then). -/
def State.jxCount (s : State) (xid pidx status : Nat) : State :=
  match s.jx.xfers.find? (fun x => decide (x.xid = xid) && x.wait.contains pidx) with
  | none => s
  | some x =>
    let y := { x with wait := x.wait.filter (fun i => decide (i ≠ pidx)), status := jxWorse x.status status }
    if y.wait.isEmpty then
      let s := { s with jx := { s.jx with xfers := s.jx.xfers.filter (fun z => decide (z.xid ≠ xid)) } }
      match s.host.descs.find? (fun d => decide (d.key = x.key)) with
      | some d =>
        let len := leNat ((d.raw.drop 24).take 4)
        let local_ := leNat ((d.raw.drop 8).take 6)
        s.finishDesc x.key y.status 0 (if y.status = 0 then len else if y.status = 8 then local_ else 0) 0
      | none => s
    else { s with jx := { s.jx with xfers := updFirst (fun z => decide (z.xid = xid)) (fun _ => y) s.jx.xfers } }

/-- An answer that is for this panel: it is found by XID (R401, R403, R405). A READ_RSP answers nothing here: no descriptor reads from another
panel. -/
def State.jxAnswered (s : State) (h : JxHdr) : State :=
  if h.ptype = 0x06 then s.jxCount h.xid h.pidx h.status
  else if h.ptype = 0x09 then
    match s.jx.bars.find? (fun b => decide (b.xid = h.xid)) with
    | none => s
    | some b =>
      let s := { s with jx := { s.jx with bars := s.jx.bars.filter (fun c => decide (c.xid ≠ h.xid)) } }
      s.finishDesc b.key h.status (if h.status = 2 then 0xFF else 0) (if h.status = 0 then s.ptime else 0) 0
  else s

/-- A dropped packet is counted (R398, JX_DROP). -/
def State.noteJxDrop (s : State) (p : JxPkt) : State :=
  if p.came < 72 ∧ p.h.hops = 0 then s.sat JX_DROP.HOPS0 1 else s.sat JX_DROP.NOROUTE 1

/-- An answer is sent to another panel, or taken here (R403, R412); an answer that is dropped gets none itself. -/
def State.jxReply (s : State) (h : JxHdr) (data : List Byte) : State :=
  if s.ownId h.dst then s.jxAnswered h
  else
    let p : JxPkt := ⟨{ h with hops := s.rd JX_CFG.HOPS }, data, 72, h.vc⟩
    match s.routeOut p with
    | some t => t
    | none => s.noteJxDrop p

/-- The answer that is due to a packet, with a status (R398, R403). -/
def State.jxFail (s : State) (p : JxPkt) (status : Nat) : State :=
  match jxAnswerOf p.h p.data status (s.rd JX_CFG.HOPS) with
  | some a => s.jxReply a []
  | none => s

/-- A packet for another panel goes on, or is dropped and answered TIMEOUT where an answer is due (R398). -/
def State.jxForward (s : State) (p : JxPkt) : State :=
  match s.routeOut p with
  | some t => t
  | none => (s.noteJxDrop p).jxFail p 7

/-! ### A port's links going up and down (R395, R400) -/

/-- JX_PORT_LINK (R417). -/
def State.linkEvent (s : State) (n : Nat) : State :=
  s.postPanel 0x0400 31 1 (leBytes 1 n ++ leBytes 1 (s.lstate n) ++ leBytes 2 (s.rd (JX_PORT_FAR.PANEL (portK n) (portP n))))

/-- The packets queued for ports that carry no more traffic take other candidates, or are dropped (R400). -/
def State.moveQueue (s : State) (n : Nat) : State :=
  let l := (s.port n).queue.filter (fun p => decide (p.h.ptype < 0x10) || decide (p.h.ptype = 0x16))
  forL l (fun p s => s.jxForward p) (s.updPort n (fun x => { x with queue := [] }))

/-- A packet in transit of which a port had received a part as it went DOWN (R395): it goes on, completed with zero cells, so that its PCRC fails at its destination. A
packet for this panel is discarded, and so is a sealed one, which goes nowhere before its tag is verified (R411; that every other packet's forwarding has begun with
its header is a DESIGN CHOICE, log entry 14). -/
def State.finishHalf (s : State) (n : Nat) (o : JxOpen) : State :=
  if s.ownId o.h.dst || o.h.sealed_ || inRange o.h.ptype 0x10 6 then s
  else s.jxForward ⟨o.h, fixLen o.h.len o.got, n, o.h.vc⟩

/-- A port is DOWN for Jexlink: its unacknowledged flits are lost, what it had begun to receive is discarded or completed, its keys are cleared, and its queue
moves on (R395, R400, R602). -/
def State.jxDown (s : State) (n : Nat) : State :=
  if s.lstate n = 0 then s
  else
    let k := portK n
    let p := portP n
    let s := (s.wr (JX_PORT_STAT.LSTATE k p) 0).wr (JX_PORT_STAT.SSTATE k p) 0
    let half := (s.port n).open_
    let s := s.updPort n (fun x => { x with
      unacked := [], stuck := 0, bad := false, nak := false, open_ := none, txKey := none, rxKey := none, txCtr := 0, rxCtr := 0, agr := none, farKey := none, authAt := [] })
    let exch := match s.jx.exch with
      | some e => if e.1 = n then none else some e
      | none => none
    let s := { s with jx := { s.jx with exch := exch, heard := s.jx.heard.filter (fun e => decide (e.1 / 131072 ≠ n)) } }
    let s := match half with
      | some o => s.finishHalf n o
      | none => s
    (s.moveQueue n).linkEvent n

end Sys2Proof.Machine
end

