-- ==== Sys2Proof/Machine/StoreOps.lean ====
section
/-! DEFINITION. The central store's shared operations: where a page lives (R226, R232 to R234), who may reach it (R228, R229), lost stacks and
rebuilding (R236, R257 to R261), line errors (R251 to R253), and reads, writes and combinations at a hub (R235 to R238). -/

namespace Sys2Proof.Machine

/-! ### Placement of pages -/

/-- Parity mode in effect (R264). -/
def State.pmode (s : State) : Bool := s.bit MH_STORE_CFG.PMODE

/-- The size of a segment (R226). -/
def State.segSize (s : State) : Nat := if s.pmode then 44 * 2 ^ 30 else 48 * 2 ^ 30

/-- The size of the central store (R224). -/
def State.storeSize (s : State) : Nat := 48 * s.segSize

/-- Are the `n` bytes from `a` in the central store (R224)? -/
def State.inStore (s : State) (a n : Nat) : Bool := decide (a + n ≤ s.storeSize)

/-- The segment of an address (R226). -/
def State.segOf (s : State) (a : Nat) : Nat := a / s.segSize

/-- Stack and stack-local page of the page of an address (R232 to R234), of a parity page too. -/
def State.place (s : State) (a : Nat) : Nat × Nat :=
  if s.pmode then (if a < parityBase then parityPage (a / 4096) else (parityStack (stripeOf a).1 (stripeOf a).2, (stripeOf a).2))
  else if s.bit (MH_SEG_MAP.MODE (s.segOf a)) then edgeLocal (s.segOf a) a
  else interleaved (a / 4096)

/-- Is stack HSn lost (R257)? -/
def State.stackLost (s : State) (n : Nat) : Bool := decide (s.rd (MH_STACK_STATE.STATE n) = 2)

/-- Is stack HSn training, so that its hub holds requests (R257)? -/
def State.stackTraining (s : State) (n : Nat) : Bool := decide (s.rd (MH_STACK_STATE.STATE n) = 3)

/-- The stripe of a group is rebuilt: the lost page of it stands in the former parity page (R260). -/
def State.stripeBuilt (s : State) (g st : Nat) : Bool :=
  decide (st / 12 < Tab.get 0 s.store.built (parityStack g st)) || s.store.early.contains (parityStack g st, st)

/-- Does the store still hold the data of the page of `a` (R258 to R261)? -/
def State.pageAlive (s : State) (a : Nat) : Bool :=
  let (st, pg) := s.place a
  if !s.stackLost st then true
  else if !s.pmode then false
  else
    match Tab.get [] s.store.lost (st / 12) with
    | [_] => true
    | l :: _ => decide (l = st) && s.stripeBuilt (st / 12) pg && !s.stackLost (parityStack (st / 12) pg)
    | [] => true

/-- The stack that serves the page of `a`: its own, or where that is lost in parity mode the stack of the stripe's parity position
(R236, R259). -/
def State.serving (s : State) (a : Nat) : Nat :=
  let (st, pg) := s.place a
  if s.pmode && s.stackLost st then parityStack (st / 12) pg else st

/-- The hub that an agent of die `d` sends an access to `a` to, by the die's copies of the decode state (R235, R236, R267). -/
def State.hubFor (s : State) (d a : Nat) : Nat :=
  let lost := fun (n : Nat) => if n < 32 then bitOf (s.rd (CD_STORE_LOST_LO.LOST d)) n else bitOf (s.rd (CD_STORE_LOST_HI.LOST d)) (n - 32)
  let (st, pg) :=
    if s.bit (CD_STORE_CFG.PMODE d) then parityPage (a / 4096)
    else if s.bit (CD_SEG_MAP.MODE d (a / (48 * 2 ^ 30))) then edgeLocal (a / (48 * 2 ^ 30)) a
    else interleaved (a / 4096)
  (if s.bit (CD_STORE_CFG.PMODE d) && lost st then parityStack (st / 12) pg else st) / 2

/-! ### Owners -/

/-- The firmware area (R227): the last GiB of segment 47. -/
def State.inFwArea (s : State) (a n : Nat) : Bool := decide (0 < n) && decide (s.rd MH_FW_AREA.BASE < a + n)

/-- May partition `p` reach segment `j`, firmware area aside (R228)? -/
def State.segOpen (s : State) (p j : Nat) : Bool :=
  s.bit (MH_SEG_MAP.SHARED j) || (s.bit (MH_SEG_MAP.ASSIGNED j) && decide (s.rd (MH_SEG_MAP.OWNER j) = p))

/-- The segments that [a, a + n) touches. -/
def State.segsOf (s : State) (a n : Nat) : List Nat :=
  if n = 0 then [] else (List.range 48).filter (fun j => decide (s.segOf a ≤ j) && decide (j ≤ s.segOf (a + n - 1)))

/-- May partition `p` reach all of [a, a + n) (R228, R229)? -/
def State.mayReach (s : State) (p a n : Nat) : Bool :=
  s.inStore a n && !s.inFwArea a n && (s.segsOf a n).all (s.segOpen p)

/-- The copy of the segment map in compute die `d` lets partition `p` reach [a, a + n) (R229, R267). -/
def State.dieMayReach (s : State) (d p a n : Nat) : Bool :=
  let sz := if s.bit (CD_STORE_CFG.PMODE d) then 44 * 2 ^ 30 else 48 * 2 ^ 30
  decide (0 < n) && decide (a + n ≤ 48 * sz - 2 ^ 30) &&
    ((List.range 48).filter (fun j => decide (a / sz ≤ j) && decide (j ≤ (a + n - 1) / sz))).all (fun j =>
      s.bit (CD_SEG_MAP.SHARED d j) || (s.bit (CD_SEG_MAP.ASSIGNED d j) && decide (s.rd (CD_SEG_MAP.OWNER d j) = p)))

/-! ### Parity (R234, R256) -/

/-- A byte of the parity page of a stripe: the XOR of its 11 data pages, which every write keeps (R234, R256). -/
def State.parityByte (s : State) (g st o : Nat) : Byte := (stripeData g st o).foldl (fun b a => b ^^^ s.byte a) 0

/-- A byte of a data page as its stripe's other pages give it: the parity and the 10 other data bytes (R253, R259). -/
def State.rebuiltByte (s : State) (a : Nat) : Byte :=
  let (g, st) := stripeOf a
  ((stripeData g st (a % 4096)).filter (fun x => decide (x ≠ a))).foldl (fun b x => b ^^^ s.byte x) (s.parityByte g st (a % 4096))

/-! ### Rebuilding (R260, R261) -/

/-- The stripes whose parity a stack holds: its position and the one after `i` of them (R234). -/
def stripeAt (n i : Nat) : Nat := n % 12 + 12 * i

/-- Stripes of one parity position (R234). -/
def stripesPerPos : Nat := 1048576

/-- The first stripe of a parity position, from its `i`-th on, that is not rebuilt (R260). -/
def State.nextStripe (s : State) (n : Nat) : Nat :=
  let i := Tab.get 0 s.store.built n
  ((List.range (s.store.early.length + 1)).map (fun j => i + j)).find? (fun j => !s.store.early.contains (n, stripeAt n j)) |>.getD i

/-- The surviving stacks of a group. -/
def State.survivors (s : State) (g : Nat) : List Nat := ((List.range 12).map (fun i => 12 * g + i)).filter (fun n => !s.stackLost n)

/-- Progress of a group: the lowest stripe not rebuilt, and UNPROTECTED once every stripe is (R260, R261). A stripe whose parity stood on the lost stack needs
no work. PROG then reads 12 × 1,048,576, one past the last stripe (DESIGN CHOICE, log entry 96: R260 gives no value for that time). -/
def State.progress (s : State) (g : Nat) : State :=
  let todo := (s.survivors g).filter (fun n => decide (s.nextStripe n < stripesPerPos))
  match todo with
  | [] => (s.wr (MH_PGRP_PROG.STRIPE g) (12 * stripesPerPos)).wr (MH_PGRP_STATE.STATE g) 4
  | n :: l => s.wr (MH_PGRP_PROG.STRIPE g) (l.foldl (fun m x => min m (stripeAt x (s.nextStripe x))) (stripeAt n (s.nextStripe n)))

/-! ### Losing a stack -/

/-- A stack is lost (R257): its state, and in parity mode its group's (R259, R261). -/
def State.loseStack (s : State) (n : Nat) : State :=
  if s.stackLost n then s else
  let s := s.wr (MH_STACK_STATE.STATE n) 2
  if !s.pmode then s else
  let g := n / 12
  let first := Tab.get [] s.store.lost g
  let s := { s with store := { s.store with lost := Tab.set [] s.store.lost g (first ++ [n]) } }
  if first.isEmpty then
    ((s.wr (MH_PGRP_STATE.STATE g) (if s.bit MH_RECON_CTL.AUTO then 3 else 2)).wr (MH_PGRP_STATE.LOST_STACK g) n).progress g
  else s.wr (MH_PGRP_STATE.STATE g) 5

/-- The steward marks a stack lost in every die's mask (R236, R267). -/
def State.maskStack (s : State) (n : Nat) : State :=
  forN 144 (fun d s => if n < 32 then s.wrBit (CD_STORE_LOST_LO.LOST d) n true else s.wrBit (CD_STORE_LOST_HI.LOST d) (n - 32) true) s

/-- A compute die's copies of the segment map and of the decode state (R230, R236, R267). -/
def State.storeCopies (s : State) (d : Nat) : State :=
  let s := forN 48 (fun j s =>
    (((s.wr (CD_SEG_MAP.ASSIGNED d j) (s.rd (MH_SEG_MAP.ASSIGNED j))).wr (CD_SEG_MAP.SHARED d j) (s.rd (MH_SEG_MAP.SHARED j))).wr
      (CD_SEG_MAP.MODE d j) (s.rd (MH_SEG_MAP.MODE j))).wr (CD_SEG_MAP.OWNER d j) (s.rd (MH_SEG_MAP.OWNER j))) s
  let s := s.wr (CD_STORE_CFG.PMODE d) (s.rd MH_STORE_CFG.PMODE)
  forN 48 (fun n s =>
    if n < 32 then s.wrBit (CD_STORE_LOST_LO.LOST d) n (s.stackLost n) else s.wrBit (CD_STORE_LOST_HI.LOST d) (n - 32) (s.stackLost n)) s

/-! ### Errors of a line -/

/-- Hub and index of a stack (R223). -/
def stackHub (n : Nat) : Nat := n / 2
def stackIdx (n : Nat) : Nat := n % 2

/-- The stack-local address of an address (R232 to R234). -/
def State.localAddr (s : State) (a : Nat) : Nat := (s.place a).2 * 4096 + a % 4096

/-- BUSY of a hub: a repair is in progress, begun as a row of a stack in service is due and repairs are enabled (R254, R266). -/
def State.pprBusy (s : State) (k : Nat) : State :=
  s.wr (MH_PPR_STAT.BUSY k) (b2n (s.bit (MH_PPR_CTL.EN k) && s.store.repairs.any (fun e => decide (stackHub e.1 = k) && !s.stackLost e.1 && !s.stackTraining e.1)))

/-- A row is due for repair, where it is not already (R254). -/
def State.dueRepair (s : State) (n row : Nat) : State :=
  if s.store.repairs.contains (n, row) then s
  else ({ s with store := { s.store with repairs := s.store.repairs ++ [(n, row)] } }).pprBusy (stackHub n)

/-- A corrected error of the line at `a` is counted and may make its row due for repair (R251, R254). -/
def State.hubCe (s : State) (a : Nat) : State :=
  let n := s.serving a
  let k := stackHub n
  let s := s.hcount (MH_CE_CNT.COUNT k (stackIdx n)) (if stackIdx n = 0 then MH_ERR_STAT.CE_SAT0 k else MH_ERR_STAT.CE_SAT1 k) 1
  let row := Config.dramRow (s.localAddr a)
  let l := (s.store.ceRows.filter (fun e => decide (s.ptime < e.2.2 + 86400000000000))) ++ [(n, row, s.ptime)]
  let s := { s with store := { s.store with ceRows := l } }.dayCount (40000 + n) 1
  let thr := s.rd (MH_PPR_CTL.CE_THR k)
  if thr ≠ 0 ∧ thr ≤ (l.filter (fun e => decide (e.1 = n) && decide (e.2.1 = row))).length then s.dueRepair n row else s

/-- An uncorrectable error of the line at `a` is recorded; its row is due for repair, and 16 rows within an hour lose the stack
(R253, R254, R257). -/
def State.hubUe (s : State) (a : Nat) (fixed : Bool) : State :=
  let n := s.serving a
  let k := stackHub n
  let s := ((s.wr (MH_UE_ADDR.ADDR k (stackIdx n)) (a / 64 * 64)).wr (MH_ERR_STAT.UE k) 1).wr (MH_ERR_STAT.UE_STACK k) (stackIdx n)
  let s := s.wr (MH_ERR_STAT.UE_FIXED k) (b2n fixed)
  let row := Config.dramRow (s.localAddr a)
  let l := (s.store.ueRows.filter (fun e => decide (s.ptime < e.2.2 + 3600000000000))) ++ [(n, row, s.ptime)]
  let s := ({ s with store := { s.store with ueRows := l } }).dueRepair n row
  let rows := ((l.filter (fun e => decide (e.1 = n))).map (fun e => e.2.1)).dedup
  if 16 ≤ rows.length then (s.loseStack n).maskStack n else s

/-- How many bits of the line at `a` are wrong: 0, 1 (correctable), or more (R251). -/
def State.lineErr (s : State) (a : Nat) : Nat :=
  let l := s.ecc.filter (fun e => decide (e.1 / 8 = a / 64))
  l.foldl (fun n e => n + e.2) 0

/-- The line at `a` has fresh check bits. -/
def State.lineFresh (s : State) (a : Nat) : State := { s with ecc := s.ecc.filter (fun e => decide (e.1 / 8 ≠ a / 64)) }

/-- The stack reads the line at `a`: a single-bit error is corrected and written back (R251); the answer is false on a worse one. -/
def State.lineOwn (s : State) (a : Nat) : State × Bool :=
  match s.lineErr a with
  | 0 => (s, true)
  | 1 => ((s.hubCe a).lineFresh a, true)
  | _ => (s, false)

/-- The other 11 lines of the stripe of a line (R234, R253). -/
def mates (a : Nat) : List Nat :=
  let (g, st) := stripeOf a
  let o := a % 4096 / 64 * 64
  (stripeData g st o ++ [parityAddr g st + o]).filter (fun x => decide (x ≠ a / 64 * 64))

/-- Lines that a rebuild needs are read in turn; one that cannot be corrected is recorded, and ends it (R253). -/
def State.matesRead (s : State) : List Nat → State × Bool
  | [] => (s, true)
  | a :: t =>
    match s.lineOwn a with
    | (s, false) => (s.hubUe a false, false)
    | (s, true) => s.matesRead t

/-- May a line be rebuilt from its stripe: parity mode, the stripe's parity still held, and every other stack of it in service (R253, R259, R260)? -/
def State.hasParity (s : State) (a : Nat) : Bool :=
  s.pmode && !s.stripeBuilt (stripeOf a).1 (stripeOf a).2 && (mates a).all (fun x => !s.stackLost (s.place x).1)

/-- A line is rebuilt from the other 11 of its stripe (R253, R259). -/
def State.rebuildLine (s : State) (a : Nat) : State × Bool := if s.hasParity a then s.matesRead (mates a) else (s, false)

/-- A hub reads the line at `a`: an error that the code does not correct is rebuilt in parity mode, or is the answer (R253). The line of a lost page is rebuilt,
or read from the former parity page (R259, R260). -/
def State.lineRead (s : State) (a : Nat) : State × Bool :=
  let (n, pg) := s.place a
  if s.pmode && s.stackLost n then
    let g := (stripeOf a).1
    if s.stripeBuilt g pg then
      let q := parityAddr g pg + a % 4096
      match s.lineOwn q with
      | (s, true) => (s, true)
      | (s, false) => (s.hubUe q false, false)
    else s.rebuildLine a
  else
    match s.lineOwn a with
    | (s, true) => (s, true)
    | (s, false) =>
      match s.rebuildLine a with
      | (s, true) => ((s.hubUe a true).lineFresh a, true)
      | (s, false) => (s.hubUe a false, false)

/-- Can the line at `a` not be given as it stands (R253, R259, R262)? -/
def State.lineDead (s : State) (a : Nat) : Bool :=
  let (n, pg) := s.place a
  let bad := fun (x : Nat) => decide (2 ≤ s.lineErr x)
  let noMates := !s.hasParity a || (mates a).any bad
  if s.pmode && s.stackLost n then (if s.stripeBuilt (stripeOf a).1 pg then bad (parityAddr (stripeOf a).1 pg + a % 4096) else noMates)
  else bad a && noMates

/-- The lines of [a, a + n), by address. -/
def lineAddrs (a n : Nat) : List Nat :=
  if n = 0 then [] else (List.range ((a + n - 1) / 64 - a / 64 + 1)).map (fun i => 64 * (a / 64 + i))

/-- Lines read in turn; the answer is false where one cannot be corrected. -/
def State.linesRead (s : State) : List Nat → State × Bool
  | [] => (s, true)
  | a :: t =>
    match s.lineRead a with
    | (s, false) => (s, false)
    | (s, true) => s.linesRead t

/-! ### Accesses at the owning hub -/

/-- The perf counter of bytes read (0) or written (1) of a stack (R582). -/
def State.storePerf (s : State) (st wr n : Nat) : State :=
  let k := stackHub st
  let i := stackIdx st
  s.pcount (hubNode k) (if wr = 0 then MH_PERF_RD.COUNT k i else MH_PERF_WR.COUNT k i) (MH_PERF_WRAP.WRAP k) (2 * i + wr) n

/-- What keeps an access to [a, a + n), within one page, from being served: the SCODE of the answer (R235, R258, R262). -/
def State.storeBad (s : State) (a n : Nat) : Option Nat :=
  if n = 0 || !s.inStore a n || decide (a / 4096 ≠ (a + n - 1) / 4096) then some 2
  else if !s.pageAlive a || !s.bit (MH_HUB_STAT.INSERVICE (stackHub (s.serving a))) then some 8
  else none

/-- The bytes of a page that a read gives: those of a lost page that is not rebuilt come from the other pages of its stripe (R259, R260). -/
def State.pageBytes (s : State) (a n : Nat) : List Byte :=
  let (st, pg) := s.place a
  if s.pmode && s.stackLost st && !s.stripeBuilt (st / 12) pg then (List.range n).map (fun i => s.rebuiltByte (a + i)) else s.bytes a n

/-- A read at the owning hub, within one page: the bytes, or the SCODE (R235, R251, R253, R258). -/
def State.pageRead (s : State) (a n : Nat) : State × Except Nat (List Byte) :=
  match s.storeBad a n with
  | some e => (s, .error e)
  | none =>
    match s.linesRead (lineAddrs a n) with
    | (s, false) => (s, .error 8)
    | (s, true) => (s.storePerf (s.serving a) 0 n, .ok (s.pageBytes a n))

/-- Is the page of `a` to be rebuilt out of order before a write: lost, its group rebuilding, its stripe not yet rebuilt (R260)? -/
def State.buildDue (s : State) (a : Nat) : Bool :=
  let (st, pg) := s.place a
  s.pmode && s.stackLost st && decide (s.rd (MH_PGRP_STATE.STATE (st / 12)) = 3) && !s.stripeBuilt (st / 12) pg

/-- A write to a lost page in a stripe that is not rebuilt rebuilds the stripe first, out of order (R260); false where a line of it cannot be rebuilt. -/
def State.buildFirst (s : State) (a : Nat) : State × Bool :=
  if s.buildDue a then
    let (st, pg) := s.place a
    match s.linesRead (lineAddrs (a / 4096 * 4096) 4096) with
    | (s, false) => (s, false)
    | (s, true) => (({ s with store := { s.store with early := (parityStack (st / 12) pg, pg) :: s.store.early } }).progress (st / 12), true)
  else (s, true)

/-- What a write of a line reads to keep the stripe's parity (R256, R268): the old data and the old parity line; for a lost page the other lines of the stripe.
A rebuilt stripe has no parity, nor has one whose parity page is lost (R260). -/
def State.parityRead (s : State) (a : Nat) : State × Bool :=
  let (n, pg) := s.place a
  let g := (stripeOf a).1
  if !s.pmode || s.stripeBuilt g pg || s.stackLost (parityStack g pg) then (s, true)
  else if s.stackLost n then s.lineRead a
  else
    match s.lineRead a with
    | (s, false) => (s, false)
    | (s, true) => s.lineRead (parityAddr g pg + a % 4096)

/-- The lines of a write in turn (R256). -/
def State.paritiesRead (s : State) : List Nat → State × Bool
  | [] => (s, true)
  | a :: t =>
    match s.parityRead a with
    | (s, false) => (s, false)
    | (s, true) => s.paritiesRead t

/-- A performed write strikes the guarded ranges it touches (R298) and shuts the waiting read-queue entries it touches (R240). -/
def State.touched (s : State) (a n : Nat) : State :=
  { s with
    guards := s.guards.map (fun g => if overlap a n g.lo (g.hi - g.lo) then { g with struck := true } else g)
    store := { s.store with readQ := s.store.readQ.map (fun q => (q.1, q.2.map (fun e =>
      if overlap a n e.addr e.len then { e with shut := true } else e))) } }

/-- A write at the owning hub, within one page: none, or the SCODE (R235, R251, R253, R256, R258, R260). Lines written in part
are read first, and in parity mode what their parity needs; that the parity is again the XOR of its stripe is what `parityByte` says. -/
def State.pageWrite (s : State) (a : Nat) (l : List Byte) : State × Option Nat :=
  let n := l.length
  match s.storeBad a n with
  | some e => (s, some e)
  | none =>
    let part := (lineAddrs a n).filter (fun x => decide (x < a) || decide (a + n < x + 64))
    match s.linesRead part with
    | (s, false) => (s, some 8)
    | (s, true) =>
      match s.buildFirst a with
      | (s, false) => (s, some 8)
      | (s, true) =>
        match s.paritiesRead (lineAddrs a n) with
        | (s, false) => (s, some 8)
        | (s, true) =>
          let s := forL (lineAddrs a n) (fun x s => s.lineFresh x) s
          (((s.write a l).touched a n).storePerf (s.serving a) 1 n, none)

/-- [a, a + n) cut at page boundaries (R235). -/
def pagePieces (a n : Nat) : List (Nat × Nat) :=
  if n = 0 then [] else
  (List.range ((a + n - 1) / 4096 - a / 4096 + 1)).map (fun i =>
    let lo := max a ((a / 4096 + i) * 4096)
    let hi := min (a + n) ((a / 4096 + i + 1) * 4096)
    (lo, hi - lo))

/-- A read of any range, piece by piece; the first failure is the answer. -/
def State.storeReadL (s : State) : List (Nat × Nat) → State × Except Nat (List Byte)
  | [] => (s, .ok [])
  | (a, n) :: t =>
    match s.pageRead a n with
    | (s, .error e) => (s, .error e)
    | (s, .ok l) =>
      match s.storeReadL t with
      | (s, .error e) => (s, .error e)
      | (s, .ok m) => (s, .ok (l ++ m))

/-- A read of any range of the store. -/
def State.storeRead (s : State) (a n : Nat) : State × Except Nat (List Byte) := s.storeReadL (pagePieces a n)

/-- A write of any range, piece by piece; pieces before a failure stay written. -/
def State.storeWriteL (s : State) (l : List Byte) (a0 : Nat) : List (Nat × Nat) → State × Option Nat
  | [] => (s, none)
  | (a, n) :: t =>
    match s.pageWrite a ((l.drop (a - a0)).take n) with
    | (s, some e) => (s, some e)
    | (s, none) => s.storeWriteL l a0 t

/-- A write of any range of the store. -/
def State.storeWrite (s : State) (a : Nat) (l : List Byte) : State × Option Nat := s.storeWriteL l a (pagePieces a l.length)

/-- Is a stack that serves part of [a, a + n) training, so that the hub holds the request (R257)? The stack is the answer. -/
def State.heldBy (s : State) (a n : Nat) : Option Nat :=
  ((pagePieces a n).map (fun e => s.serving e.1)).find? s.stackTraining

/-- Which stack a held request is for. -/
def HeldReq.stack : HeldReq → Nat
  | .pkt n _ _ => n
  | .desc n _ => n
  | .red n _ => n

/-! ### Staging pools (R241) -/

/-- The pool that a held request fills, and by how many bytes: 1 combine, 2 write merge; a read and a descriptor fill none. -/
def HeldReq.fills : HeldReq → Nat × Nat
  | .pkt _ h data => if h.type = 0 then (2, data.length) else (3, 0)
  | .desc _ _ => (3, 0)
  | .red _ p => (1, p.h.len)

/-- The pools that can fill up: 0 weight streams, of 4 KiB pages; 1 combine and 2 write merge, whose requests are performed at once but where their stack
trains. What the other pools hold has room always: 256 read-queue entries of at most 1,024 bytes in the meld pool, the rebuild bitmaps of four groups and
one parity update at a time, and one row under repair. -/
def poolCap (i : Nat) : Nat := if i = 0 then 128 * 2 ^ 20 else 32 * 2 ^ 20

/-- Bytes of a pool in use. -/
def State.poolUsed (s : State) (k i : Nat) : Nat :=
  if i = 0 then 4096 * (s.store.ws.filter (fun x => decide (x.hub = k) && x.data.isSome)).length
  else ((s.store.held.filter (fun r => decide (stackHub r.stack = k) && decide (r.fills.1 = i))).map (fun r => r.fills.2)).sum

/-- Is a pool full: no room for the largest request, a page, or a packet of 4 KiB (R218) or 1,024 bytes (R163)? -/
def State.poolFull (s : State) (k i : Nat) : Bool := decide (poolCap i < s.poolUsed k i + (if i = 2 then 1024 else 4096))

/-- STG_BUSY of a hub, and MH_STG_FULL counting each time that a pool becomes full (R266). -/
def State.notePools (s : State) (k : Nat) : State :=
  let now := (List.range 3).filter (s.poolFull k)
  let newly := now.filter (fun i => !s.store.full.contains (k, i))
  let s := (s.sat (MH_STG_FULL.COUNT k) newly.length).wr (MH_HUB_STAT.STG_BUSY k) (b2n (!now.isEmpty))
  { s with store := { s.store with full := s.store.full.filter (fun e => decide (e.1 ≠ k)) ++ now.map (fun i => (k, i)) } }

/-- A request is held (R257). -/
def State.hold (s : State) (r : HeldReq) : State :=
  if s.store.held.contains r then s else ({ s with store := { s.store with held := s.store.held ++ [r] } }).notePools (stackHub r.stack)

end Sys2Proof.Machine
end

