-- ==== Sys2Proof/Machine/Plans.lean ====
section
/-! DEFINITION. What the compiler hands the dealer: kernel objects (R272 to R274) and layer plans (R282 to R288), read and checked; and the embedding of a
grid (R275 to R278). -/

namespace Sys2Proof.Machine

/-- Little-endian field of `n` bytes at byte `b`. -/
def fieldAt (l : List Byte) (b n : Nat) : Nat := leNat ((l.drop b).take n)

/-! ### Kernel objects -/

/-- Task record `i` of an object (R273). -/
def taskRec (l : List Byte) (i : Nat) : KTask :=
  let b := 64 + 32 * i
  { slot := fieldAt l b 1 % 4, mx := bitOf (fieldAt l b 1) 2, linear := bitOf (fieldAt l b 1) 3, ncnt := fieldAt l (b + 1) 1 % 128,
    wsize := fieldAt l (b + 2) 2 % 1024, entry := fieldAt l (b + 4) 4 % 2 ^ 18, codeOff := fieldAt l (b + 8) 4 % 2 ^ 18,
    codeLen := fieldAt l (b + 12) 4 % 2 ^ 18, codeSrc := fieldAt l (b + 16) 4 % 2 ^ 22, constOff := fieldAt l (b + 20) 4 % 2 ^ 18,
    constLen := fieldAt l (b + 24) 4 % 2 ^ 18, constSrc := fieldAt l (b + 28) 4 % 2 ^ 22 }

/-- Are the reserved bits of task record `i` zero (R273)? -/
def taskRsvOk (l : List Byte) (i : Nat) : Bool :=
  let b := 64 + 32 * i
  decide (fieldAt l b 1 < 16) && decide (fieldAt l (b + 1) 1 < 128) && decide (fieldAt l (b + 2) 2 < 1024) &&
  [4, 8, 12, 20, 24].all (fun o => decide (fieldAt l (b + o) 4 < 2 ^ 18)) && [16, 28].all (fun o => decide (fieldAt l (b + o) 4 < 2 ^ 22))

/-- Are the fields of a task record in range, and its images inside the window and the object of `len` bytes (R273, R274)? -/
def KTask.ok (t : KTask) (len : Nat) : Bool :=
  decide (t.ncnt ≤ 64) && inRange t.wsize 1 768 && (!t.linear || decide (t.wsize % 4 = 0)) && decide (t.entry % 4 = 0) &&
  decide (t.codeOff % 64 = 0) && decide (t.codeLen % 4 = 0) && decide (4 ≤ t.codeLen) && decide (t.codeSrc % 16 = 0) && decide (t.constLen % 16 = 0) &&
  decide (t.codeOff + t.codeLen ≤ t.wsize * 256) && decide (t.codeSrc + t.codeLen ≤ len) &&
  (decide (t.constLen = 0) ||
    (decide (t.constOff % 16 = 0) && decide (t.constOff + t.constLen ≤ t.wsize * 256) && decide (t.constSrc + t.constLen ≤ len))) &&
  inRange t.entry t.codeOff t.codeLen

/-- Does an object's header pass (R272, R274)? -/
def kernelHdrOk (l : List Byte) : Bool :=
  let n := fieldAt l 5 1
  let len := fieldAt l 8 4
  decide (fieldAt l 0 4 = 0x4B504F42) && decide (fieldAt l 4 1 = 1) && inRange n 1 4 && decide (fieldAt l 6 2 = 0) && decide (fieldAt l 16 48 = 0) &&
  decide (len % 16 = 0) && decide (len ≤ 4 * 2 ^ 20) && decide (64 + 32 * n ≤ len)

/-- The task records of an object whose header passes, or the status that it gives: INVALID before DATA_ERROR (R274). -/
def parseKernel (l : List Byte) : Except Nat (List KTask) :=
  let n := fieldAt l 5 1
  let len := fieldAt l 8 4
  let ts := (List.range n).map (taskRec l)
  if !kernelHdrOk l || decide (l.length < len) then .error 2
  else if !((List.range n).all (taskRsvOk l) && ts.all (fun t => t.ok len)) then .error 2
  else if decide ((ts.map (fun t => t.slot)).dedup.length < n) || decide (1 < (ts.filter (fun t => t.mx)).length) then .error 2
  else if crc32 ((l.take len).drop 16) ≠ fieldAt l 12 4 then .error 8
  else .ok ts

/-- The task records of partition `p`'s kernel handle, its object and the object's address, as the store holds it now; none where it is unbound. -/
def State.kernelOf (s : State) (p h : Nat) : Option (List KTask × Nat) :=
  match Tab.get 0 (s.part p).kernels h with
  | 0 => none
  | a + 1 =>
    let n := fieldAt (s.bytes a 64) 5 1
    some ((List.range n).map (taskRec (s.bytes a (64 + 32 * n))), a)

/-! ### Layer plans -/

/-- The lengths of a plan's arrays, from its header (R282). -/
def planLen (l : List Byte) : Nat := 128 + 8 * fieldAt l 56 1 + 16 * fieldAt l 57 1 + 8 * fieldAt l 58 1 + 48 * fieldAt l 59 1

/-- A plan by field (R282, R284, R285, R287). -/
def parsePlan (l : List Byte) : Plan :=
  let nc := fieldAt l 56 1
  let ni := fieldAt l 57 1
  let no := fieldAt l 58 1
  let nw := fieldAt l 59 1
  let bi := 128 + 8 * nc
  let bo := bi + 16 * ni
  let bw := bo + 8 * no
  let f5 := fieldAt l 5 1
  { policy := f5 % 4, heavy := f5 / 4 % 2, noshuf := bitOf f5 3, n := fieldAt l 6 1, kernel := fieldAt l 7 1 % 64, gx := fieldAt l 8 2,
    gy := fieldAt l 10 2, limitUs := fieldAt l 12 4, seedBase := fieldAt l 16 8, cbase := fieldAt l 24 8 % 2 ^ 48, len := fieldAt l 32 4,
    tbase := (List.range 4).map (fun i => fieldAt l (40 + 2 * i) 2 % 1024), tcbase := (List.range 4).map (fun i => fieldAt l (48 + i) 1 % 64),
    barmask := (List.range 4).map (fun i => fieldAt l (52 + i) 1 % 128),
    cnts := (List.range nc).map (fun i =>
      let b := 128 + 8 * i
      { slot := fieldAt l b 1 % 4, first := fieldAt l (b + 1) 1 % 64, count := fieldAt l (b + 2) 1, value := fieldAt l (b + 4) 4 }),
    ins := (List.range ni).map (fun i =>
      let b := bi + 16 * i
      { sp := fieldAt l b 4 % 2 ^ 18, len := fieldAt l (b + 4) 4 % 2 ^ 18, store := fieldAt l (b + 8) 6, src := bitOf (fieldAt l (b + 15) 1) 7 }),
    outs := (List.range no).map (fun i =>
      let b := bo + 8 * i
      { sp := fieldAt l b 4 % 2 ^ 18, len := fieldAt l (b + 4) 4 % 2 ^ 18, store := 0, src := false }),
    ws := (List.range nw).map (fun i =>
      let b := bw + 48 * i
      let w := fieldAt l (b + 20) 4
      { saddr := fieldAt l b 8 % 2 ^ 48, rowBytes := fieldAt l (b + 8) 2, rowCount := fieldAt l (b + 10) 2, sstride := fieldAt l (b + 12) 4,
        vx0 := fieldAt l (b + 16) 1, vx1 := fieldAt l (b + 17) 1, vy0 := fieldAt l (b + 18) 1, vy1 := fieldAt l (b + 19) 1,
        roff := w % 2 ^ 18, slot := w / 2 ^ 18 % 4, rstride := fieldAt l (b + 24) 4, cnt := fieldAt l (b + 28) 1 % 64,
        cntEn := bitOf (fieldAt l (b + 28) 1) 7, after := fieldAt l (b + 29) 1, inc := fieldAt l (b + 30) 2 }) }

/-- Are the header's fields in range and its reserved bits zero (R282, R288)? -/
def planHdrOk (l : List Byte) : Bool :=
  let f5 := fieldAt l 5 1
  let n := fieldAt l 6 1
  decide (fieldAt l 0 4 = 0x4C504C41) && decide (fieldAt l 4 1 = 1) && decide (f5 % 4 ≠ 3) && decide (f5 < 16) &&
  (if f5 % 4 = 1 then decide (1 ≤ n) else decide (n = 0)) && decide (fieldAt l 7 1 < 64) && inRange (fieldAt l 8 2) 1 256 && inRange (fieldAt l 10 2) 1 128 &&
  decide (fieldAt l 24 8 < 2 ^ 48) && decide (fieldAt l 24 8 % 4096 = 0) && (List.range 4).all (fun i => decide (fieldAt l (40 + 2 * i) 2 < 1024)) &&
  (List.range 4).all (fun i => decide (fieldAt l (48 + i) 1 < 64)) && (List.range 4).all (fun i => decide (fieldAt l (52 + i) 1 < 128)) &&
  decide (fieldAt l 56 1 ≤ 16) && decide (fieldAt l 57 1 ≤ 8) && decide (fieldAt l 58 1 ≤ 8) && decide (fieldAt l 59 1 ≤ 64) &&
  decide (fieldAt l 60 68 = 0) && decide (fieldAt l 32 4 = planLen l)

/-- An extent's address and length (R285). -/
def extentOk (l : List Byte) (b : Nat) : Bool :=
  let a := fieldAt l b 4
  let n := fieldAt l (b + 4) 4
  decide (a < 2 ^ 18) && decide (n < 2 ^ 18) && decide (a % 16 = 0) && decide (n % 16 = 0) && decide (n ≠ 0) && decide (a + n ≤ 0x30000)

/-- Are the records' fields in range and their reserved bits zero (R284, R285, R287, R288)? -/
def planRecsOk (l : List Byte) : Bool :=
  let nc := fieldAt l 56 1
  let ni := fieldAt l 57 1
  let no := fieldAt l 58 1
  let nw := fieldAt l 59 1
  let bi := 128 + 8 * nc
  let bo := bi + 16 * ni
  let bw := bo + 8 * no
  let gx := fieldAt l 8 2
  let gy := fieldAt l 10 2
  (List.range nc).all (fun i =>
    let b := 128 + 8 * i
    decide (fieldAt l b 1 < 4) && decide (fieldAt l (b + 1) 1 < 64) && inRange (fieldAt l (b + 2) 1) 1 64 && decide (fieldAt l (b + 3) 1 = 0)) &&
  (List.range ni).all (fun i =>
    let b := bi + 16 * i
    extentOk l b && decide (fieldAt l (b + 14) 2 % 2 ^ 15 = 0) && (!bitOf (fieldAt l (b + 15) 1) 7 || decide (fieldAt l (b + 8) 6 % 16 = 0))) &&
  (List.range no).all (fun i => extentOk l (bo + 8 * i)) &&
  (List.range nw).all (fun i =>
    let b := bw + 48 * i
    decide (fieldAt l b 8 < 2 ^ 48) && decide (fieldAt l b 8 % 16 = 0) && decide (fieldAt l (b + 8) 2 % 16 = 0) && decide (fieldAt l (b + 8) 2 ≠ 0) &&
    decide (fieldAt l (b + 10) 2 ≠ 0) && decide (fieldAt l (b + 12) 4 % 16 = 0) && decide (fieldAt l (b + 18) 1 < 128) && decide (fieldAt l (b + 19) 1 < 128) &&
    decide (fieldAt l (b + 16) 1 ≤ fieldAt l (b + 17) 1) && decide (fieldAt l (b + 17) 1 < gx) && decide (fieldAt l (b + 18) 1 ≤ fieldAt l (b + 19) 1) &&
    decide (fieldAt l (b + 19) 1 < gy) && decide (fieldAt l (b + 20) 4 < 2 ^ 20) && decide (fieldAt l (b + 24) 4 % 16 = 0) &&
    decide (fieldAt l (b + 28) 1 / 64 % 2 = 0) && (decide (fieldAt l (b + 29) 1 = 0xFF) || decide (fieldAt l (b + 29) 1 < i)) && decide (fieldAt l (b + 32) 16 = 0))

/-- The slot's image of a kernel. -/
def imageOf (ts : List KTask) (slot : Nat) : Option KTask := ts.find? (fun t => decide (t.slot = slot))

/-- The blocks that the windows of LINEAR tasks cover, of 192 (R126). -/
def Plan.linear (pl : Plan) (ts : List KTask) (b : Nat) : Bool :=
  ts.any (fun t => t.linear && overlap (1024 * b) 1024 (pl.tbase.getD t.slot 0 * 256) (t.wsize * 256))

/-- The bytes of one half of a plan's commit area (R294). -/
def halfBytes (gx gy : Nat) (outs : List Extent) : Nat :=
  ceilDiv (outs.foldl (fun n e => n + gx * gy * e.len) 0) 4096 * 4096

/-- The half that a plan's copy goes into (R295, R296): the other half of the recorded area, or a half that does not overlap the valid copy; none where
both would. -/
def State.copyTo (s : State) (p : Nat) (pl : Plan) : Option Nat :=
  let c := halfBytes pl.gx pl.gy pl.outs
  match (s.part p).commit with
  | none => some 0
  | some r =>
    if r.cbase = pl.cbase ∧ r.c = c then some (1 - r.half)
    else if !overlap pl.cbase c (r.cbase + r.half * r.c) r.c then some 0
    else if !overlap (pl.cbase + c) c (r.cbase + r.half * r.c) r.c then some 1
    else none

/-- What a plan's state checks find wrong (R39, R43, R126, R127, R228, R288, R296). -/
def State.planBad (s : State) (p : Nat) (pl : Plan) : Bool :=
  match s.kernelOf p pl.kernel, (s.part p).place with
  | some (ts, _), some place =>
    let cells := pl.gx * pl.gy
    let c := halfBytes pl.gx pl.gy pl.outs
    let window := fun (t : KTask) => decide (pl.tbase.getD t.slot 0 * 256 + t.wsize * 256 ≤ 0x30000) &&
      decide (pl.tcbase.getD t.slot 0 + t.ncnt ≤ 64) && (!t.linear || decide (pl.tbase.getD t.slot 0 % 4 = 0))
    let wsOk := fun (w : WsRec) => match imageOf ts w.slot with
      | some t => decide (w.roff + (w.rowCount - 1) * w.rstride + w.rowBytes ≤ t.wsize * 256) && (!w.cntEn || decide (w.cnt < t.ncnt))
      | none => false
    let cntOk := fun (r : CntRec) => match imageOf ts r.slot with
      | some t => decide (r.first + r.count ≤ t.ncnt)
      | none => false
    let reach := pl.ins.all (fun e => !e.src || s.mayReach p e.store (cells * e.len)) &&
      pl.ws.all (fun w => (List.range w.rowCount).all (fun r => s.mayReach p (w.saddr + r * w.sstride) w.rowBytes)) &&
      (pl.outs.isEmpty || s.mayReach p pl.cbase (2 * c))
    let resident := pl.ins.filter (fun e => !e.src)
    let moves := resident.any (fun e => (List.range 192).any (fun b => overlap (1024 * b) 1024 e.sp e.len &&
      place.cores.any (fun q => bitOf (s.rd (CD_SP_LINMAP.LINEAR (coreDie q) (coreN q) (b / 32))) (b % 32) != pl.linear ts b)))
    !(decide (pl.gx = place.gx) && decide (pl.gy = place.gy) && decide (pl.heavy = place.heavy) && ts.all window && pl.ws.all wsOk && pl.cnts.all cntOk &&
      reach && (pl.outs.isEmpty || (s.copyTo p pl).isSome) && !(s.bit (GLB_DLR_PART3.STALE p) && !resident.isEmpty) && !moves)
  | _, _ => true

/-! ### Embedding -/

/-- The tile (tx, ty) of a GX × GY grid on die `d` (R275). -/
def tileBlock (gx gy : Nat) (t : (Nat × Nat) × Nat) : Block :=
  { vx0 := 16 * t.1.1, vy0 := 16 * t.1.2, w := min 16 (gx - 16 * t.1.1), h := min 16 (gy - 16 * t.1.2), px0 := t.2 % 12 * 16, py0 := t.2 / 12 * 16 }

/-- Where the rectangle of TX × TY eligible dies with the lowest y0, then x0, starts (R275 step 1). -/
def rectAt (ok : Nat → Bool) (tx ty : Nat) : Option (Nat × Nat) :=
  ((List.range (13 - ty)).flatMap (fun y => (List.range (13 - tx)).map (fun x => (x, y)))).find? (fun q =>
    (List.range ty).all (fun j => (List.range tx).all (fun i => ok ((q.2 + j) * 12 + q.1 + i))))

/-- Tiles with their dies (R275 steps 1 and 2); none where the eligible dies do not suffice. -/
def tileDies (ok : Nat → Bool) (tx ty heavy : Nat) : Option (List ((Nat × Nat) × Nat)) :=
  let byRow := (List.range ty).flatMap (fun j => (List.range tx).map (fun i => (i, j)))
  let r := if tx ≤ 12 ∧ ty ≤ 12 then rectAt ok tx ty else none
  match r with
  | some (x, y) => some (byRow.map (fun t => (t, (y + t.2) * 12 + x + t.1)))
  | none =>
    let tiles := if heavy = 0 then byRow else (List.range tx).flatMap (fun i => (List.range ty).map (fun j => (i, j)))
    let dies := (if heavy = 0 then List.range 144 else (List.range 12).flatMap (fun x => (List.range 12).map (fun y => y * 12 + x))).filter ok
    if dies.length < tiles.length then none else some (tiles.zip dies)

/-- Two block records side by side under one translation become one (R277). -/
def joinRow (a b : Block) : Option Block :=
  if a.vy0 = b.vy0 ∧ a.h = b.h ∧ a.vx0 + a.w = b.vx0 ∧ a.px0 + a.w = b.px0 ∧ a.py0 = b.py0 then some { a with w := a.w + b.w } else none

/-- Two block records one above the other under one translation become one (R277). -/
def joinCol (a b : Block) : Option Block :=
  if a.vx0 = b.vx0 ∧ a.w = b.w ∧ a.vy0 + a.h = b.vy0 ∧ a.py0 + a.h = b.py0 ∧ a.px0 = b.px0 then some { a with h := a.h + b.h } else none

/-- A record joins the first earlier one that it can. -/
def mergeInto (join : Block → Block → Option Block) (b : Block) : List Block → List Block
  | [] => [b]
  | a :: t => match join a b with
    | some c => c :: t
    | none => a :: mergeInto join b t

/-- Block records merged along rows, then along columns (R277). -/
def mergeBlocks (l : List Block) : List Block :=
  let rows := l.foldl (fun acc b => mergeInto joinRow b acc) []
  rows.foldl (fun acc b => mergeInto joinCol b acc) []

/-- The distance of two cores (R276). -/
def coreDist (a b : Nat) : Nat :=
  let d := fun (x y : Nat) => (x - y) + (y - x)
  d (coreX a) (coreX b) + d (coreY a) (coreY b)

/-- The nearest core of a list, the lowest ID among equals (R276); the list rises. -/
def nearest (c : Nat) : List Nat → Option Nat
  | [] => none
  | k :: t => match nearest c t with
    | none => some k
    | some b => if coreDist c k ≤ coreDist c b then some k else some b

/-- A placed core moves to a stray on the nearest of the free cores (R276, R279); none where there is none. -/
def Placement.stray (pl : Placement) (free : List Nat) (c : Nat) : Option Placement :=
  match pl.virtualOf c, nearest c free with
  | some (vx, vy), some k =>
    let q := pl.uncover vx vy
    some { q with strays := q.strays ++ [⟨vx, vy, coreX k, coreY k⟩] }
  | _, _ => none

/-- Does a placement fit the map (R278)? -/
def Placement.fits (pl : Placement) : Bool := decide (pl.blocks.length ≤ 512) && decide (pl.strays.length ≤ 256)

/-- Folded cores of a placement become strays, one by one, in the order of the placement's records (R276; DESIGN CHOICE, log entry 100: the spec gives no
order where several take kitty cores at once). -/
def strayAll (avail : List Nat) : List Nat → Placement → Option Placement
  | [], pl => some pl
  | c :: t, pl =>
    let used := pl.cores
    match pl.stray (avail.filter (fun k => !used.contains k)) c with
    | some q => strayAll avail t q
    | none => none

/-- PLACE's embedding (R275 to R278); none is NO_RESOURCE. -/
def State.embed (s : State) (p gx gy heavy : Nat) : Option Placement :=
  let avail := s.partAvail p
  if avail.length < gx * gy then none
  else
    match tileDies (s.eligible p) (ceilDiv gx 16) (ceilDiv gy 16) heavy with
    | none => none
    | some l =>
      let pl : Placement := { gx := gx, gy := gy, heavy := heavy, blocks := mergeBlocks (l.map (tileBlock gx gy)), strays := [] }
      match strayAll avail (pl.cores.filter s.coreFolded) pl with
      | some q => if q.fits then some q else none
      | none => none

end Sys2Proof.Machine
end

