-- ==== Sys2Proof/Machine/Shuffle.lean ====
section
/-! DEFINITION. New placements: the partition's bulk traffic is held and drained while maps are written (R280); shuffle (R303, R304, R520). -/

namespace Sys2Proof.Machine

/-- Is the partition's bulk traffic drained (R280): its cores await no stream, pull or message, and no hub sends it a weight stream? -/
def State.partDrained (s : State) (p : Nat) : Bool :=
  s.cores.all (fun e => decide (s.partOfCore e.1 ≠ some p) || (e.2.streams.isEmpty && e.2.pulls.isEmpty && e.2.msgs.isEmpty)) &&
    !s.store.ws.any (fun x => decide (x.part = p))

/-- The self-test of a core has run (R548): what its scratchpad and counters held is gone, and they hold free values (log entry 4). -/
def State.selfTested (s : State) (c : Nat) : State :=
  let s := s.openRange (winBase c) (winBase c + 0x30000)
  let (f, s) := s.drawMany
  let s := forN 64 (fun i s => s.cntSet c i (BitVec.ofNat 32 (f i))) s
  { s with rcv := { s.rcv with tested := Tab.set 0 s.rcv.tested c (s.ptime + 1) } }

/-- The cores that host the strays of a placement. -/
def strayCores : Option Placement → List Nat
  | some pl => pl.strays.map (fun r => coreAt r.px r.py)
  | none => []

/-- A placement becomes the partition's, in the dealer and in the map of every die (R277, R280). Its caller has held and drained the partition's bulk traffic
(`partDrained`). A kitty core is self-tested before a stray is placed there, and passes: a failure comes as KITTY_SELFTEST (R548; DESIGN CHOICE, log
entry 103). -/
def State.setPlacement (s : State) (p : Nat) (pl : Placement) : State :=
  let s := forL ((strayCores (some pl)).filter (fun c => !(strayCores (s.part p).place).contains c)) (fun c s => s.selfTested c) s
  let s := s.updPart p (fun x => { x with place := some pl, noRes := false })
  (forL (s.partDies p) (fun d s => putPmap (some pl) d s) s).account

/-! ### Shuffle -/

/-- The block records of what a block holds outside the rectangle of die `sd`, and inside it, moved to die `td` (R304). -/
def moveBlock (sd td : Nat) (b : Block) : List Block :=
  let x := sd % 12 * 16
  let y := sd / 12 * 16
  let lx := max x b.px0
  let hx := min (x + 16) (b.px0 + b.w)
  let ly := max y b.py0
  let hy := min (y + 16) (b.py0 + b.h)
  if hx ≤ lx ∨ hy ≤ ly then [b]
  else
    let part := fun (x0 x1 y0 y1 : Nat) => if x1 ≤ x0 ∨ y1 ≤ y0 then [] else
      [({ vx0 := b.vx0 + (x0 - b.px0), vy0 := b.vy0 + (y0 - b.py0), w := x1 - x0, h := y1 - y0, px0 := x0, py0 := y0 } : Block)]
    part b.px0 (b.px0 + b.w) b.py0 ly ++ part b.px0 lx ly hy ++
      (part lx hx ly hy).map (fun c => { c with px0 := td % 12 * 16 + (c.px0 - x), py0 := td / 12 * 16 + (c.py0 - y) }) ++
      part hx (b.px0 + b.w) ly hy ++ part b.px0 (b.px0 + b.w) hy (b.py0 + b.h)

/-- A die's mean temperature over the previous layer, in 0.01 °C. -/
def tempOf (temps : List (Nat × Nat)) (d : Nat) : Nat := ((temps.find? (fun e => decide (e.1 = d))).map (fun e => e.2)).getD 0

/-- The first of a list by a key that must not rise: an earlier element wins among equals. -/
def firstBy {α : Type} (le : α → α → Bool) : List α → Option α
  | [] => none
  | a :: t => match firstBy le t with
    | none => some a
    | some b => if le a b then some a else some b

/-- Dies that may be sources of a shuffle (R303, R520). -/
def State.shufSources (s : State) (p : Nat) (temps : List (Nat × Nat)) (pl : Placement) : List Nat :=
  let dies := s.placedDies p
  let mean := if dies.isEmpty then 0 else (dies.foldl (fun n d => n + tempOf temps d) 0) / dies.length
  let stray := fun (d : Nat) => pl.strays.any (fun r => decide (coreDie (coreAt r.px r.py) = d))
  let folded := fun (d : Nat) => (List.range 256).any (fun n => s.coreFolded (d * 256 + n))
  dies.filter (fun d => decide (100 * s.rd THM_SHUF_CFG.HOT ≤ tempOf temps d) && decide (mean + 100 * s.rd THM_SHUF_CFG.DELTA ≤ tempOf temps d) &&
    temps.any (fun e => decide (e.1 = d)) && !stray d && !folded d && !(s.part p).shufT.contains d)

/-- Dies that may be targets of a shuffle (R303, R520). -/
def State.shufTargets (s : State) (p : Nat) : List Nat :=
  let placed := s.placedDies p
  (s.partDies p).filter (fun d => s.eligible p d && !placed.contains d && decide (s.rgnState (regionOf d) < 4) &&
    decide (s.rd (THM_RGN.FLOOR (regionOf d)) = 0) && (List.range 256).all (fun n => !s.coreFolded (d * 256 + n)))

/-- Hottest sources first, each with its target: the coolest, one in another region before one in its own (R520). -/
def pairUp (temps : List (Nat × Nat)) : Nat → List Nat → List Nat → List (Nat × Nat)
  | 0, _, _ => []
  | n + 1, src, tgt =>
    match firstBy (fun a b => decide (tempOf temps b ≤ tempOf temps a)) src with
    | none => []
    | some a =>
      let key := fun (t : Nat) => (if regionOf t = regionOf a then 1000000 else 0) + tempOf temps t
      match firstBy (fun x y => decide (key x ≤ key y)) tgt with
      | none => []
      | some t => (a, t) :: pairUp temps n (src.filter (fun d => decide (d ≠ a))) (tgt.filter (fun d => decide (d ≠ t)))

/-- A core's scratchpad, block modes and counters are copied to another (R304): false where the source cannot be read. -/
def State.copyCore (s : State) (a b : Nat) : State × Bool :=
  match s.spRead a 0 0x30000 with
  | (s, .error _) => (s, false)
  | (s, .ok l) =>
    let s := forN 6 (fun k s => s.wr (CD_SP_LINMAP.LINEAR (coreDie b) (coreN b) k) (s.rd (CD_SP_LINMAP.LINEAR (coreDie a) (coreN a) k))) s
    let s := s.zeroRange (winBase b) (winBase b + 0x30000)
    let s := s.write (winBase b) l
    (s.updCore b (fun k => { k with counters := (s.core a).counters }), true)

/-- Cores copied in turn. -/
def State.copyCores (s : State) : List (Nat × Nat) → State × Bool
  | [] => (s, true)
  | e :: t => match s.copyCore e.1 e.2 with
    | (s, false) => (s, false)
    | (s, true) => s.copyCores t

/-- The dies that a shuffle would move, each with its target (R303, R520); `before` is the number of the layer before, 0 where there is none. -/
def State.shufPairs (s : State) (p before : Nat) (plan : Plan) (temps : List (Nat × Nat)) : List (Nat × Nat) :=
  match (s.part p).place with
  | none => []
  | some pl =>
    if !s.bit GLB_DLR_CTL.SHUF_EN || plan.noshuf || s.bit (GLB_DLR_PART3.STALE p) || decide (before = 0) then []
    else pairUp temps 4 (s.shufSources p temps pl) (s.shufTargets p)

/-- The shuffle before a layer (R303, R304, R520): whether one took place; none where a copy met a fault, which discards it (R309). -/
def State.shuffle (s : State) (p before : Nat) (plan : Plan) (temps : List (Nat × Nat)) : State × Option Bool :=
  match (s.part p).place with
  | none => (s, some false)
  | some pl =>
    let pairs := s.shufPairs p before plan temps
    let q := pairs.foldl (fun (pl : Placement) e => { pl with blocks := pl.blocks.flatMap (moveBlock e.1 e.2) }) pl
    let q := { q with blocks := mergeBlocks q.blocks }
    let moved := pl.cores.filterMap (fun c => (pairs.find? (fun e => decide (e.1 = coreDie c))).map (fun e => (c, e.2 * 256 + coreN c)))
    if pairs.isEmpty || !q.fits then (s.updPart p (fun x => { x with shufT := [] }), some false)
    else
      match s.copyCores moved with
      | (s, false) => (s, none)
      | (s, true) => ((s.setPlacement p q).updPart p (fun x => { x with shufT := pairs.map (fun e => e.2) }), some true)

end Sys2Proof.Machine
end

