-- ==== Sys2Proof/Machine/Layers.lean ====
section
/-! DEFINITION. A layer under way (R289 to R299): its regions woken, the sync tree set and PREPARE sent (steps 2 to 5), its commit (R295, R296) and its
other ends (R293), and the replay of older layers (R299). -/

namespace Sys2Proof.Machine

/-- Does the partition's running layer wait for its commit, released and not stopped (R289 step 9)? -/
def LayerRun.going (l : LayerRun) : Bool := decide (l.step = 9)

/-- The die whose die manager manages a region (R566). -/
def State.managerDie (s : State) (r : Nat) : Nat := regionDie r (s.rd (RGN_PWR_STAT.MANAGER r))

/-! ### The sync tree -/

/-- A die of the sync tree: the node above it, and the way that leads there. -/
structure TreeLink where
  die : Nat
  above : Nat
  way : Nat
  deriving DecidableEq, Repr

/-- The way of the other end of a link. -/
def backWay (w : Nat) : Nat := if w < 4 then (w + 2) % 4 else 4 + (w + 2) % 4

/-- The dies that a die's sync links in service lead to and that are not in the tree yet. -/
def State.treeKids (s : State) (seen : List Nat) (d : Nat) : List (Nat × Nat) :=
  (List.range 8).filterMap (fun w => match wayNode d w with
    | some n => if isDie n && !s.dieAbsent n && s.wayOk d w && !seen.contains n then some (n, w) else none
    | none => none)

/-- The spanning tree, grown breadth first (R193). -/
def State.growTree (s : State) : Nat → List Nat → List TreeLink → List TreeLink
  | 0, _, acc => acc
  | _, [], acc => acc
  | n + 1, d :: q, acc =>
    let kids := s.treeKids (acc.map (fun l => l.die)) d
    s.growTree n (q ++ kids.map (fun e => e.1)) (acc ++ kids.map (fun e => (⟨e.1, d, backWay e.2⟩ : TreeLink)))

/-- The sync tree rooted at the active steward's node (R193): the root comes first. -/
def State.syncTree (s : State) : List TreeLink :=
  match cornerDie s.stewardNode with
  | some d => if s.dieAbsent d then [] else s.growTree 145 [d] [⟨d, s.stewardNode, 8⟩]
  | none => []

/-- The cores of a die that take part in channel `b` for a layer (R212). -/
def State.taking (s : State) (p : Nat) (l : LayerRun) (d b : Nat) : Nat :=
  let n := ((s.placedCores p).filter (fun c => decide (coreDie c = d))).length
  let used := match s.kernelOf p l.plan.kernel with
    | some (ts, _) => ts.any (fun t => bitOf (l.plan.barmask.getD t.slot 0) b)
    | none => false
  if decide (b = 7) || used then n else 0

/-- The cores of a die that take part in channel `b`, over every layer that is prepared or runs. -/
def State.takingAll (s : State) (d b : Nat) : Nat :=
  (List.range 16).foldl (fun n p => match (s.part p).run with
    | some l => if 4 ≤ l.step ∧ l.step ≤ 9 then n + s.taking p l d b else n
    | none => n) 0

/-- CD_SYNC_EXPb by die: participating cores and participating children (R193). -/
def State.expects (s : State) (tree : List TreeLink) (b : Nat) : List (Nat × Nat × Nat) :=
  tree.foldr (fun l t => (l.die, l.above, s.takingAll l.die b + (t.filter (fun e => decide (e.2.1 = l.die) && decide (e.2.2 ≠ 0))).length) :: t) []

/-- The tree is written into every die, with the expected arrivals (R193, R212). -/
def State.writeTree (s : State) : State :=
  let tree := s.syncTree
  let s := forN 144 (fun d s => forN 8 (fun b s => s.wr (CD_SYNC_EXP.EXP d b) 0) ((s.wr (CD_SYNC_TREE.PARENT d) 0).wr (CD_SYNC_TREE.CHILD d) 0)) s
  let s := forL tree (fun l s =>
    let s := s.wr (CD_SYNC_TREE.PARENT l.die) (l.way + 1)
    if isDie l.above then s.wrBit (CD_SYNC_TREE.CHILD l.above) (backWay l.way) true else s) s
  forN 8 (fun b s => forL (s.expects tree b) (fun e s => s.wr (CD_SYNC_EXP.EXP e.1 b) e.2.2) s) s

/-- The dies whose barriers a released layer of another partition uses. -/
def State.syncBusy (s : State) (p : Nat) : List Nat :=
  ((List.range 16).filter (fun q => decide (q ≠ p) && (match (s.part q).run with
    | some l => l.going
    | none => false))).flatMap s.placedDies

/-- Every channel's phase is 0 at layer start in every node (R213). -/
def State.zeroPhases (s : State) (p : Nat) : State :=
  let busy := s.syncBusy p
  forL ((List.range 144).filter (fun d => !busy.contains d)) (fun d s =>
    (s.wr (CD_SYNC_PHASE.PHASE d) 0).updNode d (fun x => { x with count := [] })) s

/-! ### Start -/

/-- The plan at an address, as the store holds it. -/
def State.planAt (s : State) (a : Nat) : Plan := parsePlan (s.bytes a (planLen (s.bytes a 64)))

/-- A run of a plan that has passed its checks. -/
def newRun (key addr num : Nat) (pl : Plan) : LayerRun :=
  { key := key, own := addr, plan := pl, planAddr := addr, num := num, step := 2, ready := [], quiet := [], wsOn := [], wsDone := [], fflags := 0,
    goTime := 0, redo := 0, shuf := false, replayed := false, restore := false, copyDue := false, copyBase := 0, copyHalf := 0,
    copyStarted := false, copied := [], limitOn := false, reembed := false, shufDue := false, temps := [] }

/-- Is a commit copy due for the plan at sequence number `num` (R297)? -/
def copyIsDue (x : Part) (pl : Plan) (num : Nat) : Bool :=
  !pl.outs.isEmpty && (x.commitNext || decide (pl.policy = 0) || (decide (pl.policy = 1) && decide (num % pl.n = 0)))

/-- Step 4 begins: the tree is written, and PREPARE goes to every die with placed cores (R188, R289). A layer that
is replayed writes no copy. -/
def State.prepareLayer (s : State) (p : Nat) : State :=
  match (s.part p).run with
  | none => s
  | some l =>
    let x := s.part p
    let own := x.replay.isEmpty
    let half := (s.copyTo p l.plan).getD 0
    let base := l.plan.cbase + half * halfBytes l.plan.gx l.plan.gy l.plan.outs
    let l := { l with step := 4, ready := [], quiet := [], wsOn := [], wsDone := [], fflags := 0, copyDue := own && copyIsDue x l.plan l.num,
                      copyHalf := half, copyBase := base, copyStarted := false, copied := [], limitOn := false }
    let s := s.updPart p (fun x => { x with run := some l })
    let s := (s.zeroPhases p).writeTree
    forL (s.placedDies p) (fun d s =>
      s.sendCtl 3 1 d 256 s.stewardNode 258 [1 + p * 2 ^ 8 + l.num % 2 ^ 32 * 2 ^ 32, l.planAddr]) s

/-- Is a region admitted (R464): on, and every die of it that is no hole holds PT_LOCK and has
its links trained? -/
def State.admitted (s : State) (r : Nat) : Bool :=
  decide (s.rgnState r < 4) && ((List.range 9).map (regionDie r)).all (fun d => bitOf (s.rd (GLB_HOLE_DIE.HOLE (d / 32))) (d % 32) ||
    (s.bit (CD_CLK_STAT.PT_LOCK d) && !s.links.due.any (fun k => decide (k / 9 = d))))

/-- Step 3 (R289): the shuffle, then step 4. One that met a fault is discarded, and the layer waits for the fold of the core (R309, R554). -/
def State.shuffleLayer (s : State) (p : Nat) (l : LayerRun) : State :=
  if !l.shufDue then s.prepareLayer p
  else
    match s.shuffle p ((l.num + 2 ^ 32 - 1) % 2 ^ 32) l.plan l.temps with
    | (s, some b) => (s.updPart p (fun x => { x with run := x.run.map (fun l => { l with shufDue := false, shuf := b }) })).prepareLayer p
    | (s, none) => s.updPart p (fun x => { x with run := x.run.map (fun l => { l with shufDue := false, step := 3 }) })

/-- Step 2: the placement's regions are woken; a region in C6 takes an ante, and the layer waits for it (R289, R488, R493). A fold that strikes a core before
the layer has prepared any is handled first (R554). -/
def State.powerLayer (s : State) (p : Nat) : State :=
  match (s.part p).run with
  | none => s
  | some l =>
    if l.step ≠ 2 then s else
    let rs := s.placedRegions p
    let off := rs.filter (fun r => decide (4 ≤ s.rgnState r))
    let ready := rs.all (fun r => s.admitted r)
    let asleep := rs.filter (fun r => decide (s.rgnState r = 2) || decide (s.rgnState r = 3))
    let s := forL off (fun r s => s.wantAnte r 1) s
    let s := forL asleep (fun r s => s.sendCtl 3 1 (s.managerDie r) 257 s.stewardNode 258 [5 + r * 2 ^ 8]) s
    if ready && (s.part p).foldsDue.isEmpty then s.shuffleLayer p l else s

/-! ### Ends -/

/-- The next layer of a replay, or the partition's own layer after it (R299). -/
def State.nextReplay (s : State) (p addr : Nat) (rest : List Nat) (restore : Bool) : State :=
  match (s.part p).run with
  | none => s
  | some l =>
    let pl := s.planAt addr
    let l := { l with plan := pl, planAddr := addr, num := (l.num + 1) % 2 ^ 32, step := 2, restore := restore }
    let s := s.updPart p (fun x => { x with run := some l, replay := rest })
    (if rest.isEmpty then s.wr (GLB_RCV_PART.REPLAYING p) 0 else s).powerLayer p

/-- The layers since the valid copy run again before the partition's own, the first with number `first`; REPLAY names the first and the last (R299). -/
def State.beginReplay (s : State) (p : Nat) (plans : List Nat) (first : Nat) : State :=
  match (s.part p).run, plans with
  | some l, b :: rest =>
    let restore := match (s.part p).commit with
      | some r => decide ((r.layer + 1) % 2 ^ 32 = first)
      | none => false
    let last := (first + rest.length) % 2 ^ 32
    let s := (s.wr (GLB_RCV_PART.REPLAYING p) 1).updPart p (fun x => { x with run := some { l with replayed := true, num := (first + 2 ^ 32 - 1) % 2 ^ 32 } })
    let s := (s.postOwner p 0x0011 1 (leBytes 4 first ++ leBytes 4 last)).noteEvt l.key
    s.nextReplay p b (rest ++ [l.own]) restore
  | _, _ => s

/-- The dealer ends a partition's layer without a commit (R293): every slot is discarded, streams in flight go on, the scratchpad
state is stale. The summary's TIME, which R302 gives for a commit only, is a free value (log entry 4). -/
def State.endLayer (s : State) (p status : Nat) : State :=
  match (s.part p).run with
  | none => s
  | some l =>
    let ff := Nat.lor l.fflags (s.partFflags p)
    let (time, s) := s.draw
    let r0 := if status = 5 ∨ status = 7 ∨ status = 8 ∨ status = 10 then summaryWord (s.part p).seq l ff (time % 2 ^ 16) false else 0
    let s := s.discardPart p
    let s := ((s.wr (GLB_DLR_PART3.STALE p) 1).wr (GLB_DLR_PART3.RUNNING p) 0).wr (GLB_RCV_PART.REPLAYING p) 0
    let s := s.updPart p (fun x => { x with run := none, replay := [] })
    s.finishDesc l.key status 0 r0 0

/-- The commit of a layer that wrote a copy, or did not, is recorded (R295 to R298). -/
def State.noteCommit (s : State) (p : Nat) (l : LayerRun) (copied : Bool) : State :=
  if copied then
    let s := (s.wr (GLB_DLR_PART3.VALID p) (l.copyHalf + 1)).wr (GLB_DLR_PART3.SINCE p) 0
    let s := { s with guards := s.guards.filter (fun g => decide (g.part ≠ p)) }
    let rec_ : CommitRec :=
      { cbase := l.plan.cbase, c := halfBytes l.plan.gx l.plan.gy l.plan.outs, gx := l.plan.gx, gy := l.plan.gy,
        outs := l.plan.outs, layer := l.num, half := l.copyHalf }
    s.updPart p (fun x => { x with since := [], guardAt := none, commitNext := false, commit := some rec_ })
  else (s.sat (GLB_DLR_PART3.SINCE p) 1).updPart p (fun x => { x with since := x.since ++ [l.planAddr] })

/-- The dealer declares the commit of a partition's layer (R33, R295, R296). A layer that is replayed gives way to the next. -/
def State.declareCommit (s : State) (p : Nat) : State :=
  match (s.part p).run with
  | none => s
  | some l =>
    let ff := Nat.lor l.fflags (s.partFflags p)
    let s := (s.discardPart p).wr (GLB_DLR_PART3.STALE p) 0
    match (s.part p).replay with
    | a :: rest => s.nextReplay p a rest false
    | [] =>
      let copied := l.copyDue && l.copyStarted
      let r0 := summaryWord l.num l ff ((s.ptime - l.goTime) / 1000) copied
      let s := ((s.wr (GLB_DLR_PART3.RUNNING p) 0).wr (GLB_DLR_PART2.LAYER p) l.num).noteCommit p l copied
      let s := s.updPart p (fun x => { x with run := none })
      s.finishDesc l.key (if l.redo = 0 ∧ !l.replayed then 0 else 4) 0 r0 0

/-- A RUN_LAYER that starts nothing ends with a status; its summary, where R343 gives one, names the last layer started. -/
def State.endUnstarted (s : State) (key p status detail : Nat) : State :=
  let (time, s) := s.draw
  let r0 := if status = 8 ∨ status = 10 then (s.part p).seq % 2 ^ 32 + time % 2 ^ 16 * 2 ^ 48 else 0
  s.finishDesc key status detail r0 0

end Sys2Proof.Machine
end

