-- ==== Sys2Proof/Machine/SyncOps.lean ====
section
/-! DEFINITION. The barrier tree of the sync network (R193, R212 to R216). -/

namespace Sys2Proof.Machine

/-- The key of a node's arrival count for a channel and phase (R193). -/
def cntKey (b ph : Nat) : Nat := 2 * b + ph

/-- The slots of a core that hold a task with a bit of BARMASK (R212). -/
def Core.inBarrier (k : Core) (b : Nat) : List (Nat × Task) :=
  k.tasks.filter (fun e => e.2.loaded && bitOf e.2.barmask b)

/-- The partitions whose released layer has every placed core arrived on the commit barrier. -/
def State.commitDue (s : State) : List Nat :=
  (List.range 16).filter (fun p => match (s.part p).run with
    | some l => l.going && (s.placedCores p).all (fun c => (s.core c).doneArr)
    | none => false)

/-- One ARRIVE reaches a node on a channel at a phase (R193): a die counts it and, at CD_SYNC_EXPb, sends one ARRIVE to its
parent; the root releases, channel 7 to the dealer, which declares the commit (R216, R295). -/
def State.syncCount (s : State) (n b ph : Nat) : State :=
  if isDie n then
    let c := Tab.get 0 (s.node n).count (cntKey b ph) + 1
    let e := s.rd (CD_SYNC_EXP.EXP n b)
    if e ≠ 0 ∧ c = e then
      let s := s.updNode n (fun x => { x with count := Tab.set 0 x.count (cntKey b ph) 0 })
      let p := s.rd (CD_SYNC_TREE.PARENT n)
      if p = 0 then s else
      match wayNode n (p - 1) with
      | some q => s.syncSend n q 1 0 (b + ph * 8) []
      | none => s
    else s.updNode n (fun x => { x with count := Tab.set 0 x.count (cntKey b ph) c })
  else if n = s.stewardNode ∧ s.bit GLB_STW_STAT.LOST_BOTH = false then
    if b = 7 then forL s.commitDue (fun p s => s.declareCommit p) s
    else
      match cornerDie n with
      | some d => s.syncSend n d 2 0 (b + ph * 8) []
      | none => s
  else s

/-- A core arrives on a channel (R74, R212): it awaits the release, and its die's node counts it. -/
def State.arriveCore (s : State) (c b : Nat) : State :=
  let ph := bitsOf (s.core c).phase b 1
  (s.updCore c (fun k => { k with barPend := setBits k.barPend b 1 1 })).syncCount (coreDie c) b ph

/-- The core arrives on channel `b` if it takes part, has not arrived at this phase, and every task of it that takes part has
arrived or is DONE (R74, R214). -/
def State.tryArrive (s : State) (c b : Nat) : State :=
  let k := s.core c
  let l := k.inBarrier b
  if l.isEmpty || bitOf k.barPend b || !(l.all (fun e => bitOf e.2.arrived b || decide (e.2.st = .done))) then s
  else s.arriveCore c b

/-- A release of a phase reaches a core (R213): its phase toggles, it awaits no release, and each task's arrival is released;
tasks that are DONE arrive at the next phase at once (R214). -/
def State.releaseCore (s : State) (c b : Nat) : State :=
  let k := s.core c
  let ts := k.tasks.map (fun e => (e.1, { e.2 with arrived := setBits e.2.arrived b 1 0 }))
  let k := { k with phase := setBits k.phase b 1 (1 - bitsOf k.phase b 1), barPend := setBits k.barPend b 1 0,
                    tasks := ts.filter (fun e => decide (e.2 ≠ Task.reset)) }
  (s.setCore c k).tryArrive c b

end Sys2Proof.Machine
end

