-- ==== Sys2Proof/Machine/Operands.lean ====
section
/-! DEFINITION. Operands of instructions: register files (R29), effective offsets (R41, R57), the access checks (R40 to R43), and the
encoding checks of R50 and R680. -/

namespace Sys2Proof.Machine

/-- A trap that an instruction asks for: cause, detail, code (R79), and the offset that CD_CORE_TRAPADDR shows; none where the
spec names no offset. -/
structure TrapReq where
  cause : Nat
  detail : Nat
  code : Nat
  addr : Option Nat
  deriving DecidableEq, Repr

/-- ILLEGAL with a detail (R79). -/
def illegal (detail : Nat) : TrapReq := ⟨3, detail, 0, none⟩

/-- BOUND with a detail at a task offset (R79). -/
def bound (detail o : Nat) : TrapReq := ⟨1, detail, 0, some (o % 2 ^ 18)⟩

/-- The first failing check in order (R680). -/
def firstBad : List (Bool × TrapReq) → Option TrapReq
  | [] => none
  | (b, r) :: t => if b then some r else firstBad t

/-! ### Registers (R29) -/

def Task.rg (t : Task) (r : BitVec 5) : W32 := if r = 0 then 0 else Tab.get 0 t.g r.toNat

/-- g0 discards writes (R29). -/
def Task.wg (t : Task) (r : BitVec 5) (v : W32) : Task := if r = 0 then t else { t with g := Tab.set 0 t.g r.toNat v }

/-- An a register, by the low 3 bits of its field (R50). -/
def Task.rA (t : Task) (r : Nat) : A48 := Tab.get 0 t.a (r % 8)

def Task.wA (t : Task) (r : Nat) (v : A48) : Task := { t with a := Tab.set 0 t.a (r % 8) v }

/-- m0 reads all ones (R29). -/
def Task.rM (t : Task) (r : Nat) : M64 := if r % 8 = 0 then BitVec.allOnes 64 else Tab.get 0 t.m (r % 8)

/-- m0 discards writes (R29). -/
def Task.wM (t : Task) (r : Nat) (v : M64) : Task := if r % 8 = 0 then t else { t with m := Tab.set 0 t.m (r % 8) v }

def Task.rV (t : Task) (r : Nat) : V512 := Tab.get 0 t.v (r % 16)

def Task.wV (t : Task) (r : Nat) (v : V512) : Task := { t with v := Tab.set 0 t.v (r % 16) v }

/-- High 2 bits of an a or m register field not zero (R50). -/
def badA (r : BitVec 5) : Bool := decide (8 ≤ r.toNat)

/-- High bit of a v register field not zero (R50). -/
def badV (r : BitVec 5) : Bool := decide (16 ≤ r.toNat)

/-! ### Offsets and access checks -/

/-- The size of a task's window (R39). -/
def Task.window (t : Task) : Nat := t.tbound - t.tbase

/-- The offset a[RA] + immediate, modulo 2^48 (R57, R41). -/
def Task.offset (t : Task) (ra : BitVec 5) (imm : BitVec 16) : Nat := (t.rA ra.toNat + imm.signExtend 48).toNat

/-- Is an access of `n` bytes at task offset `o` in bounds (R40, R41)? -/
def Task.inWindow (t : Task) (o n : Nat) : Bool := decide (o + n ≤ t.window)

/-- The checks of a load or store of `n` bytes, naturally aligned (R42: alignment first, then R40). -/
def Task.accessBad (t : Task) (o n al : Nat) : List (Bool × TrapReq) :=
  [(decide (o % al ≠ 0), bound 6 o), (!t.inWindow o n, bound 0 o)]

/-- The core counter of a task-relative index (R43). -/
def Task.counterOf (t : Task) (i : Nat) : Nat := t.tcbase + i

/-- The check of a counter index (R43). -/
def Task.counterBad (t : Task) (i : Nat) : Bool × TrapReq := (decide (t.tccount ≤ i), ⟨1, 4, 0, none⟩)

end Sys2Proof.Machine
end

