-- ==== Sys2Proof/Machine/Flags.lean ====
section
/-! DEFINITION. Floating-point flags (R78): NX 1, UF 2, OF 4, DZ 8, NV 16, SAT 32, sticky in FFLAGS of the task. -/

namespace Sys2Proof.Machine

/-- A flag mask is added to a task's FFLAGS (R78). -/
def Task.raise (t : Task) (f : Nat) : Task := { t with fflags := t.fflags ||| BitVec.ofNat 6 f }

/-- A flag mask is added to the FFLAGS of a slot (R78). -/
def State.raiseIn (s : State) (c i f : Nat) : State := if f = 0 then s else s.updTask c i (fun t => t.raise f)

end Sys2Proof.Machine
end

