-- ==== Sys2Proof/Machine/Traps.lean ====
section
/-! DEFINITION. Traps: the record (R79, R86), the die manager's action (R80), and asynchronous failures (R68, R69, R83). -/

namespace Sys2Proof.Machine

/-- A trap record in CD_CORE_TRAP, CD_CORE_TRAPPC and CD_CORE_TRAPADDR (R86). -/
def State.showTrap (s : State) (c i : Nat) (r : TrapRec) : State :=
  let d := coreDie c
  let n := coreN c
  let s := ((s.wr (CD_CORE_TRAP.CAUSE d n) r.cause).wr (CD_CORE_TRAP.TASK d n) i).wr (CD_CORE_TRAP.VALID d n) 1
  let s := (s.wr (CD_CORE_TRAP.DETAIL d n) r.detail).wr (CD_CORE_TRAP.CODE d n) r.code
  (s.wr (CD_CORE_TRAPPC.PC d n) r.pc).wr (CD_CORE_TRAPADDR.ADDR d n) r.addr

/-- The payload of a TRAP event (R346). -/
def trapPayload (c i : Nat) (r : TrapRec) : List Byte :=
  leBytes 2 c ++ leBytes 1 (i + r.cause * 16) ++ leBytes 1 r.detail ++ leBytes 2 r.code ++ leBytes 2 0 ++ leBytes 4 r.pc ++ leBytes 4 r.addr

/-- What the die manager does on a trap (R80): a program fault is reported and the dealer aborts the layer; SPUE is a core fault,
reported where the error was found (R547); STREAM_ERR ends the layer with the store's status; FOLDED belongs to the fold's redo. -/
def State.trapAction (s : State) (c i : Nat) (r : TrapRec) : State :=
  if r.cause = 1 ∨ r.cause = 2 ∨ r.cause = 3 ∨ r.cause = 7 then
    let s := s.emit (.trapReport c i r.cause r.detail r.code r.pc r.addr)
    match s.partOfCore c with
    | some p =>
      let s := s.postOwner p 0x0010 2 (trapPayload c i r)
      let s := match (s.part p).run with
        | some l => s.noteEvt l.key
        | none => s
      s.endLayer p 5
    | none => s
  else if r.cause = 6 then
    match s.partOfCore c with
    | some p => s.endLayer p r.code
    | none => s
  else s

/-- A task traps (R79): TRAPPED, its queued matrix work discarded (R121), its record shown, or kept with MULTI set while another
record is valid (R83, R86). -/
def State.trapAs (s : State) (c i : Nat) (r : TrapRec) : State :=
  let s := s.updCore c (fun k => { k with mq := k.mq.filter (fun e => decide (e.slot ≠ i)) })
  let d := coreDie c
  let n := coreN c
  let s :=
    if s.bit (CD_CORE_TRAP.VALID d n) then
      (s.updTask c i (fun t => { t with st := .trapped, wait := none, trap := some r })).wr (CD_CORE_TRAP.MULTI d n) 1
    else (s.updTask c i (fun t => { t with st := .trapped, wait := none })).showTrap c i r
  s.trapAction c i r

/-- A trap request of an instruction at `pc`. Where the spec names no offset, TRAPADDR takes a free value (log entry 4). -/
def State.trapTask (s : State) (c i pc : Nat) (r : TrapReq) : State :=
  match r.addr with
  | some a => s.trapAs c i ⟨r.cause, r.detail, r.code, pc, a⟩
  | none =>
    let (a, s) := s.draw
    s.trapAs c i ⟨r.cause, r.detail, r.code, pc, a % 2 ^ 18⟩

/-- A failure found after a transfer started is posted to the issuing task (R68, R69): it traps at its next boundary, or, where it is
TRAPPED already, is counted in CD_HLTH_STRERR. A discarded slot takes none (R553). -/
def State.postAsync (s : State) (c i pc : Nat) (r : TrapReq) : State :=
  let t := s.task c i
  if t.st = .trapped || ((s.core c).async.any (fun a => decide (a.slot = i))) then
    s.hcount (CD_HLTH_STRERR.COUNT (coreDie c) (coreN c)) (CD_HLTH_STAT.STRERR_SAT (coreDie c) (coreN c)) 1
  else if t.st = .empty then s
  else
    let (a, s) := s.draw
    let rec_ : TrapRec := ⟨r.cause, r.detail, r.code, pc, r.addr.getD (a % 2 ^ 18)⟩
    s.updCore c (fun k => { k with async := k.async ++ [⟨i, rec_⟩] })

end Sys2Proof.Machine
end

