-- ==== Sys2Proof/Machine/Rows.lean ====
section
/-! DEFINITION. Program order within a task's window (R58): the bytes that queued and running matrix work and streams of a task still
read or write, which a later access of the task waits for. -/

namespace Sys2Proof.Machine

/-- The task offset of row `r` of a tile move (R71, R109, R114). -/
def rowOff (base stride r : Nat) : Nat := (base + r * stride) % 2 ^ 48

/-- The rows, as (offset, bytes), that a matrix or tile-move operation reads from its task's window. -/
def MOp.reads : MOp → List (Nat × Nat)
  | .tileLd _ _ _ rb _ b st _ => (List.range 16).map (fun r => (rowOff b st r, rb))
  | .sparse _ rb b st => (List.range 16).map (fun r => (rowOff b st r, rb))
  | _ => []

/-- Bytes of a row that ACC.CVT writes for a destination code (R114). -/
def cvtRow (fmt : Nat) : Nat := if fmt = 7 ∨ fmt = 8 then 16 else 2 * fmtBits fmt

/-- The rows that an operation writes into its task's window. -/
def MOp.writes : MOp → List (Nat × Nat)
  | .tileSt _ b st => (List.range 16).map (fun r => (rowOff b st r, 64))
  | .cvt _ f _ _ _ _ b st _ _ => (List.range 16).map (fun r => (rowOff b st r, cvtRow f))
  | _ => []

/-- The rows of a stream's local side (R64). -/
def streamRows (d : StreamDesc) : List (Nat × Nat) :=
  (List.range d.rowCount).map (fun r => (d.localOff + r * d.lstride, d.rowBytes))

/-- Matrix work that is not finished, oldest first. -/
def Core.work (k : Core) : List MEnt := k.array.toList ++ k.mover.toList ++ k.mq

/-- Does [o, o + n) touch one of the ranges? -/
def touches (o n : Nat) (l : List (Nat × Nat)) : Bool := l.any (fun e => overlap o n e.1 e.2)

/-- Does [o, o + n) of slot `i`'s window touch bytes that earlier work of the task is still to write (R58)? -/
def Core.toWrite (k : Core) (i o n : Nat) : Bool :=
  k.work.any (fun e => decide (e.slot = i) && touches o n e.op.writes) ||
  k.streams.any (fun x => decide (x.slot = i) && decide (x.kind = 0) && touches o n (streamRows x.d))

/-- Is a stream still to read its local rows: not started, its multicast not sent, or pulled from the window (R176, R180)? -/
def Stream.reading (x : Stream) : Bool := decide (x.kind ≠ 0) && (!x.started || !x.sent || x.pulled)

/-- Does [o, o + n) of slot `i`'s window touch bytes that earlier work of the task is still to read (R58)? -/
def Core.toRead (k : Core) (i o n : Nat) : Bool :=
  k.work.any (fun e => decide (e.slot = i) && touches o n e.op.reads) ||
  k.streams.any (fun x => decide (x.slot = i) && x.reading && touches o n (streamRows x.d))

/-- Has slot `i` matrix work that is still to write into its window, so that a release of its writes waits for it (R144, R215)? -/
def Core.writing (k : Core) (i : Nat) : Bool := k.work.any (fun e => decide (e.slot = i) && !e.op.writes.isEmpty)

/-- Are bytes of slot `i`'s window still to be written by earlier tile moves or streams of the task, which FENCE.I waits for so that the fetches after it
see them (R46, R58)? -/
def Core.unwritten (k : Core) (i : Nat) : Bool := k.writing i || k.streams.any (fun x => decide (x.slot = i) && decide (x.kind = 0))

end Sys2Proof.Machine
end

