-- ==== Sys2Proof/Machine/Streams.lean ====
section
/-! DEFINITION. Streams (R64 to R69): the descriptor and its checks, the packets a stream sends (R163 to R165, R174 to R180, R201), the start
of streams in issue order behind earlier accesses of their task (R58, R67), and their progress and end. -/

namespace Sys2Proof.Machine

/-! ### Packets -/

/-- A packet enters the network at its source. -/
def State.inject (s : State) (loc : Nat) (h : BulkHdr) (data : List Byte) : State := s.emit (.bulk loc 14 (h.src loc) data)

/-- The next TAG of a core's transfers, below 0xFFF0 (R163, R208). -/
def State.takeTag (s : State) (c : Nat) : Nat × State :=
  let t := (s.core c).nextTag
  (t, s.updCore c (fun k => { k with nextTag := (t + 1) % 0xFFF0 }))

/-- A row of `n` bytes from address `a`, cut into packets of at most 1,024 bytes that cross no page where `paged` (R163, R201, R235):
(offset in the row, bytes). -/
def cutRow (paged : Bool) (a n : Nat) : List (Nat × Nat) :=
  if n = 0 then [] else
  if paged then
    (pagePieces a n).flatMap (fun e => (List.range (ceilDiv e.2 1024)).map (fun i => (e.1 - a + 1024 * i, min 1024 (e.2 - 1024 * i))))
  else (List.range (ceilDiv n 1024)).map (fun i => (1024 * i, min 1024 (n - 1024 * i)))

/-! ### Descriptors -/

/-- A descriptor of 32 bytes by field (R64). -/
def parseDesc (l : List Byte) : StreamDesc :=
  let x := leNat l
  let w := bitsOf x 64 64
  let space := bitsOf w 63 1
  let rsvLow := bitsOf x 18 14 + bitsOf x 146 14 + bitsOf x 198 1 + bitsOf x 206 1 + bitsOf x 244 4 + bitsOf x 248 8
  let rsvMid := if space = 0 then bitsOf w 48 15 else bitsOf w 15 1 + bitsOf w 51 12
  { localOff := bitsOf x 0 18, rowBytes := bitsOf x 32 16, rowCount := bitsOf x 48 16, space := space
    addr := if space = 0 then bitsOf w 0 48 else 0
    vx := if space = 0 then 0 else bitsOf w 0 8
    vy := if space = 0 then 0 else bitsOf w 8 7
    slot := if space = 0 then 0 else bitsOf w 16 2
    roff := if space = 0 then 0 else bitsOf w 18 18
    vx1 := if space = 0 then 0 else bitsOf w 36 8
    vy1 := if space = 0 then 0 else bitsOf w 44 7
    lstride := bitsOf x 128 18, rstride := bitsOf x 160 32
    lcnt := bitsOf x 192 6, lcntEn := bitsOf x 199 1, rcnt := bitsOf x 200 6, rcntEn := bitsOf x 207 1
    linc := bitsOf x 208 16, rinc := bitsOf x 224 16, op := bitsOf x 240 4, rsv := b2n (decide (rsvLow + rsvMid ≠ 0)) }

/-- The bytes that a block of rows spans. -/
def span (rows stride rowBytes : Nat) : Nat := (rows - 1) * stride + rowBytes

/-- DESC with a detail, from engine `e` (4 for MSG.SEND), at a descriptor offset (R79). -/
def descBad (detail e o : Nat) : TrapReq := ⟨2, detail, e, some (o % 2 ^ 18)⟩

/-- The checks of a descriptor at issue, in the order of R66. `p` is the partition of the core's region. -/
def State.descChecks (s : State) (c : Nat) (t : Task) (kind e o : Nat) (d : StreamDesc) : Option TrapReq :=
  let die := coreDie c
  let gx := s.rd (CD_PMAP_GRID.GX die)
  let gy := s.rd (CD_PMAP_GRID.GY die)
  let bad := fun (n : Nat) => descBad n e o
  let reach := match s.partOfCore c with
    | some p => s.dieMayReach die p d.addr (span d.rowCount d.rstride d.rowBytes)
    | none => false
  firstBad [
    (decide (d.rowBytes % 16 ≠ 0) || decide (d.lstride % 16 ≠ 0) || decide (d.rstride % 16 ≠ 0), bad 1),
    (decide (d.rowBytes = 0) || decide (d.rowCount = 0), bad 2),
    (decide (kind = 2) && decide (d.space = 1) && (decide (d.vx1 < d.vx) || decide (d.vy1 < d.vy)), bad 5),
    ((decide (2 ≤ kind) && decide (d.space = 0)) || (decide (kind = 0) && decide (d.rcntEn = 1)) || (decide (kind = 3) && decide (6 ≤ d.op)), bad 3),
    (decide (d.rsv ≠ 0) || (decide (kind ≠ 2) && decide (d.vx1 + d.vy1 ≠ 0)) || (decide (kind ≠ 3) && decide (d.op ≠ 0)), bad 3),
    (decide (t.window < d.localOff + span d.rowCount d.lstride d.rowBytes), ⟨1, 2, 0, some o⟩),
    (decide (d.space = 0) && (decide (d.addr % 16 ≠ 0) || !reach), bad 4),
    (decide (d.space = 1) && (decide (gx ≤ d.vx) || decide (gy ≤ d.vy) ||
      (decide (kind = 2) && (decide (gx ≤ d.vx1) || decide (gy ≤ d.vy1)))), bad 4),
    (decide (d.lcntEn = 1) && decide (t.tccount ≤ d.lcnt), ⟨1, 4, 0, none⟩),
    (decide (d.space = 0) && decide (d.rcntEn = 1) && decide (t.tccount ≤ d.rcnt), ⟨1, 4, 0, none⟩)]

/-! ### Ending and failing -/

/-- A stream of core `c` goes through `f`. -/
def State.updStream (s : State) (c id : Nat) (f : Stream → Stream) : State :=
  s.updCore c (fun k => { k with streams := updFirst (fun x => decide (x.id = id)) f k.streams })

/-- A stream leaves its engine. -/
def State.dropStream (s : State) (c id : Nat) : State :=
  s.updCore c (fun k => { k with streams := removeFirst (fun x => decide (x.id = id)) k.streams })

/-- The cause, detail and code that a STATUS gives the sending task (R166, R79); `eng` 4 names MSG.SEND, whose failures all carry code 4 (R70). -/
def statusTrap (status scode eng : Nat) : TrapReq :=
  let code := if eng = 4 then 4 else 0
  match status with
  | 2 => ⟨1, 3, code, none⟩
  | 3 => ⟨1, 4, code, none⟩
  | 5 => ⟨6, 0, scode, none⟩
  | _ => ⟨5, 0, eng, none⟩

/-- A failure ends a stream and is posted to its task (R68). A commit copy's stream raises no trap: its core does not arrive, so that the half never
becomes valid, and a failure of the store ends the layer with the store's status (R132, R291). -/
def State.failStream (s : State) (c : Nat) (x : Stream) (r : TrapReq) : State :=
  let s := s.dropStream c x.id
  if x.slot < 4 then s.postAsync c x.slot x.pc r
  else
    let s := s.updCore c (fun k => { k with copies := k.copies - 1, copyBad := true })
    match r.cause, s.partOfCore c with
    | 6, some p => s.endLayer p r.code
    | _, _ => s

/-- The local increment of a stream (R65, R144). -/
def State.localInc (s : State) (c : Nat) (x : Stream) : State :=
  if x.d.lcntEn = 1 then s.cntAdd c ((s.task c x.slot).tcbase + x.d.lcnt) x.d.linc else s

/-- A stream whose transfers have all ended: its last counter updates, and it is complete (R65, R37, R140, R180). -/
def State.endStream (s : State) (c : Nat) (x : Stream) : State :=
  let s := if x.kind = 0 || x.pulled then s.localInc c x else s
  let s := if x.kind = 1 && x.d.space = 0 && x.d.rcntEn = 1 && decide (x.slot < 4) then
      s.cntAdd c ((s.task c x.slot).tcbase + x.d.rcnt) x.d.rinc else s
  let s := s.dropStream c x.id
  if x.slot < 4 then s else s.updCore c (fun k => { k with copies := k.copies - 1 })

/-! ### Starting -/

/-- The rows of a descriptor's local side: (row, scratchpad address). -/
def localRows (d : StreamDesc) (base : Nat) : List (Nat × Nat) := (List.range d.rowCount).map (fun r => (r, base + d.localOff + r * d.lstride))

/-- One READ_REQ of a GATHER: to the hub that owns the page, or to the core that the placement map names (R65, R181, R235). -/
def State.gatherRead (s : State) (c id : Nat) (d : StreamDesc) (target row : Nat) (sp : Nat) (e : Nat × Nat) : State :=
  let (tag, s) := s.takeTag c
  let ra := d.addr + row * d.rstride + e.1
  let loc := if d.space = 0 then stopAt (hubStop (s.hubFor (coreDie c) ra)) else target
  let h := { hdr0 with type := 4, plen := e.2, tag := tag, slot := d.slot }
  let h := if d.space = 0 then { h with addr := ra } else { h with toff := d.roff + row * d.rstride + e.1 }
  let s := s.updStream c id (fun x => { x with xfers := x.xfers ++ [.read tag loc (sp + e.1) e.2] })
  s.inject c (h.dst loc) []

/-- The fields of a data packet of a stream with SPACE = 1 (R163, R201): the payload lies at TOFF + SOFF of the target's window. -/
def dataHdr (d : StreamDesc) (type vc tag : Nat) (soff n : Nat) : BulkHdr :=
  { hdr0 with
    type := type, vc := vc, tag := tag, plen := n, toff := d.roff, soff := soff, slot := d.slot, cnt := d.rcnt
    cntEn := decide (d.rcntEn = 1), inc := d.rinc, op := d.op, addr := d.rowCount * d.rowBytes }

/-- The packets of a stream with SPACE = 1: (SOFF, scratchpad address, bytes), row by row. -/
def dataPackets (d : StreamDesc) (base : Nat) : List (Nat × Nat × Nat) :=
  (localRows d base).flatMap (fun e => (cutRow false 0 d.rowBytes).map (fun q => (e.1 * d.rstride + q.1, e.2 + q.1, q.2)))

/-- The data of a stream goes to one core as WRITE packets with one TAG (R65, R167). -/
def State.sendTo (s : State) (c id : Nat) (d : StreamDesc) (base target : Nat) : State :=
  let (tag, s) := s.takeTag c
  let s := s.updStream c id (fun x => { x with xfers := x.xfers ++ [.ack tag target] })
  forL (dataPackets d base) (fun e s => s.inject c ((dataHdr d 0 2 tag e.1 e.2.2).dst target) (s.spBytes c e.2.1 e.2.2)) s

/-- One WRITE packet of a SEND into the store (R65, R140, R235). -/
def State.sendStore (s : State) (c id : Nat) (d : StreamDesc) (row sp : Nat) (e : Nat × Nat) : State :=
  let (tag, s) := s.takeTag c
  let a := d.addr + row * d.rstride + e.1
  let loc := stopAt (hubStop (s.hubFor (coreDie c) a))
  let s := s.updStream c id (fun x => { x with xfers := x.xfers ++ [.ack tag loc] })
  s.inject c ({ hdr0 with plen := e.2, tag := tag, addr := a }.dst loc) (s.spBytes c (sp + e.1) e.2)

/-- One RSEND packet (R201), each with a TAG of its own so that each is acknowledged (R209). -/
def State.sendReduce (s : State) (c id : Nat) (d : StreamDesc) (target : Nat) (e : Nat × Nat × Nat) : State :=
  let (tag, s) := s.takeTag c
  let s := s.updStream c id (fun x => { x with xfers := x.xfers ++ [.ack tag target] })
  s.inject c ((dataHdr d 9 4 tag e.1 e.2.2).dst target) (s.spBytes c e.2.1 e.2.2)

/-- A PULL to one target (R180). -/
def State.sendPull (s : State) (c id : Nat) (d : StreamDesc) (base target : Nat) : State :=
  let (tag, s) := s.takeTag c
  let s := s.updStream c id (fun x => { x with xfers := x.xfers ++ [.ack tag target], pulled := true })
  s.emit (.pull c 14 ((({ hdr0 with type := 7, tag := tag, slot := d.slot }).dst target).src c) { d with localOff := (base + d.localOff) % 2 ^ 18 })

/-- The cover of a virtual rectangle (R174): the pieces, one for each block record met, and the cores of the strays. -/
def coverOf (pl : Placement) (vx0 vy0 vx1 vy1 : Nat) : List Rect × List Nat :=
  (pl.blocks.filterMap (fun b =>
      let x0 := max vx0 b.vx0
      let x1 := min vx1 (b.vx0 + b.w - 1)
      let y0 := max vy0 b.vy0
      let y1 := min vy1 (b.vy0 + b.h - 1)
      if x0 ≤ x1 ∧ y0 ≤ y1 then
        some ⟨b.px0 + (x0 - b.vx0), b.py0 + (y0 - b.vy0), b.px0 + (x1 - b.vx0), b.py0 + (y1 - b.vy0)⟩
      else none),
    (pl.strays.filter (fun q => decide (vx0 ≤ q.vx) && decide (q.vx ≤ vx1) && decide (vy0 ≤ q.vy) && decide (q.vy ≤ vy1))).map
      (fun q => coreAt q.px q.py))

/-- The cover of an MCAST by the die's placement map (R174). -/
def State.cover (s : State) (die : Nat) (d : StreamDesc) : List Rect × List Nat := coverOf (s.pmap die) d.vx d.vy d.vx1 d.vy1

/-- The cores of a rectangle. -/
def Rect.cores (r : Rect) : List Nat :=
  (List.range (r.y1 + 1 - r.y0)).flatMap (fun j => (List.range (r.x1 + 1 - r.x0)).map (fun i => coreAt (r.x0 + i) (r.y0 + j)))

/-- MC_OPEN of one piece (R176). -/
def State.sendOpen (s : State) (c id : Nat) (r : Rect) : State :=
  let (tag, s) := s.takeTag c
  let s := s.updStream c id (fun x => { x with xfers := x.xfers ++ [.opening tag r] })
  s.inject c ({ hdr0 with type := 2, tag := tag }.rect r) []

/-- The start of an MCAST (R174, R176, R179): multicast with its strays first, or meld pull of every target. -/
def State.startMcast (s : State) (c : Nat) (x : Stream) (base : Nat) : State :=
  let (pieces, strays) := s.cover (coreDie c) x.d
  if pieces.length ≤ 8 ∧ strays.length ≤ 4 then
    let s := forL pieces (fun r s => s.sendOpen c x.id r) s
    forL strays (fun q s => s.sendTo c x.id x.d base q) s
  else
    let s := s.updStream c x.id (fun x => { x with sent := true })
    forL (strays ++ pieces.flatMap Rect.cores) (fun q s => s.sendPull c x.id x.d base q) s

/-- The MC_WRITE packets of the accepted pieces, once every MC_OPEN of the stream has been answered, and the local increment of a stream
whose window has then been read (R176, R65). -/
def State.sendPieces (s : State) (c : Nat) (x : Stream) (base : Nat) : State :=
  if x.sent || x.xfers.any (fun f => match f with
      | .opening _ _ => true
      | _ => false) then s else
  let s := s.updStream c x.id (fun x => { x with sent := true })
  let s := forL x.xfers (fun f s => match f with
    | .piece tag r => forL (dataPackets x.d base) (fun e s =>
        s.inject c ((dataHdr x.d 1 2 tag e.1 e.2.2).rect r) (s.spBytes c e.2.1 e.2.2)) s
    | _ => s) s
  if x.pulled then s else s.localInc c x

/-- A stream starts (R65, R67): reading its rows meets their memory errors first (R131, R132). -/
def State.startStream (s : State) (c : Nat) (x : Stream) : State :=
  let base := if x.slot < 4 then (s.task c x.slot).tbase else 0
  let s := s.updStream c x.id (fun y => { y with started := true, sent := decide (y.kind ≠ 2) })
  let target := ((s.pmap (coreDie c)).locate x.d.vx x.d.vy).getD 0
  if x.kind = 0 then
    forL (localRows x.d base) (fun e s => forL (cutRow (decide (x.d.space = 0)) (x.d.addr + e.1 * x.d.rstride) x.d.rowBytes) (fun q s =>
      s.gatherRead c x.id x.d target e.1 e.2 q) s) s
  else
    let rd := (localRows x.d base).foldl (fun (st : State × Option Nat) e =>
      match st.2 with
      | some b => (st.1, some b)
      | none => st.1.spCheck c e.2 x.d.rowBytes) (s, none)
    match rd with
    | (s, some a) => s.failStream c x ⟨4, s.bank c a, 0, none⟩
    | (s, none) =>
      let s := s.perf c 9 (x.d.rowCount * x.d.rowBytes)
      if x.kind = 2 then
        let s := s.startMcast c x base
        match (s.core c).streams.find? (fun y => decide (y.id = x.id)) with
        | some y => s.sendPieces c y base
        | none => s
      else
        let s :=
          if x.kind = 3 then forL (dataPackets x.d base) (fun e s => s.sendReduce c x.id x.d target e) s
          else if x.d.space = 1 then s.sendTo c x.id x.d base target
          else forL (localRows x.d base) (fun e s => forL (cutRow true (x.d.addr + e.1 * x.d.rstride) x.d.rowBytes) (fun q s =>
            s.sendStore c x.id x.d e.1 e.2 q) s) s
        s.localInc c x

/-- May a stream start behind the streams issued before it and the matrix work of its task (R58, R67)? The increments of a stream that sends
release every earlier write of its task, so it waits for all of them (R144). -/
def Core.mayStart (k : Core) (before : List Stream) (x : Stream) : Bool :=
  let rows := streamRows x.d
  let clear := fun (l : List (Nat × Nat)) => !rows.any (fun e => touches e.1 e.2 l)
  !(before.any (fun y => decide (y.eng = x.eng) && !y.started && decide (y.slot < 4))) &&
  (k.work.filter (fun e => decide (e.slot = x.slot))).all (fun e =>
    clear e.op.writes && (if x.kind = 0 then clear e.op.reads else e.op.writes.isEmpty)) &&
  (before.filter (fun y => decide (y.slot = x.slot))).all (fun y =>
    if y.kind = 0 then clear (streamRows y.d) else (decide (x.kind ≠ 0) || !y.reading || clear (streamRows y.d)))

/-- The first stream that has not started and may start. -/
def Core.nextStart (k : Core) : List Stream → List Stream → Option Stream
  | _, [] => none
  | before, x :: t => if !x.started && k.mayStart before x then some x else k.nextStart (before ++ [x]) t

/-- Every stream of a core that may start does, in issue order (R67). -/
def State.startStreams (s : State) (c : Nat) : State :=
  forN ((s.core c).streams.length + 1) (fun _ s => match (s.core c).nextStart [] (s.core c).streams with
    | some x => s.startStream c x
    | none => s) s

end Sys2Proof.Machine
end

