-- ==== Sys2Proof/Machine/Issue.lean ====
section
/-! DEFINITION. Issue: the choice of the RUNNING slot (R34 to R36), instruction fetch (R45, R46, R681), the
hardware loop (R47), and running one instruction of a core. -/

namespace Sys2Proof.Machine

/-! ### Slots -/

/-- The slot that is RUNNING. -/
def Core.running (k : Core) : Option Nat := (List.range 4).find? (fun i => decide ((k.task i).st = .running))

/-- The slots in selection order after slot `last` (R35). -/
def slotsAfter (last : Nat) : List Nat := [(last + 1) % 4, (last + 2) % 4, (last + 3) % 4, last % 4]

/-- Is what a WAITING task waits for satisfied (R34, R61, R74)? -/
def Core.waitOver (k : Core) (t : Task) : Bool :=
  match t.wait with
  | none => true
  | some (.counter i v) => decide (v.toNat ≤ (Tab.get (0 : W32) k.counters i).toNat)
  | some (.phase b) => !bitOf t.arrived b
  | some (.arrive b) => !bitOf t.arrived b
  | some (.engine e) => decide ((k.streams.filter (fun x => decide (x.eng = e))).length < 4)
  | some .msgs => decide (k.msgs.length < 8)

/-- How many slots already READY or RUNNING took a free entry of what `w` waits for: two tasks that wait on one engine entry become
READY one after the other (R83). -/
def sameWait (a b : Option WaitCond) : Bool :=
  match a, b with
  | some (.engine x), some (.engine y) => decide (x = y)
  | some .msgs, some .msgs => true
  | _, _ => false

/-- Free entries of what a slot waits for; no limit for conditions that are not used up. -/
def Core.freeFor (k : Core) (w : Option WaitCond) : Nat :=
  match w with
  | some (.engine e) => 4 - (k.streams.filter (fun x => decide (x.eng = e))).length
  | some .msgs => 8 - k.msgs.length
  | _ => 4

/-- Slot `i` becomes READY where it waits and its condition holds; the list holds what the slots that woke before it waited for (R36, R83). -/
def wakeOne (st : Core × List (Option WaitCond)) (i : Nat) : Core × List (Option WaitCond) :=
  let t := st.1.task i
  if t.st = .waiting && st.1.waitOver t && decide ((st.2.filter (sameWait t.wait)).length < st.1.freeFor t.wait) then
    (st.1.setTask i { t with st := .ready, wait := none }, t.wait :: st.2)
  else st

/-- WAITING slots whose condition holds become READY, in selection order (R36, R83). -/
def Core.wake (k : Core) : Core := ((slotsAfter k.last).foldl wakeOne (k, [])).1

/-- Where no slot is RUNNING, the first READY slot in selection order becomes RUNNING (R35). -/
def Core.select (k : Core) : Core × Bool :=
  if k.running.isSome then (k, false)
  else
    match (slotsAfter k.last).find? (fun i => decide ((k.task i).st = .ready)) with
    | some i => ({ k.setTask i { k.task i with st := .running } with last := i }, true)
    | none => (k, false)

/-- WAITING slots wake and a READY slot is selected; `cnt` counts a task switch (R35, R36, R581). -/
def State.resched (s : State) (c : Nat) (cnt : Bool := true) : State :=
  let k := (s.core c).wake
  let (k, sw) := k.select
  let s := s.setCore c k
  if sw && cnt then s.pcount (coreDie c) (CD_PERF.COUNT (coreDie c) (coreN c) 12) (CD_PERF_WRAP.WRAP (coreDie c) (coreN c)) 12 1 else s

/-! ### Fetch -/

/-- Does the core's cluster clock run (R491, R190) and is the core unfenced? -/
def State.canIssue (s : State) (c : Nat) : Bool :=
  let r := regionOf (coreDie c)
  !(s.core c).fenced && decide (s.rgnState r ≤ 1) && !s.bit (RGN_PWR_STAT.CLAMPED r)

/-- The line of scratchpad address `a` enters the loop buffer on a miss, filled from the scratchpad, and becomes the most recently
used of 64 (R46); the answer is the bank of an uncorrectable error in the fill (R83). -/
def State.fetchLine (s : State) (c a : Nat) : State × Option Nat :=
  let ln := a / 64 * 64
  let k := s.core c
  match k.lbuf.find? (fun e => decide (e.1 = ln)) with
  | some e => (s.setCore c { k with lbuf := e :: removeFirst (fun x => decide (x.1 = ln)) k.lbuf }, none)
  | none =>
    match s.spRead c ln 64 with
    | (s, .error b) => (s, some b)
    | (s, .ok l) =>
      let k := s.core c
      (s.setCore c { k with lbuf := ((ln, BitVec.ofNat 512 (leNat l)) :: k.lbuf).take 64 }, none)

/-- The fetch of an instruction of `size` bytes at a task's PC (R45, R46, R681): the trap it takes, if any, with the PC it reports. -/
def State.fetch (s : State) (c i size : Nat) : State × Option (Nat × TrapReq) :=
  let t := s.task c i
  match t.badFetch with
  | some a => (s, some (t.lastPc.toNat, bound 1 a))
  | none =>
    if !t.inWindow t.pc.toNat size then (s, some (t.lastPc.toNat, bound 1 t.pc.toNat))
    else
      let sp := t.tbase + t.pc.toNat
      match s.fetchLine c sp with
      | (s, some b) => (s, some (t.pc.toNat, ⟨4, b, 0, some t.pc.toNat⟩))
      | (s, none) =>
        if size ≤ 4 then (s, none) else
        match s.fetchLine c (sp + size - 4) with
        | (s, some b) => (s, some (t.pc.toNat, ⟨4, b, 0, some (t.pc.toNat + size - 4)⟩))
        | (s, none) => (s, none)

/-- The 4 bytes at scratchpad address `a` as instruction fetch sees them: from the loop buffer, which does not observe stores, or the scratchpad (R46). -/
def State.codeWord (s : State) (c a : Nat) : Nat :=
  match (s.core c).lbuf.find? (fun e => decide (e.1 = a / 64 * 64)) with
  | some e => bitsOf e.2.toNat (8 * (a % 64)) 32
  | none => leNat (s.spBytes c a 4)

/-- The instruction that the words at the RUNNING task's PC spell (R45, R49): what the core's next command is where it follows its program. -/
def State.nextInstr (s : State) (c : Nat) : Option Instr :=
  (s.core c).running.map (fun i =>
    let t := s.task c i
    let a := t.tbase + t.pc.toNat
    decodeWord c (BitVec.ofNat 64 (s.codeWord c a + s.codeWord c (a + 4) * 2 ^ 32)))

/-! ### Running one instruction -/

/-- How an instruction leaves its task. -/
inductive Done where
  /-- It completes, and execution goes on in sequence. -/
  | go (s : State)
  /-- It completes and transfers control to a target offset, which may lie outside the window (R681). -/
  | jump (s : State) (target : Int)
  /-- It traps. -/
  | trap (s : State) (r : TrapReq)
  /-- It does not complete: the task becomes WAITING and issues it again (R34). -/
  | wait (s : State) (w : WaitCond)
  /-- It does not complete: the task stays RUNNING and issues it again (R73). -/
  | stall (s : State)
  /-- It completes and the task is DONE (R77), which counts as its arrival on every channel (R214). -/
  | stop (s : State)

/-- The task after an instruction of `size` bytes completes in sequence: the hardware loop returns to its first instruction while
executions are left (R47). -/
def Task.advance (t : Task) (size : Nat) : Task :=
  let n := t.pc.toNat + size
  match t.loop with
  | some l =>
    if n = l.finish then
      if 1 < l.left then { t with lastPc := t.pc, pc := BitVec.ofNat 18 l.start, loop := some { l with left := l.left - 1 } }
      else { t with lastPc := t.pc, pc := BitVec.ofNat 18 n, loop := none }
    else { t with lastPc := t.pc, pc := BitVec.ofNat 18 n }
  | none => { t with lastPc := t.pc, pc := BitVec.ofNat 18 n }

/-- The task after a taken transfer: a target out of the loop body ends the loop (R47); a target outside the window traps at its
fetch (R681). -/
def Task.transfer (t : Task) (target : Int) : Task :=
  let a := (target % (2 ^ 18 : Int)).toNat
  let lp := match t.loop with
    | some l => if (l.start : Int) ≤ target ∧ target < l.finish then some l else none
    | none => none
  if 0 ≤ target ∧ target < t.window then { t with lastPc := t.pc, pc := BitVec.ofNat 18 a, loop := lp }
  else { t with lastPc := t.pc, pc := BitVec.ofNat 18 a, loop := lp, badFetch := some a }

/-- The state after the instruction that slot `i` issued leaves as `o` says. -/
def finish (c i size : Nat) : Done → State
  | .go s => ((s.updTask c i (fun t => t.advance size)).perf c 1 1).resched c
  | .jump s tg => ((s.updTask c i (fun t => t.transfer tg)).perf c 1 1).resched c
  | .trap s r => ((s.trapTask c i (s.task c i).pc.toNat r).startStreams c).resched c
  | .wait s w => (s.updTask c i (fun t => { t with st := .waiting, wait := some w })).resched c
  | .stall s => s
  | .stop s => forN 7 (fun b s => s.tryArrive c b) (((s.updTask c i (fun t => { t.advance size with st := .done })).perf c 1 1).resched c)

/-- A core takes one instruction of `size` bytes. No slot RUNNING or a stopped clock: nothing happens. An asynchronous trap that
waits for this boundary is taken instead (R69). Then the fetch, the checks, and the instruction itself. -/
def State.runInstr (s : State) (c size : Nat) (check : Task → Option TrapReq) (body : Nat → State → Done) : State :=
  match (if s.canIssue c then (s.core c).running else none) with
  | none => s
  | some i =>
    match (s.core c).async.find? (fun a => decide (a.slot = i)) with
    | some a =>
      (((s.updCore c (fun k => { k with async := removeFirst (fun x => decide (x.slot = i)) k.async })).trapAs c i a.tr).startStreams c).resched c
    | none =>
      match s.fetch c i size with
      | (s, some (pc, r)) => ((s.trapTask c i pc r).startStreams c).resched c
      | (s, none) =>
        match check (s.task c i) with
        | some r => finish c i size (.trap s r)
        | none => finish c i size (body i s)

/-- An instruction whose effect is on its task's registers alone. -/
def onTask (c : Nat) (f : Task → Task) (i : Nat) (s : State) : Done := .go (s.updTask c i f)

end Sys2Proof.Machine
end

