-- ==== Sys2Proof/Machine/Routing.lean ====
section
/-! DEFINITION. Bulk routing (R168 to R170), answers of targets and routers (R166, R167, R169), and the geometry of multicast trees (R175). -/

namespace Sys2Proof.Machine

/-- Where a packet goes from a location. -/
inductive Hop where
  /-- Its destination is here: the core or the ring stop. -/
  | here (loc : Nat)
  /-- It leaves by a way of router or stop `from_`. -/
  | out (from_ way : Nat)
  /-- It is undeliverable. -/
  | drop
  deriving DecidableEq, Repr

/-- The edge router of die `d` where a packet at local (x, y) leaves by way `w` (R169). -/
def exitRouter (d x y w : Nat) : Nat :=
  match w % 4 with
  | 0 => d * 256 + y * 16 + 15
  | 1 => d * 256 + 15 * 16 + x
  | 2 => d * 256 + y * 16
  | _ => d * 256 + x

/-- The corner router of a corner die (R18, R169). -/
def cornerRouter (d : Nat) : Nat :=
  if d = 0 then 0 else if d = 11 then 11 * 256 + 15 else if d = 143 then 143 * 256 + 255 else 132 * 256 + 240

/-- The segments and the stops beyond the first that a path of `n` segments from stop `a` uses, upwards or downwards (R20, R21). -/
def ringPath (up : Bool) (a n : Nat) : List Nat × List Nat :=
  ((List.range n).map (fun i => if up then (a + i) % 52 else (a + 51 - i) % 52),
    (List.range n).map (fun i => if up then (a + i + 1) % 52 else (a + 51 - i) % 52))

/-- Is a path clear of every break (R22)? -/
def State.ringClear (s : State) (up : Bool) (a n : Nat) : Bool :=
  let p := ringPath up a n
  !(p.1.any (fun g => s.net.brkSegs.contains g)) && !(p.2.any (fun q => s.net.brkStops.contains q))

/-- Segments from a stop to another, upwards and downwards. -/
def ringUp (a q : Nat) : Nat := (q + 52 - a) % 52
def ringDown (a q : Nat) : Nat := (a + 52 - q) % 52

/-- The direction in which the ring reaches a stop (R21, R22): the shorter, the increasing one where they are equal, the other round a break; none where
neither reaches. -/
def State.ringDir (s : State) (a q : Nat) : Option Bool :=
  let first := decide (ringUp a q ≤ ringDown a q)
  if s.ringClear first a (if first then ringUp a q else ringDown a q) then some first
  else if s.ringClear (!first) a (if first then ringDown a q else ringUp a q) then some (!first)
  else none

/-- The link by which a stop's packets enter the mesh: way 10 its edge or corner link, way 4 a skip link over a hole (R23); none where no die takes them. -/
def State.entryWay (s : State) (st : Nat) : Option Nat :=
  let l := s.entryDies (144 + st)
  if l.any (fun e => decide (e.2 < 4) || decide (e.2 = 8)) then some 10 else if l.isEmpty then none else some 4

/-- Are two stops hubs both, or engines both? -/
def sameSide (a b : Nat) : Bool := ((stopHub a).isSome && (stopHub b).isSome) || ((stopEng a).isSome && (stopEng b).isSome)

/-- The stop whose edge link takes a stop's packets for cores (R25): its own, or where its edge die is a hole that of the nearest hub or engine as it is
one itself; for a corner die the nearest of either. Of two at one distance it is the one upwards. -/
def State.entryStop (s : State) (st : Nat) : Nat :=
  let fits := fun (q : Nat) => (sameSide st q || (decide (st % 13 = 0) && decide (q % 13 ≠ 0))) && s.perimIn (144 + q) && (s.entryWay q).isSome
  if (s.entryWay st).isSome then st
  else ((List.range 26).findSome? (fun i => [(st + i + 1) % 52, (st + 51 - i) % 52].find? fits)).getD st

/-- A way out of a stop over the ring to another stop, or by its edge link where the ring does not reach (R170, R22). -/
def State.ringHop (s : State) (loc q : Nat) : Hop :=
  match s.ringDir (loc - 36864) q with
  | some up => .out loc (if up then 8 else 9)
  | none => .out loc ((s.entryWay (loc - 36864)).getD 10)

/-- A packet at location `loc` is routed to destination location `dst` (R169, R170, R23, R25). `cr` gives the free credits by way, `lane` the lane of a
packet with ADDR. -/
def State.routeTo (s : State) (loc : Nat) (cr : List Nat) (dst : Nat) (lane : Option Nat) : Hop :=
  if 36864 ≤ loc then
    if dst = loc then .here loc
    else if dst < 36864 then
      let q := s.entryStop (loc - 36864)
      if stopAt q = loc then .out loc ((s.entryWay q).getD 10) else s.ringHop loc q
    else s.ringHop loc (dst - 36864)
  else
    let d := coreDie loc
    if dst < 36864 ∧ coreDie dst = d then .here dst
    else
      let e := s.usable d (locNode dst)
      if e = 0 then .drop
      else if e = 0x0F then (if (cornerNode d).isSome then .out (cornerRouter d) 8 else .drop)
      else
        let own := if dst < 36864 then none else (List.range 4).find? (fun w => decide (wayNode d w = some (locNode dst)) && s.wayOk d w)
        let w := own.getD (bestWay e cr)
        let x := coreN loc % 16
        let y := coreN loc / 16
        let edge := decide (w < 4) && ((wayNode d w).map (fun n => !isDie n)).getD false
        let l := if edge then lane.getD (if w % 2 = 0 then y else x) else if w % 2 = 0 then y else x
        .out (if w % 2 = 0 then exitRouter d x l w else exitRouter d l y w) w

/-- Does a bulk packet to a ring stop carry a store address (R163)? -/
def laneOf (h : BulkHdr) : Option Nat :=
  if h.dkind = 1 ∧ (h.type = 0 ∨ h.type = 1 ∨ h.type = 4 ∨ h.type = 9) then some (bitsOf h.addr 12 4) else none

/-- An answer goes from a location to the source of a packet, with its TAG (R166, R167). -/
def State.answer (s : State) (loc : Nat) (h : BulkHdr) (type status scode : Nat) : State :=
  s.inject loc ({ hdr0 with type := type, vc := 3, status := status, scode := scode, tag := h.tag }.dst h.from_) []

/-- A drop is recorded in the die's CD_NET_ERR (R199). -/
def State.noteDrop (s : State) (loc status : Nat) : State :=
  if loc < 36864 then (s.wr (CD_NET_ERR.DROP (coreDie loc)) 1).wr (CD_NET_ERR.DROP_STATUS (coreDie loc)) status else s

/-- An undeliverable packet is dropped, and ERROR with STATUS UNREACHABLE goes to its source (R169). -/
def State.undeliverable (s : State) (loc : Nat) (h : BulkHdr) : State := (s.noteDrop loc 4).answer loc h 0xB 4 0

/-- A packet waits for a core whose region is in C1 or C3: its region manager starts the exit (R172, R493). -/
def State.wakeFor (s : State) (c : Nat) : State :=
  let r := regionOf (coreDie c)
  if c < 36864 ∧ (s.rgnState r = 2 ∨ s.rgnState r = 3) ∧ s.power.waking.contains r = false then { s with power := { s.power with waking := s.power.waking ++ [r] } } else s

/-- A bulk packet at a location: nothing happens where the die's fabric is off (R157), or behind another packet of its VC in the same input buffer (R162,
R172), or where a new request comes to a block that is to be reset (R530); one that must wait for core `wait` stays in its buffer, and wakes the core's region
(R172); else it is handled by `f`. -/
def State.receive (s : State) (loc : Nat) (h : BulkHdr) (wait : Option Nat) (f : State → State) : State :=
  if (decide (loc < 36864) && s.dieAbsent (coreDie loc)) || s.blocked loc h || (BulkHdr.request h && s.idling loc) then s
  else
    match wait with
    | some c => s.wakeFor c
    | none => f s

/-! ### The perimeter ring (R20 to R22) -/

/-- A ring packet enters the bulk network as RING_DETOUR, by its stop's own link (R22). -/
def State.detour (s : State) (a : Nat) (p : RingPkt) : State :=
  s.inject (stopAt a) ({ hdr0 with type := 0xA, vc := 0, plen := ceilDiv p.body.length 16 * 16 }.dst (stopAt p.dst)) p.body

/-- A ring packet goes on from a stop in the ring's direction (R21, R22), or as a detour where neither direction reaches: for a table change that is under
way, once it has ended (R173). Where its destination stop itself is marked broken no direction reaches it, with one break too, and it detours (DESIGN
CHOICE, log entry 90: R22 speaks of two or more). -/
def State.ringOn (s : State) (a : Nat) (p : RingPkt) : State :=
  match s.ringDir a p.dst with
  | some up => (s.updNet (fun n => { n with ring := n.ring ++ [⟨a, up, p⟩] })).emit (.ring a up p)
  | none => if s.net.chg.isSome then s.updNet (fun n => { n with ringWait := n.ringWait ++ [(a, p)] }) else s.detour a p

/-- The stop that a packet on a segment comes to, and the segment. -/
def RingHop.next (x : RingHop) : Nat := if x.up then (x.stop + 1) % 52 else (x.stop + 51) % 52
def RingHop.seg (x : RingHop) : Nat := if x.up then x.stop else (x.stop + 51) % 52

/-- The packets on the segments that a break takes are recovered by the retry of the segment and resent the other way (R22). -/
def State.ringResend (s : State) (gone : RingHop → Bool) : State :=
  let l := s.net.ring.filter gone
  forL l (fun x s => s.ringOn x.stop x.p) (s.updNet (fun n => { n with ring := n.ring.filter (fun x => !gone x) }))

/-- The active steward marks a stop broken (R22). -/
def State.breakStop (s : State) (i : Nat) : State :=
  if s.bit GLB_STW_STAT.LOST_BOTH then s
  else (s.updNet (fun n => { n with brkStops := i :: n.brkStops.filter (fun x => decide (x ≠ i)) })).ringResend (fun x => decide (x.next = i))

/-- The active steward marks a segment broken (R22). -/
def State.breakSeg (s : State) (i : Nat) : State :=
  if s.bit GLB_STW_STAT.LOST_BOTH then s
  else (s.updNet (fun n => { n with brkSegs := i :: n.brkSegs.filter (fun x => decide (x ≠ i)) })).ringResend (fun x => decide (x.seg = i))

/-! ### Control packets (R156, R157, R171, R189) -/

/-- The nodes that a broadcast reaches from `front` on, over control links in service, through nodes that have not seen it. -/
def State.spread (s : State) (ok : Nat → Bool) : Nat → List Nat → List Nat → List Nat
  | 0, got, _ => got
  | n + 1, got, front =>
    let new := ((front.flatMap s.nbrs).filter (fun m => ok m && !got.contains m)).dedup
    if new.isEmpty then got else s.spread ok n (got ++ new) new

/-- The compute dies that a broadcast of a steward reaches, each for the first time; every node that it reaches remembers it among the last 64 (R189). -/
def State.ctlNodes (s : State) (h : CtlHdr) : State × List Nat :=
  if h.snode = 157 ∨ h.snode = 183 then
    let fresh := fun (n : Nat) => !((s.node n).seen.contains (h.snode, h.msgid))
    let got := if fresh h.snode then s.spread fresh 196 [h.snode] [h.snode] else []
    (forL got (fun n s => s.updNode n (fun x => { x with seen := ((h.snode, h.msgid) :: x.seen).take 64 })) s, got.filter isDie)
  else (s, [])

/-- A control packet arrives: a broadcast at every die it reaches; any other at DNODE, where the tables lead to it and its router is on (R156, R157, R171).
One that `wait` holds back stays in its buffer and wakes the region (R172); else `f` handles it. -/
def atCtl (h : CtlHdr) (wait : CtlHdr → State → Bool) (f : CtlHdr → State → Res) (s : State) : Res :=
  if h.bcast then
    let (s, l) := s.ctlNodes h
    .next (forL l (fun d s => match f { h with dnode := d } s with
      | .next t => t
      | _ => s) s)
  else if !s.ctlRoute h.snode h.dnode then .next s
  else if wait h s then .next (s.wakeFor (h.dnode * 256))
  else f h (s.ctlTook h)

/-- Nothing holds a packet back. -/
def noWait (_ : CtlHdr) (_ : State) : Bool := false

/-! ### Multicast trees (R175) -/

/-- Limited to [lo, hi]. -/
def clampTo (lo hi x : Nat) : Nat := max lo (min hi x)

/-- The panel position where a source enters the mesh: its core, or for a perimeter source the edge router whose lane its TAG names
(DESIGN CHOICE, log entry 9: the source chooses the lane, R170). -/
def sourcePos (h : BulkHdr) : Nat × Nat :=
  if h.sperim then
    let lane := h.tag % 16
    match stopHub h.sx with
    | some k => if k < 12 then (0, 16 * k + lane) else (191, 16 * (k - 12) + lane)
    | none =>
      match stopEng h.sx with
      | some k => if k < 12 then (16 * k + lane, 0) else (16 * (k - 12) + lane, 191)
      | none => if h.sx = 0 then (0, 0) else if h.sx = 13 then (191, 0) else if h.sx = 26 then (191, 191) else (0, 191)
  else (h.sx, h.sy)

/-- The entry core of a multicast (R175). -/
def entryPos (h : BulkHdr) : Nat × Nat :=
  let (sx, sy) := sourcePos h
  (clampTo h.x0 h.x1 sx, clampTo h.y0 h.y1 sy)

/-- Is a core in a packet's rectangle? -/
def inRect (h : BulkHdr) (c : Nat) : Bool :=
  decide (h.x0 ≤ coreX c) && decide (coreX c ≤ h.x1) && decide (h.y0 ≤ coreY c) && decide (coreY c ≤ h.y1)

/-- The directions of a router's branches in the tree: 0 E, 1 N, 2 W, 3 S (R175). -/
def treeDirs (h : BulkHdr) (c : Nat) : List Nat :=
  let (ex, ey) := entryPos h
  let x := coreX c
  let y := coreY c
  (if y = ey then (if ex ≤ x ∧ x < h.x1 then [0] else []) ++ (if x ≤ ex ∧ h.x0 < x then [2] else []) else []) ++
  (if ey ≤ y ∧ y < h.y1 then [1] else []) ++ (if y ≤ ey ∧ h.y0 < y then [3] else [])

/-- The direction back up the tree; none at the entry core (R175, R176). -/
def treeUp (h : BulkHdr) (c : Nat) : Option Nat :=
  let (ex, ey) := entryPos h
  let x := coreX c
  let y := coreY c
  if y < ey then some 1 else if ey < y then some 3 else if x < ex then some 0 else if ex < x then some 2 else none

end Sys2Proof.Machine
end

