-- ==== Sys2Proof/Machine/Bulk.lean ====
section
/-! DEFINITION. Bulk packets at routers, cores, hubs and sources: unicast and multicast data (R164 to R178), reads and meld (R179 to R182),
reductions (R201 to R209), and the answers that complete a transfer (R166, R167, R208, R209). -/

namespace Sys2Proof.Machine

/-! ### Merged statuses -/

/-- The place of a STATUS in the table of R166: of several, the one listed first is the merged one. -/
def statusRank (st : Nat) : Nat :=
  match st with
  | 1 => 0
  | 4 => 1
  | 2 => 2
  | 3 => 3
  | 5 => 4
  | 6 => 5
  | 0 => 6
  | _ => 7

/-- Two statuses merged (R166). -/
def mergeStatus (a b : Nat) : Nat := if statusRank a ≤ statusRank b then a else b

/-- The location that a source code names. -/
def codeLoc (src : Nat) : Nat := if 65536 ≤ src then stopAt (src % 256) else coreAt (src % 256) (src / 256)

/-! ### Tree entries -/

/-- An answer of type `type` goes up the tree from router `r`, or from the entry core to the source (R176). -/
def State.sendUp (s : State) (r : Nat) (e : TreeEnt) (type status : Nat) : State :=
  let h := (({ hdr0 with type := type, vc := 3, status := status, tag := e.tag }).dst (codeLoc e.src)).src r
  if e.up = 4 then s.emit (.bulk r 14 h []) else s.leave r (stepWay r e.up) h []

/-- The tree entry of a router for a source and TAG. -/
def Router.treeEnt (x : Router) (src tag : Nat) : Option TreeEnt := x.tree.find? (fun e => decide (e.src = src) && decide (e.tag = tag))

/-- A tree entry leaves. -/
def State.dropTree (s : State) (r src tag : Nat) : State :=
  s.updRouter r (fun x => { x with tree := removeFirst (fun e => decide (e.src = src) && decide (e.tag = tag)) x.tree })

/-- One ACK, of the router's own core or of a branch, is merged into a tree entry; the last sends one ACK up and frees it (R176). -/
def State.treeAck (s : State) (r : Nat) (e : TreeEnt) (status : Nat) : State :=
  let st := mergeStatus e.status status
  if e.acks ≤ 1 then (s.dropTree r e.src e.tag).sendUp r e 8 st
  else s.updRouter r (fun x => { x with
    tree := updFirst (fun y => decide (y.src = e.src) && decide (y.tag = e.tag)) (fun y => { y with acks := y.acks - 1, status := st }) x.tree })

/-- One answer to MC_OPEN is merged; the last sends one MC_OPEN_RSP up (R176). -/
def State.treeOpen (s : State) (r : Nat) (e : TreeEnt) (status : Nat) : State :=
  let st := mergeStatus e.status status
  let s := s.updRouter r (fun x => { x with
    tree := updFirst (fun y => decide (y.src = e.src) && decide (y.tag = e.tag))
      (fun y => { y with opens := y.opens - 1, status := if y.opens ≤ 1 then 0 else st }) x.tree })
  if e.opens ≤ 1 then s.sendUp r e 3 st else s

/-! ### Delivery into a core -/

/-- Is a core's region where deliveries wait for it: C1 or C3, or gated by a CLAMP (R172, R491, R493)? -/
def State.asleep (s : State) (c : Nat) : Bool :=
  let r := regionOf (coreDie c)
  decide (s.rgnState r = 2) || decide (s.rgnState r = 3) || s.bit (RGN_PWR_STAT.CLAMPED r)

/-- The scratchpad address of offset 0 that a packet's TOFF counts from, and the bytes that it may reach: of an EMPTY slot none, one that PREPARE has
loaded among them (R135, R150). -/
def State.reachOf (s : State) (c : Nat) (h : BulkHdr) : Nat × Nat :=
  if h.abs_ then (0, 0x30000)
  else
    let t := s.task c h.slot
    if t.st = .empty then (0, 0) else (t.tbase, t.window)

/-- The TAG that a transfer awaits. -/
def Xfer.tag : Xfer → Nat
  | .read t _ _ _ => t
  | .ack t _ => t
  | .opening t _ => t
  | .piece t _ => t

/-- The stream of a core that awaits a TAG. -/
def Core.streamOf (k : Core) (tag : Nat) : Option Stream := k.streams.find? (fun x => x.xfers.any (fun f => decide (f.tag = tag)))

/-- The bytes from TOFF that the target checks before it writes any (R135): the remote extent of the stream that the packet belongs to. A packet has no
field for it (R163), so it is that of the sender's stream (DEDUCED, log entry 86); a packet of no stream answers for its own bytes. -/
def State.extentOf (s : State) (h : BulkHdr) (n : Nat) : Nat :=
  match if h.sperim then none else (s.core (coreAt h.sx h.sy)).streamOf h.tag with
  | some x => max (h.soff + n) (span x.d.rowCount x.d.rstride x.d.rowBytes)
  | none => h.soff + n

/-- What a target answers to `n` bytes at offset `o`, before it writes any: FOLDED, EXTENT, COUNTER or OK (R135, R150, R177). -/
def State.targetStatus (s : State) (c : Nat) (h : BulkHdr) (o n : Nat) : Nat :=
  if (s.core c).fenced then 1
  else if (s.reachOf c h).2 < o + n then 2
  else if h.cntEn && !h.abs_ && decide ((s.task c h.slot).tccount ≤ h.cnt) then 3
  else 0

/-- The increment of a transfer at its target (R135, R137, R142). -/
def State.remoteInc (s : State) (c : Nat) (h : BulkHdr) (inc : Nat) : State :=
  if h.cntEn then
    (s.cntAdd c (if h.abs_ then h.cnt else (s.task c h.slot).tcbase + h.cnt) inc).resched c
  else s

/-- The tracker entry of a transfer at a core. -/
def Core.trk (k : Core) (src tag : Nat) : Option TrkEnt := k.tracker.find? (fun e => decide (e.src = src) && decide (e.tag = tag))

/-- A tracker entry is kept, or leaves where every byte has arrived. -/
def State.putTrk (s : State) (c : Nat) (e : TrkEnt) (total : Nat) : State :=
  s.updCore c (fun k =>
    let rest := k.tracker.filter (fun x => !(decide (x.src = e.src) && decide (x.tag = e.tag)))
    { k with tracker := if total ≤ e.got && (e.acked || !e.bad) then rest else rest ++ [e] })

/-- Tracker entries in use: transfers and pulls that carry a counter (R136). -/
def Core.trkUsed (k : Core) : Nat :=
  (k.tracker.filter (fun e => e.cnt)).length + (k.pulls.filter (fun p => decide (p.d.rcntEn = 1))).length

/-- A data packet waits at its target: its region sleeps, or the tracker has no entry for it (R136, R172). -/
def State.deliverWaits (s : State) (c : Nat) (h : BulkHdr) : Bool :=
  let k := s.core c
  s.asleep c || ((k.trk h.srcCode h.tag).isNone && h.cntEn && !k.fenced && decide (64 ≤ k.trkUsed))

/-- A data packet reaches its target core (R135 to R139): checked, written and counted; at the last byte the increment is performed and
the transfer acknowledged by `ack`. It waits where the tracker is full or the region sleeps. -/
def State.deliver (s : State) (c : Nat) (h : BulkHdr) (data : List Byte) (ack : Nat → State → State) : State :=
  let old := (s.core c).trk h.srcCode h.tag
  if s.deliverWaits c h then s
  else
    let e : TrkEnt := old.getD { src := h.srcCode, tag := h.tag, got := 0, cnt := h.cntEn, bad := false, acked := false }
    let e := { e with got := e.got + data.length }
    if e.bad then s.putTrk c e h.addr
    else
      let st := s.targetStatus c h h.toff (s.extentOf h data.length)
      if st ≠ 0 then ack st (s.putTrk c { e with bad := true, acked := true } h.addr)
      else
        match s.spWrite c ((s.reachOf c h).1 + h.toff + h.soff) data with
        | (s, some _) =>
          if h.abs_ then ack 5 (s.putTrk c { e with bad := true, acked := true } h.addr)
          else s.putTrk c { e with bad := true } h.addr
        | (s, none) =>
          let s := (s.perf c 10 data.length).putTrk c e h.addr
          if h.addr ≤ e.got then ack 0 (s.remoteInc c h h.inc) else s

/-- The ACK of a unicast transfer (R167); SCODE DATA_ERROR goes with STORE_ERR (R149). -/
def ackUnicast (c : Nat) (h : BulkHdr) (st : Nat) (s : State) : State := s.answer c h 8 st (if st = 5 then 8 else 0)

/-! ### Firmware (R187, R638) -/

/-- The bytes of a chunk that a die's manager holds. -/
def Node.copied (x : Node) : List Byte := (x.fw.flatMap (fun e => e.2)).take x.fwLen

/-- Is a chunk's copy complete? -/
def Node.hasChunk (x : Node) (chunk : Nat) : Bool := decide (x.fwTag = chunk + 1) && decide (x.copied.length = x.fwLen)

/-- Firmware bytes on VC5 for a die: its manager takes them, the TAG being the chunk's index (R160, R187; DESIGN CHOICE, log entry 94: the spec names no
address of a manager's memory in a bulk packet, so that they go to the die's first core, and no ACK but CHUNK_RESULT answers them). -/
def State.takeFirmware (s : State) (d : Nat) (h : BulkHdr) (data : List Byte) : State :=
  s.updNode d (fun x => { x with fw := Tab.set [] (if x.fwTag = h.tag + 1 then x.fw else []) h.soff data, fwTag := h.tag + 1, fwLen := h.addr })

/-! ### Hubs -/

/-- A packet for the store at hub `k` that another hub serves goes on over the ring; where that hub is out of service the sender gets
an ERROR (R236). -/
def State.forwardStore (s : State) (k a : Nat) (h : BulkHdr) (data : List Byte) : State :=
  let o := stackHub (s.serving a)
  if s.bit (MH_HUB_STAT.INSERVICE o) then
    match s.ringHop (stopAt (hubStop k)) (hubStop o) with
    | .out l w => s.leave l w (h.dst (stopAt (hubStop o))) data
    | _ => s
  else s.answer (stopAt (hubStop k)) h 0xB 5 8

/-- A WRITE at a hub (R140, R235, R238, R262). -/
def State.hubWrite (s : State) (k : Nat) (h : BulkHdr) (data : List Byte) : State :=
  let n := data.length
  if s.inStore h.addr n && decide (0 < n) && decide (h.addr / 4096 = (h.addr + n - 1) / 4096) then
    if stackHub (s.serving h.addr) ≠ k then s.forwardStore k h.addr h data
    else
      match s.heldBy h.addr n with
      | some st => s.hold (.pkt st h data)
      | none =>
        match s.pageWrite h.addr data with
        | (s, some e) => s.answer (stopAt (hubStop k)) h 8 5 e
        | (s, none) => s.answer (stopAt (hubStop k)) h 8 0 0
  else s.answer (stopAt (hubStop k)) h 0xB 5 2

/-! ### Reads -/

/-- Read data leaves a serving core or hub: READ_RSP to one requester, MELD_RSP to more (R181, R182). A list names cores (R182), so a requester at a
ring stop gets a READ_RSP of its own (DEDUCED, log entry 13). -/
def State.readData (s : State) (loc : Nat) (reqs : List Requester) (data : List Byte) : State :=
  let one := fun (q : Requester) (s : State) =>
    s.inject loc ({ hdr0 with type := 5, vc := 3, plen := data.length, tag := q.tag }.dst (codeLoc q.src)) data
  let s := forL (reqs.filter (fun q => decide (65536 ≤ q.src))) one s
  match reqs.filter (fun q => decide (q.src < 65536)) with
  | [] => s
  | [q] => one q s
  | l =>
    let h : BulkHdr := ({ hdr0 with type := 6, vc := 3, dkind := 3, plen := data.length, x0 := l.length }).src loc
    s.emit (.meld loc 14 h (l.map (fun q => ⟨q.src % 256, q.src / 256 % 256, q.tag⟩)) data)

/-- Every requester of an entry gets an ACK with a STATUS. -/
def State.readFail (s : State) (loc : Nat) (reqs : List Requester) (status scode : Nat) : State :=
  forL reqs (fun q s => s.inject loc ({ hdr0 with type := 8, vc := 3, status := status, scode := scode, tag := q.tag }.dst (codeLoc q.src)) []) s

/-- A request joins a queued entry of the same address, length and VC, opens one that is held, or opens one that is served at once
(R181, R240). None where the queue is full. -/
def joinRead (q : List RdEnt) (cap : Nat) (a n vc : Nat) (hold : Bool) (r : Requester) : Option (List RdEnt × Bool × Option RdEnt) :=
  let same := fun (e : RdEnt) => decide (e.addr = a) && decide (e.len = n) && decide (e.vc = vc) && decide (e.reqs.length < 8) && !e.shut && !e.dead
  if q.any same then some (updFirst same (fun e => { e with reqs := e.reqs ++ [r] }) q, true, none)
  else if cap ≤ q.length then none
  else
    let e : RdEnt := { addr := a, len := n, vc := vc, hold := hold, dead := false, shut := false, reqs := [r] }
    if hold then some (q ++ [e], false, none) else some (q, false, some e)

/-- A core serves a read-queue entry (R181); one that meets an uncorrectable error answers an outside reader at once, and a core once this one
is fenced (R132). -/
def State.serveCore (s : State) (c : Nat) (e : RdEnt) : State :=
  match s.spRead c e.addr e.len with
  | (s, .ok l) => s.readData c e.reqs l
  | (s, .error _) =>
    let s := s.readFail c (e.reqs.filter (fun q => decide (65536 ≤ q.src))) 5 8
    let inside := e.reqs.filter (fun q => decide (q.src < 65536))
    if inside.isEmpty then s else s.updRouter c (fun x => { x with readQ := x.readQ ++ [{ e with dead := true, reqs := inside }] })

/-- A READ_REQ at a serving core (R135, R150, R181). -/
def State.coreReadReq (s : State) (c : Nat) (h : BulkHdr) : State :=
    let o := if h.abs_ then h.addr else h.toff
    let st := s.targetStatus c h o h.plen
    if st ≠ 0 then s.answer c h 8 st 0
    else
      match joinRead (s.router c).readQ 16 ((s.reachOf c h).1 + o) h.plen h.vc h.hold ⟨h.srcCode, h.tag⟩ with
      | none => s
      | some (q, _, e) =>
        let s := s.updRouter c (fun x => { x with readQ := q })
        match e with
        | some e => s.serveCore c e
        | none => s

/-- A hub serves a read-queue entry (R240, R262). -/
def State.serveHub (s : State) (k : Nat) (e : RdEnt) : State :=
  match s.pageRead e.addr e.len with
  | (s, .ok l) => s.readData (stopAt (hubStop k)) e.reqs l
  | (s, .error c) => s.readFail (stopAt (hubStop k)) e.reqs 5 c

/-- A READ_REQ at a hub (R235, R240, R257, R262). -/
def State.hubReadReq (s : State) (k : Nat) (h : BulkHdr) : State :=
  let n := h.plen
  if s.inStore h.addr n && decide (0 < n) && decide (h.addr / 4096 = (h.addr + n - 1) / 4096) then
    if stackHub (s.serving h.addr) ≠ k then s.forwardStore k h.addr h []
    else
      match s.heldBy h.addr n with
      | some st => s.hold (.pkt st h [])
      | none =>
        match joinRead (Tab.get [] s.store.readQ k) 256 h.addr n h.vc h.hold ⟨h.srcCode, h.tag⟩ with
        | none => s
        | some (q, joined, e) =>
          let s := { s with store := { s.store with readQ := Tab.set [] s.store.readQ k q } }
          let s := if joined then s.sat (MH_MELD_CNT.COUNT k) 1 else s
          match e with
          | some e => s.serveHub k e
          | none => s
  else s.answer (stopAt (hubStop k)) h 0xB 5 2

/-- Does a WRITE wait for the write-merge pool of the hub that it is for (R241)? -/
def State.writeWaits (s : State) (l : Nat) (h : BulkHdr) (n : Nat) : Bool :=
  match stopHub (l - 36864) with
  | some k => decide (36864 ≤ l) && decide (stackHub (s.serving h.addr) = k) && (s.heldBy h.addr n).isSome && s.poolFull k 2
  | none => false

/-- Does a READ_REQ wait at its destination: a sleeping region (R172), or a full read queue that it cannot join (R181, R240)? -/
def State.readWaits (s : State) (l : Nat) (h : BulkHdr) : Bool :=
  if l < 36864 then
    let o := if h.abs_ then h.addr else h.toff
    s.asleep l || (decide (s.targetStatus l h o h.plen = 0) &&
      (joinRead (s.router l).readQ 16 ((s.reachOf l h).1 + o) h.plen h.vc h.hold ⟨h.srcCode, h.tag⟩).isNone)
  else
    match stopHub (l - 36864) with
    | some k => decide (stackHub (s.serving h.addr) = k) && (s.heldBy h.addr h.plen).isNone &&
        (joinRead (Tab.get [] s.store.readQ k) 256 h.addr h.plen h.vc h.hold ⟨h.srcCode, h.tag⟩).isNone
    | none => false

/-- A request that a hub held is served again (R257). -/
def State.unhold (s : State) (k : Nat) (h : BulkHdr) (data : List Byte) : State :=
  if h.type = 4 then s.hubReadReq k h else s.hubWrite k h data

/-! ### Progress of a core's own streams and pulls -/

/-- A transfer of a stream ends well: the stream is complete with its last one (R37, R176, R209). -/
def State.xferDone (s : State) (c : Nat) (x : Stream) (tag : Nat) : State :=
  let y := { x with xfers := x.xfers.filter (fun f => decide (f.tag ≠ tag)) }
  let s := s.updStream c x.id (fun _ => y)
  if y.xfers.isEmpty && y.sent then ((s.endStream c y).startStreams c).resched c else s

/-- A transfer of a stream fails (R68). -/
def State.xferFail (s : State) (c : Nat) (x : Stream) (status scode : Nat) : State :=
  ((s.failStream c x (statusTrap status scode x.eng)).startStreams c).resched c

/-- The pull of a core that awaits a TAG. -/
def Core.pullOf (k : Core) (tag : Nat) : Option PullEnt := k.pulls.find? (fun p => p.reads.any (fun f => decide (f.tag = tag)))

/-- A pull goes through `f`, or leaves where `f` gives none. -/
def State.setPull (s : State) (c : Nat) (p : PullEnt) (q : Option PullEnt) : State :=
  s.updCore c (fun k => { k with pulls := match q with
    | some q => updFirst (fun x => decide (x = p)) (fun _ => q) k.pulls
    | none => removeFirst (fun x => decide (x = p)) k.pulls })

/-- The increment header of a pull (R180). -/
def PullEnt.hdr (p : PullEnt) : BulkHdr :=
  { p.h with slot := p.d.slot, cnt := p.d.rcnt, cntEn := decide (p.d.rcntEn = 1), inc := p.d.rinc, abs_ := false }

/-- A pull ends: its increment and its ACK (R180), or its failure. -/
def State.endPull (s : State) (c : Nat) (p : PullEnt) (status scode : Nat) : State :=
  let s := s.setPull c p none
  let s := if status = 0 then s.remoteInc c p.hdr p.d.rinc else s
  s.answer c p.h 8 status scode

/-- Read data reaches a requester (R165, R180): it is written, and the transfer ends. -/
def State.gotData (s : State) (c tag : Nat) (data : List Byte) : State :=
  let k := s.core c
  let place := fun (l : List Xfer) => (l.find? (fun f => decide (f.tag = tag))).bind (fun f => match f with
    | .read _ _ a _ => some a
    | _ => none)
  match k.streamOf tag with
  | some x =>
    match place x.xfers with
    | some a =>
      match s.spWrite c a data with
      | (s, some b) => ((s.failStream c x ⟨4, b, 0, none⟩).startStreams c).resched c
      | (s, none) => (s.perf c 10 data.length).xferDone c x tag
    | none => s
  | none =>
    match k.pullOf tag with
    | some p =>
      match place p.reads with
      | some a =>
        match s.spWrite c a data with
        | (s, some _) => s.setPull c p (some { p with reads := p.reads })
        | (s, none) =>
          let q := { p with reads := p.reads.filter (fun f => decide (f.tag ≠ tag)) }
          let s := (s.perf c 10 data.length).setPull c p (some q)
          if q.reads.isEmpty then s.endPull c q 0 0 else s
      | none => s
    | none => s

/-- An ACK or ERROR reaches the core that awaits its TAG (R166, R167). -/
def State.gotAck (s : State) (c tag status scode : Nat) : State :=
  let k := s.core c
  match k.streamOf tag with
  | some x => if status = 0 then s.xferDone c x tag else s.xferFail c x status scode
  | none =>
    match k.pullOf tag with
    | some p => if status = 0 then s else s.endPull c p status scode
    | none => s

end Sys2Proof.Machine
end

