-- ==== Sys2Proof/Machine/Control.lean ====
section
/-! DEFINITION. The control network (R183 to R189): task messages, their acknowledgements, and broadcasts. -/

namespace Sys2Proof

/-- The core that a control packet is for. -/
def CtlHdr.core (h : CtlHdr) : Nat := h.dnode * 256 + h.dlocal % 256

end Sys2Proof

namespace Sys2Proof.Machine

/-- Is a control packet for a core whose region sleeps, so that it waits (R172)? -/
def coreSleeps (h : CtlHdr) (s : State) : Bool := isDie h.dnode && decide (h.dlocal < 256) && s.asleep h.core

/-- Does a task message wait for its core: asleep, in a block that is to be reset (R530), or with no tracker entry left (R136)? -/
def msgWaits (h : CtlHdr) (s : State) : Bool :=
  isDie h.dnode && decide (h.dlocal < 256) && (s.asleep h.core || s.idling h.core || (!(s.core h.core).fenced && decide (64 ≤ (s.core h.core).trkUsed)))

/-- A task message at its core (R184, R135, R137): its 8 bytes are written and its counter goes up by 1, or it is answered with why not. -/
def takeMsg (lo hi : W32) (slot cidx off : Nat) (h : CtlHdr) (s : State) : Res :=
  let c := h.core
  if !isDie h.dnode || decide (256 ≤ h.dlocal) then .next s
  else
    let b := { hdr0 with slot := slot % 4, cnt := cidx % 64, cntEn := true, inc := 1 }
    let ack := fun (s : State) (st : Nat) => s.ctlOut (ctlHdr 1 h.vc h.snode h.slocal h.dnode h.dlocal 1 h.msgid) [st]
    let st := s.targetStatus c b (8 * off) 8
    if st ≠ 0 then .next (ack s st)
    else
      match s.spWrite c ((s.reachOf c b).1 + 8 * off) (leBytes 8 (lo.toNat + hi.toNat * 2 ^ 32)) with
      | (s, some _) => .next s
      | (s, none) => .next (ack ((s.perf c 10 8).remoteInc c b 1) 0)

/-- A task message arrives (R184). It waits while the region sleeps or the tracker is full. -/
def execCtlMsg (h : CtlHdr) (lo hi : W32) (slot cidx off : Nat) (s : State) : Res := atCtl h msgWaits (takeMsg lo hi slot cidx off) s

/-- A message acknowledgement at its sender (R184): the message is complete, or fails (R70, R166). -/
def takeMsgAck (status : Nat) (h : CtlHdr) (s : State) : Res :=
  let c := h.core
  if !isDie h.dnode || decide (256 ≤ h.dlocal) then .next s
  else
    match (s.core c).msgs.find? (fun m => decide (m.msgid = h.msgid)) with
    | none => .next s
    | some m =>
      let s := s.updCore c (fun k => { k with msgs := removeFirst (fun x => decide (x.msgid = h.msgid)) k.msgs })
      .next ((if status = 0 then s else s.postAsync c m.slot m.pc (statusTrap status 0 4)).resched c)

/-- A message acknowledgement arrives (R184). -/
def execMsgAck (h : CtlHdr) (status : Nat) (s : State) : Res := atCtl h coreSleeps (takeMsgAck status) s

end Sys2Proof.Machine
end

