-- ==== Sys2Proof/Machine/Tables.lean ====
section
/-! DEFINITION. The fault tables that the steward writes (R168, R171, R25): the moves between dies that the rules permit towards each destination. -/

namespace Sys2Proof.Machine

/-- The dies and links that tables are made for: the panel as it is, and dies that are about to become holes (R172). -/
structure Fabric where
  /-- By 16 × die + way: the die that a move leads to, + 1. -/
  moves : Tab Nat
  /-- By ring stop: the die that its packets leave the mesh from, + 1, and the entry there. -/
  exits : Tab (Nat × Nat)
  /-- No die hole, no region hole and no seam down. -/
  whole : Bool

/-- May packets move from die `d` by way `w` to another die, with the dies of `away` avoided? -/
def State.moveTo (s : State) (away : Nat → Bool) (d w : Nat) : Option Nat :=
  match wayNode d w with
  | some n => if isDie n && !away n && !away d && s.wayOk d w then some n else none
  | none => none

/-- Where a stop's own packets leave the mesh, and by which entry: its edge link, its corner link, or over a hole by a skip path (R23, R168). -/
def State.stopExit (s : State) (away : Nat → Bool) (st : Nat) : Option (Nat × Nat) :=
  let l := (s.entryDies (144 + st)).filter (fun e => !away e.1)
  ((l.find? (fun e => decide (e.2 < 4) || decide (e.2 = 8))).or (l.find? (fun _ => true))).map (fun e => (e.1, if e.2 = 8 then 0x0F else 2 ^ e.2))

/-- Where packets for a stop leave the mesh (R25): at its own exit, else at that of the nearest hub or engine as it is one itself, and on by the ring. -/
def State.exitFor (s : State) (away : Nat → Bool) (st : Nat) : Option (Nat × Nat) :=
  match s.stopExit away st with
  | some e => some e
  | none =>
    let fits := fun (q : Nat) => if (sameSide st q || (decide (st % 13 = 0) && decide (q % 13 ≠ 0))) && s.perimIn (144 + q) then s.stopExit away q else none
    (List.range 26).findSome? (fun i => [(st + i + 1) % 52, (st + 51 - i) % 52].findSome? fits)

/-- Are all seams inside the panel native or compat? -/
def State.seamsUp (s : State) : Bool :=
  (List.range 144).all (fun d => (List.range 4).all (fun w => match wayNode d w with
    | some n => !isDie n || (decide (s.seam d w ≤ 1) && !((s.node d).stopped.contains w))
    | none => true))

/-- The fabric as it stands. -/
def State.fabric (s : State) (away : Nat → Bool) : Fabric :=
  { moves := (List.range 144).flatMap (fun d => (List.range 8).filterMap (fun w => (s.moveTo away d w).map (fun n => (16 * d + w, n + 1))))
    exits := (List.range 52).filterMap (fun st => (s.exitFor away st).map (fun e => (st, (e.1 + 1, e.2))))
    whole := (List.range 144).all (fun d => !away d && !s.dieAbsent d) && s.seamsUp }

/-- The die that a move leads to. -/
def Fabric.to (f : Fabric) (d w : Nat) : Option Nat :=
  match Tab.get 0 f.moves (16 * d + w) with
  | 0 => none
  | n + 1 => some n

/-- The ways of the positive moves E, N, SKIP_E and SKIP_N, and of the negative ones, with their lengths: a skip passes two dies. -/
def posWays : List (Nat × Nat) := [(0, 1), (1, 1), (4, 2), (5, 2)]
def negWays : List (Nat × Nat) := [(2, 1), (3, 1), (6, 2), (7, 2)]

/-- The least of the distances that moves of some ways lead on to, by a table of distances + 1. -/
def Fabric.least (f : Fabric) (ways : List (Nat × Nat)) (t : Tab Nat) (d : Nat) : Nat :=
  ways.foldl (fun m w => match f.to d w.1 with
    | some n =>
      let x := Tab.get 0 t n
      if x = 0 then m else if m = 0 ∨ x + w.2 < m then x + w.2 else m
    | none => m) 0

/-- Distances + 1 to a die by positive moves alone: from the higher dies to the lower, since every such move raises the number of the die. -/
def Fabric.onlyPos (f : Fabric) (dst : Nat) : Tab Nat :=
  (List.range 144).reverse.foldl (fun t d => Tab.set 0 t d (if d = dst then 1 else f.least posWays t d)) []

/-- Distances + 1 to a die under the negative-first turn model (R171): negative moves, and then positive ones. -/
def Fabric.negFirst (f : Fabric) (pos : Tab Nat) : Tab Nat :=
  (List.range 144).foldl (fun t d =>
    let p := Tab.get 0 pos d
    Tab.set 0 t d (if p ≠ 0 then p else f.least negWays t d)) []

/-- The bits of the moves that lie on a shortest path. -/
def Fabric.bits (f : Fabric) (ways : List (Nat × Nat)) (t : Tab Nat) (d len : Nat) : Nat :=
  ways.foldl (fun b w => match f.to d w.1 with
    | some n => if Tab.get 0 t n ≠ 0 ∧ Tab.get 0 t n + w.2 = len then b + 2 ^ w.1 else b
    | none => b) 0

/-- The moves that R171 permits from each die towards a die: one, in order of dimension, where the panel is whole; else all that lie on a shortest path of
the negative-first model. A destination that no path reaches has none (0). -/
def Fabric.towards (f : Fabric) (dst : Nat) : Tab Nat :=
  if f.whole then
    (List.range 144).filterMap (fun d =>
      if d = dst then none
      else if dieX d < dieX dst then some (d, 1) else if dieX dst < dieX d then some (d, 4) else if dieY d < dieY dst then some (d, 2) else some (d, 8))
  else
    let pos := f.onlyPos dst
    let all := f.negFirst pos
    (List.range 144).filterMap (fun d =>
      let b := if d = dst then 0
        else if Tab.get 0 pos d ≠ 0 then f.bits posWays pos d (Tab.get 0 pos d)
        else if Tab.get 0 all d ≠ 0 then f.bits negWays all d (Tab.get 0 all d) else 0
      if b = 0 then none else some (d, b))

/-- The permitted moves towards the 196 destinations of a table (R168), by destination and die. A packet for a ring stop goes to the die that it leaves the mesh
from; leaving is no move between dies (DEDUCED, log entry 91). -/
def Fabric.permits (f : Fabric) : List (Tab Nat) :=
  let t := (List.range 144).map f.towards
  t ++ (List.range 52).map (fun st => match Tab.get (0, 0) f.exits st with
    | (0, _) => []
    | (o + 1, e) => Tab.set 0 (t.getD o []) o e)

/-- The entry that the steward writes where `allowed` is permitted: the bits of `asked` among them, and all of them where it asks for none. -/
def chosen (allowed asked : Nat) : Nat :=
  if allowed = 0x0F then allowed
  else
    let b := Nat.land allowed asked
    if b = 0 then allowed else b

/-- The tables of the dies in service, with what each asks for: (die, 196 entries). -/
def State.makeTables (s : State) (away : Nat → Bool) (asked : List (Nat × List Byte)) : List (Nat × List Nat) :=
  let p := (s.fabric away).permits
  ((List.range 144).filter (fun d => !s.dieAbsent d)).map (fun d =>
    let want := ((asked.find? (fun t => decide (t.1 = d))).map (fun t => t.2)).getD []
    (d, p.zipIdx.map (fun t => chosen (Tab.get 0 t.1 d) (want.getD t.2 0).toNat)))

/-- Two tables in key order merged: an entry of the first wins. -/
def Tab.merge {α : Type} : Nat → Tab α → Tab α → Tab α
  | 0, a, _ => a
  | _ + 1, [], b => b
  | _ + 1, a, [] => a
  | n + 1, (k, v) :: a, (k', v') :: b =>
    if k < k' then (k, v) :: Tab.merge n a ((k', v') :: b)
    else if k = k' then (k, v) :: Tab.merge n a b
    else (k', v') :: Tab.merge n ((k, v) :: a) b

end Sys2Proof.Machine
end

