-- ==== Sys2Proof/Machine/Sync.lean ====
section
/-! DEFINITION. The sync network (R190 to R193): barriers (R193, R213), GO (R32), CLAMP and FLIP broadcasts, frame errors, and the change of routing
tables (R173). -/

namespace Sys2Proof.Machine

/-- A broadcast frame at a node (R192): a repeat is discarded; otherwise it goes to every neighbour in service but its sender, and is
delivered by `f`. -/
def State.flood (s : State) (node sender type seq arg : Nat) (data : List Nat) (f : State → State) : State :=
  if Tab.get 0 (s.node node).seq type = seq + 1 then s
  else
    let s := s.updNode node (fun x => { x with seq := Tab.set 0 x.seq type (seq + 1) })
    f (forL ((s.nbrs node).filter (fun n => decide (n ≠ sender))) (fun n s => s.syncSend node n type seq arg data) s)

/-- A broadcast of the active steward: it starts at its own sync node with the next SEQ of its type (R192). -/
def State.broadcast (s : State) (type arg : Nat) (data : List Nat) : State :=
  let q := Tab.get 0 s.net.bseq type
  let s := s.updNet (fun n => { n with bseq := Tab.set 0 n.bseq type ((q + 1) % 16) })
  let n := s.stewardNode
  s.flood n n type q arg data (fun s => s)

/-- An ARRIVE frame at a sync node (R193, R216). -/
def execSyncArriveFrame (node ch phase : Nat) (s : State) : Res := .next (s.syncCount node (ch % 8) (phase % 2))

/-- A RELEASE frame at a die's sync node (R193, R213): the phase toggles, the release goes to the children and to the participating cores of
the die, whose waiting tasks go on. A release of another phase has been taken already. -/
def execSyncReleaseFrame (node ch phase : Nat) (s : State) : Res :=
  let b := ch % 8
  if !isDie node || decide (bitsOf (s.rd (CD_SYNC_PHASE.PHASE node)) b 1 ≠ phase % 2) then .next s
  else
    let s := s.wrBit (CD_SYNC_PHASE.PHASE node) b (decide (phase % 2 = 0))
    let kids := (List.range 9).filter (fun i => bitOf (s.rd (CD_SYNC_TREE.CHILD node)) i)
    let s := forL kids (fun i s => match wayNode node i with
      | some n => s.syncSend node n 2 0 (b + phase % 2 * 8) []
      | none => s) s
    let cores := if b = 7 then [] else ((List.range 256).map (fun n => node * 256 + n)).filter (fun c =>
      !((s.core c).inBarrier b).isEmpty && decide (bitsOf (s.core c).phase b 1 = phase % 2))
    .next (forL cores (fun c s => (s.releaseCore c b).resched c) s)

/-- A loaded slot at a layer start (R32): READY at its entry, registers and flags zero, SEED from the plan. -/
def Task.start (t : Task) : Task :=
  { t with
    st := .ready
    g := []
    a := []
    m := []
    v := []
    pc := t.entry
    lastPc := t.entry
    badFetch := none
    loop := none
    fflags := 0
    seedLo := t.seed0.setWidth 32
    seedHi := (t.seed0 >>> 32).setWidth 32
    srN := 0
    wait := none
    arrived := 0
    since := 0
    trap := none }

/-- A core at a layer start: every loaded slot of that layer leaves EMPTY (R32); ZMASK and its masks are 0 (R88). -/
def State.startCore (s : State) (c layer : Nat) : State :=
  let k := s.core c
  let go := fun (t : Task) => t.loaded && decide (t.st = .empty) && decide (t.layer = BitVec.ofNat 32 layer)
  if k.tasks.any (fun e => go e.2) && !k.fenced then
    let k := { k with tasks := k.tasks.map (fun e => (e.1, if go e.2 then e.2.start else e.2)), z := [], zen := false }
    (s.setCore c k).resched c
  else s

/-- GO at a node (R32, R192). -/
def execSyncGo (node sender seq layer : Nat) (s : State) : Res :=
  .next (s.flood node sender 3 seq 0 [layer % 2 ^ 32] (fun s =>
    if isDie node then forN 256 (fun n s => s.startCore (node * 256 + n) layer) s else s))

/-- A clamp level takes hold at a die: its region is gated, or released (R190). -/
def State.clampDie (s : State) (d level : Nat) : State :=
  let s := if level = 0 || s.clk.gated.contains (regionOf d) then s else { s with clk := { s.clk with gated := s.clk.gated ++ [regionOf d] } }
  (s.wr (RGN_PWR_STAT.CLAMPED (regionOf d)) (b2n (decide (level ≠ 0)))).updNet (fun n => { n with clamp := level })

/-- CLAMP at a node (R190, R192). -/
def execClamp (node sender seq level : Nat) (s : State) : Res :=
  .next (s.flood node sender 4 seq (level % 4) [] (fun s => if isDie node then s.clampDie node (level % 4) else s))

/-- The version of a die's inactive bank, and of its active one (R173, R199). -/
def State.inactiveVer (s : State) (d : Nat) : Nat := if s.rd (CD_RT_CTL.ACTIVE d) = 0 then s.rd (CD_RT_VER.VER1 d) else s.rd (CD_RT_VER.VER0 d)
def State.activeVer (s : State) (d : Nat) : Nat := if s.rd (CD_RT_CTL.ACTIVE d) = 0 then s.rd (CD_RT_VER.VER0 d) else s.rd (CD_RT_VER.VER1 d)

/-- The key of the first field of a die's inactive fault-table bank. -/
def State.idleBank (s : State) (d : Nat) : Nat := if s.rd (CD_RT_CTL.ACTIVE d) = 0 then (CD_RT_FT1.E0 d 0).key else (CD_RT_FT0.E0 d 0).key

/-- The compute dies in service. -/
def State.diesIn (s : State) : List Nat := (List.range 144).filter (fun d => !s.dieAbsent d)

/-- Under new tables a packet that waits in a die for a link which carries nothing takes the way that they give it, where they give one (R171, R427). -/
def State.rerouteWaiting (s : State) : State :=
  let l := s.net.ports.filter (fun e => decide (e.1 / 16 < 36864) && decide (e.1 % 16 < 9) && !e.2.queue.isEmpty && !s.portUp e.1)
  forL l (fun (e : Nat × Port BulkPkt) (s : State) =>
    let loc := e.1 / 16
    let s := s.setBport e.1 { s.bport e.1 with queue := [] }
    forL e.2.queue (fun (q : BulkPkt) (s : State) =>
      match s.routeTo loc [] q.h.dest (laneOf q.h), decide (q.h.dkind ≤ 1) with
      | .out l w, true => s.leaveBy l w q
      | _, _ => s.leaveBy loc (e.1 % 16) q) s) s

/-- Traffic resumes once FLIP is out and every die in service reports the new version active; the detours that the ring has held go (R173). -/
def State.resumeTraffic (s : State) : State :=
  match s.net.chg with
  | some g =>
    if g.flipped && s.diesIn.all (fun d => decide (s.activeVer d = g.ver)) then
      forL s.net.ringWait (fun e s => s.ringOn e.1 e.2) ((s.updNet (fun n => { n with chg := none, ringWait := [] })).rerouteWaiting)
    else s
  | none => s

/-- FLIP at a die (R173, R200): the banks switch where the switch is armed and the version is that of the inactive bank. -/
def execSyncFlip (node sender seq ver : Nat) (s : State) : Res :=
  .next (s.flood node sender 7 seq (ver % 2 ^ 16 * 16) [] (fun s =>
    if isDie node && s.bit (CD_RT_CTL.PEND node) && decide (s.inactiveVer node = ver % 2 ^ 16) then
      ((s.wr (CD_RT_CTL.ACTIVE node) (1 - s.rd (CD_RT_CTL.ACTIVE node))).wr (CD_RT_CTL.PEND node) 0).resumeTraffic
    else s))

/-- A frame with a CRC error is discarded with the rest of its message (R190): nothing is delivered, and the link sends the message again from its replay
store: the newest one there of the type. -/
def execSyncFrameCrcError (node sender type : Nat) (s : State) : Res :=
  match (s.syncLink sender node).store.find? (fun m => decide (m.type = type)) with
  | some m => .next (s.emit (.sync sender node m.type m.seq m.arg m.data))
  | none => .next s

/-- A layer is released and not stopped somewhere (R173: tables change only at a layer boundary, or while the layer is stopped). -/
def State.layerGoing (s : State) : Bool :=
  (List.range 16).any (fun p => match (s.part p).run with
    | some l => l.going
    | none => false)

/-- The fault-table bytes of the inactive banks of dies, as register cells: byte i of a die's table is field i mod 4 of word i / 4 (R168, R199). -/
def State.tableCells (s : State) (l : List (Nat × List Nat)) : Tab Nat :=
  l.flatMap (fun t => t.2.zipIdx.filterMap (fun v => if v.1 = 0 then none else some (s.idleBank t.1 + 8 * v.2, v.1)))

/-- Tables into the inactive banks of their dies (R173). -/
def State.putTables (s : State) (l : List (Nat × List Nat)) : State :=
  let mine := fun (k : Nat) => l.any (fun t => inRange k (s.idleBank t.1) 1568)
  let new := s.tableCells l
  { s with regs := Tab.merge (new.length + s.regs.length) new (s.regs.filter (fun e => !mine e.1)) }

/-- The steward writes new tables into the inactive bank of every die in service with a new version, arms the switch, and holds traffic (R173). They permit
what R171 does, with the dies of `away` avoided (R172); of that, what `tabs` asks for. -/
def State.changeTables (s : State) (away : Nat → Bool) (tabs : List (Nat × List Byte)) : State :=
  let v := s.net.nextVer % 2 ^ 16
  let s := s.putTables (s.makeTables away tabs)
  let s := forL s.diesIn (fun d s =>
    (if s.rd (CD_RT_CTL.ACTIVE d) = 0 then s.wr (CD_RT_VER.VER1 d) v else s.wr (CD_RT_VER.VER0 d) v).wr (CD_RT_CTL.PEND d) 1) s
  s.updNet (fun n => { n with chg := some { ver := v, flipped := false }, nextVer := (v + 1) % 2 ^ 16 })

/-- No die is avoided. -/
def noDie (_ : Nat) : Bool := false

/-- Do the active tables lead round a region: no entry of a die outside it permits a move into it (R172)? -/
def State.routesAround (s : State) (r : Nat) : Bool :=
  s.diesIn.all (fun d => decide (regionOf d = r) || (List.range 8).all (fun w => match wayNode d w with
    | some n => !isDie n || decide (regionOf n ≠ r) || (List.range 196).all (fun e => !bitOf (s.ftEntry d e) w || decide (s.ftEntry d e = 0x0F))
    | none => true))

/-- Start-up brings every die in service to its first tables (R532 step 11, R171, R173), before any traffic. -/
def State.firstTables (s : State) : State :=
  let v := s.net.nextVer % 2 ^ 16
  let s := s.changeTables noDie []
  let s := forL s.diesIn (fun d s => (s.wr (CD_RT_CTL.ACTIVE d) (1 - s.rd (CD_RT_CTL.ACTIVE d))).wr (CD_RT_CTL.PEND d) 0) s
  s.updNet (fun n => { n with chg := none, nextVer := (v + 1) % 2 ^ 16 })

/-- A table change, at a layer boundary or while the layer is stopped (R173). A change restarted after a failover takes a fresh version (R200). -/
def execTableChange (tabs : List (Nat × List Byte)) (s : State) : Res :=
  if s.layerGoing || s.bit GLB_STW_STAT.LOST_BOTH then .next s else .next (s.changeTables noDie tabs)

/-- Every die reports empty buffers, its lane entries among them (R173, R222): the steward sends FLIP, and traffic resumes once every die has
switched. While a link falls back the change waits (R443). -/
def execTableBuffersDrained (s : State) : Res :=
  match s.net.chg with
  | none => .next s
  | some g =>
    if g.flipped then .next s.resumeTraffic
    else if s.routers.any (fun r => !r.2.lanes.isEmpty) || s.links.falling.any (fun e => decide (e.2 ≠ 0)) then .next s
    else .next ((s.updNet (fun n => { n with chg := some { g with flipped := true } })).broadcast 7 (g.ver * 16) [])

/-- Writing CD_RT_CTL.FLIP arms a bank switch (R173, R199). -/
def execRtFlipArm (d : Nat) (s : State) : Res := .next (if s.dieAbsent d then s else s.wr (CD_RT_CTL.PEND d) 1)

end Sys2Proof.Machine
end

