-- ==== Sys2Proof/Machine/Rights.lean ====
section
/-! DEFINITION. Who may write a register (R8, R314, R597, R648, and the chapters' own rules): firmware through local set-up space, a function
through BAR0. -/

namespace Sys2Proof.Machine

/-- Is a function a physical function (R310)? -/
def isPf (f : Nat) : Bool := decide (f = 0) || decide (f = 8)

/-- May firmware, or a PF where the chapter lets it, write a register that firmware alone writes (R648)? -/
def fwOnly (src : Src) : Bool := decide (src = .fw)

/-- May the source write a block's RW, RWL, W1C and WO fields under R648: firmware, or a PF? -/
def pfOrFw (src : Src) : Bool :=
  match src with
  | .fw => true
  | .fn f => isPf f

/-- The function that owns optical port `n` (R263, JX_PORT_OWNn). -/
def State.portOwner (s : State) (n : Nat) : Nat := if s.bit (JX_PORT_OWN.PF n) then 8 else 0

/-- May the source write the registers of a port's reception area (R263)? -/
def State.ownsPort (s : State) (src : Src) (n : Nat) : Bool :=
  match src with
  | .fw => true
  | .fn f => decide (f = s.portOwner n)

end Sys2Proof.Machine
end

