-- ==== Sys2Proof/Machine/Checks.lean ====
section
/-! DEFINITION. The check units' commands (R639 to R641), and protected management messages (R632 to R635). -/

namespace Sys2Proof.Machine

/-! ### Check units -/

/-- The effective WIDTH of a unit. -/
def State.ckuW (s : State) (u : Nat) : Nat := if s.rd (CKU_CFG.WIDTH u) = 0 then 64 else s.rd (CKU_CFG.WIDTH u)

/-- START (R630, R640): RUN takes INIT; LAST_N is kept for the next CKU_DATA write. Firmware alone writes a unit's registers (R639), not while it is BUSY (R641). -/
def execCkuStart (src : Src) (u : Nat) (v : W32) (s : State) : Res :=
  if !fwOnly src || decide (20 ≤ u) || s.bit (CKU_STAT.BUSY u) then .next s
  else
    let s := s.wr (CKU_CTL.LAST_N u) (bitsOf v.toNat 1 3)
    if bitsOf v.toNat 0 1 = 1 then .next (s.wr (CKU_RUN.RUN u) (s.rd (CKU_INIT.VALUE u) % 2 ^ s.ckuW u)) else .next s

/-- A write of CKU_DATA (R630, R640): LAST_N bytes, or 8, are fed, lowest address first; LAST_N returns to 0 and RESULT is renewed. -/
def execCkuDataWrite (src : Src) (u : Nat) (v : M64) (s : State) : Res :=
  if !fwOnly src || decide (20 ≤ u) || s.bit (CKU_STAT.BUSY u) then .next s
  else
    let n := if s.rd (CKU_CTL.LAST_N u) = 0 then 8 else s.rd (CKU_CTL.LAST_N u)
    let w := s.ckuW u
    let run := crcRun w (s.rd (CKU_POLY.VALUE u)) (s.bit (CKU_CFG.REFIN u)) (s.rd (CKU_RUN.RUN u) % 2 ^ w) (leBytes n v.toNat)
    let s := (s.wr (CKU_RUN.RUN u) run).wr (CKU_CTL.LAST_N u) 0
    .next (s.wr (CKU_RESULT.RESULT u) (crcResult w (s.bit (CKU_CFG.REFOUT u)) (s.rd (CKU_XOROUT.VALUE u)) run))

/-- CLR (R640): the three counts and their SAT bits. -/
def execCkuClr (src : Src) (u : Nat) (v : W32) (s : State) : Res :=
  if !fwOnly src || decide (20 ≤ u) || decide (bitsOf v.toNat 4 1 = 0) then .next s
  else
    let s := ((s.wr (CKU_BAD.COUNT u) 0).wr (CKU_REPEAT.COUNT u) 0).wr (CKU_SKIP.COUNT u) 0
    .next (((s.wr (CKU_STAT.BAD_SAT u) 0).wr (CKU_STAT.REP_SAT u) 0).wr (CKU_STAT.SKIP_SAT u) 0)

/-! ### Protected messages -/

/-- The header flit of a control packet (R183). -/
def ctlFlit (h : CtlHdr) : Nat :=
  h.type % 16 + h.vc % 8 * 2 ^ 4 + b2n h.bcast * 2 ^ 7 + h.dnode % 256 * 2 ^ 8 + h.dlocal % 512 * 2 ^ 16 + h.snode % 256 * 2 ^ 32 +
    h.slocal % 512 * 2 ^ 40 + h.len % 8 * 2 ^ 49 + h.msgid % 256 * 2 ^ 56

/-- The CRC of the check flit (R632): header, payload and the flit's low 32 bits. -/
def checkCrc (h : CtlHdr) (flits : List Nat) (alive : Nat) : Nat :=
  crc32c ((ctlFlit h :: flits).flatMap (leBytes 8) ++ leBytes 4 alive)

/-- The check unit of a node's agent: a steward's, or that of the region whose manager the die is (R628, R632). -/
def unitOf (node : Nat) : Nat := if node = 157 then 18 else if node = 183 then 19 else regionOf node

/-- A peer as CKU_ALIVE numbers it (R639). -/
def peerOf (node : Nat) : Nat := if node = 157 ∨ node = 183 then 16 else regionOf node

/-- Does a node run a check unit for protected messages: a steward, or the manager's die of a region in service (R629)? -/
def State.hasUnit (s : State) (node : Nat) : Bool :=
  decide (node = 157) || decide (node = 183) || (isDie node && !s.dieAbsent node && decide (s.managerDie (regionOf node) = node))

/-- The modulus of a unit's alive values (R633). -/
def State.aliveMod (s : State) (u : Nat) : Nat := if s.bit (CKU_CFG.ALIVE8 u) then 256 else 16

/-- A message of type MGMT with its check flit (R187, R632), on VC5 as firmware's management messages are (R160). -/
def State.sendMgmt (s : State) (snode slocal dnode dlocal : Nat) (flits : List Nat) (alive : Nat) : State :=
  let (m, s) := s.takeMsgid snode
  let h := ctlHdr 2 5 dnode dlocal snode slocal (flits.length + 1) m
  s.ctlOut h (flits ++ [alive + checkCrc h flits alive * 2 ^ 32])

/-- A protected message: it takes the next alive value of its pair, and is kept until it is acknowledged (R633). -/
def State.sendProt (s : State) (snode slocal dnode dlocal mtype : Nat) (flits : List Nat) : State :=
  let u := unitOf snode
  let k := 32 * u + peerOf dnode
  let a := Tab.get 0 s.mgmt.alive k % s.aliveMod u
  let p : Prot := { snode := snode, slocal := slocal, dnode := dnode, dlocal := dlocal, mtype := mtype, flits := flits, alive := a, tries := 0 }
  let s := { s with mgmt := { s.mgmt with alive := Tab.set 0 s.mgmt.alive k ((a + 1) % s.aliveMod u), sent := s.mgmt.sent ++ [p] } }
  s.sendMgmt snode slocal dnode dlocal flits a

/-- From the active steward to a region's manager, and back. -/
def State.toManager (s : State) (r mtype : Nat) (flits : List Nat) : State :=
  s.sendProt s.stewardNode 258 (s.managerDie r) 257 mtype flits
def State.toSteward (s : State) (r mtype : Nat) (flits : List Nat) : State :=
  s.sendProt (s.managerDie r) 257 s.stewardNode 258 mtype flits

/-- A count of a unit that saturates and sets its SAT bit (R640). -/
def State.ckuCount (s : State) (f sat : Field) : State := s.hcount f sat 1

/-- The receiver's judgement of a protected message (R632 to R634): false where it is discarded. -/
def State.judge (s : State) (h : CtlHdr) (mtype : Nat) (flits : List Nat) (chk : ChkFlit) : State × Bool :=
  if !s.hasUnit h.dnode then (s, false)
  else
    let u := unitOf h.dnode
    let k := peerOf h.snode
    if chk.crc ≠ checkCrc h flits chk.alive then (s.ckuCount (CKU_BAD.COUNT u) (CKU_STAT.BAD_SAT u), false)
    else
      let m := s.aliveMod u
      let a := chk.alive % m
      let last := s.rd (CKU_ALIVE.LAST u k)
      let ack := fun (s : State) => s.sendMgmt h.dnode h.dlocal h.snode h.slocal [0x05 + mtype * 2 ^ 8 + a * 2 ^ 16] 0
      if s.bit (CKU_ALIVE.VALID u k) && decide (a = last) then (ack (s.ckuCount (CKU_REPEAT.COUNT u) (CKU_STAT.REP_SAT u)), false)
      else
        let s := if s.bit (CKU_ALIVE.VALID u k) && decide (a ≠ (last + 1) % m) then s.ckuCount (CKU_SKIP.COUNT u) (CKU_STAT.SKIP_SAT u) else s
        (ack ((s.wr (CKU_ALIVE.LAST u k) a).wr (CKU_ALIVE.VALID u k) 1), true)

/-- An acknowledgement (R633): its check flit is checked, but not its alive value; the message is kept no longer. -/
def atMgmtAck (mtype alive : Nat) (chk : ChkFlit) (h : CtlHdr) (s : State) : Res :=
  let flits := [0x05 + mtype % 256 * 2 ^ 8 + alive % 256 * 2 ^ 16]
  if !s.hasUnit h.dnode then .next s
  else
    let u := unitOf h.dnode
    if chk.crc ≠ checkCrc h flits chk.alive then .next (s.ckuCount (CKU_BAD.COUNT u) (CKU_STAT.BAD_SAT u))
    else
      let same := fun (p : Prot) => decide (p.snode = h.dnode) && decide (p.dnode = h.snode) && decide (p.mtype = mtype) && decide (p.alive = alive)
      .next { s with mgmt := { s.mgmt with sent := removeFirst same s.mgmt.sent } }

/-- MgmtAck as a packet of the control network (R156, R189). -/
def execMgmtAck (h : CtlHdr) (mtype alive : Nat) (chk : ChkFlit) (s : State) : Res := atCtl h noWait (atMgmtAck mtype alive chk) s

/-- A message not acknowledged for 100 µs is sent again with its alive value, up to 8 times (R633); after that the peer is silent: a steward
applies the heartbeat rules of R567 to the manager, and a manager keeps its last budget (R635). -/
def execProtectedAckTimeout (snode dnode mtype alive : Nat) (s : State) : Res :=
  let same := fun (p : Prot) => decide (p.snode = snode) && decide (p.dnode = dnode) && decide (p.mtype = mtype) && decide (p.alive = alive)
  match s.mgmt.sent.find? same with
  | none => .next s
  | some p =>
    if p.tries < 8 then
      let s := { s with mgmt := { s.mgmt with sent := updFirst same (fun p => { p with tries := p.tries + 1 }) s.mgmt.sent } }
      .next (s.sendMgmt p.snode p.slocal p.dnode p.dlocal p.flits p.alive)
    else
      let s := { s with mgmt := { s.mgmt with sent := removeFirst same s.mgmt.sent } }
      if peerOf snode = 16 then .next { s with mgmt := { s.mgmt with mgrMissed := Tab.set 0 s.mgmt.mgrMissed (regionOf dnode) 3 } } else .next s

/-- Both ends of a pair set VALID to 0, and the messages not acknowledged go to the new peer (R635): region `r` with the steward. -/
def State.newPair (s : State) (r : Nat) : State :=
  let s := (s.wr (CKU_ALIVE.VALID r 16) 0).wr (CKU_ALIVE.VALID 18 r) 0
  let s := s.wr (CKU_ALIVE.VALID 19 r) 0
  let mine := fun (p : Prot) => decide (peerOf p.snode = r) || decide (peerOf p.dnode = r)
  let l := s.mgmt.sent.filter mine
  let s := { s with mgmt := { s.mgmt with sent := s.mgmt.sent.filter (fun p => !mine p) } }
  forL l (fun p s => if peerOf p.snode = 16 then s.toManager r p.mtype p.flits else s.toSteward r p.mtype p.flits) s

end Sys2Proof.Machine
end

