-- ==== Sys2Proof/Machine/Scopes.lean ====
section
/-! DEFINITION. Scopes of reset (R525, R655, R657): the registers of a range of set-up space, a die, a region; what C3 and C6 do not keep (R88, R141,
R453, R491). -/

namespace Sys2Proof.Machine

/-- Is SETUP_LOCK in force, so that RWL fields keep their values (R8, R655)? -/
def State.locked (s : State) : Bool := s.bit SETUP_LOCK.LOCK

/-- The field of the map that has a key: its access code. -/
def accessOf (key : Nat) : Option Access :=
  match findReg regRows (key / 8) with
  | some (row, ix, _) => (row.fields.find? (fun f => decide ((f.fld ix).key = key))).map (fun f => f.acc)
  | none => none

/-- The registers at offsets [lo, hi) return to their reset values, but for RWL fields under the lock (R655, R657). -/
def State.resetRegs (s : State) (lo hi : Nat) : State :=
  let keep := s.locked
  let l := s.regs.filter (fun e => !(decide (8 * lo ≤ e.1) && decide (e.1 < 8 * hi)) || (keep && decide (accessOf e.1 = some .rwl)))
  { s with regs := l }

/-- What C3 does not keep of a core: counters, matrix state, the cycle counter and the loop buffer (R88, R141, R453). -/
def Core.sleep (k : Core) : Core :=
  { k with counters := [], cycle := 0, tiles := [], wbuf := [], islots := [], side := [], z := [], zen := false, lbuf := [] }

/-- A core that has lost its supply (R491, R525): only its fold stays. -/
def Core.lost (k : Core) : Core := { Core.reset with fenced := k.fenced, scrub := k.scrub }

/-- The seam or edge-link state of a die's direction 0 to 3 is written (R199, R422). -/
def State.setSeam (s : State) (d w v : Nat) : State :=
  match w with
  | 0 => s.wr (CD_RT_SEAM.E d) v
  | 1 => s.wr (CD_RT_SEAM.N d) v
  | 2 => s.wr (CD_RT_SEAM.W d) v
  | _ => s.wr (CD_RT_SEAM.S d) v

/-- A link of a die goes down until it is trained again (R422, R443, R556): its neighbour reads down, a skip path is unusable, the corner link is down, and
a fallback in progress ends. -/
def State.linkDown (s : State) (d w : Nat) : State :=
  match wayNode d w with
  | none => s
  | some n =>
    let o := if w < 4 then (w + 2) % 4 else 4 + (w + 2) % 4
    let s := { s with links := { s.links with falling := Tab.set 0 s.links.falling (9 * d + w) 0 } }
    let s := if isDie n then { s with links := { s.links with falling := Tab.set 0 s.links.falling (9 * n + o) 0 } } else s
    if w = 8 then { s with links := { s.links with corner := Tab.set 0 s.links.corner d 0 } }
    else if 4 ≤ w then s.wr (GLB_SKIP.STATE (2 * (skipOver d w).getD 0 + w % 2)) 2
    else if isDie n then ((s.setSeam n o 2).wr (CD_LNK_STAT.MODE n o) 2).wr (CD_LNK_STAT.TRAINING n o) 0
    else s

/-- The links of a die go down (R422, R443, R556). -/
def State.linksDown (s : State) (d : Nat) : State := forN 9 (fun w s => s.linkDown d w) s

/-- A die's cycle counters restart (R453, R463, R470): its anchors begin a new series. -/
def State.newAnchors (s : State) (d : Nat) : State :=
  { s with clk := { s.clk with anchors := forN 16 (fun cl t => Tab.set [] t (16 * d + cl) []) s.clk.anchors } }

/-- A die is reset or loses its supply (R491, R525 cause 0x09): its cores, routers, node and registers; its scratchpads hold nothing that the spec
gives, so that they read as free values (log entry 4). Folded cores start fenced (R546). -/
def State.resetDie (s : State) (d : Nat) : State :=
  let s := ((s.fabricOff d).resetRegs (0x1000000 + d * 0x10000) (0x1000000 + (d + 1) * 0x10000)).linksDown d
  let s := forN 256 (fun n s => (s.updCore (d * 256 + n) Core.lost).setRouter (d * 256 + n) Router.reset) s
  let s := (s.setNode d Node.reset).newAnchors d
  let s := { s with clk := { s.clk with
    droop := forN 16 (fun cl t => Tab.set 0 t (16 * d + cl) 0) s.clk.droop
    stretched := s.clk.stretched.filter (fun k => decide (k / 16 ≠ d)) } }
  let s := forN 256 (fun n s =>
    if bitOf (s.rd (GLB_FOLD_MAP.FOLDED (8 * d + n / 32))) (n % 32) then s.updCore (d * 256 + n) (fun k => { k with fenced := true })
    else s) s
  s.openRange (winBase (d * 256)) (winBase ((d + 1) * 256))

/-- The copies of panel state in a die that the steward writes again (R230, R236, R525): segment map, decode state, sync tree aside. -/
def State.rewriteDie (s : State) (d : Nat) : State :=
  let s := s.storeCopies d
  match s.partOfRegion (regionOf d) with
  | some p => putPmap (s.part p).place d s
  | none => s

/-- STATE of a cartridge (R497). -/
def State.ct (s : State) (n : Nat) : Nat := s.rd (PWR_CT_STAT.STATE n)

/-- The code of a cartridge's indicators by its STATE (R666, R669): ON shows green, RAMP green flashing, SWAP_READY amber, TRIPPED and FAULT amber
flashing. -/
def ctInd (v : Nat) : Nat := if v = 3 then 1 else if v = 2 then 4 else if v = 5 then 2 else if v = 4 ∨ v = 6 then 3 else 0

/-- A cartridge's STATE, with OUT_EN and IND of its controller (R666, R669). -/
def State.setCt (s : State) (n v : Nat) : State :=
  ((s.wr (PWR_CT_STAT.STATE n) v).wr (CT_CTL.OUT_EN n) (b2n (decide (v = 2 ∨ v = 3)))).wr (CT_CTL.IND n) (ctInd v)

/-- The nine dies of a region lose their supply (R491, R525): what their manager held is gone with them, and Tj reads 0 while they are off (R522). -/
def State.resetRegion (s : State) (r : Nat) : State :=
  let s := (forN 9 (fun i s => s.resetDie (regionDie r i)) s).wr (THM_RGN.TJ r) 0
  { s with
    power := { s.power with loop := Tab.set [] s.power.loop r [], calm := Tab.set 0 s.power.calm r 0 }
    therm := { s.therm with floor := Tab.set 0 s.therm.floor r 0 } }

end Sys2Proof.Machine
end

