-- ==== Sys2Proof/Machine/HostOps.lean ====
section
/-! DEFINITION. The host side's shared operations: rings (R320 to R329), descriptors, their order and their checks (R317, R333 to R336, R347),
completion entries and interrupts (R325, R342, R348), and a descriptor's access to the local address space (R148, R149, R224, R229). -/

namespace Sys2Proof.Machine

/-! ### Functions and rings -/

/-- The endpoint of a function, and its PF (R311). -/
def epOf (f : Nat) : Nat := f / 8
def pfOf (f : Nat) : Nat := f / 8 * 8

/-- The host interface die of a ring (R320). -/
def ringDie (r : Nat) : Nat := r / 2048

/-- May the source write the fields of a function's own record (R314, R648)? -/
def ownFn (src : Src) (f : Nat) : Bool :=
  match src with
  | .fw => true
  | .fn g => decide (g = f) || isPf g

/-- May the source write a ring's fields (R320): its owning function, the PF of the endpoint, or firmware? -/
def State.ownRing (s : State) (src : Src) (r : Nat) : Bool :=
  match src with
  | .fw => true
  | .fn g => decide (g = s.rd (RING_CFG.FUNC r)) || decide (g = 8 * ringDie r)

/-- Slots of a ring (R320). -/
def State.ringSize (s : State) (r : Nat) : Nat := 2 ^ s.rd (RING_CFG.LOG2SIZE r)

/-- Is a ring ACTIVE? -/
def State.ringOk (s : State) (r : Nat) : Bool := decide (s.rd (RING_STAT.STATE r) = 1)

/-- A completion ring's FULL bit (R325, R331). -/
def State.cqFull (s : State) (r : Nat) : Bool :=
  decide ((s.rd (RING_TAIL.TAIL r) + 1) % s.ringSize r = s.rd (RING_HEAD.HEAD r))
def State.showFull (s : State) (r : Nat) : State := s.wr (RING_STAT.FULL r) (b2n (s.cqFull r))

/-- A ring enters ERROR and RING_ERROR is posted (R327, R346). -/
def State.ringError (s : State) (r code : Nat) : State :=
  ((s.wr (RING_STAT.STATE r) 2).wr (RING_STAT.ERR r) code).postEvent (s.rd (RING_CFG.FUNC r)) 0x0001 31 2 (leBytes 2 r ++ leBytes 1 code)

/-- A completion entry is written at the tail (R325), the vector follows for a qualifying one (R348). -/
def State.writeEntry (s : State) (e : HeldEnt) : State :=
  let r := e.cq
  let t := s.rd (RING_TAIL.TAIL r)
  let ph := s.rd (RING_TAIL.PHASE r)
  let lo := e.lo + s.rd (RING_HEAD.HEAD e.sq) * 2 ^ 48 + ph * 2 ^ 88
  let f := s.rd (RING_CFG.FUNC r)
  let s := s.hostWrite f (s.rd (RING_BASE.BASE r) * 4096 + 32 * t) (leBytes 16 lo ++ leBytes 8 e.r0 ++ leBytes 8 e.r1)
  let t' := (t + 1) % s.ringSize r
  let s := (s.wr (RING_TAIL.TAIL r) t').wr (RING_TAIL.PHASE r) (if t' = 0 then 1 - ph else ph)
  let s := s.showFull r
  if !e.qual then s
  else if s.rd (RING_LINK.CTHR r) = 0 ∨ s.rd (RING_LINK.CTIME r) = 0 then s.msix f (s.rd (RING_LINK.VEC r))
  else
    let n := Tab.get 0 s.host.coal r + 1
    if s.rd (RING_LINK.CTHR r) ≤ n then (s.updHost (fun h => { h with coal := Tab.set 0 h.coal r 0 })).msix f (s.rd (RING_LINK.VEC r))
    else s.updHost (fun h => { h with coal := Tab.set 0 h.coal r n })

/-- May a completion ring take an entry (R325, R327)? -/
def State.cqTakes (s : State) (r : Nat) : Bool := s.ringOk r && decide (s.rd (RING_CFG.KIND r) = 1) && !s.cqFull r

/-- The entries held for a completion ring are written while it takes them (R325); one that the host rejects stays held, and the ring is in ERROR (R327,
R352). -/
def State.flushHeld (s : State) (r : Nat) : State :=
  forN s.host.held.length (fun _ s =>
    match (if s.cqTakes r then s.host.held.find? (fun e => decide (e.cq = r)) else none) with
    | some e => if s.host.rejects.contains r then (s.updHost (fun h => { h with rejects := h.rejects.filter (fun x => decide (x ≠ r)) })).ringError r 3 else
      (s.updHost (fun h => { h with held := removeFirst (fun x => decide (x.cq = r)) h.held })).writeEntry e
    | none => s) s

/-- An entry is written, or held behind those that are held (R325). -/
def State.report (s : State) (e : HeldEnt) : State :=
  if s.cqTakes e.cq && !s.host.held.any (fun x => decide (x.cq = e.cq)) then s.writeEntry e
  else s.updHost (fun h => { h with held := h.held ++ [e] })

/-- A doorbell of function `f` to a ring (R323): a submission ring's tail, or a completion ring's head. -/
def State.doorbell (s : State) (f r v : Nat) : State :=
  if f ≠ s.rd (RING_CFG.FUNC r) then s.wr (HID_FN_ERR.DB_FOREIGN f) 1
  else if !s.ringOk r then s.sat (RING_STAT.DBDROP r) 1
  else
    let n := s.ringSize r
    let h := s.rd (RING_HEAD.HEAD r)
    let t := s.rd (RING_TAIL.TAIL r)
    if s.rd (RING_CFG.KIND r) = 0 then
      if n ≤ v ∨ (h + n - 1 + n - t) % n < (v + n - t) % n then s.ringError r 1 else s.wr (RING_TAIL.TAIL r) v
    else
      if n ≤ v ∨ (t + n - h) % n < (v + n - h) % n then s.ringError r 1
      else ((s.wr (RING_HEAD.HEAD r) v).showFull r).flushHeld r

/-! ### Descriptors -/

/-- A field of a descriptor: bits [lo + w − 1 : lo] of its 64 bytes. -/
def Desc.f (d : Desc) (lo w : Nat) : Nat := bitsOf (leNat d.raw) lo w

def Desc.op (d : Desc) : Nat := d.f 0 8
def Desc.trump (d : Desc) : Bool := decide (d.f 8 1 = 1)
def Desc.cpl (d : Desc) : Bool := decide (d.f 9 1 = 1)
def Desc.fence (d : Desc) : Bool := decide (d.f 10 1 = 1)
def Desc.commitPt (d : Desc) : Bool := decide (d.f 11 1 = 1)
def Desc.irq (d : Desc) : Bool := decide (d.f 12 1 = 1)
def Desc.tag (d : Desc) : Nat := d.f 16 16

/-- The fields of an opcode beyond the first 8 bytes, as (first bit, bits); none where the opcode is not defined (R337 to R340). -/
def descFields (op : Nat) : Option (List (Nat × Nat)) :=
  match op with
  | 0x01 => some [(64, 64), (128, 64), (192, 40), (256, 2)]
  | 0x02 => some [(64, 48), (128, 40), (192, 64)]
  | 0x03 => some [(64, 48), (128, 40), (192, 64), (256, 64), (320, 64), (384, 7), (392, 2)]
  | 0x10 => some [(64, 48), (128, 6)]
  | 0x11 => some [(64, 9), (80, 8), (88, 1)]
  | 0x12 => some [(64, 48)]
  | 0x13 => some []
  | 0x14 => some [(64, 6)]
  | 0x20 => some [(64, 48), (128, 64), (192, 32), (256, 6), (263, 1), (272, 16)]
  | 0x21 => some [(64, 48), (128, 64), (192, 32), (256, 4)]
  | 0x30 => some [(64, 64)]
  | 0x31 => some [(64, 64), (128, 25), (160, 64), (224, 16), (240, 8)]
  | 0x40 => some [(64, 32)]
  | 0x41 => some [(64, 32)]
  | 0x50 => some [(64, 2)]
  | 0x51 => some [(64, 32), (96, 16), (112, 16), (128, 32), (160, 32)]
  | 0x60 => some [(64, 64), (128, 25), (160, 32), (192, 2), (200, 1)]
  | 0x61 => some [(64, 2)]
  | 0x70 => some [(64, 64), (128, 25), (160, 256)]
  | _ => none

/-- The first byte at or after 8 that holds a one bit outside the fields (R333). -/
def Desc.reserved (d : Desc) : Option Nat :=
  let fs := (descFields d.op).getD []
  let used := fun (i : Nat) => fs.any (fun p => inRange i p.1 p.2)
  ((List.range 56).map (· + 8)).find? (fun b => (List.range 8).any (fun i => decide (d.f (8 * b + i) 1 = 1) && !used (8 * b + i)))

/-- Is a partition tag required, or ignored (R335)? -/
def tagRequired (op : Nat) : Bool := inRange op 0x10 5 || decide (op = 0x40)
def tagIgnored (op : Nat) : Bool := decide (op = 0x41) || decide (op = 0x60) || decide (op = 0x61)

/-- The fields of a descriptor that are out of range, by their byte (R337 to R340, R217, R631, R404). -/
def Desc.ranges (d : Desc) : List (Nat × Bool) :=
  let no := fun (b : Bool) => !b
  let len40 := d.f 128 40
  let len := d.f 192 32
  let top := 2 ^ 36
  match d.op with
  | 0x01 =>
    [(8, decide (d.f 256 1 = 1) && decide (d.f 112 16 ≠ 0)), (16, decide (d.f 257 1 = 1) && decide (d.f 176 16 ≠ 0)),
     (24, decide (d.f 192 40 = 0) || decide (top < d.f 192 40)), (32, decide (d.f 256 2 = 0))]
  | 0x02 => [(16, decide (len40 = 0) || decide (top < len40))]
  | 0x03 =>
    let w := d.f 384 7
    let high := fun (lo : Nat) => inRange w 1 64 && decide (2 ^ w ≤ d.f lo 64)
    [(16, decide (len40 = 0) || decide (top < len40)), (24, high 192), (32, high 256), (40, high 320), (48, no (inRange w 1 64))]
  | 0x10 => [(8, decide (d.f 64 48 % 16 ≠ 0))]
  | 0x11 => [(8, decide (d.f 64 9 = 0) || decide (256 < d.f 64 9)), (10, decide (d.f 80 8 = 0) || decide (128 < d.f 80 8))]
  | 0x12 => [(8, decide (d.f 64 48 % 16 ≠ 0))]
  | 0x20 =>
    let w := decide (winBase 0 ≤ d.f 128 48) && decide (d.f 128 48 < winBase 36864)
    [(16, decide (d.f 263 1 = 1) && no w), (24, decide (len = 0) || decide (2 ^ 30 < len))]
  | 0x21 =>
    [(8, decide (d.f 64 48 % 16 ≠ 0)), (16, decide (d.f 128 64 % 16 ≠ 0)),
     (24, decide (len < 16) || decide (2 ^ 30 < len) || decide (len % 16 ≠ 0)), (32, decide (5 < d.f 256 4))]
  | 0x31 =>
    let m := d.f 128 25
    [(8, decide (d.f 64 64 % 64 ≠ 0)), (16, decide (m < 64) || decide (2 ^ 24 < m) || decide (m % 64 ≠ 0))]
  | 0x50 => [(8, decide (d.f 64 2 = 3))]
  | 0x51 => [(14, decide (d.f 112 16 = 0))]
  | 0x60 => [(16, decide (d.f 128 25 = 0) || decide (2 ^ 24 < d.f 128 25)), (24, decide (1 < d.f 192 2))]
  | 0x61 => [(8, decide (1 < d.f 64 2))]
  | 0x70 => [(16, decide (d.f 128 25 < 64) || decide (2 ^ 24 < d.f 128 25))]
  | _ => []

/-- The local ranges that a descriptor names: its byte, the address and the length (R334 orders 7 and 8). Of a kernel object the header, of a plan
its header; what lies behind them is checked with the object. -/
def Desc.locals (d : Desc) : List (Nat × Nat × Nat) :=
  match d.op with
  | 0x01 =>
    (if d.f 256 1 = 1 then [(8, d.f 64 48, d.f 192 40)] else []) ++ (if d.f 257 1 = 1 then [(16, d.f 128 48, d.f 192 40)] else [])
  | 0x02 => [(8, d.f 64 48, d.f 128 40)]
  | 0x03 => [(8, d.f 64 48, d.f 128 40)]
  | 0x10 => [(8, d.f 64 48, 64)]
  | 0x12 => [(8, d.f 64 48, 128)]
  | 0x20 => [(8, d.f 64 48, d.f 192 32)]
  | 0x21 => [(8, d.f 64 48, d.f 192 32)]
  | _ => []

/-! ### Access to the local address space -/

/-- What a local range names: the central store, offset `o` of core `c`'s window, or nothing that exists (R147, R148, R224). -/
inductive Place where
  | store
  | window (c o : Nat)
  | bad
  deriving DecidableEq, Repr

/-- Where the bytes [a, a + n) lie, all of them (R147, R148, R224). -/
def State.placeOf (s : State) (a n : Nat) : Place :=
  if decide (0 < n) && s.inStore a n then .store
  else if winBase 0 ≤ a ∧ a + n ≤ winBase 36864 ∧ 0 < n ∧ (a - winBase 0) % 0x40000 + n ≤ 0x30000 then
    .window ((a - winBase 0) / 0x40000) ((a - winBase 0) % 0x40000)
  else .bad

/-- Does a function own an enabled partition that satisfies `p`? -/
def State.ownsPart (s : State) (f : Nat) (p : Nat → Bool) : Bool :=
  (List.range 16).any (fun i => s.bit (HID_PART.EN i) && decide (s.rd (HID_PART.OWNER i) = f) && p i)

/-- The window of a core is open to a function that names no partition (R229): a PF, or the owner of the core's partition. -/
def State.windowOpen (s : State) (f c : Nat) : Bool :=
  isPf f || s.ownsPart f (fun p => bitOf (s.rd (HID_PART.REGIONS p)) (regionOf (coreDie c)))

/-- May a descriptor of function `f` with a tag reach [a, a + n) (R228, R229, R317)? -/
def State.descReach (s : State) (f tag a n : Nat) : Bool :=
  match s.placeOf a n with
  | .store =>
    if tag < 16 then s.mayReach tag a n
    else !s.inFwArea a n && (s.segsOf a n).all (fun j => s.bit (MH_SEG_MAP.SHARED j))
  | .window c _ =>
    if tag < 16 then bitOf (s.rd (HID_PART.REGIONS tag)) (regionOf (coreDie c)) else s.windowOpen f c
  | .bad => false

/-- Is a core's window out of reach, so that an access is answered with an error (R149)? -/
def State.windowGone (s : State) (c : Nat) : Bool := (s.core c).fenced || s.dieAbsent (coreDie c)

/-- Must an access to [a, a + n) wait, for a retraining stack (R257) or a sleeping region (R172)? -/
def State.mustWait (s : State) (a n : Nat) : Bool :=
  match s.placeOf a n with
  | .store => (s.heldBy a n).isSome
  | .window c _ => !s.windowGone c && s.asleep c
  | .bad => false

/-- The first line of [a, a + n) that the store cannot give. -/
def State.badLine (s : State) (a n : Nat) : Nat :=
  ((lineAddrs a n).find? (fun x => !s.pageAlive x || !s.bit (MH_HUB_STAT.INSERVICE (stackHub (s.serving x))) ||
    s.lineDead x)).getD a

/-- A read of the local address space, or the address of a failing line (R149, R262, R343). -/
def State.localRead (s : State) (a n : Nat) : State × Except Nat (List Byte) :=
  match s.placeOf a n with
  | .store =>
    match s.storeRead a n with
    | (t, .error _) => (t, .error (s.badLine a n))
    | (t, .ok l) => (t, .ok l)
  | .window c o =>
    if s.windowGone c then (s, .error a)
    else
      match s.spCheck c o n with
      | (s, some e) => (s, .error (winBase c + e / 64 * 64))
      | (s, none) => (s, .ok (s.spBytes c o n))
  | .bad => (s, .error a)

/-- A write of the local address space: none, or the address of a failing line (R149, R262, R343). -/
def State.localWrite (s : State) (a : Nat) (l : List Byte) : State × Option Nat :=
  match s.placeOf a l.length with
  | .store =>
    match s.storeWrite a l with
    | (t, some _) => (t, some (s.badLine a l.length))
    | (t, none) => (t, none)
  | .window c o =>
    if s.windowGone c then (s, some a)
    else
      match s.spWrite c o l with
      | (t, some _) =>
        let e := if o % 8 = 0 then none else (s.spCheck c (o - o % 8) 8).2
        (t, some (winBase c + (e.getD (o + l.length)) / 64 * 64))
      | (t, none) => (t, none)
  | .bad => (s, some a)

/-- The bytes of a failed COPY or FILL hold an unspecified mix: free values (R337, log entry 4). Memory errors stay. -/
def State.mixed (s : State) (a n : Nat) : State :=
  let e := s.ecc
  let s := s.openRange a (a + n)
  { s with ecc := e }.touched a n

/-! ### Start and checks -/

/-- A fetched descriptor by its number. -/
def State.descOf (s : State) (k : Nat) : Option Desc := s.host.descs.find? (fun d => decide (d.key = k))

/-- The descriptors fetched before `k` and not completed. -/
def State.before (s : State) (k : Nat) : List Desc := s.host.descs.filter (fun d => decide (d.key < k))

/-- Is an opcode one of the dealer's (R269)? -/
def dealerOp (op : Nat) : Bool := inRange op 0x10 5

/-- May a descriptor start, behind those before it (R269, R333, R339, R341, R347), outside a routing-table change (R173)? The layer of a RUN_LAYER has started,
for those behind it, once the descriptor has passed its checks (DESIGN CHOICE, log entry 100: R269 does not say whether GO is meant). With both stewards lost no layer is
waited for (R352). -/
def State.mayBegin (s : State) (d : Desc) : Bool :=
  let l := s.before d.key
  let mine := l.filter (fun e => decide (e.ring = d.ring))
  let part := l.filter (fun e => decide (e.tag = d.tag) && decide (d.tag < 16))
  mine.all (fun e => decide (e.st ≠ .fetched)) && (!d.fence || mine.isEmpty) && mine.all (fun e => decide (e.op ≠ 0x50)) &&
  (!d.commitPt || part.all (fun e => decide (e.op ≠ 0x12))) &&
  (decide (d.op ≠ 0x12) || (part.all (fun e => !e.commitPt) && s.net.chg.isNone)) &&
  (!dealerOp d.op || part.all (fun e => !dealerOp e.op || (decide (e.op = 0x12) && decide (e.st ≠ .fetched)))) &&
  (!inRange d.op 0x11 3 || !decide (d.tag < 16) || (s.part d.tag).run.isNone || s.bit GLB_STW_STAT.LOST_BOTH)

/-- The first check of R334 that a descriptor fails: status and DETAIL. -/
def State.descFault (s : State) (d : Desc) : Option (Nat × Nat) :=
  let p := d.tag
  let tagged := !tagIgnored d.op || d.commitPt
  let range := ((d.ranges.filter (fun e => e.2)).map (fun e => e.1)) ++ d.reserved.toList
  let badPlace := d.locals.filter (fun e => decide (s.placeOf e.2.1 e.2.2 = .bad))
  let noReach := d.locals.filter (fun e => !s.descReach d.fn p e.2.1 e.2.2)
  if (descFields d.op).isNone then some (2, 0)
  else if d.f 13 3 ≠ 0 then some (2, 1)
  else if decide (s.rd (RING_CFG.TRUMP d.ring) = 1) != d.trump then some (2, 1)
  else if d.trump && !(decide (d.op = 0x50) || decide (d.op = 0x51) || (decide (d.op = 0x20) && decide (d.f 192 32 ≤ 256))) then some (2, 1)
  else if tagged && !(decide (p < 16) || decide (p = 0xFFFF)) then some (2, 2)
  else if tagged && decide (p = 0xFFFF) && (tagRequired d.op || d.commitPt) then some (2, 2)
  else if tagged && decide (p < 16) && !(s.bit (HID_PART.EN p) && decide (s.rd (HID_PART.OWNER p) = d.fn)) then some (6, 2)
  else if tagIgnored d.op && !isPf d.fn then some (6, 0xFF)
  else if !range.isEmpty then some (2, range.foldl min 63)
  else
    match badPlace, noReach with
    | e :: _, _ => some (2, e.1)
    | [], e :: _ => some (if d.op = 0x21 then 2 else 6, e.1)
    | [], [] => none

/-- Descriptors that need a steward (R352). -/
def needsSteward (d : Desc) : Bool :=
  dealerOp d.op || inRange d.op 0x40 2 || decide (d.op = 0x30) || decide (d.op = 0x31) || decide (d.op = 0x51) || decide (d.op = 0x70) ||
    (decide (d.op = 0x60) && decide (d.f 192 2 = 1)) || (decide (d.op = 0x61) && decide (d.f 64 2 = 1))

/-- Does a recovery engine alone serve the descriptor's endpoint, and refuse it: in RECOVERY, or where the die's firmware failed, all but FW_STAGE and
FW_ACTIVATE of the steward image are (R533, R610)? -/
def State.recoveryOnly (s : State) (d : Desc) : Bool :=
  (decide (s.rd RST_BOOT_STAT.STATE = 2) || decide (Tab.get 0 s.boot.minimal (ringDie d.ring) = 1)) &&
    !((decide (d.op = 0x60) && decide (d.f 192 2 = 0)) || (decide (d.op = 0x61) && decide (d.f 64 2 = 0)))

/-- A descriptor is started. -/
def State.beginDesc (s : State) (k : Nat) : State :=
  s.updDescs (updFirst (fun d => decide (d.key = k)) (fun d => { d with st := .running }))

/-- A descriptor's access waits in the hub of a retraining stack (R257). -/
def State.holdDesc (s : State) (d : Desc) : State :=
  forL (d.locals.filterMap (fun e => s.heldBy e.2.1 e.2.2)) (fun n s => s.hold (.desc n d.key)) s

/-- The command of a descriptor of opcode `op`: it starts where it may, is checked, and `body` is its effect; `body` gives none where the
effect must wait, and the command is then issued again. -/
def State.runDesc (s : State) (k op : Nat) (body : Desc → State → Option State) : State :=
  match s.descOf k with
  | none => s
  | some d =>
    if d.st ≠ .fetched || d.op ≠ op || !s.mayBegin d then s
    else
      let t := s.beginDesc k
      match s.descFault d with
      | some (st, det) => t.finishDesc k st det 0 0
      | none =>
        if s.recoveryOnly d then t.finishDesc k 1 0 0 0
        else if s.bit GLB_STW_STAT.LOST_BOTH && needsSteward d then
          (if Tab.get 0 s.host.stwLost (ringDie d.ring) = 0 then s else t.finishDesc k 1 0 0 0)
        else
          match body d t with
          | some t => t
          | none => s.holdDesc d

end Sys2Proof.Machine
end

