-- ==== Sys2Proof/Machine/Weights.lean ====
section
/-! DEFINITION. Weight streams at the hubs (R178, R179, R242, R290): the pieces of a record, page by page, from the weight-stream pool of the hub that owns the
page to every target, by the protocol of R174 to R180 with the cover that the dealer commands. -/

namespace Sys2Proof.Machine

/-- A piece goes through `f`. -/
def State.updWs (s : State) (id : Nat) (f : WsPiece → WsPiece) : State :=
  { s with store := { s.store with ws := updFirst (fun x => decide (x.id = id)) f s.store.ws } }

/-- The piece of a name. -/
def State.wsPiece (s : State) (id : Nat) : Option WsPiece := s.store.ws.find? (fun x => decide (x.id = id))

/-- The location of a piece's hub. -/
def WsPiece.loc (x : WsPiece) : Nat := stopAt (hubStop x.hub)

/-- The next TAG of a hub, below 0xFFF0 (R163, R208). -/
def State.wsTag (s : State) (k : Nat) : Nat × State :=
  let t := Tab.get 0 s.store.tags k
  (t, { s with store := { s.store with tags := Tab.set 0 s.store.tags k ((t + 1) % 0xFFF0) } })

/-- A transfer of a piece gets a TAG, and awaits its answer. -/
def State.wsXfer (s : State) (x : WsPiece) (f : Nat → Xfer) : Nat × State :=
  let (tag, s) := s.wsTag x.hub
  (tag, s.updWs x.id (fun y => { y with xfers := y.xfers ++ [f tag] }))

/-- The data packets of a piece (R163, R164): (header but for its destination, bytes). The increment of a record goes with its last piece alone, which is sent
when every target has acknowledged the others: so each target performs it once, after every byte of the record (R137; DESIGN CHOICE, log entry 99: R290 does
not say which packets carry it). -/
def WsPiece.packets (x : WsPiece) (type tag : Nat) : List (BulkHdr × List Byte) :=
  (cutRow false 0 x.n).map (fun q =>
    ({ hdr0 with
      type := type, tag := tag, plen := q.2, toff := x.toff, soff := q.1, slot := x.w.slot, cnt := x.w.cnt, cntEn := x.w.cntEn && x.last, inc := x.w.inc, addr := x.n },
      ((x.data.getD []).drop q.1).take q.2))

/-- A stray gets the piece by unicast WRITE (R176, R290). -/
def State.wsTo (s : State) (x : WsPiece) (target : Nat) : State :=
  let (tag, s) := s.wsXfer x (fun t => .ack t target)
  forL (x.packets 0 tag) (fun e s => s.inject x.loc (e.1.dst target) e.2) s

/-- MC_OPEN of one rectangle of the cover (R176, R178). -/
def State.wsOpen (s : State) (x : WsPiece) (r : Rect) : State :=
  let (tag, s) := s.wsXfer x (fun t => .opening t r)
  s.inject x.loc ({ hdr0 with type := 2, tag := tag }.rect r) []

/-- A target reads the piece from the store: PULL (R179, R180), with its store address in ADDR (log entry 32). -/
def State.wsPull (s : State) (x : WsPiece) (target : Nat) : State :=
  let (tag, s) := s.wsXfer x (fun t => .ack t target)
  let zero : StreamDesc := parseDesc []
  let d : StreamDesc := { zero with
    rowBytes := x.n, rowCount := 1, space := 1, slot := x.w.slot, roff := x.toff, rcnt := x.w.cnt, rcntEn := b2n (x.w.cntEn && x.last), rinc := x.w.inc }
  s.emit (.pull x.loc 14 ((({ hdr0 with type := 7, tag := tag, slot := x.w.slot, addr := x.addr }).dst target).src x.loc) d)

/-- A piece that every target has acknowledged leaves the pool (R242). -/
def State.wsEnd (s : State) (id : Nat) : State :=
  match s.wsPiece id with
  | some x => if x.sent && x.xfers.isEmpty then ({ s with store := { s.store with ws := removeFirst (fun y => decide (y.id = id)) s.store.ws } }).notePools x.hub else s
  | none => s

/-- The MC_WRITEs of the accepted rectangles, once every MC_OPEN of the piece has been answered (R176). -/
def State.wsSend (s : State) (id : Nat) : State :=
  match s.wsPiece id with
  | none => s
  | some x =>
    if x.sent || x.xfers.any (fun f => match f with
        | .opening _ _ => true
        | _ => false) then s
    else
      let s := s.updWs id (fun y => { y with sent := true })
      (forL x.xfers (fun f s => match f with
        | .piece tag r => forL (x.packets 1 tag) (fun e s => s.inject x.loc (e.1.rect r) e.2) s
        | _ => s) s).wsEnd id

/-- A piece may begin: its bytes stand in the pool, its hub sends no other piece of the record, and the last piece waits for the others (R242). -/
def State.wsMay (s : State) (x : WsPiece) : Bool :=
  let mates := s.store.ws.filter (fun y => decide (y.id ≠ x.id) && decide (y.part = x.part) && decide (y.idx = x.idx) && y.live)
  x.live && !x.on && x.data.isSome && !(mates.any (fun y => y.on && decide (y.hub = x.hub))) && (!(x.last && x.w.cntEn) || mates.isEmpty)

/-- A piece begins (R176, R178, R290): by multicast, its strays first; where the cover exceeds 8 rectangles or 4 strays, the dealer schedules it as reads of
the store by every target (R179; DESIGN CHOICE, log entry 99: the limits of R174). -/
def State.wsStart (s : State) (id : Nat) : State :=
  match s.wsPiece id with
  | none => s
  | some x =>
    if !s.wsMay x then s
    else
      let s := s.updWs id (fun y => { y with on := true })
      let (rects, strays) := match (s.part x.part).place with
        | some pl => coverOf pl x.w.vx0 x.w.vy0 x.w.vx1 x.w.vy1
        | none => ([], [])
      if rects.length ≤ 8 ∧ strays.length ≤ 4 then
        (forL strays (fun q s => s.wsTo x q) (forL rects (fun r s => s.wsOpen x r) s)).wsSend id
      else
        ((forL (strays ++ rects.flatMap Rect.cores) (fun q s => s.wsPull x q) s).updWs id (fun y => { y with sent := true })).wsEnd id

/-- The pieces of a hub are read into its pool, in order, while it has room and their stacks do not train (R241, R242, R257); a failure of the store ends
the layer with its status (R293). -/
def State.wsTake (s : State) : List Nat → State
  | [] => s
  | id :: t =>
    match s.wsPiece id with
    | none => s.wsTake t
    | some x =>
      let k := stackHub (s.serving x.addr)
      if x.data.isSome || !x.live then s.wsTake t
      else if s.poolFull k 0 || (s.heldBy x.addr x.n).isSome then s
      else
        match s.pageRead x.addr x.n with
        | (s, .error e) => (s.endLayer x.part e).wsTake t
        | (s, .ok l) => ((s.updWs id (fun y => { y with hub := k, data := some l })).notePools k).wsTake t

/-- Every hub takes and sends what it may. -/
def State.wsRun (s : State) : State :=
  if s.store.ws.isEmpty then s
  else
    let s := forN 24 (fun k s => s.wsTake ((s.store.ws.filter (fun x => decide (x.hub = k))).map (fun x => x.id))) s
    forL (s.store.ws.map (fun x => x.id)) (fun id s => s.wsStart id) s

/-- A hub leaves service: the hubs that serve its pages from then on serve its pieces, from the start (R236, R257, R259). -/
def State.wsMove (s : State) (k : Nat) : State :=
  let again := fun (x : WsPiece) => { x with hub := stackHub (s.serving x.addr), data := none, on := false, sent := false, xfers := [] }
  let kept := s.store.ws.filter (fun (x : WsPiece) => decide (x.hub ≠ k) || x.live)
  ({ s with store := { s.store with ws := kept.map (fun (x : WsPiece) => if x.hub = k then again x else x) } }).notePools k

/-- An answer at a hub (R176, R178, R290): to MC_OPEN, a refused rectangle being closed and served by meld pull; or of targets, which ends a transfer. EXTENT
or COUNTER ends the layer with ABORTED, a failure of the store with the store's status; every other one counts as an acknowledgement. -/
def State.hubAnswer (s : State) (l : Nat) (h : BulkHdr) : State :=
  match s.store.ws.find? (fun x => decide (x.loc = l) && x.xfers.any (fun f => decide (f.tag = h.tag))) with
  | none => s
  | some x =>
    let rest := s.updWs x.id (fun y => { y with xfers := y.xfers.filter (fun f => decide (f.tag ≠ h.tag)) })
    match x.xfers.find? (fun f => decide (f.tag = h.tag)) with
    | some (.opening _ r) =>
      let s :=
        if h.type ≠ 3 then rest
        else if h.status = 0 then s.updWs x.id (fun y => { y with xfers := y.xfers.map (fun f => if f.tag = h.tag then .piece h.tag r else f) })
        else forL r.cores (fun q s => s.wsPull x q) (rest.inject l ({ hdr0 with type := 0xC, tag := h.tag }.rect r) [])
      (s.wsSend x.id).wsRun
    | some _ =>
      if h.type = 3 then s
      else
        let bad := if h.status = 2 ∨ h.status = 3 then some 5 else if h.status = 5 then some (if h.scode = 0 then 8 else h.scode) else none
        let s := match bad with
          | some st => if x.live then rest.endLayer x.part st else rest
          | none => rest
        (s.wsEnd x.id).wsRun
    | none => s

end Sys2Proof.Machine
end

