-- ==== Sys2Proof/Machine/Answers.lean ====
section
/-! DEFINITION. Answers that come back to a ring stop: to a guest site behind its steward (R431, R432), to an engine for a Jexlink packet that it
delivers (R401, R403), and to a hub (R178). -/

namespace Sys2Proof.Machine

/-! ### Guest sites -/

def State.guest (s : State) (g : Nat) : Guest := Tab.get Guest.reset s.guests g

def State.setGuest (s : State) (g : Nat) (x : Guest) : State := { s with guests := Tab.set Guest.reset s.guests g x }

def State.updGuest (s : State) (g : Nat) (f : Guest → Guest) : State := s.setGuest g (f (s.guest g))

/-- GS_STAT.STATE. -/
def State.gstate (s : State) (g : Nat) : Nat := s.rd (GS_STAT.STATE g)

/-- The ring stop of a site's adapter: GS0 beside SD0, GS1 beside SD1 (R16, R431). -/
def guestStop (g : Nat) : Nat := if g = 0 then 13 else 39

def stopGuest (st : Nat) : Option Nat := if st = 13 then some 0 else if st = 39 then some 1 else none

/-- GS_CAP as bytes (R434). -/
def State.guestCap (s : State) (g : Nat) : List Byte := (List.range 8).flatMap (fun w => leBytes 4 (s.rd (GS_CAP.CAP g w)))

/-- The answers that the guest has response credits for leave, oldest first (R432). -/
def State.guestPump (g : Nat) : Nat → State → State
  | 0, s => s
  | n + 1, s =>
    let x := s.guest g
    match x.queue with
    | [] => s
    | a :: t =>
      if flits a.h ≤ leField (s.guestCap g) 26 2 - (x.rspSent + 65536 - x.rspFreed) % 65536 then
        State.guestPump g n ((s.setGuest g { x with queue := t, rspSent := (x.rspSent + flits a.h) % 65536 }).emit (.guest g a.h a.data))
      else s

/-- An answer for a guest joins its queue (R432). -/
def State.guestAnswer (s : State) (g : Nat) (h : BulkHdr) (data : List Byte) : State :=
  let s := s.updGuest g (fun x => { x with queue := x.queue ++ [⟨h, data⟩] })
  State.guestPump g (s.guest g).queue.length s

/-- An answer reaches the adapter of an ADMITTED guest whose request awaits it (R431); any other is discarded (R443). -/
def State.toGuest (s : State) (g : Nat) (h : BulkHdr) (data : List Byte) : State :=
  if s.gstate g = 3 ∧ (s.guest g).reqs.contains h.tag = true then
    (s.updGuest g (fun x => { x with reqs := removeFirst (fun t => decide (t = h.tag)) x.reqs })).guestAnswer g h data
  else s

/-! ### Jexlink packets under delivery -/

/-- The Jexlink status of a bulk answer (R166, R401, R403): that of the store as it is given; a target out of reach or folded holds no valid data;
DEDUCED, log entry 13. -/
def jxStatus (h : BulkHdr) : Nat :=
  if h.type = 5 ∨ h.status = 0 then 0
  else if h.status = 2 ∨ h.status = 3 then 2
  else if h.status = 5 then (if h.scode = 0 then 8 else h.scode)
  else 8

/-- Bytes placed at an offset of a payload. -/
def splice (l : List Byte) (off : Nat) (d : List Byte) : List Byte := l.take off ++ d ++ l.drop (off + d.length)

/-- A delivered packet has been performed or has failed: its cells are freed and its answer is sent (R401, R403). -/
def State.jxDone (s : State) (p : JxPkt) (status : Nat) (data : List Byte) : State :=
  let s := s.freeCells p.came p.h
  match jxAnswerOf p.h p.data status (s.rd JX_CFG.HOPS) with
  | none => s
  | some a =>
    if p.h.ptype = 0x04 ∧ status = 0 then s.jxReply { a with ndata := ceilDiv data.length 64, len := data.length, pcrc := crc32 data } data
    else s.jxReply a []

/-- A delivery that failed at once: its cells are freed and its answer is sent (R401, R403). -/
def State.jxRefuse (s : State) (p : JxPkt) (status : Nat) : State := (s.freeCells p.came p.h).jxFail p status

/-- A REDUCE at its hub: combined granule by granule, as one unit each (R218, R238). -/
def State.jxReduce (s : State) (p : JxPkt) : State :=
  match s.storeRead p.h.addr p.h.len with
  | (s, .error e) => s.jxRefuse p e
  | (s, .ok old) =>
    match s.storeWrite p.h.addr (redCombine p.h.op p.h.len old (fixLen p.h.len p.data)) with
    | (s, some e) => s.jxRefuse p e
    | (s, none) => s.jxDone p 0 []

/-- A bulk answer reaches the engine that delivers a Jexlink packet: the last one ends it (R401). -/
def State.toEngine (s : State) (loc : Nat) (h : BulkHdr) (data : List Byte) : State :=
  let mine := fun (e : JxPend) => decide (e.loc = loc) && e.tags.any (fun t => decide (t.1 = h.tag))
  match s.jx.pend.find? mine with
  | none => s
  | some e =>
    let off := ((e.tags.find? (fun t => decide (t.1 = h.tag))).map (fun t => t.2)).getD 0
    let e' := { e with
      tags := e.tags.filter (fun t => decide (t.1 ≠ h.tag))
      data := if h.type = 5 then splice e.data off data else e.data
      status := jxWorse e.status (jxStatus h) }
    if e'.tags.isEmpty then
      ({ s with jx := { s.jx with pend := removeFirst mine s.jx.pend } }).jxDone e'.p e'.status e'.data
    else { s with jx := { s.jx with pend := updFirst mine (fun _ => e') s.jx.pend } }

/-- An answer at a ring stop. -/
def State.atStop (s : State) (l : Nat) (h : BulkHdr) (data : List Byte) : State :=
  match stopGuest (l - 36864) with
  | some g => s.toGuest g h data
  | none => if (stopHub (l - 36864)).isSome then s.hubAnswer l h else s.toEngine l h data

end Sys2Proof.Machine
end

