-- ==== Sys2Proof/Machine/Logbook.lean ====
section
/-! DEFINITION. The logbook's records and how one is written (R590 to R593). -/

namespace Sys2Proof.Machine

/-- The bytes of a record of `n` payload bytes (R592): a multiple of 8 with header and CRC. -/
def logLen (n : Nat) : Nat := ceilDiv (28 + n) 8 * 8

/-- A record's bytes (R592). -/
def LogRec.bytes (r : LogRec) : List Byte :=
  let len := logLen r.payload.length
  let l := leBytes 1 r.kind ++ leBytes 1 (b2n r.life) ++ leBytes 2 len ++ leBytes 2 r.unit ++ leBytes 2 0 ++ leBytes 8 r.seq ++ leBytes 8 r.time ++
    r.payload ++ List.replicate (len - 28 - r.payload.length) 0
  l ++ leBytes 4 (crc32 l)

/-- Which kinds are kept for life (R593). -/
def lifeKind (k : Nat) : Bool := [1, 8, 9, 10, 11, 12, 13].contains k

/-- Bytes of records that the devices hold in 8,190 blocks of 64 KiB (R591). -/
def logRoom : Nat := 8190 * 65536

/-- Bytes of a list of records. -/
def logBytes (l : List LogRec) : Nat := l.foldl (fun n r => n + logLen r.payload.length) 0

/-- Is a device in service, and so the logbook writable (R590, R595)? -/
def State.logOk (s : State) : Bool := s.bit TEL_LOG_STAT.DEV0_OK || s.bit TEL_LOG_STAT.DEV1_OK

/-- Records in order of SEQ. -/
def insertSeq (r : LogRec) : List LogRec → List LogRec
  | [] => [r]
  | o :: t => if r.seq ≤ o.seq then r :: o :: t else o :: insertSeq r t
def bySeq (l : List LogRec) : List LogRec := l.foldr insertSeq []

/-- The records that firmware reads at start-up: none where both devices are unreadable (R538). -/
def State.logRecs (s : State) : List LogRec := if s.logOk then bySeq s.tel.log else []

/-- The records of the mirror, from which reads are served (R590). -/
def State.mirror (s : State) : List LogRec := if s.bit TEL_LOG_STAT.MIRROR_OK then bySeq s.tel.log else []

/-- Daily records older than 365 days are merged into one per unit and 30 days (R591); what it holds is a free value (log entry 4). -/
def mergeLog (now : Nat) (l : List LogRec) : List LogRec :=
  let day := 86400000000000
  let old := fun (r : LogRec) => [2, 3, 5, 6].contains r.kind && decide (r.time + 365 * day < now)
  l.flatMap (fun r =>
    if !old r then [r]
    else
      let g := l.filter (fun o => old o && decide (o.kind = r.kind) && decide (o.unit = r.unit) && decide (o.time / (30 * day) = r.time / (30 * day)))
      if g.length = 1 then [r]
      else if g.getLast?.map (fun z => z.seq) = some r.seq then [{ r with payload := Config.logMerge r.kind (g.map (fun z => z.payload)) }]
      else [])

/-- FILL, and LOG_SPACE as the log passes 90 % full, when merging begins (R591). -/
def State.logSpace (s : State) : State :=
  let f := logBytes s.tel.log * 100 / logRoom
  let was := s.rd TEL_LOG_STAT.FILL
  let s := s.wr TEL_LOG_STAT.FILL f
  if was ≤ 90 ∧ 90 < f then
    let s := { s with tel := { s.tel with log := mergeLog s.ptime s.tel.log } }
    (s.wr TEL_LOG_STAT.FILL (logBytes s.tel.log * 100 / logRoom)).postPanel 0x0903 31 1 (leBytes 1 f ++ leBytes 1 1)
  else s

/-- Below 1 % of free space the oldest block is erased: its records are gone, but those kept for life, which are copied forward (R591). -/
def State.logErase (s : State) : State :=
  if logRoom * 99 / 100 < logBytes s.tel.log then
    let cut := fun (l : List LogRec) => (l.foldl (fun (st : Nat × List LogRec × List LogRec) r =>
      if st.1 < 65536 then (st.1 + logLen r.payload.length, st.2.1 ++ (if r.life then [r] else []), st.2.2) else (st.1, st.2.1, st.2.2 ++ [r]))
      (0, [], []))
    let x := cut s.tel.log
    { s with tel := { s.tel with log := x.2.2 ++ x.2.1 } }
  else s

/-- A record is programmed on every device in service and in the mirror (R590, R592). -/
def State.logWrite (s : State) (kind unit : Nat) (payload : List Byte) : State :=
  if !s.logOk || s.bit GLB_STW_STAT.LOST_BOTH then s
  else
    let q := (s.rd TEL_LOG_SEQ.SEQ + 1) % 2 ^ 64
    let r : LogRec := { kind := kind, life := lifeKind kind, unit := unit, seq := q, time := s.ptime, payload := payload }
    let s := s.logErase
    let s := { s with tel := { s.tel with log := s.tel.log ++ [r] } }
    (s.wr TEL_LOG_SEQ.SEQ q).logSpace

end Sys2Proof.Machine
end

