-- ==== Sys2Proof/Machine/Store.lean ====
section
/-! DEFINITION. The central store's own commands: scrubbing and repair (R252 to R255), stack faults and losses (R257 to R261), initialisation (R249,
R250), the segment map (R230, R231), and reception areas (R244 to R248). -/

namespace Sys2Proof.Machine

/-- Is a byte of a hub's stacks: of a data page, or in parity mode of a parity page (R234, R252)? -/
def State.onHub (s : State) (k a : Nat) : Bool :=
  (s.inStore a 1 || (s.pmode && decide (a < 0x024000000000))) && decide (stackHub (s.place a).1 = k)

/-- A hub reads one line of its stacks, of parity pages too, corrects and counts (R251 to R253); `upsets` are the errors the arrays have suffered. -/
def execHubScrub (k a : Nat) (upsets : List Upset) (s : State) : Res :=
  let s := forL (upsets.filter (fun u => s.onHub k u.addr)) (fun u s => s.upset u.addr u.multi) s
  if s.onHub k a && s.bit (MH_HUB_STAT.INSERVICE k) && decide (s.rd (MH_STACK_STATE.STATE (s.place a).1) < 2) then .next (s.lineRead (a / 64 * 64)).1 else .next s

/-- The error marks of a row's lines that its repair removes: it is written whole, each line corrected, or rebuilt where its stripe allows it (R253, R254). -/
def State.rowFresh (s : State) (n row : Nat) : State :=
  let inRow := fun (e : Nat × Nat) => s.onHub (stackHub n) (8 * e.1) && decide ((s.place (8 * e.1)).1 = n) && decide (Config.dramRow (s.localAddr (8 * e.1)) = row)
  { s with ecc := s.ecc.filter (fun e => !(inRow e && (decide (s.lineErr (8 * e.1) ≤ 1) || !s.lineDead (8 * e.1)))) }

/-- The REPAIR record of a row of a stack: the row, and 0 for a soft repair or 1 for a hard one (R593; the
row's address is the number that Config.dramRow gives it, and which value stands for which, DESIGN CHOICE, log entry 106). -/
def State.logRepair (s : State) (n row hard : Nat) : State := s.logWrite 0x0C (0x0100 + n) (leBytes 8 row ++ leBytes 1 hard)

/-- A hub repairs the first due row of a stack with a spare row, or marks the stack where none is left (R254, R255). -/
def execPprRepair (stack : Nat) (spare : Bool) (s : State) : Res :=
  let k := stackHub stack
  match s.store.repairs.find? (fun e => decide (e.1 = stack)) with
  | none => .next s
  | some (n, row) =>
    if !s.bit (MH_PPR_CTL.EN k) || s.stackLost n || s.stackTraining n then .next s
    else
      let s := { s with store := { s.store with
        repairs := s.store.repairs.filter (fun e => decide (e ≠ (n, row)))
        ceRows := s.store.ceRows.filter (fun e => !(decide (e.1 = n) && decide (e.2.1 = row))) } }
      if spare then
        let s := (((s.rowFresh n row).sat (MH_PPR_STAT.DONE k) 1).dayCount (40100 + n) 1).logRepair n row 0
        .next (({ s with store := { s.store with soft := s.store.soft ++ [(n, row)] } }).pprBusy k)
      else .next ((((s.wr (MH_PPR_STAT.NOSPARE k) 1).wr (MH_STACK_STATE.NOSPARE n) 1).wr (MH_STACK_STATE.STATE n) 1).pprBusy k)

/-- At start-up each recorded soft repair becomes permanent by a hard repair, which is recorded too (R254): those that the hubs hold and those of the logbook
that no hard repair follows. -/
def State.hardenSoft (s : State) : State :=
  let recs := s.logRecs.filter (fun r => decide (r.kind = 0x0C))
  let of := fun (hard : Nat) => (recs.filter (fun r => decide (leField r.payload 8 1 = hard))).map (fun r => (r.unit - 0x0100, leField r.payload 0 8))
  let due := (s.store.soft ++ of 0).filter (fun e => !(of 1).contains e)
  forL due.eraseDups (fun e s => s.logRepair e.1 e.2 1) { s with store := { s.store with soft := [] } }

/-- The requests held for a stack leave the hub, each through `f`; weight streams go on. -/
def State.release (s : State) (n : Nat) (f : HeldReq → State → State) : State :=
  let l := s.store.held.filter (fun r => decide (r.stack = n))
  (forL l f (({ s with store := { s.store with held := s.store.held.filter (fun r => decide (r.stack ≠ n)) } }).notePools (stackHub n))).wsRun

/-- A held request is answered with an SCODE (R257, R262); a descriptor's access whose stack is lost goes on with its descriptor, which then meets
the error. -/
def heldAnswer (scode : Nat) (r : HeldReq) (s : State) : State :=
  match r with
  | .pkt n h _ => s.answer (stopAt (hubStop (stackHub n))) h 8 5 scode
  | .desc _ key => if scode = 7 then s.abortDesc key 7 else s
  | .red _ p => s.jxRefuse p scode

/-- A held request is served (R257); a descriptor's access goes on with its descriptor. -/
def heldServe (r : HeldReq) (s : State) : State :=
  match r with
  | .pkt n h data => s.unhold (stackHub n) h data
  | .desc _ _ => s
  | .red _ p => match s.heldBy p.h.addr p.h.len with
    | none => s.jxReduce p
    | some st => s.hold (.red st p)

/-- A hub goes out of service (R257): its stacks are lost, what it holds is answered, and its read queue ends with DATA_ERROR or goes to the parity hub
(R236, R258, R259). -/
def State.hubOut (s : State) (k : Nat) : State :=
  let s := s.wr (MH_HUB_STAT.INSERVICE k) 0
  let s := (((s.loseStack (2 * k)).maskStack (2 * k)).loseStack (2 * k + 1)).maskStack (2 * k + 1)
  let f := if s.pmode then heldServe else heldAnswer 8
  let s := ((s.wsMove k).release (2 * k) f).release (2 * k + 1) f
  let q := Tab.get [] s.store.readQ k
  let s := { s with store := { s.store with readQ := Tab.set [] s.store.readQ k [] } }
  (forL q (fun e s => s.readFail (stopAt (hubStop k)) e.reqs 5 8) s).wsRun

/-- A stack's controller faults, and the stack retrains (R257). -/
def execStackFault (stack : Nat) (s : State) : Res :=
  .next (if s.stackLost stack then s else s.wr (MH_STACK_STATE.STATE stack) 3)

/-- A retraining stack trains again, and the held requests are served (R257). -/
def execStackRetrained (stack : Nat) (s : State) : Res :=
  if s.stackTraining stack && !s.store.initing then
    .next ((s.wr (MH_STACK_STATE.STATE stack) (s.rd (MH_STACK_STATE.NOSPARE stack))).release stack heldServe)
  else .next s

/-- Retraining has failed for 1 ms (R257): held requests get TIMEOUT, and the steward marks the stack LOST (R236, R259). -/
def execStackRetrainTimeout (stack : Nat) (s : State) : Res :=
  if s.stackTraining stack && !s.store.initing then
    .next (((s.release stack (heldAnswer 7)).loseStack stack).maskStack stack)
  else .next s

/-- A stack reaches 105 °C (R257): LOST at once; held requests get DATA_ERROR, or are rebuilt in parity mode. -/
def execStackThermalTrip (stack : Nat) (s : State) : Res :=
  if s.stackLost stack then .next s
  else .next (((s.loseStack stack).maskStack stack).release stack (if s.pmode then heldServe else heldAnswer 8))

/-- The lost page of a stripe of a group (R234, R260). -/
def State.lostPage (s : State) (g st : Nat) : Nat :=
  let n := (Tab.get [] s.store.lost g).headD 0
  (44 * st + 4 * ((n % 12 + 23 - st % 12) % 12) + g) * 4096

/-- The lost page of a stripe is rebuilt line by line in place of the parity page; a line that cannot be rebuilt stays one that cannot be read (R253, R260;
DEDUCED, log entry 95). -/
def State.rebuildPage (s : State) (g st : Nat) : State :=
  forL (lineAddrs (s.lostPage g st) 4096) (fun a s =>
    let q := parityAddr g st + a % 4096
    match s.rebuildLine a with
    | (s, true) => s.lineFresh q
    | (s, false) => { s.lineFresh q with ecc := Tab.set 0 (s.lineFresh q).ecc (q / 8) 2 }) s

/-- A surviving stack of a group that is rebuilding rebuilds its next stripe (R260). -/
def execRebuildStripe (stack : Nat) (s : State) : Res :=
  let g := stack / 12
  if s.pmode && decide (s.rd (MH_PGRP_STATE.STATE g) = 3) && !s.stackLost stack && decide (s.rd MH_RECON_CTL.RATE ≠ 0) then
    let i := s.nextStripe stack
    if stripesPerPos ≤ i then .next (s.progress g)
    else
      let s := s.rebuildPage g (stripeAt stack i)
      let s := { s with store := { s.store with
        built := Tab.set 0 s.store.built stack (i + 1)
        early := s.store.early.filter (fun e => !(decide (e.1 = stack) && decide (e.2 ≤ stripeAt stack i))) } }
      .next (s.progress g)
  else .next s

/-- Is store traffic in flight (R250): requests at hubs, layers, streams and pulls, packets under delivery, requests of guests, descriptors that have started? -/
def State.storeTraffic (s : State) : Bool :=
  !s.store.held.isEmpty || !s.store.readQ.isEmpty || !s.store.ws.isEmpty || s.layerGoing || s.cores.any (fun e => !e.2.streams.isEmpty || !e.2.pulls.isEmpty) || !s.jx.pend.isEmpty ||
  s.jx.ports.any (fun e => !e.2.held.isEmpty) || s.guests.any (fun e => !e.2.reqs.isEmpty) || s.host.descs.any (fun d => decide (d.st = .running))

/-- INIT written (R249, R250): ignored while a segment is assigned or store traffic is in flight; else every stack trains again. -/
def execStoreInit (src : Src) (s : State) : Res :=
  if !fwOnly src || (List.range 48).any (fun j => s.bit (MH_SEG_MAP.ASSIGNED j)) || s.storeTraffic then .next s
  else
    let s := forN 48 (fun n s => s.wr (MH_STACK_STATE.STATE n) 3) (s.wr MH_STORE_CFG.READY 0)
    .next { s with store := { s.store with initing := true } }

/-- The state of a parity group after an initialisation (R249). -/
def groupAfter (s : State) (g : Nat) : Nat :=
  match ((List.range 12).filter (fun i => s.stackLost (12 * g + i))).length with
  | 0 => 1
  | 1 => if s.bit MH_RECON_CTL.AUTO then 3 else 2
  | _ => 5

/-- The store after an initialisation (R249): it reads zero, each stack is ONLINE, DEGRADED without a spare row, or LOST where it failed training. -/
def State.storeInited (s : State) (failed noSpare : List Nat) : State :=
  let s := s.zeroRange 0 0x024000000000
  let s := { s with store := { s.store with initing := false, lost := [], built := [], early := [], ceRows := [], ueRows := [], repairs := [] } }
  let par := s.bit MH_STORE_CFG.PARITY
  let s := (s.wr MH_STORE_CFG.PMODE (b2n par)).wr MH_FW_AREA.BASE (if par then 0x020FC0000000 else 0x023FC0000000)
  let s := forN 48 (fun n s =>
    let s := s.wr (MH_STACK_STATE.NOSPARE n) (b2n (noSpare.contains n))
    s.wr (MH_STACK_STATE.STATE n) (if failed.contains n then 2 else b2n (noSpare.contains n))) s
  let s := forN 4 (fun g s =>
    if par then
      let l := ((List.range 12).map (fun i => 12 * g + i)).filter s.stackLost
      let s := { s with store := { s.store with lost := Tab.set [] s.store.lost g l } }
      let s := ((s.wr (MH_PGRP_STATE.STATE g) (groupAfter s g)).wr (MH_PGRP_STATE.LOST_STACK g) (l.headD 0)).wr (MH_PGRP_PROG.STRIPE g) 0
      if l.length = 1 then s.progress g else s
    else ((s.wr (MH_PGRP_STATE.STATE g) 0).wr (MH_PGRP_STATE.LOST_STACK g) 0).wr (MH_PGRP_PROG.STRIPE g) 0) s
  let s := forN 48 (fun j s => s.wr (MH_SEG_MAP.ASSIGNED j) 0) s
  s.wr MH_STORE_CFG.READY 1

/-- Initialisation ends (R249), and every die's copies of the decode state follow (R230, R236). -/
def execStoreInitComplete (failed noSpare : List Nat) (s : State) : Res :=
  if s.store.initing then .next (forN 144 (fun d s => s.storeCopies d) (s.storeInited failed noSpare)) else .next s

/-- START (R259, R264): rebuilding starts in every DEGRADED group. -/
def execReconStart (src : Src) (s : State) : Res :=
  if fwOnly src then
    .next (forN 4 (fun g s => if s.rd (MH_PGRP_STATE.STATE g) = 2 then s.wr (MH_PGRP_STATE.STATE g) 3 else s) s)
  else .next s

/-- The copies of a segment's map in the compute dies (R230, R267). -/
def State.copySeg (s : State) (j : Nat) : State :=
  forN 144 (fun d s =>
    (((s.wr (CD_SEG_MAP.ASSIGNED d j) (s.rd (MH_SEG_MAP.ASSIGNED j))).wr (CD_SEG_MAP.SHARED d j) (s.rd (MH_SEG_MAP.SHARED j))).wr
      (CD_SEG_MAP.MODE d j) (s.rd (MH_SEG_MAP.MODE j))).wr (CD_SEG_MAP.OWNER d j) (s.rd (MH_SEG_MAP.OWNER j))) s

/-- A segment's map is written (R230, R231): a MODE change is refused while the segment is assigned, and edge-local mode in parity mode; a change
leaves the contents unspecified. -/
def State.setSeg (s : State) (j assigned shared mode owner : Nat) : State :=
  let old := s.rd (MH_SEG_MAP.MODE j)
  let bad := (decide (mode ≠ old) && s.bit (MH_SEG_MAP.ASSIGNED j)) || (decide (mode = 1) && s.pmode)
  let s := if bad then s.wr MH_STORE_CFG.MODE_ERR 1 else s
  let s := if !bad && decide (mode ≠ old) then (s.openRange (j * s.segSize) ((j + 1) * s.segSize)).wr (MH_SEG_MAP.MODE j) mode else s
  (((s.wr (MH_SEG_MAP.ASSIGNED j) assigned).wr (MH_SEG_MAP.SHARED j) shared).wr (MH_SEG_MAP.OWNER j) owner).copySeg j

/-- A write of MH_SEG_MAPj by firmware (R230, R231, R263). -/
def execSegMapWrite (src : Src) (j : Nat) (v : W32) (s : State) : Res :=
  let x := v.toNat
  if fwOnly src && decide (j < 48) then .next (s.setSeg j (bitsOf x 0 1) (bitsOf x 1 1) (bitsOf x 2 1) (bitsOf x 4 4)) else .next s

/-! ### Reception areas -/

/-- Slots of a reception area (R243). -/
def State.rxaSlots (s : State) (n : Nat) : Nat := 2 ^ s.rd (MH_RXA_CTL.LOG2N n)

/-- FULL follows the indexes, and each time the area becomes full is counted (R247, R264). -/
def State.rxaFull (s : State) (n : Nat) : State :=
  let full := decide ((s.rd (MH_RXA_WR.WR_IDX n) + 2 ^ 32 - s.rd (MH_RXA_RD.RD_IDX n)) % 2 ^ 32 = s.rxaSlots n)
  let s := if full && !s.bit (MH_RXA_STAT.FULL n) then s.sat (MH_RXA_STAT.FULLCNT n) 1 else s
  s.wr (MH_RXA_STAT.FULL n) (b2n full)

/-- Does an array of a reception area lie in one segment that is SHARED, or in the firmware area (R244)? -/
def State.rxaArrayOk (s : State) (a n : Nat) : Bool :=
  s.inStore a n && decide (0 < n) && decide (s.segOf a = s.segOf (a + n - 1)) &&
    (s.bit (MH_SEG_MAP.SHARED (s.segOf a)) || decide (s.rd MH_FW_AREA.BASE ≤ a))

/-- A write of MH_RXA_CTL (R243, R244, R248, R264). A write of 1 to EN clears WR_IDX and what was to be notified, refused or not; FULL follows. -/
def execRxaEnable (src : Src) (n : Nat) (v : W32) (s : State) : Res :=
  if !s.ownsPort src n || decide (72 ≤ n) then .next s
  else
    let x := v.toNat
    let lg := bitsOf x 4 5
    let s := ((s.wr (MH_RXA_CTL.NOTIFY n) (bitsOf x 1 1)).wr (MH_RXA_CTL.LOG2N n) (if 8 ≤ lg ∧ lg ≤ 16 then lg else 8)).wr
      (MH_RXA_CTL.FUNC n) (bitsOf x 12 4)
    if bitsOf x 0 1 = 0 then .next ((s.wr (MH_RXA_CTL.EN n) 0).rxaFull n)
    else
    let s := (s.wr (MH_RXA_WR.WR_IDX n) 0).updHost (fun h => { h with rxaDue := Tab.set 0 h.rxaDue n 0 })
    if s.rxaArrayOk (s.rd (MH_RXA_HDR.BASE n)) (64 * s.rxaSlots n) && s.rxaArrayOk (s.rd (MH_RXA_DATA.BASE n)) (4096 * s.rxaSlots n) then
      .next ((s.wr (MH_RXA_CTL.EN n) 1).rxaFull n)
    else .next (((s.wr (MH_RXA_CTL.EN n) 0).wr (MH_RXA_STAT.CFG_ERR n) 1).rxaFull n)

/-- A write of RD_IDX frees slots, or is ignored (R247, R268). -/
def execRxaRdWrite (src : Src) (n : Nat) (v : W32) (s : State) : Res :=
  if !s.ownsPort src n || decide (72 ≤ n) then .next s
  else if s.rxaSlots n < (s.rd (MH_RXA_WR.WR_IDX n) + 2 ^ 32 - v.toNat) % 2 ^ 32 then .next (s.wr (MH_RXA_STAT.CFG_ERR n) 1)
  else .next ((s.wr (MH_RXA_RD.RD_IDX n) v.toNat).rxaFull n)

/-- An RXA_NOTIFY record, at most one a microsecond, with the latest WR_IDX (R248, R346). -/
def execRxaNotify (n : Nat) (s : State) : Res :=
  let last := Tab.get 0 s.host.rxaLast n
  if s.bit (MH_RXA_CTL.NOTIFY n) && decide (Tab.get 0 s.host.rxaDue n = 1) && (decide (last = 0) || decide (last - 1 + 1000 ≤ s.ptime)) then
    let s := s.updHost (fun h => { h with rxaLast := Tab.set 0 h.rxaLast n (s.ptime + 1), rxaDue := Tab.set 0 h.rxaDue n 0 })
    .next (s.postEvent (s.rd (MH_RXA_CTL.FUNC n)) 0x0020 31 0 (leBytes 1 n ++ leBytes 3 0 ++ leBytes 4 (s.rd (MH_RXA_WR.WR_IDX n))))
  else .next s

/-- A packet lands in the reception area of port `n`: payload first, then the header, then WR_IDX (R243, R245, R246). False where the area holds
it back: not enabled or full (R247), or the store failed. A BASE that was written off its multiple of 64 or 4,096 is used as it reads (DESIGN CHOICE, log entry
97: R243 gives no outcome). -/
def State.rxaLand (s : State) (n srcPanel : Nat) (hdr data : List Byte) : State × Bool :=
  if !s.bit (MH_RXA_CTL.EN n) || s.bit (MH_RXA_STAT.FULL n) then (s, false)
  else
    let i := s.rd (MH_RXA_WR.WR_IDX n)
    let k := i % s.rxaSlots n
    match s.storeWrite (s.rd (MH_RXA_DATA.BASE n) + 4096 * k) data with
    | (s, some _) => (s, false)
    | (s, none) =>
      let head := leBytes 4 i ++ leBytes 2 srcPanel ++ leBytes 2 (data.length % 2 ^ 13) ++ leBytes 8 0 ++ hdr.take 48 ++ List.replicate (48 - hdr.length) 0
      match s.storeWrite (s.rd (MH_RXA_HDR.BASE n) + 64 * k) head with
      | (s, some _) => (s, false)
      | (s, none) =>
        let s := if s.bit (MH_RXA_CTL.NOTIFY n) then s.updHost (fun h => { h with rxaDue := Tab.set 0 h.rxaDue n 1 }) else s
        ((s.wr (MH_RXA_WR.WR_IDX n) ((i + 1) % 2 ^ 32)).rxaFull n, true)

/-- Is a stack of the next slot of a port's area training, so that its hub holds the writes (R257)? -/
def State.rxaTraining (s : State) (n : Nat) : Bool :=
  let k := s.rd (MH_RXA_WR.WR_IDX n) % s.rxaSlots n
  (s.heldBy (s.rd (MH_RXA_DATA.BASE n) + 4096 * k) 4096).isSome || (s.heldBy (s.rd (MH_RXA_HDR.BASE n) + 64 * k) 64).isSome

/-- CE_CLR of a hub (R266); the host's writes are ignored (R265). -/
def execHubCeClr (src : Src) (k : Nat) (s : State) : Res :=
  if fwOnly src then
    .next ((((s.wr (MH_CE_CNT.COUNT k 0) 0).wr (MH_CE_CNT.COUNT k 1) 0).wr (MH_ERR_STAT.CE_SAT0 k) 0).wr (MH_ERR_STAT.CE_SAT1 k) 0)
  else .next s

end Sys2Proof.Machine
end

