-- ==== Sys2Proof/Machine/Host.lean ====
section
/-! DEFINITION. The host's commands (R310 to R352): doorbells, fetch and completion of descriptors, ring, event, partition and segment registers,
the apertures, and the descriptors COPY, FILL, CHECK and FENCE. -/

namespace Sys2Proof.Machine

/-- Can a function reach the panel: enabled, its endpoint out of reset (R311, R351), and the panel READY or in RECOVERY (R532, R533, R544)? -/
def State.fnLive (s : State) (f : Nat) : Bool :=
  s.bit (HID_FN_ID.EN f) && decide (Tab.get 0 s.host.inReset (epOf f) = 1) && (decide (s.rd RST_BOOT_STAT.STATE = 1) || decide (s.rd RST_BOOT_STAT.STATE = 2))

/-- A doorbell write to a submission ring (R323). -/
def execSqDoorbell (f r : Nat) (v : W32) (s : State) : Res := .next (if s.fnLive f && decide (r < 4096) then s.doorbell f r v.toNat else s)

/-- A doorbell write to a completion ring (R323, R325). -/
def execCqDoorbell (f r : Nat) (v : W32) (s : State) : Res := .next (if s.fnLive f && decide (r < 4096) then s.doorbell f r v.toNat else s)

/-! ### Fetch and completion -/

/-- May a die fetch from a ring: ACTIVE, a submission ring with descriptors, and its completion ring not full (R325, R327)? -/
def State.mayFetch (s : State) (r : Nat) : Bool :=
  s.ringOk r && decide (s.rd (RING_CFG.KIND r) = 0) && decide (s.rd (RING_HEAD.HEAD r) ≠ s.rd (RING_TAIL.TAIL r)) &&
    !s.bit (RING_STAT.FULL (s.rd (RING_LINK.CQ r)))

/-- The rings of a die in turn, after its ring `last`. -/
def ringsAfter (die last : Nat) : List Nat := (List.range 2048).map (fun i => die * 2048 + (last + 1 + i) % 2048)

/-- The ring that a die fetches from next, whether it is a trump ring, and how many descriptors its turn has left (R328). -/
def State.nextRing (s : State) (die : Nat) : Option (Nat × Bool × Nat) :=
  match (ringsAfter die (Tab.get 0 s.host.rrTrump die)).find? (fun r => s.bit (RING_CFG.TRUMP r) && s.mayFetch r) with
  | some r => some (r, true, 1)
  | none =>
    let cur := die * 2048 + Tab.get 0 s.host.rrRing die
    let left := Tab.get 0 s.host.rrLeft die
    if 0 < left && !s.bit (RING_CFG.TRUMP cur) && s.mayFetch cur then some (cur, false, left)
    else
      match (ringsAfter die (Tab.get 0 s.host.rrRing die)).find? (fun r => !s.bit (RING_CFG.TRUMP r) && s.mayFetch r) with
      | some r => some (r, false, s.rd (RING_LINK.ARB r) + 1)
      | none => none

/-- 64 bytes of a slot. -/
def slotBytes (l : List Byte) : List Byte := l.take 64 ++ List.replicate (64 - l.length) 0

/-- A host interface die fetches descriptors (R324, R328), none during a routing-table change (R173); `slots` is what host memory holds from the
ring's head on. -/
def execDescriptorFetch (die : Nat) (slots : List (List Byte)) (s : State) : Res :=
  let held := (s.host.descs.filter (fun d => decide (ringDie d.ring = die))).length
  match (if s.net.chg.isSome || decide (2 ≤ die) then none else s.nextRing die) with
  | none => .next s
  | some (r, trump, left) =>
    let h := s.rd (RING_HEAD.HEAD r)
    let sz := s.ringSize r
    let n := min (min (min 8 left) ((s.rd (RING_TAIL.TAIL r) + sz - h) % sz)) (min (sz - h) (min (2048 - held) slots.length))
    if n = 0 then .next s
    else
      let f := s.rd (RING_CFG.FUNC r)
      let s := s.hostRead f (s.rd (RING_BASE.BASE r) * 4096 + 64 * h) (64 * n)
      let k := s.host.nextKey
      let new := ((slots.take n).zipIdx).map (fun e =>
        ({ key := k + e.2, ring := r, fn := f, raw := slotBytes e.1, st := .fetched, status := 0, detail := 0, r0 := 0, r1 := 0, evt := false } : Desc))
      let s := s.updHost (fun x => { x with descs := x.descs ++ new, nextKey := k + n })
      let s := s.updHost (fun x =>
        if trump then { x with rrTrump := Tab.set 0 x.rrTrump die (r % 2048) }
        else { x with rrRing := Tab.set 0 x.rrRing die (r % 2048), rrLeft := Tab.set 0 x.rrLeft die (left - n) })
      .next (s.wr (RING_HEAD.HEAD r) ((h + n) % sz))

/-- The entry of a descriptor (R342), without SQ_HEAD and P. -/
def State.entryOf (s : State) (d : Desc) : HeldEnt :=
  { cq := s.rd (RING_LINK.CQ d.ring), sq := d.ring,
    lo := d.f 32 32 + d.ring % 2 ^ 12 * 2 ^ 32 + d.status % 2 ^ 8 * 2 ^ 64 + d.op * 2 ^ 72 + b2n d.evt * 2 ^ 80 + d.detail % 2 ^ 8 * 2 ^ 96,
    r0 := d.r0 % 2 ^ 64, r1 := d.r1 % 2 ^ 64, qual := d.irq || decide (d.status ≠ 0 ∧ d.status ≠ 4) }

/-- A descriptor leaves the die that fetched it. -/
def State.dropDesc (s : State) (k : Nat) : State := s.updDescs (fun l => l.filter (fun d => decide (d.key ≠ k)))

/-- Is an entry due (R333, CPL)? -/
def Desc.wantsEntry (d : Desc) : Bool := d.cpl || decide (d.status ≠ 0)

/-- A descriptor completes, and its entry is written (R325, R342, R347, R348). One whose opcode is not defined starts and fails here (R334). -/
def execDescriptorComplete (k : Nat) (s : State) : Res :=
  let s := match s.descOf k with
    | some d => if decide (d.st = DescSt.fetched) && (descFields d.op).isNone && s.mayBegin d then (s.beginDesc k).finishDesc k 2 0 0 0 else s
    | none => s
  match s.descOf k with
  | none => .next s
  | some d =>
    if d.st ≠ DescSt.finished then .next s
    else .next (if d.wantsEntry then (s.dropDesc k).report (s.entryOf d) else s.dropDesc k)

/-- CTIME after the first qualifying entry (R348). -/
def execCoalesceTimeout (r : Nat) (s : State) : Res :=
  if Tab.get 0 s.host.coal r = 0 then .next s
  else .next ((s.updHost (fun h => { h with coal := Tab.set 0 h.coal r 0 })).msix (s.rd (RING_CFG.FUNC r)) (s.rd (RING_LINK.VEC r)))

/-! ### Ring and event registers -/

/-- The fields of RING_CFG beside EN (R320, R326, R331). -/
def State.ringFields (s : State) (src : Src) (r v : Nat) : State :=
  let s :=
    if s.bit (RING_CFG.EN r) then s
    else
      let lg := bitsOf v 8 5
      ((s.wr (RING_CFG.KIND r) (bitsOf v 1 1)).wr (RING_CFG.TRUMP r) (bitsOf v 2 1)).wr (RING_CFG.LOG2SIZE r) (if 6 ≤ lg ∧ lg ≤ 16 then lg else 6)
  let f := bitsOf v 16 4
  if !s.locked && decide (f / 8 = ringDie r) && (decide (src = .fw) || decide (src = .fn (8 * ringDie r))) then s.wr (RING_CFG.FUNC r) f else s

/-- Why a ring may not be enabled (R321): LIMIT or BAD_LINK. -/
def State.enableBad (s : State) (r : Nat) : Option Nat :=
  let f := s.rd (RING_CFG.FUNC r)
  if s.rd (RING_CFG.KIND r) = 1 then none
  else
    let mine := ((List.range 2048).map (· + 2048 * ringDie r)).filter (fun i =>
      s.bit (RING_CFG.EN i) && decide (s.rd (RING_CFG.KIND i) = 0) && decide (s.rd (RING_CFG.FUNC i) = f))
    let cq := s.rd (RING_LINK.CQ r)
    if 1024 ≤ mine.length ∨ (s.bit (RING_CFG.TRUMP r) = true ∧ 8 ≤ (mine.filter (fun i => s.bit (RING_CFG.TRUMP i))).length) then some 5
    else if s.bit (RING_CFG.EN cq) && decide (s.rd (RING_CFG.KIND cq) = 1) && decide (s.rd (RING_CFG.FUNC cq) = f) then none
    else some 4

/-- A write of RING_CFG with EN = 1 (R321, R322, R326). -/
def execRingEnable (src : Src) (r : Nat) (v : W32) (s : State) : Res :=
  if !s.ownRing src r || decide (4096 ≤ r) then .next s
  else
    let s := s.ringFields src r v.toNat
    if s.rd (RING_STAT.STATE r) = 3 then .next s
    else
      let s := s.wr (RING_STAT.ERR r) 0
      if s.rd (RING_STAT.STATE r) ≠ 0 then .next s
      else
        match s.enableBad r with
        | some e => .next (s.wr (RING_STAT.ERR r) e)
        | none =>
          let s := ((s.wr (RING_CFG.EN r) 1).wr (RING_STAT.STATE r) 1).wr (RING_HEAD.HEAD r) 0
          let s := ((s.wr (RING_TAIL.TAIL r) 0).wr (RING_TAIL.PHASE r) 1).wr (RING_STAT.FULL r) 0
          .next (s.flushHeld r)

/-- A write of RING_CFG with EN = 0 (R326, R327). -/
def execRingDisable (src : Src) (r : Nat) (v : W32) (s : State) : Res :=
  if !s.ownRing src r || decide (4096 ≤ r) then .next s
  else
    let s := s.ringFields src r v.toNat
    let named := ((List.range 2048).map (· + 2048 * ringDie r)).any (fun i =>
      s.bit (RING_CFG.EN i) && decide (s.rd (RING_CFG.KIND i) = 0) && decide (s.rd (RING_LINK.CQ i) = r))
    if !s.bit (RING_CFG.EN r) then .next s
    else if s.rd (RING_CFG.KIND r) = 1 && named then .next (s.wr (RING_STAT.ERR r) 6)
    else .next ((s.wr (RING_CFG.EN r) 0).wr (RING_STAT.STATE r) 3)

/-- A draining ring has nothing outstanding and becomes DISABLED (R326). -/
def execRingDrained (r : Nat) (s : State) : Res :=
  if s.rd (RING_STAT.STATE r) ≠ 3 then .next s
  else if s.host.descs.any (fun d => decide (d.ring = r)) || s.host.held.any (fun e => decide (e.sq = r)) then .next s
  else .next (s.wr (RING_STAT.STATE r) 0)

/-- A write of HID_EVT_HEAD frees slots (R329, R332); its reserved bits are ignored (R7). -/
def execEvtHeadWrite (src : Src) (f : Nat) (v : W32) (s : State) : Res :=
  let x := bitsOf v.toNat 0 12
  let n := 2 ^ s.rd (HID_EVT_CFG.LOG2SIZE f)
  let h := s.rd (HID_EVT_HEAD.HEAD f)
  let t := s.rd (HID_EVT_TAIL.TAIL f)
  if !ownFn src f || decide (16 ≤ f) || decide (n ≤ x) || decide ((t + n - h) % n < (x + n - h) % n) then .next s
  else .next ((s.wr (HID_EVT_HEAD.HEAD f) x).evtFlush f)

/-- A write of HID_EVT_CFG (R332, R345): EN = 1 resets the indexes, the phase, SEQ and EVLOST. -/
def execEvtEnable (src : Src) (f : Nat) (v : W32) (s : State) : Res :=
  if !ownFn src f || decide (16 ≤ f) then .next s
  else
    let x := v.toNat
    let lg := bitsOf x 8 4
    let s := ((s.wr (HID_EVT_CFG.EN f) (bitsOf x 0 1)).wr (HID_EVT_CFG.LOG2SIZE f) (if 6 ≤ lg ∧ lg ≤ 12 then lg else 6)).wr
      (HID_EVT_CFG.VEC f) (bitsOf x 16 11)
    if bitsOf x 0 1 = 0 then .next s
    else
      let s := ((s.wr (HID_EVT_HEAD.HEAD f) 0).wr (HID_EVT_TAIL.TAIL f) 0).wr (HID_EVT_TAIL.PHASE f) 1
      let s := s.wr (HID_FN_ERR.EVLOST f) 0
      .next (s.updHost (fun h => { h with evtSeq := Tab.set 0 h.evtSeq f 0, evtLost := Tab.set 0 h.evtLost f 0 }))

/-! ### Partitions and segments -/

/-- A partition loses its placement (R318, R554, R565): the maps of its dies are empty; those of a disabled partition's REGIONS are not its own (R305). -/
def State.unplace (s : State) (p : Nat) : State :=
  let ds := if s.bit (HID_PART.EN p) then s.partDies p else []
  forL ds (fun d s => putPmap none d s) (s.updPart p (fun x => { x with place := none }))

/-- A PF's write of HID_PARTp (R316, R318). -/
def execPartWrite (src : Src) (p : Nat) (v : W32) (s : State) : Res :=
  if !pfOrFw src || decide (16 ≤ p) then .next s
  else
    let x := v.toNat
    let s := if bitsOf x 21 1 = 1 then s.wr (HID_PART.CFG_ERR p) 0 else s
    let regs := bitsOf x 0 16
    let hit := (List.range 16).any (fun q => decide (q ≠ p) && s.bit (HID_PART.EN q) && decide (Nat.land (s.rd (HID_PART.REGIONS q)) regs ≠ 0))
    if s.locked then .next s
    else if s.bit (GLB_DLR_PART3.RUNNING p) || hit then .next (s.wr (HID_PART.CFG_ERR p) 1)
    else if decide (regs = s.rd (HID_PART.REGIONS p)) && decide (bitsOf x 16 4 = s.rd (HID_PART.OWNER p)) && decide (bitsOf x 20 1 = s.rd (HID_PART.EN p)) then
      .next s
    else
      let s := (s.unplace p).updPart p (fun y => { y with kernels := [] })
      let s := s.wr (GLB_DLR_PART3.STALE p) 1
      .next ((((s.wr (HID_PART.REGIONS p) regs).wr (HID_PART.OWNER p) (bitsOf x 16 4)).wr (HID_PART.EN p) (bitsOf x 20 1)).account)

/-- A PF's write of HID_SEG_APPLY (R319, R332). -/
def execSegApply (src : Src) (v : W32) (s : State) : Res :=
  if !pfOrFw src then .next s
  else
    let x := v.toNat
    let s := if bitsOf x 2 1 = 1 then s.wr HID_SEG_APPLY.APPLIED 0 else s
    let s := if bitsOf x 3 1 = 1 then s.wr HID_SEG_APPLY.ERR 0 else s
    .next (if bitsOf x 0 1 = 1 then s.wr HID_SEG_APPLY.BUSY 1 else s)

/-- The requested map of a segment: ASSIGNED, SHARED, MODE, OWNER (R319). -/
def State.segReq (s : State) (j : Nat) : Nat × Nat × Nat × Nat :=
  (s.rd (HID_SEG_REQ.ASSIGNED j), s.rd (HID_SEG_REQ.SHARED j), s.rd (HID_SEG_REQ.MODE j), s.rd (HID_SEG_REQ.OWNER j))

/-- Would a request change whether partition `p` may reach a segment, or where its pages lie (R319)? -/
def State.segChanges (s : State) (p j : Nat) : Bool :=
  let (a, sh, m, o) := s.segReq j
  let new := decide (sh = 1) || (decide (a = 1) && decide (o = p))
  decide (new ≠ s.segOpen p j) || (s.segOpen p j && decide (m ≠ s.rd (MH_SEG_MAP.MODE j)))

/-- Firmware applies a segment's request (R230, R319): a MODE change of an assigned segment in three writes. -/
def State.applySeg (s : State) (j : Nat) : State :=
  let (a, sh, m, o) := s.segReq j
  let old := s.rd (MH_SEG_MAP.MODE j)
  let s := if m ≠ old ∧ s.bit (MH_SEG_MAP.ASSIGNED j) = true then s.setSeg j 0 (s.rd (MH_SEG_MAP.SHARED j)) old (s.rd (MH_SEG_MAP.OWNER j)) else s
  let s := if m ≠ old then s.setSeg j 0 (s.rd (MH_SEG_MAP.SHARED j)) m (s.rd (MH_SEG_MAP.OWNER j)) else s
  s.setSeg j a sh m o

/-! ### Apertures and the link -/

/-- A read of BAR2 (R313). -/
def execBar2Read (f off n : Nat) (s : State) : Res := .next (if s.fnLive f && decide (off < 2 ^ 24) then s.emit (.readData (.fn f) 0 n false) else s)

/-- May a function's aperture reach [a, a + n) (R229, R315)? -/
def State.apReach (s : State) (f a n : Nat) : Bool :=
  match s.placeOf a n with
  | .store => !s.inFwArea a n && (s.segsOf a n).all (fun j => s.bit (MH_SEG_MAP.SHARED j) || s.ownsPart f (fun p => s.segOpen p j))
  | .window c _ => s.windowOpen f c && !s.windowGone c
  | .bad => false

/-- The three BARs of a function, the VF BARs of a VF (R312): register, size, and whether it is prefetchable; all are 64-bit. -/
def barSizes : List (Nat × Nat × Bool) := [(0, 64 * 2 ^ 20, false), (2, 16 * 2 ^ 20, false), (4, 64 * 2 ^ 30, true)]

/-- An access through BAR4 (R315): refused with AP_ERR, or performed; it waits for a retraining stack or a sleeping region. A permitted write that the store or
the scratchpad cannot perform sets AP_ERR too (DESIGN CHOICE, log entry 102: R315 is silent). AER notes a poisoned write (R310). -/
def execBar4Access (f : Nat) (wr poison : Bool) (off n : Nat) (data : List Byte) (s : State) : Res :=
  let a := s.rd (HID_FN_AP.BASE f) * 2 ^ 30 + off
  if !s.fnLive f || decide (2 ^ 36 < off + n) || decide (n = 0) then .next s
  else if !s.apReach f a n then
    let s := s.wr (HID_FN_ERR.AP_ERR f) 1
    .next (if wr then s else s.emit (.readData (.fn f) (allOnes (8 * n)) n false))
  else if s.mustWait a n then .next s
  else if wr then
    if poison then .next ((s.wr (HID_FN_ERR.AP_ERR f) 1).updHost (fun h => { h with aer := Tab.upd 0 h.aer f (Nat.lor 0x1000) }))
    else
      match s.localWrite a (data.take n ++ List.replicate (n - data.length) 0) with
      | (s, some _) => .next (s.wr (HID_FN_ERR.AP_ERR f) 1)
      | (s, none) => .next s
  else
    match s.localRead a n with
    | (s, .error _) => .next (s.emit (.readData (.fn f) 0 n true))
    | (s, .ok l) => .next (s.emit (.readData (.fn f) (leNat l) n false))

/-- An endpoint's link retrains (R346, R352): `rate` in units of 2.5 GT/s. -/
def execPcieLinkChange (ep rate width : Nat) (s : State) : Res :=
  if 2 ≤ ep then .next s
  else
    let s := s.updHost (fun h => { h with linkRate := Tab.set 0 h.linkRate ep rate, linkWidth := Tab.set 0 h.linkWidth ep width })
    .next (s.postEvent (8 * ep) 0x0003 31 1 (leBytes 1 rate ++ leBytes 1 width))

/-- VF Enable and NumVFs of an endpoint (R311). -/
def execVfEnable (ep : Nat) (en : Bool) (num : Nat) (s : State) : Res :=
  if 2 ≤ ep then .next s
  else
    let n := min 7 num
    let s := s.updHost (fun h => { h with vfEn := Tab.set 0 h.vfEn ep (b2n en), numVfs := Tab.set 0 h.numVfs ep n })
    .next (forN 7 (fun i s => s.wr (HID_FN_ID.EN (8 * ep + i + 1)) (b2n (en && decide (i + 1 ≤ n)))) s)

/-! ### Data movement -/

/-- The source of a COPY: host bytes, or a read of the local address space. -/
def State.copySource (s : State) (d : Desc) (data : List Byte) : State × Except Nat (List Byte) :=
  let n := d.f 192 40
  if d.f 256 1 = 0 then (s.hostRead d.fn (d.f 64 64) n, .ok (data.take n)) else s.localRead (d.f 64 48) n

/-- COPY (R337, R343); `data` is what host memory holds from SRC on where the source is the host's. -/
def execCopy (k : Nat) (data : List Byte) (s : State) : Res :=
  .next (s.runDesc k 0x01 (fun d s =>
    let n := d.f 192 40
    let dst := d.f 128 48
    let toLocal := decide (d.f 257 1 = 1)
    if d.locals.any (fun e => s.mustWait e.2.1 e.2.2) || (decide (d.f 256 1 = 0) && decide (data.length < n)) then none
    else
      match s.copySource d data with
      | (s, .error a) => some ((if toLocal then s.mixed dst n else s).finishDesc k 8 0 a 0)
      | (s, .ok l) =>
        if toLocal then
          match s.localWrite dst l with
          | (s, some a) => some ((s.mixed dst n).finishDesc k 8 0 a 0)
          | (s, none) => some (s.finishDesc k 0 0 n 0)
        else some ((s.hostWrite d.fn (d.f 128 64) l).finishDesc k 0 0 n 0)))

/-- FILL (R337): byte DST + n takes PATTERN byte n mod 8. -/
def execFill (k : Nat) (s : State) : Res :=
  .next (s.runDesc k 0x02 (fun d s =>
    let n := d.f 128 40
    let dst := d.f 64 48
    let pat := leBytes 8 (d.f 192 64)
    if s.mustWait dst n then none
    else
      match s.localWrite dst ((List.range n).map (fun i => pat.getD (i % 8) 0)) with
      | (s, some a) => some ((s.mixed dst n).finishDesc k 8 0 a 0)
      | (s, none) => some (s.finishDesc k 0 0 n 0)))

/-- CHECK (R337, R636, R637): the value also stands in the serving unit's CKU_RESULT. -/
def execCheck (k : Nat) (s : State) : Res :=
  .next (s.runDesc k 0x03 (fun d s =>
    let n := d.f 128 40
    let a := d.f 64 48
    if s.mustWait a n then none
    else
      match s.localRead a n with
      | (s, .error _) => some (s.finishDesc k 8 0 0 0)
      | (s, .ok l) =>
        let v := crc (d.f 384 7) (d.f 192 64) (d.f 256 64) (d.f 320 64) (decide (d.f 392 1 = 1)) (decide (d.f 393 1 = 1)) l
        some ((s.wr (CKU_RESULT.RESULT (16 + ringDie d.ring)) v).finishDesc k 0 0 v 0)))

/-- FENCE (R341): it completes once every descriptor of its scope that was fetched before it has. Of scope 2, the descriptors that carry its tag are meant, and
not all those of rings on which one does (DESIGN CHOICE, log entry 102). -/
def execFence (k : Nat) (s : State) : Res :=
  .next (s.runDesc k 0x50 (fun d s =>
    let scope := d.f 64 2
    let inScope := fun (e : Desc) =>
      if scope = 0 then decide (e.ring = d.ring) else if scope = 1 then decide (e.fn = d.fn) else decide (e.tag = d.tag)
    if (s.before k).any inScope then none else some (s.finishDesc k 0 0 0 0)))

/-- The host rejects a request (R327, R329, R352). -/
def execHostRequestRejected (q : HostReq) (s : State) : Res :=
  match q with
  | .fetch r => .next (if s.ringOk r && decide (s.rd (RING_CFG.KIND r) = 0) then s.ringError r 2 else s)
  | .data k addr =>
    match s.descOf k with
    | none => .next s
    | some d =>
      if d.op = 0x01 then
        .next (s.runDesc k 0x01 (fun d s =>
          some ((if d.f 257 1 = 1 then s.mixed (d.f 128 48) (d.f 192 40) else s).finishDesc k 8 0 addr 1)))
      else if d.op = 0x31 ∨ d.op = 0x60 ∨ d.op = 0x70 then .next (s.runDesc k d.op (fun _ s => some (s.finishDesc k 8 0 0 0)))
      else .next s
  | .completion k =>
    match s.descOf k with
    | none => .next s
    | some d =>
      if d.st ≠ DescSt.finished || !d.wantsEntry then .next s
      else
        let e := s.entryOf d
        let s := (s.dropDesc k).updHost (fun h => { h with held := h.held ++ [e] })
        .next (if s.ringOk e.cq then s.ringError e.cq 3 else s)
  | .held r => .next (if s.host.rejects.contains r then s else s.updHost (fun h => { h with rejects := h.rejects ++ [r] }))
  | .event f =>
    let n := 2 ^ s.rd (HID_EVT_CFG.LOG2SIZE f)
    let t := s.rd (HID_EVT_TAIL.TAIL f)
    if s.bit (HID_EVT_CFG.EN f) && decide (t ≠ s.rd (HID_EVT_HEAD.HEAD f)) then
      let s := if t = 0 then s.wr (HID_EVT_TAIL.PHASE f) (1 - s.rd (HID_EVT_TAIL.PHASE f)) else s
      let s := (s.wr (HID_EVT_TAIL.TAIL f) ((t + n - 1) % n)).sat (HID_FN_ERR.EVLOST f) 1
      .next (s.updHost (fun h => { h with evtLost := Tab.upd 0 h.evtLost f (· + 1) }))
    else .next s

end Sys2Proof.Machine
end

