-- ==== Sys2Proof/Machine/BulkRows.lean ====
section
/-! DEFINITION. The bulk network's commands: a packet reaches location `at_` (a core's router by the core's ID, ring stop s as 36,864 + s), with `cr`
the free credits by way (R169). A packet moves inside a die within one command. It is taken from the input buffer that it arrived in where it is handled; one
that goes on stays there until it has left (R162). -/

namespace Sys2Proof.Machine

/-- A unicast packet at a location (R169): where its destination is here it is delivered by `f`, or waits where `waits` says so; else it is forwarded, or
dropped. -/
def unicast (loc : Nat) (cr : List Nat) (h : BulkHdr) (body : BulkBody) (waits : State → Nat → Bool) (f : Nat → State → State) (s : State) : State :=
  let hop := s.routeTo loc cr h.dest (laneOf h)
  let wait := match hop with
    | .here l => if waits s l then some l else none
    | _ => none
  s.receive loc h wait (fun s => match hop with
    | .here l => f l (s.took loc h)
    | .out r w => s.leaveBy r w ⟨h, body, s.cameBy loc h⟩
    | .drop => (s.took loc h).undeliverable loc h)

/-- Does a packet for location `l` wait because its core's region sleeps (R172)? -/
def sleeps (s : State) (l : Nat) : Bool := decide (l < 36864) && s.asleep l

/-- A WRITE reaches a router or target (R164 to R167, R169). -/
def execBulkWrite (at_ : Nat) (cr : List Nat) (h : BulkHdr) (data : List Byte) (s : State) : Res :=
  let h := { h with type := 0 }
  .next (unicast at_ cr h (.data data) (fun s l => s.writeWaits l h data.length || (decide (l < 36864) && decide (h.vc ≠ 5) && s.deliverWaits l h)) (fun l s =>
    if l < 36864 ∧ h.vc = 5 then s.takeFirmware (coreDie l) h data
    else if l < 36864 then s.deliver l h data (ackUnicast l h)
    else match stopHub (l - 36864) with
      | some k => s.hubWrite k h data
      | none => s.undeliverable l h) s)

/-- The router of a packet's rectangle that handles it at a location: the location itself where it lies in the rectangle, even where a detour of R169 has
brought the packet in beside the entry core (DESIGN CHOICE, log entry 89: R175 states no other way), or the entry core in this die. -/
def State.treeAt (s : State) (loc : Nat) (cr : List Nat) (h : BulkHdr) : Hop :=
  if loc < 36864 ∧ inRect h loc then .here loc else s.routeTo loc cr (coreAt (entryPos h).1 (entryPos h).2) none

/-- A multicast packet at a location (R175): at a router of its rectangle `f` handles it, or it waits; before that it runs to the entry core. -/
def multicast (loc : Nat) (cr : List Nat) (h : BulkHdr) (data : List Byte) (waits : State → Nat → Bool) (f : Nat → State → State) (s : State) : State :=
  let hop := s.treeAt loc cr h
  let wait := match hop with
    | .here l => if waits s l then some l else none
    | _ => none
  s.receive loc h wait (fun s => match hop with
    | .here c => f c (s.took loc h)
    | .out r w => s.leaveBy r w ⟨h, .data data, s.cameBy loc h⟩
    | .drop => (s.took loc h).undeliverable loc h)

/-- Copies of a packet go down a router's branches (R175). -/
def State.copies (s : State) (r : Nat) (dirs : List Nat) (h : BulkHdr) (data : List Byte) : State :=
  forL dirs (fun d s => s.leave r (stepWay r d) h data) s

/-- MC_WRITE (R175 to R177): a copy into the router's own core, whose ACK the tree entry merges, and one down each branch; it waits for its core
whole. -/
def execMcWrite (at_ : Nat) (cr : List Nat) (h : BulkHdr) (data : List Byte) (s : State) : Res :=
  let h := { h with type := 1 }
  .next (multicast at_ cr h data (fun s r => ((s.router r).treeEnt h.srcCode h.tag).isSome && s.deliverWaits r h) (fun r s =>
    match (s.router r).treeEnt h.srcCode h.tag with
    | none => s
    | some e =>
      let s := s.copies r e.branches h data
      s.deliver r h data (fun st s => match (s.router r).treeEnt h.srcCode h.tag with
        | some e => s.treeAck r e st
        | none => s)) s)

/-- MC_OPEN (R176): the router takes an entry and opens its branches, or refuses for its subtree. -/
def execMcOpen (at_ : Nat) (cr : List Nat) (h : BulkHdr) (s : State) : Res :=
  let h := { h with type := 2 }
  .next (multicast at_ cr h [] (fun _ _ => false) (fun r s =>
    let dirs := treeDirs h r
    let e : TreeEnt :=
      { src := h.srcCode, tag := h.tag, branches := dirs, up := (treeUp h r).getD 4, opens := dirs.length, acks := dirs.length + 1, status := 0 }
    if 32 ≤ (s.router r).tree.length then
      (s.hcount (CD_MC_REFUSE.COUNT (coreDie r)) (CD_NET_ERR.MC_SAT (coreDie r)) 1).sendUp r e 3 6
    else
      let s := s.updRouter r (fun x => { x with tree := x.tree ++ [e] })
      if dirs.isEmpty then s.sendUp r e 3 0 else s.copies r dirs h []) s)

/-- The answer to one piece's MC_OPEN reaches the engine (R176): accepted, or closed and served by meld pull. -/
def State.pieceAnswer (s : State) (c tag status : Nat) : State :=
  match (s.core c).streamOf tag with
  | none => s
  | some x =>
    match x.xfers.find? (fun f => decide (f.tag = tag)) with
    | some (.opening _ r) =>
      let base := (s.task c x.slot).tbase
      let s :=
        if status = 0 then
          s.updStream c x.id (fun x => { x with xfers := x.xfers.map (fun f => if f.tag = tag then .piece tag r else f) })
        else
          let s := s.updStream c x.id (fun x => { x with xfers := x.xfers.filter (fun f => decide (f.tag ≠ tag)) })
          let s := s.inject c ({ hdr0 with type := 0xC, tag := tag }.rect r) []
          forL r.cores (fun q s => s.sendPull c x.id x.d base q) s
      match (s.core c).streams.find? (fun y => decide (y.id = x.id)) with
      | some y => s.sendPieces c y base
      | none => s
    | _ => s

/-- MC_OPEN_RSP (R176): merged at a router of the tree, else on its way to the source. -/
def execMcOpenRsp (at_ : Nat) (cr : List Nat) (h : BulkHdr) (s : State) : Res :=
  let h := { h with type := 3 }
  let src := (if h.dkind = 1 then h.x0 + 65536 else h.x0 + 256 * h.y0)
  let ent := if at_ < 36864 then ((s.router at_).treeEnt src h.tag).filter (fun e => decide (0 < e.opens)) else none
  match ent with
  | some e => .next (s.receive at_ h none (fun s => (s.took at_ h).treeOpen at_ e h.status))
  | none => .next (unicast at_ cr h (.data []) sleeps (fun l s => if 36864 ≤ l then s.hubAnswer l h else s.pieceAnswer l h.tag h.status) s)

/-- MC_CLOSE (R176): the entry is released, and its branches are closed. -/
def execMcClose (at_ : Nat) (cr : List Nat) (h : BulkHdr) (s : State) : Res :=
  let h := { h with type := 0xC }
  .next (multicast at_ cr h [] (fun _ _ => false) (fun r s =>
    match (s.router r).treeEnt h.srcCode h.tag with
    | some e => (s.dropTree r e.src e.tag).copies r e.branches h []
    | none => s) s)

/-- READ_REQ (R181, R240). -/
def execBulkReadReq (at_ : Nat) (cr : List Nat) (h : BulkHdr) (s : State) : Res :=
  let h := { h with type := 4 }
  .next (unicast at_ cr h (.data []) (fun s l => s.readWaits l h) (fun l s =>
    if l < 36864 then s.coreReadReq l h
    else match stopHub (l - 36864) with
      | some k => s.hubReadReq k h
      | none => s.undeliverable l h) s)

/-- READ_RSP (R165): its data is written at the requester. -/
def execBulkReadRsp (at_ : Nat) (cr : List Nat) (h : BulkHdr) (data : List Byte) (s : State) : Res :=
  let h := { h with type := 5 }
  .next (unicast at_ cr h (.data data) sleeps (fun l s => if 36864 ≤ l then s.atStop l h data else s.gotData l h.tag data) s)

/-- MELD_RSP (R182): the list is divided by next direction, and the data written at the requesters of this die; it waits where they sleep (R172); for a
requester that no table leads to, an ERROR with its TAG goes back (R169). -/
def execMeldRsp (at_ : Nat) (cr : List Nat) (h : BulkHdr) (l : List MeldEnt) (data : List Byte) (s : State) : Res :=
  let h := { h with type := 6, dkind := 3 }
  let hops := l.map (fun e => (e, s.routeTo at_ cr (coreAt e.x e.y) none))
  let outs := (hops.filterMap (fun p => match p.2 with
    | .out r w => some (r, w)
    | _ => none)).dedup
  let wait := hops.findSome? (fun p => match p.2 with
    | .here c => if s.asleep c then some c else none
    | _ => none)
  .next (s.receive at_ h wait (fun s =>
    let s := forL hops (fun p s => match p.2 with
      | .here c => s.gotData c p.1.tag data
      | .drop => s.undeliverable at_ { h with tag := p.1.tag }
      | _ => s) (s.took at_ h)
    forL outs (fun o s =>
      let sub := (hops.filter (fun p => decide (p.2 = .out o.1 o.2))).map (fun p => p.1)
      s.leaveBy o.1 o.2 ⟨{ h with x0 := sub.length }, .meld sub data, none⟩) s))

/-- The READ_REQs of a pull (R180): row by row, at most 1,024 bytes, HOLD and ABS; from a hub by store address. -/
def State.startPull (s : State) (c : Nat) (p : PullEnt) : State :=
  let t := s.task c p.d.slot
  let rows := (List.range p.d.rowCount).flatMap (fun r => (cutRow p.h.sperim (p.h.addr + r * p.d.lstride) p.d.rowBytes).map (fun q => (r, q)))
  let go := fun (st : State × List Xfer) (e : Nat × Nat × Nat) =>
    let (tag, s) := st.1.takeTag c
    let h := { hdr0 with type := 4, hold := true, abs_ := true, plen := e.2.2, tag := tag }
    let h := { h with addr := (if p.h.sperim then p.h.addr else p.d.localOff) + e.1 * p.d.lstride + e.2.1 }
    let h := if p.h.sperim then { h with abs_ := false } else h
    (s.inject c (h.dst p.h.from_) [], st.2 ++ [Xfer.read tag p.h.from_ (t.tbase + p.d.roff + e.1 * p.d.rstride + e.2.1) e.2.2])
  let (s, reads) := rows.foldl go (s, [])
  s.updCore c (fun k => { k with pulls := k.pulls ++ [{ p with reads := reads }] })

/-- PULL (R135, R180): the target checks its own side and reads. -/
def execPull (at_ : Nat) (cr : List Nat) (h : BulkHdr) (d : StreamDesc) (s : State) : Res :=
  let h := { h with type := 7 }
  .next (unicast at_ cr h (.pull d)
    (fun s l => decide (l < 36864) && (s.asleep l || (decide (d.rcntEn = 1) && decide (64 ≤ (s.core l).trkUsed) && !(s.core l).fenced)))
    (fun l s =>
      if 36864 ≤ l then s.undeliverable l h
      else
        let p : PullEnt := { h := h, d := d, reads := [] }
        let st := s.targetStatus l p.hdr d.roff (span d.rowCount d.rstride d.rowBytes)
        if st ≠ 0 then s.answer l h 8 st 0 else s.startPull l p) s)

/-- The contributors of a lane entry receive its ACK, and the entry is free (R208). -/
def State.laneAck (s : State) (r idx status scode : Nat) : State :=
  match (s.router r).lanes.find? (fun e => decide (e.idx = idx)) with
  | none => s
  | some e =>
    let s := forL e.by_ (fun q s =>
      s.inject r ({ hdr0 with type := 8, vc := 3, status := status, scode := scode, tag := q.tag }.dst (coreAt q.sx q.sy)) []) s
    s.updRouter r (fun x => { x with lanes := x.lanes.filter (fun y => decide (y.idx ≠ idx)) })

/-- An ACK or ERROR at a location: merged by a tree entry, taken by a lane entry, or delivered to the sender (R167, R176, R208). -/
def State.ackAt (s : State) (at_ : Nat) (cr : List Nat) (h : BulkHdr) : State :=
  let src := (if h.dkind = 1 then h.x0 + 65536 else h.x0 + 256 * h.y0)
  let ent := if at_ < 36864 ∧ h.type = 8 then (s.router at_).treeEnt src h.tag else none
  match ent with
  | some e => s.receive at_ h none (fun s => (s.took at_ h).treeAck at_ e h.status)
  | none =>
    unicast at_ cr h (.data []) (fun s l => decide (h.tag < 0xFFF0) && sleeps s l) (fun l s =>
      if 36864 ≤ l then s.atStop l h []
      else if 0xFFF0 ≤ h.tag then s.laneAck l (h.tag - 0xFFF0) h.status h.scode
      else s.gotAck l h.tag h.status h.scode) s

/-- ACK (R167). -/
def execBulkAck (at_ : Nat) (cr : List Nat) (h : BulkHdr) (s : State) : Res := .next (s.ackAt at_ cr { h with type := 8 })

/-- ERROR (R166, R169, R235). -/
def execBulkError (at_ : Nat) (cr : List Nat) (h : BulkHdr) (s : State) : Res := .next (s.ackAt at_ cr { h with type := 0xB })

/-- A read-queue entry held for a meld is served (R181, R240); one of a sleeping core waits, and one of a stack that trains (R257). -/
def execMeldHoldExpiry (c addr len : Nat) (s : State) : Res :=
  let pick := fun (e : RdEnt) => e.hold && !e.dead && decide (e.addr = addr) && decide (e.len = len)
  if c < 36864 then
    if s.asleep c then .next s else
    match (s.router c).readQ.find? pick with
    | some e => .next ((s.updRouter c (fun x => { x with readQ := removeFirst pick x.readQ })).serveCore c e)
    | none => .next s
  else
    match stopHub (c - 36864) with
    | some k =>
      let q := Tab.get [] s.store.readQ k
      match q.find? pick with
      | some e => if (s.heldBy e.addr e.len).isSome then .next s else .next (({ s with store := { s.store with readQ := Tab.set [] s.store.readQ k (removeFirst pick q) } }).serveHub k e)
      | none => .next s
    | none => .next s

/-! ### Reductions -/

/-- Do two RSEND packets match (R205)? -/
def sameReduce (a b : BulkHdr) : Bool :=
  decide (a.x0 = b.x0) && decide (a.y0 = b.y0) && decide (a.slot = b.slot) && decide (a.abs_ = b.abs_) && decide (a.toff = b.toff) &&
    decide (a.soff = b.soff) && decide (a.plen = b.plen) && decide (a.op = b.op) && decide (a.cnt = b.cnt) && decide (a.cntEn = b.cntEn)

/-- An RSEND packet reaches its target's window (R202, R203): checked, combined, counted, acknowledged. -/
def State.reduceInto (s : State) (c : Nat) (h : BulkHdr) (data : List Byte) : State :=
  let st := s.targetStatus c h (h.toff + h.soff) data.length
  if st ≠ 0 then s.answer c h 8 st 0
  else
    let a := (s.reachOf c h).1 + h.toff + h.soff
    let wait := fun (s : State) => s.updCore c (fun k =>
      { k with tracker := k.tracker ++ [{ src := h.srcCode, tag := h.tag, got := 0, cnt := false, bad := true, acked := false }] })
    match s.spRead c a data.length with
    | (s, .error _) => wait s
    | (s, .ok old) =>
      match s.spWrite c a (redCombine h.op data.length old data) with
      | (s, some _) => wait s
      | (s, none) => ((s.perf c 10 data.length).remoteInc c h h.inc).answer c h 8 0 0

/-- A packet leaves a lane point by its way: into its target's core, or out of the die. -/
def State.reduceOut (s : State) (r way : Nat) (h : BulkHdr) (data : List Byte) : State :=
  if way = 9 then s.reduceInto r h data else s.leave r way h data

/-- A lane entry's packet leaves: under the router's name where it has several contributors, unchanged and its entry freed where it has one
(R207). -/
def State.laneOut (s : State) (r : Nat) (e : LaneEnt) : State :=
  match e.held with
  | none => s
  | some (h, data) =>
    if 1 < e.by_.length then
      let s := s.updRouter r (fun x => { x with lanes := updFirst (fun y => decide (y.idx = e.idx)) (fun y => { y with held := none }) x.lanes })
      s.reduceOut r e.way { h with sx := coreX r, sy := coreY r, sperim := false, tag := 0xFFF0 + e.idx } data
    else
      let s := s.updRouter r (fun x => { x with lanes := x.lanes.filter (fun y => decide (y.idx ≠ e.idx)) })
      s.reduceOut r e.way h data

/-- An RSEND packet at a hold point: combined with a matching held one, held, or forwarded (R205, R206). -/
def State.laneIn (s : State) (r way : Nat) (h : BulkHdr) (data : List Byte) : State :=
  let d := coreDie r
  if s.bit (CD_RED_CTL.DIS d) then s.reduceOut r way h data
  else
    let fits := fun (e : LaneEnt) => match e.held with
      | some (g, _) => decide (e.way = way) && sameReduce g h && decide (g.inc + h.inc ≤ 0xFFFF) && decide (e.by_.length < 8)
      | none => false
    match (s.router r).lanes.find? fits with
    | some e =>
      match e.held with
      | some (g, old) =>
        let e' : LaneEnt :=
          { e with held := some ({ g with inc := g.inc + h.inc }, redCombine h.op data.length old data), by_ := e.by_ ++ [⟨h.sx, h.sy, h.tag⟩] }
        let s := s.updRouter r (fun x => { x with lanes := updFirst (fun y => decide (y.idx = e.idx)) (fun _ => e') x.lanes })
        let s := s.sat (CD_RED_COMB.COUNT d) 1
        if 8 ≤ e'.by_.length then s.laneOut r e' else s
      | none => s
    | none =>
      if s.rd (CD_RED_CTL.HOLD d) = 0 then s.reduceOut r way h data
      else
        match (List.range 16).find? (fun i => !((s.router r).lanes.any (fun e => decide (e.idx = i)))) with
        | some i =>
          let e : LaneEnt := { idx := i, way := way, held := some (h, data), by_ := [⟨h.sx, h.sy, h.tag⟩] }
          s.updRouter r (fun x => { x with lanes := x.lanes ++ [e] })
        | none => (s.sat (CD_RED_NOENT.COUNT d) 1).reduceOut r way h data

/-- An RSEND packet reaches a router (R202 to R207): it is held before it leaves a die by a seam, skip path or edge link, and at its target's router. -/
def execRsendPacket (at_ : Nat) (cr : List Nat) (h : BulkHdr) (data : List Byte) (s : State) : Res :=
  let h := { h with type := 9 }
  match s.routeTo at_ cr h.dest none with
  | .out r w =>
    if r < 36864 ∧ w < 8 then .next (s.receive at_ h none (fun s => (s.took at_ h).laneIn r w h data))
    else .next (unicast at_ cr h (.data data) (fun _ _ => false) (fun _ s => s) s)
  | _ => .next (unicast at_ cr h (.data data) sleeps (fun l s => if 36864 ≤ l then s.undeliverable l h else s.laneIn l 9 h data) s)

/-- A held RSEND packet's time ends (R206). -/
def execRsendHoldExpiry (at_ ent : Nat) (s : State) : Res :=
  match (s.router at_).lanes.find? (fun e => decide (e.idx = ent) && e.held.isSome) with
  | some e => if e.way = 9 ∧ s.asleep at_ = true then .next s else .next (s.laneOut at_ e)
  | none => .next s

/-- What a fenced core still owes: FOLDED to every transfer it has not acknowledged, to held contributions, to waiting readers, and to the
sources of its pulls (R132, R155, R177, R222). -/
def State.fenceAnswers (s : State) (c : Nat) : State :=
  let trk := (s.core c).tracker.filter (fun e => !e.acked)
  let s := s.updCore c (fun k => { k with tracker := k.tracker.map (fun e => { e with bad := true, acked := true }) })
  let s := forL trk (fun e s => match (s.router c).treeEnt e.src e.tag with
    | some t => s.treeAck c t 1
    | none => s.inject c ({ hdr0 with type := 8, vc := 3, status := 1, tag := e.tag }.dst (codeLoc e.src)) []) s
  let s := forL (s.core c).pulls (fun p s => s.endPull c p 1 0) s
  let rq := (s.router c).readQ
  let s := s.updRouter c (fun x => { x with readQ := [] })
  let s := forL rq (fun e s => s.readFail c e.reqs 1 0) s
  let own := (s.router c).lanes.filter (fun e => decide (e.way = 9) && e.held.isSome)
  forL own (fun e s => s.laneAck c e.idx 1 0) s

/-! ### The perimeter ring -/

/-- A ring packet at a stop (R21): it has come over its segment. -/
def execRingPacket (stop : Nat) (p : RingPkt) (s : State) : Res :=
  let s := s.updNet (fun n => { n with ring := removeFirst (fun x => decide (x.next = stop) && decide (x.p = p)) n.ring })
  .next (if p.dst = stop then s.emit (.ringEnd stop p) else s.ringOn stop p)

/-- A detoured ring packet (R22, R170): at its stop it is delivered there. -/
def execRingDetour (at_ : Nat) (cr : List Nat) (h : BulkHdr) (p : RingPkt) (s : State) : Res :=
  .next (unicast at_ cr { h with type := 0xA } (.data p.body) (fun _ _ => false)
    (fun l s => if l = stopAt p.dst then s.emit (.ringEnd p.dst p) else s.ringOn (l - 36864) p) s)

/-- A stop or a segment is marked broken (R22). -/
def execRingBreak (seg : Bool) (i : Nat) (s : State) : Res := .next (if seg then s.breakSeg i else s.breakStop i)

/-- A retrained stop's broken mark is cleared by the active steward, once its unit is back in service (R22). -/
def execRingStopReturn (stop : Nat) (s : State) : Res :=
  .next (if s.bit GLB_STW_STAT.LOST_BOTH || !s.perimIn (144 + stop) then s else s.updNet (fun n => { n with brkStops := n.brkStops.filter (fun x => decide (x ≠ stop)) }))

end Sys2Proof.Machine
end

