-- ==== Sys2Proof/Machine/Hazard.lean ====
section
/-! DEFINITION. Loads and stores in program order (R57, R58). -/

namespace Sys2Proof.Machine

/-- A load of `n` bytes at offset `o t`, naturally aligned, put into the task by `put` (R57, R40 to R42, R58, R132). -/
def loadAt (c n : Nat) (bad : List (Bool × TrapReq)) (o : Task → Nat) (put : Task → Nat → Task) (s : State) : Res :=
  .next (s.runInstr c 4 (fun t => firstBad (bad ++ t.accessBad (o t) n n)) (fun i s =>
    let t := s.task c i
    if (s.core c).toWrite i (o t) n then .stall s
    else
      match s.spRead c (t.tbase + o t) n with
      | (s, .error b) => .trap s ⟨4, b, 0, some (o t)⟩
      | (s, .ok l) => .go (s.updTask c i (fun t => put t (leNat l)))))

/-- A store of `n` bytes of value `v t` at offset `o t` (R57, R40 to R42, R58, R130, R132). -/
def storeAt (c n : Nat) (bad : List (Bool × TrapReq)) (o v : Task → Nat) (s : State) : Res :=
  .next (s.runInstr c 4 (fun t => firstBad (bad ++ t.accessBad (o t) n n)) (fun i s =>
    let t := s.task c i
    if (s.core c).toWrite i (o t) n || (s.core c).toRead i (o t) n then .stall s
    else
      match s.spWrite c (t.tbase + o t) (leBytes n (v t)) with
      | (s, some b) => .trap s ⟨4, b, 0, some (o t)⟩
      | (s, none) => .go s))

end Sys2Proof.Machine
end

