-- ==== Sys2Proof/Machine/System.lean ====
section
/-! DEFINITION. Counters and waits (R61, R62), barriers (R74, R75), system instructions (R48, R76, R77), reserved opcodes (R49), and the core's
own events: asynchronous traps (R69), the commit barrier (R37), stuck tasks (R38), trap records (R86), the scrubber and block modes
(R127, R133). -/

namespace Sys2Proof.Machine

/-! ### Counters -/

/-- The operand of format W: IMM16, or g[GS] where S = 1 (R54). -/
def Task.wOperand (t : Task) (sf : BitVec 1) (imm : BitVec 16) : W32 :=
  if sf = 0 then imm.setWidth 32 else t.rg (imm.extractLsb' 11 5)

/-- Bits [10:0] must be zero where S = 1 (R54). -/
def wBad (sf : BitVec 1) (imm : BitVec 16) : Bool × TrapReq := (decide (sf = 1) && decide (imm.toNat % 2048 ≠ 0), illegal 2)

/-- WAIT.GE (R61, R34). -/
def execWaitGe (c : Nat) (cidx : BitVec 6) (sf : BitVec 1) (imm : BitVec 16) (s : State) : Res :=
  .next (s.runInstr c 4 (fun t => firstBad [wBad sf imm, t.counterBad cidx.toNat]) (fun i s =>
    let t := s.task c i
    let n := t.counterOf cidx.toNat
    let v := t.wOperand sf imm
    if v.toNat ≤ (Tab.get (0 : W32) (s.core c).counters n).toNat then .go s else .wait s (.counter n v)))

/-- CNT.ADD (R62), a release of the task's earlier writes (R144). -/
def execCntAdd (c : Nat) (cidx : BitVec 6) (sf : BitVec 1) (imm : BitVec 16) (s : State) : Res :=
  .next (s.runInstr c 4 (fun t => firstBad [wBad sf imm, t.counterBad cidx.toNat]) (fun i s =>
    let t := s.task c i
    if (s.core c).writing i then .stall s else
    .go (s.cntAdd c (t.counterOf cidx.toNat) (t.wOperand sf imm).toNat)))

/-- CNT.SET (R62), a release of the task's earlier writes (R144). -/
def execCntSet (c : Nat) (cidx : BitVec 6) (sf : BitVec 1) (imm : BitVec 16) (s : State) : Res :=
  .next (s.runInstr c 4 (fun t => firstBad [wBad sf imm, t.counterBad cidx.toNat]) (fun i s =>
    let t := s.task c i
    if (s.core c).writing i then .stall s else
    .go (s.cntSet c (t.counterOf cidx.toNat) (t.wOperand sf imm))))

/-- CNT.RD (R62): S must be 1; the counter goes into g[GS]. -/
def execCntRd (c : Nat) (cidx : BitVec 6) (sf : BitVec 1) (imm : BitVec 16) (s : State) : Res :=
  .next (s.runInstr c 4 (fun t => firstBad [wBad sf imm, (decide (sf = 0), illegal 7), t.counterBad cidx.toNat]) (fun i s =>
    let t := s.task c i
    let v := Tab.get (0 : W32) (s.core c).counters (t.counterOf cidx.toNat)
    .go (s.updTask c i (fun t => t.wg (imm.extractLsb' 11 5) v))))

/-! ### Barriers -/

/-- The checks of a SYNC instruction (R54, R75, R680). -/
def Task.syncBad (t : Task) (ch : BitVec 3) (rsv : BitVec 20) : Option TrapReq :=
  firstBad [(decide (rsv ≠ 0), illegal 2), (decide (ch = 7), illegal 5), (!bitOf t.barmask ch.toNat, illegal 7)]

/-- SYNC.ARRIVE (R74, R34), a release of the task's earlier writes (R215): a second arrival at an unreleased phase waits for its release. -/
def execSyncArrive (c : Nat) (ch : BitVec 3) (rsv : BitVec 20) (s : State) : Res :=
  .next (s.runInstr c 4 (fun t => t.syncBad ch rsv) (fun i s =>
    let t := s.task c i
    let b := ch.toNat
    if bitOf t.arrived b then .wait s (.arrive b)
    else if (s.core c).writing i then .stall s
    else .go ((s.updTask c i (fun t => { t with arrived := setBits t.arrived b 1 1, since := setBits t.since b 1 1 })).tryArrive c b)))

/-- SYNC.WAIT (R74). -/
def execSyncWait (c : Nat) (ch : BitVec 3) (rsv : BitVec 20) (s : State) : Res :=
  .next (s.runInstr c 4 (fun t => t.syncBad ch rsv) (fun i s =>
    let t := s.task c i
    let b := ch.toNat
    if bitOf t.since b && bitOf t.arrived b then .wait s (.phase b)
    else .go (s.updTask c i (fun t => { t with since := setBits t.since b 1 0 }))))

/-! ### System instructions -/

/-- NOP (R76). -/
def execNop (c : Nat) (rd ra rb : BitVec 5) (s : State) : Res :=
  let _ := (rd, ra, rb)
  .next (s.runInstr c 4 (fun _ => none) (fun _ s => .go s))

/-- The value of a task status register (R48); CYCLE_LO and PTIME_LO are read by SYS.RD itself. -/
def Task.tsr (t : Task) (i n : Nat) : W32 :=
  match n with
  | 0x00 => BitVec.ofNat 32 (t.vx + t.vy * 2 ^ 8 + i * 2 ^ 16)
  | 0x01 => BitVec.ofNat 32 t.tbase
  | 0x02 => BitVec.ofNat 32 t.tbound
  | 0x03 => BitVec.ofNat 32 t.tcbase
  | 0x04 => BitVec.ofNat 32 t.tccount
  | 0x05 => BitVec.ofNat 32 (b2n t.linear + b2n t.mx * 2 + t.barmask * 2 ^ 8)
  | 0x06 => t.fflags.setWidth 32
  | 0x07 => t.seedLo
  | 0x08 => t.seedHi
  | 0x0A => t.cycleHi
  | 0x0C => t.ptimeHi
  | 0x0D => t.layer
  | _ => 0

/-- SYS.RD (R48, R76): TSR number RA into g[RD]; the reads of CYCLE_LO and PTIME_LO latch the high words. How far the cycle counter
has advanced is a free value (log entry 4), since cycles are not modelled. -/
def execSysRd (c : Nat) (rd ra rb : BitVec 5) (s : State) : Res :=
  let _ := rb
  .next (s.runInstr c 4 (fun _ => firstBad [(decide (0x0E ≤ ra.toNat), illegal 1)]) (fun i s =>
    if ra.toNat = 0x09 then
      let (n, s) := s.draw
      let cy := (s.core c).cycle + BitVec.ofNat 64 n
      let s := s.updCore c (fun k => { k with cycle := cy })
      .go (s.updTask c i (fun t => { t with cycleHi := (cy >>> 32).setWidth 32 }.wg rd (cy.setWidth 32)))
    else if ra.toNat = 0x0B then
      let hi := BitVec.ofNat 32 (s.dieTime (coreDie c) / 2 ^ 32)
      let lo := BitVec.ofNat 32 (s.dieTime (coreDie c))
      .go (s.updTask c i (fun t => { t with ptimeHi := hi }.wg rd lo))
    else .go (s.updTask c i (fun t => t.wg rd (t.tsr i ra.toNat)))))

/-- A TSR after a write of a task (R48): writing SEED restarts n of R116. -/
def Task.wTsr (t : Task) (n : Nat) (v : W32) : Task :=
  match n with
  | 0x06 => { t with fflags := v.setWidth 6 }
  | 0x07 => { t with seedLo := v, srN := 0 }
  | 0x08 => { t with seedHi := v, srN := 0 }
  | _ => t

/-- SYS.WR (R48, R76): TSR number RD takes g[RA]; an RO TSR is detail 3. -/
def execSysWr (c : Nat) (rd ra rb : BitVec 5) (s : State) : Res :=
  let _ := rb
  let n := rd.toNat
  .next (s.runInstr c 4 (fun _ => firstBad [(decide (0x0E ≤ n), illegal 1), (decide (n < 6) || decide (8 < n), illegal 3)])
    (onTask c (fun t => t.wTsr n (t.rg ra))))

/-- FENCE.I (R46, R58): later fetches see every earlier write of the task, so it waits for those of its tile moves and streams and empties the loop
buffer. -/
def execFenceI (c : Nat) (rd ra rb : BitVec 5) (s : State) : Res :=
  let _ := (rd, ra, rb)
  .next (s.runInstr c 4 (fun _ => none) (fun i s =>
    if (s.core c).unwritten i then .stall s else .go (s.updCore c (fun k => { k with lbuf := [] }))))

/-- END (R76, R77): the task is DONE; RA must be zero. -/
def execTaskEnd (c : Nat) (ra : BitVec 5) (imm : BitVec 16) (s : State) : Res :=
  let _ := imm
  .next (s.runInstr c 4 (fun _ => firstBad [(decide (ra ≠ 0), illegal 2)]) (fun _ s => .stop s))

/-- TRAP (R76): cause USER, code IMM16; RA must be zero. -/
def execTrap (c : Nat) (ra : BitVec 5) (imm : BitVec 16) (s : State) : Res :=
  .next (s.runInstr c 4 (fun _ => firstBad [(decide (ra ≠ 0), illegal 2)]) (fun _ s => .trap s ⟨7, 0, imm.toNat, none⟩))

/-- A reserved or illegal word is executed (R49, R680): ILLEGAL. Opcodes 0x36 and 0x37 are long form (R45). -/
def execReservedOpcode (c : Nat) (w : BitVec 64) (s : State) : Res :=
  let size := if longForm w then 8 else 4
  .next (match reservedDetail w with
    | some d => s.runInstr c size (fun _ => some (illegal d)) (fun _ s => .go s)
    | none => s)

/-! ### Core events -/

/-- An asynchronous trap takes effect at the boundary of a task that is RUNNING, READY, WAITING or DONE (R69, R83). -/
def execAsyncTrap (c slot : Nat) (s : State) : Res :=
  match (s.core c).async.find? (fun a => decide (a.slot = slot)) with
  | none => .next s
  | some a =>
    let s := s.updCore c (fun k => { k with async := removeFirst (fun x => decide (x.slot = slot)) k.async })
    let t := s.task c slot
    if t.st = .empty then .next s
    else if t.st = .trapped then
      .next (s.hcount (CD_HLTH_STRERR.COUNT (coreDie c) (coreN c)) (CD_HLTH_STAT.STRERR_SAT (coreDie c) (coreN c)) 1)
    else .next (((s.trapAs c slot a.tr).startStreams c).resched c)

/-- Is a core done (R37): a task loaded, every loaded slot DONE, matrix queue, streams and messages complete, none of them failed with its trap still to
be taken (R83), and its commit copy in the store (R132, R291)? -/
def State.coreIsDone (s : State) (c : Nat) : Bool :=
  let k := s.core c
  let l := k.tasks.filter (fun e => e.2.loaded)
  let copyOpen := match s.partOfCore c with
    | some p => (match (s.part p).run with
      | some r => r.copyDue && (s.placedCores p).contains c && !r.copied.contains c
      | none => false)
    | none => false
  !l.isEmpty && l.all (fun e => decide (e.2.st = .done)) && k.work.isEmpty && k.streams.isEmpty && k.msgs.isEmpty &&
    k.async.isEmpty && decide (k.copies = 0) && !k.copyBad && !copyOpen

/-- A core that is done arrives on channel 7, the commit barrier (R37). -/
def execCoreDone (c : Nat) (s : State) : Res :=
  let k := s.core c
  if s.coreIsDone c && !k.doneArr && !k.fenced then
    .next ((s.updCore c (fun k => { k with doneArr := true })).arriveCore c 7)
  else .next s

/-- The die manager declares a task stuck that is RUNNING, or WAITING with its condition satisfied: a core fault, code 0x04 (R38, R547). -/
def execStuckTask (c slot : Nat) (s : State) : Res :=
  let t := s.task c slot
  if (t.st = .running ∨ (t.st = .waiting ∧ (s.core c).waitOver t = true)) ∧ (s.core c).fenced = false then .next (s.coreFault c 4) else .next s

/-- Firmware clears CD_CORE_TRAP.VALID; the record of the lowest other slot that is TRAPPED with its record unread is loaded (R83, R86). -/
def execTrapValidClear (c : Nat) (s : State) : Res :=
  let d := coreDie c
  let n := coreN c
  let s := (s.wr (CD_CORE_TRAP.VALID d n) 0).wr (CD_CORE_TRAP.MULTI d n) 0
  let unread := (List.range 4).filter (fun i => decide ((s.task c i).st = .trapped) && (s.task c i).trap.isSome)
  match unread with
  | [] => .next s
  | i :: rest =>
    match (s.task c i).trap with
    | none => .next s
    | some r =>
      let s := (s.updTask c i (fun t => { t with trap := none })).showTrap c i r
      .next (s.wr (CD_CORE_TRAP.MULTI d n) (b2n !rest.isEmpty))

/-- A memory error of a core's scratchpad, or of an arrival counter where the address lies at 0x3_0000 + 4 × index of its window. -/
def State.coreUpset (s : State) (c : Nat) (u : Upset) : State :=
  let o := u.addr - winBase c
  if o < 0x30000 then s.upset u.addr u.multi
  else if o < 0x30100 then s.noteCounter c ((o - 0x30000) / 4) u.multi
  else s

/-- The scrubber reads its next line, while the cluster clock runs (R131 to R133); `upsets` are the errors the arrays have suffered. -/
def execScrubTick (c : Nat) (upsets : List Upset) (s : State) : Res :=
  let s := forL (upsets.filter (fun u => inRange u.addr (winBase c) 0x40000)) (fun u s => s.coreUpset c u) s
  let r := regionOf (coreDie c)
  if s.rgnState r ≤ 1 ∧ s.bit (RGN_PWR_STAT.CLAMPED r) = false then
    let l := (s.core c).scrub
    let (s, _) := s.spCheck c (64 * l) 64
    .next (s.updCore c (fun k => { k with scrub := (l + 1) % 3072 }))
  else .next s

/-- Is any slot READY, RUNNING or WAITING (R127)? -/
def Core.active (k : Core) : Bool :=
  k.tasks.any (fun e => decide (e.2.st = .ready) || decide (e.2.st = .running) || decide (e.2.st = .waiting))

/-- The contents of a 1 KiB block become unspecified: free values (R127, log entry 4). -/
def State.scramble (s : State) (c b : Nat) : State := s.openRange (winBase c + 1024 * b) (winBase c + 1024 * b + 1024)

/-- A write of CD_SP_LINMAPk: the contents of every block whose mode changes become unspecified (R127). -/
def State.linmap (s : State) (c k : Nat) (v : Nat) : State :=
  let f := CD_SP_LINMAP.LINEAR (coreDie c) (coreN c) k
  let o := s.rd f
  forN 32 (fun j s => if bitOf o j = bitOf v j then s else s.scramble c (32 * k + j)) (s.wr f v)

/-- A write of CD_SP_LINMAPk, ignored while a slot is READY, RUNNING or WAITING (R127). -/
def execSpLinmapWrite (c k : Nat) (v : W32) (s : State) : Res :=
  if (s.core c).active || s.dieAbsent (coreDie c) then .next s else .next (s.linmap c k v.toNat)

/-- CE_CLR (R153). -/
def execSpCeClr (c : Nat) (s : State) : Res :=
  if s.dieAbsent (coreDie c) then .next s
  else .next ((s.wr (CD_SP_CE.COUNT (coreDie c) (coreN c)) 0).wr (CD_SP_STAT.CE_SAT (coreDie c) (coreN c)) 0)

end Sys2Proof.Machine
end

