-- ==== Sys2Proof/Machine/Dealer.lean ====
section
/-! DEFINITION. The dealer (R269 to R304): kernel objects, placements, the start of a layer, weight streams, commit copies and the time limit; the
dealer's packets (R188); shuffle (R303, R304, R520). -/

namespace Sys2Proof.Machine

/-! ### What the dealer reads -/

/-- `n` bytes of the local address space as the dealer reads them, or the status of the store. -/
def State.dealerRead (s : State) (a n : Nat) : State × Except Nat (List Byte) :=
  if n = 0 then (s, .ok [])
  else if s.placeOf a n = .store then s.storeRead a n
  else
    match s.localRead a n with
    | (s, .error _) => (s, .error 8)
    | (s, .ok l) => (s, .ok l)

/-- Bytes written into a core's scratchpad; a fenced core takes none. -/
def State.dealerWrite (s : State) (c a : Nat) (l : List Byte) : State := if (s.core c).fenced then s else (s.spWrite c a l).1

/-! ### Recovery's bookkeeping -/

/-- A recovery begins: GEN becomes odd before anything changes (R571). -/
def State.beginRecovery (s : State) (cls : Nat) : State :=
  let s := if s.rd GLB_RCV_GEN.GEN % 2 = 0 then s.wr GLB_RCV_GEN.GEN ((s.rd GLB_RCV_GEN.GEN + 1) % 2 ^ 32) else s
  let s := (s.wr GLB_RCV_STAT.ACTIVE 1).wr GLB_RCV_STAT.CLASS cls
  { s with rcv := { s.rcv with since := s.ptime } }

/-- Is a layer stopped, or on its way to the GO of its redo? -/
def State.redoOpen (s : State) : Bool :=
  (List.range 16).any (fun p => match (s.part p).run with
    | some l => decide (l.step = 20) || (decide (0 < l.redo) && decide (l.step < 9))
    | none => false)

/-- The recovery is published once no redo is open and no table change is pending (R559, R571). -/
def State.publish (s : State) : State :=
  if s.rd GLB_RCV_GEN.GEN % 2 = 0 || s.redoOpen || s.net.chg.isSome then s
  else
    let s := s.wr GLB_RCV_GEN.GEN ((s.rd GLB_RCV_GEN.GEN + 1) % 2 ^ 32)
    (s.wr GLB_RCV_STAT.ACTIVE 0).wr GLB_RCV_STAT.RESUME_MS (satTo 0xFFFF ((s.ptime - s.rcv.since) / 1000000))

/-! ### Descriptors -/

/-- The plan of a partition that runs uses the handle (R270), its own or one that is replayed for it (R299). -/
def State.handleBusy (s : State) (p h : Nat) : Bool := match (s.part p).run with
  | some l => decide (l.plan.kernel = h) || decide ((s.planAt l.own).kernel = h)
  | none => false

/-- LOAD_KERNEL (R270, R274). -/
def execLoadKernel (k : Nat) (s : State) : Res :=
  .next (s.runDesc k 0x10 (fun d s =>
    let a := d.f 64 48
    let h := d.f 128 6
    if s.mustWait a 64 then none
    else if s.handleBusy d.tag h then some (s.finishDesc k 1 0 0 0)
    else
      match s.dealerRead a 64 with
      | (s, .error e) => some (s.finishDesc k e 0 0 0)
      | (s, .ok hd) =>
        if !kernelHdrOk hd then some (s.finishDesc k 2 0xFF 0 0)
        else
          let len := fieldAt hd 8 4
          if !s.descReach d.fn d.tag a len then some (s.finishDesc k 6 8 0 0)
          else if s.mustWait a len then none
          else
            match s.dealerRead a len with
            | (s, .error e) => some (s.finishDesc k e 0 0 0)
            | (s, .ok l) =>
              match parseKernel l with
              | .error st => some (s.finishDesc k st (if st = 2 then 0xFF else 0) 0 0)
              | .ok _ => some ((s.updPart d.tag (fun x => { x with kernels := Tab.set 0 x.kernels h (a + 1) })).finishDesc k 0 0 0 0)))

/-- RELEASE (R270). -/
def execRelease (k : Nat) (s : State) : Res :=
  .next (s.runDesc k 0x14 (fun d s =>
    let h := d.f 64 6
    if s.handleBusy d.tag h then some (s.finishDesc k 1 0 0 0)
    else some ((s.updPart d.tag (fun x => { x with kernels := Tab.set 0 x.kernels h 0 })).finishDesc k 0 0 0 0)))

/-- COMMIT (R297). -/
def execCommit (k : Nat) (s : State) : Res :=
  .next (s.runDesc k 0x13 (fun d s => some ((s.updPart d.tag (fun x => { x with commitNext := true })).finishDesc k 0 0 0 0)))

/-- Do two placements map every virtual core alike (R281)? -/
def sameMap (a b : Placement) : Bool :=
  decide (a.gx = b.gx) && decide (a.gy = b.gy) &&
    (List.range b.gy).all (fun y => (List.range b.gx).all (fun x => decide (a.locate x y = b.locate x y)))

/-- PLACE (R275 to R281, R555): it waits until the partition's traffic has drained (R280). -/
def execPlace (k : Nat) (s : State) : Res :=
  .next (s.runDesc k 0x11 (fun d s =>
    let p := d.tag
    if !s.partDrained p then none else
    let s := s.wr (GLB_RCV_PART.LOSS_PENDING p) 0
    match s.embed p (d.f 64 9) (d.f 80 8) (d.f 88 1) with
    | none => some (s.finishDesc k 3 0 0 0)
    | some pl =>
      let same := match (s.part p).place with
        | some o => sameMap o pl
        | none => false
      let s := if same then s else s.wr (GLB_DLR_PART3.STALE p) 1
      let s := (s.setPlacement p pl).updPart p (fun x => { x with foldsDue := [] })
      some (s.finishDesc k 0 0 (pl.blocks.length + pl.strays.length * 2 ^ 16 + s.rd (GLB_DLR_PART1.KITTY p) % 2 ^ 16 * 2 ^ 32) 0)))

/-! ### Starting a layer -/

/-- A plan as the store holds it, or the status and DETAIL with which RUN_LAYER ends (R288, R334). -/
def State.readPlan (s : State) (fn p a : Nat) : State × Except (Nat × Nat) Plan :=
  match s.dealerRead a 128 with
  | (s, .error e) => (s, .error (e, 0))
  | (s, .ok hd) =>
    let len := fieldAt hd 32 4
    if !planHdrOk hd then (s, .error (2, 0xFF))
    else if !s.descReach fn p a len then (s, .error (6, 8))
    else
      match s.dealerRead a len with
      | (s, .error e) => (s, .error (e, 0))
      | (s, .ok l) =>
        if !planRecsOk l || s.planBad p (parsePlan l) then (s, .error (2, 0xFF))
        else if crc32 (l.drop 40) ≠ fieldAt l 36 4 then (s, .error (8, 0))
        else (s, .ok (parsePlan l))

/-- Is the start of layers held: a planned handover waits for the running ones (R568)? -/
def State.startsHeld (s : State) : Bool := match s.rcv.update with
  | some u => decide (u.image = 0) && decide (u.step = 2)
  | none => false

/-- A layer whose checks passed starts: its number counts (R271), and any replay that a fold between layers left comes first (R554); then steps 2 and 3. -/
def State.startLayer (s : State) (key p a : Nat) (pl : Plan) (temps : List (Nat × Nat)) : State :=
  let x := s.part p
  let n := (x.seq + 1) % 2 ^ 32
  let run := newRun key a n pl
  let s := s.wr (GLB_DLR_PART3.RUNNING p) 1
  match x.replay with
  | _ :: _ =>
    (s.updPart p (fun x => { x with run := some run, seq := n })).beginReplay p x.replay ((n + 2 ^ 32 - x.replay.length) % 2 ^ 32)
  | [] => (s.updPart p (fun x => { x with run := some { run with shufDue := true, temps := temps }, seq := n })).powerLayer p

/-- RUN_LAYER (R288, R289, R515, R555): where a shuffle will write maps it waits until the partition's traffic has drained (R280); `temps` are the mean temperatures of dies over the previous layer, in 0.01 °C. -/
def execRunLayer (k : Nat) (temps : List (Nat × Nat)) (s : State) : Res :=
  .next (s.runDesc k 0x12 (fun d s =>
    let p := d.tag
    let a := d.f 64 48
    let x := s.part p
    if s.rd THM_STAT.FLOW_STATE = 2 then some (s.endUnstarted k p 9 0)
    else if x.noRes then some (s.endUnstarted k p 3 0)
    else if !x.foldsDue.isEmpty || s.startsHeld || s.mustWait a 128 then none
    else
      let resident := !((parsePlan (s.bytes a (planLen (s.bytes a 64)))).ins.all (fun e => e.src))
      if s.bit (GLB_RCV_PART.LOSS_PENDING p) && resident then
        some (((s.wr (GLB_DLR_PART3.STALE p) 1).wr (GLB_RCV_PART.LOSS_PENDING p) 0).endUnstarted k p 10 0)
      else
        let s := s.wr (GLB_RCV_PART.LOSS_PENDING p) 0
        match s.readPlan d.fn p a with
        | (s, .error e) => some (s.endUnstarted k p e.1 e.2)
        | (s, .ok pl) => if !(s.shufPairs p x.seq pl temps).isEmpty && !s.partDrained p then none else some (s.startLayer k p a pl temps)))

/-! ### PREPARE -/

/-- The block modes of CD_SP_LINMAPk of a plan (R126). -/
def linmapWord (pl : Plan) (ts : List KTask) (k : Nat) : Nat := (List.range 32).foldl (fun n j => n + b2n (pl.linear ts (32 * k + j)) * 2 ^ j) 0

/-- A slot as the layer plan sets it (R32, R283). -/
def slotFor (pl : Plan) (t : KTask) (vx vy layer : Nat) : Task :=
  let tb := pl.tbase.getD t.slot 0 * 256
  { Task.reset with
    loaded := true
    entry := BitVec.ofNat 18 t.entry
    seed0 := BitVec.ofNat 64 (pl.seedBase + ((vy * 256 + vx) * 4 + t.slot) * 2 ^ 24)
    vx := vx
    vy := vy
    tbase := tb
    tbound := tb + t.wsize * 256
    tcbase := pl.tcbase.getD t.slot 0
    tccount := t.ncnt
    linear := t.linear
    mx := t.mx
    barmask := pl.barmask.getD t.slot 0
    layer := BitVec.ofNat 32 layer }

/-- One placed core is prepared (R289 step 4): block modes, slots, counters, phases. -/
def State.prepareCore (s : State) (pl : Plan) (ts : List KTask) (layer : Nat) (e : Nat × Nat × Nat) : State :=
  let c := e.2.2
  let s := forN 6 (fun k s => s.linmap c k (linmapWord pl ts k)) s
  let tasks := forL ts (fun t m => Tab.set Task.reset m t.slot (slotFor pl t e.1 e.2.1 layer)) []
  let s := s.updCore c (fun k => { k with tasks := tasks, phase := 0, barPend := 0, doneArr := false, async := [], mq := [], copies := 0, copyBad := false })
  forL pl.cnts (fun r s => forN r.count (fun i s => s.cntSet c (pl.tcbase.getD r.slot 0 + r.first + i) (BitVec.ofNat 32 r.value)) s) s

/-- PREPARE at a die manager (R188, R289): it prepares its own placed cores, and answers READY. -/
def atPrepare (part layer planAddr : Nat) (h : CtlHdr) (s : State) : Res :=
  let d := h.dnode
  let p := part % 16
  if !isDie d || s.dieAbsent d || s.asleep (d * 256) || (s.heldBy planAddr 128).isSome then .next s
  else
    let answer := fun (bad : Nat) (s : State) =>
      s.sendCtl 3 1 s.stewardNode 258 d 256 [2 + p * 2 ^ 8 + d * 2 ^ 16 + bad * 2 ^ 24 + layer % 2 ^ 32 * 2 ^ 32]
    match s.dealerRead planAddr 128 with
    | (s, .error _) => .next (answer 1 s)
    | (s, .ok hd) =>
      match s.dealerRead planAddr (planLen hd) with
      | (s, .error _) => .next (answer 1 s)
      | (s, .ok l) =>
        let pl := parsePlan l
        match s.kernelOf p pl.kernel with
        | none => .next (answer 1 s)
        | some (ts, _) =>
          let mine := (s.pmap d).cells.filter (fun e => decide (coreDie e.2.2 = d) && !(s.core e.2.2).fenced)
          .next (answer 0 (forL mine (fun e s => s.prepareCore pl ts layer e) s))

/-- Prepare as a packet of the control network (R156, R189). -/
def execPrepare (h : CtlHdr) (part layer planAddr : Nat) (s : State) : Res := atCtl h (fun h s => isDie h.dnode && s.asleep (h.dnode * 256)) (atPrepare part layer planAddr) s

/-! ### Images, inputs and GO -/

/-- Writes of one block of bytes into every placed core, by scratchpad address. -/
def State.toPlaced (s : State) (p a : Nat) (l : List Byte) : State := forL (s.placedCores p) (fun c s => s.dealerWrite c a l) s

/-- Step 5: the images of a kernel into every placed core; the store's status where it fails (R289). -/
def State.loadImages (s : State) (p : Nat) (pl : Plan) (obj : Nat) : List KTask → State × Option Nat
  | [] => (s, none)
  | t :: ts =>
    let tb := pl.tbase.getD t.slot 0 * 256
    match s.dealerRead (obj + t.codeSrc) t.codeLen with
    | (s, .error e) => (s, some e)
    | (s, .ok code) =>
      match s.dealerRead (obj + t.constSrc) t.constLen with
      | (s, .error e) => (s, some e)
      | (s, .ok const) => ((s.toPlaced p (tb + t.codeOff) code).toPlaced p (tb + t.constOff) const).loadImages p pl obj ts

/-- Extents loaded into the placed cores from the store (R286): (core, scratchpad address, store address, bytes). -/
def State.loadAll (s : State) : List (Nat × Nat × Nat × Nat) → State × Option Nat
  | [] => (s, none)
  | (c, a, b, n) :: t =>
    match s.dealerRead b n with
    | (s, .error e) => (s, some e)
    | (s, .ok l) => (s.dealerWrite c a l).loadAll t

/-- The loads of the store input extents (R286). -/
def inputLoads (pl : Plan) (place : Placement) : List (Nat × Nat × Nat × Nat) :=
  (pl.ins.filter (fun e => e.src)).flatMap (fun e => place.cells.map (fun q => (q.2.2, e.sp, e.store + (q.2.1 * pl.gx + q.1) * e.len, e.len)))

/-- The loads of outputs from a recorded commit half, for chosen cells (R294, R296, R299). -/
def restoreLoads (r : CommitRec) (cells : List (Nat × Nat × Nat)) : List (Nat × Nat × Nat × Nat) :=
  let base := r.cbase + r.half * r.c
  (r.outs.zipIdx).flatMap (fun e =>
    let off := ((r.outs.take e.2).foldl (fun n x => n + r.gx * r.gy * x.len) 0)
    cells.map (fun q => (q.2.2, e.1.sp, base + off + (q.2.1 * r.gx + q.1) * e.1.len, e.1.len)))

/-- The store ranges that a layer reads before GO. -/
def loadRanges (l : List (Nat × Nat × Nat × Nat)) : List (Nat × Nat) := l.map (fun e => (e.2.2.1, e.2.2.2))

/-- The guarded ranges of a layer whose inputs all come from the store, where the hubs have room (R298). -/
def State.guardLayer (s : State) (p : Nat) (l : LayerRun) : State :=
  if !(l.plan.ins.all (fun e => e.src)) || s.guards.any (fun g => decide (g.part = p) && decide (g.layer = l.num)) then s
  else if 128 < s.guards.length + l.plan.ins.length then s
  else
    let gs := l.plan.ins.map (fun e => ({ part := p, layer := l.num, lo := e.store, hi := e.store + l.plan.gx * l.plan.gy * e.len, struck := false } : Guard))
    let s := { s with guards := s.guards ++ gs }
    let s := s.updPart p (fun x => { x with guardAt := some l.num })
    if (s.part p).commit.isNone then s.wr (GLB_DLR_PART3.VALID p) 3 else s

/-- A weight stream record is started (R178, R290): the dealer divides its rows into pieces that each lie in one page, and commands the hubs that own them. -/
def State.startWeight (s : State) (p i : Nat) (w : WsRec) : State :=
  let cuts := (List.range w.rowCount).flatMap (fun r =>
    (pagePieces (w.saddr + r * w.sstride) w.rowBytes).map (fun e => (e.1, e.2, w.roff + r * w.rstride + (e.1 - (w.saddr + r * w.sstride)))))
  let ps : List WsPiece := cuts.zipIdx.map (fun e =>
    { id := s.store.wsNext + e.2, part := p, idx := i, hub := stackHub (s.serving e.1.1), w := w, addr := e.1.1, n := e.1.2.1, toff := e.1.2.2
      last := decide (e.2 + 1 = cuts.length), data := none, on := false, sent := false, live := true, xfers := [] })
  let s := forL ((ps.map (fun x => x.hub)).dedup) (fun k s => s.emit (.weight p i k)) s
  let s := s.updPart p (fun x => { x with run := x.run.map (fun l => { l with wsOn := l.wsOn ++ [i] }) })
  ({ s with store := { s.store with ws := s.store.ws ++ ps, wsNext := s.store.wsNext + cuts.length } }).wsRun

/-- The records that start after record `k` (0xFF: at layer start), in record order (R287, R290). -/
def State.startWeights (s : State) (p k : Nat) : State :=
  match (s.part p).run with
  | none => s
  | some l => forL (l.plan.ws.zipIdx.filter (fun e => decide (e.1.after = k))) (fun e s => s.startWeight p e.2 e.1) s

/-- Steps 5 to 8 (R289): images, loop buffers, inputs, GO, and the first weight streams. A redo sets the time of GO again, so that TIME counts from the GO of
the final run (DESIGN CHOICE, log entry 100: R302 does not say which). -/
def State.goLayer (s : State) (p : Nat) (l : LayerRun) : State :=
  match s.kernelOf p l.plan.kernel, (s.part p).place with
  | some (ts, obj), some place =>
    match s.loadImages p l.plan obj ts with
    | (s, some e) => s.endLayer p e
    | (s, none) =>
      let s := forL place.cores (fun c s => s.updCore c (fun k => { k with lbuf := [] })) s
      let back := if l.restore then (match (s.part p).commit with
        | some r => restoreLoads r place.cells
        | none => []) else []
      match s.loadAll back with
      | (s, some _) => s.endLayer p 10
      | (s, none) =>
        match s.loadAll (inputLoads l.plan place) with
        | (s, some e) => s.endLayer p e
        | (s, none) =>
          let s := s.updPart p (fun x => { x with run := some { l with step := 9, goTime := s.ptime, limitOn := true } })
          let s := (s.guardLayer p l).broadcast 3 0 [l.num % 2 ^ 32]
          (s.startWeights p 0xFF).publish
  | _, _ => s.endLayer p 3

/-- READY at the dealer (R188): once every die of the placement is prepared, the layer is loaded and released. GO waits for a table change
and for the release of a CLAMP (R173, R573). -/
def atDealerReady (part die layer : Nat) (failed : Bool) (h : CtlHdr) (s : State) : Res :=
  let p := part % 16
  match (s.part p).run with
  | none => .next s
  | some l =>
    let dies := s.placedDies p
    if h.dnode ≠ s.stewardNode || l.step ≠ 4 || l.num ≠ layer % 2 ^ 32 || !dies.contains die then .next s
    else if failed then .next (s.endLayer p 8)
    else
      let ready := if l.ready.contains die then l.ready else l.ready ++ [die]
      if dies.all (fun d => ready.contains d) then
        let waits := match (s.part p).place with
          | some place => (loadRanges (inputLoads l.plan place)).any (fun e => (s.heldBy e.1 e.2).isSome)
          | none => false
        if s.net.chg.isSome || (s.placedRegions p).any (fun r => s.bit (RGN_PWR_STAT.CLAMPED r)) || waits then .next s
        else .next (s.goLayer p { l with ready := ready })
      else .next (s.updPart p (fun x => { x with run := some { l with ready := ready } }))

/-- DealerReady as a packet of the control network (R156, R189). -/
def execDealerReady (h : CtlHdr) (part die layer : Nat) (failed : Bool) (s : State) : Res := atCtl h noWait (atDealerReady part die layer failed) s

/-! ### While a layer runs -/

/-- The dealer learns that record `idx` of a partition's layer is complete (R290): every target has acknowledged each of its pieces, with any status; the
records that wait for it start. -/
def execWeightStreamComplete (part idx : Nat) (s : State) : Res :=
  let p := part % 16
  match (s.part p).run with
  | some l =>
    if !l.going || !l.wsOn.contains idx || l.wsDone.contains idx || s.store.ws.any (fun x => decide (x.part = p) && decide (x.idx = idx) && x.live) then .next s
    else .next ((s.updPart p (fun x => { x with run := x.run.map (fun l => { l with wsDone := l.wsDone ++ [idx] }) })).startWeights p idx)
  | none => .next s

/-- The die manager starts the copy of a placed core whose slots are DONE and whose matrix queue is empty (R291): one stream of the dealer for each
output extent, into the half that receives the copy (R294). -/
def execCommitCopyStart (c : Nat) (s : State) : Res :=
  match s.partOfCore c with
  | none => .next s
  | some p =>
    match (s.part p).run, (s.part p).place with
    | some l, some place =>
      let k := s.core c
      let loaded := k.tasks.filter (fun e => e.2.loaded)
      if !l.going || !l.copyDue || l.copied.contains c || k.fenced || loaded.isEmpty || !(loaded.all (fun e => decide (e.2.st = .done))) ||
          !k.work.isEmpty then .next s
      else
        match place.virtualOf c with
        | none => .next s
        | some (vx, vy) =>
          let v := vy * l.plan.gx + vx
          let zero : StreamDesc := parseDesc []
          let s := forL l.plan.outs.zipIdx (fun e s =>
            let off := (l.plan.outs.take e.2).foldl (fun n x => n + l.plan.gx * l.plan.gy * x.len) 0
            let d : StreamDesc := { zero with localOff := e.1.sp, rowBytes := e.1.len, rowCount := 1, addr := l.copyBase + off + v * e.1.len }
            s.updCore c (fun k =>
              let x : Stream := { id := k.nextTag, eng := 4, slot := 4, pc := 0, kind := 1, d := d, started := false, sent := false, xfers := [], pulled := false }
              { k with streams := k.streams ++ [x], nextTag := (k.nextTag + 1) % 0xFFF0, copies := k.copies + 1 })) s
          let s := s.updPart p (fun x => { x with run := some { l with copied := l.copied ++ [c], copyStarted := true } })
          .next (s.startStreams c)
    | _, _ => .next s

/-- The layer time limit expires (R292, R293): not while a CLAMP holds a region of the placement. -/
def execLayerTimeLimit (part : Nat) (s : State) : Res :=
  let p := part % 16
  match (s.part p).run with
  | none => .next s
  | some l =>
    if !l.going || !l.limitOn || (s.placedRegions p).any (fun r => s.bit (RGN_PWR_STAT.CLAMPED r)) then .next s
    else .next (s.endLayer p 7)

/-- SUMMARY at the dealer (R188, R302). -/
def atSummary (part die layer fflags : Nat) (h : CtlHdr) (s : State) : Res :=
  let p := part % 16
  match (s.part p).run with
  | none => .next s
  | some l =>
    if h.dnode ≠ s.stewardNode || l.num ≠ layer % 2 ^ 32 || !(s.placedDies p).contains die then .next s
    else .next (s.updPart p (fun x => { x with run := some { l with fflags := Nat.lor l.fflags (fflags % 64) } }))

/-- Summary as a packet of the control network (R156, R189). -/
def execSummary (h : CtlHdr) (part die layer fflags : Nat) (s : State) : Res := atCtl h noWait (atSummary part die layer fflags) s

/-! ### Stopping -/

/-- The cores of a partition on a die, by the die's map. -/
def State.coresOn (s : State) (d : Nat) : List Nat := ((s.pmap d).cores.filter (fun c => decide (coreDie c = d)))

/-- Is a die quiet: no stream, message or tracker entry on its placed cores, no lane entry in its routers (R553)? -/
def State.dieQuiet (s : State) (d : Nat) : Bool :=
  (s.coresOn d).all (fun c => (s.core c).streams.isEmpty && (s.core c).msgs.isEmpty && ((s.core c).fenced || (s.core c).tracker.isEmpty)) &&
    s.routers.all (fun r => decide (coreDie r.1 ≠ d) || r.2.lanes.isEmpty)

/-- QUIET of a die (R188). -/
def State.sayQuiet (s : State) (d p layer : Nat) : State :=
  s.sendCtl 3 1 s.stewardNode 258 d 256 [4 + p * 2 ^ 8 + d * 2 ^ 16 + layer % 2 ^ 32 * 2 ^ 32]

/-- Dies that have become quiet since their STOP report it (R553). -/
def State.quietTick (s : State) : State :=
  forL s.rcv.quietDue (fun e s =>
    if s.dieAbsent e.1 then { s with rcv := { s.rcv with quietDue := s.rcv.quietDue.filter (fun x => decide (x ≠ e)) } }
    else if s.dieQuiet e.1 then ({ s with rcv := { s.rcv with quietDue := s.rcv.quietDue.filter (fun x => decide (x ≠ e)) } }).sayQuiet e.1 e.2.1 e.2.2
    else s) s

/-- STOP at a die manager (R553): the placed cores' slots are discarded without trap records, streams not started are dropped, and QUIET follows once nothing is
in flight. -/
def atDealerStop (part layer : Nat) (h : CtlHdr) (s : State) : Res :=
  let d := h.dnode
  if !isDie d || s.dieAbsent d || decide (s.partOfRegion (regionOf d) ≠ some (part % 16)) then .next s
  else
    let s := forL (s.coresOn d) (fun c s => s.updCore c (fun k =>
      let k := k.discard
      { k with streams := k.streams.filter (fun x => x.started), copies := (k.streams.filter (fun x => x.started && decide (4 ≤ x.slot))).length })) s
    let s := { s with rcv := { s.rcv with quietDue := s.rcv.quietDue.filter (fun x => decide (x.1 ≠ d)) } }
    .next (if s.dieQuiet d then s.sayQuiet d (part % 16) layer
      else { s with rcv := { s.rcv with quietDue := s.rcv.quietDue ++ [(d, part % 16, layer)] } })

/-- DealerStop as a packet of the control network (R156, R189). -/
def execDealerStop (h : CtlHdr) (part layer : Nat) (s : State) : Res := atCtl h noWait (atDealerStop part layer) s

/-- WAKE at a region manager (R188, R491 to R493): a region in C1 or C3 enters the target state, which is less deep. -/
def atDealerWake (region target : Nat) (h : CtlHdr) (s : State) : Res :=
  let r := region % 16
  if h.dnode ≠ s.managerDie r || 4 ≤ target then .next s
  else if 2 ≤ s.rgnState r ∧ target < s.rgnState r then .next (s.wakeRegion r target)
  else .next s

/-- DealerWake as a packet of the control network (R156, R189). A region in C6 asks for an ante, which brings it back (R491 to R493; DESIGN CHOICE, log
entry 105: its manager's die is off, so the request is taken where the cartridge's controller runs, without a route to the die). -/
def execDealerWake (h : CtlHdr) (region target : Nat) (s : State) : Res :=
  let r := region % 16
  if !h.bcast && decide (h.dnode = s.managerDie r) && decide (target < 4) && decide (s.rgnState r = 4) then .next (s.wantAnte r 1)
  else atCtl h noWait (atDealerWake region target) s

end Sys2Proof.Machine
end

