-- ==== Sys2Proof/Machine/Telemetry.lean ====
section
/-! DEFINITION. Counters, tricks and the logbook (R577 to R600). -/

namespace Sys2Proof.Machine

/-! ### The logbook -/

/-- LOG_RECORD_WRITE (R590 to R593). -/
def execLogRecordWrite (kind unit : Nat) (payload : List Byte) (s : State) : Res := .next (s.logWrite (kind % 256) (unit % 2 ^ 16) payload)

/-- A logbook device fails: firmware goes on with the other (R595). -/
def execLogDeviceFail (dev : Nat) (s : State) : Res :=
  let f := if dev = 0 then TEL_LOG_STAT.DEV0_OK else TEL_LOG_STAT.DEV1_OK
  if !s.bit f then .next s
  else
    let s := s.wr f 0
    .next (s.postPanel 0x0902 31 2 (leBytes 1 (b2n (decide (dev ≠ 0))) ++ leBytes 1 0))

/-- The dies whose records a function may read: every one for a PF, else those of its partitions (R341). -/
def State.logDies (s : State) (f : Nat) : List Nat :=
  if isPf f then List.range 144
  else (List.range 144).filter (fun d => match s.partOfRegion (regionOf d) with
    | some p => decide (s.rd (HID_PART.OWNER p) = f)
    | none => false)

/-- Whole records up to a length (R594, R341): the bytes, and what is left. -/
def takeRecords : Nat → List LogRec → List Byte × List LogRec
  | _, [] => ([], [])
  | n, r :: t =>
    let k := logLen r.payload.length
    if n < k then ([], r :: t)
    else
      let x := takeRecords (n - k) t
      (r.bytes ++ x.1, x.2)

/-- Do a record's unit and kind match a filter, for a function (R594, R341)? -/
def State.logMatch (s : State) (f die kind cursor : Nat) (r : LogRec) : Bool :=
  decide (cursor ≤ r.seq) && (decide (kind = 0xFF) || decide (r.kind = kind)) &&
    (if die = 0xFFFF then isPf f || (s.logDies f).contains r.unit else decide (r.unit = die))

/-- READ_LOG (R341, R594). -/
def execReadLog (k : Nat) (s : State) : Res :=
  .next (s.runDesc k 0x31 (fun d s =>
    let die := d.f 224 16
    if !isPf d.fn && decide (die ≠ 0xFFFF) && !(s.logDies d.fn).contains die then some (s.finishDesc k 6 28 0 0)
    else
      let l := s.mirror.filter (s.logMatch d.fn die (d.f 240 8) (d.f 160 64))
      let x := takeRecords (d.f 128 25) l
      let next := match x.2 with
        | r :: _ => r.seq
        | [] => 0
      some ((if x.1.isEmpty then s else s.hostWrite d.fn (d.f 64 64) x.1).finishDesc k 0 0 x.1.length next)))

/-! ### Counters -/

/-- COUNTER_WRAP of a unit, at most once per second (R579). -/
def execCounterWrapEvent (unit : Nat) (s : State) : Res :=
  let n := Tab.get 0 s.tel.wraps unit
  let last := Tab.get 0 s.tel.wrapAt unit
  if n = 0 ∨ (last ≠ 0 ∧ s.ptime < last - 1 + 1000000000) then .next s
  else
    let s := { s with tel := { s.tel with wraps := Tab.set 0 s.tel.wraps unit 0, wrapAt := Tab.set 0 s.tel.wrapAt unit (s.ptime + 1) } }
    .next (s.postPanel 0x0900 31 0 (leBytes 2 unit ++ leBytes 2 n))

/-- CLR of CD_HLTH_STAT of a core, or of CD_DIE_HSTAT of a die (R577, R598). -/
def execHlthClr (src : Src) (d : Nat) (n : Option Nat) (v : W32) (s : State) : Res :=
  if !pfOrFw src || !isDie d || s.dieAbsent d || bitsOf v.toNat 2 1 = 0 then .next s
  else
    match n with
    | some n =>
      let n := n % 256
      .next ((((s.wr (CD_HLTH_STRERR.COUNT d n) 0).wr (CD_HLTH_MXCE.COUNT d n) 0).wr (CD_HLTH_STAT.STRERR_SAT d n) 0).wr (CD_HLTH_STAT.MXCE_SAT d n) 0)
    | none => .next ((((s.wr (CD_NET_CE.COUNT d) 0).wr (CD_THM_DISAG.COUNT d) 0).wr (CD_DIE_HSTAT.NET_CE_SAT d) 0).wr (CD_DIE_HSTAT.DISAG_SAT d) 0)

/-! ### Records of a trick -/

/-- Counters of 8 bytes, then of 4, packed from byte 0 (R588). -/
def packed (p h : List Nat) : List Byte := p.flatMap (leBytes 8) ++ h.flatMap (leBytes 4)

/-- A record of `size` bytes with its status word in the last 4 (R588). -/
def record (size : Nat) (body : List Byte) (status : Nat) : List Byte :=
  body.take (size - 4) ++ List.replicate (size - 4 - body.length) 0 ++ leBytes 4 status

/-- The status word of a record taken (R588). -/
def takenWord (wrap sat : Bool) : Nat := b2n wrap * 16 + b2n sat * 32

/-- The record of an absent unit (R585). -/
def absentRecord (size reason : Nat) : List Byte := record size [] (1 + reason * 2)

/-- A core's record (R588): the image of its counter registers. -/
def State.coreRecord (s : State) (d n : Nat) : List Byte :=
  if (s.core (d * 256 + n)).fenced then absentRecord 128 1
  else
    let sat := s.rd (CD_HLTH_STAT.STRERR_SAT d n) + s.rd (CD_HLTH_STAT.MXCE_SAT d n) * 2
    record 128 (packed ((List.range 13).map (fun i => s.rd (CD_PERF.COUNT d n i)))
      [s.rd (CD_PERF_WRAP.WRAP d n), s.rd (CD_HLTH_STRERR.COUNT d n), s.rd (CD_HLTH_MXCE.COUNT d n), sat])
      (takenWord (decide (s.rd (CD_PERF_WRAP.WRAP d n) ≠ 0)) (decide (sat ≠ 0)))

/-- A compute die's record (R580). -/
def State.dieRecord (s : State) (d : Nat) : List Byte :=
  let p := (List.range 4).map (fun i => s.rd (CD_NET_TX.COUNT d i)) ++ [s.rd (CD_REG_ENERGY.COUNT d)] ++
    (List.range 16).map (fun c => s.rd (CD_CLK_STR.COUNT d c))
  let h := [s.rd (CD_NET_CE.COUNT d), s.rd (CD_THM_DISAG.COUNT d), s.rd (CD_RED_COMB.COUNT d), s.rd (CD_RED_NOENT.COUNT d), s.rd (CD_MC_REFUSE.COUNT d)] ++
    (List.range 256).map (fun n => s.rd (CD_SP_CE.COUNT d n)) ++
    (List.range 4).map (fun l => s.rd (CD_LNK_ERR.REPAIRS d l) + s.rd (CD_LNK_ERR.RESENDS d l) * 2 ^ 16)
  let wrap := decide (s.rd (CD_PERF_DWRAP.NET_WRAP d) ≠ 0) || s.bit (CD_PERF_DWRAP.ENERGY_WRAP d) || decide (s.rd (CD_PERF_DWRAP.STR_WRAP d) ≠ 0)
  let sat := s.bit (CD_DIE_HSTAT.NET_CE_SAT d) || s.bit (CD_DIE_HSTAT.DISAG_SAT d) || s.bit (CD_NET_ERR.MC_SAT d) ||
    (List.range 256).any (fun n => s.bit (CD_SP_STAT.CE_SAT d n))
  record 2048 (packed p h) (takenWord wrap sat)

/-- A hub's record (R580). -/
def State.hubRecord (s : State) (k : Nat) : List Byte :=
  if !s.bit (MH_HUB_STAT.INSERVICE k) then absentRecord 256 3
  else
    let ppr := s.rd (MH_PPR_STAT.DONE k) + s.rd (MH_PPR_STAT.BUSY k) * 2 ^ 16 + s.rd (MH_PPR_STAT.NOSPARE k) * 2 ^ 17
    record 256 (packed [s.rd (MH_PERF_RD.COUNT k 0), s.rd (MH_PERF_WR.COUNT k 0), s.rd (MH_PERF_RD.COUNT k 1), s.rd (MH_PERF_WR.COUNT k 1)]
      [s.rd (MH_CE_CNT.COUNT k 0), s.rd (MH_CE_CNT.COUNT k 1), s.rd (MH_MELD_CNT.COUNT k), s.rd (MH_STG_FULL.COUNT k), ppr])
      (takenWord (decide (s.rd (MH_PERF_WRAP.WRAP k) ≠ 0)) (s.bit (MH_ERR_STAT.CE_SAT0 k) || s.bit (MH_ERR_STAT.CE_SAT1 k)))

/-- An engine's record (R580). -/
def State.engRecord (s : State) (k : Nat) : List Byte :=
  let p := (List.range 3).flatMap (fun i => [s.rd (OE_PERF_TX.COUNT k i), s.rd (OE_PERF_RX.COUNT k i)]) ++
    (List.range 48).map (fun l => s.rd (OE_LANE_CSYM.COUNT k l))
  let h := (List.range 3).map (fun i => s.rd (JX_PORT_RPL.COUNT k i)) ++ (List.range 48).map (fun l => s.rd (OE_LANE_LOCK.COUNT k l)) ++
    (List.range 3).map (fun i => s.rd (JX_PORT_ERR.HDR k i) + s.rd (JX_PORT_ERR.AUTHFAIL k i) * 2 ^ 16)
  let wrap := decide (s.rd (OE_PERF_WRAP.PORT_WRAP k) ≠ 0) || decide (s.rd (OE_PERF_WRAP.LANE_WRAP k) ≠ 0)
  record 1024 (packed p h) (takenWord wrap false)

/-- Is a guest site not fitted (R2)? -/
def State.siteAbsent (s : State) (g : Nat) : Bool := !Config.partG || decide (s.rd (GS_STAT.STATE g) = 0)

/-- A guest site's record (R580, R585). -/
def State.guestRecord (s : State) (g : Nat) : List Byte :=
  if s.siteAbsent g then absentRecord 64 4
  else record 64 (packed [] [s.rd (GS_ERR.DROPPED g) + s.rd (GS_ERR.EXTENT g) * 2 ^ 16]) 0

/-- A cartridge's and a function's record (R580, R585). -/
def State.cartRecord (s : State) (n : Nat) : List Byte :=
  if s.rd (PWR_CT_STAT.STATE n) = 0 then absentRecord 64 3 else record 64 (packed [s.rd (PWR_CT_ENERGY.COUNT n)] []) 0
def State.fnRecord (s : State) (f : Nat) : List Byte :=
  record 64 (packed [s.rd (HID_PERF_DESC.COUNT f), s.rd (HID_PERF_RDB.COUNT f), s.rd (HID_PERF_WRB.COUNT f)] [])
    (takenWord (decide (s.rd (HID_PERF_WRAP.WRAP f) ≠ 0)) false)

/-- The units of a trick: dies, ring stops as DNODE numbers them, and the guest sites as 196 and 197. -/
def trickUnits : List Nat := List.range 198

/-- A unit's record offsets in a half, with each record's size (R587). -/
def unitRecords (u : Nat) : List (Nat × Nat) :=
  if u < 144 then (List.range 256).map (fun n => (0x1000 + (u * 256 + n) * 128, 128)) ++ [(0x481000 + u * 2048, 2048)]
  else if 196 ≤ u then [(0x4D1100 + (u - 196) * 64, 64)]
  else
    match stopHub (u - 144), stopEng (u - 144) with
    | some k, _ => [(0x4C9000 + k * 256, 256)]
    | none, some k => [(0x4CA800 + k * 1024, 1024)]
    | none, none =>
      if u = 144 then (List.range 8).map (fun f => (0x4D0D00 + f * 64, 64))
      else if u = 170 then (List.range 8).map (fun f => (0x4D0D00 + (8 + f) * 64, 64))
      else if u = 157 then (List.range 20).map (fun n => (0x4D0800 + n * 64, 64))
      else []

/-- What a unit's shadow holds: its records, one after the other (R584, R588). -/
def State.unitShadow (s : State) (u : Nat) : List Byte :=
  if u < 144 then (List.range 256).flatMap (s.coreRecord u) ++ s.dieRecord u
  else if 196 ≤ u then s.guestRecord (u - 196)
  else
    match stopHub (u - 144), stopEng (u - 144) with
    | some k, _ => s.hubRecord k
    | none, some k => s.engRecord k
    | none, none =>
      if u = 144 then (List.range 8).flatMap s.fnRecord
      else if u = 170 then (List.range 8).flatMap (fun f => s.fnRecord (8 + f))
      else if u = 157 then (List.range 20).flatMap s.cartRecord
      else []

/-- The cartridge that feeds an engine (R471). -/
def engCart (k : Nat) : Nat := if k < 12 then 18 else 19
def State.engPowered (s : State) (k : Nat) : Bool := decide (s.rd (PWR_CT_STAT.STATE (engCart k)) = 3)

/-- Why a unit cannot report: 1 its die was fenced, 2 its region is a hole, 3 it is off, 4 it is not fitted (R585). -/
def State.unitGone (s : State) (u : Nat) : Option Nat :=
  if u < 144 then
    if bitOf (s.rd GLB_HOLE_RGN.HOLE) (regionOf u) then some 2 else if s.dieHole u then some 1 else if 4 ≤ s.rgnState (regionOf u) then some 3 else none
  else if 196 ≤ u then (if s.siteAbsent (u - 196) then some 4 else none)
  else
    match stopHub (u - 144), stopEng (u - 144) with
    | some k, _ => if s.bit (MH_HUB_STAT.INSERVICE k) then none else some 3
    | none, some k => if s.engPowered k then none else some 3
    | none, none => none

/-- The absent records of a unit. -/
def goneRecords (u reason : Nat) : List Byte := (unitRecords u).flatMap (fun e => absentRecord e.2 reason)

/-! ### Tricks -/

/-- A trick begins (R584 steps 1 and 2). -/
def State.beginTrick (s : State) (key : Option Nat) (t : Nat) : State :=
  let n := Nat.xor s.tel.next 1
  let g := s.rd GLB_RCV_GEN.GEN
  let tr : Trick :=
    { key := key, n := n, t := t, gen := if g % 2 = 1 then g - 1 else g,
      image := if s.bit TEL_IMG.EN then some (s.rd TEL_IMG.BASE) else none, armed := [s.stewardNode], since := 0 }
  let s := { s with tel := { s.tel with trick := some tr, next := Nat.xor (if n = 0xFFFFFFFF then 2 else n + 1) 1, shadow := [] } }
  ((s.wr TEL_TRICK_STAT.BUSY 1).wr TEL_TRICK_NEXT.T t).broadcast 5 0 [t % 2 ^ 32, t / 2 ^ 32, n]

/-- TRICK (R341, R583, R584). -/
def execTrick (k : Nat) (s : State) : Res :=
  .next (s.runDesc k 0x30 (fun d s =>
    let t := d.f 64 64
    if s.tel.trick.isSome then some (s.finishDesc k 1 0 0 0)
    else if s.ptime + 10000000000 < t then some (s.finishDesc k 2 8 0 0)
    else some (s.beginTrick (some k) (max t (s.ptime + 20000)))))

/-- A TRICK frame at a node (R192, R584): its unit is armed. -/
def execTrickFrame (node sender seq t n : Nat) (s : State) : Res :=
  .next (s.flood node sender 5 seq 0 [t % 2 ^ 32, t / 2 ^ 32, n] (fun s =>
    match s.tel.trick with
    | some tr => if tr.n = n then { s with tel := { s.tel with trick := some { tr with armed := tr.armed ++ [node] } } } else s
    | none => s))

/-- The node whose frame arms a unit: its own; a guest site's adapter is in its steward die (R19). -/
def trickNode (u : Nat) : Nat := if u = 196 then 157 else if u = 197 then 183 else u

/-- At the first tick at which panel time is T or later, an armed unit copies its counters and reports (R584 steps 3 and 4); one that cannot at T is absent,
whatever comes later (R585). -/
def execTrickCopy (unit : Nat) (s : State) : Res :=
  match s.tel.trick with
  | none => .next s
  | some tr =>
    let keep := fun (l : List Byte) => { s with tel := { s.tel with shadow := Tab.set [] s.tel.shadow unit l } }
    if 198 ≤ unit || s.ptime < tr.t || !(Tab.get [] s.tel.shadow unit).isEmpty then .next s
    else
      match s.unitGone unit with
      | some r => .next (keep (goneRecords unit r))
      | none => .next (if tr.armed.contains (trickNode unit) then keep (s.unitShadow unit) else s)

/-- A unit's bytes cut into its records, each with its offset. -/
def cutRecords : List (Nat × Nat) → List Byte → List (Nat × List Byte)
  | [], _ => []
  | e :: t, l => (e.1, l.take e.2) :: cutRecords t (l.drop e.2)

/-- Is a record marked absent (R588)? -/
def isAbsent (l : List Byte) : Bool := decide ((l.getD (l.length - 4) 0).toNat % 2 = 1)

/-- The records of a unit as the steward collects them (R585): its shadow, or absent ones; a die that became a hole since T is absent too (R600). -/
def State.collected (s : State) (u : Nat) : List Byte :=
  let l := Tab.get [] s.tel.shadow u
  if l.isEmpty then goneRecords u ((s.unitGone u).getD 5)
  else if decide (u < 144) && s.dieHole u && !isAbsent l then goneRecords u 2
  else l

/-! ### Daily records -/

/-- A nanosecond count's day (R593). -/
def dayOf (t : Nat) : Nat := t / 86400000000000

/-- Least, mean and most of a day's readings, in `w` bytes each; zeros where none was taken. -/
def Daily.bytes (x : Daily) (w : Nat) : List Byte :=
  let f := fun (v : Int) => leBytes w (v % (2 ^ (8 * w) : Nat)).toNat
  f x.least ++ f (if x.n = 0 then 0 else x.sum / x.n) ++ f x.most

/-- The readings from `key` on of the day (R375), `n` of them. -/
def State.dayStats (s : State) (key n w : Nat) : List Byte :=
  (List.range n).flatMap (fun j => (Tab.get { n := 0, least := 0, most := 0, sum := 0 } s.opt.margins (key + j) : Daily).bytes w)

/-- The daily records of a die in service (R593): CE_DAY, REPLICA_DAY, where no reading of a core's monitor stands as 63, and MARGIN_DAY. -/
def State.dayOfDie (s : State) (d : Nat) : List (Nat × Nat × List Byte) :=
  let n := fun (k : Nat) => Tab.get 0 s.tel.day k
  [(0x02, d, (List.range 256).flatMap (fun i => leBytes 2 (satTo 0xFFFF (n (256 * d + i)))) ++ leBytes 4 (s.rd (CD_NET_CE.COUNT d))),
   (0x03, d, (List.range 256).map (fun i => BitVec.ofNat 8 (63 - Tab.get 0 s.clk.daily (256 * d + i)))),
   (0x04, d, (List.range 4).flatMap (fun w => leBytes 1 (s.rd (CD_LNK_STAT.MODE d w)) ++ leBytes 1 (s.rd (CD_LNK_STAT.MIN_EYE d w)) ++
      leBytes 1 (s.rd (CD_LNK_STAT.SPARES_LOW d w)) ++ leBytes 1 (satTo 0xFF (n (41000 + 4 * d + w)))))]

/-- The daily records of the panel, each its kind, unit and payload (R593): of dies, stacks, stewards, engines and external laser sources. Readings of corrected
symbols take 4 bytes, every other reading of OPT_DAY and LASER_DAY 2 (DESIGN CHOICE, log entry 106: R593 gives no widths). -/
def State.dayAll (s : State) : List (Nat × Nat × List Byte) :=
  ((List.range 144).filter (fun d => !s.dieAbsent d)).flatMap s.dayOfDie ++
  (List.range 48).map (fun n => (0x02, 0x0100 + n, leBytes 4 (Tab.get 0 s.tel.day (40000 + n)) ++ leBytes 2 (satTo 0xFFFF (Tab.get 0 s.tel.day (40100 + n))))) ++
  (List.range 2).map (fun sd => (0x03, if sd = 0 then 157 else 183, (List.range 16).map (fun i => BitVec.ofNat 8 (63 - Tab.get 0 s.clk.daily (36864 + 16 * sd + i))))) ++
  (List.range 24).map (fun k => (0x05, engNode k, (List.range 48).flatMap (fun l => s.dayStats (3 * (48 * k + l)) 1 4) ++
    s.dayStats (10000 + 18 * k) 18 2 ++ s.dayStats (20000 + 8 * k) 8 2)) ++
  (List.range 12).map (fun m => (0x06, 0x0200 + m, (List.range 8).flatMap (fun w => s.dayStats (30000 + 2 * (8 * m + w)) 2 2 ++ leBytes 1 (s.rd (OE_ELS_BIAS.ON_SPARE m w)))))

/-- Panel time crosses a day boundary (R593, R375, R454): the daily records of the day that ends are made up, and its statistics start anew. -/
def State.endDay (s : State) : State :=
  { s with
    tel := { s.tel with dayRecs := s.dayAll, day := [] }
    clk := { s.clk with daily := [] }
    opt := { s.opt with margins := [], day := dayOf s.ptime } }

/-- The daily records are written, after firmware's trick (R593). -/
def State.writeDay (s : State) : State :=
  forL s.tel.dayRecs (fun e s => s.logWrite e.1 e.2.1 e.2.2) { s with tel := { s.tel with dayRecs := [] } }

/-- The trick ends (R584 step 5): records, then the header; TEL registers; BUSY last; the descriptor. -/
def State.endTrick (s : State) (tr : Trick) : State :=
  let recs := trickUnits.flatMap (fun u => cutRecords (unitRecords u) (s.collected u))
  let absent := (recs.filter (fun r => isAbsent r.2)).length
  let s := match tr.image with
    | none => s
    | some b =>
      let b := b + tr.n % 2 * 0x800000
      let s := forL recs (fun r (s : State) => (s.storeWrite (b + r.1) r.2).1) s
      let hdr := leBytes 4 0x54524943 ++ leBytes 4 1 ++ leBytes 4 tr.n ++ leBytes 4 0 ++ leBytes 8 tr.t ++ leBytes 8 s.ptime ++ leBytes 4 tr.gen ++
        leBytes 2 absent ++ List.replicate (4096 - 38) 0
      let s := (s.storeWrite b hdr).1
      if s.bit TEL_IMG.EN && decide (tr.image = some (s.rd TEL_IMG.BASE)) then s.wr TEL_TRICK_STAT.VALID 1 else s
  let s := ((s.wr TEL_TRICK_NUM.N tr.n).wr TEL_TRICK_T.T tr.t).wr TEL_TRICK_STAT.ABSENT (satTo 0xFFFF absent)
  let s := (s.wr TEL_TRICK_NEXT.T 0).wr TEL_TRICK_STAT.BUSY 0
  let s := { s with tel := { s.tel with trick := none, shadow := [] } }
  let s := match tr.key with
    | some k => s.finishDesc k 0 0 tr.t tr.n
    | none => s.writeDay
  if s.tel.daily then { s with tel := { s.tel with daily := false } }.beginTrick none (s.ptime + 20000) else s

/-- Every unit that can report has reported: the steward completes the trick (R584, R585). -/
def execTrickComplete (s : State) : Res :=
  match s.tel.trick with
  | none => .next s
  | some tr =>
    if s.bit GLB_STW_STAT.LOST_BOTH then .next s
    else if trickUnits.all (fun u => (s.unitGone u).isSome || !(Tab.get [] s.tel.shadow u).isEmpty || (unitRecords u).isEmpty) then .next (s.endTrick tr)
    else .next s

/-- 20 ms after T, or after a steward took the trick over, the steward completes it without the rest (R584, R585, R600). -/
def execTrickCollectionTimeout (s : State) : Res :=
  match s.tel.trick with
  | none => .next s
  | some tr => if s.bit GLB_STW_STAT.LOST_BOTH || decide (s.ptime < max tr.t tr.since + 20000000) then .next s else .next (s.endTrick tr)

/-- Panel time crosses a day boundary: firmware's trick (R583, R593, R600), at once, or after the trick in progress. -/
def execDailyTrick (s : State) : Res :=
  if s.bit GLB_STW_STAT.LOST_BOTH then .next s
  else
  let s := s.endDay
  if s.tel.trick.isSome then .next { s with tel := { s.tel with daily := true } }
  else .next ({ s with tel := { s.tel with daily := false } }.beginTrick none (s.ptime + 20000))

/-- TEL_IMG (R586, R598): refused, with IMG_ERR, where it enables an area that may not hold the image. -/
def execTelImgWrite (src : Src) (v : M64) (s : State) : Res :=
  if !pfOrFw src then .next s
  else
    let b := bitsOf v.toNat 0 48
    let en := bitsOf v.toNat 63 1
    let n := 16 * 2 ^ 20
    let bad := decide (b % n ≠ 0) || !s.inStore b n || s.inFwArea b n || (s.segsOf b n).any (fun j => !s.bit (MH_SEG_MAP.ASSIGNED j))
    if en = 1 ∧ bad then .next (s.wr TEL_TRICK_STAT.IMG_ERR 1)
    else .next (((s.wr TEL_IMG.BASE b).wr TEL_IMG.EN en).wr TEL_TRICK_STAT.VALID 0)

end Sys2Proof.Machine
end

