-- ==== Sys2Proof/Machine/KeyOps.lean ====
section
/-! DEFINITION. What the keyring's services share (R603 to R609): measurement slots, the attestation key, owner slots, roles. -/

namespace Sys2Proof.Machine

/-- The active steward: 0 SD0, 1 SD1. -/
def State.sd (s : State) : Nat := s.rd GLB_STW_STAT.ACTIVE_SD

/-- Words of a register array as bytes, and bytes written into them. -/
def State.wordsOf (s : State) (f : Nat → Field) (n : Nat) : List Byte := (List.range n).flatMap (fun w => leBytes 4 (s.rd (f w)))
def State.setWords (s : State) (f : Nat → Field) (n : Nat) (l : List Byte) : State := forN n (fun w s => s.wr (f w) (leField l (4 * w) 4)) s

/-- Measurement slot m of the active steward's keyring, and of the standby's (R609). -/
def State.meas (s : State) (m : Nat) : List Byte := s.wordsOf (KEY_MEAS.DIGEST m) 16
def State.sbySlot (s : State) (m : Nat) : List Byte := fixLen 64 (Tab.get [] s.key.sbyMeas m)

/-- Mi ← SHA-512(Mi ∥ d) (R609). -/
def extended (m d : List Byte) : List Byte := fixLen 64 (Config.sha512 (m ++ d))

def State.updKey (s : State) (f : Keyring → Keyring) : State := { s with key := f s.key }

/-- A slot of the active's keyring is extended, and of the standby's. -/
def State.extendOwn (s : State) (m : Nat) (d : List Byte) : State := s.setWords (KEY_MEAS.DIGEST m) 16 (extended (s.meas m) d)
def State.extendSby (s : State) (m : Nat) (d : List Byte) : State :=
  s.updKey (fun k => { k with sbyMeas := Tab.set [] k.sbyMeas m (extended (s.sbySlot m) d) })

/-- A slot of both keyrings is extended from the same event (R609). -/
def State.extendBoth (s : State) (m : Nat) (d : List Byte) : State := (s.extendOwn m d).extendSby m d

/-- The digest of a message (R609). -/
def digest (l : List Byte) : List Byte := fixLen 64 (Config.sha512 l)

/-- The attestation key of the active steward: derived from its device secret and M1 (R605). -/
def State.attSeed (s : State) : Nat := Config.derive (Config.deviceSecret s.sd) (s.meas 1)

/-- An Ed25519 signature by the attestation key (R605). -/
def State.attSign (s : State) (l : List Byte) : List Byte := fixLen 64 (Config.sign s.attSeed l)

/-- Is the active keyring ready to serve (R611)? -/
def State.keyReady (s : State) : Bool := decide (s.rd KEY_STAT.STATE = 1)

/-- The indicator of a service (R603, R625). -/
def State.service (s : State) (approved : Bool) : State := s.wr KEY_STAT.APPROVED (b2n approved)

/-- An owner key, and whether its slot is VALID and not REVOKED (R605, R607). -/
def State.ownerKey (s : State) (i : Nat) : List Byte := s.wordsOf (KEY_OWNER_KEY.KEY i) 8
def State.ownerOk (s : State) (i : Nat) : Bool := decide (i < 4) && s.bit (KEY_OWNER.VALID i) && !s.bit (KEY_OWNER.REVOKED i)

/-- The owner record that M2 measures (R609). -/
def State.ownerRecord (s : State) : List Byte :=
  let four := List.range 4
  four.flatMap (fun i => if s.bit (KEY_OWNER.VALID i) then s.ownerKey i else List.replicate 32 0) ++
  four.flatMap (fun i => fixLen 32 (Tab.get [] s.key.ops i)) ++
  leBytes 1 (four.foldl (fun t i => t + b2n (s.bit (KEY_OWNER.VALID i)) * 2 ^ i) 0) ++
  leBytes 1 (four.foldl (fun t i => t + b2n (s.bit (KEY_OWNER.REVOKED i)) * 2 ^ i) 0) ++
  leBytes 1 (s.rd KEY_STAT.COSIGN) ++ List.replicate 5 0

/-- A change of the owner record extends M2 of both keyrings, whose fuses hold the same (R608, R609; log entry 10). -/
def State.ownerChanged (s : State) (what slot : Nat) : State :=
  (s.extendBoth 2 (digest s.ownerRecord)).postPanel 0x0A03 31 1 (leBytes 1 what ++ leBytes 1 slot)

/-- The role of a PF's session (R604, R623): mailbox q belongs to function 8 q. -/
def State.role (s : State) (q : Nat) : Nat := s.rd (KEY_MBOX_CTL.ROLE q)

/-- May a source act as operator (R604): firmware, or a PF with a session? -/
def State.operator (s : State) (src : Src) : Bool :=
  match src with
  | .fw => true
  | .fn f => isPf f && decide (1 ≤ s.role (f / 8))

/-- Every role session and outstanding challenge ends (R604). -/
def State.dropRoles (s : State) : State :=
  (forN 2 (fun q s => s.wr (KEY_MBOX_CTL.ROLE q) 0) s).updKey (fun k => { k with chal := [], chalRole := [] })

/-- One PF's session ends (R604). -/
def State.dropRole (s : State) (q : Nat) : State :=
  (s.wr (KEY_MBOX_CTL.ROLE q) 0).updKey (fun k => { k with chal := Tab.set [] k.chal q [], chalRole := Tab.set 0 k.chalRole q 0 })

end Sys2Proof.Machine
end

