-- ==== Sys2Proof/Machine/Optics.lean ====
section
/-! DEFINITION. Optical engines, ports and laser sources (R353 to R381). A port is named by its ID; lane `i` of a port is 16 p + i of its engine. -/

namespace Sys2Proof.Machine

/-! ### Lanes and widths -/

/-- The engine lane of a port's lane (R353). -/
def laneL (n i : Nat) : Nat := 16 * portP n + i

def State.hstate (s : State) (n i : Nat) : Nat := s.rd (OE_LANE_STAT.HSTATE (portK n) (laneL n i))
def State.logical (s : State) (n i : Nat) : Nat := s.rd (OE_LANE_STAT.LOGICAL (portK n) (laneL n i))
def State.setLogical (s : State) (n i v : Nat) : State := s.wr (OE_LANE_STAT.LOGICAL (portK n) (laneL n i)) v

def State.updOpt (s : State) (f : Optics → Optics) : State := { s with opt := f s.opt }

/-- Firmware keeps a change as it happens (R375). -/
def State.noteOpt (s : State) (kind unit old new : Nat) : State :=
  s.updOpt (fun o => { o with changes := ⟨s.ptime, kind, unit, old, new⟩ :: o.changes })

/-- A lane's state is set; a change is kept (R375). -/
def State.setHstate (s : State) (n i v : Nat) : State :=
  let old := s.hstate n i
  let s := s.wr (OE_LANE_STAT.HSTATE (portK n) (laneL n i)) v
  if old = v then s else s.noteOpt 0 (48 * portK n + laneL n i) old v

/-- State of a port (R377). -/
def State.pstate (s : State) (n : Nat) : Nat := s.rd (OE_PORT_STAT.STATE (portK n) (portP n))
def State.setPstate (s : State) (n v : Nat) : State := s.wr (OE_PORT_STAT.STATE (portK n) (portP n)) v

/-- The lanes of a port in a state. -/
def State.lanesIn (s : State) (n : Nat) (f : Nat → Bool) : List Nat := (List.range 16).filter (fun i => f (s.hstate n i))

/-- The good lanes of a port: ACTIVE or STANDBY (R358). -/
def State.goodLanes (s : State) (n : Nat) : List Nat := s.lanesIn n (fun h => decide (h = 1) || decide (h = 2))

/-- The width code for a count of good lanes: the largest width that is not above the count nor below MINW; 3 none (R358). -/
def widthFor (cnt minw : Nat) : Nat :=
  if 15 ≤ cnt then 0 else if 12 ≤ cnt ∧ 1 ≤ minw then 1 else if 8 ≤ cnt ∧ 2 ≤ minw then 2 else 3

def State.minw (s : State) (n : Nat) : Nat := s.rd (OE_PORT_CTL.MINW (portK n) (portP n))

/-- OE_PORT_STAT.BAD shows the BAD lanes (R377). -/
def State.showBad (s : State) (n : Nat) : State :=
  s.wr (OE_PORT_STAT.BAD (portK n) (portP n)) ((s.lanesIn n (fun h => decide (h = 3))).foldl (fun t i => t + 2 ^ i) 0)

/-- A port's width changes: PORT_WIDTH is posted (R360, R375, R380). -/
def State.setWidth (s : State) (n code : Nat) : State :=
  let f := OE_PORT_STAT.WIDTH (portK n) (portP n)
  let old := s.rd f
  let s := s.wr f code
  if old = code then s else (s.noteOpt 2 n old code).postPanel 0x0301 31 1 (leBytes 1 n ++ leBytes 1 (widthOf old) ++ leBytes 1 (widthOf code))

/-- LANE_BAD (R363, R380). -/
def State.laneBad (s : State) (n i : Nat) (spare : Bool) : State :=
  s.postPanel 0x0300 31 1
    (leBytes 1 n ++ leBytes 1 (laneL n i) ++ leBytes 1 (widthOf (s.rd (OE_PORT_STAT.WIDTH (portK n) (portP n)))) ++ leBytes 1 (b2n spare))

/-- The W lowest of a port's good RX lanes carry logical lanes 0 to W − 1; the rest of them are STANDBY, and the others carry none (R358). -/
def State.setLanes (s : State) (n code : Nat) (good : List Nat) : State :=
  forN 16 (fun i s =>
    let j := good.findIdx (fun x => decide (x = i))
    if j < widthOf code then (s.setHstate n i 1).setLogical n i j
    else if good.contains i then (s.setHstate n i 2).setLogical n i 0xFF
    else s.setLogical n i 0xFF) s

/-- What a port's TX lanes carry, as the table holds it: logical lane + 1, 17 for a spare (R358). -/
def State.setTxLanes (s : State) (n code : Nat) (good : List Nat) : State :=
  s.updOpt (fun o => { o with
    txWidth := Tab.set 0 o.txWidth n (Nat.xor code 3)
    txLane := forN 16 (fun i t =>
      let j := good.findIdx (fun x => decide (x = i))
      Tab.set 0 t (16 * n + i) (if j < widthOf code then j + 1 else if good.contains i then 17 else 0)) o.txLane })

/-- A time exchange that a lane swap or width change spans is discarded (R408). -/
def State.spoilTime (s : State) (n : Nat) : State :=
  match s.jx.exch with
  | some e => if e.1 = n then { s with jx := { s.jx with exch := none } } else s
  | none => s

/-- The BAD lanes of a port that still carry a logical lane, lowest logical lane first (R363). -/
def State.carriers (s : State) (n : Nat) : List Nat :=
  ((List.range 15).filterMap (fun j => (List.range 16).find? (fun i => decide (s.logical n i = j) && decide (s.hstate n i = 3))))

/-- A port goes DOWN (R358, R371): its lane operations end, it has no width, its lanes carry nothing, and Jexlink on it is down; a BAD lane whose swap or
narrowing this cuts off is reported now (R363). -/
def State.portDown (s : State) (n v : Nat) : State :=
  let l := s.carriers n
  let s := (s.updOpt (fun o => { o with rxOp := Tab.set none o.rxOp n none, txOp := Tab.set none o.txOp n none })).setPstate n v
  let s := forN 16 (fun i s => s.setLogical n i 0xFF) ((s.setTxLanes n 3 []).setWidth n 3)
  (forL l (fun i s => s.laneBad n i false) s).jxDown n

/-- A port starts training (R360, R362): every lane is TRAINING, with its window cleared. -/
def State.trainPort (s : State) (n : Nat) : State :=
  let s := s.portDown n 1
  let s := forN 16 (fun i s => ((s.setHstate n i 0).setLogical n i 0xFF).wr (OE_LANE_STAT.CROSS (portK n) (laneL n i)) 0) s
  (s.updOpt (fun o => { o with cross := forN 16 (fun i t => Tab.set [] t (48 * portK n + laneL n i) []) o.cross })).showBad n

/-- May a port train: its engine in service and not dark, and the port enabled? -/
def State.mayTrainPort (s : State) (n : Nat) : Bool :=
  !s.bit (OE_STAT.DARK (portK n)) && s.bit (OE_PORT_CTL.EN (portK n) (portP n))

/-- The ports of an engine, and of a laser module's two engines (R17, R26). -/
def engPorts (k : Nat) : List Nat := [3 * k, 3 * k + 1, 3 * k + 2]
def elsPorts (k : Nat) : List Nat := engPorts (2 * k) ++ engPorts (2 * k + 1)

/-- An engine goes dark (R362, R371): its ports DOWN, its lanes DARK, its transport key gone (R602); the cause of an engine that has failed stays (R377). -/
def State.darken (s : State) (k cause : Nat) : State :=
  let failed := !s.bit (OE_STAT.INSERVICE k) && decide (s.rd (OE_STAT.CAUSE k) = 4)
  let s := (s.wr (OE_STAT.DARK k) 1).wr (OE_STAT.CAUSE k) (if failed then 4 else cause)
  let s := { s with key := { s.key with engKey := Tab.set 0 s.key.engKey k 0 } }
  forL (engPorts k) (fun n s =>
    let s := s.portDown n (if s.pstate n = 3 then 3 else 0)
    (forN 16 (fun i s => ((s.setHstate n i 4).setLogical n i 0xFF).wr (OE_LANE_STAT.LOCK k (laneL n i)) 0) s).showBad n) s

/-- The light comes back to an engine that nothing else keeps dark: its ports train (R360, R371, R374), and its sealing unit agrees a transport key
with the keyring, which is a free value (R602, R605; log entry 4). -/
def State.lighten (s : State) (k : Nat) : State :=
  let (v, s) := s.draw
  let s := { s with key := { s.key with engKey := Tab.set 0 s.key.engKey k (v + 1) } }
  let s := (s.wr (OE_STAT.DARK k) 0).wr (OE_STAT.CAUSE k) 0
  forL (engPorts k) (fun n s => if s.bit (OE_PORT_CTL.EN k (portP n)) then s.trainPort n else s) s

/-! ### Hitless lane swap (R363, R364) -/

/-- The receiver asks for a lane operation, and says so (R364). -/
def State.ask (s : State) (n : Nat) (o : LaneOp) : State :=
  (s.updOpt (fun p => { p with rxOp := Tab.set none p.rxOp n (some o) })).reportLctl n

/-- The width code of a port's receiver. -/
def State.width (s : State) (n : Nat) : Nat := s.rd (OE_PORT_STAT.WIDTH (portK n) (portP n))

/-- A port must narrow, to code `least` or a narrower one: it asks for the width that its good lanes allow, or goes DOWN where they and MINW allow none (R358,
R360: without training it never widens). -/
def State.narrow (s : State) (n bad least : Nat) : State :=
  let w := max least (widthFor (s.goodLanes n).length (s.minw n))
  if w < 3 ∧ w ≤ s.minw n then s.ask n { narrow := true, llane := bad, slane := 0, neww := w, fseq := none } else s.portDown n 0

/-- A port with a BAD lane that carries traffic swaps its lowest STANDBY lane in, or narrows; so does one that has fewer good lanes than its width (R358, R363); one
operation at a time. -/
def State.mend (s : State) (n : Nat) : State :=
  if (Tab.get none s.opt.rxOp n).isSome || decide (s.pstate n ≠ 2) then s
  else
    match s.carriers n with
    | [] =>
      let good := (s.goodLanes n).length
      if good < widthOf (s.width n) then s.narrow n good (s.width n) else s
    | i :: _ =>
      match s.lanesIn n (fun h => decide (h = 2)) with
      | sp :: _ => s.ask n { narrow := false, llane := s.logical n i, slane := sp, neww := 0, fseq := none }
      | [] => s.narrow n (s.logical n i) (s.width n)

/-- MINW of a port is written: one whose width is below it is DOWN (R358; that it does not wait is DEDUCED, log entry 12). -/
def State.minwWritten (s : State) (n : Nat) : State := if s.pstate n = 2 ∧ s.minw n < s.width n then s.portDown n 0 else s

/-- A lane turns BAD (R362, R363); one that carries nothing, or whose port is not UP, is reported at once. -/
def State.failLane (s : State) (n i : Nat) : State :=
  let was := s.hstate n i
  let s := (s.setHstate n i 3).showBad n
  if was = 1 ∧ s.pstate n = 2 then s else s.laneBad n i false

/-- The crossings of a lane within the last 600 s (R362). -/
def State.window (s : State) (key : Nat) : List Nat := (Tab.get [] s.opt.cross key).filter (fun t => decide (s.ptime < t + 600000000000))

/-- The end of a 1 s interval of an engine (R361, R362): its lanes are counted and judged. Its own module's
laser switches stand in the state; those at the far ends come with the counts. -/
def execLaneHealthInterval (k : Nat) (counts : LaneCounts) (s : State) : Res :=
  if 24 ≤ k || !s.bit (OE_STAT.INSERVICE k) then .next s
  else
    let judge := fun (l : Nat) (s : State) =>
      let n := 3 * k + l / 16
      let i := l % 16
      let key := 48 * k + l
      let c := counts.symbols.getD l 0
      let s := (s.wr (OE_LANE_SER.COUNT k l) (satTo (allOnes 32) c)).pcount (engNode k) (OE_LANE_CSYM.COUNT k l) (OE_PERF_WRAP.LANE_WRAP k) l c
      let old := s.window key
      let hit := (decide (s.rd (OE_LH_CFG.THR k) < c) || s.opt.lostNow.contains key) && !s.opt.switched.contains (8 * k + l % 8) && !counts.farSwitched.contains l &&
        (decide (s.hstate n i = 1) || decide (s.hstate n i = 2))
      let now := if hit then old ++ [s.ptime] else old
      let s := s.updOpt (fun o => { o with cross := Tab.set [] o.cross key now })
      if hit && decide (2 ≤ old.length) then s.failLane n i else s.wr (OE_LANE_STAT.CROSS k l) (min 2 now.length)
    let s := forN 48 judge s
    let s := s.updOpt (fun o => { o with
      lostNow := o.lostNow.filter (fun x => decide (x / 48 ≠ k))
      switched := o.switched.filter (fun x => decide (x / 8 ≠ k)) })
    .next (forL (engPorts k) (fun n s => s.mend n) s)

/-- A lane loses CDR or symbol lock, or regains it (R361). -/
def execLaneLockLoss (k l : Nat) (regained : Bool) (s : State) : Res :=
  if 24 ≤ k ∨ 48 ≤ l ∨ s.rd (OE_LANE_STAT.HSTATE k l) = 4 then .next s
  else if regained then .next (s.wr (OE_LANE_STAT.LOCK k l) 1)
  else
    let s := (s.lcount (engNode k) (0x010C + 16 * l) l (OE_LANE_LOCK.COUNT k l) 1).wr (OE_LANE_STAT.LOCK k l) 0
    .next (s.updOpt (fun o => { o with lostNow := if o.lostNow.contains (48 * k + l) then o.lostNow else o.lostNow ++ [48 * k + l] }))

/-- The receiver gives up a swap and narrows, the spare not counting (R364, R389). -/
def State.giveUpSwap (s : State) (n : Nat) : State :=
  match Tab.get none s.opt.rxOp n with
  | some o => if o.narrow || o.fseq.isSome then s else (s.updOpt (fun p => { p with rxOp := Tab.set none p.rxOp n none })).narrow n o.llane (s.width n + 1)
  | none => s

/-- 1 ms without a confirmation (R364). -/
def execSwapConfirmTimeout (n : Nat) (s : State) : Res := .next (s.giveUpSwap n)

/-- Both ends switch at flit F (R364, R418): the receiver, or the transmitter, which at a narrowing carries the logical lanes on those of its lanes that
the far receiver holds good, `farGood` (R358; how it learns them the spec does not say, log entry 12). A swap whose spare has turned BAD meanwhile has not helped: the
port looks for another spare, or narrows (R363, R381). -/
def execLaneSwitchAtFlit (n : Nat) (tx : SwitchEnd) (s : State) : Res :=
  let s := s.spoilTime n
  match tx with
  | .tx farGood =>
    match Tab.get none s.opt.txOp n with
    | none => .next s
    | some o =>
      let s := s.updOpt (fun p => { p with txOp := Tab.set none p.txOp n none })
      let lane := fun (i : Nat) => Tab.get 0 s.opt.txLane (16 * n + i)
      if o.narrow then .next (s.setTxLanes n o.neww ((List.range 16).filter (fun i => decide (lane i ≠ 0) && farGood.contains i)))
      else
        .next (s.updOpt (fun p => { p with txLane := forN 16 (fun i t =>
          if i = o.slane then Tab.set 0 t (16 * n + i) (o.llane + 1) else if lane i = o.llane + 1 then Tab.set 0 t (16 * n + i) 0 else t) p.txLane }))
  | .rx =>
    match Tab.get none s.opt.rxOp n with
    | none => .next s
    | some o =>
      if o.fseq.isNone then .next s
      else
        let bad := s.carriers n
        let s := s.updOpt (fun p => { p with rxOp := Tab.set none p.rxOp n none })
        if o.narrow then
          if s.minw n < o.neww then .next (s.portDown n 0)
          else
            let s := (s.setLanes n o.neww (s.goodLanes n)).setWidth n o.neww
            .next ((forL bad (fun i s => s.laneBad n i false) s).mend n)
        else if s.hstate n o.slane ≠ 2 then .next (s.mend n)
        else
          let old := bad.filter (fun i => decide (s.logical n i = o.llane))
          let s := forL old (fun i s => (s.setLogical n i 0xFF).noteOpt 1 n i o.slane) s
          let s := (s.setHstate n o.slane 1).setLogical n o.slane o.llane
          .next ((forL old (fun i s => s.laneBad n i true) s).mend n)

/-- A request of the far receiver: the transmitter names flit F and confirms (R364, R389); a swap is rejected while this end has a swap of its own
on that logical lane in progress. -/
def State.farAsks (s : State) (n : Nat) (c : Lctl) (narrow : Bool) : State :=
  if s.lstate n < 1 then s
  else
    let own := match Tab.get none s.opt.rxOp n with
      | some o => !o.narrow && !narrow && decide (o.llane = c.llane)
      | none => false
    let l := s.lctlNow n
    if own then s.sendLctl n { l with lop := 5, llane := c.llane, slane := c.slane, neww := 0, fseq := 0 }
    else
      let f := match Tab.get none s.opt.txOp n with
        | some o => if o.narrow = narrow ∧ o.llane = c.llane then o.fseq.getD (s.port n).txNext else (s.port n).txNext
        | none => (s.port n).txNext
      let s := s.updOpt (fun p => { p with txOp := Tab.set none p.txOp n (some { narrow := narrow, llane := c.llane, slane := c.slane, neww := c.neww, fseq := some f }) })
      s.sendLctl n { l with lop := if narrow then 4 else 2, llane := c.llane, slane := c.slane, neww := c.neww, fseq := f }

/-- The far transmitter's confirmation of the operation asked for (R364). -/
def State.farConfirms (s : State) (n : Nat) (c : Lctl) (narrow : Bool) : State :=
  match Tab.get none s.opt.rxOp n with
  | some o =>
    if o.narrow = narrow ∧ o.fseq.isNone = true ∧ (narrow = true ∨ (o.llane = c.llane ∧ o.slane = c.slane)) then
      s.updOpt (fun p => { p with rxOp := Tab.set none p.rxOp n (some { o with fseq := some c.fseq }) })
    else s
  | none => s

/-- The far transmitter's rejection: the swap has failed (R389; that the port then narrows is DEDUCED, log entry 12). -/
def State.farRejects (s : State) (n : Nat) (c : Lctl) : State :=
  match Tab.get none s.opt.rxOp n with
  | some o => if !o.narrow && decide (o.llane = c.llane) then s.giveUpSwap n else s
  | none => s

/-- LCTL_SWAP_REQ, LCTL_SWAP_CONF, LCTL_NARROW_REQ, LCTL_NARROW_CONF, LCTL_REJECT (R360, R364, R389). -/
def execLctlSwapReq (n : Nat) (c : Lctl) (s : State) : Res := .next (s.farAsks n c false)
def execLctlSwapConf (n : Nat) (c : Lctl) (s : State) : Res := .next (s.farConfirms n c false)
def execLctlNarrowReq (n : Nat) (c : Lctl) (s : State) : Res := .next (s.farAsks n c true)
def execLctlNarrowConf (n : Nat) (c : Lctl) (s : State) : Res := .next (s.farConfirms n c true)
def execLctlReject (n : Nat) (c : Lctl) (s : State) : Res := .next (s.farRejects n c)

/-! ### Training -/

/-- RETRAIN (R360, R381): the port goes DOWN and trains. -/
def execPortRetrainWrite (src : Src) (n : Nat) (s : State) : Res :=
  if !pfOrFw src || decide (72 ≤ n) || !s.mayTrainPort n then .next s else .next (s.trainPort n)

/-- RETEST of a BAD lane of a port that is UP (R362); its crossings are cleared with its TRAINING (DEDUCED, log entry 12). -/
def execLaneRetest (src : Src) (k l : Nat) (good : Bool) (s : State) : Res :=
  let n := 3 * k + l / 16
  if !pfOrFw src || decide (24 ≤ k) || decide (48 ≤ l) || decide (s.pstate n ≠ 2) || decide (s.hstate n (l % 16) ≠ 3) ||
    decide (s.logical n (l % 16) ≠ 0xFF) then .next s
  else if good then
    let s := (s.updOpt (fun o => { o with cross := Tab.set [] o.cross (48 * k + l) [] })).wr (OE_LANE_STAT.CROSS k l) 0
    .next (((s.setHstate n (l % 16) 2).wr (OE_LANE_STAT.LOCK k l) 1).showBad n)
  else .next (s.laneBad n (l % 16) false)

/-- The module of an engine, and the feed fibre's output that the module reports (R26, R365, R669). -/
def elsOf (k : Nat) : Nat := k / 2
def State.feedOut (s : State) (k f : Nat) : Nat :=
  let i := 4 * (k % 2) + f
  if i % 2 = 0 then s.rd (ELS_FEED.FEEDlo (elsOf k) (i / 2)) else s.rd (ELS_FEED.FEEDhi (elsOf k) (i / 2))

/-- A feed fibre's loss, 0.01 dB (R365). -/
def State.feedLoss (s : State) (k f : Nat) : Nat := (sgn 16 (s.feedOut k f) - sgn 16 (s.rd (OE_FEED.POWER k f))).toNat

/-- The baselines of an RX fibre and of a feed fibre are taken; one at LOS keeps its own (R366, R367, R381). -/
def State.baseFibre (s : State) (k j : Nat) : State :=
  if s.rd (OE_FSTAT.LEVEL k j) = 3 then s
  else
    let s := s.wr (OE_FLOSS.BASE k j) (s.rd (OE_FLOSS.LOSS k j))
    s.updOpt (fun o => { o with rxBase := Tab.set 0 o.rxBase (6 * k + j) (s.rd (OE_FRX.POWER k j) + 1) })
def State.baseFeed (s : State) (k f : Nat) : State :=
  if s.rd (OE_FEED.LEVEL k f) = 3 then s
  else s.updOpt (fun o => { o with feedBase := Tab.set 0 o.feedBase (4 * k + f) (s.feedLoss k f + 1) })

/-- Which of a list of baselines are held, as a mask. -/
def heldMask (l : List Nat) : Nat := (List.range l.length).foldl (fun t i => if l.getD i 0 = 0 then t else t + 2 ^ i) 0

/-- The baselines of an engine go into the logbook (R367, R593; the record's layout is the model's, log entry 106): which of the six fibres' and four feeds' are held,
fibre losses and RX powers, then feed losses. -/
def State.logBase (s : State) (k : Nat) : State :=
  let fib := (List.range 6).map (fun j => Tab.get 0 s.opt.rxBase (6 * k + j))
  let feed := (List.range 4).map (fun f => Tab.get 0 s.opt.feedBase (4 * k + f))
  s.logWrite 0x0A (engNode k) (leBytes 2 (heldMask (fib ++ feed)) ++
    (List.range 6).flatMap (fun j => leBytes 2 (s.rd (OE_FLOSS.BASE k j)) ++ leBytes 2 (fib.getD j 0 - 1)) ++ feed.flatMap (fun b => leBytes 2 (b - 1)))

/-- The bias baselines of a module's lasers go into the logbook (R369, R593; layout as above): which of the 16 are held, then each primary's and spare's by wavelength. -/
def State.logLaser (s : State) (k : Nat) : State :=
  let l := (List.range 16).map (fun i => Tab.get 0 s.opt.laserBase (16 * k + i))
  s.logWrite 0x0A (0x0200 + k) (leBytes 2 (heldMask l) ++ l.flatMap (fun b => leBytes 2 (b - 1)))

/-- The baseline of a wavelength's active laser is taken at its first start, from its bias (R369). -/
def State.baseLaser (s : State) (k w b : Nat) : State :=
  let key := 16 * k + 2 * w + s.rd (OE_ELS_BIAS.ON_SPARE k w)
  let s := if Tab.get 0 s.opt.laserBase key = 0 then s.updOpt (fun o => { o with laserBase := Tab.set 0 o.laserBase key (b % 65536 + 1) }) else s
  s.wr (OE_ELS_BIAS.BASE k w) (Tab.get 0 s.opt.laserBase key - 1)

/-- OE_BASELINE (R367, R381). -/
def execBaselineWrite (src : Src) (k : Nat) (v : W32) (s : State) : Res :=
  if !pfOrFw src || decide (24 ≤ k) then .next s
  else
    let s := if bitOf v.toNat 0 then forN 6 (fun j s => s.baseFibre k j) s else s
    let s := if bitOf v.toNat 1 then forN 4 (fun f s => s.baseFeed k f) s else s
    .next (if bitOf v.toNat 0 || bitOf v.toNat 1 then s.logBase k else s)

/-- At a port's first UP the baselines that no record gives are taken (R367). -/
def State.firstBase (s : State) (n : Nat) : State :=
  let k := portK n
  let fib := [2 * portP n, 2 * portP n + 1].filter (fun j => decide (Tab.get 0 s.opt.rxBase (6 * k + j) = 0))
  let feed := [0, 1, 2, 3].filter (fun f => decide (Tab.get 0 s.opt.feedBase (4 * k + f) = 0))
  if fib.isEmpty && feed.isEmpty then s else (forL feed (fun f s => s.baseFeed k f) (forL fib (fun j s => s.baseFibre k j) s)).logBase k

/-- ELS_SWAP (R380). -/
def State.elsEvent (s : State) (k phase : Nat) : State := s.postPanel 0x0306 31 1 (leBytes 1 k ++ leBytes 1 phase)

/-- A module's swap is over once it shines and none of its ports is training (R374, step 8). -/
def State.elsBack (s : State) (k : Nat) : State :=
  if Tab.get 0 s.opt.swap k = 2 ∧ s.rd (OE_ELS_STAT.STATE k) = 2 ∧ (elsPorts k).all (fun n => decide (s.pstate n ≠ 1)) = true then
    (s.updOpt (fun o => { o with swap := Tab.set 0 o.swap k 0 })).elsEvent k 4
  else s

/-- Training ends (R358, R362, R367): `rx` are the port's lanes that trained, `tx` the lanes that the far end reports good. -/
def execPortTrainingComplete (n : Nat) (rx tx : List Nat) (s : State) : Res :=
  if 72 ≤ n ∨ s.pstate n ≠ 1 then .next s
  else
    let good := (List.range 16).filter (fun i => rx.contains i)
    let gtx := (List.range 16).filter (fun i => tx.contains i)
    let w := widthFor good.length (s.minw n)
    let wt := widthFor gtx.length (s.minw n)
    let bad := (List.range 16).filter (fun i => !rx.contains i)
    let s := (forL bad (fun i s => s.setHstate n i 3) s).showBad n
    let s := forL good (fun i s => s.wr (OE_LANE_STAT.LOCK (portK n) (laneL n i)) 1) s
    let s := if w = 3 ∨ wt = 3 then s.setPstate n 0
      else ((((s.setLanes n w good).setTxLanes n wt gtx).setPstate n 2).setWidth n w).firstBase n
    let s := forL bad (fun i s => s.laneBad n i false) s
    .next (s.elsBack (elsOf (portK n)))

/-- EN of a port is written (R377): at 0 it is DISABLED, and at 1 it trains again. -/
def State.enablePort (s : State) (n : Nat) (on : Bool) : State :=
  let s := s.wr (OE_PORT_CTL.EN (portK n) (portP n)) (b2n on)
  if on then
    if s.pstate n ≠ 3 then s else if s.bit (OE_STAT.DARK (portK n)) then s.setPstate n 0 else s.trainPort n
  else (s.portDown n 3).elsBack (elsOf (portK n))

/-! ### Power and loss (R365, R366) -/

/-- The level of a fibre's or feed's loss over its baseline (R366). -/
def lossLevel (los lowAny : Bool) (rise : Int) (warn low : Nat) : Nat :=
  if los then 3 else if lowAny || decide ((low * 10 : Nat) ≤ rise) then 2 else if ((warn * 10 : Nat) : Int) ≤ rise then 1 else 0

/-- An RX fibre is judged (R366). -/
def State.judgeFibre (s : State) (k j : Nat) : State :=
  let rx := sgn 16 (s.rd (OE_FRX.POWER k j))
  let far := Tab.get 0 s.opt.farTx (6 * k + j)
  let nofar := s.bit (OE_FSTAT.NOFAR k j)
  let loss := if nofar then s.rd (OE_FLOSS.LOSS k j) else (sgn 16 (far - 1) - rx).toNat
  let s := s.wr (OE_FLOSS.LOSS k j) (satTo (allOnes 16) loss)
  let base := Tab.get 0 s.opt.rxBase (6 * k + j)
  let rise : Int := if base = 0 then 0 else if nofar then sgn 16 (base - 1) - rx else (loss : Int) - s.rd (OE_FLOSS.BASE k j)
  let new := lossLevel (decide (rx < -1400)) (!nofar && decide (500 ≤ loss)) rise (s.rd (OE_PWR_CFG.WARN_DB k)) (s.rd (OE_PWR_CFG.LOW_DB k))
  let old := s.rd (OE_FSTAT.LEVEL k j)
  let s := s.wr (OE_FSTAT.LEVEL k j) new
  if old = new then s else s.postPanel 0x0302 31 1 (leBytes 1 k ++ leBytes 1 j ++ leBytes 1 new ++ leBytes 1 0 ++ leBytes 2 (unsgn 16 rise))

/-- A feed fibre is judged (R366). -/
def State.judgeFeed (s : State) (k f : Nat) : State :=
  let loss := s.feedLoss k f
  let base := Tab.get 0 s.opt.feedBase (4 * k + f)
  let rise : Int := if base = 0 then 0 else (loss : Int) - (base - 1 : Nat)
  let new := lossLevel (decide (sgn 16 (s.rd (OE_FEED.POWER k f)) < -600)) false rise (s.rd (OE_PWR_CFG.WARN_DB k)) (s.rd (OE_PWR_CFG.LOW_DB k))
  let old := s.rd (OE_FEED.LEVEL k f)
  let s := (s.wr (OE_FEED.LOSS k f) (satTo 255 (loss / 10))).wr (OE_FEED.LEVEL k f) new
  if old = new then s
  else s.postPanel 0x0303 31 1 (leBytes 1 (elsOf k) ++ leBytes 1 k ++ leBytes 1 f ++ leBytes 1 new ++ leBytes 2 (unsgn 16 rise))

/-- A packet for the far end of a port's own link (R386, VC7 types). -/
def State.sendLink (s : State) (n ptype : Nat) (data : List Byte) : State :=
  let h := { jxHdr0 with
    vc := 7, ptype := ptype, ndata := ceilDiv data.length 64, hops := s.rd JX_CFG.HOPS
    dst := s.rd (JX_PORT_FAR.PANEL (portK n) (portP n)), src := s.rd JX_SELF.ID, len := data.length, pcrc := crc32 data }
  (s.updPort n (fun x => { x with queue := x.queue ++ [⟨h, data, 72, 7⟩] })).pump n

/-- An UP port reports its engine's TX fibre powers to its far end (R365, R386). -/
def State.linkInfo (s : State) (n : Nat) : State :=
  if s.lstate n = 2 then s.sendLink n 0x14 ((List.range 6).flatMap (fun j => leBytes 2 (s.rd (OE_FTX.POWER (portK n) j)))) else s

/-- The measurements of an engine's second (R365, R366), with the output of each feed as its module reports it, and LINKINFO on each port.
A port both of whose RX fibres are at LOS goes DOWN (R679). -/
def execOpticalPowerSample (k : Nat) (tx rx feed out : List Int) (s : State) : Res :=
  if 24 ≤ k || !s.bit (OE_STAT.INSERVICE k) then .next s
  else
    let s := forN 6 (fun j s => (s.wr (OE_FTX.POWER k j) (unsgn 16 (tx.getD j 0))).wr (OE_FRX.POWER k j) (unsgn 16 (rx.getD j 0))) s
    let s := forN 4 (fun f s =>
      let i := 4 * (k % 2) + f
      let g := if i % 2 = 0 then ELS_FEED.FEEDlo (elsOf k) (i / 2) else ELS_FEED.FEEDhi (elsOf k) (i / 2)
      (s.wr (OE_FEED.POWER k f) (unsgn 16 (feed.getD f 0))).wr g (unsgn 16 (out.getD f 0))) s
    let s := forN 4 (fun f s => s.judgeFeed k f) (forN 6 (fun j s => s.judgeFibre k j) s)
    .next (forL (engPorts k) (fun n s =>
      if s.pstate n = 2 ∧ s.rd (OE_FSTAT.LEVEL k (2 * portP n)) = 3 ∧ s.rd (OE_FSTAT.LEVEL k (2 * portP n + 1)) = 3 then s.portDown n 0 else s.linkInfo n) s)

/-- 5 s without a report of the far TX power (R366). -/
def execNofarTimeout (k j : Nat) (s : State) : Res :=
  if 24 ≤ k ∨ 6 ≤ j then .next s else .next ((s.wr (OE_FSTAT.NOFAR k j) 1).judgeFibre k j)

/-- The far end's TX powers arrive (R365, LINKINFO): port `n` takes those of its own two fibres (DEDUCED, log entry 12: TX fibre j lands on RX fibre
j, R356). -/
def State.farPowers (s : State) (n : Nat) (data : List Byte) : State :=
  forL [2 * portP n, 2 * portP n + 1] (fun j s =>
    let v := leNat ((data.drop (2 * j)).take 2)
    (s.updOpt (fun o => { o with farTx := Tab.set 0 o.farTx (6 * portK n + j) (v + 1) })).wr (OE_FSTAT.NOFAR (portK n) j) 0) s

/-- A reading enters the day's statistics (R375). -/
def State.daily (s : State) (key : Nat) (v : Int) : State :=
  let d := (Tab.get { n := 0, least := 0, most := 0, sum := 0 } s.opt.margins key : Daily)
  let d' : Daily := if d.n = 0 then { n := 1, least := v, most := v, sum := v } else { n := d.n + 1, least := min d.least v, most := max d.most v, sum := d.sum + v }
  s.updOpt (fun o => { o with margins := Tab.set { n := 0, least := 0, most := 0, sum := 0 } o.margins key d' })

/-- Firmware samples the readings of R375, from the start again at each new day, which DAILY_TRICK begins where it comes: lanes (keys from 0), fibres (from 10,000), feed fibres (from 20,000), lasers (from 30,000). -/
def execMarginSample (s : State) : Res :=
  if s.bit GLB_STW_STAT.LOST_BOTH then .next s
  else
  let s := if s.opt.day = dayOf s.ptime then s else s.updOpt (fun o => { o with margins := [], day := dayOf s.ptime })
  let s := forN 24 (fun k s => forN 48 (fun l s =>
    let b := 3 * (48 * k + l)
    ((s.daily b (s.rd (OE_LANE_SER.COUNT k l))).daily (b + 1) (s.rd (OE_LANE_LOCK.COUNT k l))).daily (b + 2) (s.rd (OE_LANE_STAT.CROSS k l))) s) s
  let s := forN 24 (fun k s => forN 6 (fun j s =>
    let b := 10000 + 3 * (6 * k + j)
    ((s.daily b (sgn 16 (s.rd (OE_FTX.POWER k j)))).daily (b + 1) (sgn 16 (s.rd (OE_FRX.POWER k j)))).daily (b + 2) (s.rd (OE_FLOSS.LOSS k j))) s) s
  let s := forN 24 (fun k s => forN 4 (fun f s =>
    let b := 20000 + 2 * (4 * k + f)
    (s.daily b (sgn 16 (s.rd (OE_FEED.POWER k f)))).daily (b + 1) (s.feedLoss k f)) s) s
  .next (forN 12 (fun m s => forN 8 (fun w s =>
    let b := 30000 + 2 * (8 * m + w)
    (s.daily b (s.rd (OE_ELS_BIAS.BIAS m w))).daily (b + 1) (s.rd (ELS_LAS.COOLER m w))) s) s)

/-! ### Laser sources (R368 to R374) -/

/-- The wavelengths of a module are dark on both its engines (R370): their lanes become BAD, and the ports swap or narrow. -/
def State.darkWave (s : State) (m w : Nat) : State :=
  let ports := elsPorts m
  let s := forL ports (fun n s => forL [w, w + 8] (fun i s =>
    if s.hstate n i = 1 ∨ s.hstate n i = 2 then s.failLane n i else s) s) s
  forL ports (fun n s => s.mend n) s

/-- LASER_SPARED (R370, R380). -/
def State.sparedEvent (s : State) (m w how : Nat) : State :=
  s.postPanel 0x0305 31 1 (leBytes 1 m ++ leBytes 1 w ++ leBytes 1 how ++ leBytes 1 0 ++ leBytes 2 (s.rd (OE_ELS_BIAS.BIAS m w)) ++ leBytes 2 (s.rd (OE_ELS_BIAS.BASE m w)))

/-- The active laser of a wavelength gives out: its spare takes over, or with no spare left the wavelength has FAILED (R370). The outage makes no
crossing (R361). -/
def State.switchLaser (s : State) (m w how : Nat) : State :=
  let s := ((s.noteOpt 3 (8 * m + w) (s.rd (OE_ELS_BIAS.ON_SPARE m w)) how).wr (OE_ELS_STAT.REPLACE m) 1).updOpt (fun o => { o with switched := o.switched ++ [8 * (2 * m) + w, 8 * (2 * m + 1) + w] })
  if s.bit (OE_ELS_BIAS.ON_SPARE m w) || s.bit (OE_ELS_BIAS.SPARE_FAIL m w) then
    let s := (s.wr (OE_ELS_BIAS.SPARE_FAIL m w) 1).wrBit (OE_ELS_STAT.FAILED m) w true
    let s := (s.wr (ELS_LAS.SPARE_FAIL m w) 1).wrBit (ELS_STAT.FAILED m) w true
    (s.sparedEvent m w 2).darkWave m w
  else
    let s := s.sparedEvent m w how
    let s := (s.wr (OE_ELS_BIAS.ON_SPARE m w) 1).wrBit (OE_ELS_STAT.SPARED m) w true
    let s := (s.wr (ELS_LAS.ON_SPARE m w) 1).wrBit (ELS_STAT.SPARED m) w true
    s.wr (OE_ELS_BIAS.BASE m w) (Tab.get 0 s.opt.laserBase (16 * m + 2 * w + 1) - 1)

/-- The module compares each laser's bias with its baseline (R369): the switch at end of life gives way to a swap request (R381). -/
def execLaserTrendCheck (k : Nat) (bias : LaserReads) (weak : List Nat) (s : State) : Res :=
  if 12 ≤ k ∨ s.rd (OE_ELS_STAT.STATE k) ≠ 2 then .next s
  else
    let had := s.opt.laserBase
    let t := forN 8 (fun w s =>
      let s := s.wr (ELS_LAS.COOLER k w) (bias.cooler.getD w 0)
      if bitOf (s.rd (OE_ELS_STAT.FAILED k)) w then s
      else
        let b := bias.bias.getD w 0
        let s := (s.wr (OE_ELS_BIAS.BIAS k w) b).wr (ELS_LAS.BIAS k w) b
        let s := s.baseLaser k w b
        let base := s.rd (OE_ELS_BIAS.BASE k w)
        let past := fun (pct : Nat) => decide (base * (100 + pct) < b % 65536 * 100)
        let s := if past (s.rd (OE_ELS_CFG.WARN_PCT k)) && !s.opt.warned.contains (8 * k + w) then
            (s.updOpt (fun o => { o with warned := o.warned ++ [8 * k + w] })).postPanel 0x0304 31 0
              (leBytes 1 k ++ leBytes 1 w ++ leBytes 2 0 ++ leBytes 2 b ++ leBytes 2 base)
          else s
        if (past (s.rd (OE_ELS_CFG.EOL_PCT k)) || weak.contains w) && decide (Tab.get 0 s.opt.swap k ≠ 1) then s.switchLaser k w 0 else s) s
    .next (if t.opt.laserBase = had then t else t.logLaser k)

/-- An active laser's output falls 3 dB within 1 ms (R369, R370, R381). -/
def execLaserSuddenFail (k w : Nat) (s : State) : Res :=
  if 12 ≤ k || 8 ≤ w || s.rd (OE_ELS_STAT.STATE k) ≠ 2 || bitOf (s.rd (OE_ELS_STAT.FAILED k)) w then .next s else .next (s.switchLaser k w 1)

/-- The code of a module's indicators by its STATE (R666, R669): ON shows green, WARMING green flashing, SWAP_READY amber. -/
def elsInd (st : Nat) : Nat := if st = 2 then 1 else if st = 1 then 4 else if st = 3 then 2 else 0

/-- A module's STATE, with IND (R666). -/
def State.setEls (s : State) (k st : Nat) : State := (s.wr (OE_ELS_STAT.STATE k) st).wr (ELS_CTL.IND k) (elsInd st)

/-- A module's lasers are off (R372, R374). -/
def State.elsOff (s : State) (k st : Nat) : State := (s.setEls k st).wr (ELS_CTL.LASER_EN k) 0

/-- The interlock of a module breaks (R371, R372, R381): without SWAP_READY before it, its engines go dark at once and phase 7 is posted. -/
def execInterlockBreak (k : Nat) (s : State) : Res :=
  if 12 ≤ k || !s.bit (OE_ELS_STAT.PRESENT k) then .next s
  else
    let ready := decide (s.rd (OE_ELS_STAT.STATE k) = 3)
    let s := ((s.wr (OE_ELS_STAT.PRESENT k) 0).wr (OE_ELS_STAT.VERIFIED k) 0).elsOff k 0
    let s := ((s.wr (ELS_STAT.ILK_A k) 0).wr (ELS_STAT.ILK_B k) 0).wr (ELS_STAT.LOCKED k) 0
    let s := s.updOpt (fun o => { o with swap := Tab.set 0 o.swap k (if ready then 3 else 0) })
    if ready then .next s
    else
      let cause := if s.engPowered (2 * k) then 2 else 3
      .next (((s.darken (2 * k) cause).darken (2 * k + 1) cause).elsEvent k 7)

/-- The grid of R354, in MHz. -/
def gridMHz (w : Nat) : Nat := 231400000 - 400000 * w

/-- Does a module's record name part PRA-ELS, carry the grid and pass its CRC (R373, R669)? -/
def elsRecordOk (r : List Byte) : Bool :=
  let f := fun b n => leNat ((r.drop b).take n)
  decide (r.length = 128) && decide (f 0 4 = 0x49445245) && decide (f 4 1 = 1) && decide (f 5 1 = 1) && decide (f 124 4 = crc32 (r.take 124)) &&
    (List.range 8).all (fun w => decide (f (24 + 8 * w) 4 = gridMHz w))

/-- A module in place is powered and verified by the steward (R373, R374 step 5); where its cartridge is out (R381), or with no steward, it waits. -/
def State.verifyEls (s : State) (k : Nat) (record : List Byte) : State :=
  if !s.engPowered (2 * k) || s.bit GLB_STW_STAT.LOST_BOTH then s
  else if elsRecordOk record then
    let f := fun b n => leNat ((record.drop b).take n)
    let s := ((s.wr (OE_ELS_ID.SERIAL k) (f 8 6)).wr (OE_ELS_ID.HWREV k) (f 6 1)).wr (OE_ELS_STAT.VERIFIED k) 1
    (s.setEls k 1).elsEvent k 3
  else
    let s := ((s.wr (OE_ELS_STAT.VERIFIED k) 0).elsOff k 0).wr (ELS_CTL.IND k) 3
    (s.updOpt (fun o => { o with swap := Tab.set 0 o.swap k 0 })).elsEvent k 5

/-- Step 4 of R374: with its cartridge in place the module's insertion is posted, and it is powered and verified; without it the swap waits (R381). -/
def State.elsSeated (s : State) (k : Nat) : State :=
  let on := s.engPowered (2 * k)
  let s := s.updOpt (fun o => { o with swap := Tab.set 0 o.swap k (if on then 2 else 3) })
  if on then (s.elsEvent k 2).verifyEls k (Tab.get [] s.opt.modRec k) else s

/-- A module is inserted: its interlock mates (R373, R374). A fresh module has its primary lasers active, and baselines of its own. -/
def execModuleInsert (k : Nat) (record : List Byte) (s : State) : Res :=
  if 12 ≤ k || s.bit (OE_ELS_STAT.PRESENT k) then .next s
  else
    let s := ((s.wr (OE_ELS_STAT.PRESENT k) 1).wr (ELS_STAT.ILK_A k) 1).wr (ELS_STAT.ILK_B k) 1
    let s := s.updOpt (fun o => { o with
      modRec := Tab.set [] o.modRec k record
      warned := o.warned.filter (fun x => decide (x / 8 ≠ k))
      laserBase := o.laserBase.filter (fun e => decide (e.1 / 16 ≠ k)) })
    let s := ((s.wr (OE_ELS_STAT.SPARED k) 0).wr (OE_ELS_STAT.FAILED k) 0).wr (ELS_STAT.SPARED k) 0
    let s := (s.wr (ELS_STAT.FAILED k) 0).wr (OE_ELS_STAT.REPLACE k) 0
    let s := forN 8 (fun w s => (((s.wr (OE_ELS_BIAS.ON_SPARE k w) 0).wr (OE_ELS_BIAS.SPARE_FAIL k w) 0).wr (ELS_LAS.ON_SPARE k w) 0).wr (ELS_LAS.SPARE_FAIL k w) 0) s
    .next (s.elsSeated k)

/-- At a failover the new active steward verifies again a module whose swap is at step 5 or 6, and which stays dark until then (R381). -/
def State.reverifyEls (s : State) : State :=
  forN 12 (fun k s =>
    if s.bit (OE_ELS_STAT.PRESENT k) && decide (Tab.get 0 s.opt.swap k = 2) && decide (s.rd (OE_ELS_STAT.STATE k) < 2) then
      ((s.wr (OE_ELS_STAT.VERIFIED k) 0).elsOff k 0).verifyEls k (Tab.get [] s.opt.modRec k)
    else s) s

/-- The coolers lock every wavelength: the lasers come on, their baselines are taken, and the ports train (R360, R374 steps 6 and 7; R369). -/
def execLaserWarmupComplete (k : Nat) (bias : List Nat) (s : State) : Res :=
  if 12 ≤ k || s.rd (OE_ELS_STAT.STATE k) ≠ 1 || !s.bit (OE_ELS_STAT.VERIFIED k) || !s.bit (OE_ELS_STAT.PRESENT k) then .next s
  else
    let s := ((s.wr (ELS_STAT.LOCKED k) 1).wr (ELS_CTL.LASER_EN k) 1).setEls k 2
    let s := forN 8 (fun w s =>
      let b := bias.getD w 0
      ((s.wr (OE_ELS_BIAS.BIAS k w) b).wr (ELS_LAS.BIAS k w) b).baseLaser k w b) s
    let s := s.logLaser k
    let up := fun (e : Nat) (s : State) => if s.bit (OE_STAT.INSERVICE e) && decide (s.rd (OE_STAT.CAUSE e) ≠ 4) && s.engPowered e then s.lighten e else s
    .next ((up (2 * k + 1) (up (2 * k) s)).elsBack k)

/-! ### Swap of a module (R374, R400) -/

/-- Is nothing left to drain on a port (R400)? -/
def State.drained (s : State) (n : Nat) : Bool := decide (s.lstate n ≠ 3) || ((s.port n).queue.isEmpty && (s.port n).unacked.isEmpty)

/-- Step 2 of R374, once the six ports have drained: the steward turns the lasers off, and the engines go dark. -/
def State.elsReady (s : State) (k : Nat) : State :=
  if Tab.get 0 s.opt.swap k = 1 ∧ s.bit GLB_STW_STAT.LOST_BOTH = false ∧ (elsPorts k).all s.drained = true then
    let s := ((s.elsOff k 0).darken (2 * k) 1).darken (2 * k + 1) 1
    s.updOpt (fun o => { o with swap := Tab.set 0 o.swap k 4 })
  else s

/-- Step 3 of R374: SWAP_READY, and the module may be pulled. It follows step 2 within 40 ms, while SWAP_CANCEL may still come: at the next tick of panel time
(DESIGN CHOICE, log entry 12). -/
def State.elsTick (s : State) : State :=
  if s.opt.swap.all (fun e => decide (e.2 ≠ 4)) || s.bit GLB_STW_STAT.LOST_BOTH then s
  else
    forN 12 (fun k s =>
      if Tab.get 0 s.opt.swap k = 4 then ((s.setEls k 3).updOpt (fun o => { o with swap := Tab.set 0 o.swap k 3 })).elsEvent k 0 else s) s

/-- SWAP_REQ of a module (R374): the steward has the router drain its six ports (R400). -/
def State.elsSwap (s : State) (k : Nat) : State :=
  if 12 ≤ k || !s.bit (OE_ELS_STAT.PRESENT k) || s.bit GLB_STW_STAT.LOST_BOTH || [1, 3, 4].contains (Tab.get 0 s.opt.swap k) then s
  else
    let s := s.updOpt (fun o => { o with swap := Tab.set 0 o.swap k 1 })
    (forL (elsPorts k) (fun n s => if s.lstate n = 2 then s.wr (JX_PORT_STAT.LSTATE (portK n) (portP n)) 3 else s) s).elsReady k

def execElsSwapReq (src : Src) (k : Nat) (s : State) : Res := if pfOrFw src then .next (s.elsSwap k) else .next s

/-- SWAP_CANCEL before SWAP_READY: the ports go on, or after step 2 the lasers are lit again through their warm-up (R374, R379). -/
def execElsSwapCancel (src : Src) (k : Nat) (s : State) : Res :=
  if !pfOrFw src || decide (12 ≤ k) || s.bit GLB_STW_STAT.LOST_BOTH || decide (Tab.get 0 s.opt.swap k ≠ 1 ∧ Tab.get 0 s.opt.swap k ≠ 4) then .next s
  else
    let off := decide (Tab.get 0 s.opt.swap k = 4)
    let s := s.updOpt (fun o => { o with swap := Tab.set 0 o.swap k 0 })
    let s := if off then s.setEls k 1 else s
    let s := forL (elsPorts k) (fun n s => if s.lstate n = 3 then s.wr (JX_PORT_STAT.LSTATE (portK n) (portP n)) 2 else s) s
    .next (s.elsEvent k 6)

/-- A port has drained (R400). -/
def execDrainComplete (n : Nat) (s : State) : Res := if 72 ≤ n then .next s else .next (s.elsReady (elsOf (portK n)))

/-- A drain has not completed in 10 ms (R400): what is queued takes other candidates or is dropped, and the flits not acknowledged are lost. -/
def execDrainTimeout (n : Nat) (s : State) : Res :=
  if 72 ≤ n ∨ s.lstate n ≠ 3 then .next s
  else
    let s := (s.moveQueue n).updPort n (fun x => { x with unacked := [] })
    .next (s.elsReady (elsOf (portK n)))

end Sys2Proof.Machine
end

