-- ==== Sys2Proof/Machine/Seal.lean ====
section
/-! DEFINITION. Key agreement of sealed ports (R410, R619, R620). -/

namespace Sys2Proof.Machine

/-- SSTATE of a port is written. -/
def State.setSstate (s : State) (n v : Nat) : State := s.wr (JX_PORT_STAT.SSTATE (portK n) (portP n)) v

/-- JX_SEAL (R417). -/
def State.sealEvent (s : State) (n : Nat) : State :=
  s.postPanel 0x0402 31 1 (leBytes 1 n ++ leBytes 1 (s.sstate n) ++ leBytes 2 (s.rd (JX_PORT_ERR.AUTHFAIL (portK n) (portP n))))

/-- An agreement fails (R620): FAILED, and the keys of the port are gone. -/
def State.sealFail (s : State) (n : Nat) : State :=
  let s := s.updPort n (fun x => { x with agr := none, txKey := none, rxKey := none, txCtr := 0, rxCtr := 0 })
  (s.setSstate n 3).sealEvent n

/-- This end's OFFER (R619): KIND, port, nonce, X25519 value, signature. -/
def State.offerOf (s : State) (n priv : Nat) (nonce : List Byte) : List Byte :=
  let body := leBytes 2 1 ++ leBytes 2 n ++ fixLen 32 nonce ++ fixLen 32 (Config.x25519Pub priv)
  body ++ s.attSign body

/-- A port starts an agreement (R619): AGREEING unless it is a rekey, during which it stays SEALED under the old key (R620; DEDUCED, log entry 14); its
private value and nonce are free values of the DRBG. -/
def State.startAgree (s : State) (n : Nat) : State :=
  if !s.sealReq n || decide (s.lstate n < 2) then s
  else
    let s := s.service false
    if s.bit KEY_CFG.APPROVED_ONLY || !s.keyReady then s.sealFail n
    else
      let (f, s) := s.drawMany
      let offer := s.offerOf n (f 0) (leBytes 32 (f 1))
      let s := s.updPort n (fun x => { x with agr := some ⟨f 0, offer, none, none, false⟩ })
      let s := if s.sstate n = 2 then s else s.setSstate n 1
      s.sendLink n 0x15 offer

/-- The 36 bytes of a direction (R619): the key and its salt. -/
def sealKey (z : Nat) (salt : List Byte) (a ap b bp : Nat) : Nat × Nat :=
  let d := Config.derive z (salt ++ [0x4A, 0x58, 0x53, 0x45, 0x41, 0x4C] ++ leBytes 2 a ++ leBytes 2 ap ++ leBytes 2 b ++ leBytes 2 bp)
  (d % 2 ^ 256, d / 2 ^ 256 % 2 ^ 32)

/-- The keys that both ends derive from the two OFFERs (R619): sending and receiving. -/
def State.sealKeys (s : State) (n priv : Nat) (own far : List Byte) : (Nat × Nat) × (Nat × Nat) :=
  let me := s.rd JX_SELF.ID
  let it := s.rd (JX_PORT_FAR.PANEL (portK n) (portP n))
  let q := leField far 2 2
  let z := Config.x25519 priv ((far.drop 36).take 32)
  let first := decide (me < it) || (decide (me = it) && decide (n ≤ q))
  let salt := if first then (own.drop 4).take 32 ++ (far.drop 4).take 32 else (far.drop 4).take 32 ++ (own.drop 4).take 32
  (sealKey z salt me n it q, sealKey z salt it q me n)

/-- The tag of a CONFIRM (R619), over the sender's OFFER and then the other (DESIGN CHOICE, log entry 14: the spec does not order them). -/
def confirmTag (k : Nat × Nat) (first second : List Byte) : Nat := (Config.seal k.1 (k.2 * 2 ^ 64 + (2 ^ 64 - 1)) (first ++ second) []).2

/-- A far OFFER (R619, R620): an end that has none in progress starts one; the chain and the signature are verified, the keys derived, and CONFIRM
sent: KIND 2, the tag in bytes 4 to 19 (DESIGN CHOICE, log entry 14: the spec does not place it). -/
def State.gotOffer (s : State) (n : Nat) (offer : List Byte) (far : Option (List Byte)) : State :=
  if !s.sealReq n || decide (s.lstate n < 2) then s
  else
    let again := match (s.port n).agr with
      | some a => a.gotConf && decide (a.far ≠ some offer)
      | none => true
    let s := if again then s.startAgree n else s
    match (s.port n).agr with
    | none => s
    | some a =>
      if a.far.isSome then s
      else
        match far.orElse (fun _ => (s.port n).farKey) with
        | none => s.sealFail n
        | some key =>
          if offer.getD 0 0 ≠ 1 ∨ offer.length < 132 ∨ Config.verify key (offer.take 68) ((offer.drop 68).take 64) = false then s.sealFail n
          else
            let ks := s.sealKeys n a.priv a.offer offer
            let s := s.updPort n (fun x => { x with farKey := some key, agr := some { a with far := some offer, keys := some ks } })
            s.sendLink n 0x15 (leBytes 4 2 ++ leBytes 16 (confirmTag ks.1 a.offer offer))

/-- A far CONFIRM (R619, R620): verified, the receiving side switches, and the port is SEALED. -/
def State.gotConfirm (s : State) (n : Nat) (tag : List Byte) : State :=
  match (s.port n).agr with
  | none => s
  | some a =>
    match a.far, a.keys with
    | some far, some ks =>
      if a.gotConf then s
      else if leNat (tag.take 16) = confirmTag ks.2 far a.offer % 2 ^ 128 then
        let s := s.updPort n (fun x => { x with rxKey := some ks.2, rxCtr := 0, agr := some { a with gotConf := true } })
        (s.setSstate n 2).pump n
      else s.sealFail n
    | _, _ => s

/-- A SEAL packet at the receiving panel (R619): a CONFIRM, or an OFFER whose sender's chain is held already; the chain of any other comes with
SEAL_OFFER. -/
def State.gotSeal (s : State) (n : Nat) (data : List Byte) : State :=
  if data.getD 0 0 = 2 then s.gotConfirm n (data.drop 4)
  else if data.getD 0 0 = 1 ∧ (s.port n).farKey.isSome = true then s.gotOffer n data none
  else s

/-- SEAL_OFFER: `far` is the attestation key of the far chain, verified to the Grenviris root; none where it fails (R619). -/
def execSealOffer (n : Nat) (offer : List Byte) (far : Option (List Byte)) (s : State) : Res := .next (if n < 72 then s.gotOffer n offer far else s)

/-- SEAL_CONFIRM (R619). -/
def execSealConfirm (n : Nat) (tag : List Byte) (s : State) : Res := .next (if n < 72 then s.gotConfirm n tag else s)

/-- No OFFER within 1 s (R620). -/
def execSealOfferTimeout (n : Nat) (s : State) : Res :=
  match (s.port n).agr with
  | some a => .next (if a.far.isNone then s.sealFail n else s)
  | none => .next s

/-- A FAILED port tries again (R620). -/
def execSealRetryTimer (n : Nat) (s : State) : Res := .next (if s.sstate n = 3 then s.startAgree n else s)

/-- 24 hours have passed, or SCTR nears 2^40 (R410, R619). -/
def execRekeyTimer (n : Nat) (s : State) : Res := .next (if s.sstate n = 2 then s.startAgree n else s)

/-- REKEY (R604, R619): ignored from a PF without an operator session. -/
def execSealRekey (src : Src) (n : Nat) (s : State) : Res :=
  .next (if s.operator src && decide (n < 72) && decide (s.sstate n ≠ 1) then s.startAgree n else s)

/-- REQ of a port is written (R604, R619): at 0 sealing stops. -/
def State.setSealReq (s : State) (n : Nat) (on : Bool) : State :=
  let was := s.sealReq n
  let s := s.wr (JX_SEAL_CTL.REQ (portK n) (portP n)) (b2n on)
  if on then (if was then s else s.startAgree n)
  else
    let s := s.updPort n (fun x => { x with agr := none, txKey := none, rxKey := none, txCtr := 0, rxCtr := 0 })
    (s.setSstate n 0).pump n

/-- SEAL_REQ_WRITE: JX_SEAL_CTL of a port is written, REKEY with it (R414, R604, R619). -/
def execSealReqWrite (src : Src) (n : Nat) (v : W32) (s : State) : Res :=
  if !s.operator src || decide (72 ≤ n) then .next s
  else
    let s := s.setSealReq n (decide (bitsOf v.toNat 0 1 = 1))
    .next (if bitsOf v.toNat 1 1 = 1 ∧ s.sstate n = 2 then s.startAgree n else s)

end Sys2Proof.Machine
end

