-- ==== Sys2Proof/Machine/Deliver.lean ====
section
/-! DEFINITION. Jexlink packets at this panel (R386, R387, R398, R401 to R405, R411): checks, delivery to the store, to cores, to reception areas and to
the steward; and the transfers of SEND_REMOTE, REDUCE_REMOTE and BARRIER (R217, R338, R341). -/

namespace Sys2Proof.Machine

/-- An L count of discarded packets of a port (R416, R577): reserved PTYPE or PCRC, or authentication. -/
def State.jxDiscard (s : State) (n : Nat) (auth : Bool) : State :=
  if 72 ≤ n then s
  else
    let k := portK n
    let p := portP n
    if auth then s.lcount (engNode k) (0x400C + 0x40 * p) (2 * p + 1) (JX_PORT_ERR.AUTHFAIL k p) 1
    else s.lcount (engNode k) (0x400C + 0x40 * p) (2 * p) (JX_PORT_ERR.HDR k p) 1

/-- The rights of a JX_RACC entry: 0 RD, 1 WR, 2 RED, 3 WIN (R402). -/
def State.raccRight (s : State) (i kind : Nat) : Bool :=
  match kind with
  | 0 => s.bit (JX_RACC1.RD i)
  | 1 => s.bit (JX_RACC1.WR i)
  | 2 => s.bit (JX_RACC1.RED i)
  | _ => s.bit (JX_RACC1.WIN i)

/-- Does an entry of JX_RACC open an access (R402)? -/
def State.raccOk (s : State) (h : JxHdr) (kind : Nat) (place : Place) : Bool :=
  (List.range 16).any (fun i =>
    s.bit (JX_RACC1.EN i) && decide (s.rd (JX_RACC0.PLO i) ≤ h.src) && decide (h.src ≤ s.rd (JX_RACC0.PHI i)) && s.raccRight i kind &&
    (!s.bit (JX_RACC1.SEALED_ONLY i) || h.sealed_) &&
    match place with
    | .store => bitOf (s.rd (JX_RACC2.SEGMASK i)) (s.segOf h.addr) && s.bit (MH_SEG_MAP.ASSIGNED (s.segOf h.addr))
    | .window c _ => match s.partOfRegion (regionOf (coreDie c)) with
      | some p => bitOf (s.rd (JX_RACC1.PARTS i)) p
      | none => false
    | .bad => false)

/-- Why a WRITE, REDUCE or READ_REQ is not performed: its status (R401). -/
def State.jxBad (s : State) (h : JxHdr) (kind : Nat) : Option Nat :=
  let place := s.placeOf h.addr h.len
  if h.len = 0 ∨ h.addr / 4096 ≠ (h.addr + h.len - 1) / 4096 then some 2
  else
    match place with
    | .bad => some 2
    | .store => if s.inFwArea h.addr h.len then some 2 else if s.raccOk h kind place then none else some 6
    | .window _ _ => if kind ≠ 1 ∨ h.cntEn = false then some 2 else if s.raccOk h 3 place then none else some 6

/-- The ring stop that a delivered packet's bulk packets leave from: the engine of the port it came by; for this panel's own, that of HID0. -/
def jxStop (came : Nat) : Nat := if came < 72 then engStop (portK came) else 0

/-- TAGs for the pieces of a delivered packet (R163). -/
def State.jxTags (s : State) (n : Nat) : List Nat × State :=
  ((List.range n).map (fun i => (s.jx.nextTag + i) % 65536), { s with jx := { s.jx with nextTag := (s.jx.nextTag + n) % 65536 } })

/-- The pieces of a payload, as (offset, bytes), at most 1,024 each (R164). -/
def jxPieces (n : Nat) : List (Nat × Nat) := (List.range (ceilDiv n 1024)).map (fun i => (1024 * i, min 1024 (n - 1024 * i)))

/-- A store access of a delivered packet goes over the ring to the owning hub (R235, R401). -/
def State.jxStore (s : State) (p : JxPkt) (data : List Byte) : State :=
  let loc := stopAt (jxStop p.came)
  let ps := jxPieces p.h.len
  let (tags, s) := s.jxTags ps.length
  let rd := decide (p.h.ptype = 0x04)
  let e : JxPend := { loc := loc, p := p, tags := tags.zip (ps.map (fun q => q.1)), data := if rd then List.replicate p.h.len 0 else [], status := 0 }
  let s := { s with jx := { s.jx with pend := s.jx.pend ++ [e] } }
  forL (tags.zip ps) (fun q s =>
    let a := p.h.addr + q.2.1
    let h := { hdr0 with type := if rd then 4 else 0, vc := if p.h.vc = 0 then 0 else 2, plen := q.2.2, tag := q.1, addr := a }
    s.inject loc (h.dst (stopAt (hubStop (stackHub (s.serving a))))) (if rd then [] else (data.drop q.2.1).take q.2.2)) s

/-- A window write of a delivered packet enters the mesh as one bulk WRITE with ABS = 1 (R150, R401); a core that is folded or off is answered
DATA_ERROR (R149, R403). -/
def State.jxWindow (s : State) (p : JxPkt) (c o : Nat) (data : List Byte) : State :=
  if s.windowGone c then s.jxRefuse p 8
  else
    let loc := stopAt (jxStop p.came)
    let (tags, s) := s.jxTags 1
    let tag := tags.headD 0
    let s := { s with jx := { s.jx with pend := s.jx.pend ++ [{ loc := loc, p := p, tags := [(tag, 0)], data := [], status := 0 }] } }
    forL (jxPieces p.h.len) (fun q s =>
      let h := { hdr0 with
        vc := if p.h.vc = 0 then 0 else 2, abs_ := true, plen := q.2, tag := tag, toff := o, soff := q.1, cnt := p.h.cnt, cntEn := true
        inc := p.h.inc, addr := p.h.len }
      s.inject loc (h.dst c) ((data.drop q.1).take q.2)) s

/-- A packet waits in its port's store (R241, R247). -/
def State.jxHold (s : State) (p : JxPkt) : State := s.updPort p.came (fun x => { x with held := x.held ++ [p] })

/-- A REDUCE at the hub that owns its page (R218, R238, R241): combined, or while the stack trains in the combine pool; where that is full it waits in
its port's store. -/
def State.jxCombine (s : State) (p : JxPkt) : State :=
  if p.h.addr % 16 ≠ 0 ∨ p.h.len % 16 ≠ 0 ∨ 5 < p.h.op then s.jxRefuse p 2
  else
    match s.heldBy p.h.addr p.h.len with
    | none => s.jxReduce p
    | some st => if s.poolFull (stackHub st) 1 then s.jxHold p else (s.freeCells p.came p.h).hold (.red st { p with came := 72 })

/-- A DELIVER lands in the reception area of the port it came by (R243 to R247, R401); one that this panel sends to itself came by no port and finds no
area. -/
def State.jxLand (s : State) (p : JxPkt) (data : List Byte) : State :=
  if 72 ≤ p.came || !s.bit (MH_RXA_CTL.EN p.came) then s.jxRefuse p 6
  else if s.bit (MH_RXA_STAT.FULL p.came) || s.rxaTraining p.came then s.jxHold p
  else
    match s.rxaLand p.came p.h.src (jxCell p.h) data with
    | (s, true) => s.jxDone p 0 []
    | (s, false) => s.jxRefuse p 8

/-! ### Barriers at their root (R341, R405) -/

/-- A release or refusal of one arrival. -/
def State.barAnswer (s : State) (group gen status : Nat) (a : Nat × Nat × Nat × Nat) : State :=
  s.jxReply { jxHdr0 with vc := a.2.2.2, ptype := 0x09, dst := a.1, src := a.2.1, xid := a.2.2.1, arg := group, addr := gen, status := status } []

/-- An arrival at this root (R341, R405): counted, refused with NO_RESOURCE where 4,096 counts are open, with INVALID where its COUNT differs; the last
one releases every member. -/
def State.barCount (s : State) (group gen count : Nat) (a : Nat × Nat × Nat × Nat) : State :=
  let mine := fun (b : BarCount) => decide (b.group = group) && decide (b.gen = gen)
  let old := s.jx.counts.find? mine
  if old.isNone ∧ 4096 ≤ s.jx.counts.length then s.barAnswer group gen 3 a
  else
    let b : BarCount := old.getD { group := group, gen := gen, count := count, got := [] }
    if b.count ≠ count then s.barAnswer group gen 2 a
    else
      let b := { b with got := b.got ++ [a] }
      let rest := s.jx.counts.filter (fun b => !mine b)
      if b.count ≤ b.got.length then
        forL b.got (fun a s => s.barAnswer group gen 0 a) { s with jx := { s.jx with counts := rest } }
      else { s with jx := { s.jx with counts := rest ++ [b] } }

/-! ### Delivery (R401) -/

/-- Does a type carry a payload that PCRC covers at its destination? -/
def jxPayload (ptype : Nat) : Bool := [0x01, 0x02, 0x03, 0x05, 0x08, 0x16].contains ptype

/-- A packet for this panel (R387, R401): `data` is its payload. A BAR_ARRIVE whose PCRC fails has no answer (R387); an SPDM message waits for the active
steward (R615). -/
def State.jxDeliver (s : State) (p : JxPkt) : State :=
  let h := p.h
  let data := fixLen h.len p.data
  if jxPayload h.ptype && decide (h.ndata ≠ 0) && decide (h.pcrc ≠ crc32 data) then 
    let s := s.jxDiscard p.came false
    if h.ptype = 0x08 then s.freeCells p.came h else s.jxRefuse p 8
  else if h.ptype = 0x01 then
    match s.jxBad h 1 with
    | some st => s.jxRefuse p st
    | none => match s.placeOf h.addr h.len with
      | .window c o => s.jxWindow p c o data
      | _ => s.jxStore p data
  else if h.ptype = 0x02 then (if h.len = 0 then s.jxRefuse p 2 else s.jxLand p data)
  else if h.ptype = 0x03 then
    match s.jxBad h 2 with
    | some st => s.jxRefuse p st
    | none => s.jxCombine p
  else if h.ptype = 0x04 then
    match s.jxBad h 0 with
    | some st => s.jxRefuse p st
    | none => s.jxStore p data
  else if h.ptype = 0x08 then
    let s := s.freeCells p.came h
    if s.bit GLB_STW_STAT.LOST_BOTH then s
    else s.barCount (leField data 0 4) (leField data 4 4) (leField data 8 2) (h.src, h.dst, h.xid, h.vc)
  else if h.ptype = 0x16 then
    let s := if s.bit GLB_STW_STAT.LOST_BOTH then s else { s with key := { s.key with inbox := s.key.inbox ++ [(p.came, h.src, h.xid, data)] } }
    s.jxDone p 0 []
  else (s.freeCells p.came h).jxAnswered h

/-- Packets held at a port are tried again (R241, R247). -/
def State.retryHeld (s : State) (n : Nat) : State :=
  let l := (s.port n).held
  forL l (fun p s => s.jxDeliver p) (s.updPort n (fun x => { x with held := [] }))

/-- A packet that this panel sends (R398): delivered here, or routed. -/
def State.jxSend (s : State) (h : JxHdr) (data : List Byte) : State :=
  if s.ownId h.dst then s.jxDeliver ⟨h, data, 72, h.vc⟩ else s.jxForward ⟨h, data, 72, h.vc⟩

/-! ### Transfers of descriptors -/

/-- The packets of a transfer (R404): cut at every 4 KiB of the destination address, PIDX from 0. -/
def jxCut (h : JxHdr) (data : List Byte) : List (JxHdr × List Byte) :=
  (pagePieces h.addr data.length).zipIdx.map (fun e =>
    let d := (data.drop (e.1.1 - h.addr)).take e.1.2
    ({ h with addr := e.1.1, len := e.1.2, ndata := ceilDiv e.1.2 64, pidx := e.2, pcrc := crc32 d }, d))

/-- A transfer starts: its XID, the packets it awaits, and the packets sent (R398, R403, R404). -/
def State.jxTransfer (s : State) (key : Nat) (h : JxHdr) (data : List Byte) : State :=
  let xid := s.jx.nextXid
  let h := { h with ackreq := true, hops := s.rd JX_CFG.HOPS, src := s.rd JX_SELF.ID, xid := xid }
  let ps := jxCut h data
  let s := { s with jx := { s.jx with
    nextXid := (xid + 1) % 2 ^ 32
    xfers := s.jx.xfers ++ [{ xid := xid, key := key, wait := List.range ps.length, status := 0 }] } }
  forL ps (fun e s => s.jxSend e.1 e.2) s

/-- The reception address (R404). -/
def recAddr : Nat := 0xFFFFFFFFF000

/-- SEND_REMOTE (R338, R404). -/
def execSendRemote (k : Nat) (s : State) : Res :=
  .next (s.runDesc k 0x20 (fun d s =>
    let src := d.f 64 48
    let a := d.f 128 48
    let n := d.f 192 32
    let win := decide (winBase 0 ≤ a) && decide (a < winBase 36864)
    let rec_ := decide (a = recAddr)
    if win && decide (d.f 263 1 = 0) then some (s.finishDesc k 2 32 0 0)
    else if d.trump && (rec_ || decide (a / 4096 ≠ (a + n - 1) / 4096)) then some (s.finishDesc k 2 16 0 0)
    else if s.mustWait src n then none
    else
      match s.localRead src n with
      | (s, .error e) => some (s.finishDesc k 8 0 e 0)
      | (s, .ok l) =>
        let h : JxHdr := { jxHdr0 with
          vc := if d.trump then 0 else 2, ptype := if rec_ then 0x02 else 0x01, dst := d.f 176 16, addr := a, cnt := d.f 256 6
          cntEn := decide (d.f 263 1 = 1), inc := d.f 272 16 }
        some (s.jxTransfer k h l)))

/-- REDUCE_REMOTE (R217 to R219, R404): its source is store memory of the issuing partition. -/
def execReduceRemote (k : Nat) (s : State) : Res :=
  .next (s.runDesc k 0x21 (fun d s =>
    let src := d.f 64 48
    let n := d.f 192 32
    if s.placeOf src n ≠ .store then some (s.finishDesc k 2 8 0 0)
    else if s.mustWait src n then none
    else
      match s.localRead src n with
      | (s, .error e) => some (s.finishDesc k 8 0 e 0)
      | (s, .ok l) => some (s.jxTransfer k { jxHdr0 with vc := 6, ptype := 0x03, dst := d.f 176 16, addr := d.f 128 48, op := d.f 256 4 } l)))

/-- A packet's answer is missing after JX_CFG.TMO (R403). -/
def execJxTransferTimeout (xid pidx : Nat) (s : State) : Res := .next (s.jxCount xid pidx 7)

/-- BARRIER (R341, R405): an arrival goes to ROOT. -/
def execBarrier (k : Nat) (s : State) : Res :=
  .next (s.runDesc k 0x51 (fun d s =>
    let xid := s.jx.nextXid
    let data := leBytes 4 (d.f 64 32) ++ leBytes 4 (d.f 128 32) ++ leBytes 2 (d.f 112 16)
    let h := { jxHdr0 with
      vc := if d.trump then 0 else 1, ptype := 0x08, ndata := 1, hops := s.rd JX_CFG.HOPS, dst := d.f 96 16, src := s.rd JX_SELF.ID
      len := data.length, xid := xid, pcrc := crc32 data }
    let s := { s with jx := { s.jx with nextXid := (xid + 1) % 2 ^ 32, bars := s.jx.bars ++ [(⟨xid, k⟩ : JxBar)] } }
    some (s.jxSend h data)))

/-- A BARRIER's timeout passes (R341): TIMEOUT, and at the root its count is discarded. -/
def execBarrierTimeout (k : Nat) (s : State) : Res :=
  match s.jx.bars.find? (fun b => decide (b.key = k)), s.descOf k with
  | some b, some d =>
    let mine := fun (c : BarCount) => decide (c.group = d.f 64 32) && decide (c.gen = d.f 128 32)
    let counts := if s.ownId (d.f 96 16) then s.jx.counts.filter (fun c => !mine c) else s.jx.counts
    .next ({ s with jx := { s.jx with bars := s.jx.bars.filter (fun c => decide (c.xid ≠ b.xid)), counts := counts } }.finishDesc k 7 0 0 0)
  | _, _ => .next s

/-! ### Arrival of a packet at a port -/

/-- Is a PTYPE reserved (R386)? -/
def jxReservedType (t : Nat) : Bool := !([0x01, 0x02, 0x03, 0x04, 0x05, 0x06, 0x08, 0x09, 0x10, 0x11, 0x12, 0x13, 0x14, 0x15, 0x16].contains t)

/-- A packet fails authentication (R411): discarded and counted; after 16 within 1 s the port goes DOWN. -/
def State.authFail (s : State) (n : Nat) (h : JxHdr) : State :=
  let s := (s.freeCells n h).jxDiscard n true
  let l := ((s.port n).authAt.filter (fun t => decide (s.ptime < t + 1000000000))) ++ [s.ptime]
  let s := s.updPort n (fun x => { x with authAt := l })
  if l.length < 16 then s else (s.portDown n 0).sealEvent n

/-- The payload of a packet that may pass (R411): in the clear on a port that is not SEALED, and for SEAL packets; else what its tag verifies. -/
def State.opened (s : State) (n : Nat) (h : JxHdr) (data : List Byte) : Option (List Byte × State) :=
  let x := s.port n
  if h.ptype = 0x15 then some (data, s)
  else
    match x.rxKey with
    | none => if h.sealed_ then none else some (data, s)
    | some (key, salt) =>
      if !h.sealed_ || decide (h.sctr < x.rxCtr) then none
      else
        match Config.unseal key (salt * 2 ^ 64 + h.sctr) (jxHead h) (dataCells data).flatten h.tag with
        | none => none
        | some l => some (l, s.setPort n { x with rxCtr := h.sctr + 1 })

/-- A packet arrives on a port (R386, R398, R411): `link` handles what the receiving panel itself takes (R401, VC7 types), once
PCRC matches (R387). -/
def State.jxArrive (link : Nat → JxHdr → List Byte → State → State) (n : Nat) (h : JxHdr) (data : List Byte) (s : State) : State :=
  if 72 ≤ n || decide (s.lstate n < 2) then s
  else if jxReservedType h.ptype then (s.freeCells n h).jxDiscard n false
  else
    match s.opened n h data with
    | none => s.authFail n h
    | some (l, s) =>
      let s := s.portPerf n true (jxLoad h)
      let l := l.take h.len
      if 0x10 ≤ h.ptype ∧ h.ptype ≤ 0x15 then
        if h.ndata ≠ 0 ∧ h.pcrc ≠ crc32 l then (s.freeCells n h).jxDiscard n false else link n h l (s.freeCells n h)
      else if s.ownId h.dst then s.jxDeliver ⟨h, l, n, h.vc⟩
      else (s.freeCells n h).jxForward ⟨h, l, n, h.vc⟩

end Sys2Proof.Machine
end

