-- ==== Sys2Proof/Machine/Guests.lean ====
section
/-! DEFINITION. Guest sites while they run (R431 to R433, R437, R438, R443): a guest's requests, credits, the mailbox, and a link that drops. Admission
stands with the keyring. -/

namespace Sys2Proof.Machine

/-- An H-kind count of the guest adapter (R437, R441). -/
def State.guestCount (s : State) (g : Nat) (extent : Bool) : State :=
  if extent then s.lcount (196 + g) 0x000C 1 (GS_ERR.EXTENT g) 1 else s.lcount (196 + g) 0x000C 0 (GS_ERR.DROPPED g) 1

/-- The units of a guest's packet leave the adapter's receive store, and CREDIT returns the running total (R432). -/
def State.freeReq (s : State) (g n : Nat) : State :=
  let s := s.updGuest g (fun x => { x with reqFreed := (x.reqFreed + n) % 65536 })
  s.emit (.guest g { hdr0 with type := 0xE } (leBytes 2 (s.guest g).reqFreed ++ leBytes 2 0))

/-- Do `n` bytes from `a` lie wholly in one open window with the right (R431)? -/
def Guest.allows (x : Guest) (wr : Bool) (a n : Nat) : Bool :=
  x.wins.any (fun w => (if wr then w.wr else w.rd) && decide (w.base ≤ a) && decide (a + n ≤ w.base + w.size))

/-- The adapter answers a guest's packet with ERROR (R431, R432). -/
def State.guestError (s : State) (g : Nat) (h : BulkHdr) (status scode : Nat) : State :=
  s.guestAnswer g { hdr0 with type := 0xB, vc := 3, status := status, scode := scode, tag := h.tag } []

/-- A guest's packet at its adapter (R431, R432, R437): discarded while the guest is ISOLATED, checked while it is ADMITTED, and sent over the ring to
the owning hub. -/
def State.guestPacket (s : State) (g : Nat) (h : BulkHdr) (data : List Byte) : State :=
  if s.gstate g = 2 then s.guestCount g false
  else if s.gstate g ≠ 3 then s
  else
    let s := s.freeReq g (flits h)
    let x := s.guest g
    let wr := decide (h.type = 0)
    let n := if wr then data.length else h.plen
    if (h.type ≠ 0 ∧ h.type ≠ 4) ∨ h.dkind ≠ 1 then (s.guestCount g true).guestError g h 5 2
    else if leField (s.guestCap g) 6 2 ≤ x.reqs.length then (s.guestCount g true).guestError g h 5 1
    else if !x.allows wr h.addr n then (s.guestCount g true).guestError g h 2 0
    else
      let s := s.updGuest g (fun x => { x with reqs := x.reqs ++ [h.tag] })
      s.inject (stopAt (guestStop g)) (h.dst (stopAt (hubStop (stackHub (s.serving h.addr))))) data

/-- GUEST_WRITE: a packet of a guest that is no READ_REQ (R431). -/
def execGuestWrite (g : Nat) (h : BulkHdr) (data : List Byte) (s : State) : Res := .next (s.guestPacket (g % 2) h data)

/-- GUEST_READ_REQ (R431). -/
def execGuestReadReq (g : Nat) (h : BulkHdr) (s : State) : Res := .next (s.guestPacket (g % 2) { h with type := 4 } [])

/-- CREDIT from a guest (R432): response units freed, as a running total; answers that waited for them leave. -/
def execGuestCredit (g _req rsp : Nat) (s : State) : Res :=
  let g := g % 2
  if s.gstate g = 3 then
    let s := s.updGuest g (fun x => { x with rspFreed := rsp % 65536 })
    .next (State.guestPump g (s.guest g).queue.length s)
  else .next s

/-- GUEST_STATE (R442). -/
def State.guestEvent (s : State) (g : Nat) : State :=
  s.postPanel 0x0503 31 1 (leBytes 1 g ++ leBytes 1 (s.gstate g) ++ leBytes 1 (s.rd (GS_STAT.CAUSE g)))

/-- What an admission holds is gone: windows closed, requests forgotten (R435, R443). -/
def State.guestClear (s : State) (g : Nat) : State := s.setGuest g Guest.reset

/-- An admission ends without success at a step: FAILED at step 2, 3 or 4, ISOLATED at 5 or 6 (R435). -/
def State.guestFail (s : State) (g step : Nat) : State :=
  let s := (s.guestClear g).wr (GS_STAT.STATE g) (if step ≤ 4 then 4 else 2)
  (s.wr (GS_STAT.CAUSE g) step).guestEvent g

/-- The site is admitted again, from a step on (R435, R443): TRAINING until GUEST_ADMISSION says how it goes. -/
def State.guestTrain (s : State) (g step : Nat) : State :=
  ((s.guestClear g).updGuest g (fun x => { x with step := step })).wr (GS_STAT.STATE g) 1 |>.wr (GS_STAT.CAUSE g) 0

/-- A site without power (R443, R479). -/
def State.guestOff (s : State) (g : Nat) : State :=
  if s.gstate g = 0 then s else (((s.guestClear g).wr (GS_STAT.STATE g) 0).wr (GS_STAT.CAUSE g) 0).guestEvent g

/-- A sideband response is missing or bad (R433): the request is sent again up to 3 times, then the step that sent it, which reads the guest over the
sideband and so is step 4 at the least, fails. -/
def execSidebandTimeout (g : Nat) (s : State) : Res :=
  let g := g % 2
  let x := s.guest g
  if s.gstate g ≠ 1 then .next s
  else if x.tries < 3 then .next (s.setGuest g { x with tries := x.tries + 1 })
  else .next (s.guestFail g (max 4 x.step))

/-- The request frame of an access by the compat field's control channel: ADDR, DATA and WR, and the CRC-8 with the SMBUS settings over it (R433, R637). -/
def compatFrame (wr : Bool) (addr data : Nat) : List Byte :=
  let f := leBytes 4 addr ++ leBytes 4 data ++ leBytes 4 (b2n wr)
  f ++ leBytes 1 (crc 8 0x07 0 0 false false f)

/-- An access of 4 bytes at a guest's sideband address, in compat mode by the control channel (R433, R438). -/
def State.sideband (s : State) (g : Nat) (wr : Bool) (addr data : Nat) : State :=
  s.emit (if s.bit (GS_STAT.MODE g) then .frame g (compatFrame wr addr data) else .sideband g wr addr data)

/-- MBOX_GO (R438): the mailbox goes to an ADMITTED guest, and its doorbell rings; ignored while an exchange is in progress. -/
def execMboxGo (src : Src) (g : Nat) (s : State) : Res :=
  let g := g % 2
  if !pfOrFw src || decide (s.gstate g ≠ 3) || (s.guest g).mbox then .next s
  else
    let s := forN 16 (fun w s => s.sideband g true (0x100 + 4 * w) (s.rd (GS_MBOX.DATA g w))) s
    .next ((s.sideband g true 0x180 1).updGuest g (fun x => { x with mbox := true }))

/-- The adapter reads the done flag (R438): where it is set, the answer is read into GS_MBOX_RSP and the exchange ends. -/
def execMboxPoll (g : Nat) (flag : Bool) (answer : List Byte) (s : State) : Res :=
  let g := g % 2
  if !(s.guest g).mbox then .next s
  else
    let s := s.sideband g false 0x184 0
    if !flag then .next s
    else
      let s := forN 16 (fun w s => (s.sideband g false (0x140 + 4 * w) 0).wr (GS_MBOX_RSP.DATA g w) (leField answer (4 * w) 4)) s
      let s := (s.sideband g true 0x184 0).wr (GS_STAT.MBOX_DONE g) 1
      .next (s.updGuest g (fun x => { x with mbox := false }))

/-- No answer within 100 ms (R438). -/
def execMboxTimeout (g : Nat) (s : State) : Res :=
  let g := g % 2
  if !(s.guest g).mbox then .next s
  else
    let s := forN 16 (fun w s => s.wr (GS_MBOX_RSP.DATA g w) 0) s
    .next (((s.wr (GS_STAT.MBOX_DONE g) 1).wr (GS_STAT.MBOX_TMO g) 1).updGuest g (fun x => { x with mbox := false }))

/-- A guest's link drops (R443): performed writes stay, answers are discarded, and the site is admitted again from step 2. -/
def execGuestLinkDrop (g : Nat) (s : State) : Res :=
  let g := g % 2
  if s.gstate g = 2 ∨ s.gstate g = 3 then .next (s.guestTrain g 2) else .next s

end Sys2Proof.Machine
end

