-- ==== Sys2Proof/Machine/Images.lean ====
section
/-! DEFINITION. Firmware images: the header, the checks of the keyring, the boot flash, the staging areas (R605 to R609, R621, R622). -/

namespace Sys2Proof.Machine

/-- The part of an image's header that is signed and measured (R606, R609). -/
def imgHead (l : List Byte) : List Byte := fixLen 256 l

/-- FWVER and SVN of an image (R606). -/
def imgVer (l : List Byte) : Nat := leField l 8 4
def imgSvn (l : List Byte) : Nat := leField l 12 4 % 128

/-- Are the bytes [a, b) of a list zero? -/
def zeroBytes (l : List Byte) (a b : Nat) : Bool := ((l.drop a).take (b - a)).all (fun x => decide (x = 0))

/-- A signature block in range (R606). -/
def sigOk (l : List Byte) (a : Nat) : Bool := decide (leField l a 1 ≤ 4) && zeroBytes l (a + 1) (a + 64)

/-- Order 1 of R607: the header fields of type `t`, and bytes that cover exactly 0 to 511 + LEN. -/
def imgShape (t most : Nat) (l : List Byte) : Bool :=
  decide (leField l 0 4 = 0x4D494654) && decide (leField l 4 1 = 1) && decide (leField l 5 1 = t) &&
  (decide (leField l 6 1 = 1) || decide (leField l 6 1 = 2)) && zeroBytes l 7 8 && decide (leField l 12 4 < 128) &&
  decide (l.length = 512 + leField l 16 4) && decide (l.length ≤ most) && zeroBytes l 20 24 && (decide (t = 2) || zeroBytes l 24 32) &&
  zeroBytes l 96 256 && sigOk l 256 && (if leField l 6 1 = 1 then zeroBytes l 384 512 else sigOk l 384)

/-- Order 2: DIGEST is the SHA-512 of the payload. -/
def imgDigest (l : List Byte) : Bool := decide ((l.drop 32).take 64 = digest (l.drop 512))

/-- The signature blocks in use: KEYID and signature. -/
def imgSigs (l : List Byte) : List (Nat × List Byte) :=
  ((if leField l 6 1 = 1 then [256] else [256, 384])).map (fun a => (leField l a 1, (l.drop (a + 64)).take 64))

/-- A valid root signature, and a valid signature by an owner slot that is VALID and not REVOKED (R606, R607). -/
def imgRoot (l : List Byte) : Bool := (imgSigs l).any (fun e => decide (e.1 = 0) && Config.verify Config.rootKey (imgHead l) e.2)
def State.imgOwner (s : State) (l : List Byte) : Bool :=
  (imgSigs l).any (fun e => decide (1 ≤ e.1) && s.ownerOk (e.1 - 1) && Config.verify (s.ownerKey (e.1 - 1)) (imgHead l) e.2)

/-- The anti-rollback index of an image type (R605). -/
def State.otpIdx (s : State) (t : Nat) : Nat := if t = 0 then s.rd KEY_OTP.SW_IDX else s.rd KEY_OTP.DM_IDX

/-- 16 MiB: the most an image has (R606). -/
def imgMost : Nat := 16777216

/-- The first check of R607 that an image of type 0 or 1 fails. -/
def State.imgFails (s : State) (t : Nat) (l : List Byte) : Option Nat :=
  if !imgShape t imgMost l then some 1
  else if !imgDigest l then some 2
  else if !imgRoot l || (s.bit KEY_STAT.COSIGN && !s.imgOwner l) then some 3
  else if imgSvn l < s.otpIdx t then some 4
  else none

/-- The first check of R607 that a guest's manifest fails: its capability names DEVID. -/
def State.manifestFails (s : State) (devid : Nat) (l : List Byte) : Option Nat :=
  if !imgShape 2 65536 l then some 1
  else if !imgDigest l then some 2
  else if !imgRoot l && !s.imgOwner l then some 3
  else if leField l 24 8 ≠ devid then some 5
  else none

/-! ### Boot flash and staging -/

/-- An image in a bank of a steward's boot flash. -/
def State.flashImg (s : State) (sd bank t : Nat) : List Byte := Tab.get [] s.key.flash (4 * sd + 2 * bank + t)

/-- The bank that a steward boots an image from: the active one, or the other where that one fails R607 (R622). -/
def State.bootBank (s : State) (sd t : Nat) : Nat :=
  let a := Tab.get 0 s.key.bank (2 * sd + t) % 2
  if (s.imgFails t (s.flashImg sd a t)).isSome && (s.imgFails t (s.flashImg sd (1 - a) t)).isNone then 1 - a else a
def State.bootImage (s : State) (sd t : Nat) : List Byte := s.flashImg sd (s.bootBank sd t) t

/-- An image goes into the inactive bank of both stewards' flash, which becomes the active one (R621). -/
def State.flashBoth (s : State) (t : Nat) (l : List Byte) : State :=
  forN 2 (fun sd s =>
    let b := 1 - Tab.get 0 s.key.bank (2 * sd + t) % 2
    s.updKey (fun k => { k with flash := Tab.set [] k.flash (4 * sd + 2 * b + t) l, bank := Tab.set 0 k.bank (2 * sd + t) b })) s

/-- A copy into the inactive banks that still fails after its resends (R638): they hold a free value, and the banks marked active stay. -/
def State.flashBad (s : State) (t : Nat) (l : List Byte) : State :=
  forN 2 (fun sd s =>
    let b := 1 - Tab.get 0 s.key.bank (2 * sd + t) % 2
    let (v, s) := s.draw
    s.updKey (fun k => { k with flash := Tab.set [] k.flash (4 * sd + 2 * b + t) (leBytes l.length v) })) s

/-- The staging region of an image type in the firmware area (R227, R621). -/
def State.stageBase (s : State) (t : Nat) : Nat := s.rd MH_FW_AREA.BASE + 536870912 + 16777216 * t

/-- Ranges with one more joined in, in rising order and disjoint. -/
def joinRange (lo hi : Nat) : List (Nat × Nat) → List (Nat × Nat)
  | [] => [(lo, hi)]
  | (a, b) :: t => if hi < a then (lo, hi) :: (a, b) :: t else if b < lo then (a, b) :: joinRange lo hi t else joinRange (min lo a) (max hi b) t

/-- What has been staged of an image, where it covers one range from byte 0 on. -/
def State.stagedImg (s : State) (t : Nat) : Option (List Byte) :=
  match Tab.get [] s.key.staged t with
  | [(0, n)] => some (s.bytes (s.stageBase t) n)
  | _ => none

/-- The staged state of an image type, with its version shown where it is verified (R624). -/
def State.setStage (s : State) (t v : Nat) : State := s.wr (KEY_FW_STAGE0.STATE t) v

/-- A staged image is discarded (R621). -/
def State.stageEmpty (s : State) (t : Nat) : State :=
  (((s.setStage t 0).wr (KEY_FW_STAGE1.BYTES t) 0).updKey (fun k => { k with staged := Tab.set [] k.staged t [], rootOnly := Tab.set 0 k.rootOnly t 0 }))

end Sys2Proof.Machine
end

