-- ==== Sys2Proof/Machine/Chunks.lean ====
section
/-! DEFINITION. Copies of a die-manager image to the dies (R569, R621, R638), and what every update ends with. -/

namespace Sys2Proof.Machine

/-- FW_UPDATE (R576). -/
def State.fwUpdate (s : State) (image step : Nat) : State := s.postPanel 0x0806 31 0 (leBytes 1 image ++ leBytes 1 step)

/-- The image in the bank marked active of the active steward. -/
def State.markedImage (s : State) (t : Nat) : List Byte := s.flashImg s.sd (Tab.get 0 s.key.bank (2 * s.sd + t) % 2) t

/-- The index of an image type advances to the image's SVN (R621). -/
def State.advanceSvn (s : State) (t : Nat) : State :=
  let n := imgSvn (s.markedImage t)
  if n ≤ s.otpIdx t then s
  else (if t = 0 then s.wr KEY_OTP.SW_IDX n else s.wr KEY_OTP.DM_IDX n).postPanel 0x0A06 31 1 (leBytes 1 t ++ leBytes 1 n)

/-- The FIRMWARE record of an image that FW_ACTIVATE has made active: the image, its FWVER and its DIGEST (R593, R606; when it is written, DESIGN CHOICE, log
entry 106). -/
def State.logFirmware (s : State) (t : Nat) : State :=
  let img := s.markedImage t
  s.logWrite 0x09 0xFFFE (leBytes 1 t ++ leBytes 4 (imgVer img) ++ List.replicate 3 0 ++ (img.drop 32).take 64)

/-- A chunk of 64 KiB of an image, and how many there are. -/
def chunkOf (l : List Byte) (c : Nat) : List Byte := (l.drop (65536 * c)).take 65536
def chunks (l : List Byte) : Nat := ceilDiv l.length 65536

/-- The WRITE packets on VC5 that carry a chunk to a die's manager (R160, R187). -/
def State.chunkPackets (s : State) (die chunk : Nat) (l : List Byte) : State :=
  forN (ceilDiv l.length 1024) (fun i s =>
    let d := (l.drop (1024 * i)).take 1024
    let n := ceilDiv d.length 16 * 16
    let h := { hdr0 with type := 0, vc := 5, plen := n, tag := chunk, abs_ := true, soff := 1024 * i, addr := l.length }
    s.inject (stopAt (s.stewardNode - 144)) (h.dst (die * 256)) (fixLen n d)) s

/-- A chunk goes to a die, and its CHUNK_CRC to its region's manager, which is to check the copy (R187, R638). -/
def State.sendChunk (s : State) (die chunk tries : Nat) : State :=
  let l := chunkOf (s.markedImage 1) chunk
  let crc := crc32c l
  let s := s.chunkPackets die chunk l
  (s.updKey (fun k => { k with chunk := some (chunk, die, tries) })).toManager (regionOf die) 6 [6 + 2 ^ 8 + chunk % 2 ^ 16 * 2 ^ 16, crc]

/-- Every die in service has been handled (R569), and where `all` runs the new image: FW_ACTIVATE completes, M3 is extended, the index advances (R609, R621). -/
def State.endDieUpdate (s : State) (key : Nat) (all : Bool) : State :=
  let img := s.markedImage 1
  let s := { s with rcv := { s.rcv with update := none } }
  let s := ((s.updKey (fun k => { k with chunk := none })).extendBoth 3 (digest (imgHead img))).wr GLB_ID_FWVER.DIEMGR (if all then imgVer img else 0)
  ((((s.finishDesc key 0 0 0 0).advanceSvn 1).logFirmware 1).stageEmpty 1).fwUpdate 1 1

/-- The next die in service that has not been handled takes the image; one at a time (R569). -/
def State.nextDie (s : State) : State :=
  match s.rcv.update with
  | some u =>
    if u.image ≠ 1 then s
    else
      match s.diesIn.find? (fun d => !u.dies.contains d) with
      | some d => s.sendChunk d 0 0
      | none => s.endDieUpdate u.key (s.diesIn.all (fun d => !u.dies.contains (d + 256)))
  | none => s

/-- A die has been handled: it runs the new image, or is left on its old one (R569, R638); while dies differ no version is shown (R650). -/
def State.dieHandled (s : State) (d : Nat) (ok : Bool) : State :=
  match s.rcv.update with
  | some u =>
    let s := if ok && decide (s.rd GLB_ID_FWVER.DIEMGR ≠ imgVer (s.markedImage 1)) then s.wr GLB_ID_FWVER.DIEMGR 0 else s
    ({ s with rcv := { s.rcv with update := some { u with dies := u.dies ++ (if ok then [d] else [d, d + 256]) } } }).nextDie
  | none => s

/-- A die that goes out of service is skipped: it loads the new image when it returns (R569, R573). -/
def State.skipChunk (s : State) : State :=
  match s.key.chunk with
  | some (_, d, _) => if s.dieAbsent d then s.nextDie else s
  | none => s

end Sys2Proof.Machine
end

