-- ==== Sys2Proof/Machine/Recovery.lean ====
section
/-! DEFINITION. Folding, holes and redo (R547 to R561), fault reports at the steward (R186), kitty self-tests (R548). -/

namespace Sys2Proof.Machine

/-! ### Records -/

/-- A core is folded for life: the fold map, the fuses of both stewards, the logbook, the counts, the event (R551, R552, R576). -/
def State.recordFold (s : State) (c code : Nat) : State :=
  let s := s.wrBit (GLB_FOLD_MAP.FOLDED (c / 32)) (c % 32) true
  let s := { s with rcv := { s.rcv with fuses := Tab.upd 0 s.rcv.fuses (c / 32) (fun w => setBits w (c % 32) 1 1), code := Tab.set 0 s.rcv.code c (code + 1) } }
  let s := s.logWrite 0x01 (coreDie c) (leBytes 2 c ++ leBytes 1 code)
  let body := leBytes 2 c ++ leBytes 1 code ++ leBytes 1 1
  let s := match s.partOfCore c with
    | some p => s.postBoth p 0x0800 1 body
    | none => s.postPanel 0x0800 31 1 body
  s.account

/-- A die is folded for life: its cores in the fold map, the fuses of its cores and its own, the logbook (R547, R551). -/
def State.recordDieFold (s : State) (d code : Nat) : State :=
  let s := forN 8 (fun w s => s.wr (GLB_FOLD_MAP.FOLDED (8 * d + w)) (allOnes 32)) s
  let f := forN 8 (fun w t => Tab.set 0 t (8 * d + w) (allOnes 32)) s.rcv.fuses
  let f := Tab.upd 0 f (1152 + d / 32) (fun w => setBits w (d % 32) 1 1)
  ({ s with rcv := { s.rcv with fuses := f } }).logWrite 0x01 d (leBytes 2 0xFFFF ++ leBytes 1 code)

/-- CD_CORE_STATE.FENCED: every slot is discarded without a record, deliveries get FOLDED, and what the core owes is answered (R83, R177, R552); the
counters and the cycle counter read zero after a fold's reset (R141, R453, R525). -/
def State.fence (s : State) (c : Nat) : State :=
  let s := s.updCore c (fun k => { k.discard with fenced := true, streams := [], msgs := [], array := none, mover := none, counters := [], cycle := 0, copies := 0, copyBad := false })
  s.fenceAnswers c

/-- The partition whose placement holds a core. -/
def State.placedIn (s : State) (c : Nat) : Option Nat := (List.range 16).find? (fun p => (s.placedCores p).contains c)

/-- A core of a placement awaits its handling between layers (R554). -/
def State.foldLater (s : State) (p c : Nat) : State :=
  s.updPart p (fun x => if x.foldsDue.contains c then x else { x with foldsDue := x.foldsDue ++ [c] })

/-! ### What a redo starts from -/

/-- Where a layer is redone from (R297 to R299). -/
inductive Origin where
  /-- Every input comes from the store, unstruck. -/
  | store
  /-- The valid half holds the outputs of the layer just before. -/
  | half
  /-- These plans, the first with number `first`, run again. -/
  | replay (first : Nat) (plans : List Nat)
  | none
  deriving DecidableEq, Repr

/-- Are the guarded ranges of a layer registered, `n` of them, and not struck (R298)? -/
def State.unstruck (s : State) (p layer n : Nat) : Bool :=
  let g := s.guards.filter (fun g => decide (g.part = p) && decide (g.layer = layer))
  decide (g.length = n) && g.all (fun g => !g.struck)

/-- The layers from the valid copy on, where one exists that is older than layer `num` − 1 (R298, R299). -/
def State.olderCopy (s : State) (p num : Nat) : Origin :=
  let x := s.part p
  let k := x.since.length
  let start := (num + 2 ^ 32 - k) % 2 ^ 32
  let fromHalf := match x.commit with
    | some r => decide (0 < k) && decide ((r.layer + 1) % 2 ^ 32 = start)
    | none => false
  if fromHalf then .replay start x.since
  else
    match x.guardAt with
    | some g =>
      let n := (g + 2 ^ 32 - start) % 2 ^ 32
      let l := x.since.drop n
      let cnt := match l with
        | a :: _ => (s.planAt a).ins.length
        | [] => 0
      if n < k ∧ s.unstruck p g cnt then .replay g l else .none
    | none => .none

/-- Where layer `num` with plan `pl` is redone from (R297, R299). -/
def State.origin (s : State) (p num : Nat) (pl : Plan) : Origin :=
  if pl.ins.all (fun e => e.src) && s.unstruck p num pl.ins.length then .store
  else
    match (s.part p).commit with
    | some r => if (r.layer + 1) % 2 ^ 32 = num then .half else if pl.policy = 1 then s.olderCopy p num else .none
    | none => if pl.policy = 1 then s.olderCopy p num else .none

/-- The number of the partition's own layer: the one under way, or the one that a replay leads to. -/
def State.ownNum (s : State) (p : Nat) (l : LayerRun) : Nat := (l.num + (s.part p).replay.length) % 2 ^ 32

/-! ### Stop and redo -/

/-- The dealer stops a partition's layer (R553): STOP to every die with placed cores; a layer already stopped is stopped once (R309, R573). -/
def State.stopLayer (s : State) (p : Nat) (reembed : Bool) : State :=
  match (s.part p).run with
  | none => s
  | some l =>
    if l.step = 20 then s.updPart p (fun x => { x with run := some { l with reembed := l.reembed || reembed } })
    else
      let l := { l with step := 20, quiet := [], redo := l.redo + 1, limitOn := false, reembed := l.reembed || reembed }
      let s := (s.updPart p (fun x => { x with run := some l })).cutWeights p
      forL ((s.placedDies p).filter (fun d => !s.dieAbsent d)) (fun d s =>
        s.sendCtl 3 1 d 256 s.stewardNode 258 [3 + p * 2 ^ 8 + l.num % 2 ^ 32 * 2 ^ 32]) s

/-- A new active dealer stops a stopped layer anew, as the re-placement starts again (R309, R563). -/
def State.restop (s : State) (p : Nat) : State :=
  match (s.part p).run with
  | none => s
  | some l =>
    forL ((s.placedDies p).filter (fun d => !s.dieAbsent d)) (fun d s =>
      s.sendCtl 3 1 d 256 s.stewardNode 258 [3 + p * 2 ^ 8 + l.num % 2 ^ 32 * 2 ^ 32]) (s.updPart p (fun x => { x with run := some { l with quiet := [] } }))

/-- Has the partition's RUN_LAYER not yet prepared a core, in its first run (R554)? -/
def State.starting (s : State) (p : Nat) : Bool := match (s.part p).run with
  | some l => decide (l.step ≤ 3) && decide (l.redo = 0) && !l.replayed
  | none => false

/-- A RUN_LAYER that waited for the handling of a fold goes on (R554, R555): NO_RESOURCE without a placement, LOST where its resident inputs are lost, a replay
first where one is due; else step 2. -/
def State.resumeStart (s : State) (p : Nat) : State :=
  match (s.part p).run with
  | none => s
  | some l =>
    let x := s.part p
    if !s.starting p || !x.foldsDue.isEmpty then s
    else if x.noRes then s.endLayer p 3
    else if s.bit (GLB_RCV_PART.LOSS_PENDING p) then
      let s := s.wr (GLB_RCV_PART.LOSS_PENDING p) 0
      if l.plan.ins.all (fun e => e.src) then (s.updPart p (fun x => { x with run := some { l with step := 2 } })).powerLayer p else s.endLayer p 10
    else
      match x.replay with
      | _ :: _ => (s.updPart p (fun x => { x with run := some { l with shufDue := false } })).beginReplay p x.replay ((l.num + 2 ^ 32 - x.replay.length) % 2 ^ 32)
      | [] => (s.updPart p (fun x => { x with run := some { l with step := 2 } })).powerLayer p

/-- A fault strikes a partition's running layer (R293, R299): it is stopped to be redone, or ends where too few cores, no copy, or no redo is left. -/
def State.faultLayer (s : State) (p : Nat) (reembed : Bool) : State :=
  match (s.part p).run, (s.part p).place with
  | some l, some pl =>
    if (s.partAvail p).length < pl.gx * pl.gy then s.endLayer p 3
    else if s.origin p (s.ownNum p l) (s.planAt l.own) = .none || (15 ≤ l.redo && decide (l.step ≠ 20)) then s.endLayer p 10
    else s.stopLayer p reembed
  | _, _ => s

/-- The redo, or the replay that leads to it, starts from step 2 (R289, R299). -/
def State.redoLayer (s : State) (p : Nat) : State :=
  match (s.part p).run with
  | none => s
  | some l =>
    let num := s.ownNum p l
    let pl := s.planAt l.own
    let again := fun (restore : Bool) (s : State) =>
      (s.updPart p (fun x => { x with replay := [], run := some { l with plan := pl, planAddr := l.own, num := num, step := 2, restore := restore, reembed := false } })).powerLayer p
    match s.origin p num pl with
    | .store => again false s
    | .half => again true s
    | .replay first plans =>
      (s.updPart p (fun x => { x with replay := [], run := some { l with reembed := false, step := 2 } })).beginReplay p plans first
    | .none => s.endLayer p 10

/-- The new placement of a partition: strays for its folded cores, or the grid embedded again (R275, R276, R279); none where it does not fit. -/
def State.replaced (s : State) (p : Nat) (reembed : Bool) : Option Placement :=
  match (s.part p).place with
  | none => none
  | some pl =>
    if reembed then s.embed p pl.gx pl.gy pl.heavy
    else
      match strayAll (s.partAvail p) (pl.cores.filter s.coreFolded) pl with
      | some q => if q.fits then some q else none
      | none => none

/-- Every die of a stopped layer is quiet: the affected cores are re-placed and the layer is redone (R299, R553, R556). -/
def State.whenQuiet (s : State) (p : Nat) : State :=
  match (s.part p).run with
  | none => s
  | some l =>
    if l.step ≠ 20 || !((s.placedDies p).filter (fun d => !s.dieAbsent d)).all (fun d => l.quiet.contains d) then s
    else
      match s.replaced p l.reembed with
      | none => (s.endLayer p 3).publish
      | some q => (((s.setPlacement p q).updPart p (fun x => { x with foldsDue := [] })).redoLayer p).publish

/-- QUIET at the dealer (R188, R553): taken where the die is quiet. -/
def atQuiet (part die layer : Nat) (h : CtlHdr) (s : State) : Res :=
  let p := part % 16
  match (s.part p).run with
  | none => .next s
  | some l =>
    if h.dnode ≠ s.stewardNode || l.step ≠ 20 || l.num ≠ layer % 2 ^ 32 || !(s.placedDies p).contains die || !s.dieQuiet die then .next s
    else .next ((s.updPart p (fun x => { x with run := some { l with quiet := if l.quiet.contains die then l.quiet else l.quiet ++ [die] } })).whenQuiet p)

/-- Quiet as a packet of the control network (R156, R189). -/
def execQuiet (h : CtlHdr) (part die layer : Nat) (s : State) : Res := atCtl h noWait (atQuiet part die layer) s

/-- A die is not quiet 5 ms after STOP: a die fault with code 0x14 (R553). -/
def execQuietTimeout (part die : Nat) (s : State) : Res :=
  let p := part % 16
  match (s.part p).run with
  | none => .next s
  | some l =>
    if l.step ≠ 20 || l.quiet.contains die || !(s.placedDies p).contains die || s.dieAbsent die then .next s
    else .next (s.sendFault s.stewardNode 258 0x14 die 1 0)

/-! ### Folding a core -/

/-- An immediate fold of a core (R552): fenced; recorded; its layer stopped, or its handling left for the time between layers (R554). -/
def execCoreFold (c code : Nat) (s : State) : Res :=
  if 36864 ≤ c || (s.core c).fenced || s.dieAbsent (coreDie c) then .next s
  else
    let s := s.fence c
    if s.bit GLB_STW_STAT.LOST_BOTH then .next s
    else
      let s := (s.beginRecovery 1).recordFold c (code % 256)
      match s.placedIn c with
      | none => .next s.publish
      | some p =>
        let s := if (s.part p).run.isSome && !s.starting p then s.faultLayer p false else s
        .next ((if (s.part p).run.isNone || s.starting p then s.foldLater p c else s).publish)

/-- The partition's placement is discarded: no core can take the stray (R554). -/
def State.dropPlacement (s : State) (p : Nat) : State :=
  let s := (s.unplace p).updPart p (fun x => { x with noRes := true, foldsDue := [] })
  (s.wr (GLB_DLR_PART3.STALE p) 1).account

/-- What stood on the re-placed cores is brought back: from the valid half where it holds the last commit, by a replay, or not at all (R554). -/
def State.bringBack (s : State) (p : Nat) (cells : List (Nat × Nat × Nat)) : State :=
  let x := s.part p
  let last := s.rd (GLB_DLR_PART2.LAYER p)
  let lose := fun (s : State) => (s.wr (GLB_RCV_PART.LOSS_PENDING p) 1).postBoth p 0x0807 2 (leBytes 4 last)
  let next := if s.starting p then x.seq else (x.seq + 1) % 2 ^ 32
  match x.commit with
  | some r =>
    if r.layer = last then
      match s.loadAll (restoreLoads r cells) with
      | (s, none) => s
      | (s, some _) => lose s
    else
      match s.olderCopy p next with
      | .replay _ plans => s.updPart p (fun x => { x with replay := plans })
      | _ => lose s
  | none =>
    match s.olderCopy p next with
    | .replay _ plans => s.updPart p (fun x => { x with replay := plans })
    | _ => lose s

/-- Is a boundary fold of a core due for its corrected errors (R549)? -/
def State.ceDue (s : State) (c : Nat) : Bool :=
  let thr := s.rd GLB_FOLD_CFG.CE_THR
  decide (thr ≠ 0) && decide (thr < ((s.core c).ceTimes.filter (fun t => decide (s.ptime < t + 86400000000000))).length)

/-- A fold between layers (R547, R554). -/
def execBoundaryFold (c : Nat) (s : State) : Res :=
  if 36864 ≤ c || s.bit GLB_STW_STAT.LOST_BOTH then .next s
  else
    let fresh := !(s.core c).fenced && !s.dieAbsent (coreDie c)
    match s.placedIn c with
    | none => if fresh && s.ceDue c then .next ((((s.beginRecovery 1).fence c).recordFold c 7).publish) else .next s
    | some p =>
      let due := (s.part p).foldsDue.contains c || (fresh && s.ceDue c)
      if !due || ((s.part p).run.isSome && !s.starting p) || !s.partDrained p then .next s
      else
        let s := s.beginRecovery 1
        let s := if fresh then s.recordFold c 7 else s
        let whole := s.dieAbsent (coreDie c)
        match s.replaced p whole, (s.part p).place with
        | some q, some old =>
          let moved := q.cells.filter (fun e => decide (old.locate e.1 e.2.1 ≠ some e.2.2))
          let s := (s.setPlacement p q).updPart p (fun x => { x with foldsDue := if whole then [] else x.foldsDue.filter (fun k => decide (k ≠ c)) })
          let mine := moved.filter (fun e => decide (old.locate e.1 e.2.1 = some c))
          let s := if fresh then (match mine with
              | e :: _ => (s.copyCore c e.2.2).1.fence c
              | [] => s.fence c)
            else s.bringBack p moved
          .next (s.resumeStart p).publish
        | _, _ => .next ((if fresh then (s.dropPlacement p).fence c else s.dropPlacement p).resumeStart p).publish

/-- The die manager's self-test of a kitty core (R548); what stood in it is gone. -/
def execKittySelftest (c : Nat) (pass : Bool) (s : State) : Res :=
  if 36864 ≤ c || (s.core c).fenced || s.dieAbsent (coreDie c) || (s.placedIn c).isSome then .next s
  else
    let s := s.selfTested c
    .next (if pass then s else s.coreFault c 6)

/-! ### Holes -/

/-- A loss is announced (R197, R222): what a sender still awaits of lost cores, or of packets that were lost, ends with FOLDED: streams, pieces of weight streams and
deliveries of Jexlink by transfer, messages by target and by MSGID; the entries that routers hold for them are dropped. `lost` names further transfers, as (sender, TAG). -/
def State.lostFor (s : State) (gone : Nat → Bool) (lost : List (Nat × Nat)) : State :=
  let lost := lost ++ s.net.lostTags
  let msgs := s.net.lostMsgs
  let s := s.updNet (fun n => { n with lostTags := [], lostMsgs := [] })
  let xGone := fun (c : Nat) (x : Xfer) => match x with
    | .read t d _ _ => gone d || lost.contains (c, t)
    | .ack t d => gone d || lost.contains (c, t)
    | .opening t r => r.cores.any gone || lost.contains (c, t)
    | .piece t r => r.cores.any gone || lost.contains (c, t)
  let hit := s.cores.filter (fun e => !gone e.1)
  let hubs := s.store.ws.flatMap (fun x => (x.xfers.filter (xGone x.loc)).map (fun y => (x.loc, y.tag)))
  let engines := s.jx.pend.flatMap (fun e => if (winBase 0 ≤ e.p.h.addr && gone ((e.p.h.addr - winBase 0) / 0x40000)) then e.tags.map (fun t => (e.loc, t.1)) else [])
  let dead := hit.flatMap (fun e => e.2.streams.flatMap (fun x => (x.xfers.filter (xGone e.1)).map (fun y => (coreX e.1 + 256 * coreY e.1, y.tag)))) ++
    hubs.map (fun e => (65536 + (e.1 - 36864), e.2))
  let s := { s with routers := s.routers.map (fun (r : Nat × Router) => (r.1, { r.2 with
    tree := r.2.tree.filter (fun t => !dead.contains (t.src, t.tag))
    lanes := r.2.lanes.filter (fun l => !(l.by_.any (fun b => dead.contains (b.sx + 256 * b.sy, b.tag)))) })) }
  let s := { s with routers := s.routers.filter (fun r => decide (r.2 ≠ Router.reset)) }
  let s := forL (hubs ++ engines ++ lost.filter (fun e => decide (36864 ≤ e.1) && !hubs.contains e && !engines.contains e)) (fun e s =>
    s.atStop e.1 { hdr0 with type := 8, status := 1, tag := e.2 } []) s
  forL hit (fun e s =>
    let s := forL (e.2.streams.filter (fun x => x.xfers.any (xGone e.1))) (fun x s => ((s.failStream e.1 x (statusTrap 1 0 x.eng)).startStreams e.1).resched e.1) s
    let ms := e.2.msgs.filter (fun m => gone m.dst || msgs.contains (e.1, m.msgid))
    let s := s.updCore e.1 (fun k => { k with msgs := k.msgs.filter (fun m => !(gone m.dst || msgs.contains (e.1, m.msgid))) })
    forL ms (fun m s => (s.postAsync e.1 m.slot m.pc (statusTrap 1 0 4)).resched e.1) s) s

/-- A partition's layer has a transfer that failed with FOLDED or UNREACHABLE (R166, R556): a trap of that cause is posted or taken. -/
def State.failedTransfer (s : State) (p : Nat) : Bool :=
  (s.placedCores p).any (fun c => (s.core c).async.any (fun (a : AsyncTrap) => decide (a.tr.cause = 5)) ||
    (s.core c).tasks.any (fun e => decide (e.2.st = .trapped) && decide ((match e.2.trap with
      | some r => r.cause
      | none => s.rd (CD_CORE_TRAP.CAUSE (coreDie c) (coreN c))) = 5)))

/-- Partitions with a placed core where `gone`, those first, and those that a lost transfer stops (R556, R557); each is stopped, or its handling is
left for the time between layers. -/
def State.stopFor (s : State) (gone : Nat → Bool) (marker : Nat) : State :=
  forN 16 (fun p s =>
    let on := (s.placedCores p).any gone
    if (s.part p).run.isSome then
      if on || s.failedTransfer p then
        let s := s.faultLayer p true
        if (s.part p).run.isNone && on then s.foldLater p (((s.placedCores p).find? gone).getD marker) else s.whenQuiet p
      else s
    else if on then s.foldLater p (((s.placedCores p).find? gone).getD marker)
    else s) s

/-- The cause and time of a scope's last reset (R526). -/
def State.noteOne (s : State) (scope cause : Nat) (forced : Bool) : State :=
  (((s.wr (RST_LAST_CAUSE.CAUSE scope) cause).wr (RST_LAST_CAUSE.FORCED scope) (b2n forced)).wr (RST_LAST_TIME.TIME scope) s.ptime)

/-- A reset's cause, which firmware also copies into the logbook (R526, R593). -/
def State.logReset (s : State) (scope cause : Nat) (forced : Bool) : State :=
  s.logWrite 0x08 0xFFFE (leBytes 2 scope ++ leBytes 1 cause ++ leBytes 1 (b2n forced))

/-- Does scope `a` lie within scope `b` (R526, R543)? -/
def within (a b : Nat) : Bool := decide (b = 0) || decide (a = b) || (inRange b 5 16 && inRange a 21 144 && decide (regionOf (a - 21) = b - 5))

/-- Step 4 of R530 after the reset of a block: its cause, and BLOCK_RESET from a steward; an idle request within it has come to its end (R526, R531, R546). -/
def State.noteReset (s : State) (scope cause : Nat) (forced : Bool) : State :=
  let s := { s with boot := { s.boot with idle := s.boot.idle.filter (fun e => !within e.1 scope) } }
  let s := (s.noteOne scope cause forced).logReset scope cause forced
  if s.bit GLB_STW_STAT.LOST_BOTH then s else s.postPanel 0x0701 31 1 (leBytes 2 scope ++ leBytes 1 cause ++ leBytes 1 (b2n forced))

/-- A die fold (R547, R550, R556): the die's links and regulator go off, it becomes a hole, layers stop, and tables bridge it. -/
def execDieFold (d code : Nat) (tabs : List (Nat × List Byte)) (lost : List (Nat × Nat)) (s : State) : Res :=
  if !isDie d || s.dieAbsent d || s.bit GLB_STW_STAT.LOST_BOTH then .next s
  else
    let retriable := decide (code = 0x11) || decide (code = 0x12) || decide (code = 0x14)
    let last := Tab.get 0 s.rcv.lastRetry d
    let retry := retriable && s.bit GLB_FOLD_CFG.DIE_RETRY && !(decide (last ≠ 0) && decide (s.ptime < last - 1 + 86400000000000))
    let gone := fun (c : Nat) => decide (coreDie c = d) && decide (c < 36864)
    let s := (s.beginRecovery 2).resetDie d
    let s := (s.lostFor gone lost).wrBit (GLB_HOLE_DIE.HOLE (d / 32)) (d % 32) true
    let s := if retriable then { s with rcv := { s.rcv with lastRetry := Tab.set 0 s.rcv.lastRetry d (s.ptime + 1) } } else s
    let s := if retry then ({ s with rcv := { s.rcv with retry := Tab.set 0 s.rcv.retry d (s.ptime + 1), retryCode := Tab.set 0 s.rcv.retryCode d (code % 256) } }).noteReset (21 + d) 0x09 true
      else s.recordDieFold d (code % 256)
    let s := s.account.postPanel 0x0801 31 2 (leBytes 1 d ++ leBytes 1 code ++ leBytes 1 (b2n retry))
    .next ((((s.stopFor gone (d * 256)).changeTables noDie tabs).publish).skipChunk)

/-- A region's ante is withdrawn, or its ramp ends; the slot frees (R499). -/
def State.dropAnte (s : State) (r : Nat) : State :=
  let ramping := decide (Tab.get 0 s.power.ramp r ≠ 0)
  let s := { s with power := { s.power with
    ramp := Tab.set 0 s.power.ramp r 0, resv := Tab.set 0 s.power.resv r 0, antes := s.power.antes.filter (fun a => decide (a.region ≠ r)) } }
  let s := s.wrBit PWR_ANTE_STAT.PEND r false
  if ramping then s.wrBit PWR_ANTE_STAT.RAMP (s.rd (PWR_CT_STAT.PAIR r)) false else s

/-- A region's output goes off at once: its dies, its manager and all their state are lost, and the steward has the loss to handle (R557).
`cause` is REGION_HOLE's. A block reset there that waits for idle ends (R546). -/
def State.regionOff (s : State) (r cause : Nat) : State :=
  let s := s.dropAnte r
  if s.rgnState r = 5 then s
  else
    let s := (s.resetRegion r).wr (RGN_PWR_STAT.STATE r) 5
    let s := (s.wr (RGN_PWR_STAT.CLAMPED r) 0).wrBit GLB_HOLE_RGN.HOLE r true
    { s with
      boot := { s.boot with idle := s.boot.idle.filter (fun e => decide (e.1 ≠ 5 + r) && !(inRange e.1 21 144 && decide (regionOf (e.1 - 21) = r))) }
      rcv := { s.rcv with lossDue := Tab.set 0 s.rcv.lossDue r (cause + 1) } }

/-- The steward handles a region's loss (R557): the hole, the event, the layers stopped, tables around it. A die retry in the region ends (R573). -/
def execRegionLoss (r : Nat) (tabs : List (Nat × List Byte)) (lost : List (Nat × Nat)) (s : State) : Res :=
  match Tab.get 0 s.rcv.lossDue r with
  | 0 => .next s
  | cause + 1 =>
    if 16 ≤ r || s.bit GLB_STW_STAT.LOST_BOTH then .next s
    else
      let gone := fun (c : Nat) => decide (c < 36864) && decide (regionOf (coreDie c) = r)
      let retry := forN 9 (fun i t => Tab.set 0 t (regionDie r i) 0) s.rcv.retry
      let ended := (List.range 9).filter (fun i => decide (Tab.get 0 s.rcv.retry (regionDie r i) ≠ 0))
      let s := { s with rcv := { s.rcv with lossDue := Tab.set 0 s.rcv.lossDue r 0, retry := retry } }
      let s := forL ended (fun i s => s.wrBit (GLB_HOLE_DIE.HOLE (regionDie r i / 32)) (regionDie r i % 32) false) s
      let s := ((s.beginRecovery 3).lostFor gone lost).account
      let s := (s.wrBit PWR_ANTE_STAT.PEND r false).wr (RGN_PWR_BUD.BUDGET r) 0
      let s := s.postPanel 0x0802 31 2 (leBytes 1 r ++ leBytes 1 cause)
      .next ((((s.stopFor gone (regionDie r 0 * 256)).changeTables noDie tabs).publish).skipChunk)

/-- A region returns after its ante, re-admission and link training (R558): the steward adopts tables through it and posts REGION_HOLE;
a swap ends with CT_SWAP phase 3 (R481) and a trip with THM_TRIP (R512). -/
def execRegionReturn (r : Nat) (tabs : List (Nat × List Byte)) (s : State) : Res :=
  if 16 ≤ r || bitOf (s.rd GLB_HOLE_RGN.HOLE) r = false || !s.admitted r || Tab.get 0 s.power.ramp r ≠ 0 || s.bit GLB_STW_STAT.LOST_BOTH then .next s
  else
    let s := (s.beginRecovery 3).wrBit GLB_HOLE_RGN.HOLE r false
    let s := forN 9 (fun i s => s.rewriteDie (regionDie r i)) s
    let s := s.account.postPanel 0x0802 31 2 (leBytes 1 r ++ leBytes 1 5)
    let s := if Tab.get 0 s.power.swap r = 3 then
        ({ s with power := { s.power with swap := Tab.set 0 s.power.swap r 0 } }).postPanel 0x0106 31 1 (leBytes 1 r ++ leBytes 1 3)
      else s
    let s := if s.bit (THM_RGN.TRIPPED r) then
        (s.wr (THM_RGN.TRIPPED r) 0).postRegion r 0x0204 2 (leBytes 1 r ++ leBytes 1 1 ++ leBytes 2 (s.managerDie r))
      else s
    .next ((s.changeTables noDie tabs).publish)

/-! ### Fault reports -/

/-- A FAULT at the active steward (R186): answered with FAULT_ACK, and acted on once, a repeat being known by (SNODE, MSGID). The folds themselves
are CORE_FOLD, BOUNDARY_FOLD and DIE_FOLD; a boundary fold of a placed core holds the partition's next layer from now on (R547). -/
def atFault (code unit kind _dir _time : Nat) (h : CtlHdr) (s : State) : Res :=
  if h.dnode ≠ s.stewardNode ∨ s.bit GLB_STW_STAT.LOST_BOTH then .next s
  else
    let s := s.sendCtl 3 1 h.snode h.slocal s.stewardNode 258 [7 + h.msgid % 256 * 2 ^ 8]
    if s.net.acted.contains (h.snode, h.msgid) then .next s
    else
      let s := s.updNet (fun n => { n with acted := n.acted ++ [(h.snode, h.msgid)] })
      if kind = 0 ∧ code = 7 then
        match s.placedIn unit with
        | some p => .next (s.foldLater p unit)
        | none => .next s
      else .next s

/-- Fault as a packet of the control network (R156, R189). -/
def execFault (h : CtlHdr) (code unit kind _dir _time : Nat) (s : State) : Res := atCtl h noWait (atFault code unit kind _dir _time) s

/-- A FAULT without its FAULT_ACK is sent again every 1 ms (R186). -/
def execFaultResend (node msgid : Nat) (s : State) : Res :=
  match (s.node node).faults.find? (fun f => decide (f.msgid = msgid)) with
  | some f => .next (s.ctlOut (ctlHdr 4 1 s.stewardNode 258 f.snode f.slocal 1 f.msgid) [faultFlit f])
  | none => .next s

/-- FAULT_ACK at the sender (R186, R188). -/
def atFaultAck (msgid : Nat) (h : CtlHdr) (s : State) : Res :=
  .next (s.updNode h.dnode (fun x => { x with faults := x.faults.filter (fun f => decide (f.msgid ≠ msgid)) }))

/-- FaultAck as a packet of the control network (R156, R189). -/
def execFaultAck (h : CtlHdr) (msgid : Nat) (s : State) : Res := atCtl h noWait (atFaultAck msgid) s

/-- An error in a router's buffers (R196, R547, R582): SECDED corrects a single bit, which is counted; an uncorrectable one is a die fault of its
own die. -/
def execRouterBufferUe (c : BufErr) (s : State) : Res :=
  let d := coreDie c.core
  if 36864 ≤ c.core || s.dieAbsent d then .next s
  else if !c.multi then .next ((s.wr (CD_NET_ERR.CE d) 1).hcount (CD_NET_CE.COUNT d) (CD_DIE_HSTAT.NET_CE_SAT d) 1)
  else .next ((s.wr (CD_NET_ERR.UE d) 1).dieFault d 0x10)

end Sys2Proof.Machine
end

