-- ==== Sys2Proof/Machine/Clocks.lean ====
section
/-! DEFINITION. Clocks and panel time (R444 to R470): references, cluster stretch levels and their floors, replica monitors, time exchanges, SLEW and
STEP, anchors. -/

namespace Sys2Proof.Machine

/-! ### Stretch levels -/

/-- Does a cartridge or die regulator force the clusters of a die to level 5 (R486)? -/
def State.forcedDie (s : State) (d : Nat) : Bool := s.power.forced.contains (regionOf d) || s.power.forcedDie.contains d

/-- A cluster runs at the highest of its droop level, its floors and a forced level (R452, R486); one above level 0 is noted for CD_CLK_STR (R453). -/
def State.relevel (s : State) (d cl : Nat) : State :=
  let l := max (max (Tab.get 0 s.clk.droop (16 * d + cl)) (s.rd (CD_CLK_CL.PFLOOR d cl))) (s.rd (CD_CLK_CL.RFLOOR d cl))
  let v := if s.forcedDie d then 5 else min 5 l
  let k := 16 * d + cl
  let s := if v = 0 || s.clk.stretched.contains k then s else { s with clk := { s.clk with stretched := s.clk.stretched ++ [k] } }
  s.wr (CD_CLK_CL.LEVEL d cl) v

def State.relevelDie (s : State) (d : Nat) : State := forN 16 (fun cl s => s.relevel d cl) s

/-- The budget floor of a cluster: how often its region's loop has raised it (R485). -/
def State.loopFloor (s : State) (d cl : Nat) : Nat :=
  ((Tab.get [] s.power.loop (regionOf d)).filter (fun x => decide (x = LoopStep.raise d cl))).length

/-- The region manager writes PFLOOR of a cluster (R452, R485, R506, R509, R510): the highest of the budget floor and the thermal floor, and 5 where the
cluster or the region is held. -/
def State.setPfloor (s : State) (d cl : Nat) : State :=
  let r := regionOf d
  let held := s.bit (CD_THM_CL.HELD d cl) || s.bit (THM_RGN.HELD r)
  let v := if held then 5 else min 5 (max (s.loopFloor d cl) (Tab.get 0 s.therm.floor r))
  (s.wr (CD_CLK_CL.PFLOOR d cl) v).relevel d cl

/-- PFLOOR of every cluster of a region that is on. -/
def State.setPfloors (s : State) (r : Nat) : State :=
  if 4 ≤ s.rgnState r then s
  else (forN 9 (fun i s => forN 16 (fun cl s => s.setPfloor (regionDie r i) cl) s) s).showP r

/-- A droop of `mv` raises a cluster's level (R451). -/
def execDroopDetect (d cl mv : Nat) (s : State) : Res :=
  if !isDie d || 16 ≤ cl || s.dieAbsent d || mv < s.rd (CD_CLK_CFG.DROOP1 d) then .next s
  else
    let step := max 1 (s.rd (CD_CLK_CFG.DROOP_STEP d))
    let l := min 5 (1 + (mv - s.rd (CD_CLK_CFG.DROOP1 d)) / step)
    let s := { s with clk := { s.clk with droop := Tab.upd 0 s.clk.droop (16 * d + cl) (fun o => max o l) } }
    .next (s.relevel d cl)

/-- After 16 cycles below the threshold of its level a cluster drops one level (R451). -/
def execDroopRelax (d cl : Nat) (s : State) : Res :=
  if !isDie d || 16 ≤ cl || s.dieAbsent d then .next s
  else .next (({ s with clk := { s.clk with droop := Tab.upd 0 s.clk.droop (16 * d + cl) (fun o => o - 1) } }).relevel d cl)

/-- A write of PFLOOR and RFLOOR by firmware (R452, R467, R468). -/
def execClusterFloorWrite (src : Src) (d cl : Nat) (v : W32) (s : State) : Res :=
  if !fwOnly src || !isDie d || 16 ≤ cl || s.dieAbsent d then .next s
  else
    let s := (s.wr (CD_CLK_CL.PFLOOR d cl) (min 5 (bitsOf v.toNat 4 3))).wr (CD_CLK_CL.RFLOOR d cl) (min 5 (bitsOf v.toNat 8 3))
    .next ((s.relevel d cl).showP (regionOf d))

/-! ### Replica monitors -/

/-- The smallest slack of the day (R454), for the logbook. -/
def State.noteSlack (s : State) (u slack : Nat) : State :=
  { s with clk := { s.clk with daily := Tab.upd 0 s.clk.daily u (fun o => max o (63 - slack)) } }

/-- A steward has failed: its heartbeats, or its answers, are missed from now on (R563, R682). -/
def State.stewardFails (s : State) (sd : Nat) : State :=
  if sd = s.rd GLB_STW_STAT.ACTIVE_SD then { s with mgmt := { s.mgmt with stwMissed := [(0, 5), (1, 5)] } }
  else { s with mgmt := { s.mgmt with sbyMissed := [(0, 5), (1, 5)] } }

/-- A reading of a replica monitor (R454): of a core, or of one of the 16 steward cores of SD0 (units from 36,864) or SD1 (from 36,880), which is judged against
the thresholds at reset since no register holds its own. That a steward has 16 such monitors is DEDUCED from REPLICA_DAY's 16 bytes (R593; log entry 106). -/
def execReplicaReading (u slack : Nat) (s : State) : Res :=
  let v := slack % 64
  if u < 36864 then
    let d := coreDie u
    let cl := clusterOf (coreN u)
    if s.dieAbsent d then .next s
    else
      let warn := decide (v < s.rd (CD_CLK_CFG.RPL_WARN d))
      let s := ((s.wr (CD_CLK_RPL.SLACK d (coreN u)) v).wr (CD_CLK_RPL.WARN d (coreN u)) (b2n warn)).wr (CD_CLK_RPL.MIN d (coreN u))
        (min v (s.rd (CD_CLK_RPL.MIN d (coreN u))))
      let s := s.noteSlack u v
      let old := s.rd (CD_CLK_CL.RFLOOR d cl)
      if v = 0 || (v < 2 && old = 5) then .next (s.coreFault u 5)
      else if warn then
        let s := (s.wr (CD_CLK_CL.RFLOOR d cl) (min 5 (old + 1))).relevel d cl
        .next (s.postPanel 0x0602 31 1 (leBytes 2 u ++ leBytes 1 v ++ leBytes 1 (min 5 (old + 1))))
      else .next s
  else if u < 36896 then
    let s := s.noteSlack u v
    if v = 0 then .next (s.stewardFails ((u - 36864) / 16))
    else if v < 6 then .next (s.postPanel 0x0602 31 1 (leBytes 2 0xFFFF ++ leBytes 1 v ++ leBytes 1 0))
    else .next s
  else .next s

/-! ### References -/

/-- Is reference A (false) or B good at a node (R445)? -/
def State.refOk (s : State) (n : Nat) (b : Bool) : Bool :=
  if decide (s.clk.shun = b2n b + 1) then false
  else if isDie n then (if b then s.bit (CD_CLK_STAT.B_OK n) else s.bit (CD_CLK_STAT.A_OK n))
  else bitOf (Tab.get 0 s.clk.refs n) (b2n b)

/-- A reference's state at a node, and at the active steward in CLK_REF_STAT (R445, R466). -/
def State.setRef (s : State) (n : Nat) (b ok : Bool) : State :=
  let s := if isDie n then (if b then s.wr (CD_CLK_STAT.B_OK n) (b2n ok) else s.wr (CD_CLK_STAT.A_OK n) (b2n ok))
    else { s with clk := { s.clk with refs := Tab.upd 0 s.clk.refs n (fun o => setBits o (b2n b) 1 (b2n ok)) } }
  if n = s.stewardNode then (if b then s.wr CLK_REF_STAT.B_OK (b2n ok) else s.wr CLK_REF_STAT.A_OK (b2n ok)) else s

/-- The reference that a node runs on: 0 A, 1 B (R445). -/
def State.refSel (s : State) (n : Nat) : Nat :=
  if isDie n then s.rd (CD_CLK_STAT.REFSEL n) else b2n (bitOf (s.rd CLK_REF_PERIM.PERIM) (n - 144))

/-- A node selects reference `b` (R445, R466). -/
def State.selRef (s : State) (n : Nat) (b : Bool) : State :=
  if isDie n then
    let s := (s.wr (CD_CLK_STAT.REFSEL n) (b2n b)).wrBit (CLK_REF_CD.CD (n / 32)) (n % 32) b
    s.wr CLK_REF_STAT.ONB ((List.range 144).filter (fun d => decide (s.rd (CD_CLK_STAT.REFSEL d) = 1))).length
  else s.wrBit CLK_REF_PERIM.PERIM (n - 144) b

/-- A node switches to the other reference without losing lock (R446); an exchange in progress there is discarded (R470). -/
def State.switchRef (s : State) (n : Nat) (b : Bool) : State :=
  let s := s.selRef n b
  let s := if isDie n then s.sat (CD_CLK_STAT.SWITCHES n) 1 else s
  let s := { s with clk := { s.clk with req := Tab.set none s.clk.req n none } }
  (s.wr CLK_REF_STAT.SWITCHED 1).postPanel 0x0600 31 1 (leBytes 2 n ++ leBytes 1 (b2n b))

/-- The node has no good reference: holdover, and of a compute die a die fault (R447). -/
def State.noRef (s : State) (n : Nat) (b : Bool) : State :=
  let s := s.postPanel 0x0601 31 2 (leBytes 2 n ++ leBytes 1 0 ++ leBytes 1 (b2n b))
  if isDie n then (s.wr (CD_CLK_STAT.HOLDOVER n) 1).dieFault n 0x11 else s

/-- A PT-exchange, SLEW or level-2 clamp of the steward starts at its own sync node: CLAMP with even SEQ at SD0 and odd at SD1 (R192). -/
def State.sendClamp (s : State) (level : Nat) : State :=
  let q := Tab.get 0 s.net.bseq 4
  let par := s.rd GLB_STW_STAT.ACTIVE_SD
  let q := if q % 2 = par then q else (q + 1) % 16
  let s := s.updNet (fun n => { n with bseq := Tab.set 0 n.bseq 4 ((q + 1) % 16) })
  s.flood s.stewardNode s.stewardNode 4 q level [] (fun s => s)

/-- The level that the reasons for a clamp ask for: 0 input voltage (R494), 1 managed stop (R515), 2 and 4 the abrupt stop at level 1 and 2 (R517), 3 no
reference (R447). -/
def holdLevel (l : List Nat) : Nat :=
  if l.any (fun x => decide (x ≠ 2)) then 2 else if l.isEmpty then 0 else 1

/-- A reason for a clamp comes into force or ends; the steward issues the level where it changes. -/
def State.setHolds (s : State) (l : List Nat) : State :=
  let old := holdLevel s.power.holds
  let s := { s with power := { s.power with holds := l } }
  if holdLevel l = old then s else s.sendClamp (holdLevel l)
def State.addHold (s : State) (x : Nat) : State := if s.power.holds.contains x then s else s.setHolds (s.power.holds ++ [x])
def State.dropHolds (s : State) (f : Nat → Bool) : State := s.setHolds (s.power.holds.filter (fun x => !f x))

/-- Is a CLAMP in force (R489)? -/
def State.clamped (s : State) : Bool := !s.power.holds.isEmpty || decide (s.net.clamp ≠ 0)

/-- A reference is lost at a node (R445 to R447). Lost at both stewards, both: CLAMP level 2, and a panel warm reset is due. -/
def execRefclkLost (node : Nat) (b : Bool) (s : State) : Res :=
  if 196 ≤ node || (isDie node && s.dieAbsent node) then .next s
  else
    let s := s.setRef node b false
    let sel := decide (s.refSel node = 1)
    if s.refOk node sel then .next s
    else if s.refOk node (!sel) then .next (s.switchRef node (!sel))
    else
      let s := s.noRef node b
      let none := fun (n : Nat) => !s.refOk n false && !s.refOk n true
      if (node = 157 ∨ node = 183) ∧ none 157 ∧ none 183 then
        let s := ({ s with clk := { s.clk with warmDue := true } }).addHold 3
        .next (s.postPanel 0x0601 31 2 (leBytes 2 node ++ leBytes 1 1 ++ leBytes 1 (b2n b)))
      else .next s

/-- The references differ by more than 100 ppm (R445): every die takes the active steward's, and treats the other as lost. -/
def execRefclkMismatch (node : Nat) (s : State) : Res :=
  if s.bit GLB_STW_STAT.LOST_BOTH || s.clk.shun ≠ 0 then .next s
  else
    let keep := s.refSel s.stewardNode
    let s := { s with clk := { s.clk with shun := (1 - keep) + 1 } }
    let on := fun (s : State) (n : Nat) => !(isDie n && s.dieAbsent n)
    let s := forN 196 (fun n s =>
      if !on s n then s
      else
        let s := s.setRef n (decide (keep = 0)) false
        if s.refSel n ≠ keep then s.switchRef n (decide (keep = 1)) else s) s
    .next (s.postPanel 0x0601 31 2 (leBytes 2 node ++ leBytes 1 2 ++ leBytes 1 (1 - keep)))

/-! ### Panel time -/

/-- Dies in service without PT_LOCK (R466). -/
def State.countUnlocked (s : State) : State :=
  s.wr CLK_PT_STAT.UNLOCKED (s.diesIn.filter (fun d => !s.bit (CD_CLK_STAT.PT_LOCK d))).length

/-- A node's parent in time (R458): on the sync tree; a perimeter die's is the die at the other end of its edge or corner link. -/
def State.timeParent (s : State) (n : Nat) : Option Nat :=
  if n = s.stewardNode then none
  else if isDie n then
    match s.rd (CD_SYNC_TREE.PARENT n) with
    | 0 => none
    | c + 1 => wayNode n c
  else (s.nbrs n).head?

/-- Does a node take part in time exchanges: in service, with a panel time (R459, R464)? -/
def State.timed (s : State) (n : Nat) : Bool := !(isDie n && s.dieAbsent n) && decide (Tab.get 0 s.clk.untimed n ≠ 1)

/-- Is a die admitted: it has held PT_LOCK since it started (R459, R464)? -/
def State.dieAdmitted (s : State) (n : Nat) : Bool := s.timed n && decide (Tab.get 0 s.clk.untimed n = 0)

/-- A node begins an exchange with its parent: REQ (R458). -/
def execPtExchangeTimer (node : Nat) (s : State) : Res :=
  if 196 ≤ node || !s.timed node then .next s
  else
    match s.timeParent node with
    | none => .next s
    | some p =>
      let id := Tab.get 0 s.clk.nextId node
      let s := { s with clk := { s.clk with nextId := Tab.set 0 s.clk.nextId node ((id + 1) % 2 ^ 16), req := Tab.set none s.clk.req node (some ⟨id, s.time16 node % 2 ^ 32⟩) } }
      .next (s.syncSend node p 6 0 (id * 2 ^ 4) [])

/-- REQ at the parent (R458): RSP with t2 and t3 − t2; how long the parent takes is a free value (log entry 4). -/
def execSyncTimeReq (node child id : Nat) (s : State) : Res :=
  let t2 := s.time16 node % 2 ^ 32
  let (dt, s) := s.draw
  .next (s.syncSend node child 6 0 (1 + id % 2 ^ 16 * 2 ^ 4) [t2, dt % 2 ^ 32])

/-- A difference of timestamps, modulo 2^32 and read as signed (R458). -/
def diff32 (x y : Nat) : Int := sgn 32 (unsgn 32 ((x : Int) - (y : Int)))

/-- The largest correction before the next exchange, in 1/16 ns (R459): 1 ns per µs over 1 ms with PT_LOCK, over 10 µs without. -/
def corrected (ofs bound : Int) : Int := max (-bound) (min bound ofs)

/-- RSP at the child (R458, R459, R464): offset, correction, PT_LOCK. A resent frame discards the exchange. -/
def execSyncTimeRsp (node id t2 dt : Nat) (resent : Bool) (s : State) : Res :=
  match Tab.get none s.clk.req node with
  | none => .next s
  | some q =>
    if q.id ≠ id || !s.timed node then .next s
    else
      let s0 := { s with clk := { s.clk with req := Tab.set none s.clk.req node none } }
      if resent then .next s0
      else
        let t4 := s.time16 node % 2 ^ 32
        let t3 := t2 + dt
        let ofs := (diff32 t2 q.t1 + diff32 t3 t4) / 2
        let lock := isDie node && s.bit (CD_CLK_STAT.PT_LOCK node)
        let add := if lock then corrected ofs 16000 else if isDie node then ofs else corrected ofs 16000
        let near := decide (-16 ≤ ofs) && decide (ofs ≤ 16)
        let good := if near then Tab.get 0 s.clk.good node + 1 else 0
        let s := { s0 with clk := { s0.clk with ofs := Tab.upd 0 s0.clk.ofs node (· + add), good := Tab.set 0 s0.clk.good node good } }
        if !isDie node then .next s
        else
          let s := s.wr (CD_CLK_PTOFS.OFS node) (unsgn 32 ofs)
          if lock && !(decide (-64 ≤ ofs) && decide (ofs ≤ 64)) then
            let s := ({ s with clk := { s.clk with good := Tab.set 0 s.clk.good node 0 } }).wr (CD_CLK_STAT.PT_LOCK node) 0
            .next (s.countUnlocked.postPanel 0x0604 31 1 (leBytes 2 node ++ leBytes 2 0 ++ leBytes 4 (unsgn 32 ofs)))
          else if !lock && 4 ≤ good then
            let s := ({ s with clk := { s.clk with untimed := Tab.set 0 s.clk.untimed node 0 } }).wr (CD_CLK_STAT.PT_LOCK node) 1 |>.countUnlocked
            .next (forN 16 (fun p s => s.powerLayer p) s)
          else .next s

/-- SET at a node (R458, R464): it loads its parent's panel time. -/
def execTimeSet (node value frac : Nat) (s : State) : Res :=
  if 196 ≤ node || (isDie node && s.dieAbsent node) then .next s
  else
    let own : Int := ((value % 2 ^ 64 * 16 + frac % 65536 / 4096 : Nat) : Int) - ((s.ptime * 16 : Nat) : Int)
    .next { s with clk := { s.clk with ofs := Tab.set 0 s.clk.ofs node own, untimed := Tab.upd 0 s.clk.untimed node (fun v => if v = 0 then 0 else 2), good := Tab.set 0 s.clk.good node 0 } }

/-- An admitted die has stayed without PT_LOCK for 10 ms (R459). -/
def execPtLockTimeout (node : Nat) (s : State) : Res :=
  if !isDie node || !s.dieAdmitted node || s.bit (CD_CLK_STAT.PT_LOCK node) then .next s else .next (s.dieFault node 0x12)

/-- The active steward issues a SLEW or STEP (R458, R461): its start lies 20 µs ahead, or after the time of a trick that is pending (R470). -/
def State.issueAdj (s : State) (step : Bool) (amount : Int) (ticks : Nat) : State :=
  let t := s.ptime + 20000
  let t := match s.tel.trick with
    | some k => max t (k.t + 4)
    | none => t
  let a : PtAdj := { step := step, start := t % 2 ^ 32, amount := amount, ticks := ticks, got := [] }
  let s := { s with clk := { s.clk with adj := some a } }
  if step then s.broadcast 6 4 [t % 2 ^ 32, unsgn 64 amount % 2 ^ 32, unsgn 64 amount / 2 ^ 32]
  else s.broadcast 6 3 [t % 2 ^ 32, unsgn 32 amount, ticks % 2 ^ 32]

/-- A die has received the SLEW or STEP. -/
def State.gotAdj (s : State) (node : Nat) : State :=
  match s.clk.adj with
  | some a => { s with clk := { s.clk with adj := some { a with got := if a.got.contains node then a.got else a.got ++ [node] } } }
  | none => s

/-- SLEW at a node (R192, R458). -/
def execTimeSlew (node sender seq start : Nat) (adj : Int) (ticks : Nat) (s : State) : Res :=
  .next (s.flood node sender 6 seq 3 [start % 2 ^ 32, unsgn 32 adj, ticks % 2 ^ 32] (fun s => s.gotAdj node))

/-- STEP at a node (R192, R458). -/
def execTimeStep (node sender seq start : Nat) (delta : Int) (s : State) : Res :=
  .next (s.flood node sender 6 seq 4 [start % 2 ^ 32, unsgn 64 delta % 2 ^ 32, unsgn 64 delta / 2 ^ 32] (fun s => s.gotAdj node))

/-- Is any layer running (R461)? -/
def State.anyLayer (s : State) : Bool := (List.range 16).any (fun p => (s.part p).run.isSome)

/-- The start time of the SLEW or STEP is reached (R461): the root and every node that received it take it; the others fall behind by its amount. A
STEP waits while a layer runs (R470). -/
def execSlewStepStart (s : State) : Res :=
  match s.clk.adj with
  | none => .next s
  | some a =>
    if a.step && s.anyLayer then .next s
    else
      let total : Int := if a.step then a.amount * 16 else a.amount * (a.ticks : Int) / 4096
      let missed := (List.range 196).filter (fun n => decide (n ≠ s.stewardNode) && !a.got.contains n)
      let s := { s with clk := { s.clk with adj := none, ofs := forL missed (fun n t => Tab.upd 0 t n (· - total)) s.clk.ofs } }
      if a.step then
        let s := { s with ptime := (((s.ptime : Int) + a.amount) % ((2 ^ 64 : Nat) : Int)).toNat }
        .next ((s.wr CLK_PT_STAT.STEPPED 1).postPanel 0x0603 31 1 (leBytes 8 (unsgn 64 a.amount)))
      else if a.ticks = 0 then .next s
      else .next (({ s with clk := { s.clk with slewLeft := a.ticks, slewAmt := a.amount } }).wr CLK_PT_STAT.SLEWING 1)

/-! ### Anchors -/

/-- CD_CLK_STR counts the cycles that a cluster has delivered stretched since the previous anchor, at most the `f` it has delivered (R453, R577). -/
def State.countStretched (s : State) (f g : Nat → Nat) : State :=
  let s := forL s.clk.stretched (fun k s =>
    s.pcount (k / 16) (CD_CLK_STR.COUNT (k / 16) (k % 16)) (CD_PERF_DWRAP.STR_WRAP (k / 16)) (k % 16) (g k % (f k + 1))) s
  { s with clk := { s.clk with stretched := s.clk.stretched.filter (fun k => decide (s.rd (CD_CLK_CL.LEVEL (k / 16) (k % 16)) ≠ 0)) } }

/-- What the clocks of a cluster's cores have counted since its previous anchor, of which it has delivered `n` cycles (R577, R581): CYCLES; and of them, by free
values (log entry 4), those in which two instructions issued, in which the core waited, and which bank conflicts cost. -/
def State.countCycles (s : State) (k n : Nat) (f : Nat → Nat) : State :=
  forN 16 (fun i s =>
    let c := 256 * (k / 16) + coreIn (k % 16) i
    (((s.perf c 0 n).perf c 2 (f (4 * c) % (n + 1))).perf c 3 (f (4 * c + 1) % (n + 1))).perf c 11 (f (4 * c + 2) % (n + 1))) s

/-- Every 256 ticks each cluster latches an anchor (R463): the time of the tick, the cycle counter, and G. How far the counter has come, and how much of it
stretched, are free values (log entry 4). -/
def execAnchorLatch (s : State) : Res :=
  let (f, s) := s.drawMany
  let (g, s) := s.drawMany
  let (h, s) := s.drawMany
  let gated := fun (r : Nat) => s.clk.gated.contains r || decide (2 ≤ s.rgnState r) || s.bit (RGN_PWR_STAT.CLAMPED r)
  let add := fun (t : Tab (List Anchor)) (k : Nat) =>
    let l := Tab.get [] t k
    let last := match l with
      | a :: _ => a.cycle
      | [] => 0
    Tab.set [] t k (({ time := s.dieTime (k / 16), cycle := last + f k, gated := gated (regionOf (k / 16)) } :: l).take 2048)
  let ks := s.diesIn.flatMap (fun d => (List.range 16).map (fun cl => 16 * d + cl))
  let t := ks.foldl add s.clk.anchors
  .next (forL ks (fun k s => s.countCycles k (f k) h) (({ s with clk := { s.clk with anchors := t, gated := [] } }).countStretched f g))

end Sys2Proof.Machine
end

