-- ==== Sys2Proof/Machine/Jexlink.lean ====
section
/-! DEFINITION. Jexlink at a port and at the panel router: discovery (R406, R407, R412, R413), time across panels (R408, R409), packets by type, flits and
link control (R383, R384, R389, R393 to R395), and the router's registers (R396, R415, R416). -/

namespace Sys2Proof.Machine

/-! ### Discovery (R407, R413) -/

/-- Ports that are Jexlink UP. -/
def State.upPorts (s : State) : List Nat := (List.range 72).filter (fun n => decide (s.lstate n = 2))

/-- Hops + 1 heard on a port for an ID, as the panel's own or as an alias; 0 where none is. -/
def State.heardAt (s : State) (n : Nat) (alias_ : Bool) (id : Nat) : Nat := Tab.get 0 s.jx.heard (131072 * n + 65536 * b2n alias_ + id)

/-- Is an ID heard as an alias by any port that is UP? -/
def State.heardAlias (s : State) (id : Nat) : Bool := s.upPorts.any (fun n => decide (s.heardAt n true id ≠ 0))
def State.heardOwn (s : State) (id : Nat) : Bool := s.upPorts.any (fun n => decide (s.heardAt n false id ≠ 0))

/-- Hops to an ID by a port, the far panel's own included; an ID heard both ways is routed by the alias (R413); none beyond 63. -/
def State.hopsBy (s : State) (n id : Nat) : Option Nat :=
  let h := s.heardAt n (s.heardAlias id) id
  if h = 0 ∨ 63 < h then none else some h

/-- The lowest assigned panel ID that is known: the root of the spanning tree (R407). -/
def State.treeRoot (s : State) : Option Nat :=
  let own := if s.bit JX_SELF.ASSIGNED then [s.rd JX_SELF.ID] else []
  let ids := own ++ (s.jx.heard.filter (fun e => decide (e.1 / 65536 % 2 = 0))).map (fun e => e.1 % 65536)
  ids.foldl (fun (m : Option Nat) i => match m with
    | none => some i
    | some j => some (min i j)) none

/-- The least of a list of numbers. -/
def least? (l : List Nat) : Option Nat := l.foldl (fun (m : Option Nat) i => match m with
  | none => some i
  | some j => some (min i j)) none

/-- This panel's own distance from the root. -/
def State.treeLevel (s : State) (root : Nat) : Nat :=
  if s.bit JX_SELF.ASSIGNED && decide (s.rd JX_SELF.ID = root) then 0 else (least? (s.upPorts.filterMap (fun n => s.hopsBy n root))).getD 64

/-- Does a port lead up: its far end is nearer to the root, or as near with the lower panel ID (R407)? -/
def State.leadsUp (s : State) (n : Nat) : Bool :=
  match s.treeRoot with
  | none => false
  | some r =>
    let mine := s.treeLevel r
    let far := match s.hopsBy n r with
      | some h => h - 1
      | none => 64
    decide (far < mine) || (decide (far = mine) && decide (s.rd (JX_PORT_FAR.PANEL (portK n) (portP n)) < s.rd JX_SELF.ID))

/-- The ports of the routes to an ID, and their hops (R407): those that lead down where any does, since a route may not turn from down to up; among
them the fewest hops, at most four, lowest numbers first. -/
def State.bestPorts (s : State) (id : Nat) : List Nat × Nat :=
  let l := s.upPorts.filter (fun n => (s.hopsBy n id).isSome)
  let down := l.filter (fun n => !s.leadsUp n)
  let l := if down.isEmpty then l else down
  match least? (l.filterMap (fun n => s.hopsBy n id)) with
  | none => ([], 64)
  | some h => ((l.filter (fun n => decide (s.hopsBy n id = some h))).take 4, h)

/-- The table entry of an ID written from discovery (R407): DL = 0. -/
def State.routeId (s : State) (id : Nat) : State :=
  if s.ownId id then s
  else
    let l := (s.bestPorts id).1
    let s := (((s.wr (JX_RT.P0 id) (l.getD 0 0x7F)).wr (JX_RT.P1 id) (l.getD 1 0x7F)).wr (JX_RT.P2 id) (l.getD 2 0x7F)).wr (JX_RT.P3 id) (l.getD 3 0x7F)
    (((s.wr (JX_RT.DL0 id) 0).wr (JX_RT.DL1 id) 0).wr (JX_RT.DL2 id) 0).wr (JX_RT.DL3 id) 0

/-- What this panel advertises on a port (R407, R412, R413), as (ID, alias, hops): its own IDs, and the routes that it may offer there: to a panel above it
only those that lead down. -/
def State.advert (s : State) (n : Nat) : List (Nat × Bool × Nat) :=
  let own := if s.bit JX_SELF.ASSIGNED && !s.bit JX_SELF.SHADOWED then [(s.rd JX_SELF.ID, false, 0)] else []
  let als := ((List.range 4).filter (fun i => s.bit (JX_ALIAS.EN i))).map (fun i => (s.rd (JX_ALIAS.ID i), true, 0))
  let ids := (s.jx.heard.map (fun e => e.1 % 65536)).dedup.filter (fun id => !s.ownId id)
  own ++ als ++ ids.filterMap (fun id =>
    let b := s.bestPorts id
    if b.1.isEmpty || decide (63 ≤ b.2) || b.1.contains n || (s.leadsUp n && b.1.any s.leadsUp) then none
    else some (id, s.heardAlias id, b.2))

/-- Entries of ROUTE_ADV as bytes: ID, hop count, with bit 7 for an alias, and a zero byte (R407). -/
def advBytes (l : List (Nat × Bool × Nat)) : List Byte :=
  l.flatMap (fun e => leBytes 2 e.1 ++ leBytes 1 (e.2.2 % 128 + b2n e.2.1 * 128) ++ leBytes 1 0)

/-- ROUTE_ADV packets with a list, at most 1,024 entries each (R386). -/
def State.sendAdv (s : State) (n : Nat) (l : List (Nat × Bool × Nat)) : State :=
  forN (ceilDiv l.length 1024) (fun i s => s.sendLink n 0x11 (advBytes ((l.drop (1024 * i)).take 1024))) s

/-- What has changed between two advertisements; an entry that is gone is sent with a hop count of 127, beyond every route (DESIGN CHOICE, log entry 14:
the spec does not say how a route is withdrawn). -/
def advChange (old new : List (Nat × Bool × Nat)) : List (Nat × Bool × Nat) :=
  new.filter (fun e => !old.contains e) ++
    (old.filter (fun e => !new.any (fun f => decide (f.1 = e.1) && decide (f.2.1 = e.2.1)))).map (fun e => (e.1, e.2.1, 127))

/-- Do the stewards build routes (R407, R418)? -/
def State.discovers (s : State) : Bool := s.bit JX_CFG.DISC_EN && !s.bit GLB_STW_STAT.LOST_BOTH

/-- A change of what is heard or answered for goes out on every port at once, and the entries of the IDs follow (R407). -/
def State.reroute (s : State) (ids : List Nat) (f : State → State) : State :=
  let old := s.upPorts.map (fun n => (n, s.advert n))
  let s := f s
  if !s.discovers then s
  else
    let s := forL ids (fun id (s : State) => s.routeId id) s
    forL old (fun (e : Nat × List (Nat × Bool × Nat)) (s : State) => s.sendAdv e.1 (advChange e.2 (s.advert e.1))) s

/-- JX_ID_CONFLICT (R417). -/
def State.conflict (s : State) (id n : Nat) (shadowed : Bool) : State :=
  s.postPanel 0x0403 31 2 (leBytes 2 id ++ leBytes 1 n ++ leBytes 1 (b2n shadowed))

/-- One advertised entry is heard (R407, R413). -/
def State.hear (s : State) (n : Nat) (e : Nat × Bool × Nat) : State :=
  let key := 131072 * n + 65536 * b2n e.2.1 + e.1
  let was := s.heardAlias e.1 && s.heardOwn e.1
  let s := { s with jx := { s.jx with heard := Tab.set 0 s.jx.heard key (if 63 ≤ e.2.2 then 0 else e.2.2 + 1) } }
  let s := if !was && s.heardAlias e.1 && s.heardOwn e.1 then s.conflict e.1 n false else s
  if e.2.1 && decide (e.2.2 < 63) && s.bit JX_SELF.ASSIGNED && decide (s.rd JX_SELF.ID = e.1) && !s.bit JX_SELF.SHADOWED then
    (s.wr JX_SELF.SHADOWED 1).conflict e.1 n true
  else s

/-- The entries of a ROUTE_ADV. -/
def advEntries (l : List Byte) : List (Nat × Bool × Nat) :=
  (List.range (l.length / 4)).map (fun i => (leField l (4 * i) 2, bitOf (leField l (4 * i + 2) 1) 7, leField l (4 * i + 2) 1 % 128))

/-- ROUTE_ADV at a port (R407). -/
def State.gotAdv (s : State) (n : Nat) (data : List Byte) : State :=
  if s.bit GLB_STW_STAT.LOST_BOTH then s
  else
    let l := advEntries data
    s.reroute (l.map (fun e => e.1)).dedup (fun s => forL l (fun e s => s.hear n e) s)

/-- The full list goes out every 30 s, and every known ID's entry is written again (R407). -/
def execRouteAdvTimer (s : State) : Res :=
  if !s.discovers then .next s
  else
    let routed := (s.regs.filter (fun e => decide (8 * 0x580000 ≤ e.1) && decide (e.1 < 8 * 0x5C0000))).map (fun e => (e.1 / 8 - 0x580000) / 4)
    let ids := (routed ++ s.jx.heard.map (fun (e : Nat × Nat) => e.1 % 65536)).dedup
    let s := forL ids (fun id s => s.routeId id) s
    .next (forL s.upPorts (fun n s => s.sendAdv n (s.advert n)) s)

/-- HELLO (R406): the far panel and port are recorded. -/
def State.gotHello (s : State) (n : Nat) (data : List Byte) : State :=
  let k := portK n
  let p := portP n
  ((s.wr (JX_PORT_FAR.PANEL k p) (leField data 0 2)).wr (JX_PORT_FAR.PORT k p) (leField data 3 1)).wr (JX_PORT_FAR.FARVALID k p) 1

/-- Each UP port sends HELLO (R406). -/
def execHelloTimer (n : Nat) (s : State) : Res :=
  if 72 ≤ n ∨ s.lstate n ≠ 2 then .next s
  else
    let als := (List.range 4).flatMap (fun i => leBytes 2 (if s.bit (JX_ALIAS.EN i) then s.rd (JX_ALIAS.ID i) else 0xFFFF))
    .next (s.sendLink n 0x10 (leBytes 2 (s.rd JX_SELF.ID) ++ leBytes 1 (s.rd JX_SELF.ASSIGNED) ++ leBytes 1 n ++ als))

/-- No HELLO for 1 s (R406). -/
def execFarvalidTimeout (n : Nat) (s : State) : Res := .next (if n < 72 then s.wr (JX_PORT_FAR.FARVALID (portK n) (portP n)) 0 else s)

/-! ### Time across panels (R408, R409) -/

/-- The time parent and the hops to the root: 63 where no route is known, 0 at the root (R408). -/
def State.jxParent (s : State) : State :=
  let root := s.rd JX_TIME_CFG.ROOT
  if s.ownId root then (s.wr JX_TIME_STAT.PARENT 0x7F).wr JX_TIME_STAT.HOPS 0
  else
    match least? (s.upPorts.filterMap (fun n => s.hopsBy n root)) with
    | none => (s.wr JX_TIME_STAT.PARENT 0x7F).wr JX_TIME_STAT.HOPS 63
    | some h =>
      (s.wr JX_TIME_STAT.PARENT ((s.upPorts.find? (fun n => decide (s.hopsBy n root = some h))).getD 0x7F)).wr JX_TIME_STAT.HOPS h

/-- JX_TIME_LOCK (R417). A STEP that still waits gives way, and the offset is corrected by SLEW (R470). -/
def State.timeLock (s : State) (b : Bool) : State :=
  if s.bit JX_TIME_STAT.LOCKED = b then s
  else
    let s := (s.wr JX_TIME_STAT.LOCKED (b2n b)).postPanel 0x0404 31 1
      (leBytes 1 (b2n b) ++ leBytes 1 (s.rd JX_TIME_STAT.HOPS) ++ leBytes 2 0 ++ leBytes 4 (s.rd JX_TIME_OFS.OFS))
    if b then
      let waits := match s.clk.adj with
        | some a => a.step
        | none => false
      let s := if waits then { s with clk := { s.clk with adj := none } } else s
      { s with jx := { s.jx with wasLocked := true } }
    else s

/-- Every 10 ms a panel that is not the root starts an exchange with its parent (R408). -/
def execJxTimeTimer (s : State) : Res :=
  if !s.bit JX_TIME_CFG.EN || s.bit GLB_STW_STAT.LOST_BOTH then .next s
  else
    let s := s.jxParent
    let n := s.rd JX_TIME_STAT.PARENT
    if 72 ≤ n then .next s
    else
      let s := { s with jx := { s.jx with exch := some (n, s.ptime) } }
      .next (s.sendLink n 0x12 (leBytes 8 s.ptime))

/-- TIME_REQ at a port (R408): answered with t1, t2 and t3; how long the answer takes is a free value (log entry 4). -/
def State.gotTimeReq (s : State) (n : Nat) (data : List Byte) : State :=
  if s.bit GLB_STW_STAT.LOST_BOTH then s
  else
    let (d, s) := s.draw
    let s := s.jxParent
    s.sendLink n 0x13 (data.take 8 ++ leBytes 8 s.ptime ++ leBytes 8 (s.ptime + d) ++ leBytes 2 (s.rd JX_TIME_STAT.HOPS))

/-- Limited to a signed 32-bit value, as its code (R416). -/
def satSigned32 (i : Int) : Nat := unsgn 32 (if i < -(2 ^ 31 : Nat) then -(2 ^ 31 : Nat) else if (2 ^ 31 : Nat) - 1 < i then (2 ^ 31 : Nat) - 1 else i)

/-- The offset is handed to the adjustment of panel time (R461): STEP only before the first lock and beyond 10 µs, which waits while a layer runs (R470),
else SLEW at the rate that CLK_PT_CFG allows. -/
def State.adjustTime (s : State) (ofs : Int) : State :=
  if s.clk.adj.isSome || decide (s.clk.slewLeft ≠ 0) then s
  else if s.bit CLK_PT_CFG.STEP_EN && !s.jx.wasLocked && decide (10000 < ofs.natAbs) then (if s.anyLayer then s else s.issueAdj true ofs 0)
  else
    let most := s.rd CLK_PT_CFG.SLEW_PPM * 4 * 65536 / 1000000
    let ticks := if most = 0 then 0 else ofs.natAbs * 65536 / most
    if ticks = 0 then s else s.issueAdj false (if ofs < 0 then -(most : Int) else most) ticks

/-- TIME_RSP at a port (R408, R409). -/
def State.gotTimeRsp (s : State) (n : Nat) (data : List Byte) : State :=
  match s.jx.exch with
  | none => s
  | some e =>
    if e.1 ≠ n ∨ leField data 0 8 ≠ e.2 ∨ s.bit GLB_STW_STAT.LOST_BOTH = true then s
    else
      let t1 : Int := e.2
      let t2 : Int := leField data 8 8
      let t3 : Int := leField data 16 8
      let t4 : Int := s.ptime
      let ofs := ((t2 - t1) + (t3 - t4)) / 2
      let near := decide ((ofs - s.jx.lastOfs).natAbs ≤ 20)
      let agree := if near then min 8 (s.jx.agree + 1) else 1
      let s := { s with jx := { s.jx with exch := none, agree := agree, lastOfs := ofs } }
      let s := s.wr JX_TIME_OFS.OFS (satSigned32 ofs)
      let s := if agree = 8 then s.timeLock true else s
      s.adjustTime ofs

/-- 1 s without an exchange (R409). -/
def execTimeLockLoss (s : State) : Res := .next ({ s with jx := { s.jx with agree := 0, exch := none } }.timeLock false)

/-! ### Packets by type -/

/-- What the receiving panel itself takes (R386, R401). -/
def jxLink (n : Nat) (h : JxHdr) (l : List Byte) (s : State) : State :=
  match h.ptype with
  | 0x10 => s.gotHello n l
  | 0x11 => s.gotAdv n l
  | 0x12 => s.gotTimeReq n l
  | 0x13 => s.gotTimeRsp n l
  | 0x14 => s.farPowers n l
  | _ => s.gotSeal n l

/-- A packet arrives on a port. -/
def State.packet (s : State) (n : Nat) (h : JxHdr) (data : List Byte) : State := s.jxArrive jxLink n h data

/-- The packet commands, by PTYPE (R386, R401 to R405, R365, R406 to R408). -/
def execJxWrite (n : Nat) (h : JxHdr) (data : List Byte) (s : State) : Res := .next (s.packet n { h with ptype := 0x01 } data)
def execJxDeliver (n : Nat) (h : JxHdr) (data : List Byte) (s : State) : Res := .next (s.packet n { h with ptype := 0x02 } data)
def execJxReduce (n : Nat) (h : JxHdr) (data : List Byte) (s : State) : Res := .next (s.packet n { h with ptype := 0x03 } data)
def execJxReadReq (n : Nat) (h : JxHdr) (s : State) : Res := .next (s.packet n { h with ptype := 0x04 } [])
def execJxReadRsp (n : Nat) (h : JxHdr) (data : List Byte) (s : State) : Res := .next (s.packet n { h with ptype := 0x05 } data)
def execJxAck (n : Nat) (h : JxHdr) (s : State) : Res := .next (s.packet n { h with ptype := 0x06 } [])
def execBarArrive (n : Nat) (h : JxHdr) (data : List Byte) (s : State) : Res := .next (s.packet n { h with ptype := 0x08 } data)
def execBarRelease (n : Nat) (h : JxHdr) (s : State) : Res := .next (s.packet n { h with ptype := 0x09 } [])
def execHello (n : Nat) (h : JxHdr) (data : List Byte) (s : State) : Res := .next (s.packet n { h with ptype := 0x10 } data)
def execRouteAdv (n : Nat) (h : JxHdr) (data : List Byte) (s : State) : Res := .next (s.packet n { h with ptype := 0x11 } data)
def execTimeReq (n : Nat) (h : JxHdr) (data : List Byte) (s : State) : Res := .next (s.packet n { h with ptype := 0x12 } data)
def execTimeRsp (n : Nat) (h : JxHdr) (data : List Byte) (s : State) : Res := .next (s.packet n { h with ptype := 0x13 } data)
def execLinkinfo (n : Nat) (h : JxHdr) (data : List Byte) (s : State) : Res := .next (s.packet n { h with ptype := 0x14 } data)

/-! ### Link control and replay (R389, R393 to R395) -/

/-- Jexlink initialises a port that the optical layer has brought UP (R395): numbers and credits from zero, and INIT cells. -/
def State.jxInit (s : State) (n : Nat) : State :=
  let x := s.port n
  let s := s.setPort n { JxPort.reset with queue := x.queue, held := x.held, turn := x.turn, debt := x.debt }
  let s := (s.wr (JX_PORT_STAT.LSTATE (portK n) (portP n)) 1).wr (JX_PORT_STAT.ASEQ (portK n) (portP n)) 0
  s.reportLctl n

/-- JX_PORT_UP (R395). -/
def execJxPortUp (n : Nat) (s : State) : Res := .next (if n < 72 ∧ s.pstate n = 2 ∧ s.lstate n = 0 then s.jxInit n else s)

/-- An INIT cell (R395): the port is UP for Jexlink; sealing is agreed where it is asked for (R619), and the full list is
advertised (R407). -/
def State.gotInit (s : State) (n : Nat) : State :=
  let s := if s.pstate n = 2 ∧ s.lstate n = 0 then s.jxInit n else s
  if s.lstate n ≠ 1 then s
  else
    let s := (s.wr (JX_PORT_STAT.LSTATE (portK n) (portP n)) 2).linkEvent n
    let s := s.startAgree n
    if s.discovers then (s.sendAdv n (s.advert n)).pump n else s.pump n

/-- The unacknowledged flits after an acknowledgement up to number `a`: none where `a` names none of them. -/
def ackedAfter (a : Nat) : List (Nat × List (List Byte)) → Option (List (Nat × List (List Byte)))
  | [] => none
  | f :: t => if f.1 = a then some t else ackedAfter a t

/-- What an LCTL cell acknowledges and frees (R388, R391, R393), and the lane operation it carries (R364). -/
def State.gotAck12 (s : State) (n : Nat) (c : Lctl) : State :=
  let s := s.updPort n (fun x =>
    let x := { x with seen := forN 8 (fun v t => Tab.set 0 t v (c.creds.getD v 0)) x.seen }
    match ackedAfter c.aseq x.unacked with
    | some l => { x with unacked := l, stuck := 0 }
    | none => x)
  let s := s.wr (JX_PORT_STAT.ASEQ (portK n) (portP n)) c.aseq
  let s := match c.lop with
    | 1 => s.farAsks n c false
    | 2 => s.farConfirms n c false
    | 3 => s.farAsks n c true
    | 4 => s.farConfirms n c true
    | 5 => s.farRejects n c
    | _ => s
  s.pump n

/-- A replay (R393, R395): a marker, then every flit that is not acknowledged, unchanged; where a NAK finds none, the marker names the flit sent next; a flit replayed 8 times without progress takes the port DOWN to
train again. A time exchange on the port is discarded (R408). -/
def State.replay (s : State) (n : Nat) : State :=
  let x := s.port n
  match x.unacked with
  | [] =>
    let s := (s.spoilTime n).sat (JX_PORT_RPL.COUNT (portK n) (portP n)) 1
    s.sendLctl n { s.lctlNow n with replay := true, rseq := x.txNext }
  | f :: _ =>
    let s := s.spoilTime n
    if 8 ≤ x.stuck then (s.trainPort n).postPanel 0x0401 31 1 (leBytes 1 n ++ leBytes 1 0 ++ leBytes 2 f.1)
    else
      let s := (s.sat (JX_PORT_RPL.COUNT (portK n) (portP n)) 1).setPort n { x with stuck := x.stuck + 1 }
      let s := s.sendLctl n { s.lctlNow n with replay := true, rseq := f.1 }
      forL x.unacked (fun e s => s.emit (.flit n (some e.1) e.2)) s

/-- A replay marker at the receiver (R394): flits are accepted again only from the number that is expected. A time
exchange on the port is discarded (R408). -/
def State.gotMarker (s : State) (n : Nat) (c : Lctl) : State :=
  let s := s.spoilTime n
  let x := s.port n
  if c.rseq = x.rxNext then s.setPort n { x with bad := false } else (s.setPort n { x with bad := true, nak := true }).reportLctl n

/-- A link-control cell (R388, R389). -/
def State.gotLctl (s : State) (n : Nat) (c : Lctl) : State :=
  if c.init then s.gotInit n
  else if s.lstate n < 2 then s
  else
    let s := s.gotAck12 n c
    if c.nak then s.replay n else s

/-- LCTL_ACK_CREDIT (R389, R391). -/
def execLctlAckCredit (n : Nat) (c : Lctl) (s : State) : Res := .next (if n < 72 ∧ 2 ≤ s.lstate n then s.gotAck12 n c else s)

/-- LCTL_NAK (R393): what the cell acknowledges, and a replay from ASEQ + 1. -/
def execLctlNak (n : Nat) (c : Lctl) (s : State) : Res := .next (if n < 72 ∧ 2 ≤ s.lstate n then (s.gotAck12 n c).replay n else s)

/-- LCTL_REPLAY_MARKER (R394). -/
def execLctlReplayMarker (n : Nat) (c : Lctl) (s : State) : Res :=
  .next (if n < 72 ∧ 2 ≤ s.lstate n then (s.gotAck12 n { c with lop := 0 }).gotMarker n c else s)

/-- LCTL_INIT (R395). -/
def execLctlInit (n : Nat) (_c : Lctl) (s : State) : Res := .next (if n < 72 then s.gotInit n else s)

/-- ASEQ has made no progress for 20 µs while flits are outstanding (R393). -/
def execReplayTimeout (n : Nat) (s : State) : Res := .next (if n < 72 ∧ 2 ≤ s.lstate n ∧ (s.port n).unacked ≠ [] then s.replay n else s)

/-- The reporting interval of a receiver ends (R389): an LCTL cell; packets held at the port are tried again (R241, R247). -/
def execLctlSendTimer (n : Nat) (s : State) : Res :=
  .next (if n < 72 ∧ 1 ≤ s.lstate n then (s.reportLctl n).retryHeld n else if n = 72 then s.retryHeld 72 else s)

/-! ### Flits (R383, R384, R394) -/

/-- What a good flit holds, in order: whole packets and link-control cells. -/
inductive FlitItem where
  | packet (h : JxHdr) (data : List Byte)
  | lctl (c : Lctl)
  deriving DecidableEq, Repr

/-- The cells of a flit (R383): items, the packet still open, and whether the flit is numbered; none where it is bad (R383, R387). An LCTL cell whose LCRC
fails is ignored (R389). -/
def scanCells : Option JxOpen → List (List Byte) → Option (List FlitItem × Option JxOpen × Bool)
  | o, [] => some ([], o, false)
  | some o, c :: t =>
    let got := o.got ++ c
    if o.left ≤ 1 then (scanCells none t).map (fun r => (.packet o.h got :: r.1, r.2.1, true))
    else (scanCells (some { o with got := got, left := o.left - 1 }) t).map (fun r => (r.1, r.2.1, true))
  | none, c :: t =>
    match (leField c 0 1) % 16 with
    | 0 => scanCells none t
    | 1 => (scanCells none t).map (fun r => (match parseLctl c with
      | some l => .lctl l :: r.1
      | none => r.1, r.2))
    | 2 =>
      let h := parseHdr c
      if 64 < h.ndata ∨ h.hcrc ≠ crc32 (c.take 40) then none
      else if h.ndata = 0 then (scanCells none t).map (fun r => (.packet h [] :: r.1, r.2.1, true))
      else (scanCells (some { h := h, got := [], left := h.ndata }) t).map (fun r => (r.1, r.2.1, true))
    | _ => none

/-- The marker that a flit is, where it is one (R393). -/
def markerOf (cells : List (List Byte)) : Option Lctl :=
  match cells with
  | c :: t =>
    if leField c 0 1 % 16 = 1 ∧ t = [idleCell, idleCell, idleCell] then (parseLctl c).filter (fun l => l.replay) else none
  | [] => none

/-- After 64 numbered flits a receiver has an LCTL cell to send (R389). -/
def State.reportDue (s : State) (n : Nat) : State := if 64 ≤ (s.port n).unreported then s.reportLctl n else s

/-- An item of a flit takes its effect. -/
def flitItem (n : Nat) (i : FlitItem) (s : State) : State :=
  match i with
  | .packet h data => s.packet n h data
  | .lctl c => s.gotLctl n c

/-- A flit arrives (R384, R394): `good` where every codeword that covers it decoded. -/
def execFlitReceive (n : Nat) (good : Bool) (cells : List (List Byte)) (s : State) : Res :=
  let x := s.port n
  let refuse := (s.setPort n { x with bad := true, nak := true }).reportLctl n
  if 72 ≤ n ∨ s.pstate n ≠ 2 then .next s
  else
    match (if good then markerOf cells else none) with
    | some c => .next (if s.lstate n < 2 then s else (s.gotAck12 n c).gotMarker n c)
    | none =>
      if x.bad then .next s
      else
        match (if good && decide (cells.length = 4) then scanCells x.open_ cells else none) with
        | none => .next (if s.lstate n < 2 then s else refuse)
        | some (items, o, numbered) =>
          if numbered && decide (s.lstate n < 2) then .next s
          else
            let s := if numbered then s.setPort n { x with rxNext := (x.rxNext + 1) % 4096, open_ := o, unreported := x.unreported + 1 } else s
            .next ((forL items (flitItem n) s).reportDue n)

/-! ### The router's registers (R396, R413, R415, R416) -/

/-- JX_RT_WRITE (R396). -/
def execJxRtWrite (src : Src) (d : Nat) (v : W32) (s : State) : Res :=
  if !pfOrFw src || decide (65536 ≤ d) then .next s
  else
    let x := v.toNat
    let s := (((s.wr (JX_RT.P0 d) (bitsOf x 0 7)).wr (JX_RT.P1 d) (bitsOf x 8 7)).wr (JX_RT.P2 d) (bitsOf x 16 7)).wr (JX_RT.P3 d) (bitsOf x 24 7)
    .next ((((s.wr (JX_RT.DL0 d) (bitsOf x 7 1)).wr (JX_RT.DL1 d) (bitsOf x 15 1)).wr (JX_RT.DL2 d) (bitsOf x 23 1)).wr (JX_RT.DL3 d) (bitsOf x 31 1))

/-- JX_SELF_WRITE (R412, R413): SHADOWED clears at any write; ID and ASSIGNED keep under the lock (R8). -/
def execJxSelfWrite (src : Src) (v : W32) (s : State) : Res :=
  if !pfOrFw src then .next s
  else
    .next (s.reroute [s.rd JX_SELF.ID] (fun s =>
      let s := if s.locked then s else (s.wr JX_SELF.ID (bitsOf v.toNat 0 16)).wr JX_SELF.ASSIGNED (bitsOf v.toNat 16 1)
      s.wr JX_SELF.SHADOWED 0))

/-- JX_ALIAS_WRITE (R412). -/
def execJxAliasWrite (src : Src) (i : Nat) (v : W32) (s : State) : Res :=
  if !pfOrFw src || decide (4 ≤ i) then .next s
  else
    .next (s.reroute [s.rd (JX_ALIAS.ID i)] (fun s => (s.wr (JX_ALIAS.ID i) (bitsOf v.toNat 0 16)).wr (JX_ALIAS.EN i) (bitsOf v.toNat 16 1)))

end Sys2Proof.Machine
end

