-- ==== Sys2Proof/Machine/Raw.lean ====
section
/-! DEFINITION. Registers as words (R643 to R646): what the fields of the map at an offset hold, and a register loaded whole. -/

namespace Sys2Proof.Machine

/-- The `n` bytes of the register at `off` from there on, as its fields hold them; undefined bits and offsets read zero (R646). -/
def State.rawRead (s : State) (off n : Nat) : Nat :=
  match findReg regRows off with
  | some (row, ix, b) =>
    bitsOf (row.fields.foldl (fun t f => t + s.rd (f.fld ix) * 2 ^ ((f.fld ix).key - 8 * (off - b))) 0) (8 * b) (8 * n)
  | none => 0

/-- Firmware loads a register: each of its RW and RWL fields takes its bits of `v` (R658). -/
def State.rawLoad (s : State) (off v : Nat) : State :=
  match findReg regRows off with
  | some (row, ix, b) =>
    row.fields.foldl (fun s f =>
      if decide (f.acc = .rw) || decide (f.acc = .rwl) then s.wr (f.fld ix) (bitsOf v ((f.fld ix).key - 8 * (off - b)) (f.fld ix).w) else s) s
  | none => s

end Sys2Proof.Machine
end

