-- ==== Sys2Proof/Machine/BootOps.lean ====
section
/-! DEFINITION. What resets do (R350, R351, R525 to R531): functions, endpoints, stewards, the panel. -/

namespace Sys2Proof.Machine

/-- The state after a command that another one performs. -/
def settle (r : Res) (s : State) : State := match r with
  | .next t => t
  | _ => s

/-! ### Functions and endpoints -/

/-- A ring becomes DISABLED with its indexes at 0 (R350). -/
def State.ringOff (s : State) (r : Nat) : State :=
  let s := ((s.wr (RING_CFG.EN r) 0).wr (RING_STAT.STATE r) 0).wr (RING_STAT.FULL r) 0
  ((s.wr (RING_HEAD.HEAD r) 0).wr (RING_TAIL.TAIL r) 0).updHost (fun h => { h with coal := Tab.set 0 h.coal r 0 })

/-- The rings of a function. -/
def State.fnRings (s : State) (f : Nat) : List Nat := ((List.range 2048).map (· + 2048 * epOf f)).filter (fun r => decide (s.rd (RING_CFG.FUNC r) = f))

/-- A function-level reset (R350, R604): its rings and its event ring, its descriptors without entries, the layers of its partitions, its aperture, its
role. -/
def State.flr (s : State) (f : Nat) : State :=
  let rs := s.fnRings f
  let s := s.updHost (fun h => { h with
    descs := h.descs.filter (fun d => decide (d.fn ≠ f))
    held := h.held.filter (fun e => !rs.contains e.cq && !rs.contains e.sq)
    evtLost := Tab.set 0 h.evtLost f 0, d3hot := Tab.set 0 h.d3hot f 0 })
  let s := forL rs (fun r s => s.ringOff r) s
  let s := ((s.wr (HID_EVT_CFG.EN f) 0).wr (HID_EVT_HEAD.HEAD f) 0).wr (HID_EVT_TAIL.TAIL f) 0
  let s := forN 16 (fun p s => if s.bit (HID_PART.EN p) && decide (s.rd (HID_PART.OWNER p) = f) && (s.part p).run.isSome then s.endLayer p 5 else s) s
  let s := s.wr (HID_FN_AP.BASE f) 0
  if isPf f then s.dropRole (f / 8) else s

/-- The default ring pair of an endpoint (R542). -/
def State.defaultRings (s : State) (ep : Nat) : State :=
  let r := 2048 * ep
  let s := ((s.wr (RING_CFG.KIND r) 0).wr (RING_CFG.TRUMP r) 0).wr (RING_CFG.LOG2SIZE r) 6
  let s := (s.wr (RING_LINK.CQ r) (r + 1)).wr (RING_LINK.ARB r) 0
  let s := (s.wr (RING_CFG.KIND (r + 1)) 1).wr (RING_CFG.LOG2SIZE (r + 1)) 6
  ((s.wr (RING_LINK.VEC (r + 1)) 0).wr (RING_LINK.CTHR (r + 1)) 0).wr (RING_LINK.CTIME (r + 1)) 0

/-- A conventional reset of an endpoint (R351, R525): every function as by an FLR, the configuration space and the MSI-X tables at their defaults, ring
records at their reset values but for FUNC under the lock. -/
def State.endpointClear (s : State) (ep : Nat) : State :=
  let fs := (List.range 8).map (· + 8 * ep)
  let s := forL fs (fun f s => s.flr f) s
  let s := forL fs (fun f s => s.wr (HID_FN_ID.EN f) 0) s
  let s := s.updHost (fun h => { h with
    vfEn := Tab.set 0 h.vfEn ep 0, numVfs := Tab.set 0 h.numVfs ep 0
    msix := h.msix.filter (fun e => decide (e.1 / 65536 ≠ ep)), pba := h.pba.filter (fun e => decide (e.1 / 16384 ≠ ep))
    bars := h.bars.filter (fun e => decide (e.1 / 64 ≠ ep)), aer := h.aer.filter (fun e => decide (e.1 / 8 ≠ ep)), d3hot := h.d3hot.filter (fun e => decide (e.1 / 8 ≠ ep))
    msixOff := h.msixOff.filter (fun e => decide (e.1 / 8 ≠ ep)), fnMask := h.fnMask.filter (fun e => decide (e.1 / 8 ≠ ep))
    mps := Tab.set 0 h.mps ep 0, mrrs := Tab.set 2 h.mrrs ep 2, relaxed := Tab.set 1 h.relaxed ep 1, tags14 := Tab.set 0 h.tags14 ep 0 })
  s.resetRegs (0x20000 + 0x10000 * ep) (0x20000 + 0x10000 * (ep + 1))
def State.endpointReset (s : State) (ep cause : Nat) : State := (s.endpointClear ep).noteReset (3 + ep) cause false

/-- An endpoint leaves reset (R532 step 5, R546): its PF answers. -/
def State.endpointUp (s : State) (ep : Nat) : State :=
  if Tab.get 0 s.host.inReset ep = 1 then s.wr (HID_FN_ID.EN (8 * ep)) 1 else s

/-! ### The panel -/

/-- Every scope of the panel takes a cause and a time (R526). -/
def State.notePanel (s : State) (cause : Nat) (forced : Bool) : State := forN 215 (fun i s => s.noteOne i cause forced) s

/-- Registers that every reset leaves: of the keyring's fuses, which are owner slots, COSIGN and the anti-rollback indexes (R525, R605), and of the
cartridges' identity records (R495). -/
def fuseKey (key : Nat) : Bool :=
  inRange key (8 * 0x100008) (8 * (0x100140 - 0x100008)) || decide (key = KEY_STAT.COSIGN.key) || decide (key = KEY_STAT.OWNED.key) ||
    (inRange key (8 * 0x80100) (8 * 0x140) && decide (8 ≤ key / 8 % 16))

/-- What a panel cold reset leaves (R525, R495), beside `z`, the panel after power-on: the logbook, the OTP arrays and fuses, the boot flash and the operator
record in it, identity records, the tray's pins, and what the host and the coolant do outside the panel. -/
def State.survive (s z : State) : State :=
  { z with
    pending := s.pending, out := s.out, fresh := s.fresh
    regs := s.regs.filter (fun e => fuseKey e.1)
    tel := { z.tel with log := s.tel.log }
    rcv := { z.rcv with fuses := s.rcv.fuses, code := s.rcv.code }
    key := { z.key with ops := s.key.ops, flash := s.key.flash, bank := s.key.bank }
    host := { z.host with inReset := s.host.inReset, linkRate := s.host.linkRate, linkWidth := s.host.linkWidth }
    therm := { z.therm with faultN := s.therm.faultN }
    boot := { z.boot with trayLow := s.boot.trayLow, tray := s.boot.tray, on := s.boot.on } }

/-- The panel after a cold reset, before its start (R525): scratchpads hold nothing that the spec gives; log devices that had both failed stay
unreadable (R538). -/
def State.coldClear (s : State) : State :=
  let dead := s.boot.on && !s.logOk
  let t := (s.survive State.reset).wr THM_COOLANT.FAULT_N_LOW (b2n s.therm.faultN)
  let t := t.openRange (winBase 0) (winBase 36864)
  let t := (t.wr TEL_LOG_STAT.DEV0_OK (b2n !dead)).wr TEL_LOG_STAT.DEV1_OK (b2n !dead)
  let t := t.wr TEL_LOG_STAT.MIRROR_OK (b2n !dead)
  if dead then t else (t.wr TEL_LOG_SEQ.SEQ (s.tel.log.foldl (fun m r => max m r.seq) 0)).logSpace
def State.coldReset (s : State) (cause : Nat) : State := s.coldClear.notePanel cause false

/-- A region whose cartridge was on goes to OFF. -/
def State.ctToOff (s : State) (r : Nat) : State :=
  if inRange (s.rd (PWR_CT_STAT.STATE r)) 2 2 then s.setCt r 1 else s

/-- A region goes to C6 in a panel warm reset, hole or not (R525). -/
def State.regionClear (s : State) (r : Nat) : State :=
  let s := (s.resetRegion r).resetRegs (0x800000 + r * 0x40000) (0x800000 + (r + 1) * 0x40000)
  ((s.wr (RGN_PWR_STAT.STATE r) 4).wrBit GLB_HOLE_RGN.HOLE r false).ctToOff r

/-- A panel warm reset (R525, R527, R528): every region to C6; ring, function and partition records; the lock; the dealer. -/
def State.warmReset (s : State) (cause : Nat) : State :=
  let s := (forN 16 (fun f s => s.flr f) s).dropRoles
  let s := s.wr SETUP_LOCK.LOCK 0
  let s := (s.resetRegs 0x10000 0x40000).resetRegs 0x3000000 0x3003000
  let s := forN 16 (fun f s => s.wr (HID_FN_ID.EN f) (b2n (isPf f || (decide (Tab.get 0 s.host.vfEn (epOf f) = 1) && decide (f % 8 ≤ Tab.get 0 s.host.numVfs (epOf f)))))) s
  let s := forN 16 (fun r s => s.regionClear r) s
  let s := forN 16 (fun p s => s.wr (GLB_RCV_PART.LOSS_PENDING p) 0 |>.wr (GLB_RCV_PART.REPLAYING p) 0) s
  let s := ((s.wr PWR_ANTE_STAT.PEND 0).wr PWR_ANTE_STAT.RAMP 0).resetRegs 0x14000C 0x140020
  let s := (s.wr TEL_TRICK_STAT.BUSY 0).wr TEL_TRICK_STAT.VALID 0
  let s := forN 20 (fun u s => forN 17 (fun k s => s.wr (CKU_ALIVE.VALID u k) 0) s) s
  let s := { s with
    parts := [], guards := []
    store := { s.store with readQ := [], held := [], ws := [], full := [], initing := false }
    net := { s.net with nodes := s.net.nodes.filter (fun e => decide (144 ≤ e.1) && decide (e.1 ≠ 157) && decide (e.1 ≠ 183)), chg := none, acted := [], clamp := holdLevel s.power.holds }
    host := { s.host with descs := [], held := [], rrTrump := [], rrRing := [], rrLeft := [], coal := [], evtSeq := [], evtLost := [], stwLost := [] }
    mgmt := Mgmt.reset
    power := { s.power with antes := [], resv := [], ramp := [], loop := [], calm := [], forced := [], forcedDie := [], tight := false, swap := [] }
    rcv := { s.rcv with retry := [], lossDue := [], quietDue := [], update := none, booting := false }
    tel := { s.tel with trick := none, next := 0, shadow := [], daily := false, dayRecs := [] }
    jx := { s.jx with wasLocked := false, xfers := [], bars := [] }
    boot := { s.boot with idle := [], saveDue := false, lockDue := false } }
  let s := forN 24 (fun k s => s.notePools k) s
  s.notePanel cause (decide (cause = 0x0C) || decide (cause = 0x0E))

end Sys2Proof.Machine
end

