-- ==== Sys2Proof/Machine/Power.lean ====
section
/-! DEFINITION. Power delivery (R471 to R499): budgets and their exchange, the regional loops, antes and ramps, power states, phases and input faults. The
loss of cartridges and blades is in Machine/Cartridges.lean. -/

namespace Sys2Proof.Machine

/-! ### Measurements and budgets -/

/-- What the sensors read enters the registers (R475): the input, the blades, the cartridges' outputs. -/
def State.measure (s : State) (m : PwrMeas) : State :=
  let s := (((s.wr PWR_IN.POWER m.power).wr PWR_IN.VOLT m.volt).wr PWR_IN.CURR m.curr).wr PWR_IN.AVG5 m.avg5
  let s := forN 4 (fun b s => match m.blades[b]? with
    | some e => (s.wr (PWR_BLADE.VOLT b) e.1).wr (PWR_BLADE.CURR b) e.2
    | none => s) s
  let s := forN 20 (fun n s => s.wr (PWR_CT_STAT.OUT_W n) (m.outs.getD n 0)) s
  forN 16 (fun r s => s.wr (RGN_PWR_STAT.USED_W r) (m.ins.getD r 0)) s

/-- The flow-scaled limit in force (R482, R503, R514, R515): what the steward has published in THM_STAT, or BLIND_W without flow data. -/
def State.flowLimit (s : State) : Nat :=
  let w := s.rd THM_STAT.FLOW_W
  if s.bit THM_STAT.NOFLOWDATA then min w (s.rd THM_FLOW_CFG.BLIND_W) else w

/-- The cap with two or more blades lost (R473): 2 × 150 A × the measured input voltage × 0.9. -/
def State.bladeCap (s : State) : Nat :=
  let lost := ((List.range 4).filter (fun b => !s.bit (PWR_BLADE.OK b))).length
  if 2 ≤ lost then 270 * s.rd PWR_IN.VOLT / 100 else 16000

/-- The effective panel budget (R482), and BUDGET_SET where it changes by more than 1 %. -/
def State.newBudget (s : State) : State :=
  let eff := min (min (min (s.rd PWR_BUDGET.HOST_W) 16000) s.flowLimit) s.bladeCap
  let old := s.rd PWR_BUDGET.EFF_W
  let s := s.wr PWR_BUDGET.EFF_W eff
  if old < 100 * (max eff old - min eff old) then s.postPanel 0x0100 31 0 (leBytes 2 (s.rd PWR_BUDGET.HOST_W) ++ leBytes 2 eff) else s

/-- Phases of a cartridge, those that it needs, and its rating in W (R472). -/
def ctPhases (n : Nat) : Nat := if n = 16 ∨ n = 17 then 8 else 6
def ctRating (n : Nat) : Nat := if n = 16 ∨ n = 17 then 1500 else 1000

/-- A cartridge's output limit with failed phases (R477): its rating, or that of the phases left once the spare is used up. -/
def State.ctLimit (s : State) (n : Nat) : Nat :=
  let gone := Tab.get 0 s.power.ctPhase n
  if gone ≤ 1 then ctRating n else ctRating n * (ctPhases n - gone) / (ctPhases n - 1)

/-- A hard limit (R484, R483): budget × 19 ÷ 16, or the budget itself while an excursion is answered. -/
def State.hardOf (s : State) (b : Nat) : Nat := if s.power.tight then b else b * 19 / 16

/-- GRANT from the steward to a region's manager (R187, R484). -/
def State.grant (s : State) (r b : Nat) : State := s.toManager r 2 [2 + r * 2 ^ 8 + b * 2 ^ 16 + s.hardOf b * 2 ^ 32]

/-- The regions that are on and so take part in the exchange. -/
def State.onRegions (s : State) : List Nat := (List.range 16).filter (fun r => decide (s.rgnState r < 4))

/-- The budget of a region at the exchange (R484, R487, R477): its reservation in its first 10 ms; its demand and a share of the surplus up to its
cartridge's rating; or its part of the pool. -/
def State.share (s : State) (pool total cnt r : Nat) : Nat :=
  let d := s.rd (RGN_PWR_BUD.DEMAND r)
  let resv := Tab.get 0 s.power.resv r
  if 0 < resv then resv
  else
    let b := if total ≤ pool then d + (pool - total) / max cnt 1 else max 100 (pool * d / max total 1)
    min b (s.ctLimit r)

/-- What the exchanges of the last second have read above 16 kW, with their times, the new reading included (R483). -/
def State.excessNow (s : State) (power : Nat) : List (Nat × Nat) :=
  ((s.ptime, power - 16000) :: s.power.excess).filter (fun e => decide (0 < e.2) && decide (s.ptime < e.1 + 1000000000))

/-- The energy drawn above 16 kW over the last second, in J, which is W of that second (R483): each reading stands for 1 ms. -/
def State.excessW (s : State) : Nat := s.power.excess.foldl (fun t e => t + e.2) 0 / 1000

/-- Energies of the last 1 ms in mJ (R582): of each cartridge at its 48 V input, and, free values since no operand gives them (DESIGN CHOICE, log entry 4), of each
die in service at its regulator's input. -/
def State.countEnergy (s : State) (m : PwrMeas) : State :=
  let s := forN 20 (fun n s => s.wr (PWR_CT_ENERGY.COUNT n) (s.rd (PWR_CT_ENERGY.COUNT n) + m.ins.getD n 0)) s
  let (f, s) := s.drawMany
  forN 144 (fun d s => if s.dieAbsent d then s else s.pcount d (CD_REG_ENERGY.COUNT d) (CD_PERF_DWRAP.ENERGY_WRAP d) 0 (f d)) s

/-- The exchange of every 1 ms (R482 to R484): the pool is the effective budget less what memory and optical cartridges draw plus 5 %, less the
reservations, less what was drawn above 16 kW over the last second. -/
def execBudgetExchange (m : PwrMeas) (s : State) : Res :=
  let s := (s.measure m).countEnergy m
  if s.bit GLB_STW_STAT.LOST_BOTH then .next s
  else
    let s := s.newBudget
    let s := { s with power := { s.power with excess := s.excessNow m.power } }
    let fixed := (List.range 4).foldl (fun n i => n + m.ins.getD (16 + i) 0) 0
    let resv := (List.range 16).foldl (fun n r => n + Tab.get 0 s.power.resv r) 0
    let pool := s.rd PWR_BUDGET.EFF_W - (fixed + fixed * 5 / 100) - resv - s.excessW
    let rs := s.onRegions
    let open_ := rs.filter (fun r => decide (Tab.get 0 s.power.resv r = 0))
    let total := open_.foldl (fun n r => n + s.rd (RGN_PWR_BUD.DEMAND r)) 0
    .next (forL rs (fun r s' => s'.grant r (s.share pool total open_.length r)) s)

/-- DEMAND at the steward (R187, R484): protected. -/
def atDemand (region meas pred : Nat) (notP01 : Bool) (chk : ChkFlit) (h : CtlHdr) (s : State) : Res :=
  let r := region % 16
  let (s, ok) := s.judge h 1 [1 + region % 256 * 2 ^ 8 + meas % 2 ^ 16 * 2 ^ 16 + pred % 2 ^ 16 * 2 ^ 32 + b2n notP01 * 2 ^ 48] chk
  if !ok || h.dnode ≠ s.stewardNode then .next s
  else .next ((s.wr (RGN_PWR_BUD.DEMAND r) pred).wr (RGN_PWR_STAT.USED_W r) meas)

/-- Demand as a packet of the control network (R156, R189). -/
def execDemand (h : CtlHdr) (region meas pred : Nat) (notP01 : Bool) (chk : ChkFlit) (s : State) : Res := atCtl h noWait (atDemand region meas pred notP01 chk) s

/-- GRANT at a region's manager (R187, R484). -/
def atGrant (region budget hard : Nat) (chk : ChkFlit) (h : CtlHdr) (s : State) : Res :=
  let r := region % 16
  let (s, ok) := s.judge h 2 [2 + region % 256 * 2 ^ 8 + budget % 2 ^ 16 * 2 ^ 16 + hard % 2 ^ 16 * 2 ^ 32] chk
  if !ok || h.dnode ≠ s.managerDie r then .next s
  else .next ((s.wr (RGN_PWR_BUD.BUDGET r) budget).wr (RGN_PWR_HARD.HARD r) hard)

/-- Grant as a packet of the control network (R156, R189). -/
def execGrant (h : CtlHdr) (region budget hard : Nat) (chk : ChkFlit) (s : State) : Res := atCtl h noWait (atGrant region budget hard chk) s

/-- GRANT_REQ at the steward: a GRANT at once (R187, R567). -/
def atGrantReq (region : Nat) (chk : ChkFlit) (h : CtlHdr) (s : State) : Res :=
  let r := region % 16
  let (s, ok) := s.judge h 3 [3 + region % 256 * 2 ^ 8] chk
  if !ok || h.dnode ≠ s.stewardNode then .next s else .next (s.grant r (s.rd (RGN_PWR_BUD.BUDGET r)))

/-- GrantReq as a packet of the control network (R156, R189). -/
def execGrantReq (h : CtlHdr) (region : Nat) (chk : ChkFlit) (s : State) : Res := atCtl h noWait (atGrantReq region chk) s

/-- FLOOR at a region's manager (R187, R509): it goes into PFLOOR of every cluster of the region. -/
def atFloor (region floor : Nat) (chk : ChkFlit) (h : CtlHdr) (s : State) : Res :=
  let r := region % 16
  let (s, ok) := s.judge h 4 [4 + region % 256 * 2 ^ 8 + floor % 8 * 2 ^ 16] chk
  if !ok || h.dnode ≠ s.managerDie r then .next s
  else .next (({ s with therm := { s.therm with floor := Tab.set 0 s.therm.floor r (min 5 (floor % 8)) } }).setPfloors r)

/-- Floor as a packet of the control network (R156, R189). -/
def execFloor (h : CtlHdr) (region floor : Nat) (chk : ChkFlit) (s : State) : Res := atCtl h noWait (atFloor region floor chk) s

/-- No GRANT for 3 ms: the region keeps its last budget (R484). -/
def execGrantTimeout (r : Nat) (s : State) : Res :=
  let _ := r
  .next s

/-- SET_BUDGET (R339, R343, R482, R499): in force from the next exchange; RESULT0 is the value applied. -/
def execSetBudget (k : Nat) (s : State) : Res :=
  .next (s.runDesc k 0x41 (fun d s => some ((s.wr PWR_BUDGET.HOST_W (min 16000 (d.f 64 32))).finishDesc k 0 0 (min 16000 (d.f 64 32)) 0)))

/-! ### Loops and limits -/

/-- A step of a region's loop (R485): the clusters that draw the most come first in `order`; with every cluster at level 5, the issue rate is halved.
Below the budget the halving ends; after ten loops below 95 % the last step is undone. -/
def execRegionPowerLoop (r input : Nat) (order : List (Nat × Nat)) (s : State) : Res :=
  if 16 ≤ r || 2 ≤ s.rgnState r then .next s
  else
    let b := s.rd (RGN_PWR_BUD.BUDGET r)
    let steps := Tab.get [] s.power.loop r
    let put := fun (l : List LoopStep) (calm : Nat) (s : State) =>
      ({ s with power := { s.power with loop := Tab.set [] s.power.loop r l, calm := Tab.set 0 s.power.calm r calm } }).setPfloors r
    if b < input then
      let can := order.filter (fun e => isDie e.1 && decide (regionOf e.1 = r) && decide (e.2 < 16) && !s.dieHole e.1 && decide (s.rd (CD_CLK_CL.PFLOOR e.1 e.2) < 5))
      match can with
      | e :: _ => .next (put (.raise e.1 e.2 :: steps) 0 s)
      | [] =>
        let low := (List.range 9).any (fun i => !s.dieHole (regionDie r i) && (List.range 16).any (fun cl => decide (s.rd (CD_CLK_CL.PFLOOR (regionDie r i) cl) < 5)))
        if low || steps.contains LoopStep.halve then .next (put steps 0 s) else .next (put (.halve :: steps) 0 s)
    else
      let steps := if input < b then steps.filter (fun x => decide (x ≠ LoopStep.halve)) else steps
      if 100 * input < 95 * b then
        let calm := Tab.get 0 s.power.calm r + 1
        if 10 ≤ calm then .next (put (steps.drop 1) 10 s) else .next (put steps calm s)
      else .next (put steps 0 s)

/-- The clusters of a region, or of a die, are run again at the level they must have. -/
def State.relevelScope (s : State) (rgn : Bool) (n : Nat) : State :=
  if rgn then forN 9 (fun i s => s.relevelDie (regionDie n i)) s else s.relevelDie n

/-- A region's cartridge, or a die's regulator, forces every cluster to level 5 for 1 ms (R486). -/
def execHardLimitTrip (rgn : Bool) (n : Nat) (s : State) : Res :=
  if (rgn && decide (16 ≤ n)) || (!rgn && !isDie n) then .next s
  else
    let add := fun (l : List Nat) => if l.contains n then l else l ++ [n]
    let s := if rgn then { s with power := { s.power with forced := add s.power.forced } } else { s with power := { s.power with forcedDie := add s.power.forcedDie } }
    .next (s.relevelScope rgn n)

/-- The 1 ms of R486 ends. -/
def execHardLimitForceEnd (rgn : Bool) (n : Nat) (s : State) : Res :=
  if (rgn && decide (16 ≤ n)) || (!rgn && !isDie n) then .next s
  else
    let del := fun (l : List Nat) => l.filter (fun x => decide (x ≠ n))
    let s := if rgn then { s with power := { s.power with forced := del s.power.forced } } else { s with power := { s.power with forcedDie := del s.power.forcedDie } }
    .next (s.relevelScope rgn n)

/-- An excursion has lasted 4 ms (R483): hard limits equal budgets. -/
def execExcursionLimit (s : State) : Res :=
  if s.bit GLB_STW_STAT.LOST_BOTH then .next s
  else
    let s := { s with power := { s.power with tight := true } }
    .next (forL s.onRegions (fun r s => s.grant r (s.rd (RGN_PWR_BUD.BUDGET r))) s)

/-- The input has stayed at or below 16 kW for as long as the excursion lasted (R483). -/
def execExcursionRecovered (s : State) : Res :=
  if s.bit GLB_STW_STAT.LOST_BOTH then .next s
  else
    let s := { s with power := { s.power with tight := false } }
    .next (forL s.onRegions (fun r s => s.grant r (s.rd (RGN_PWR_BUD.BUDGET r))) s)

/-! ### Phases -/

/-- A regulator phase is shed (R476). -/
def execPhaseImbalance (d phase : Nat) (s : State) : Res :=
  if !isDie d || 16 ≤ phase || s.dieAbsent d then .next s
  else
    let r := regionOf d
    let i := d / 12 % 3 * 3 + d % 12 % 3
    if bitOf (s.rd (RGN_DIE_PWR.SHED r i)) phase then .next s
    else
      let s := (s.wrBit (RGN_DIE_PWR.SHED r i) phase true).wr (RGN_DIE_PWR.LIMIT r i) (s.rd (RGN_DIE_PWR.LIMIT r i) - 5)
      let n := popc (s.rd (RGN_DIE_PWR.SHED r i)) 16
      let s := s.postRegion r 0x0101 1 (leBytes 1 d ++ leBytes 1 phase ++ leBytes 1 (16 - n) ++ leBytes 1 (s.rd (RGN_DIE_PWR.LIMIT r i)))
      let s := s.logWrite 0x0D d (leBytes 1 phase)
      .next (if 4 < n then s.dieFault d 0x13 else s)

/-- A cartridge phase fails (R477). -/
def execCtPhaseFail (n phase : Nat) (s : State) : Res :=
  if 20 ≤ n || ctPhases n ≤ phase || s.rd (PWR_CT_STAT.STATE n) = 0 || ctPhases n ≤ Tab.get 0 s.power.ctPhase n then .next s
  else
    let gone := Tab.get 0 s.power.ctPhase n + 1
    let s := ({ s with power := { s.power with ctPhase := Tab.set 0 s.power.ctPhase n gone } }).wr (PWR_CT_STAT.SPARE_USED n) 1
    let body := leBytes 1 n ++ leBytes 1 phase ++ leBytes 1 (ctPhases n - gone)
    let s := if n < 16 then s.postRegion n 0x0102 1 body else s.postPanel 0x0102 31 1 body
    .next (s.logWrite 0x0D (0x0300 + n) (leBytes 1 phase))

/-! ### Antes -/

/-- The worst-case power of a region at its cartridge's input (R487): 9 × the die power limit ÷ 0.92 ÷ 0.96, rounded up. -/
def State.worstCase (s : State) (r : Nat) : Nat :=
  ceilDiv ((List.range 9).foldl (fun n i => n + s.rd (RGN_DIE_PWR.LIMIT r i)) 0 * 10000) 8832

/-- The regions that share an edge with region `r` (R11). -/
def rgnNeighbours (r : Nat) : List Nat :=
  (if r % 4 = 0 then [] else [r - 1]) ++ (if r % 4 = 3 then [] else [r + 1]) ++ (if r < 4 then [] else [r - 4]) ++ (if 12 ≤ r then [] else [r + 4])

/-- Does neighbour `n` draw more than NBR_PCT of its regional budget (R489)? -/
def State.nbrOver (s : State) (m : PwrMeas) (n : Nat) : Bool :=
  let resv := Tab.get 0 s.power.resv n
  if 4 ≤ s.rgnState n ∧ resv = 0 then false
  else decide (s.rd PWR_ANTE_CFG.NBR_PCT * (if 0 < resv then resv else s.rd (RGN_PWR_BUD.BUDGET n)) < 100 * m.ins.getD n 0)

/-- The first condition of R489 that an ante fails, as R498 codes it. -/
def State.anteCause (s : State) (m : PwrMeas) (r : Nat) : Option Nat :=
  let pair := s.rd (PWR_CT_STAT.PAIR r)
  if bitOf (s.rd PWR_ANTE_STAT.RAMP) pair || decide (s.ptime < Tab.get 0 s.power.pairHold pair) then some 4
  else if (rgnNeighbours r).any (s.nbrOver m) then some 0
  else if s.rd PWR_ANTE_CFG.IN_PCT * s.rd PWR_BUDGET.EFF_W * 10 < m.curr * m.volt then some 1
  else if s.rd PWR_BUDGET.EFF_W < m.power + s.worstCase r then some 2
  else if s.clamped then some 3
  else none

/-- The reservation and the ramp of a granted ante (R488, R490). -/
def State.grantAnte (s : State) (a : Ante) : State :=
  let r := a.region
  let w := (s.ptime - a.since) / 1000
  let s := { s with power := { s.power with
    antes := s.power.antes.filter (fun x => decide (x.region ≠ r))
    resv := Tab.set 0 s.power.resv r (s.worstCase r)
    ramp := Tab.set 0 s.power.ramp r (a.why + 1) } }
  let s := (s.setCt r 2).wrBit PWR_ANTE_STAT.PEND r false
  let s := s.wrBit PWR_ANTE_STAT.RAMP (s.rd (PWR_CT_STAT.PAIR r)) true
  if 1000 < w then s.postRegion r 0x0104 1 (leBytes 1 r ++ leBytes 1 0 ++ leBytes 1 (a.cause - 1) ++ leBytes 1 0 ++ leBytes 4 w) else s

/-- The steward evaluates every pending ante, in order of request (R489). -/
def execAnteEvaluation (m : PwrMeas) (s : State) : Res :=
  let s := s.measure m
  if s.bit GLB_STW_STAT.LOST_BOTH then .next s
  else .next (forL s.power.antes (fun a s => match s.anteCause m a.region with
    | none => s.grantAnte a
    | some c => { s with power := { s.power with antes := updFirst (fun x => decide (x.region = a.region)) (fun x => { x with cause := c + 1 }) s.power.antes } }) s)

/-- The blades of a pair, A to D as 0 to 3 (R471). -/
def pairBlades (c : Nat) : Nat × Nat :=
  match c with
  | 0 => (0, 1)
  | 1 => (2, 3)
  | 2 => (0, 2)
  | 3 => (1, 3)
  | 4 => (0, 3)
  | _ => (1, 2)

/-- Has a cartridge lost both its blades (R473)? -/
def State.unfed (s : State) (n : Nat) : Bool :=
  let p := pairBlades (s.rd (PWR_CT_STAT.PAIR n))
  !s.bit (PWR_BLADE.OK p.1) && !s.bit (PWR_BLADE.OK p.2)

/-- May a region's cartridge take an ante: 48 V, no open fuse, no trip lock, no swap before its seating (R473, R478, R480, R488, R512)? -/
def State.anteOk (s : State) (r : Nat) : Bool :=
  let st := s.rd (PWR_CT_STAT.STATE r)
  !s.unfed r && !(s.bit (THM_RGN.TRIP_LOCK r)) && (decide (st = 1) || decide (st = 4 ∧ s.bit (THM_RGN.TRIPPED r)))

/-- A cartridge controller requests an ante (R488, R493). -/
def execAnteRequest (r why : Nat) (s : State) : Res :=
  if 16 ≤ r || !s.anteOk r then .next s else .next (s.wantAnte r (why % 5))

/-- A SET_TOLERANCE that waits for regions of its partition to leave C6 completes once none is pending (R339). -/
def State.tolDone (s : State) (p : Nat) : State :=
  let waits := (List.range 16).any (fun r => bitOf (s.rd (HID_PART.REGIONS p)) r && (s.power.antes.any (fun a => decide (a.region = r)) || decide (Tab.get 0 s.power.ramp r ≠ 0)))
  if waits then s
  else
    let ds := s.host.descs.filter (fun d => decide (d.st = DescSt.running) && decide (d.op = 0x40) && decide (d.tag = p))
    if ds.isEmpty then s
    else
      let st := if (s.part p).refused then 9 else 0
      (forL ds (fun d s => s.finishDesc d.key st 0 0 0) s).updPart p (fun x => { x with refused := false })

/-- An ante that is not granted within TMO is refused (R489, R339); a CLAMP suspends the time (R499). -/
def execAnteTimeout (r : Nat) (s : State) : Res :=
  match s.power.antes.find? (fun a => decide (a.region = r)) with
  | none => .next s
  | some a =>
    if s.clamped || s.bit GLB_STW_STAT.LOST_BOTH then .next s
    else
      let s := { s with power := { s.power with antes := s.power.antes.filter (fun x => decide (x.region ≠ r)) } }
      let s := s.wrBit PWR_ANTE_STAT.PEND r false
      let s := s.postRegion r 0x0104 1 (leBytes 1 r ++ leBytes 1 1 ++ leBytes 1 (a.cause - 1) ++ leBytes 1 0 ++ leBytes 4 ((s.ptime - a.since) / 1000))
      .next (forN 16 (fun p s =>
        let wants := match (s.part p).run with
          | some l => decide (l.step = 2) && (s.placedRegions p).contains r
          | none => false
        let s := if wants then s.endLayer p 9 else s
        if bitOf (s.rd (HID_PART.REGIONS p)) r then (s.updPart p (fun x => { x with refused := true })).tolDone p else s) s)

/-- A die starts: PLLs on reference A if that is good, else on B; panel time is unknown until SET, and its links
await training (R464, R422). -/
def State.startDie (s : State) (d : Nat) : State :=
  if s.dieHole d && !bitOf (s.rd GLB_HOLE_RGN.HOLE) (regionOf d) then s
  else
    let n := s.stewardNode
    let a := s.refOk n false
    let s := (s.setRef d false a).setRef d true (s.refOk n true)
    let s := (s.selRef d (!a)).wr (CD_CLK_STAT.PLL_LOCK d) 1
    let ks := ((List.range 9).filter (fun w => (wayNode d w).isSome && !inRange w 4 4)).map (fun w => 9 * d + w)
    let s := { s with links := { s.links with due := s.links.due.filter (fun k => !ks.contains k) ++ ks } }
    { s with clk := { s.clk with untimed := Tab.set 0 s.clk.untimed d 1, good := Tab.set 0 s.clk.good d 0, ofs := Tab.set 0 s.clk.ofs d 0, req := Tab.set none s.clk.req d none } }

/-- The lowest index among a region's dies in service manages it (R566). -/
def State.electManager (s : State) (r : Nat) : State :=
  match (List.range 9).find? (fun i => !bitOf (s.rd (GLB_HOLE_DIE.HOLE (regionDie r i / 32))) (regionDie r i % 32)) with
  | some i => s.wr (RGN_PWR_STAT.MANAGER r) i
  | none => s

/-- A region's 12 V bus is in regulation (R490, R487, R464, R499): the slot frees, the dies start and wait for panel time; the reservation is the budget, and the
region's floors hold (R509, R510). In a CLAMP the region holds at its level. -/
def execRampComplete (r : Nat) (s : State) : Res :=
  if 16 ≤ r || Tab.get 0 s.power.ramp r = 0 then .next s
  else
    let why := Tab.get 0 s.power.ramp r - 1
    let s := { s with power := { s.power with ramp := Tab.set 0 s.power.ramp r 0, swap := if why = 2 then Tab.set 0 s.power.swap r 3 else s.power.swap } }
    let s := (s.setCt r 3).wrBit PWR_ANTE_STAT.RAMP (s.rd (PWR_CT_STAT.PAIR r)) false
    let b := Tab.get 0 s.power.resv r
    let s := ((s.wr (RGN_PWR_BUD.BUDGET r) b).wr (RGN_PWR_HARD.HARD r) (s.hardOf b)).wr (RGN_PWR_BUD.DEMAND r) (s.worstCase r)
    let s := ((s.wr (RGN_PWR_STAT.STATE r) 0).wr (RGN_PWR_STAT.CLAMPED r) (b2n (decide (s.net.clamp ≠ 0)))).electManager r
    let s := forN 9 (fun i s => s.startDie (regionDie r i)) s
    let s := ({ s with therm := { s.therm with floor := Tab.set 0 s.therm.floor r (s.rd (THM_RGN.FLOOR r)) } }).setPfloors r
    let s := if bitOf (s.rd GLB_HOLE_RGN.HOLE) r then s else forN 9 (fun i s => s.rewriteDie (regionDie r i)) s
    .next (forN 16 (fun p s => (s.powerLayer p).tolDone p) s.countUnlocked)

/-- 10 ms after regulation the worst-case period ends (R487). -/
def execAntePeriodEnd (r : Nat) (s : State) : Res :=
  if 16 ≤ r || Tab.get 0 s.power.ramp r ≠ 0 then .next s
  else .next { s with power := { s.power with resv := Tab.set 0 s.power.resv r 0 } }

/-! ### Power states -/

/-- The deepest state that a region's partition permits (R492): C1; C3 from 20 µs of tolerance; C6 from 3 ms and C6_RELOAD. -/
def State.deepest (s : State) (r : Nat) : Nat :=
  match s.partOfRegion r with
  | some p =>
    let tol := s.rd (HID_PART_TOL.TOL p)
    if 3000000 + s.rd PWR_STATE_CFG.C6_RELOAD * 1000 ≤ tol then 4 else if 20000 ≤ tol then 3 else 2
  | none => s.rd PWR_STATE_CFG.FREE_STATE

/-- Is a region idle (R491)? -/
def State.rgnIdle (s : State) (r : Nat) : Bool :=
  let inR := fun (c : Nat) => decide (c < 36864) && decide (regionOf (coreDie c) = r)
  !(List.range 16).any (fun p => (s.part p).run.isSome && (s.placedCores p).any inR) &&
  !s.cores.any (fun e => inR e.1 && (!e.2.streams.isEmpty || !e.2.msgs.isEmpty)) &&
  !s.power.antes.any (fun a => decide (a.region = r)) && decide (Tab.get 0 s.power.ramp r = 0) && decide (Tab.get 0 s.power.swap r = 0)

/-- What an entry into C1, C3 or C6 does (R88, R141, R453, R463, R491, R155): C3 keeps the scratchpads; C6 loses everything, and the state of a partition
with placed cores there is stale. -/
def State.enterState (s : State) (r target : Nat) : State :=
  let s := if s.clk.gated.contains r then s else { s with clk := { s.clk with gated := s.clk.gated ++ [r] } }
  if target = 4 then
    let s := forN 16 (fun p s => if (s.placedRegions p).contains r then s.wr (GLB_DLR_PART3.STALE p) 1 else s) s
    let s := (s.resetRegion r).wr (RGN_PWR_STAT.STATE r) 4
    ((s.setCt r 1).wr (RGN_PWR_BUD.BUDGET r) 0).countUnlocked
  else
    let s := if target = 3 then forN 9 (fun i s => (forN 256 (fun n s => s.updCore (regionDie r i * 256 + n) Core.sleep) s).newAnchors (regionDie r i)) s else s
    s.wr (RGN_PWR_STAT.STATE r) target

/-- An idle region enters a state that its tolerance permits (R492), after the idle time. Before C6 the steward adopts tables around it (R172): the command
begins that change, and enters C6 once they are active. While both stewards are lost it goes no deeper than C3 (R499). -/
def execIdleStateEntry (r target : Nat) (tabs : List (Nat × List Byte)) (s : State) : Res :=
  if 16 ≤ r || target ≤ 1 || 5 ≤ target || target ≤ s.rgnState r || s.deepest r < target || !s.rgnIdle r || s.power.waking.contains r then .next s
  else if target = 4 then
    if s.bit GLB_STW_STAT.LOST_BOTH || s.layerGoing || s.net.chg.isSome then .next s
    else if s.routesAround r then .next ((s.enterState r 4).skipChunk)
    else .next (s.changeTables (fun d => decide (regionOf d = r)) tabs)
  else .next (s.enterState r target)

/-- REGION_WAKE (R493): a wake request of the dealer, or the first packet for one of the region's cores. -/
def execRegionWake (r : Nat) (s : State) : Res := .next (if r < 16 then s.wakeRegion r 0 else s)

/-- SET_TOLERANCE (R339, R492): idle regions that are deeper than it permits are woken to the permitted state; one in C6 takes an ante first. -/
def execSetTolerance (k : Nat) (s : State) : Res :=
  .next (s.runDesc k 0x40 (fun d s =>
    let p := d.tag
    let s := (s.wr (HID_PART_TOL.TOL p) (d.f 64 32)).updPart p (fun x => { x with refused := false })
    let s := forN 16 (fun r s =>
      if !bitOf (s.rd (HID_PART.REGIONS p)) r then s
      else
        let deep := s.deepest r
        if s.rgnState r = 4 then (if deep < 4 ∧ s.anteOk r then s.wantAnte r 1 else s)
        else if s.rgnState r = 3 ∧ deep < 3 then s.wr (RGN_PWR_STAT.STATE r) 2
        else s) s
    some (s.tolDone p)))

/-! ### Input voltage -/

/-- The input leaves 44 V to 58 V for 100 µs (R494): in units of 10 mV. -/
def execInputVOutOfRange (volt : Nat) (s : State) : Res :=
  if 4400 ≤ volt ∧ volt ≤ 5800 then .next s
  else .next ((s.wr PWR_IN.VOLT volt).postPanel 0x0107 31 2 (leBytes 1 (b2n (decide (5800 < volt))) ++ leBytes 1 0 ++ leBytes 2 volt))

/-- Below 42 V for 1 ms: CLAMP level 2 (R494). -/
def execInputVLowClamp (volt : Nat) (s : State) : Res :=
  if 4200 ≤ volt || s.bit GLB_STW_STAT.LOST_BOTH then .next s else .next ((s.wr PWR_IN.VOLT volt).addHold 0)

/-- Back within 44 V to 58 V for 100 ms (R494): INPUT_V, and the clamp is released. -/
def execInputVRestored (volt : Nat) (s : State) : Res :=
  if volt < 4400 ∨ 5800 < volt then .next s
  else
    let s := (s.wr PWR_IN.VOLT volt).postPanel 0x0107 31 2 (leBytes 1 2 ++ leBytes 1 0 ++ leBytes 2 volt)
    .next (s.dropHolds (fun x => decide (x = 0)))

end Sys2Proof.Machine
end

