-- ==== Sys2Proof/Machine/Cooling.lean ====
section
/-! DEFINITION. Cooling (R500 to R524): the coolant's flow, junction sensors, throttling, trips. The limits of the perimeter units are in
Machine/Perimeter.lean. -/

namespace Sys2Proof.Machine

/-! ### Coolant -/

/-- The inlet temperature, 40 °C where its reading is missing (R503); in 0.01 °C. -/
def State.inletT (s : State) : Int := if s.bit THM_COOLANT.VIN then sgn 16 (s.rd THM_COOLANT.INLET) else 4000

/-- The flow limit of R514, in W: flow in 0.01 L/min. -/
def State.limitFor (s : State) (flow : Nat) : Nat :=
  if 2000 ≤ flow then 16000
  else min 16000 ((6695 * (flow : Int) * (((s.rd THM_FLOW_CFG.OUT_MAX * 100 : Nat) : Int) - s.inletT)) / 1000000).toNat

/-- FLOW_LOW (R523). -/
def State.flowLow (s : State) (st : Nat) : State :=
  s.postPanel 0x0205 31 1 (leBytes 1 st ++ leBytes 1 0 ++ leBytes 2 (s.rd THM_COOLANT.FLOW) ++ leBytes 2 (s.rd THM_STAT.FLOW_W / 10))

/-- FLOW_STATE outside a stop (R514). -/
def State.flowNormal (s : State) : State :=
  let low := s.bit THM_COOLANT.VFLOW && decide (s.rd THM_COOLANT.FLOW < 2000)
  let was := s.rd THM_STAT.FLOW_STATE
  let s := s.wr THM_STAT.FLOW_STATE (b2n low)
  if low ∧ was ≠ 1 then s.flowLow 1 else s

/-- The abrupt condition (R517, R524): CLAMP level 1; a managed stop is taken over. -/
def State.abrupt (s : State) : State :=
  if s.rd THM_STAT.FLOW_STATE = 3 || s.bit GLB_STW_STAT.LOST_BOTH then s
  else ((s.wr THM_STAT.FLOW_STATE 3).setHolds (s.power.holds.filter (fun x => decide (x ≠ 1)) ++ [2]))

/-- The steward's reading of the tray's sensors every 10 ms (R501, R503, R514, R517): a reading outside its range, or of a faulty sensor, is discarded.
`rising` says that the outlet temperature, fitted over the last 1 s, rises faster than 2 °C/s. -/
def execCoolantPoll (inlet outlet : Int) (flow : Nat) (fault rising : Bool) (s : State) : Res :=
  if s.bit GLB_STW_STAT.LOST_BOTH || s.boot.tray then .next s
  else
    let vi := !fault && decide (0 ≤ inlet) && decide (inlet ≤ 8000)
    let vo := !fault && decide (0 ≤ outlet) && decide (outlet ≤ 10000)
    let vf := !fault && decide (flow ≤ 6000)
    let s := if vi then s.wr THM_COOLANT.INLET (unsgn 16 inlet) else s
    let s := if vo then s.wr THM_COOLANT.OUTLET (unsgn 16 outlet) else s
    let s := if vf then s.wr THM_COOLANT.FLOW flow else s
    let s := ((s.wr THM_COOLANT.VIN (b2n vi)).wr THM_COOLANT.VOUT (b2n vo)).wr THM_COOLANT.VFLOW (b2n vf)
    if !vf then .next s
    else
      let s := (s.wr THM_STAT.NOFLOWDATA 0).wr THM_STAT.FLOW_W (s.limitFor flow)
      let s := if s.rd THM_STAT.FLOW_STATE < 2 then s.flowNormal else s
      .next (if flow < 240 && vo && rising then s.abrupt else s)

/-- No valid flow reading for 1 s (R503). -/
def execCoolantDataTimeout (s : State) : Res :=
  if s.bit THM_COOLANT.VFLOW || s.bit THM_STAT.NOFLOWDATA || s.bit GLB_STW_STAT.LOST_BOTH then .next s
  else
    let miss := b2n (!s.bit THM_COOLANT.VIN) + 2 * b2n (!s.bit THM_COOLANT.VOUT) + 4
    .next (((s.wr THM_STAT.NOFLOWDATA 1)).postPanel 0x0206 31 2 (leBytes 1 miss))

/-- FLOW_FAULT_N is low behind the filter (R502, R517). -/
def execFlowFaultAssert (s : State) : Res :=
  .next (({ s with therm := { s.therm with faultN := true } }).wr THM_COOLANT.FAULT_N_LOW 1).abrupt

/-- FLOW_FAULT_N is high again (R502). -/
def execFlowFaultDeasserted (s : State) : Res :=
  .next (({ s with therm := { s.therm with faultN := false } }).wr THM_COOLANT.FAULT_N_LOW 0)

/-- Every running layer ends with POWER_LIMIT (R515, R517). -/
def State.endLayers (s : State) : State := forN 16 (fun p s => if (s.part p).run.isSome then s.endLayer p 9 else s) s

/-- The flow has read below 12 L/min for 5 s: a managed stop begins (R515). -/
def execManagedStop (s : State) : Res :=
  if s.bit THM_COOLANT.VFLOW && decide (s.rd THM_COOLANT.FLOW < 1200) && decide (s.rd THM_STAT.FLOW_STATE < 2) && !s.bit GLB_STW_STAT.LOST_BOTH
  then .next ((s.wr THM_STAT.FLOW_STATE 2).flowLow 2) else .next s

/-- A layer has not committed STOP_S after the stop began (R515). -/
def execManagedStopLayerLimit (s : State) : Res := if s.rd THM_STAT.FLOW_STATE = 2 && !s.bit GLB_STW_STAT.LOST_BOTH then .next s.endLayers else .next s

/-- No layer runs: CLAMP level 2 (R515). -/
def execManagedStopClamp (s : State) : Res :=
  if s.rd THM_STAT.FLOW_STATE = 2 && !s.anyLayer && !s.bit GLB_STW_STAT.LOST_BOTH then .next (s.addHold 1) else .next s

/-- Has the flow returned: a valid reading of at least 16 L/min (R516, R518)? -/
def State.flowBack (s : State) : Bool := s.bit THM_COOLANT.VFLOW && decide (1600 ≤ s.rd THM_COOLANT.FLOW)

/-- The flow has read at least 16 L/min for 10 s: the managed stop ends (R516). -/
def execManagedStopEnd (s : State) : Res :=
  if s.rd THM_STAT.FLOW_STATE = 2 && s.flowBack && !s.bit GLB_STW_STAT.LOST_BOTH then
    .next (((s.wr THM_STAT.FLOW_STATE 0).flowNormal).dropHolds (fun x => decide (x = 1)))
  else .next s

/-- FLOW_FAULT (R523). -/
def State.flowFault (s : State) (k : Nat) : State :=
  s.postPanel 0x0208 31 2 (leBytes 1 k ++ leBytes 1 0 ++ leBytes 2 (s.rd THM_COOLANT.FLOW))

/-- Steps 4 and 5 of the abrupt stop (R517). -/
def execAbruptClampLevel2 (s : State) : Res :=
  if s.rd THM_STAT.FLOW_STATE = 3 && s.power.holds.contains 2 && !s.bit GLB_STW_STAT.LOST_BOTH then
    .next ((s.setHolds (s.power.holds.filter (fun x => decide (x ≠ 2)) ++ [4])).flowFault (b2n (!s.therm.faultN)))
  else .next s

/-- Step 6 of the abrupt stop (R517): after 30 s without flow every running layer is ended. -/
def execAbruptLayerEnd (s : State) : Res :=
  if s.rd THM_STAT.FLOW_STATE = 3 && !s.bit GLB_STW_STAT.LOST_BOTH then .next s.endLayers else .next s

/-- The abrupt stop ends (R518). -/
def execAbruptStopEnd (s : State) : Res :=
  if s.rd THM_STAT.FLOW_STATE = 3 && !s.therm.faultN && s.flowBack && !s.bit GLB_STW_STAT.LOST_BOTH then
    let s := ((s.wr THM_STAT.FLOW_STATE 0).flowNormal).dropHolds (fun x => decide (x = 2) || decide (x = 4))
    .next (s.flowFault 2)
  else .next s

/-! ### Junction sensors -/

/-- The temperature of a region (R507): the highest governing temperature among the clusters of its dies in service that have one. -/
def State.tjOf (s : State) (r : Nat) : Int :=
  (List.range 9).foldl (fun (m : Int) i =>
    let d := regionDie r i
    if s.dieHole d then m
    else (List.range 16).foldl (fun (m : Int) cl =>
      if s.bit (CD_THM_CL.DIODE_OK d cl) || s.bit (CD_THM_CL.RING_OK d cl) then max m (sgn 16 (s.rd (CD_THM_CL.GOV d cl))) else m) m) 0

/-- THM_HOLD and the state HELD of a region (R510). -/
def State.holdRegion (s : State) (r : Nat) (on : Bool) : State :=
  ((s.wr (THM_RGN.HELD r) (b2n on)).setPfloors r).postRegion r 0x0203 1 (leBytes 1 r ++ leBytes 1 (b2n on) ++ leBytes 2 0 ++ leBytes 2 (s.rd (THM_RGN.TJ r)))

/-- A sample of a cluster's two sensors, in 0.01 °C (R504 to R507, R510, R511). The events on a bad sensor are posted as its state changes; they name a die and
no region, so that they go to the PFs (R523). -/
def execJunctionSample (d cl : Nat) (diode ring : Int) (s : State) : Res :=
  if !isDie d || 16 ≤ cl || s.dieAbsent d then .next s
  else
    let r := regionOf d
    let k := 16 * d + cl
    let ok := fun (t : Int) => decide (s.inletT ≤ t) && decide (t ≤ 15000)
    let dk := ok diode
    let rk := ok ring
    let gov := if dk && rk then max diode ring else if dk then diode else if rk then ring else 0
    let s := ((s.wr (CD_THM_CL.DIODE d cl) (unsgn 16 diode)).wr (CD_THM_CL.RING d cl) (unsgn 16 ring)).wr (CD_THM_CL.GOV d cl) (unsgn 16 gov)
    let s := (s.wr (CD_THM_CL.DIODE_OK d cl) (b2n dk)).wr (CD_THM_CL.RING_OK d cl) (b2n rk)
    let s := { s with therm := { s.therm with hot := Tab.upd 0 s.therm.hot k (fun n => if 11500 ≤ diode then n + 1 else 0) } }
    let s := if dk && rk && decide (500 < max diode ring - min diode ring) then
        let s := s.sat (CD_THM_DISAG.COUNT d) 1
        let last := Tab.get 0 s.therm.disagree k
        if last ≠ 0 ∧ s.ptime < last - 1 + 3600000000000 then s
        else ({ s with therm := { s.therm with disagree := Tab.set 0 s.therm.disagree k (s.ptime + 1) } }).postPanel 0x0200 31 0
          (leBytes 2 d ++ leBytes 1 cl ++ leBytes 1 0 ++ leBytes 2 (unsgn 16 diode) ++ leBytes 2 (unsgn 16 ring))
      else s
    let bad := b2n (!dk) + 2 * b2n (!rk)
    let s := if bad ≠ Tab.get 0 s.therm.bad k then
        let t := { s with therm := { s.therm with bad := Tab.set 0 s.therm.bad k bad } }
        if bad = 0 then t else t.postPanel 0x0201 31 1 (leBytes 2 d ++ leBytes 1 cl ++ leBytes 1 bad)
      else s
    let s := if !dk && !rk && !s.bit (CD_THM_CL.HELD d cl) then ((s.wr (CD_THM_CL.HELD d cl) 1).setPfloor d cl).showP r else s
    let tj := s.tjOf r
    let s := s.wr (THM_RGN.TJ r) (unsgn 16 tj)
    .next (if ((s.rd THM_CFG.HOLD * 100 : Nat) : Int) ≤ tj && !s.bit (THM_RGN.HELD r) then s.holdRegion r true else s)

/-- At least one sensor of a held cluster has read plausibly for 10 s (R506). -/
def execClusterHoldRelease (d cl : Nat) (s : State) : Res :=
  if !isDie d || 16 ≤ cl || s.dieAbsent d then .next s
  else if s.bit (CD_THM_CL.HELD d cl) && (s.bit (CD_THM_CL.DIODE_OK d cl) || s.bit (CD_THM_CL.RING_OK d cl)) then
    .next (((s.wr (CD_THM_CL.HELD d cl) 0).setPfloor d cl).showP (regionOf d))
  else .next s

/-- A held region's Tj has stayed below HOLD − 5 °C for 100 ms (R510). -/
def execHoldRelease (r : Nat) (s : State) : Res :=
  if 16 ≤ r then .next s
  else if s.bit (THM_RGN.HELD r) && decide (sgn 16 (s.rd (THM_RGN.TJ r)) < ((s.rd THM_CFG.HOLD * 100 : Nat) : Int) - 500) then .next (s.holdRegion r false)
  else .next s

/-! ### Throttling and the trip -/

/-- A region's thermal floor becomes `f`: the manager is told, and THM_THROTTLE marks its leaving 0 and its return (R509). -/
def State.setFloor (s : State) (r f : Nat) : State :=
  let old := s.rd (THM_RGN.FLOOR r)
  let s := (s.wr (THM_RGN.FLOOR r) f).toManager r 4 [4 + r * 2 ^ 8 + f * 2 ^ 16]
  if (old = 0) ≠ (f = 0) then s.postRegion r 0x0202 1 (leBytes 1 r ++ leBytes 1 f ++ leBytes 2 0 ++ leBytes 2 (s.rd (THM_RGN.TJ r))) else s

/-- The steward's rank of every 1 ms (R509): the hottest region at or above THR with a floor below 5 is raised by one level; a region below THR − 3 °C
for 10 ms, and for each further 10 ms, is lowered by one. -/
def execThermalRank (s : State) : Res :=
  if s.bit GLB_STW_STAT.LOST_BOTH then .next s
  else
    let thr : Int := ((s.rd THM_CFG.THR * 100 : Nat) : Int)
    let tj := fun (r : Nat) => sgn 16 (s.rd (THM_RGN.TJ r))
    let hot := s.onRegions.filter (fun r => decide (thr ≤ tj r) && decide (s.rd (THM_RGN.FLOOR r) < 5))
    let best := hot.foldl (fun (o : Option Nat) r => match o with
      | none => some r
      | some b => if tj b < tj r then some r else some b) none
    let s := match best with
      | some r => s.setFloor r (s.rd (THM_RGN.FLOOR r) + 1)
      | none => s
    .next (forN 16 (fun r s =>
      let n := if tj r < thr - 300 then Tab.get 0 s.therm.cool r + 1 else 0
      let s := { s with therm := { s.therm with cool := Tab.set 0 s.therm.cool r (n % 10) } }
      if n = 10 ∧ 0 < s.rd (THM_RGN.FLOOR r) then s.setFloor r (s.rd (THM_RGN.FLOOR r) - 1) else s) s)

/-- The scopes within a region take its cause and time (R526). -/
def State.noteRegionReset (s : State) (r cause : Nat) (forced : Bool) : State :=
  forN 9 (fun i s => s.noteOne (21 + regionDie r i) cause forced) (s.noteReset (5 + r) cause forced)

/-- Two consecutive samples of a die's diodes at or above 115 °C: the region's cartridge turns its output off (R511, R531, R499); the steward posts THM_TRIP. -/
def execThermalTrip (r d : Nat) (s : State) : Res :=
  if 16 ≤ r || !isDie d || regionOf d ≠ r || 4 ≤ s.rgnState r || !(List.range 16).any (fun cl => decide (2 ≤ Tab.get 0 s.therm.hot (16 * d + cl))) then .next s
  else
    let s := (s.wr (THM_RGN.TRIPPED r) 1).sat (THM_RGN.TRIPS r) 1
    let s := if s.bit GLB_STW_STAT.LOST_BOTH then s else s.postRegion r 0x0204 2 (leBytes 1 r ++ leBytes 1 0 ++ leBytes 2 d)
    let s := forN 16 (fun p s => s.tolDone p) ((s.regionOff r 1).setCt r 4)
    let hot := forN 9 (fun i t => forN 16 (fun cl t => Tab.set 0 t (16 * regionDie r i + cl) 0) t) s.therm.hot
    .next (({ s with therm := { s.therm with hot := hot } }).noteRegionReset r 0x0B true)

/-- 10 s after a trip or a flow guard, with flow and inlet in range (R512, R519, R524): the region takes an ante, or stays locked. -/
def execTripReturn (r : Nat) (s : State) : Res :=
  let cool := s.flowBack && s.bit THM_COOLANT.VIN && decide (sgn 16 (s.rd THM_COOLANT.INLET) ≤ 4000)
  if 16 ≤ r || !cool || s.clamped || s.bit GLB_STW_STAT.LOST_BOTH then .next s
  else if s.therm.guarded.contains r then
    .next (({ s with therm := { s.therm with guarded := s.therm.guarded.filter (fun x => decide (x ≠ r)) } }).wantAnte r 4)
  else if !s.bit (THM_RGN.TRIPPED r) || s.bit (THM_RGN.TRIP_LOCK r) then .next s
  else
    let last := Tab.get 0 s.therm.autoAt r
    if last ≠ 0 ∧ s.ptime < last - 1 + 3600000000000 then
      .next ((s.wr (THM_RGN.TRIP_LOCK r) 1).postRegion r 0x0204 2 (leBytes 1 r ++ leBytes 1 2 ++ leBytes 2 (s.managerDie r)))
    else .next (({ s with therm := { s.therm with autoAt := Tab.set 0 s.therm.autoAt r (s.ptime + 1) } }).wantAnte r 4)

/-- A write of THM_CTL.TRIP_CLR (R512, R521): the locked regions named take an ante. -/
def execTripClrWrite (src : Src) (v : W32) (s : State) : Res :=
  if !pfOrFw src then .next s
  else .next (forN 16 (fun r s => if bitOf v.toNat r && s.bit (THM_RGN.TRIP_LOCK r) then (s.wr (THM_RGN.TRIP_LOCK r) 0).wantAnte r 4 else s) s)

/-- A cartridge controller sees FLOW_FAULT_N for 10 ms with its region neither clamped nor in C1 or deeper: it turns the output off (R519). -/
def execFlowGuard (r : Nat) (s : State) : Res :=
  if 16 ≤ r || !s.therm.faultN || 2 ≤ s.rgnState r || s.bit (RGN_PWR_STAT.CLAMPED r) then .next s
  else
    let s := (forN 16 (fun p s => s.tolDone p) ((s.regionOff r 4).setCt r 1)).noteRegionReset r 0x08 true
    .next { s with therm := { s.therm with guarded := if s.therm.guarded.contains r then s.therm.guarded else s.therm.guarded ++ [r] } }

end Sys2Proof.Machine
end

