-- ==== Sys2Proof/Machine/Seams.lean ====
section
/-! DEFINITION. Die-to-die links (R419 to R429): training, repair, resends, fallback to compat mode. A link is named by a die and a way of it: 0 to 3 E, N, W, S; 4
to 7 the skip paths; 8 the corner link. What follows a limit of resends is in Machine/Perimeter.lean. -/

namespace Sys2Proof.Machine

/-- Lane groups of a link, data wires and spares of a group (R419). -/
def linkShape (d way : Nat) : Nat × Nat × Nat :=
  if way = 8 then (1, 256, 8)
  else if 4 ≤ way then (16, 32, 1)
  else match wayNode d way with
    | some n => if isDie n then (16, 128, 4) else if (stopHub (n - 144)).isSome then (16, 160, 5) else (16, 80, 3)
    | none => (0, 0, 0)

/-- GLB_SKIP of a skip path (R441): 2 × the die beneath it, and 1 more for north and south. -/
def skipIdx (d way : Nat) : Nat := 2 * (skipOver d way).getD 0 + way % 2

/-- The mode of a link at a die (R441): 0 native, 1 compat, 2 down, 3 no link. -/
def State.linkMode (s : State) (d way : Nat) : Nat :=
  if way = 8 then Nat.xor (Tab.get 0 s.links.corner d) 2 else if 4 ≤ way then s.rd (GLB_SKIP.STATE (skipIdx d way)) else s.seam d way

/-- A link's mode is written at both ends (R427, R441). -/
def State.setMode (s : State) (d way v : Nat) : State :=
  if way = 8 then { s with links := { s.links with corner := Tab.set 0 s.links.corner d (Nat.xor v 2) } }
  else if 4 ≤ way then s.wr (GLB_SKIP.STATE (skipIdx d way)) v
  else forL (linkEnds d way) (fun e s => (s.setSeam e.1 e.2 v).wr (CD_LNK_STAT.MODE e.1 e.2) v) s

/-- TRAINING at both ends (R441). -/
def State.setTraining (s : State) (d way : Nat) (b : Bool) : State :=
  if 4 ≤ way then s else forL (linkEnds d way) (fun e s => s.wr (CD_LNK_STAT.TRAINING e.1 e.2) (b2n b)) s

/-- The fewest free spares of a link end's groups (R441). -/
def State.sparesLow (s : State) (d way : Nat) : State :=
  let (n, _, sp) := linkShape d way
  let low := (List.range n).foldl (fun m g => min m (sp - Tab.get 0 s.links.used (grpKey d way g))) sp
  if way < 4 then s.wr (CD_LNK_STAT.SPARES_LOW d way) low else if way < 8 then s.wr (GLB_SKIP.SPARES_LOW (skipIdx d way)) low else s

/-- SEAM_COMPAT and SEAM_DOWN name the link by the lower-numbered die, whose manager reports it (R427, R442). -/
def seamBody (d way : Nat) : List Byte :=
  match farEnd d way with
  | some (n, w) => if n < d then leBytes 1 n ++ leBytes 1 (w % 4) else leBytes 1 d ++ leBytes 1 (way % 4)
  | none => leBytes 1 d ++ leBytes 1 (way % 4)

/-- The FAULT message of a link (R186, R427): KIND 2, from the lower-numbered die. -/
def State.linkFault (s : State) (d way : Nat) : State :=
  match farEnd d way with
  | some (n, w) => if n < d then s.sendFault n 256 0 n 2 (w % 4) else s.sendFault d 256 0 d 2 (way % 4)
  | none => s.sendFault d 256 0 d 2 (way % 4)

/-- A fallback begins (R426, R427): both ends stop and train for compat; one fallback where both ends have a cause (R443). A skip path has no compat mode:
it becomes unusable (R419). -/
def State.fallback (s : State) (d way cause : Nat) : State :=
  if s.linkMode d way ≠ 0 || s.linkBusy d way then s
  else if inRange way 4 4 then s.setMode d way 2
  else ({ s with links := { s.links with falling := Tab.set 0 s.links.falling (endKey d way) (cause + 1) } }).setTraining d way true

/-- The end that holds a link's fallback, and its cause. -/
def State.fallingAt (s : State) (d way : Nat) : Option (Nat × Nat) :=
  ((linkEnds d way).map (fun e => (endKey e.1 e.2, Tab.get 0 s.links.falling (endKey e.1 e.2)))).find? (fun x => decide (x.2 ≠ 0))

/-- A link is down while layers may run (R427): SEAM_DOWN, and every partition with a running layer is stopped to be redone. The tables around it are
TABLE_CHANGE's. -/
def State.linkLost (s : State) (d way : Nat) : State :=
  let s := ((s.setMode d way 2).setTraining d way false).postPanel 0x0501 31 2 (seamBody d way)
  if s.bit GLB_STW_STAT.LOST_BOTH || !s.anyLayer then s
  else (forN 16 (fun p s => if (s.part p).run.isSome then s.faultLayer p false else s) (s.beginRecovery 2)).publish

/-- In compat mode a group's forwarded clock takes one spare, and the wires that failed at 8 Gbit/s carry their data again (R421, R427). -/
def State.compatWires (s : State) (d way : Nat) : State :=
  let (n, _, sp) := linkShape d way
  let ends := linkEnds d way
  let used := forL ends (fun e t => forN n (fun g t => Tab.set 0 t (grpKey e.1 e.2 g) (min sp 1)) t) s.links.used
  let s := { s with links := { s.links with used := used, eyes := s.links.eyes.filter (fun x => !ends.any (fun e => decide (x.1 / 8192 = endKey e.1 e.2))) } }
  forL ends (fun e s => s.sparesLow e.1 e.2) s

/-- Fallback training ends (R427): traffic resumes at the compat rate, or the link is down. -/
def execCompatTrainingComplete (d way : Nat) (ok : Bool) (s : State) : Res :=
  if !isDie d || 9 ≤ way then .next s
  else
    match s.fallingAt d way with
    | none => .next s
    | some (k, c) =>
      let s := { s with links := { s.links with falling := Tab.set 0 s.links.falling k 0 } }
      let s := s.linkFault d way
      if ok then .next ((((s.setMode d way 1).setTraining d way false).compatWires d way).pumpAll.postPanel 0x0500 31 1 (seamBody d way ++ leBytes 1 (c - 1)))
      else .next (s.linkLost d way)

/-- A corrected or resent error on a die's links or in its router buffers (R196, R582). -/
def State.netCe (s : State) (d : Nat) : State := (s.wr (CD_NET_ERR.CE d) 1).hcount (CD_NET_CE.COUNT d) (CD_DIE_HSTAT.NET_CE_SAT d) 1

/-- A flit with a CRC or parity error is resent and counted (R196, R425); `same` says that this flit was resent before. Too many resends in a millisecond, or 8
of one flit, begin a fallback (R426). -/
def execLinkFlitError (d way : Nat) (onDie same : Bool) (s : State) : Res :=
  if !isDie d || 9 ≤ way || s.dieAbsent d then .next s
  else
    let s := s.netCe d
    if onDie then
      .next (s.updNode d (fun x => { x with resends := Tab.upd 0 x.resends 9 (fun n => if same then n + 1 else 1) }))
    else if (wayNode d way).isNone || (s.node d).stopped.contains way then .next s
    else
      let n := if same then Tab.get 0 (s.node d).resends way + 1 else 1
      let s := s.updNode d (fun x => { x with resends := Tab.set 0 x.resends way n })
      let s := if way < 4 then s.lcount d (0xD508 + 16 * way) way (CD_LNK_ERR.RESENDS d way) 1 else s
      let k := endKey d way
      let ms := s.ptime / 1000000 + 1
      let cnt := if Tab.get 0 s.links.winMs k = ms then Tab.get 0 s.links.winCnt k + 1 else 1
      let s := { s with links := { s.links with winMs := Tab.set 0 s.links.winMs k ms, winCnt := Tab.set 0 s.links.winCnt k cnt } }
      if s.rd GLB_LNK_CFG.RESEND_MAX < cnt then .next (s.fallback d way 1)
      else if n = 8 then .next (s.fallback d way 2)
      else .next s

/-- The code in place of a wire's eye for one that training or a repair has taken out of use (R422, R424). -/
def eyeRetired : Nat := 100

/-- The first free spare of a lane group that passes: its place among the spares (R424). One not yet swept passes, as training left it. -/
def State.freeSpare (s : State) (d way group : Nat) : Option Nat :=
  let (_, data, sp) := linkShape d way
  let g := grpKey d way group
  let used := Tab.get 0 s.links.used g
  ((List.range (sp - used)).map (· + used)).find? (fun j =>
    let e := Tab.get 0 s.links.eyes (512 * g + data + j)
    decide (e = 0) || (decide (s.rd GLB_LNK_CFG.REPAIR_EYE < e) && decide (e ≠ eyeRetired)))

/-- A monitor measures one wire's eye, in 1/64 UI (R424, R426): a failing data wire is repaired by a passing spare, or begins a fallback. Wires past the data
wires are spares; those in use carry data. A wire that a repair has retired is passed over. -/
def execMonitorSweep (d way group wire eye : Nat) (s : State) : Res :=
  let (n, data, sp) := linkShape d way
  let g := grpKey d way group
  if !isDie d || 9 ≤ way || n ≤ group || data + sp ≤ wire || s.dieAbsent d || 2 ≤ s.linkMode d way ||
    decide (Tab.get 0 s.links.eyes (512 * g + wire) = eyeRetired) then .next s
  else
    let s := { s with links := { s.links with eyes := Tab.set 0 s.links.eyes (512 * g + wire) (eye % 64 + 1) } }
    let lo := 512 * grpKey d way 0
    let mine := s.links.eyes.filter (fun e => decide (lo ≤ e.1) && decide (e.1 < lo + 8192))
    let best := mine.foldl (fun (m : Nat × Nat) e => if e.2 < m.2 then e else m) (512 * g + wire, eye % 64 + 1)
    let s := if way < 4 then (s.wr (CD_LNK_STAT.MIN_EYE d way) (best.2 - 1)).wr (CD_LNK_STAT.MIN_GROUP d way) (best.1 / 512 % 16) else s
    let used := Tab.get 0 s.links.used g
    if s.rd GLB_LNK_CFG.REPAIR_EYE ≤ eye % 64 || data + used ≤ wire || s.linkMode d way = 1 || s.linkBusy d way then .next s
    else
      match s.freeSpare d way group with
      | some j =>
        let s := { s with links := { s.links with used := Tab.set 0 s.links.used g (j + 1), eyes := Tab.set 0 s.links.eyes (512 * g + wire) eyeRetired } }
        let s := if way < 4 then (s.lcount d (0xD508 + 16 * way) way (CD_LNK_ERR.REPAIRS d way) 1).dayCount (41000 + 4 * d + way) 1 else s
        .next ((s.sparesLow d way).postPanel 0x0502 31 0 (leBytes 1 d ++ leBytes 1 (way % 4) ++ leBytes 1 group ++ leBytes 1 (sp - j - 1)))
      | none => .next (s.fallback d way 0)

/-- A write of CD_LNK_CTLd.FORCE_COMPAT by firmware (R426, R440). -/
def execForceCompatWrite (src : Src) (d w : Nat) (v : W32) (s : State) : Res :=
  if !fwOnly src || !isDie d || 4 ≤ w || s.dieAbsent d then .next s
  else
    let s := s.wr (CD_LNK_CTL.FORCE_COMPAT d w) (bitsOf v.toNat 1 1)
    if bitsOf v.toNat 1 1 = 1 then .next (s.fallback d w 3) else .next s

/-- A write of CD_LNK_CTLd.RETRAIN by firmware (R429, R440): the link trains. -/
def execLinkRetrainWrite (src : Src) (d w : Nat) (s : State) : Res :=
  if !fwOnly src || !isDie d || 4 ≤ w || s.dieAbsent d || (wayNode d w).isNone then .next s
  else
    let drop := forL (linkEnds d w) (fun e t => Tab.set 0 t (endKey e.1 e.2) 0) s.links.falling
    .next (({ s with links := { s.links with falling := drop } }).setTraining d w true)

/-- May a link be trained: both ends powered with their PLLs locked, and it is down, in training, or due (R422)? -/
def State.mayTrain (s : State) (d way : Nat) : Bool :=
  let up := fun (n : Nat) => !isDie n || (decide (s.rgnState (regionOf n) < 4) && !bitOf (s.rd (GLB_HOLE_DIE.HOLE (n / 32))) (n % 32) && s.bit (CD_CLK_STAT.PLL_LOCK n))
  match wayNode d way with
  | some n => up d && up n && decide (s.fallingAt d way = none) &&
    (decide (2 ≤ s.linkMode d way) || s.linkBusy d way || (linkEnds d way).any (fun e => s.links.due.contains (endKey e.1 e.2)))
  | none => false

/-- The wires of a lane group whose eyes training measures below the threshold; one that is not listed has the whole eye of 63 (R422). -/
def failingWires (thr : Nat) (eyes : List Nat) : List Nat := (List.range eyes.length).filter (fun w => decide (eyes.getD w 63 < thr))

/-- The spares that a group takes when its data positions go onto its passing wires, lowest first; none where the wires do not suffice (R422). -/
def sparesFor (data sp : Nat) (bad : List Nat) : Option Nat :=
  (List.range (sp + 1)).find? (fun u => decide ((bad.filter (fun w => decide (w < data + u))).length ≤ u))

/-- The smallest eye of the wires that carry data, and its group (R441). -/
def leastEye (thr data : Nat) (use : List (Option Nat)) (eyes : List (List Nat)) : Nat × Nat :=
  (List.range eyes.length).foldl (fun m g =>
    ((List.range (data + (use.getD g none).getD 0)).filter (fun w => decide (thr ≤ (eyes.getD g []).getD w 63))).foldl
      (fun (m : Nat × Nat) w => let e := (eyes.getD g []).getD w 63
        if e < m.1 then (e, g) else m) m) (63, 0)

/-- The wires of a die's links that are out of use, as the logbook keeps them: way, group, wire (R422, R593; the record's layout is the model's, log entry 106). -/
def State.wireMap (s : State) (d : Nat) : List Byte :=
  (s.links.eyes.filter (fun x => decide (x.1 / 73728 = d) && decide (x.2 = eyeRetired))).flatMap (fun x => leBytes 4 (x.1 % 73728))

/-- A link is trained (R420, R422, R423, R429): `ctl` says whether its control and sync wires are; `eyes` and `farEyes` are what the receivers of its two ends
measure of the wires of each lane group, which each maps for itself; `good` says whether the test flits are, `compat` whether the training in compat mode is. -/
def State.trainLink (s : State) (d way : Nat) (ctl : Bool) (eyes farEyes : List (List Nat)) (good compat : Bool) : State :=
  let (n, data, sp) := linkShape d way
  let thr := s.rd GLB_LNK_CFG.TRAIN_EYE
  let useOf := fun (eyes : List (List Nat)) => (List.range n).map (fun g => sparesFor data sp (failingWires thr (eyes.getD g [])))
  let eyesOf := fun (e : Nat × Nat) => if e = (d, way) then eyes else farEyes
  let native := ctl && good && (useOf eyes).all Option.isSome && (useOf farEyes).all Option.isSome
  let mode := if native then 0 else if ctl && compat && !inRange way 4 4 then 1 else 2
  let ends := linkEnds d way
  let maps := ends.map (fun e => s.wireMap e.1)
  let gone := fun (k : Nat) => ends.any (fun e => decide (k / 8192 = endKey e.1 e.2))
  let used := forL ends (fun e t => forN n (fun g t => Tab.set 0 t (grpKey e.1 e.2 g) (((useOf (eyesOf e)).getD g none).getD sp)) t) s.links.used
  let retired := forL ends (fun e t => forN (min n (eyesOf e).length) (fun g t =>
    forL (failingWires thr ((eyesOf e).getD g [])) (fun w t => Tab.set 0 t (512 * grpKey e.1 e.2 g + w) eyeRetired) t) t) (s.links.eyes.filter (fun x => !gone x.1))
  let s := { s with links := { s.links with
    used := used, eyes := retired
    due := s.links.due.filter (fun k => !ends.any (fun e => decide (k = endKey e.1 e.2))) } }
  let s := forL ends (fun e s => s.updNode e.1 (fun x => { x with resends := Tab.set 0 x.resends e.2 0, stopped := x.stopped.filter (fun w => decide (w ≠ e.2)) })) s
  let s := forL ends (fun e s => s.sparesLow e.1 e.2) ((s.setMode d way mode).setTraining d way false)
  let s := if mode = 1 then s.compatWires d way else s
  let s := forL (ends.zip maps) (fun e s => if s.wireMap e.1.1 = e.2 then s else s.logWrite 0x0A e.1.1 (s.wireMap e.1.1)) s
  let s := forL ends (fun e s =>
    let least := leastEye thr data (useOf (eyesOf e)) (eyesOf e)
    if e.2 < 4 then (s.wr (CD_LNK_STAT.MIN_EYE e.1 e.2) least.1).wr (CD_LNK_STAT.MIN_GROUP e.1 e.2) least.2 else s) s
  s.pumpAll

/-- LINK_TRAINING (R420, R422): the control wires and the sync wires are trained before the data wires. A training that ends in compat mode is posted (R422), and what waits for the link goes on. -/
def execLinkTraining (d way : Nat) (ctl sync : Bool) (eyes farEyes : List (List Nat)) (good compat : Bool) (s : State) : Res :=
  if !isDie d || 9 ≤ way || !s.mayTrain d way then .next s
  else
    let s := s.trainLink d way (ctl && sync) eyes farEyes good compat
    let s := if s.linkMode d way = 1 then s.postPanel 0x0500 31 1 (seamBody d way ++ leBytes 1 4) else s
    .next (forN 16 (fun p s => s.powerLayer p) s)

end Sys2Proof.Machine
end

