-- ==== Sys2Proof/Machine/Cartridges.lean ====
section
/-! DEFINITION. Cartridges and blades (R27, R28, R471 to R481), the loads of a cartridge, perimeter units at their limits (R513), links that stop (R196), the
management pairs (R669). -/

namespace Sys2Proof.Machine

/-- CT_SWAP (R498). -/
def State.ctSwap (s : State) (n phase : Nat) : State := s.postPanel 0x0106 31 1 (leBytes 1 n ++ leBytes 1 phase)

/-! ### The loads of CT16 to CT19 (R28, R268, R479) -/

/-- Does a store range have a page on one of the stacks? -/
def State.touchesStack (s : State) (f : Nat → Bool) (lo n : Nat) : Bool := (pagePieces lo n).any (fun e => f (s.place e.1).1)

/-- How the pages of a range that starts at `lo` are placed: 0 interleaved, 1 edge-local, 2 in parity mode. -/
def State.kindAt (s : State) (lo : Nat) : Nat := if s.pmode then 2 else b2n (s.bit (MH_SEG_MAP.MODE (s.segOf lo)))

/-- The sensors of perimeter units without power read nothing (R522). -/
def State.unitsOff (s : State) (us : List Nat) : State := forL us (fun u s => s.wr (THM_UNIT.VALID u) 0) s

/-- Half the stacks lose their contents (R268): their pages read zero, commit copies there are absent, guarded ranges are struck. A range whose bytes are free
values is of one segment (R230) or of one descriptor (R337); its pages there read zero too. -/
def State.loseContents (s : State) (half : Nat) : State :=
  let f := fun (st : Nat) => decide (st / 24 = half)
  let hit := fun (a : Nat) => decide (a < s.storeSize) && f (s.place a).1
  let parts := s.parts.map (fun (e : Nat × Part) => (e.1, match e.2.commit with
    | some r => if s.touchesStack f (r.cbase + r.half * r.c) r.c then { e.2 with commit := none } else e.2
    | none => e.2))
  { s with
    mem := s.mem.filter (fun c => !hit c.1)
    opens := s.opens.map (fun r => if r.lo < s.storeSize then { r with shut := (s.kindAt r.lo, half) :: r.shut } else r)
    ecc := s.ecc.filter (fun e => !hit (8 * e.1))
    parts := parts.filter (fun e => decide (e.2 ≠ Part.reset))
    guards := s.guards.map (fun g => if s.touchesStack f g.lo (g.hi - g.lo) then { g with struck := true } else g) }

/-- The hubs and stacks of CT16 or CT17 go out of service (R479), and their stops are marked broken (R22). -/
def State.hubsOff (s : State) (n : Nat) : State :=
  let h0 := 12 * (n - 16)
  let s := s.loseContents (n - 16)
  forN 12 (fun i s =>
    let k := h0 + i
    ((((s.hubOut k)).resetRegs (0x200000 + k * 0x10000) (0x200000 + (k + 1) * 0x10000)).breakStop (hubStop k)).unitsOff [2 * k, 2 * k + 1, 48 + k]) s

/-- They return (R268): the hubs retrain and initialise those stacks to zeros; their parity groups hold zeros alone. -/
def State.hubsOn (s : State) (n : Nat) : State :=
  let s := forN 12 (fun i s => s.wr (MH_HUB_STAT.INSERVICE (12 * (n - 16) + i)) 1) s
  let s := forN 24 (fun i s => s.wr (MH_STACK_STATE.STATE (24 * (n - 16) + i)) (s.rd (MH_STACK_STATE.NOSPARE (24 * (n - 16) + i)))) s
  let s := forN 24 (fun i s =>
    let st := 24 * (n - 16) + i
    forN 144 (fun d s => if st < 32 then s.wrBit (CD_STORE_LOST_LO.LOST d) st false else s.wrBit (CD_STORE_LOST_HI.LOST d) (st - 32) false) s) s
  forN 2 (fun i s =>
    let g := 2 * (n - 16) + i
    let built := s.store.built.filter (fun e => decide (e.1 / 12 ≠ g))
    let early := s.store.early.filter (fun e => decide (e.1 / 12 ≠ g))
    let s := { s with store := { s.store with lost := Tab.set [] s.store.lost g [], built := built, early := early } }
    (s.wr (MH_PGRP_STATE.STATE g) (b2n s.pmode)).wr (MH_PGRP_PROG.STRIPE g) 0) s

/-- The engines, laser modules and guest site of CT18 or CT19 go dark (R28, R371, R443); a swap of a module waits for the cartridge (R381). -/
def State.lightOff (s : State) (n : Nat) : State :=
  let s := forN 6 (fun i s =>
    let k := 6 * (n - 18) + i
    let s := ((s.elsOff k 0).wr (ELS_STAT.LOCKED k) 0).wr (OE_ELS_STAT.VERIFIED k) 0
    s.updOpt (fun o => { o with swap := Tab.set 0 o.swap k (if Tab.get 0 o.swap k = 0 then 0 else 3) })) s
  let s := forN 12 (fun i s => (s.darken (12 * (n - 18) + i) 3).unitsOff [72 + (12 * (n - 18) + i)]) s
  s.guestOff (n - 18)

/-- They return (R381, R443): a module in place is verified again; an engine waits for its module; the guest trains from step 1. -/
def State.lightOn (s : State) (n : Nat) : State :=
  let s := forN 12 (fun i s => if s.bit (OE_STAT.INSERVICE (12 * (n - 18) + i)) then s.wr (OE_STAT.CAUSE (12 * (n - 18) + i)) 2 else s) s
  let s := forN 6 (fun i s =>
    let k := 6 * (n - 18) + i
    if !s.bit (OE_ELS_STAT.PRESENT k) then s
    else if Tab.get 0 s.opt.swap k = 0 then s.verifyEls k (Tab.get [] s.opt.modRec k)
    else s.elsSeated k) s
  if Config.partG && bitOf Config.fitted (n - 18) then s.guestTrain (n - 18) 1 else s

/-- Is neither optical cartridge on: the stewards and the host interface dies have no power (R28, R472)? -/
def State.coreless (s : State) : Bool := decide (s.ct 18 ≠ 3) && decide (s.ct 19 ≠ 3)

/-- Without either optical cartridge the panel stops; its return is a cold start (R495). -/
def State.checkPower (s : State) : State :=
  if s.coreless then
    ((forN 2 (fun ep s => forN 8 (fun i s => s.wr (HID_FN_ID.EN (8 * ep + i)) 0) s) s).wr GLB_STW_STAT.LOST_BOTH 1).wr RST_BOOT_STAT.STATE 0
  else s

/-- A cartridge's output goes off (R479, R557): its region becomes a hole, or its loads go out of service. `hole` is REGION_HOLE's cause. -/
def State.cartOff (s : State) (n hole : Nat) : State :=
  if n < 16 then
    forN 16 (fun p s => s.tolDone p) (s.regionOff n hole)
  else if s.ct n ≠ 3 then s
  else if n < 18 then s.hubsOff n
  else s.lightOff n

/-- CT16 to CT19 are on again, where they have 48 V (R473); no ante holds for them, since R489 speaks of regions. -/
def State.cartOn (s : State) (n : Nat) : State :=
  if s.unfed n then s
  else
    let s := s.setCt n 3
    if n < 18 then s.hubsOn n else s.lightOn n

/-! ### Fuses (R478) -/

/-- A cartridge's fuse opens (R478, R479, R531): the output goes off at once. -/
def execFuseTrip (n cause : Nat) (s : State) : Res :=
  if 20 ≤ n || !(decide (s.ct n = 2) || decide (s.ct n = 3)) then .next s
  else
    let again := decide (Tab.get 0 s.power.retryAt n ≠ 0) && decide (s.ptime < Tab.get 0 s.power.retryAt n - 1 + 10000000000)
    let s := s.postPanel 0x0103 31 2 (leBytes 1 n ++ leBytes 1 cause)
    let s := (s.cartOff n 0).setCt n 4
    let s := if again then s.wr (PWR_CT_STAT.RETRY_LOCK n) 1 else s
    .next (if n < 16 then s.noteRegionReset n 0x08 true else s.checkPower)

/-- RETRY of an open fuse (R478): the region takes an ante as if returning from a swap. -/
def execFuseRetry (src : Src) (n : Nat) (s : State) : Res :=
  if !pfOrFw src || 20 ≤ n || s.ct n ≠ 4 || s.bit (PWR_CT_STAT.RETRY_LOCK n) || (decide (n < 16) && s.bit (THM_RGN.TRIPPED n)) then .next s
  else
    let s := (s.setCt n 1).wr (CT_CTL.RETRY n) 0
    let s := { s with power := { s.power with retryAt := Tab.set 0 s.power.retryAt n (s.ptime + 1) } }
    .next (if n < 16 then s.wantAnte n 3 else s.cartOn n)

/-! ### Swaps (R480, R481) -/

/-- The cartridge may be pulled: its output is off, the amber indicator is lit (R480, R669). -/
def State.swapReady (s : State) (n : Nat) : State :=
  let s := (s.cartOff n 2).setCt n 5
  let s := ({ s with power := { s.power with swap := Tab.set 0 s.power.swap n 2 } }).ctSwap n 0
  if n < 16 then s.noteRegionReset n 0x08 false else s.checkPower

/-- SWAP_REQ (R480): held until READY (R546); a region's cartridge waits for the commit, the others proceed at once. -/
def State.swapReq (s : State) (n : Nat) : State :=
  if 20 ≤ n || s.ct n = 0 || s.ct n = 5 || decide (Tab.get 0 s.power.swap n = 1) then s
  else if s.rd RST_BOOT_STAT.STATE ≠ 1 then
    { s with boot := { s.boot with heldSwaps := if s.boot.heldSwaps.contains n then s.boot.heldSwaps else s.boot.heldSwaps ++ [n] } }
  else if n < 16 then { s with power := { s.power with swap := Tab.set 0 s.power.swap n 1 } }
  else s.swapReady n

def execCtSwapReq (src : Src) (n : Nat) (s : State) : Res := .next (if pfOrFw src && !s.bit GLB_STW_STAT.LOST_BOTH then s.swapReq n else s)

/-- The commit has come, or 10 s have passed (R480). -/
def execCtSwapProceed (n : Nat) (s : State) : Res :=
  if 16 ≤ n || Tab.get 0 s.power.swap n ≠ 1 || s.bit GLB_STW_STAT.LOST_BOTH then .next s else .next (s.swapReady n)

/-- SWAP_CANCEL before SWAP_READY (R480). -/
def execCtSwapCancel (src : Src) (n : Nat) (s : State) : Res :=
  if !pfOrFw src || 20 ≤ n || !(decide (Tab.get 0 s.power.swap n = 1) || s.boot.heldSwaps.contains n) then .next s
  else
    let s := { s with power := { s.power with swap := Tab.set 0 s.power.swap n 0 }, boot := { s.boot with heldSwaps := s.boot.heldSwaps.filter (fun x => decide (x ≠ n)) } }
    .next (s.ctSwap n 6)

/-- Does a cartridge's record pass its check (R481, R669)? -/
def ctRecordOk (r : List Byte) : Bool :=
  decide (r.length = 128) && decide (leField r 0 4 = 0x49445245) && decide (leField r 4 1 = 1) && decide (leField r 5 1 = 2) &&
    decide (leField r 124 4 = crc32 (r.take 124))

/-- A cartridge is seated (R481, R667, R668): its controller reads the slot; the record is checked; it is brought up by an ante. -/
def execCtSeated (n : Nat) (record : List Byte) (s : State) : Res :=
  if 20 ≤ n || s.ct n ≠ 0 then .next s
  else
    let s := ((s.setCt n 1).wr (PWR_CT_STAT.RETRY_LOCK n) 0).wr (PWR_CT_STAT.SPARE_USED n) 0
    let s := { s with power := { s.power with retryAt := Tab.set 0 s.power.retryAt n 0, ctPhase := Tab.set 0 s.power.ctPhase n 0, swap := Tab.set 0 s.power.swap n 0 } }
    let s := s.ctSwap n 2
    if !ctRecordOk record then .next ((s.wr (CT_CTL.IND n) 3).ctSwap n 5)
    else
      let s := (s.wr (PWR_CT_ID.SERIAL n) (leField record 8 6)).wr (PWR_CT_ID.HWREV n) (leField record 6 1)
      if !s.boot.on then .next s else .next (if n < 16 then (if s.unfed n then s else s.wantAnte n 2) else if s.unfed n then s else (s.cartOn n).ctSwap n 3)

/-- A cartridge is pulled (R481): without a swap it is handled as a fuse trip. -/
def execCtPulled (n : Nat) (s : State) : Res :=
  if 20 ≤ n || s.ct n = 0 then .next s
  else if s.ct n = 5 then .next (s.setCt n 0)
  else if n < 16 ∧ s.ct n = 1 ∧ s.power.antes.any (fun a => decide (a.region = n)) then .next ((((s.dropAnte n).setCt n 0).postPanel 0x0103 31 2 (leBytes 1 n ++ leBytes 1 2)) |> forN 16 (fun p s => s.tolDone p))
  else
    let on := decide (s.ct n = 2) || decide (s.ct n = 3)
    let s := s.postPanel 0x0103 31 2 (leBytes 1 n ++ leBytes 1 2)
    let s := ((if on then s.cartOff n 3 else s).setCt n 0)
    .next (if n < 16 then (if on then s.noteRegionReset n 0x08 true else s) else s.checkPower)

/-- A memory or optical cartridge fails (R479); so does one whose controller does not answer (R669). -/
def State.ctFault (s : State) (n : Nat) : State :=
  if 20 ≤ n || s.ct n = 0 || s.ct n = 6 then s
  else
    let s := ((if decide (s.ct n = 2) || decide (s.ct n = 3) then s.cartOff n 0 else s).setCt n 6)
    if n < 16 then s.noteRegionReset n 0x08 true else s.checkPower

def execCartridgeFault (n : Nat) (s : State) : Res := .next (s.ctFault n)

/-! ### Blades (R473, R499) -/

/-- Does a pair include a blade? -/
def pairHas (c b : Nat) : Bool := decide ((pairBlades c).1 = b) || decide ((pairBlades c).2 = b)

/-- A blade is lost (R473, R499): grants on its pairs wait 10 ms; a cartridge without either blade stops. -/
def execBladeLost (b : Nat) (s : State) : Res :=
  if 4 ≤ b || !s.bit (PWR_BLADE.OK b) then .next s
  else
    let s := (s.wr (PWR_BLADE.OK b) 0).postPanel 0x0105 31 2 (leBytes 1 b ++ leBytes 1 0)
    let hold := forN 6 (fun c t => if pairHas c b then Tab.set 0 t c (s.ptime + 10000000) else t) s.power.pairHold
    let s := { s with power := { s.power with pairHold := hold } }
    let s := forN 20 (fun n s =>
      if s.unfed n && (decide (s.ct n = 2) || decide (s.ct n = 3)) then
        let s := (s.cartOff n 0).setCt n 1
        if n < 16 then s.noteRegionReset n 0x08 true else s
      else s) s
    .next (if s.bit GLB_STW_STAT.LOST_BOTH then s.checkPower else s.newBudget.checkPower)

/-- A blade is restored (R473): CT16 to CT19 that had lost both their blades come on again. -/
def execBladeRestored (b : Nat) (s : State) : Res :=
  if 4 ≤ b || s.bit (PWR_BLADE.OK b) then .next s
  else
    let s := (s.wr (PWR_BLADE.OK b) 1).postPanel 0x0105 31 2 (leBytes 1 b ++ leBytes 1 1)
    let s := forN 4 (fun i s => if pairHas (s.rd (PWR_CT_STAT.PAIR (16 + i))) b && decide (s.ct (16 + i) = 1) && s.boot.on then s.cartOn (16 + i) else s) s
    .next (if s.bit GLB_STW_STAT.LOST_BOTH then s else s.newBudget)

/-! ### Perimeter units (R513, R196) -/

/-- A perimeter unit goes out of service (R513, R196): a hub, an engine (CAUSE 4), a host interface die, a steward (R563, R682);
the active steward marks its stop broken (R22). -/
def State.perimOut (s : State) (stop : Nat) : State :=
  match stopHub stop, stopEng stop with
  | some k, _ => (s.hubOut k).breakStop stop
  | _, some k => (((s.darken k 4).wr (OE_STAT.INSERVICE k) 0).elsBack (elsOf k)).breakStop stop
  | none, none =>
    if stop = 13 then (s.stewardFails 0).breakStop stop else if stop = 39 then (s.stewardFails 1).breakStop stop
    else if stop = 0 then (s.endpointReset 0 0x07).breakStop stop else if stop = 26 then (s.endpointReset 1 0x07).breakStop stop else s

/-- The limit and the trip of unit `u`, in 0.01 °C; a stack has its second limit of 95 °C (R513). -/
def perimLimits (u : Nat) : Int × Int :=
  if u < 48 then (8500, 10500) else if u < 72 then (9500, 11000) else if u < 96 then (8000, 9000) else (10000, 11500)

/-- A unit's temperature and level (R522, R523). -/
def State.perimLevel (s : State) (u : Nat) (temp : Int) (lvl : Nat) : State :=
  let old := s.rd (THM_UNIT.LEVEL u)
  let s := ((s.wr (THM_UNIT.TEMP u) (unsgn 16 temp)).wr (THM_UNIT.VALID u) 1).wr (THM_UNIT.LEVEL u) lvl
  if old < lvl then s.postPanel 0x0207 31 1 (leBytes 1 u ++ leBytes 1 lvl ++ leBytes 2 0 ++ leBytes 2 (unsgn 16 temp)) else s

/-- A perimeter unit reaches its limit, or its trip (R513). -/
def execPerimThermalLimit (u : Nat) (temp : Int) (s : State) : Res :=
  if 100 ≤ u || temp < (perimLimits u).1 then .next s
  else
    let trip := decide ((perimLimits u).2 ≤ temp)
    let s := s.perimLevel u temp (if trip then 2 else 1)
    let s := if u < 48 then { s with therm := { s.therm with pace := Tab.set 0 s.therm.pace u (if 9500 ≤ temp then 2 else 1) } }
      else if u < 72 then { s with therm := { s.therm with pace := Tab.set 0 s.therm.pace u 1 } } else s
    if !trip then .next s
    else if u < 48 then .next (settle (execStackThermalTrip u s) s)
    else if u < 72 then .next (s.perimOut (hubStop (u - 48)))
    else if u < 96 then .next (s.perimOut (engStop (u - 72)))
    else if u = 96 then .next (s.perimOut 0)
    else if u = 97 then .next (s.perimOut 26)
    else if u = 98 then .next (s.perimOut 13)
    else .next (s.perimOut 39)

/-- The unit's temperature has stayed 5 °C below its limit for 1 s (R513): the limit action ends; a stack between its two limits keeps doubled refresh. -/
def execPerimThermalClear (u : Nat) (temp : Int) (s : State) : Res :=
  if 100 ≤ u || s.rd (THM_UNIT.LEVEL u) ≠ 1 then .next s
  else
    let s := s.wr (THM_UNIT.TEMP u) (unsgn 16 temp)
    let pace := fun (v : Nat) (s : State) => { s with therm := { s.therm with pace := Tab.set 0 s.therm.pace u v } }
    if temp < (perimLimits u).1 - 500 then .next (pace 0 (s.wr (THM_UNIT.LEVEL u) 0))
    else if u < 48 ∧ temp < 9000 ∧ Tab.get 0 s.therm.pace u = 2 then .next (pace 1 s)
    else .next s

/-- A link has failed 16 consecutive resends (R196): on a die, or after each end has tested itself; `near` and `far` say which ends pass. -/
def execLinkResendLimit (d way : Nat) (onDie near far : Bool) (s : State) : Res :=
  if !isDie d || s.dieAbsent d then .next s
  else if onDie then .next (if Tab.get 0 (s.node d).resends 9 < 16 then s else s.dieFault d 0x10)
  else
    match wayNode d way with
    | none => .next s
    | some n =>
      if Tab.get 0 (s.node d).resends way < 16 then .next s
      else
        let s := s.updNode d (fun x => { x with stopped := if x.stopped.contains way then x.stopped else x.stopped ++ [way] })
        let s := if near then s else s.dieFault d 0x10
        let s := if far then s else if isDie n then s.dieFault n 0x10 else s.perimOut (n - 144)
        .next (if near && far then (s.linkFault d way).linkLost d way else s)

/-! ### Management pairs (R669) -/

/-- A write of a module's LASER_EN and IND (R372, R669): the lasers emit only while both interlocks are mated. -/
def State.laserEn (s : State) (k : Nat) (on : Bool) : State :=
  if on then
    if s.bit (OE_ELS_STAT.VERIFIED k) && s.bit (ELS_STAT.LOCKED k) && s.bit (ELS_STAT.ILK_A k) && s.bit (ELS_STAT.ILK_B k) then
      (s.wr (ELS_CTL.LASER_EN k) 1).wr (OE_ELS_STAT.STATE k) 2
    else s
  else if s.bit (ELS_CTL.LASER_EN k) then ((s.elsOff k 0).darken (2 * k) 2).darken (2 * k + 1) 2
  else s

/-- IND holds what is written, whatever the write does beside (R669). -/
def execElsLaserEn (k : Nat) (v : W32) (s : State) : Res :=
  if 12 ≤ k || !s.bit (OE_ELS_STAT.PRESENT k) then .next s
  else .next ((s.laserEn k (bitOf v.toNat 0)).wr (ELS_CTL.IND k) (bitsOf v.toNat 1 3))

/-- A write of a cartridge's OUT_EN (R490, R669): OUT_EN ramps the output of a cartridge that is OFF, or turns it off. -/
def State.outEn (s : State) (k : Nat) (on : Bool) : State :=
  if on then
    if s.ct k ≠ 1 then s
    else if k < 16 then (if Tab.get 0 s.power.ramp k = 0 then s else s.setCt k 2) else s.cartOn k
  else if s.ct k = 2 ∨ s.ct k = 3 then
    let s := (s.cartOff k 0).setCt k 1
    if k < 16 then s.noteRegionReset k 0x08 true else s.checkPower
  else s

/-- A write of a cartridge's OUT_EN, RETRY and IND (R478, R490, R669); IND holds what is written. -/
def execCtOutEn (k : Nat) (v : W32) (s : State) : Res :=
  if 20 ≤ k || s.ct k = 0 then .next s
  else
    let x := v.toNat
    let s := if bitOf x 1 then settle (execFuseRetry .fw k s) s else s
    .next ((s.outEn k (bitOf x 0)).wr (CT_CTL.IND k) (bitsOf x 2 3))

/-- A module or cartridge does not answer within 1 ms (R669): three retries, then a module counts as failing verification and a cartridge as FAULT. -/
def execI3cTargetTimeout (els : Bool) (k : Nat) (s : State) : Res :=
  if (els && decide (12 ≤ k)) || (!els && decide (20 ≤ k)) then .next s
  else
    let key := if els then k else 12 + k
    let n := Tab.get 0 s.boot.i3cTries key
    if n < 3 then .next { s with boot := { s.boot with i3cTries := Tab.set 0 s.boot.i3cTries key (n + 1) } }
    else
      let s := { s with boot := { s.boot with i3cTries := Tab.set 0 s.boot.i3cTries key 0 } }
      if els then
        let s := (((s.wr (OE_ELS_STAT.VERIFIED k) 0).elsOff k 0).darken (2 * k) 2).darken (2 * k + 1) 2
        .next (((s.wr (ELS_CTL.IND k) 3).updOpt (fun o => { o with swap := Tab.set 0 o.swap k 0 })).elsEvent k 5)
      else .next (s.ctFault k)

/-- What a cartridge's controller shows (R669): STATE, ANTE_REQ, PHASE_OK and SLOT; its inputs; its output. -/
def State.ctShow (s : State) (n : Nat) : Nat × Nat × Nat :=
  let p := pairBlades (s.rd (PWR_CT_STAT.PAIR n))
  let ok := (List.range (ctPhases n)).foldl (fun t i => t + b2n (decide (Tab.get 0 s.power.ctPhase n ≤ i)) * 2 ^ i) 0
  (s.ct n + b2n (s.power.antes.any (fun a => decide (a.region = n))) * 8 + ok * 2 ^ 8 + n * 2 ^ 16,
    s.rd (PWR_BLADE.VOLT p.1) + s.rd (PWR_BLADE.VOLT p.2) * 2 ^ 16, s.rd (PWR_CT_STAT.OUT_W n))

end Sys2Proof.Machine
end

