-- ==== Sys2Proof/Machine/Startup.lean ====
section
/-! DEFINITION. The start-up sequence (R532 to R542): how the panel comes from a reset to READY, to RECOVERY or to HALTED. One command runs it whole; how its
units fare is the operand. -/

namespace Sys2Proof.Machine

/-! ### Steps 2 to 4: the stewards (R532, R533, R609, R611) -/

/-- Does a steward complete step 3 within 10 s, its keyring's self-tests passed? -/
def bootDone (fail done : Nat) : Bool := decide (fail = 0) && decide (0 < done) && decide (done ≤ 10000)

/-- The election (R533): SD0 where it completes step 3 within 8 s, else SD1 where it has by then, else the first within 10 s. -/
def elected (b : BootTry) : Option Nat :=
  let o0 := bootDone b.fail0 b.done0
  let o1 := bootDone b.fail1 b.done1
  if o0 && decide (b.done0 ≤ 8000) then some 0
  else if o1 && (decide (b.done1 ≤ 8000) || !o0 || decide (b.done1 ≤ b.done0)) then some 1
  else if o0 then some 0
  else none

/-- A keyring measures its boot ROM and firmware, the steward image and the owner record (R609). -/
def State.measureBoot (s : State) (sd : Nat) (own : Bool) : State :=
  let ext := fun (m : Nat) (d : List Byte) (s : State) => if own then s.extendOwn m d else s.extendSby m d
  ext 2 (digest s.ownerRecord) (ext 1 (digest (imgHead (s.bootImage sd 0))) (ext 0 (digest (Config.rom sd)) s))

/-- KEY_SELFTEST of a steward's keyring (R611, R626). -/
def State.keySelftest (s : State) (sd test : Nat) : State := s.postPanel 0x0A00 31 2 (leBytes 1 sd ++ leBytes 1 test)

/-- Both keyrings start (R609, R611): their slots are zero, sessions and session keys are gone. -/
def State.keyringsUp (s : State) (b : BootTry) : State :=
  let s := (forN 8 (fun m s => s.setWords (KEY_MEAS.DIGEST m) 16 []) s).dropRoles
  let s := s.updKey (fun k => { k with sbyMeas := [], spdm := [], chunk := none })
  let s := if b.fail0 = 0 then s else s.keySelftest 0 b.fail0
  if b.fail1 = 0 then s else s.keySelftest 1 b.fail1

/-- Steward `a` is active; the other is the standby where it completes step 3, and holds a mirror (R533, R562). -/
def State.electSteward (s : State) (a : Nat) (b : BootTry) : State :=
  let fo := if a = 0 then b.fail1 else b.fail0
  let dn := if a = 0 then b.done1 else b.done0
  let sby := decide (fo = 0) && decide (0 < dn)
  let s := ((s.wr GLB_STW_STAT.ACTIVE_SD a).wr RST_BOOT_STAT.ACTIVE_SD a).wr KEY_STAT.SD a
  let s := ((s.wr KEY_STAT.STATE 1).wr GLB_STW_STAT.LOST_BOTH 0).wr GLB_STW_STAT.STANDBY_OK (b2n sby)
  let s := s.updKey (fun k => { k with sbyState := if fo ≠ 0 then 2 else b2n sby })
  let s := s.measureBoot a true
  let s := if sby then s.measureBoot (1 - a) false else s
  { s.wr GLB_ID_FWVER.STEWARD (imgVer (s.bootImage a 0)) with rcv := { s.rcv with booting := !sby && decide (fo = 0) } }

/-! ### Step 6: the store (R249, R527, R536) -/

/-- The owner configuration in the logbook: the newest record of its kind (R536, R593). -/
def State.ownerCfg (s : State) : Option LogRec := s.logRecs.reverse.find? (fun r => decide (r.kind = 0x0B))

/-- The registers of R536 in their order, as offset and bytes; PARITY stands in the low byte of its 4. -/
def ownerRegs : List (Nat × Nat) :=
  [(0x5E0000, 4), (0x5E0004, 4)] ++ (List.range 16).flatMap (fun i => [(0x5E0200 + 16 * i, 4), (0x5E0204 + 16 * i, 4), (0x5E0208 + 16 * i, 8)]) ++
  (List.range 4).map (fun i => (0x5E0020 + 4 * i, 4)) ++ [(0x380000, 4)] ++ (List.range 48).map (fun j => (0x380100 + 4 * j, 4)) ++
  [(0x3003000, 4), (0xA0008, 4)]

/-- What CONFIG_SAVE records (R536). -/
def State.ownerCfgBytes (s : State) : List Byte :=
  ownerRegs.flatMap (fun e => leBytes e.2 (if e.1 = 0x380000 then s.rd MH_STORE_CFG.PARITY else s.rawRead e.1 e.2))

/-- Where each of the registers stands in the record. -/
def ownerPlaces : Nat → List (Nat × Nat) → List (Nat × Nat × Nat)
  | _, [] => []
  | o, (a, n) :: t => (a, n, o) :: ownerPlaces (o + n) t

/-- PARITY as the owner configuration has it, 0 without one (R536, R539). -/
def ownerParity (l : List Byte) : Nat :=
  match (ownerPlaces 0 ownerRegs).find? (fun e => decide (e.1 = 0x380000)) with
  | some e => leField l e.2.2 4 % 2
  | none => 0

/-- The stacks train and the store is initialised, a stack with a bank without a spare row DEGRADED; after a warm reset in which every stack trains it keeps its contents (R249, R527). -/
def State.storeUp (s : State) (b : BootTry) (cold : Bool) (cfg : Option (List Byte)) : State :=
  let s := forN 24 (fun k s => if decide (s.ct (16 + k / 12) = 3) then s.wr (MH_HUB_STAT.INSERVICE k) 1 else s) s
  let s := s.wr MH_STORE_CFG.PARITY (match cfg with
    | some l => ownerParity l
    | none => 0)
  if cold || !b.badStacks.isEmpty then
    let s := s.hardenSoft.storeInited b.badStacks b.noSpare
    let s := forL (b.badStacks.filter (fun n => decide (n < 48))) (fun n s => s.maskStack n) s
    if cold then s
    else forL b.badStacks (fun n s => s.postPanel 0x0701 31 1 (leBytes 2 (165 + stackHub n) ++ leBytes 1 0x03 ++ leBytes 1 1)) s
  else s.wr MH_STORE_CFG.READY 1

/-! ### Steps 7 to 9: regions, dies, links, panel time -/

/-- A failure at step `n`: the unit's own chapter takes it out of service, and the panel is DEGRADED (R535). -/
def State.bootFailed (s : State) (n : Nat) : State := (s.wrBit RST_BOOT_STAT.FAILED (n - 6) true).wr RST_BOOT_STAT.DEGRADED 1

/-- The fold map of a start-up: the union of the fold fuses and the logbook's records; folded cores are fenced, a folded die is a hole (R537, R551). -/
def State.loadFolds (s : State) : State :=
  let put := fun (c : Nat) (s : State) => (s.wrBit (GLB_FOLD_MAP.FOLDED (c / 32)) (c % 32) true).updCore c (fun k => { k with fenced := true })
  let s := forL s.rcv.fuses (fun e s =>
    forN 32 (fun i s =>
      if !bitOf e.2 i then s
      else if e.1 < 1152 then put (32 * e.1 + i) s
      else s.wrBit (GLB_HOLE_DIE.HOLE (e.1 - 1152)) i true) s) s
  forL (s.logRecs.filter (fun r => decide (r.kind = 0x01))) (fun r s =>
    let c := leField r.payload 0 2
    if c < 36864 then put c s
    else (forN 256 (fun i s => put (256 * r.unit + i) s) s).wrBit (GLB_HOLE_DIE.HOLE (r.unit / 32)) (r.unit % 32) true) s

/-- Regions take antes in order of their IDs; one that does not come up is a hole (R489, R490, R532), as all are while a clamp holds (R499, R546). -/
def State.regionsUp (s : State) (b : BootTry) : State :=
  forN 16 (fun r s =>
    if b.regions.contains r || !s.anteOk r || s.clamped then
      ((s.wrBit GLB_HOLE_RGN.HOLE r true).wr (RGN_PWR_STAT.STATE r) 5).bootFailed 7
    else
      let s := s.grantAnte ⟨r, s.ptime, 0, 0⟩
      let s := settle (execRampComplete r s) s
      settle (execAntePeriodEnd r s) s) s

/-- A die's firmware loads the target of its core rail from the die's calibration record: 0.70 V to 0.85 V (R474; in mV, log entry 98). -/
def State.loadTarget (s : State) (d : Nat) : State :=
  { s with power := { s.power with target := Tab.set 0 s.power.target d (700 + Config.calibration d % 151) } }

/-- The die managers' image is loaded into every die, and loads the die's target voltage (R474, R532, R609, R638); a die that fails is left out of service. -/
def State.diesUp (s : State) (a : Nat) (b : BootTry) : State :=
  let img := s.bootImage a 1
  let s := forL s.diesIn (fun d s => if b.dies.contains d then s else s.loadTarget d) s
  let s := forL (b.dies.filter isDie) (fun d s =>
    ((s.resetDie d).wrBit (GLB_HOLE_DIE.HOLE (d / 32)) (d % 32) true).electManager (regionOf d) |>.bootFailed 8) s
  (s.extendBoth 3 (digest (imgHead img))).wr GLB_ID_FWVER.DIEMGR (imgVer img)

/-- The links that exist, each at one of its ends. -/
def allLinks : List (Nat × Nat) :=
  (List.range 144).flatMap (fun d => (List.range 9).filterMap (fun w => match wayNode d w with
    | some n => if !isDie n || decide (d < n) then some (d, w) else none
    | none => none))

/-- Every link is trained, and every die in service holds panel time (R422, R464); eyes are free values (log entry 4). Trainings that end in compat mode are posted at
READY. -/
def State.linksUp (s : State) (b : BootTry) : State :=
  let (f, s) := s.drawMany
  let s := forL allLinks (fun e s =>
    let d := e.1
    let w := e.2
    if !s.mayTrain d w then s
    else
      let bad := (linkEnds d w).any (fun x => b.links.contains x)
      let cmp := (linkEnds d w).any (fun x => b.compat.contains x)
      let s := s.trainLink d w (!bad) [[max (s.rd GLB_LNK_CFG.TRAIN_EYE) (f (2 * (9 * d + w)) % 64)]] [[max (s.rd GLB_LNK_CFG.TRAIN_EYE) (f (2 * (9 * d + w) + 1) % 64)]] (!cmp) true
      if bad then s.bootFailed 9 else s) s
  let s := forL s.diesIn (fun d s =>
    let s := { s with clk := { s.clk with untimed := Tab.set 0 s.clk.untimed d 0, good := Tab.set 0 s.clk.good d 4, ofs := Tab.set 0 s.clk.ofs d 0 } }
    s.wr (CD_CLK_STAT.PT_LOCK d) 1) s
  s.countUnlocked.writeTree

/-! ### Step 10: laser modules and ports (R360, R373, R374) -/

/-- The baselines that the logbook gives (R367, R369, R537). -/
def State.loadBaselines (s : State) : State :=
  forL (s.logRecs.filter (fun r => decide (r.kind = 0x0A))) (fun r s =>
    let p := r.payload
    match (List.range 24).find? (fun k => decide (engNode k = r.unit)) with
    | some k =>
      let held := fun (i v : Nat) => if bitOf (leField p 0 2) i then v + 1 else 0
      let s := forN 6 (fun j s => (s.wr (OE_FLOSS.BASE k j) (leField p (2 + 4 * j) 2)).updOpt (fun o => { o with rxBase := Tab.set 0 o.rxBase (6 * k + j) (held j (leField p (4 + 4 * j) 2)) })) s
      forN 4 (fun f s => s.updOpt (fun o => { o with feedBase := Tab.set 0 o.feedBase (4 * k + f) (held (6 + f) (leField p (26 + 2 * f) 2)) })) s
    | none =>
      if inRange r.unit 0x200 12 then
        forN 16 (fun i s =>
          let v := if bitOf (leField p 0 2) i then leField p (2 + 2 * i) 2 + 1 else 0
          s.updOpt (fun o => { o with laserBase := Tab.set 0 o.laserBase (16 * (r.unit - 0x200) + i) v })) s
      else s) s

/-- The modules are verified and warmed, and the ports train; a port without an entry is still training. An empty record: no module there. -/
def State.opticsUp (s : State) (b : BootTry) : State :=
  let (f, s) := s.drawMany
  let s := s.updOpt (fun o => { o with swap := [] })
  let s := forN 24 (fun k s => if s.engPowered k then s.wr (OE_STAT.INSERVICE k) 1 else s) s
  let s := forN 12 (fun k s =>
    let r := b.mods.getD k []
    let here := b2n (!r.isEmpty)
    let s := ((s.wr (OE_ELS_STAT.PRESENT k) here).wr (ELS_STAT.ILK_A k) here).wr (ELS_STAT.ILK_B k) here
    let s := ((s.darken (2 * k) (if s.engPowered (2 * k) then 2 else 3)).darken (2 * k + 1) (if s.engPowered (2 * k) then 2 else 3)).updOpt (fun o => { o with modRec := Tab.set [] o.modRec k r })
    if r.isEmpty then s
    else
      let s := s.verifyEls k r
      if s.rd (OE_ELS_STAT.STATE k) = 1 then settle (execLaserWarmupComplete k ((List.range 8).map (fun w => f (8 * k + w) % 65536)) s) s
      else s.bootFailed 10) s
  forN 72 (fun n s =>
    match b.ports[n]? with
    | some good => if s.pstate n ≠ 1 then s else settle (execPortTrainingComplete n good good s) s
    | none => s) s

/-! ### Steps 11 and 12 -/

/-- The owner configuration, or the defaults, and M7 (R536, R539, R609). Segment maps take their values while no segment is assigned. -/
def State.applyCfg (s : State) (cfg : Option LogRec) : State :=
  let noSegs := fun (s : State) => forN 48 (fun j s => s.wr (MH_SEG_MAP.ASSIGNED j) 0) s
  match cfg with
  | some r =>
    let l := r.payload
    let s := forL (ownerPlaces 0 ownerRegs) (fun e s =>
      if inRange e.1 0x380000 0x10000 then s else s.rawLoad e.1 (leField l e.2.2 e.2.1)) (noSegs s)
    let s := forL ((ownerPlaces 0 ownerRegs).filter (fun e => inRange e.1 0x380100 192)) (fun e s =>
      let v := leField l e.2.2 4
      s.setSeg ((e.1 - 0x380100) / 4) (bitsOf v 0 1) (bitsOf v 1 1) (bitsOf v 2 1) (bitsOf v 4 4)) s
    s.extendBoth 7 (digest (r.payload ++ List.replicate (logLen r.payload.length - 28 - r.payload.length) 0))
  | none =>
    let s := forN 48 (fun j s => s.setSeg j (b2n (decide (j < 47))) (b2n (decide (j < 47))) 0 0) (noSegs s)
    let s := ((s.wr JX_SELF.ID 0).wr JX_SELF.ASSIGNED 0).wr JX_CFG.DISC_EN 1
    let s := forN 16 (fun i s => s.wr (JX_RACC1.EN i) 0) s
    let s := (((s.wr (JX_RACC0.PLO 0) 0).wr (JX_RACC0.PHI 0) 0xFFFF).wr (JX_RACC1.RD 0) 1).wr (JX_RACC1.WR 0) 1
    let s := (((s.wr (JX_RACC1.RED 0) 1).wr (JX_RACC1.WIN 0) 0).wr (JX_RACC1.SEALED_ONLY 0) 0).wr (JX_RACC2.SEGMASK 0) (2 ^ 47 - 1)
    (s.wr (JX_RACC1.EN 0) 1).extendBoth 7 (List.replicate 64 0)

/-- A write of LOCK takes effect (R653, R654). -/
def State.takeLock (s : State) : State :=
  let s := ((s.wr SETUP_LOCK.LOCK 1).wr SETUP_LOCK.PENDING 0).wr GLB_LOCK_TIME.TIME s.ptime
  { s with boot := { s.boot with lockDue := false } }

/-- READY (R532, R542, R545, R546, R654). -/
def State.ready (s : State) (b : BootTry) (nohist : Nat) : State :=
  let s := ((s.wr RST_BOOT_STAT.STEP 12).wr RST_BOOT_STAT.STATE 1).wr RST_BOOT_TIME.MS b.ms
  let s := ((s.defaultRings 0).defaultRings 1).logReset 0 (s.rd (RST_LAST_CAUSE.CAUSE 0)) (s.bit (RST_LAST_CAUSE.FORCED 0))
  let s := s.wr RST_BOOT_STAT.NOHIST (b2n (decide (nohist % 4 ≠ 0)))
  let s := if nohist = 0 then s else s.postPanel 0x0702 31 1 (leBytes 1 nohist)
  let s := s.postPanel 0x0700 31 0 (leBytes 1 1 ++ leBytes 1 (s.rd RST_BOOT_STAT.DEGRADED) ++ leBytes 1 (s.rd RST_BOOT_STAT.FAILED) ++ [0] ++ leBytes 4 b.ms)
  let s := forL allLinks (fun e s => if s.linkMode e.1 e.2 = 1 then s.postPanel 0x0500 31 1 (seamBody e.1 e.2 ++ leBytes 1 4) else s) s
  let held := s.boot.heldSwaps
  let s := forL held (fun n s => s.swapReq n) { s with boot := { s.boot with heldSwaps := [] } }
  if s.boot.lockDue then s.takeLock else s

/-- The start-up sequence from step 4 on, with steward `a` elected (R532 to R537). -/
def State.startFrom (s : State) (a : Nat) (b : BootTry) (cold : Bool) : State :=
  let nohist := b2n (s.logOk && s.tel.log.isEmpty) + 2 * b2n (!s.logOk) + 4 * b2n s.ownerCfg.isNone
  let cfg := s.ownerCfg
  let cold := cold || !s.bit MH_STORE_CFG.READY
  let s := s.electSteward a b
  let s := if s.therm.faultN then s.abrupt else s
  let mini := forL (b.hids.filter (fun e => decide (e < 2))) (fun e t => Tab.set 0 t e 1) []
  let s := ({ s with boot := { s.boot with minimal := mini } }).endpointUp 0 |>.endpointUp 1
  let s := (s.extendBoth 4 (fixLen 64 (b.hidFw.getD 0 []))).extendBoth 4 (fixLen 64 (b.hidFw.getD 1 []))
  let s := s.storeUp b cold (cfg.map (fun r => r.payload))
  let s := if b.badStacks.isEmpty then s else s.bootFailed 6
  let s := if !s.logOk && (cold || !b.badStacks.isEmpty) then s.wr TEL_LOG_STAT.MIRROR_OK 0 else s
  let s := ((((s.loadFolds).regionsUp b).diesUp a b).linksUp b)
  let s := (if cold then s.loadBaselines else s).opticsUp b
  ((s.applyCfg cfg).firstTables).ready b nohist

/-- The start-up sequence from step 2 on (R532 to R537): to READY, or without a steward to RECOVERY or HALTED. -/
def State.startUp (s : State) (b : BootTry) (cold : Bool) : State :=
  let s := ((s.wr RST_BOOT_STAT.FAILED 0).wr RST_BOOT_STAT.DEGRADED 0).keyringsUp b
  match elected b with
  | none =>
    let halted := decide (b.fail0 ≠ 0) && decide (b.fail1 ≠ 0)
    let s := (((s.wr RST_BOOT_STAT.STEP 5).wr RST_BOOT_STAT.STATE (if halted then 3 else 2)).wr GLB_STW_STAT.LOST_BOTH 1).wr KEY_STAT.STATE (if halted then 2 else 1)
    (s.endpointUp 0).endpointUp 1
  | some a => s.startFrom a b cold

/-- Step 1 of a cold start (R445, R495, R532): CT18 and CT19 ramp, then the memory cartridges; every cartridge is in place but for those that the
start-up finds missing; the blades are in range; both references are good at the perimeter dies. -/
def State.powerUp (s : State) : State :=
  let s := forN 4 (fun b s => s.wr (PWR_BLADE.OK b) 1) s
  let s := forN 20 (fun n s => s.setCt n (if n < 16 then 1 else 3)) s
  let s := forN 52 (fun i s => ((s.setRef (144 + i) false true).setRef (144 + i) true true).selRef (144 + i) false) s
  forN 2 (fun g s => if Config.partG && bitOf Config.fitted g then s.guestTrain g 1 else s) s

/-- A panel cold reset and the start-up after it (R525, R532). -/
def State.coldStart (s : State) (cause : Nat) (b : BootTry) : State := ((s.coldReset cause).powerUp).startUp b true

/-- A panel warm reset and the start-up after it, which begins at step 2 (R525, R532). -/
def State.warmStart (s : State) (cause : Nat) (b : BootTry) : State := (s.warmReset cause).startUp b false

end Sys2Proof.Machine
end

