-- ==== Sys2Proof/Machine/Stewards.lean ====
section
/-! DEFINITION. The two stewards and the region managers: heartbeats, takeover, planned handover, loss of both (R562 to R568, R573, R682). -/

namespace Sys2Proof.Machine

def State.updMgmt (s : State) (f : Mgmt → Mgmt) : State := { s with mgmt := f s.mgmt }
def State.updRcv (s : State) (f : Rcv → Rcv) : State := { s with rcv := f s.rcv }

/-- The standby steward's node, and its number. -/
def State.standbyNode (s : State) : Nat := if s.stewardNode = 157 then 183 else 157
def State.sbySd (s : State) : Nat := 1 - s.sd

/-- STEWARD_FAILOVER (R576). -/
def State.failoverEvent (s : State) (cause us : Nat) : State :=
  s.postPanel 0x0803 31 2 (leBytes 1 s.sd ++ leBytes 1 cause ++ leBytes 2 0 ++ leBytes 4 us)

/-! ### Heartbeats -/

/-- HEARTBEAT (R187, R562, R566, R682): the standby, or a die, answers the sender; what the receiver missed counts anew. -/
def atHeartbeat (role count : Nat) (h : CtlHdr) (s : State) : Res :=
  let ack := fun (who : Nat) (s : State) => s.sendCtl 2 5 h.snode h.slocal h.dnode h.dlocal [0x11 + who * 2 ^ 8 + count % 2 ^ 32 * 2 ^ 16]
  if role = 0 then
    if h.dnode = s.standbyNode && s.bit GLB_STW_STAT.STANDBY_OK then .next ((s.updMgmt (fun m => { m with stwMissed := Tab.set 0 m.stwMissed 0 0 })) |> ack h.dnode)
    else .next s
  else if isDie h.dnode && !s.dieAbsent h.dnode then .next ((s.updMgmt (fun m => { m with mgrMissed := Tab.set 0 m.mgrMissed (regionOf h.dnode) 0 })) |> ack h.dnode)
  else .next s

/-- Heartbeat as a packet of the control network (R156, R189). -/
def execHeartbeat (h : CtlHdr) (role count : Nat) (s : State) : Res := atCtl h noWait (atHeartbeat role count) s

/-- HEARTBEAT_ACK (R187, R567, R682). -/
def atHeartbeatAck (who _count : Nat) (h : CtlHdr) (s : State) : Res :=
  if h.dnode = s.stewardNode && who = s.standbyNode then .next (s.updMgmt (fun m => { m with sbyMissed := Tab.set 0 m.sbyMissed 0 0 }))
  else if isDie who && h.dnode = s.managerDie (regionOf who) then .next (s.updMgmt (fun m => { m with unanswered := Tab.set 0 m.unanswered who 0 }))
  else .next s

/-- HeartbeatAck as a packet of the control network (R156, R189). -/
def execHeartbeatAck (h : CtlHdr) (who _count : Nat) (s : State) : Res := atCtl h noWait (atHeartbeatAck who _count) s

/-- Heartbeats missed 5 times on one path only (R563, R682): told once. -/
def onePath (l : Tab Nat) (path : Nat) : Bool := decide (Tab.get 0 l path = 5) && decide (Tab.get 0 l (1 - path) < 5)

/-- Every 10 ms the active steward sends its heartbeat on both paths (R562); over the wires it is answered, or missed, at once. -/
def execStewardHeartbeatTimer (wire : Bool) (s : State) : Res :=
  if s.bit GLB_STW_STAT.LOST_BOTH || !s.bit GLB_STW_STAT.STANDBY_OK then .next s
  else
    let n := Tab.get 0 s.mgmt.beats 16
    let s := s.sendCtl 2 5 s.standbyNode 258 s.stewardNode 258 [0x10 + n % 2 ^ 32 * 2 ^ 16]
    let step := fun (l : Tab Nat) => Tab.set 0 (Tab.upd 0 l 0 (· + 1)) 1 (if wire then 0 else Tab.get 0 l 1 + 1)
    let s := s.updMgmt (fun m => { m with beats := Tab.set 0 m.beats 16 ((n + 1) % 2 ^ 32), stwMissed := step m.stwMissed, sbyMissed := step m.sbyMissed })
    let hit := fun (l : Tab Nat) => onePath l 0 || (!wire && onePath l 1)
    .next (if hit s.mgmt.stwMissed || hit s.mgmt.sbyMissed then s.failoverEvent 3 0 else s)

/-! ### Takeover -/

/-- A steward die is reset and boots as the standby (R529, R563, R682): its mirror is complete with STANDBY_MIRROR_COMPLETE. -/
def State.bootStandby (s : State) : State :=
  ((s.wr GLB_STW_STAT.STANDBY_OK 0).updKey (fun k => { k with sbyMeas := [], sbyState := 0 })).updRcv (fun r => { r with booting := true })

/-- Both stewards are lost (R564). An update under way ends with them: FW_ACTIVATE of IMAGE 0 is served anew, by the recovery engine (R352, R622). -/
def State.loseBoth (s : State) : State :=
  let s := match s.rcv.update with
    | some u =>
      let s := s.updRcv (fun r => { r with update := none })
      if u.image = 0 then s.updDescs (updFirst (fun (d : Desc) => decide (d.key = u.key) && decide (d.st = DescSt.running)) (fun (d : Desc) => { d with st := DescSt.fetched })) else s
    | none => s
  ((s.updKey (fun k => { k with chunk := none })).wr GLB_STW_STAT.LOST_BOTH 1).wr GLB_STW_STAT.STANDBY_OK 0

/-- The standby's keyring, image and number are those of the active from now on (R563 step 3, R604, R609). -/
def State.swapStewards (s : State) : State :=
  let n := s.sbySd
  let sby := s.key.sbyMeas
  let st := s.key.sbyState
  let s := ((s.wr GLB_STW_STAT.ACTIVE_SD n).wr RST_BOOT_STAT.ACTIVE_SD n).wr KEY_STAT.SD n
  let s := (forN 8 (fun m s => s.setWords (KEY_MEAS.DIGEST m) 16 (fixLen 64 (Tab.get [] sby m))) s).wr KEY_STAT.STATE st
  let s := (s.dropRoles.updKey (fun k => { k with spdm := [] })).sat GLB_STW_STAT.FAILOVERS 1
  (s.wr GLB_ID_FWVER.STEWARD (imgVer (s.bootImage n 0))).bootStandby

/-- Dies whose region returns and that hold no PT_LOCK take SET again from their parent in the new tree (R470). -/
def State.setAgain (s : State) : State :=
  forN 144 (fun d s =>
    if s.dieAbsent d || decide (Tab.get 0 s.clk.untimed d = 0) then s
    else { s with clk := { s.clk with untimed := Tab.set 0 s.clk.untimed d 1, good := Tab.set 0 s.clk.good d 0, req := Tab.set none s.clk.req d none } }) s

/-- What the new active steward does at once (R563 steps 4 and 5): sync tree, time root, clamp level, table changes, every placement map from its mirrored copy and the layers (R309), protected messages,
sealing agreements, barrier counts, guests. -/
def State.assume (s : State) (planned : Bool) : State :=
  let s := (s.updMgmt (fun m => { m with stwMissed := [], sbyMissed := [] })).beginRecovery 4
  let s := ((s.wr CLK_PT_STAT.ROOT s.stewardNode).wr CLK_REF_STAT.A_OK (b2n (s.refOk s.stewardNode false))).wr CLK_REF_STAT.B_OK (b2n (s.refOk s.stewardNode true))
  let s := s.writeTree.setAgain
  let s := if s.power.holds.isEmpty then s else s.sendClamp (holdLevel s.power.holds)
  let s := if s.net.chg.isSome then s.changeTables noDie [] else s
  let s := forN 16 (fun p s => forL (s.partDies p) (fun d s => if (s.part p).place.isSome then putPmap (s.part p).place d s else s) s) s
  let s := forN 16 (fun p s => match (s.part p).run with
    | some l => if l.step = 20 then s.restop p else if planned then s else s.faultLayer p false
    | none => s) s
  let s := forN 16 (fun r s => s.newPair r) s
  let s := forN 72 (fun n s => if s.sstate n = 1 then s.startAgree n else s) s
  let s := { s with jx := { s.jx with counts := [] }, tel := { s.tel with trick := s.tel.trick.map (fun (x : Trick) => { x with since := s.ptime }) } }
  let s := forN 2 (fun g s =>
    if s.gstate g = 3 || (decide (s.gstate g = 1) && decide (4 < (s.guest g).step)) then s.guestTrain g 4 else s) s
  s.reverifyEls.publish

/-- The standby takes over from an active steward that has failed (R563, R573, R627): without a mirror both are lost (R564). Cause 0 heartbeat, 1 watchdog. -/
def State.succeed (s : State) (cause us : Nat) : State :=
  if !s.bit GLB_STW_STAT.STANDBY_OK then s.loseBoth
  else
    let s := s.swapStewards
    let s := forN 2 (fun t s => if s.rd (KEY_FW_STAGE0.STATE t) = 2 then s.setStage t 1 else s) s
    let s := match s.rcv.update with
      | some u => (s.finishDesc u.key 8 0 0 0).updRcv (fun r => { r with update := none })
      | none => s
    ((s.updKey (fun k => { k with chunk := none })).assume false).failoverEvent cause us

/-- As `succeed`, and the steward that failed is reset (R525, R529, R563). -/
def State.takeover (s : State) (cause us : Nat) : State :=
  let t := s.succeed cause us
  if s.bit GLB_STW_STAT.STANDBY_OK then t.noteReset (1 + s.sd) (if cause = 1 then 0x06 else 0x0F) true else t

/-- The planned handover (R568 steps 3 to 5): the standby, on the new image, is active at once; the former active resets into it. -/
def State.handover (s : State) (key us : Nat) : State :=
  let s := (s.fwUpdate 0 3).swapStewards
  let s := ((s.assume true).failoverEvent 2 us).fwUpdate 0 4
  let s := ((s.updRcv (fun r => { r with update := none })).finishDesc key 0 0 0 0).advanceSvn 0
  ((s.logFirmware 0).stageEmpty 0).fwUpdate 0 5

/-- 5 heartbeats missed on both paths, or a planned handover whose layers have committed (R563, R568); `us` is the time that the takeover took. -/
def execStewardTakeover (us : Nat) (s : State) : Res :=
  if s.bit GLB_STW_STAT.LOST_BOTH then .next s
  else if 5 ≤ Tab.get 0 s.mgmt.stwMissed 0 && 5 ≤ Tab.get 0 s.mgmt.stwMissed 1 then .next (s.takeover 0 us)
  else
    match s.rcv.update with
    | some u => if u.image = 0 ∧ u.step = 2 ∧ !s.anyLayer then .next (s.handover u.key us) else .next s
    | none => .next s

/-- The 10 s wait of a planned handover ends (R568): layers still running are stopped, to be redone. -/
def execHandoverWaitExpiry (s : State) : Res :=
  if s.bit GLB_STW_STAT.LOST_BOTH then .next s
  else
    match s.rcv.update with
    | some u =>
      if u.image = 0 ∧ u.step = 2 then
        let s := forN 16 (fun p s => if (s.part p).run.isSome then s.faultLayer p false else s) s
        .next (s.handover u.key 0)
      else .next s
    | none => .next s

/-! ### The standby -/

/-- The standby has failed (R682): the active resets it. In step 1 of a planned update it goes back to the old image, and the update ends (R568). -/
def execStandbyFailure (s : State) : Res :=
  if s.bit GLB_STW_STAT.LOST_BOTH then .next s
  else
    let reset := fun (s : State) =>
      let n := 1 + s.sbySd
      ((s.noteReset n 0x0F true).updMgmt (fun m => { m with stwMissed := [], sbyMissed := [] })).bootStandby
    match s.rcv.update with
    | some u =>
      if u.image = 0 ∧ u.step = 1 then
        let bank := forN 2 (fun sd t => Tab.upd 0 t (2 * sd) (fun b => 1 - b % 2)) s.key.bank
        let s := ((s.updKey (fun k => { k with bank := bank })).updRcv (fun r => { r with update := none })).finishDesc u.key 8 0 0 0
        .next (reset s)
      else if 5 ≤ Tab.get 0 s.mgmt.sbyMissed 0 && 5 ≤ Tab.get 0 s.mgmt.sbyMissed 1 then .next (reset s) else .next s
    | none => if 5 ≤ Tab.get 0 s.mgmt.sbyMissed 0 && 5 ≤ Tab.get 0 s.mgmt.sbyMissed 1 then .next (reset s) else .next s

/-- The reset steward has booted as the standby and holds a complete mirror (R563, R568, R609, R682). -/
def execStandbyMirrorComplete (s : State) : Res :=
  if !s.rcv.booting || s.bit GLB_STW_STAT.LOST_BOTH then .next s
  else
    let s := ((s.updRcv (fun r => { r with booting := false })).wr GLB_STW_STAT.STANDBY_OK 1).updKey (fun k => { k with sbyState := 1, sbyMeas := [] })
    let s := s.measureBoot s.sbySd false
    match s.rcv.update with
    | some u => if u.image = 0 ∧ u.step = 1 then .next ((s.updRcv (fun r => { r with update := some { u with step := 2 } })).fwUpdate 0 2) else .next s
    | none => .next s

/-! ### Both stewards lost -/

/-- A host interface die has seen no heartbeat for 100 ms (R564, R352): STEWARD_LOST comes first, then its descriptors that need a steward end; a trick in
progress is lost with its descriptor (R600). -/
def execStewardLost (hid : Nat) (s : State) : Res :=
  if !s.bit GLB_STW_STAT.LOST_BOTH || 2 ≤ hid || Tab.get 0 s.host.stwLost hid = 1 then .next s
  else
    let s := s.updHost (fun h => { h with stwLost := Tab.set 0 h.stwLost hid 1 })
    let s := forN 8 (fun i s => if s.bit (HID_FN_ID.EN (8 * hid + i)) then s.postEvent (8 * hid + i) 0x0030 31 2 [] else s) s
    let hit := s.host.descs.filter (fun d => decide (ringDie d.ring = hid) && decide (d.st = .running) && needsSteward d)
    let keys := hit.map (fun d => d.key)
    let s := forL hit (fun d s => s.abortDesc d.key 1) s
    let lostTrick := match s.tel.trick with
      | some t => match t.key with
        | some k => keys.contains k
        | none => true
      | none => false
    let s := if lostTrick then { (s.wr TEL_TRICK_STAT.BUSY 0).wr TEL_TRICK_NEXT.T 0 with tel := { s.tel with trick := none, shadow := [] } } else s
    .next { s with jx := { s.jx with bars := s.jx.bars.filter (fun b => !keys.contains b.key) } }

/-! ### Region managers -/

/-- Every 1 ms a region's manager sends its heartbeat to the other dies (R566): one that has missed 3 answers has a die fault (R567). Not sent: its dies
miss it. -/
def execManagerHeartbeatTimer (r : Nat) (sent : Bool) (s : State) : Res :=
  if 16 ≤ r || 4 ≤ s.rgnState r then .next s
  else if !sent then .next (s.updMgmt (fun m => { m with mgrMissed := Tab.upd 0 m.mgrMissed r (· + 1) }))
  else
    let m := s.managerDie r
    let n := Tab.get 0 s.mgmt.beats r
    let s := s.updMgmt (fun m => { m with beats := Tab.set 0 m.beats r ((n + 1) % 2 ^ 32) })
    .next (forN 9 (fun i s =>
      let d := regionDie r i
      if d = m || s.dieAbsent d then s
      else
        let k := Tab.get 0 s.mgmt.unanswered d
        let s := s.sendCtl 2 5 d 256 m 257 [0x10 + 2 ^ 8 + n % 2 ^ 32 * 2 ^ 16]
        let s := s.updMgmt (fun m => { m with unanswered := Tab.set 0 m.unanswered d (min 4 (k + 1)) })
        if k = 3 then s.sendFault m 257 0x14 d 1 0 else s) s)

/-- The next index after `i` among a region's dies in service, the lowest where none is above. -/
def State.nextManager (s : State) (r i : Nat) : Option Nat :=
  let l := (List.range 9).filter (fun j => decide (j ≠ i) && !s.dieAbsent (regionDie r j))
  match l.find? (fun j => decide (i < j)) with
  | some j => some j
  | none => l.head?

/-- A region takes a new manager: its check unit starts anew, and its messages go to it (R567, R629, R635). -/
def State.setManager (s : State) (r i : Nat) : State :=
  let s := (s.resetRegs (0x120000 + r * 0x100) (0x120000 + (r + 1) * 0x100)).wr (RGN_PWR_STAT.MANAGER r) i
  (s.newPair r).toSteward r 3 [3 + r * 2 ^ 8]

/-- A die that has come through its retry is in service again (R464, R550, R566): it starts, its links train and it holds panel time; the manager of a region is its
die of the lowest index in service. -/
def State.dieBack (s : State) (d : Nat) : State :=
  let s := ((s.wrBit (GLB_HOLE_DIE.HOLE (d / 32)) (d % 32) false).startDie d).rewriteDie d
  let (f, s) := s.drawMany
  let s := forN 9 (fun w s => if s.mayTrain d w then s.trainLink d w true [[max (s.rd GLB_LNK_CFG.TRAIN_EYE) (f (2 * w) % 64)]] [[max (s.rd GLB_LNK_CFG.TRAIN_EYE) (f (2 * w + 1) % 64)]] true true else s) s
  let s := ({ s with clk := { s.clk with untimed := Tab.set 0 s.clk.untimed d 0, good := Tab.set 0 s.clk.good d 4, ofs := Tab.set 0 s.clk.ofs d 0 } }).wr (CD_CLK_STAT.PT_LOCK d) 1
  let i := d / 12 % 3 * 3 + d % 12 % 3
  let r := regionOf d
  (if i < s.rd (RGN_PWR_STAT.MANAGER r) then s.setManager r i else s).countUnlocked

/-- The end of a die's retry (R550): it returns to service within 60 s, or is folded for life for the fault that it was retried for. -/
def execDieRetry (d : Nat) (ok : Bool) (tabs : List (Nat × List Byte)) (s : State) : Res :=
  let t := Tab.get 0 s.rcv.retry d
  if !isDie d || t = 0 || s.bit GLB_STW_STAT.LOST_BOTH then .next s
  else
    let s := (s.beginRecovery 2)
    let late := decide (t - 1 + 60000000000 < s.ptime)
    let code := Tab.get 0 s.rcv.retryCode d
    let s := { s with rcv := { s.rcv with retry := Tab.set 0 s.rcv.retry d 0 } }
    if ok && !late then
      .next ((((s.dieBack d).account.postPanel 0x0801 31 2 (leBytes 1 d ++ leBytes 1 code ++ leBytes 1 2)).changeTables noDie tabs).publish)
    else .next (((s.recordDieFold d code).account.postPanel 0x0801 31 2 (leBytes 1 d ++ leBytes 1 code ++ leBytes 1 0)).publish)

/-- 3 heartbeats of a manager missed: the die with the next index takes over, and the old manager's die has a die fault (R567). -/
def execManagerTakeover (r : Nat) (s : State) : Res :=
  if 16 ≤ r || 4 ≤ s.rgnState r || Tab.get 0 s.mgmt.mgrMissed r < 3 then .next s
  else
    let old := s.rd (RGN_PWR_STAT.MANAGER r)
    match s.nextManager r old with
    | none => .next s
    | some i =>
      let s := (s.updMgmt (fun m => { m with mgrMissed := Tab.set 0 m.mgrMissed r 0 })).setManager r i
      let s := s.postPanel 0x0805 31 1 (leBytes 1 r ++ leBytes 1 i)
      .next (s.sendFault (regionDie r i) 257 0x14 (regionDie r old) 1 0)

end Sys2Proof.Machine
end

