-- ==== Sys2Proof/Machine/Resets.lean ====
section
/-! DEFINITION. The rows of resets and start-up (R350, R351, R445, R494, R525 to R536, R546, R671). -/

namespace Sys2Proof.Machine

def State.updBoot (s : State) (f : Boot → Boot) : State := { s with boot := f s.boot }

/-! ### Power and the tray -/

/-- Every cartridge is off (R494, R525, R671); the panel stops. -/
def State.panelOff (s : State) : State :=
  forN 20 (fun n t => t.setCt n (b2n (decide (s.ct n ≠ 0)))) s.coldClear

/-- 48 V power-on, or the input's return after a cut-off (R494, R525, R532); with TRAY_RESET_N low the cold reset holds (R679). -/
def execPowerOn (b : BootTry) (s : State) : Res :=
  if s.boot.on then .next s
  else if s.boot.trayLow then .next (s.coldClear.updBoot (fun x => { x with on := true }))
  else .next ((s.coldStart 0x01 b).updBoot (fun x => { x with on := true }))

/-- TRAY_RESET_N is low for 10 µs (R525, R671): every cartridge off; a block reset in progress is abandoned (R546). -/
def execTrayReset (s : State) : Res := .next (s.panelOff.updBoot (fun x => { x with trayLow := true }))

/-- TRAY_RESET_N is released: start-up runs from step 1 (R532, R679). -/
def execTrayResetRelease (b : BootTry) (s : State) : Res :=
  if !s.boot.trayLow then .next s
  else
    let s := s.updBoot (fun x => { x with trayLow := false })
    .next (if s.boot.on then s.coldStart 0x02 b else s)

/-- Below 40 V, or above 60 V (R494), in units of 10 mV: the panel stops, and on return starts cold. -/
def execInputVCutoff (volt : Nat) (s : State) : Res :=
  if (4000 ≤ volt ∧ volt ≤ 6000) ∨ s.boot.on = false then .next s else .next (s.panelOff.updBoot (fun x => { x with on := false }))

/-! ### Warm reset, functions, endpoints -/

/-- RST_CTL.WARM (R525, R544). -/
def execWarmReset (src : Src) (v : W32) (b : BootTry) (s : State) : Res :=
  if !pfOrFw src || decide (v.toNat % 65536 ≠ 0x5752) || decide (s.rd RST_BOOT_STAT.STATE = 0) then .next s
  else .next (s.warmStart 0x03 b)

/-- FLR, and entering D3hot (R350); the function is in D3hot until a reset, or a write of the host that no command shows (log entry 101). -/
def execFlr (f : Nat) (s : State) : Res := .next (if decide (f < 16) && s.bit (HID_FN_ID.EN f) then s.flr f else s)
def execD3hotEntry (f : Nat) (s : State) : Res :=
  .next (if decide (f < 16) && s.bit (HID_FN_ID.EN f) then (s.flr f).updHost (fun h => { h with d3hot := Tab.set 0 h.d3hot f 1 }) else s)

/-- After a conventional reset the PF answers again, and firmware writes the default ring pair (R532, R542). -/
def State.endpointBack (s : State) (ep : Nat) : State :=
  if s.rd RST_BOOT_STAT.STATE = 0 then s
  else if s.rd RST_BOOT_STAT.STATE = 1 then (s.endpointUp ep).defaultRings ep
  else s.endpointUp ep

/-- PERSTn_N goes low (R351, R525, R546, R671). -/
def execPerst (ep : Nat) (s : State) : Res :=
  if 2 ≤ ep || Tab.get 0 s.host.inReset ep = 0 then .next s
  else .next ((s.endpointReset ep 0x04).updHost (fun h => { h with inReset := Tab.set 0 h.inReset ep 0, linkDown := Tab.set 0 h.linkDown ep 1 }))

/-- PERSTn_N is released (R542, R546): the endpoint leaves reset, once start-up has reached step 5. -/
def execPerstDeassertion (ep : Nat) (s : State) : Res :=
  if 2 ≤ ep || Tab.get 0 s.host.inReset ep = 1 then .next s
  else .next ((s.updHost (fun h => { h with inReset := Tab.set 0 h.inReset ep 1, linkDown := Tab.set 0 h.linkDown ep 0 })).endpointBack ep)

/-- An endpoint's link goes down (R351, R525). -/
def execPcieLinkDown (ep : Nat) (s : State) : Res :=
  if 2 ≤ ep || Tab.get 0 s.host.inReset ep = 0 then .next s
  else .next (((s.endpointReset ep 0x05).updHost (fun h => { h with linkDown := Tab.set 0 h.linkDown ep 1 })).endpointBack ep)

/-! ### Stewards -/

/-- RST_WDOG.KICK, by firmware alone (R529, R544). -/
def execWatchdogKick (src : Src) (sd : Nat) (s : State) : Res :=
  if !fwOnly src || 2 ≤ sd then .next s else .next (s.updBoot (fun x => { x with kick := Tab.set 0 x.kick sd s.ptime }))

/-- A steward's watchdog expires (R529, R682): the active's is a steward failure; the standby is reset and boots. -/
def execWatchdogExpiry (sd us : Nat) (s : State) : Res :=
  if 2 ≤ sd || s.bit GLB_STW_STAT.LOST_BOTH then .next s
  else if sd = s.sd then .next ((if s.bit GLB_STW_STAT.STANDBY_OK then s else s.noteOne (1 + sd) 0x06 true).takeover 1 us)
  else if s.key.sbyState = 2 then .next s
  else .next ((s.noteReset (1 + sd) 0x06 true).bootStandby)

/-! ### Block reset (R530) -/

/-- Partitions with placed cores where `gone` have their layers stopped, to be redone. -/
def State.restartLayers (s : State) (gone : Nat → Bool) : State :=
  forN 16 (fun p s => if (s.part p).run.isSome && (s.placedCores p).any gone then s.faultLayer p false else s) s

/-- A region is reset as in C6, and takes an ante to return (R488, R525, R530). -/
def State.resetRegionBlock (s : State) (r : Nat) : State :=
  if 4 ≤ s.rgnState r then s
  else
    let gone := fun (c : Nat) => decide (c < 36864) && decide (regionOf (coreDie c) = r)
    let s := ((s.resetRegion r).lostFor gone []).resetRegs (0x800000 + r * 0x40000) (0x800000 + (r + 1) * 0x40000)
    let s := ((s.wr (RGN_PWR_STAT.STATE r) 4).restartLayers gone).countUnlocked
    s.wantAnte r 0

/-- A die is reset (R525 cause 0x09, R655): it starts anew, and the steward writes its tables and maps again. -/
def State.resetDieBlock (s : State) (d : Nat) : State :=
  if s.dieAbsent d then s
  else
    let gone := fun (c : Nat) => decide (c < 36864) && decide (coreDie c = d)
    let s := (((s.resetDie d).lostFor gone []).startDie d).rewriteDie d
    (s.restartLayers gone).countUnlocked

/-- A hub is reset: what it holds is answered as by a hub out of service; its stacks keep their contents (R525, R527). -/
def State.resetHub (s : State) (k : Nat) : State :=
  if !s.bit (MH_HUB_STAT.INSERVICE k) then s
  else
    let s := (s.release (2 * k) (heldAnswer 8)).release (2 * k + 1) (heldAnswer 8)
    let s := { s with store := { s.store with readQ := Tab.set [] s.store.readQ k [] } }
    (s.resetRegs (0x200000 + k * 0x10000) (0x200000 + (k + 1) * 0x10000)).wr (MH_HUB_STAT.INSERVICE k) 1

/-- An engine is reset: its ports go dark and train again; its baselines come from the logbook (R367, R525). -/
def State.resetEngine (s : State) (k : Nat) : State :=
  if !s.bit (OE_STAT.INSERVICE k) then s
  else
    let lit := !s.bit (OE_STAT.DARK k)
    let cause := s.rd (OE_STAT.CAUSE k)
    let s := s.darken k 4
    let s := (s.resetRegs (0x400000 + k * 0x10000) (0x400000 + (k + 1) * 0x10000)).wr (OE_STAT.INSERVICE k) 1
    let s := s.loadBaselines
    if lit then s.lighten k else s.darken k cause

/-- A keyring is reset: its sessions and connections end (R525 cause 0x07, R604). -/
def State.resetKeyring (s : State) (sd : Nat) : State :=
  if sd ≠ s.sd then s
  else
    let s := s.dropRoles.updKey (fun k => { k with spdm := [] })
    forN 72 (fun n s => if s.sstate n = 1 then s.startAgree n else s) s

/-- A steward is reset. -/
def State.resetSteward (s : State) (sd : Nat) : State := if sd = s.sd then s.succeed 0 0 else s.bootStandby

/-- Step 3 of R530, and step 4: the block is reset, its cause is kept, and the block starts. -/
def State.blockAct (s : State) (scope cause : Nat) (forced : Bool) : State :=
  let s := s.updBoot (fun x => { x with idle := x.idle.filter (fun e => !within e.1 scope) })
  let s :=
    if inRange scope 1 2 then s.resetSteward (scope - 1)
    else if inRange scope 3 2 then (s.endpointClear (scope - 3)).endpointBack (scope - 3)
    else if inRange scope 5 16 then s.resetRegionBlock (scope - 5)
    else if inRange scope 21 144 then s.resetDieBlock (scope - 21)
    else if inRange scope 165 24 then s.resetHub (scope - 165)
    else if inRange scope 189 24 then s.resetEngine (scope - 189)
    else s.resetKeyring (scope - 213)
  if inRange scope 5 16 then s.noteRegionReset (scope - 5) cause forced else s.noteReset scope cause forced

/-- Step 1: the block's idle request is asserted. Within a wider reset it is discarded, and a narrower one gives way to it (R526). -/
def execBlockReset (scope cause : Nat) (s : State) : Res :=
  if scope = 0 || 215 ≤ scope || s.boot.idle.any (fun e => within scope e.1) then .next s
  else .next (s.updBoot (fun x => { x with idle := x.idle.filter (fun e => !within e.1 scope) ++ [(scope, cause % 256)] }))

/-- The block reports idle (R530 step 2). -/
def execBlockIdle (scope : Nat) (s : State) : Res :=
  match s.boot.idle.find? (fun e => decide (e.1 = scope)) with
  | some e => .next (s.blockAct scope e.2 false)
  | none => .next s

/-- RST_IDLE_CFG.TMO_US later the reset is forced (R530 step 3, R531). -/
def execBlockIdleTimeout (scope : Nat) (s : State) : Res :=
  match s.boot.idle.find? (fun e => decide (e.1 = scope)) with
  | some e => .next (s.blockAct scope e.2 true)
  | none => .next s

/-- Firmware resets a region, or a die, that is idle (R525). -/
def execRegionReset (r : Nat) (s : State) : Res := .next (if decide (r < 16) && decide (s.rgnState r < 4) then s.blockAct (5 + r) 0x08 false else s)
def execDieReset (d : Nat) (s : State) : Res := .next (if isDie d && !s.dieAbsent d then s.blockAct (21 + d) 0x09 false else s)

/-! ### The owner configuration, references -/

/-- The owner configuration is written to the logbook (R536). -/
def State.saveCfg (s : State) : State :=
  let s := { s with boot := { s.boot with saveDue := false } }
  if s.logOk then (s.logWrite 0x0B 0xFFFE s.ownerCfgBytes).wr RST_CTL.SAVED 1 else s

/-- RST_CTL.SAVE (R536): it waits while a segment request is applied (R546). -/
def execConfigSave (src : Src) (s : State) : Res :=
  if !pfOrFw src || s.bit GLB_STW_STAT.LOST_BOTH then .next s
  else if s.bit HID_SEG_APPLY.BUSY then .next { s with boot := { s.boot with saveDue := true } }
  else .next s.saveCfg

/-- Firmware applies the requests, or refuses them all (R230, R231, R319), when no partition whose access changes runs a layer; a save that waited follows
(R546). -/
def execSegApplyDone (s : State) : Res :=
  let saved := fun (s : State) => if s.boot.saveDue then s.saveCfg else s
  if !s.bit HID_SEG_APPLY.BUSY then .next s
  else
    match (List.range 48).find? (fun j => decide (s.rd (HID_SEG_REQ.MODE j) = 1) && s.pmode) with
    | some j => .next (saved (((s.wr HID_SEG_APPLY.BUSY 0).wr HID_SEG_APPLY.ERR 1).wr HID_SEG_APPLY.ERR_SEG j))
    | none =>
      if (List.range 16).any (fun p => s.bit (GLB_DLR_PART3.RUNNING p) && (List.range 48).any (fun j => s.segChanges p j)) then .next s
      else .next (saved (((forN 48 (fun j s => s.applySeg j) s).wr HID_SEG_APPLY.BUSY 0).wr HID_SEG_APPLY.APPLIED 1))

/-- A reference is good again after 100 ms in tolerance (R445): at a node without one it is taken; at a steward it ends the wait for a panel warm reset
(R447). -/
def execRefclkRestored (node : Nat) (b : Bool) (boot : BootTry) (s : State) : Res :=
  if 196 ≤ node || (isDie node && s.dieAbsent node) then .next s
  else
    let s := if s.clk.shun = b2n b + 1 then { s with clk := { s.clk with shun := 0 } } else s
    let s := s.setRef node b true
    let sel := decide (s.refSel node = 1)
    let s := if isDie node || s.refOk node sel then s else s.selRef node b
    if s.clk.warmDue && (decide (node = 157) || decide (node = 183)) then
      .next ((({ s with clk := { s.clk with warmDue := false } }).dropHolds (fun x => decide (x = 3))).warmStart 0x0E boot)
    else .next s

end Sys2Proof.Machine
end

