-- ==== Sys2Proof/Machine/Keyring.lean ====
section
/-! DEFINITION. The keyring's mailbox, zeroise and tamper, firmware staging and activation, ATTEST (R601 to R613, R618, R621 to R623, R627). -/

namespace Sys2Proof.Machine

/-! ### The mailbox (R623) -/

/-- The end of a mailbox command: STATUS, the indicator, BUSY, and with STATUS 0 the response. -/
def State.mboxDone (s : State) (q status : Nat) (rsp : List Byte) : State :=
  let s := ((s.wr (KEY_MBOX_CTL.STATUS q) status).wr (KEY_MBOX_CTL.APPROVED q) 1).wr (KEY_MBOX_CTL.BUSY q) 0
  let s := s.service true
  if status = 0 ∧ rsp ≠ [] then s.setWords (KEY_MBOX_RSP.DATA q) (ceilDiv rsp.length 4) rsp else s

/-- A mailbox command of function 8 q: none without a steward; FAILED where the keyring's self-tests failed or its keys are gone (R611, R613). -/
def State.mbox (s : State) (q : Nat) (f : State → State) : State :=
  if 2 ≤ q || !s.fnLive (8 * q) || s.bit GLB_STW_STAT.LOST_BOTH then s
  else if s.rd KEY_STAT.STATE = 0 then s.wr (KEY_MBOX_CTL.BUSY q) 1
  else if !s.keyReady then s.mboxDone q 6 []
  else f s

/-- Is a slot VALID and not REVOKED anywhere (R608)? -/
def State.owned (s : State) : Bool := (List.range 4).any (fun i => s.ownerOk i)

/-- AUTH_CHALLENGE (R604): 32 bytes of the DRBG. -/
def execAuthChallenge (q role : Nat) (s : State) : Res :=
  .next (s.mbox q (fun s =>
    if Tab.get 0 s.key.lock q ≠ 0 then s.mboxDone q 4 []
    else if role ≠ 1 ∧ role ≠ 2 then s.mboxDone q 2 []
    else
      let (v, s) := s.draw
      let c := leBytes 32 v
      (s.updKey (fun k => { k with chal := Tab.set [] k.chal q c, chalRole := Tab.set 0 k.chalRole q role })).mboxDone q 0 c))

/-- The public key that may answer for a role (R604): an owner key for either, an operator key for the operator role. -/
def State.authKey (s : State) (role keyid : Nat) : Option (List Byte) :=
  if inRange keyid 1 4 then (if s.ownerOk (keyid - 1) then some (s.ownerKey (keyid - 1)) else none)
  else if role = 1 then
    match Tab.get [] s.key.ops (keyid - 0x11) with
    | [] => none
    | k => some k
  else none

/-- AUTH_RESPONSE (R604): the signature covers the challenge, the function number and the role. Three failures within 60 s lock AUTH. -/
def execAuthResponse (q role keyid : Nat) (sig : List Byte) (s : State) : Res :=
  .next (s.mbox q (fun s =>
    if Tab.get 0 s.key.lock q ≠ 0 then s.mboxDone q 4 []
    else if (role ≠ 1 ∧ role ≠ 2) ∨ !(inRange keyid 1 4 || inRange keyid 0x11 4) then s.mboxDone q 2 []
    else
      let c := Tab.get [] s.key.chal q
      let ok := match s.authKey role keyid with
        | some key => decide (c ≠ []) && decide (Tab.get 0 s.key.chalRole q = role) && Config.verify key (c ++ leBytes 1 (8 * q) ++ leBytes 1 role) (sig.take 64)
        | none => false
      let s := s.updKey (fun k => { k with chal := Tab.set [] k.chal q [], chalRole := Tab.set 0 k.chalRole q 0 })
      if ok then (s.wr (KEY_MBOX_CTL.ROLE q) role).mboxDone q 0 (leBytes 1 role)
      else
        let l := (Tab.get [] s.key.fails q).filter (fun t => decide (s.ptime ≤ t + 60000000000)) ++ [s.ptime]
        let s := s.updKey (fun k => { k with fails := Tab.set [] k.fails q l })
        let s := if l.length < 3 then s
          else (s.updKey (fun k => { k with lock := Tab.set 0 k.lock q (s.ptime + 1) })).postPanel 0x0A04 31 1 (leBytes 1 (8 * q) ++ leBytes 1 1)
        s.mboxDone q 3 []))

/-- The lock of AUTH ends after 60 s (R604). -/
def execAuthLockExpiry (q : Nat) (s : State) : Res :=
  .next (if q < 2 ∧ Tab.get 0 s.key.lock q ≠ 0 ∧ Tab.get 0 s.key.lock q - 1 + 60000000000 ≤ s.ptime then s.updKey (fun k => { k with lock := Tab.set 0 k.lock q 0, fails := Tab.set [] k.fails q [] }) else s)

/-- AUTH_DROP (R604). -/
def execAuthDrop (q : Nat) (s : State) : Res := .next (s.mbox q (fun s => (s.dropRole q).mboxDone q 0 []))

/-- OWNER_ENROLL (R608): a slot is enrolled once in its life; the first key without a session. -/
def execOwnerEnroll (q slot : Nat) (key : List Byte) (s : State) : Res :=
  .next (s.mbox q (fun s =>
    if 4 ≤ slot then s.mboxDone q 2 []
    else if s.owned && decide (s.role q ≠ 2) then s.mboxDone q 3 []
    else if s.bit (KEY_OWNER.VALID slot) || s.bit (KEY_OWNER.REVOKED slot) then s.mboxDone q 2 []
    else
      let s := (s.setWords (KEY_OWNER_KEY.KEY slot) 8 (fixLen 32 key)).wr (KEY_OWNER.VALID slot) 1
      ((s.wr KEY_STAT.OWNED 1).ownerChanged 0 slot).mboxDone q 0 []))

/-- OWNER_REVOKE (R608): refused where it would leave no VALID slot. -/
def execOwnerRevoke (q slot : Nat) (s : State) : Res :=
  .next (s.mbox q (fun s =>
    if s.role q ≠ 2 then s.mboxDone q 3 []
    else if !s.ownerOk slot || !(List.range 4).any (fun i => decide (i ≠ slot) && s.ownerOk i) then s.mboxDone q 2 []
    else ((s.wr (KEY_OWNER.REVOKED slot) 1).ownerChanged 1 slot).mboxDone q 0 []))

/-- COSIGN_SET (R608, R627): a type verified without an owner signature becomes FAILED. -/
def execCosignSet (q : Nat) (s : State) : Res :=
  .next (s.mbox q (fun s =>
    if s.role q ≠ 2 then s.mboxDone q 3 []
    else if s.bit KEY_STAT.COSIGN then s.mboxDone q 0 []
    else
      let s := s.wr KEY_STAT.COSIGN 1
      let s := forN 2 (fun t s => if s.rd (KEY_FW_STAGE0.STATE t) = 2 && Tab.get 0 s.key.rootOnly t = 1 then s.setStage t 3 else s) s
      (s.ownerChanged 2 0).mboxDone q 0 []))

/-- OPERATOR_SET (R608, R623): a key of zeros clears the slot. -/
def execOperatorSet (q slot : Nat) (key : List Byte) (s : State) : Res :=
  .next (s.mbox q (fun s =>
    if s.role q ≠ 2 then s.mboxDone q 3 []
    else if 4 ≤ slot then s.mboxDone q 2 []
    else
      let k32 := fixLen 32 key
      let s := s.updKey (fun k => { k with ops := Tab.set [] k.ops slot (if k32.all (fun b => decide (b = 0)) then [] else k32) })
      (s.ownerChanged 3 slot).mboxDone q 0 []))

/-- SELFTEST (R611, R623): `failed` numbers the test that failed, 0 for none. -/
def execSelftest (q failed : Nat) (s : State) : Res :=
  .next (s.mbox q (fun s =>
    let s := s.mboxDone q 0 (leBytes 1 failed)
    if failed % 256 = 0 then s else (s.wr KEY_STAT.STATE 2).keySelftest s.sd (failed % 256)))

/-- A continuous health test of a keyring's entropy source fails (R611): ERROR. The spec numbers no test: a free value (log entry 4). -/
def execEntropyHealthTestFail (sd : Nat) (s : State) : Res :=
  if 2 ≤ sd then .next s
  else
    let (v, s) := s.draw
    let s := if sd = s.sd then s.wr KEY_STAT.STATE 2 else s.updKey (fun k => { k with sbyState := 2 })
    .next (s.keySelftest sd (v % 256))

/-! ### Zeroise and tamper (R612, R613) -/

/-- The keys that R605 clears, in both keyrings and in the engines; an activation in progress leaves the bank marked active as it was (R627). -/
def State.clearKeys (s : State) : State :=
  let bank := match s.rcv.update with
    | some u => forN 2 (fun sd t => Tab.upd 0 t (2 * sd + u.image) (fun b => 1 - b % 2)) s.key.bank
    | none => s.key.bank
  let s := (s.dropRoles.updKey (fun k => { k with ops := [], engKey := [], spdm := [], chunk := none, bank := bank })).updRcv (fun r => { r with update := none })
  let s := forN 72 (fun n s =>
    let s := s.updPort n (fun x => { x with agr := none, txKey := none, rxKey := none, txCtr := 0, rxCtr := 0 })
    if s.sealReq n then s.setSstate n 1 else s) s
  s.wr KEY_STAT.STATE 3

/-- After the panel warm reset that follows, engines that have light agree transport keys, and ports agree their keys, again (R602, R613). -/
def State.rekeyAll (s : State) : State :=
  let (f, s) := s.drawMany
  let s := forN 24 (fun k s => if s.bit (OE_STAT.DARK k) then s else s.updKey (fun x => { x with engKey := Tab.set 0 x.engKey k (f k + 1) })) s
  forN 72 (fun n s => if s.sstate n = 1 then s.startAgree n else s) s

/-- ZEROISE (R613). -/
def execZeroise (q : Nat) (b : BootTry) (s : State) : Res :=
  .next (s.mbox q (fun s =>
    if s.role q ≠ 2 then s.mboxDone q 3 []
    else
      let sd := s.sd
      ((s.clearKeys.warmStart 0x0D b).rekeyAll).postPanel 0x0A02 31 2 (leBytes 1 sd)))

/-- A keyring's supply, clock or temperature leaves its window, or its mesh breaks (R612): zeroised, and a panel warm reset; then KEY_TAMPER and its copy
in the logbook. -/
def execKeyringTamper (sd kind : Nat) (b : BootTry) (s : State) : Res :=
  if 2 ≤ sd || 4 ≤ kind then .next s
  else
    let s := (s.clearKeys.warmStart 0x0C b).rekeyAll
    let body := leBytes 1 sd ++ leBytes 1 kind
    let s := s.logWrite 0x0E 0xFFFE (evtBytes 0x0A01 31 2 0 (Tab.get 0 s.host.evtSeq 0) s.ptime body)
    .next (s.postPanel 0x0A01 31 2 body)

/-! ### Staging and activation (R621, R622) -/

/-- Does a recovery engine serve FW_STAGE and FW_ACTIVATE of the steward image (R533, R565, R622)? -/
def State.recovering (s : State) : Bool := s.bit GLB_STW_STAT.LOST_BOTH || decide (s.rd RST_BOOT_STAT.STATE = 2)

/-- Bytes staged of an image so far. -/
def State.stagedBytes (s : State) (t : Nat) : Nat := (Tab.get [] s.key.staged t).foldl (fun n e => n + (e.2 - e.1)) 0

/-- The status that R607 gives for the staged image, 0 where it passes; the recovery engine checks order 1 and the root signature (R622). -/
def State.stageStatus (s : State) (t : Nat) (l : List Byte) : Nat :=
  if s.recovering then (if !imgShape t imgMost l then 2 else if !imgRoot l then 6 else 0)
  else
    match s.imgFails t l with
    | none => 0
    | some 1 => 2
    | some 2 => 8
    | _ => 6

/-- The LAST chunk triggers R607 (R621). -/
def State.verifyStage (s : State) (key t : Nat) : State :=
  let n := s.stagedBytes t
  let l := (s.stagedImg t).getD []
  let st := s.stageStatus t l
  let s := s.service true
  if st = 0 then
    let s := ((s.setStage t 2).wr (KEY_FW_STAGE2.FWVER t) (imgVer l)).wr (KEY_FW_STAGE3.SVN t) (imgSvn l)
    let s := s.updKey (fun k => { k with rootOnly := Tab.set 0 k.rootOnly t (b2n (!s.imgOwner l)) })
    (s.postPanel 0x0A05 31 0 (leBytes 1 t ++ leBytes 1 0 ++ leBytes 2 0 ++ leBytes 4 (imgVer l))).finishDesc key 0 0 n 0
  else (s.setStage t 3).finishDesc key st (if st = 8 then 0 else 0xFF) 0 0

/-- FW_STAGE (R340, R621, R627); `data` is what host memory holds from SRC on. -/
def execFwStage (k : Nat) (data : List Byte) (s : State) : Res :=
  .next (s.runDesc k 0x60 (fun d s =>
    let t := d.f 192 2
    let n := d.f 128 25
    let off := d.f 160 32
    let busy := match s.rcv.update with
      | some u => decide (u.image = t)
      | none => false
    if imgMost < off + n then some (s.finishDesc k 2 20 0 0)
    else if busy then some (s.finishDesc k 1 0 0 0)
    else if data.length < n || (!s.recovering && !s.keyReady) then none
    else
      let s := (s.hostRead d.fn (d.f 64 64) n)
      let s := if off = 0 then s.stageEmpty t else s
      let a := s.stageBase t + off
      let (s, bad) := if s.recovering then (s.write a (data.take n), none) else s.storeWrite a (data.take n)
      if bad.isSome then some (s.finishDesc k 8 0 0 0)
      else
        let s := s.updKey (fun x => { x with staged := Tab.upd [] x.staged t (joinRange off (off + n)) })
        let s := (s.setStage t 1).wr (KEY_FW_STAGE1.BYTES t) (s.stagedBytes t)
        some (if d.f 200 1 = 1 then s.verifyStage k t else s.finishDesc k 0 0 (s.stagedBytes t) 0)))

/-- A start-up without failures, with the modules that stand in their sockets; ports train as their own commands say. -/
def State.plainBoot (s : State) : BootTry :=
  { fail0 := 0, fail1 := 0, done0 := 1, done1 := 1, hids := [], hidFw := List.replicate 2 (digest (Config.hidImage (s.bootImage s.sd 0))), badStacks := [], noSpare := [], regions := [], dies := [], links := [], compat := []
    mods := (List.range 12).map (fun k => Tab.get [] s.opt.modRec k), ports := []
    ms := (s.ptime - s.rd (RST_LAST_TIME.TIME 0)) / 1000000 }

/-- The state that a new active steward rebuilds after the loss of both (R565): fold map, no placement, no kernel, fresh tables. -/
def State.rebuild (s : State) : State :=
  let s := s.loadFolds
  let s := forL (s.cores.filter (fun e => e.2.fenced)) (fun e s => s.wrBit (GLB_FOLD_MAP.FOLDED (e.1 / 32)) (e.1 % 32) true) s
  let s := forN 16 (fun p s =>
    let s := ((s.unplace p).discardPart p).updPart p (fun _ => Part.reset)
    ((s.wr (GLB_DLR_PART3.STALE p) 1).wr (GLB_DLR_PART3.VALID p) 0).wr (GLB_DLR_PART3.RUNNING p) 0) s
  let s := ({ s with guards := [] }).updHost (fun h => { h with stwLost := [] })
  ((s.assume true).changeTables noDie []).account.publish

/-- FW_ACTIVATE of the steward image by a recovery engine (R565, R622): both stewards start from the image; without one that passes R607 the panel stays in
RECOVERY (R533). Before READY the start-up goes on. -/
def State.recoverStewards (s : State) (key : Nat) : State :=
  let able := fun (sd : Nat) => (s.imgFails 0 (s.bootImage sd 0)).isNone
  if !able 0 && !able 1 then (s.wr RST_BOOT_STAT.STATE 2).finishDesc key 8 0 0 0
  else
    let a := if able 0 then 0 else 1
    let b := s.plainBoot
    let b := { b with done0 := b2n (able 0), done1 := b2n (able 1) }
    let s := (((s.noteOne 1 0x0F true).noteOne 2 0x0F true).updRcv (fun r => { r with update := none })).keyringsUp b
    let s := (((s.finishDesc key 0 0 0 0).advanceSvn 0).logFirmware 0).stageEmpty 0
    if s.rd RST_BOOT_STAT.STEP ≠ 12 then
      s.startFrom a b (decide (s.rd (RST_LAST_CAUSE.CAUSE 0) = 1) || decide (s.rd (RST_LAST_CAUSE.CAUSE 0) = 2))
    else
      let s := ((s.electSteward a b).rebuild).wr RST_BOOT_STAT.STATE 1
      let s := if s.boot.lockDue then s.takeLock else s
      s.postPanel 0x0804 31 1 (leBytes 1 a)

/-- FW_ACTIVATE (R604, R621, R622, R627): the image goes into the inactive bank of both stewards, which becomes the active one, and R568 or R569 runs.
A chunk of the copy that still fails after its resends ends it with DATA_ERROR (R638). -/
def execFwActivate (k : FwStart) (s : State) : Res :=
  .next (s.runDesc k.key 0x61 (fun d s =>
    let t := d.f 64 2
    if s.recovering then
      (if s.rd (KEY_FW_STAGE0.STATE t) ≠ 2 then some (s.finishDesc k.key 2 8 0 0)
       else if k.bad then some ((s.flashBad t ((s.stagedImg t).getD [])).finishDesc k.key 8 0 0 0)
       else some ((s.flashBoth t ((s.stagedImg t).getD [])).recoverStewards k.key))
    else if !s.operator (.fn d.fn) then some (s.finishDesc k.key 6 0xFF 0 0)
    else if s.rcv.update.isSome || (decide (t = 0) && !s.bit GLB_STW_STAT.STANDBY_OK) then some (s.finishDesc k.key 1 0 0 0)
    else if s.rd (KEY_FW_STAGE0.STATE t) ≠ 2 then some (s.finishDesc k.key 2 8 0 0)
    else if !s.keyReady then none
    else if k.bad then some (((s.service true).flashBad t ((s.stagedImg t).getD [])).finishDesc k.key 8 0 0 0)
    else
      let s := (s.service true).flashBoth t ((s.stagedImg t).getD [])
      let s := s.updRcv (fun r => { r with update := some ⟨k.key, t, if t = 0 then 1 else 0, []⟩ })
      some (if t = 0 then (s.bootStandby).fwUpdate 0 1 else (s.fwUpdate 1 0).nextDie)))

/-- CHUNK_CRC at a region's manager (R187, R638): the CRC over the written copy, read back. -/
def atChunkCrc (image chunk crc : Nat) (chk : ChkFlit) (h : CtlHdr) (s : State) : Res :=
  let (s, ok) := s.judge h 6 [6 + image % 256 * 2 ^ 8 + chunk % 2 ^ 16 * 2 ^ 16, crc % 2 ^ 32] chk
  match ok, s.key.chunk with
  | true, some (c, d, _) =>
    if c ≠ chunk || regionOf d ≠ regionOf h.dnode || !isDie h.dnode then .next s
    else
      let good := b2n ((s.node d).hasChunk c && decide (crc = crc32c (s.node d).copied))
      .next (s.toSteward (regionOf d) 7 [7 + image % 256 * 2 ^ 8 + chunk % 2 ^ 16 * 2 ^ 16 + d * 2 ^ 32 + good * 2 ^ 40])
  | _, _ => .next s

/-- Does CHUNK_CRC wait for the rest of the chunk, which the bulk network is bringing (R187, R638)? -/
def chunkWaits (chunk : Nat) (h : CtlHdr) (s : State) : Bool :=
  match s.key.chunk with
  | some (c, d, _) => decide (c = chunk) && isDie h.dnode && decide (regionOf d = regionOf h.dnode) && !(s.node d).hasChunk c
  | none => false

/-- ChunkCrc as a packet of the control network (R156, R189). -/
def execChunkCrc (h : CtlHdr) (image chunk crc : Nat) (chk : ChkFlit) (s : State) : Res := atCtl h (chunkWaits chunk) (atChunkCrc image chunk crc chk) s

/-- A die's manager restarts on the new image (R569): management of its region passes on before the manager's own die does. -/
def State.restartDie (s : State) (d : Nat) : State :=
  let r := regionOf d
  let s := if s.managerDie r = d then
      match s.nextManager r (s.rd (RGN_PWR_STAT.MANAGER r)) with
      | some i => s.setManager r i
      | none => s
    else s
  s.dieHandled d true

/-- CHUNK_RESULT at the steward (R569, R638): the next chunk; a failed one again up to 3 times; a die's last chunk restarts its manager, for which the
message waits while a layer of the die's partition runs. -/
def atChunkResult (image chunk die : Nat) (ok : Bool) (chk : ChkFlit) (h : CtlHdr) (s : State) : Res :=
  let running := match s.partOfRegion (regionOf die) with
    | some p => (s.part p).run.isSome
    | none => false
  let last := decide (chunks (s.markedImage 1) ≤ chunk + 1)
  match s.key.chunk with
  | none => .next (s.judge h 7 [7 + image % 256 * 2 ^ 8 + chunk % 2 ^ 16 * 2 ^ 16 + die % 256 * 2 ^ 32 + b2n ok * 2 ^ 40] chk).1
  | some (c, d, tries) =>
    if c = chunk && d = die && ok && last && running then .next s
    else
      let (s, good) := s.judge h 7 [7 + image % 256 * 2 ^ 8 + chunk % 2 ^ 16 * 2 ^ 16 + die % 256 * 2 ^ 32 + b2n ok * 2 ^ 40] chk
      if !good || c ≠ chunk || d ≠ die then .next s
      else if ok then .next (if last then s.restartDie d else s.sendChunk d (c + 1) 0)
      else .next (if tries < 3 then s.sendChunk d c (tries + 1) else s.dieHandled d false)

/-- ChunkResult as a packet of the control network (R156, R189). -/
def execChunkResult (h : CtlHdr) (image chunk die : Nat) (ok : Bool) (chk : ChkFlit) (s : State) : Res := atCtl h noWait (atChunkResult image chunk die ok chk) s

/-! ### ATTEST (R618) -/

/-- The report, less its signature. -/
def State.report672 (s : State) (nonce : List Byte) (chainLen : Nat) : List Byte :=
  leBytes 4 0x41545352 ++ leBytes 1 1 ++ leBytes 1 s.sd ++ leBytes 1 (1 + 2 * b2n s.owned + 4 * s.rd KEY_STAT.COSIGN) ++ leBytes 1 8 ++
  leBytes 8 s.ptime ++ leBytes 8 Config.serial ++ leBytes 2 chainLen ++ List.replicate 6 0 ++ fixLen 32 nonce ++
  (List.range 8).flatMap (fun m => fixLen 64 (s.meas m)) ++ leBytes 4 (s.rd GLB_ID_FWVER.STEWARD) ++ leBytes 4 (s.rd GLB_ID_FWVER.DIEMGR) ++
  List.replicate 8 0 ++ leBytes 1 (s.otpIdx 0) ++ leBytes 1 (s.otpIdx 1) ++ List.replicate 14 0 ++ digest (Config.attCert s.sd (s.meas 1))

/-- ATTEST (R618). -/
def execAttest (k : Nat) (s : State) : Res :=
  .next (s.runDesc k 0x70 (fun d s =>
    let most := d.f 128 25
    if most < 736 then some (s.finishDesc k 2 16 0 0)
    else if !s.keyReady then none
    else
      let chain := Config.chain s.sd (s.meas 1)
      let with_ := decide (736 + chain.length ≤ most)
      let body := s.report672 ((d.raw.drop 20).take 32) (if with_ then chain.length else 0)
      let l := body ++ s.attSign body ++ (if with_ then chain else [])
      some (((s.service true).hostWrite d.fn (d.f 64 64) l).finishDesc k 0 0 l.length 0)))

end Sys2Proof.Machine
end

