-- ==== Sys2Proof/Machine/Spdm.lean ====
section
/-! DEFINITION. SPDM (R614 to R617), and the admission of guests (R434 to R436, R439). -/

namespace Sys2Proof.Machine

/-! ### SPDM -/

/-- A requester's connection: a PF's DOE mailbox, or a port. -/
def spdmKey : SpdmVia → Nat
  | .doe f => f
  | .jex n _ _ => 16 + n

/-- May a request be answered (R615): from a PF of a live endpoint, or from a panel in an enabled JX_RACC range with RD? -/
def State.spdmOpen (s : State) (via : SpdmVia) : Bool :=
  !s.bit GLB_STW_STAT.LOST_BOTH &&
  match via with
  | .doe f => isPf f && s.fnLive f
  | .jex n panel _ => decide (n < 72) && (List.range 16).any (fun i =>
      s.bit (JX_RACC1.EN i) && decide (s.rd (JX_RACC0.PLO i) ≤ panel) && decide (panel ≤ s.rd (JX_RACC0.PHI i)) && s.bit (JX_RACC1.RD i))

/-- An answer, and ERROR (the codes are the SPDM standard's: PRESUMED, log entry 15). -/
def State.spdmSay (s : State) (via : SpdmVia) (kind : Nat) (data : List Byte) : State := s.emit (.spdm via kind data)
def State.spdmErr (s : State) (via : SpdmVia) : State := s.spdmSay via 0x7F []

/-- The steward takes a request that has come by Jexlink from its inbox (R401, R615). -/
def State.spdmTake (s : State) (via : SpdmVia) : State :=
  match via with
  | .doe _ => s
  | .jex n panel xid => s.updKey (fun k => { k with inbox := removeFirst (fun m => decide (m.1 = n) && decide (m.2.1 = panel) && decide (m.2.2.1 = xid)) k.inbox })

/-- A request that needs the connection at a step at least, and a keyring in service. -/
def State.spdmReq (s : State) (via : SpdmVia) (step : Nat) (f : State → State) : State :=
  let s := s.spdmTake via
  if !s.spdmOpen via then s
  else if !s.keyReady || decide (Tab.get 0 s.key.spdm (spdmKey via) < step) then s.spdmErr via
  else f (s.service true)

/-- The connection of a requester reaches a step. -/
def State.spdmStep (s : State) (via : SpdmVia) (step : Nat) : State := s.updKey (fun k => { k with spdm := Tab.set 0 k.spdm (spdmKey via) step })

/-- The certificate chain of slot 0 (R605, R614). -/
def State.slot0 (s : State) : List Byte := Config.chain s.sd (s.meas 1)

/-- GET_VERSION: 1.3 (R614). -/
def execSpdmGetVersion (via : SpdmVia) (s : State) : Res :=
  .next (s.spdmReq via 0 (fun s => (s.spdmStep via 1).spdmSay via 0x04 (leBytes 2 0x1300)))

/-- GET_CAPABILITIES: CERT_CAP, CHAL_CAP, MEAS_CAP with signature; messages of 4,096 bytes at most (R614). -/
def execSpdmGetCapabilities (via : SpdmVia) (s : State) : Res :=
  .next (s.spdmReq via 1 (fun s => (s.spdmStep via 2).spdmSay via 0x61 (leBytes 4 0x16 ++ leBytes 4 4096)))

/-- NEGOTIATE_ALGORITHMS: Ed25519 and SHA-512, where the requester offers them (R614). -/
def execSpdmNegotiateAlgorithms (via : SpdmVia) (offers : Bool) (s : State) : Res :=
  .next (s.spdmReq via 2 (fun s =>
    if offers then (s.spdmStep via 3).spdmSay via 0x63 (leBytes 4 0x8 ++ leBytes 4 0x200 ++ leBytes 4 0x4) else s.spdmErr via))

/-- GET_DIGESTS: slot 0 alone (R614). -/
def execSpdmGetDigests (via : SpdmVia) (s : State) : Res := .next (s.spdmReq via 3 (fun s => s.spdmSay via 0x01 (leBytes 1 1 ++ digest s.slot0)))

/-- GET_CERTIFICATE: part of the chain of slot 0, in messages of 4,096 bytes at most (R614). -/
def execSpdmGetCertificate (via : SpdmVia) (slot off len : Nat) (s : State) : Res :=
  .next (s.spdmReq via 3 (fun s =>
    let c := s.slot0
    if slot ≠ 0 || c.length < off then s.spdmErr via
    else
      let part := (c.drop off).take (min len 4088)
      s.spdmSay via 0x02 (leBytes 2 part.length ++ leBytes 2 (c.length - off - part.length) ++ part)))

/-- CHALLENGE: the chain's digest, a nonce of the keyring, and a signature over the requester's nonce and the answer before it (R614). -/
def execSpdmChallenge (via : SpdmVia) (slot : Nat) (nonce : List Byte) (s : State) : Res :=
  .next (s.spdmReq via 3 (fun s =>
    if slot ≠ 0 then s.spdmErr via
    else
      let (v, s) := s.draw
      let body := digest s.slot0 ++ leBytes 32 v
      s.spdmSay via 0x03 (body ++ s.attSign (nonce ++ body))))

/-- A measurement block (R616): index, 0 for the immutable ROM and 1 for mutable firmware, the digest. -/
def State.measBlock (s : State) (i : Nat) : List Byte := leBytes 1 (i + 1) ++ leBytes 1 (b2n (decide (i ≠ 0))) ++ s.meas i

/-- GET_MEASUREMENTS (R616): index 0 asks how many there are, 0xFF for all eight. -/
def execSpdmGetMeasurements (via : SpdmVia) (idx : Nat) (signed : Bool) (nonce : List Byte) (s : State) : Res :=
  .next (s.spdmReq via 3 (fun s =>
    if !(decide (idx ≤ 8) || decide (idx = 0xFF)) then s.spdmErr via
    else
      let body := if idx = 0 then leBytes 1 8
        else if idx = 0xFF then (List.range 8).flatMap (fun i => s.measBlock i)
        else s.measBlock (idx - 1)
      if signed then
        let (v, s) := s.draw
        let body := body ++ leBytes 32 v
        s.spdmSay via 0x60 (body ++ s.attSign (nonce ++ body))
      else s.spdmSay via 0x60 body))

/-- The signed log read (R617): whole records as READ_LOG gives them to a PF, the next cursor, and a signature over the request and the answer. -/
def execSpdmVendorLogRead (via : SpdmVia) (cursor die kind maxlen : Nat) (req : List Byte) (s : State) : Res :=
  .next (s.spdmReq via 3 (fun s =>
    if 3900 < maxlen then s.spdmErr via
    else
      let x := takeRecords maxlen (s.mirror.filter (s.logMatch 0 die kind cursor))
      let next := match x.2 with
        | r :: _ => r.seq
        | [] => 0
      let body := x.1 ++ leBytes 8 next
      s.spdmSay via 0x7E (body ++ s.attSign (req ++ body))))

/-! ### Guest admission -/

/-- The capability structure's checks (R434). -/
def capOk (l : List Byte) : Bool :=
  decide (leField l 0 4 = 0x47534350) && decide (leField l 4 1 = 1) && decide (leField l 5 1 ≤ 2) && inRange (leField l 6 2) 1 1024 &&
  decide (leField l 16 4 % 4 = 0) && decide (0x200 ≤ leField l 16 4) && inRange (leField l 20 4) 64 65473 && inRange (leField l 24 1) 1 4 &&
  decide (leField l 25 1 = 0) && inRange (leField l 26 2) 128 3969 && decide (leField l 28 4 = 0)

/-- A window that GS_WIN enables (R436, R441). -/
def State.winOf (s : State) (g i : Nat) : GuestWin :=
  ⟨s.rd (GS_WIN_BASE.BASE g i), s.rd (GS_WIN_SIZE.SIZE g i), s.bit (GS_WIN_CTL.RD g i), s.bit (GS_WIN_CTL.WR g i)⟩
def State.winsOf (s : State) (g : Nat) : List GuestWin := ((List.range 8).filter (fun i => s.bit (GS_WIN_CTL.EN g i))).map (s.winOf g)

/-- May a window be opened (R436)? -/
def State.winOk (s : State) (g : Nat) (w : GuestWin) : Bool :=
  decide (w.base % 4096 = 0) && decide (w.size % 4096 = 0) && decide (0 < w.size) && s.inStore w.base w.size && !s.inFwArea w.base w.size &&
  decide (s.segOf w.base = s.segOf (w.base + w.size - 1)) && s.segOpen (s.rd (GS_CFG.PART g)) (s.segOf w.base)

/-- Is a guest's site powered (R435, R443)? -/
def State.sitePowered (s : State) (g : Nat) : Bool := Config.partG && bitOf Config.fitted g && decide (s.rd (PWR_CT_STAT.STATE (18 + g)) = 3)

/-- The admission of a guest from its current step on (R435, R439, R627): the capability is copied, the manifest verified and measured, the windows
opened. It waits while the keyring is in SELFTEST. -/
def execGuestAdmission (q : GuestTry) (s : State) : Res :=
  let g := q.g % 2
  let x := s.guest g
  if s.gstate g ≠ 1 || !s.sitePowered g || s.bit GLB_STW_STAT.LOST_BOTH || decide (s.rd KEY_STAT.STATE = 0) then .next s
  else if x.step ≤ 2 && !q.sideband then .next (s.guestFail g 2)
  else if x.step ≤ 3 && !q.mainband then .next (s.guestFail g 3)
  else
    let s := if x.step ≤ 3 then ((s.wr (GS_STAT.MODE g) (b2n q.compat)).wr (GS_STAT.RATE g) q.rate).wr (GS_STAT.X8 g) (b2n q.x8) else s
    if !capOk q.cap then .next (s.guestFail g 4)
    else
      let s := (s.setWords (GS_CAP.CAP g) 8 q.cap).service true
      let man := q.manifest
      if man.length ≠ leField q.cap 20 4 || !s.keyReady || (s.manifestFails (leField q.cap 8 8) man).isSome then .next (s.guestFail g 5)
      else
        let s := s.extendBoth (5 + g) (digest (imgHead man))
        let ws := s.winsOf g
        if leField q.cap 24 1 < ws.length || !ws.all (s.winOk g) then .next (s.guestFail g 6)
        else
          let s := s.setGuest g { Guest.reset with wins := ws, step := 6 }
          .next (((s.wr (GS_STAT.STATE g) 3).wr (GS_STAT.CAUSE g) 0).guestEvent g)

end Sys2Proof.Machine
end

