-- ==== Sys2Proof/Machine/Access.lean ====
section
/-! DEFINITION. Accesses to set-up space (R185, R313, R314, R643 to R661) and over the tray's I3C bus (R673): registers read as a whole, register
fields written under their access codes, and each write that has a row of its own handed to that row's meaning. -/

namespace Sys2Proof.Machine

/-! ### Reading -/

/-- A register's value as its fields hold it; a WO field reads zero (R8). -/
def State.regRaw (s : State) (row : RegRow) (ix : List Nat) (base : Nat) : Nat :=
  row.fields.foldl (fun t f => if f.acc = .wo then t else t + s.rd (f.fld ix) * 2 ^ ((f.fld ix).key - 8 * base)) 0

/-- The code of a slot's state (R31). -/
def taskCode : TaskSt → Nat
  | .empty => 0
  | .ready => 1
  | .running => 2
  | .waiting => 3
  | .trapped => 4
  | .done => 5

/-- CD_CORE_STATE (R85), which shows the core itself. -/
def State.coreStateWord (s : State) (c : Nat) : Nat :=
  let k := s.core c
  let t := fun i => taskCode (s.task c i).st
  t 0 + t 1 * 2 ^ 3 + t 2 * 2 ^ 6 + t 3 * 2 ^ 9 + b2n k.fenced * 2 ^ 12 + b2n k.doneArr * 2 ^ 13 + k.barPend % 256 * 2 ^ 16

/-- HID_FN_PARTS (R332): the enabled partitions that a function owns. -/
def State.partsOf (s : State) (f : Nat) : Nat :=
  (List.range 16).foldl (fun t p => t + b2n (s.bit (HID_PART.EN p) && decide (s.rd (HID_PART.OWNER p) = f)) * 2 ^ p) 0

/-- RGN_PWR_STAT.STATE as it reads while a CLAMP holds the region (R497). -/
def State.rgnShown (s : State) (r : Nat) : Nat :=
  if s.bit (RGN_PWR_STAT.CLAMPED r) then max (s.rgnState r) (s.net.clamp + 1) else s.rgnState r

/-- A register's value as it reads: from its fields, or for some registers from what they show (R85, R331, R332, R466, R497, R650). -/
def State.regValue (s : State) (row : RegRow) (ix : List Nat) (base : Nat) : Nat :=
  let raw := s.regRaw row ix base
  let i := ix.getD 0 0
  if row.base = 0x4 then raw + b2n Config.partG
  else if row.base = 0x8 then Config.serial % 2 ^ 64
  else if row.base = 0x14 then raw + (if Config.partG then Config.fitted % 4 else 0) * 2 ^ 24
  else if row.base = 0x10028 then s.partsOf i
  else if row.base = 0x2000C then
    if s.rd (RING_CFG.KIND i) = 0 then s.rd (RING_LINK.CQ i) + s.rd (RING_LINK.ARB i) * 2 ^ 12
    else s.rd (RING_LINK.VEC i) + s.rd (RING_LINK.CTHR i) * 2 ^ 16 + s.rd (RING_LINK.CTIME i) * 2 ^ 24
  else if row.base = 0xC0000 then s.ptime % 2 ^ 64
  else if row.base = 0x800000 then setBits raw 0 3 (s.rgnShown i)
  else if row.base = 0x1008000 then s.coreStateWord (256 * i + ix.getD 1 0)
  else raw

/-- The 4 bytes at an offset, a multiple of 4; offsets that no chapter defines read zero (R643, R646). -/
def State.regWord (s : State) (off : Nat) : Nat :=
  if 0x4000000 ≤ off then 0
  else
    match findReg regRows off with
    | some (row, ix, b) => bitsOf (s.regValue row ix (off - b)) (8 * b) 32
    | none => 0

/-- A read of 4 or 8 bytes (R645); a 4-byte read of CLK_PTIME's low word latches the high word (R466). -/
def State.regRead (s : State) (off n : Nat) : Nat × State :=
  if n = 8 then (s.regWord off + s.regWord (off + 4) * 2 ^ 32, s)
  else if off = 0xC0000 then (s.regWord off, { s with clk := { s.clk with ptHigh := s.ptime / 2 ^ 32 % 2 ^ 32 } })
  else if off = 0xC0004 then (s.clk.ptHigh, s)
  else (s.regWord off, s)

/-! ### Writing -/

/-- A written value under a field's range: (least, greatest, value stored below, value stored above). -/
def clampField (c : Option (Nat × Nat × Nat × Nat)) (v : Nat) : Nat :=
  match c with
  | some (lo, hi, below, above) => if v < lo then below else if hi < v then above else v
  | none => v

/-- A write of bits [lo, hi) of a register reaches one of its fields (R7, R8): `p` is the field's low bit, bit 0 of `v` is bit `lo`. -/
def State.writeField (s : State) (f : FieldRow) (ix : List Nat) (base lo hi v : Nat) (w1cOnly : Bool) : State :=
  let fld := f.fld ix
  let p := fld.key - 8 * base
  let a := max p lo
  let b := min (p + fld.w) hi
  if b ≤ a then s
  else
    let old := s.rd fld
    let bits := bitsOf v (a - lo) (b - a)
    match f.acc with
    | .rw => if w1cOnly then s else s.wr fld (clampField f.clamp (setBits old (a - p) (b - a) bits))
    | .rwl => if w1cOnly || s.locked then s else s.wr fld (clampField f.clamp (setBits old (a - p) (b - a) bits))
    | .w1c => s.wr fld (Nat.xor old (Nat.land old (setBits 0 (a - p) (b - a) bits)))
    | _ => s

/-- May the source write a register's fields (R648 and the chapters' own rules)? Function records are their function's or a PF's, ring records their
owner's (R320), a mailbox its PF's (R624). -/
def State.mayWrite (s : State) (src : Src) (row : RegRow) (ix : List Nat) : Bool :=
  let i := ix.getD 0 0
  match src with
  | .fw => true
  | .fn f =>
    if row.base = 0x10008 ∨ row.base = 0x10010 ∨ row.base = 0x10024 then ownFn src i
    else if row.base = 0x20000 ∨ row.base = 0x2000C then s.ownRing src i
    else if row.base = 0x101000 ∨ row.base = 0x101100 then decide (f = 8 * i)
    else
      match row.bar0 with
      | .none | .i3c => false
      | .pf | .w1cOnly => isPf f
      | .portOwner => s.ownsPort src i

/-- The state that a meaning answers with. -/
def after (s : State) (r : Res) : State :=
  match r with
  | .next t => t
  | _ => s

/-- Is the bit of a one-bit field set in the word written? -/
def hits (f : Field) (v : Nat) : Bool := bitOf v (f.key % 32)

/-- A mailbox request (R623): the command of its byte 0, with its fields. -/
def State.mboxSend (s : State) (q : Nat) : State :=
  if s.bit (KEY_MBOX_CTL.BUSY q) then s
  else
    let l := s.wordsOf (KEY_MBOX_REQ.DATA q) 64
    let b := fun i => leField l i 1
    if b 0 = 0x01 then after s (execAuthChallenge q (b 1) s)
    else if b 0 = 0x02 then after s (execAuthResponse q (b 1) (b 2) ((l.drop 64).take 64) s)
    else if b 0 = 0x03 then after s (execAuthDrop q s)
    else if b 0 = 0x10 then after s (execOwnerEnroll q (b 1) ((l.drop 32).take 32) s)
    else if b 0 = 0x11 then after s (execOwnerRevoke q (b 1) s)
    else if b 0 = 0x12 then after s (execCosignSet q s)
    else if b 0 = 0x13 then after s (execOperatorSet q (b 1) ((l.drop 32).take 32) s)
    else if b 0 = 0x20 ∧ b 1 = 0x5A ∧ b 2 = 0x5A then after s (execZeroise q s.plainBoot s)
    else if b 0 = 0x21 then
      let (v, s) := s.draw
      after s (execSelftest q (v % 256) s)
    else s.mbox q (fun s => s.mboxDone q 2 [])

/-- OE_PORT_CTLp (R377): EN where it changes, MINW, RETRAIN. -/
def State.portCtl (s : State) (src : Src) (n v : Nat) : State :=
  let f := OE_PORT_CTL.EN (portK n) (portP n)
  let on := hits f v
  let s := (s.wr (OE_PORT_CTL.MINW (portK n) (portP n)) (bitsOf v 2 2)).minwWritten n
  let s := if s.bit f = on then s else s.enablePort n on
  if bitOf v 1 then after s (execPortRetrainWrite src n s) else s

/-- A write of LOCK = 1 (R652 to R654, R661): at READY it takes effect, before it is held. BY and BY_FW name the first writer. -/
def State.lockWrite (s : State) (src : Src) (v : Nat) : State :=
  if !pfOrFw src || !bitOf v 0 || s.locked || s.boot.lockDue then s
  else
    let s := match src with
      | .fw => (s.wr SETUP_LOCK.BY 0).wr SETUP_LOCK.BY_FW 1
      | .fn f => (s.wr SETUP_LOCK.BY f).wr SETUP_LOCK.BY_FW 0
    if s.rd RST_BOOT_STAT.STATE = 1 ∧ s.bit GLB_STW_STAT.LOST_BOTH = false then s.takeLock
    else { s.wr SETUP_LOCK.PENDING 1 with boot := { s.boot with lockDue := true } }

/-- Registers whose writes are the meaning of a row, by the register's first offset: the source, the indexes and the value written. -/
def ownWrites : List (Nat × (Src → List Nat → Nat → State → State)) := [
  (0x10018, fun src ix v s => after s (execEvtEnable src (ix.getD 0 0) (BitVec.ofNat 32 v) s)),
  (0x1001C, fun src ix v s => after s (execEvtHeadWrite src (ix.getD 0 0) (BitVec.ofNat 32 v) s)),
  (0x11000, fun src ix v s => after s (execPartWrite src (ix.getD 0 0) (BitVec.ofNat 32 v) s)),
  (0x12100, fun src _ v s => after s (execSegApply src (BitVec.ofNat 32 v) s)),
  (0x20008, fun src ix v s =>
    if bitOf v 0 then after s (execRingEnable src (ix.getD 0 0) (BitVec.ofNat 32 v) s) else after s (execRingDisable src (ix.getD 0 0) (BitVec.ofNat 32 v) s)),
  (0x120004, fun src ix v s => after s (execCkuStart src (ix.getD 0 0) (BitVec.ofNat 32 v) s)),
  (0x120028, fun src ix v s => after s (execCkuDataWrite src (ix.getD 0 0) (BitVec.ofNat 64 v) s)),
  (0x140000, fun src _ v s => after s (execTelImgWrite src (BitVec.ofNat 64 v) s)),
  (0x380100, fun src ix v s => after s (execSegMapWrite src (ix.getD 0 0) (BitVec.ofNat 32 v) s)),
  (0x381010, fun src ix v s => after s (execRxaEnable src (ix.getD 0 0) (BitVec.ofNat 32 v) s)),
  (0x381018, fun src ix v s => after s (execRxaRdWrite src (ix.getD 0 0) (BitVec.ofNat 32 v) s)),
  (0x400020, fun src ix v s => if pfOrFw src then s.portCtl src (3 * ix.getD 0 0 + ix.getD 1 0) v else s),
  (0x404010, fun src ix v s => after s (execSealReqWrite src (3 * ix.getD 0 0 + ix.getD 1 0) (BitVec.ofNat 32 v) s)),
  (0x580000, fun src ix v s => after s (execJxRtWrite src (ix.getD 0 0) (BitVec.ofNat 32 v) s)),
  (0x5E0000, fun src _ v s => after s (execJxSelfWrite src (BitVec.ofNat 32 v) s)),
  (0x5E0020, fun src ix v s => after s (execJxAliasWrite src (ix.getD 0 0) (BitVec.ofNat 32 v) s)),
  (0x1008004, fun src ix v s => if fwOnly src && bitOf v 7 then after s (execTrapValidClear (256 * ix.getD 0 0 + ix.getD 1 0) s) else s),
  (0x1009100, fun src ix v s => after s (execClusterFloorWrite src (ix.getD 0 0) (ix.getD 1 0) (BitVec.ofNat 32 v) s)),
  (0x100A000, fun src ix v s =>
    if pfOrFw src then after s (execSpLinmapWrite (256 * ix.getD 0 0 + ix.getD 1 0) (ix.getD 2 0) (BitVec.ofNat 32 v) s) else s),
  (0x100D504, fun src ix v s =>
    let d := ix.getD 0 0
    let w := ix.getD 1 0
    let s := after s (execForceCompatWrite src d w (BitVec.ofNat 32 v) s)
    if hits (CD_LNK_CTL.RETRAIN d w) v then after s (execLinkRetrainWrite src d w s) else s),
  (0x3000000, fun src _ v s => s.lockWrite src v)]

/-- Registers with WO bits whose writes act, once the other fields are written: each bit's own row has the rights. -/
def actWrites : List (Nat × (Src → List Nat → Nat → State → State)) := [
  (0x80104, fun src ix v s =>
    let n := ix.getD 0 0
    let s := if bitOf v 0 then after s (execCtSwapReq src n s) else s
    let s := if bitOf v 1 then after s (execCtSwapCancel src n s) else s
    if bitOf v 2 then after s (execFuseRetry src n s) else s),
  (0xA0018, fun src _ v s => after s (execTripClrWrite src (BitVec.ofNat 32 v) s)),
  (0xE0000, fun src _ v s =>
    let s := if bitOf v 16 then after s (execConfigSave src s) else s
    after s (execWarmReset src (BitVec.ofNat 32 v) s.plainBoot s)),
  (0xE000C, fun src _ v s => if bitOf v 0 then after s (execWatchdogKick src s.sd s) else s),
  (0x101000, fun src ix v s =>
    if bitOf v 0 && (decide (src = .fw) || decide (src = .fn (8 * ix.getD 0 0))) then s.mboxSend (ix.getD 0 0) else s),
  (0x120038, fun src ix v s => after s (execCkuClr src (ix.getD 0 0) (BitVec.ofNat 32 v) s)),
  (0x200020, fun src ix v s => if hits (MH_ERR_STAT.CE_CLR (ix.getD 0 0)) v then after s (execHubCeClr src (ix.getD 0 0) s) else s),
  (0x380000, fun src _ v s => if hits MH_STORE_CFG.INIT v then after s (execStoreInit src s) else s),
  (0x380320, fun src _ v s => if hits MH_RECON_CTL.START v then after s (execReconStart src s) else s),
  (0x400108, fun src ix v s =>
    if bitOf v 0 then
      let (g, s) := s.draw
      after s (execLaneRetest src (ix.getD 0 0) (ix.getD 1 0) (decide (g % 2 = 1)) s)
    else s),
  (0x400608, fun src ix v s => after s (execBaselineWrite src (ix.getD 0 0) (BitVec.ofNat 32 v) s)),
  (0x5C0004, fun src ix v s =>
    let s := if bitOf v 0 then after s (execElsSwapReq src (ix.getD 0 0) s) else s
    if bitOf v 1 then after s (execElsSwapCancel src (ix.getD 0 0) s) else s),
  (0x1000074, fun src ix v s => after s (execHlthClr src (ix.getD 0 0) (some (ix.getD 1 0)) (BitVec.ofNat 32 v) s)),
  (0x100CC34, fun src ix v s => after s (execHlthClr src (ix.getD 0 0) none (BitVec.ofNat 32 v) s)),
  (0x1009400, fun src ix v s =>
    if fwOnly src && bitOf v 24 then s.wr (CD_CLK_RPL.MIN (ix.getD 0 0) (ix.getD 1 0)) 0x3F else s),
  (0x100A01C, fun src ix v s =>
    if pfOrFw src && hits (CD_SP_STAT.CE_CLR (ix.getD 0 0) (ix.getD 1 0)) v then after s (execSpCeClr (256 * ix.getD 0 0 + ix.getD 1 0) s) else s),
  (0x100D000, fun src ix v s => if fwOnly src && bitOf v 1 then after s (execRtFlipArm (ix.getD 0 0) s) else s),
  (0x2000004, fun src ix v s =>
    let g := ix.getD 0 0
    let s := if pfOrFw src && bitOf v 0 && Config.partG && bitOf Config.fitted g && decide (s.ct (18 + g) = 3) then s.guestTrain g 1 else s
    if bitOf v 1 then after s (execMboxGo src g s) else s)]

/-- Does a register keep its value for now: a ring's while it is enabled (R326), a check unit's while it is BUSY (R641), the mailbox of a guest that is not ADMITTED
(R437, R438)? -/
def State.heldReg (s : State) (base i : Nat) : Bool :=
  ((decide (base = 0x20000) || decide (base = 0x2000C)) && s.bit (RING_CFG.EN i)) ||
  (inRange base 0x120000 0x30 && s.bit (CKU_STAT.BUSY i)) || (decide (base = 0x2000100) && decide (s.gstate i ≠ 3))

/-- RING_LINK has fields by the ring's KIND (R331). -/
def State.ringLink (s : State) (r v : Nat) : State :=
  if s.rd (RING_CFG.KIND r) = 0 then (s.wr (RING_LINK.CQ r) (bitsOf v 0 12)).wr (RING_LINK.ARB r) (bitsOf v 12 4)
  else ((s.wr (RING_LINK.VEC r) (bitsOf v 0 11)).wr (RING_LINK.CTHR r) (bitsOf v 16 8)).wr (RING_LINK.CTIME r) (bitsOf v 24 8)

/-- A write of `n` bytes at byte `b` of one register. -/
def State.regWriteIn (s : State) (src : Src) (row : RegRow) (ix : List Nat) (base b n v : Nat) : State :=
  let i := ix.getD 0 0
  let whole := setBits (s.regRaw row ix base) (8 * b) (8 * n) v
  if s.heldReg row.base i then s
  else
    match ownWrites.find? (fun e => decide (e.1 = row.base)) with
    | some e => e.2 src ix whole s
    | none =>
      let only := decide (row.bar0 = .w1cOnly) && decide (src ≠ .fw)
      let s :=
        if !s.mayWrite src row ix then s
        else if row.base = 0x2000C then s.ringLink i v
        else row.fields.foldl (fun s f => s.writeField f ix base (8 * b) (8 * b + 8 * n) v only) s
      match actWrites.find? (fun e => decide (e.1 = row.base)) with
      | some e => e.2 src ix whole s
      | none => s

/-- A write of 4 or 8 bytes (R645, R646): an 8-byte write of an 8-byte register is one unit, over two registers one after the other. -/
def State.regWrite (s : State) (src : Src) (off n v : Nat) : State :=
  if 0x4000000 ≤ off then s
  else
    match findReg regRows off with
    | some (row, ix, b) =>
      if n = 8 ∧ row.bytes - b < 8 then
        let s := s.regWriteIn src row ix (off - b) b 4 (v % 2 ^ 32)
        match findReg regRows (off + 4) with
        | some (r2, ix2, b2) => s.regWriteIn src r2 ix2 (off + 4 - b2) b2 4 (v / 2 ^ 32)
        | none => s
      else s.regWriteIn src row ix (off - b) b n v
    | none =>
      if n = 8 then
        match findReg regRows (off + 4) with
        | some (r2, ix2, b2) => s.regWriteIn src r2 ix2 (off + 4 - b2) b2 4 (v / 2 ^ 32)
        | none => s
      else s

/-! ### Firmware (R185, R644) -/

/-- Is the unit that owns an offset off, a hole or not fitted (R185)? -/
def State.ownerAbsent (s : State) (off : Nat) : Bool :=
  if inRange off 0x1000000 0x900000 then s.dieAbsent ((off - 0x1000000) / 0x10000)
  else if inRange off 0x200000 0x180000 then decide (s.ct (16 + (off - 0x200000) / 0x10000 / 12) ≠ 3)
  else if inRange off 0x400000 0x180000 then decide (s.ct (18 + (off - 0x400000) / 0x10000 / 12) ≠ 3)
  else if inRange off 0x2000000 0x20000 then
    let g := (off - 0x2000000) / 0x10000
    !Config.partG || !bitOf Config.fitted g || decide (s.ct (18 + g) ≠ 3)
  else false

/-- May an agent send SETUP (R185): the firmware agents, at most 16 outstanding; a broadcast only the stewards' (R189)? -/
def State.maySetup (s : State) (h : CtlHdr) : Bool :=
  let mine := (s.node h.snode).setups.filter (fun k => decide (k / 256 = h.slocal))
  decide (256 ≤ h.slocal) && decide (h.slocal ≤ 260) && decide (h.slocal ≠ 259) && decide (mine.length < 16) && !mine.contains (h.slocal * 256 + h.msgid) &&
    (!h.bcast || decide (h.snode = 157) || decide (h.snode = 183))

/-- A set-up access packet (R185): the block performs it and answers; ABSENT and MALFORMED have no effect. -/
def atSetup (off : Nat) (wr size8 : Bool) (data : Nat) (rsv : Bool) (h : CtlHdr) (s : State) : Res :=
  if !s.maySetup h then .next s
  else
    let n := if size8 then 8 else 4
    let s := s.updNode h.snode (fun x => { x with setups := x.setups ++ [h.slocal * 256 + h.msgid] })
    let answer := fun (flits : List Nat) (s : State) => s.ctlOut (ctlHdr 6 5 h.snode h.slocal h.dnode h.dlocal flits.length h.msgid) flits
    if rsv || decide (off % n ≠ 0) || decide (0x4000000 ≤ off) || (wr && !size8 && decide (2 ^ 32 ≤ data)) then .next (answer [2] s)
    else if s.ownerAbsent off || !s.nodeOn h.dnode then .next (answer [1] s)
    else if wr then .next (answer [0] (s.regWrite .fw off n data))
    else
      let (v, s) := s.regRead off n
      .next (answer [0, v] s)

/-- SETUP as a packet of the control network (R156, R189). Where its node is off, what leads to it answers ABSENT (R185). -/
def execSetup (h : CtlHdr) (off : Nat) (wr size8 : Bool) (data : Nat) (rsv : Bool) (s : State) : Res :=
  if !h.bcast && !s.nodeOn h.dnode then atSetup off wr size8 data rsv h (s.ctlTook h) else atCtl h noWait (atSetup off wr size8 data rsv) s

/-- The answer reaches its requester, whose access is no longer outstanding (R185). -/
def atSetupRsp (_status _data : Nat) (h : CtlHdr) (s : State) : Res :=
  .next (s.updNode h.dnode (fun x => { x with setups := x.setups.filter (fun k => decide (k ≠ h.dlocal * 256 + h.msgid)) }))

/-- SetupRsp as a packet of the control network (R156, R189). -/
def execSetupRsp (h : CtlHdr) (_status _data : Nat) (s : State) : Res := atCtl h noWait (atSetupRsp _status _data) s

/-! ### BAR0 (R313, R314, R532, R544) -/

/-- Does a function answer at its BARs: enabled, its endpoint out of reset and powered? -/
def State.bar0Up (s : State) (f : Nat) : Bool :=
  decide (f < 16) && s.bit (HID_FN_ID.EN f) && decide (Tab.get 0 s.host.inReset (epOf f) = 1) && s.boot.on && !s.boot.trayLow

/-- Does an endpoint show the minimal state alone (R532, R544, R610)? -/
def State.minimalAt (s : State) (ep : Nat) : Bool :=
  (decide (s.rd RST_BOOT_STAT.STATE ≠ 1) && decide (s.rd RST_BOOT_STAT.STATE ≠ 2)) || decide (Tab.get 0 s.boot.minimal ep = 1)

/-- The blocks of the minimal state: identity, reset, global. -/
def minimalBlock (off : Nat) : Bool := inRange off 0 0x10000 || inRange off 0xE0000 0x20000 || inRange off 0x3000000 0x1000000

/-- The reserved ranges of the map (R643). -/
def reservedOff (off : Nat) : Bool :=
  inRange off 0x600000 0x200000 || inRange off 0xC00000 0x400000 || inRange off 0x1900000 0x700000 || inRange off 0x2020000 0xFE0000

/-- What a function's BAR0 shows (R314). -/
def State.bar0Sees (s : State) (f off : Nat) : Bool :=
  isPf f || inRange off 0 0x10000 || inRange off (0x10000 + 0x100 * f) 0x100 ||
  (inRange off 0x20000 0x20000 && decide (s.rd (RING_CFG.FUNC ((off - 0x20000) / 0x20)) = f)) ||
  (inRange off 0x11000 0x100 && decide (s.rd (HID_PART.OWNER ((off - 0x11000) / 0x10)) = f)) ||
  inRange off 0x40000 0x8000 || inRange off 0x48000 0x100

/-- The 4 bytes at an offset of the function's own MSI-X table or PBA (R330, R349). -/
def State.msixAt (s : State) (f off : Nat) : Nat :=
  if inRange off 0x40000 0x8000 then s.msixWord f ((off - 0x40000) / 16) ((off - 0x40000) / 4 % 4)
  else (List.range 32).foldl (fun t i => t + Tab.get 0 s.host.pba (2048 * f + 8 * (off - 0x48000) + i) * 2 ^ i) 0

/-- A word of the MSI-X table is written (R349): an entry unmasked with its pending bit set sends its message. -/
def State.msixPut (s : State) (f off v : Nat) : State :=
  if !inRange off 0x40000 0x8000 then s
  else
    let e := (off - 0x40000) / 16
    let w := (off - 0x40000) / 4 % 4
    let x := if w = 3 then Nat.xor (v % 2) 1 else v % 2 ^ 32
    let s := s.updHost (fun h => { h with msix := Tab.set 0 h.msix (8192 * f + 4 * e + w) x })
    if w = 3 ∧ v % 2 = 0 ∧ Tab.get 0 s.host.pba (2048 * f + e) = 1 ∧ Tab.get 0 s.host.fnMask f = 0 ∧ Tab.get 0 s.host.msixOff f = 0 then
      (s.updHost (fun h => { h with pba := Tab.set 0 h.pba (2048 * f + e) 0 })).msix f e
    else s

/-- Does an offset lie in the MSI-X table or PBA of the accessing function? -/
def msixOff (off : Nat) : Bool := inRange off 0x40000 0x8000 || inRange off 0x48000 0x100

/-- A read through BAR0; a register of a compute die that is off or a hole has no stated value (log entry 4). -/
def State.bar0Read (s : State) (f off n : Nat) : Nat × State :=
  if s.minimalAt (epOf f) && !minimalBlock off then (0, s)
  else if !s.bar0Sees f off then (0, s)
  else if msixOff off then (s.msixAt f off + (if n = 8 then s.msixAt f (off + 4) * 2 ^ 32 else 0), s)
  else if inRange off 0x1000000 0x900000 && s.ownerAbsent off then
    let (v, s) := s.draw
    (v % 2 ^ (8 * n), s)
  else s.regRead off n

/-- A write through BAR0. -/
def State.bar0Write (s : State) (f off n v : Nat) : State :=
  if s.minimalAt (epOf f) && !minimalBlock off then s
  else if reservedOff off then s
  else if !s.bar0Sees f off then s.wr (HID_FN_ERR.BAR0_DENIED f) 1
  else if msixOff off then
    let s := s.msixPut f off (v % 2 ^ 32)
    if n = 8 then s.msixPut f (off + 4) (v / 2 ^ 32) else s
  else if s.ownerAbsent off then s
  else s.regWrite (.fn f) off n v

/-- An access through BAR0 (R313): naturally aligned, of 4 or 8 bytes; any other write is discarded, any other read returns all ones. -/
def execBar0Access (f off n : Nat) (data : Option Nat) (s : State) : Res :=
  if !s.bar0Up f || decide (0x4000000 ≤ off) then .next s
  else if (n ≠ 4 ∧ n ≠ 8) ∨ off % n ≠ 0 then
    .next (if data.isSome then s else s.emit (.readData (.fn f) (allOnes (8 * n)) n false))
  else
    match data with
    | some v => .next (s.bar0Write f off n v)
    | none =>
      let (v, s) := s.bar0Read f off n
      .next (s.emit (.readData (.fn f) v n false))

/-- A write of register fields (R648) by firmware or by a function. -/
def execRegisterWrite (src : Src) (off n v : Nat) (s : State) : Res :=
  if (n ≠ 4 ∧ n ≠ 8) ∨ off % n ≠ 0 then .next s
  else
    match src with
    | .fw => .next (if s.ownerAbsent off then s else s.regWrite .fw off n v)
    | .fn f => .next (if s.bar0Up f then s.bar0Write f off n v else s)

/-- A write of SETUP_LOCK (R652 to R654, R661). -/
def execSetupLockWrite (src : Src) (v : W32) (s : State) : Res := .next (s.lockWrite src v.toNat)

/-! ### The tray (R673, R679) -/

/-- The tray takes the I3C bus, and gives it back (R673). -/
def execI3cRoleRequest (s : State) : Res :=
  .next (if !s.boot.on || s.bit GLB_STW_STAT.LOST_BOTH then s else s.updBoot (fun x => { x with tray := true }))
def execI3cTakeBack (s : State) : Res := .next (s.updBoot (fun x => { x with tray := false }))

/-- Does target 0x5A read a block: identity, power, thermal, reset, laser sources (R673)? -/
def trayReads (off : Nat) : Bool :=
  inRange off 0 0x10000 || inRange off 0x80000 0x40000 || inRange off 0xE0000 0x20000 || inRange off 0x5C0000 0x20000

/-- May the tray write a register: PWR_CT_CTLn or OE_ELS_CTL (R673)? -/
def trayWrites (off : Nat) : Bool :=
  match findReg regRows off with
  | some (row, _, b) => decide (b = 0) && (decide (row.base = 0x80104) || decide (row.base = 0x5C0004))
  | none => false

/-- The tray addresses 0x5A while it holds the bus (R673, R679); `none` a private read. A read at any other offset has no stated value (log entry 4). -/
def execTrayI3cAccess (wr : Option (List Byte)) (s : State) : Res :=
  if !s.boot.tray || !s.boot.on || s.bit GLB_STW_STAT.LOST_BOTH then .next s
  else
    match wr with
    | none =>
      let o := s.boot.i3cOfs
      if trayReads o && decide (o % 4 = 0) then
        let (v, s) := s.regRead o 4
        .next (s.emit (.i3c (leBytes 4 v)))
      else
        let (v, s) := s.draw
        .next (s.emit (.i3c (leBytes 4 v)))
    | some l =>
      if l.length = 4 then .next (s.updBoot (fun x => { x with i3cOfs := leNat l }))
      else if l.length = 8 then
        let o := leNat (l.take 4)
        let s := s.updBoot (fun x => { x with i3cOfs := o })
        .next (if trayWrites o then s.regWrite .fw o 4 (leNat (l.drop 4)) else s)
      else .next s

end Sys2Proof.Machine
end

