-- ==== Sys2Proof/Machine/Branch.lean ====
section
/-! DEFINITION. Branches, jumps and the hardware loop (R47, R57, R681). -/

namespace Sys2Proof.Machine

/-- The target PC + IMM16 × 4 as a signed integer (R57, R681). -/
def Task.branchTo (t : Task) (imm : BitVec 16) : Int := t.pc.toNat + imm.toInt * 4

/-- A branch on `p` of g[RD] and g[RA] (R57). -/
def branchIf (c : Nat) (rd ra : BitVec 5) (imm : BitVec 16) (p : W32 → W32 → Bool) (s : State) : Res :=
  .next (s.runInstr c 4 (fun _ => none) (fun i s =>
    let t := s.task c i
    if p (t.rg rd) (t.rg ra) then .jump s (t.branchTo imm) else .go s))

/-- BEQ (R57). -/
def execBeq (c : Nat) (rd ra : BitVec 5) (imm : BitVec 16) (s : State) : Res := branchIf c rd ra imm (fun x y => decide (x = y)) s

/-- BNE (R57). -/
def execBne (c : Nat) (rd ra : BitVec 5) (imm : BitVec 16) (s : State) : Res := branchIf c rd ra imm (fun x y => decide (x ≠ y)) s

/-- BLT (R57). -/
def execBlt (c : Nat) (rd ra : BitVec 5) (imm : BitVec 16) (s : State) : Res := branchIf c rd ra imm (fun x y => x.slt y) s

/-- BGE (R57). -/
def execBge (c : Nat) (rd ra : BitVec 5) (imm : BitVec 16) (s : State) : Res := branchIf c rd ra imm (fun x y => !x.slt y) s

/-- BLTU (R57). -/
def execBltu (c : Nat) (rd ra : BitVec 5) (imm : BitVec 16) (s : State) : Res := branchIf c rd ra imm (fun x y => x.ult y) s

/-- BGEU (R57). -/
def execBgeu (c : Nat) (rd ra : BitVec 5) (imm : BitVec 16) (s : State) : Res := branchIf c rd ra imm (fun x y => !x.ult y) s

/-- JAL (R57, R681): g[RD] takes PC + 4; RA must be zero. -/
def execJal (c : Nat) (rd ra : BitVec 5) (imm : BitVec 16) (s : State) : Res :=
  .next (s.runInstr c 4 (fun _ => firstBad [(decide (ra ≠ 0), illegal 2)]) (fun i s =>
    let t := s.task c i
    .jump (s.updTask c i (fun t => t.wg rd (BitVec.ofNat 32 (t.pc.toNat + 4)))) (t.branchTo imm)))

/-- JALR (R56, R681): to the value of g[RA], which must be a multiple of 4; g[RD] takes PC + 4. -/
def execJalr (c : Nat) (rd ra rb : BitVec 5) (s : State) : Res :=
  let _ := rb
  .next (s.runInstr c 4 (fun t => firstBad [(decide ((t.rg ra).toNat % 4 ≠ 0), illegal 6)]) (fun i s =>
    let t := s.task c i
    .jump (s.updTask c i (fun t => t.wg rd (BitVec.ofNat 32 (t.pc.toNat + 4)))) (t.rg ra).toNat))

/-- A byte of code as fetch sees it: from the loop buffer where its line is there, else from the scratchpad (R46). -/
def State.codeByte (s : State) (c a : Nat) : Nat :=
  match (s.core c).lbuf.find? (fun e => decide (e.1 = a / 64 * 64)) with
  | some e => e.2.toNat / 2 ^ (8 * (a % 64)) % 256
  | none => (s.byte (winBase c + a)).toNat

/-- The offset after `n` instructions from offset `o` of a window at `base`: opcodes 0x30 to 0x37 take 8 bytes (R45). -/
def State.after (s : State) (c base : Nat) : Nat → Nat → Nat
  | 0, o => o
  | n + 1, o => s.after c base n (o + (if s.codeByte c (base + o + 3) / 32 = 6 then 8 else 4))

/-- LOOP (R47): the IMM16 instructions that follow become a hardware loop of g[RD] executions; at 0 execution goes on after them.
RA must be zero. An active loop is replaced. -/
def execLoop (c : Nat) (rd ra : BitVec 5) (imm : BitVec 16) (s : State) : Res :=
  .next (s.runInstr c 4 (fun _ => firstBad [(decide (ra ≠ 0), illegal 2)]) (fun i s =>
    let t := s.task c i
    let start := t.pc.toNat + 4
    let fin := s.after c t.tbase imm.toNat start
    let n := (t.rg rd).toNat
    if n = 0 then .jump (s.updTask c i (fun t => { t with loop := none })) fin
    else if imm = 0 then .go (s.updTask c i (fun t => { t with loop := none }))
    else .go (s.updTask c i (fun t => { t with loop := some ⟨start, fin, n⟩ }))))

end Sys2Proof.Machine
end

