-- ==== Sys2Proof/Machine/LoadStore.lean ====
section
/-! DEFINITION. Scalar and vector loads and stores (R57, R59): byte order is little-endian, offsets are a[RA] + immediate. -/

namespace Sys2Proof.Machine

/-- LD.W (R57). -/
def execLdW (c : Nat) (rd ra : BitVec 5) (imm : BitVec 16) (s : State) : Res :=
  loadAt c 4 [(badA ra, illegal 2)] (fun t => t.offset ra imm) (fun t x => t.wg rd (BitVec.ofNat 32 x)) s

/-- LD.H (R57). -/
def execLdH (c : Nat) (rd ra : BitVec 5) (imm : BitVec 16) (s : State) : Res :=
  loadAt c 2 [(badA ra, illegal 2)] (fun t => t.offset ra imm) (fun t x => t.wg rd (BitVec.ofNat 32 x)) s

/-- LD.HS (R57). -/
def execLdHs (c : Nat) (rd ra : BitVec 5) (imm : BitVec 16) (s : State) : Res :=
  loadAt c 2 [(badA ra, illegal 2)] (fun t => t.offset ra imm) (fun t x => t.wg rd ((BitVec.ofNat 16 x).signExtend 32)) s

/-- LD.B (R57). -/
def execLdB (c : Nat) (rd ra : BitVec 5) (imm : BitVec 16) (s : State) : Res :=
  loadAt c 1 [(badA ra, illegal 2)] (fun t => t.offset ra imm) (fun t x => t.wg rd (BitVec.ofNat 32 x)) s

/-- LD.BS (R57). -/
def execLdBs (c : Nat) (rd ra : BitVec 5) (imm : BitVec 16) (s : State) : Res :=
  loadAt c 1 [(badA ra, illegal 2)] (fun t => t.offset ra imm) (fun t x => t.wg rd ((BitVec.ofNat 8 x).signExtend 32)) s

/-- ST.W (R57). -/
def execStW (c : Nat) (rd ra : BitVec 5) (imm : BitVec 16) (s : State) : Res :=
  storeAt c 4 [(badA ra, illegal 2)] (fun t => t.offset ra imm) (fun t => (t.rg rd).toNat) s

/-- ST.H (R57). -/
def execStH (c : Nat) (rd ra : BitVec 5) (imm : BitVec 16) (s : State) : Res :=
  storeAt c 2 [(badA ra, illegal 2)] (fun t => t.offset ra imm) (fun t => (t.rg rd).toNat) s

/-- ST.B (R57). -/
def execStB (c : Nat) (rd ra : BitVec 5) (imm : BitVec 16) (s : State) : Res :=
  storeAt c 1 [(badA ra, illegal 2)] (fun t => t.offset ra imm) (fun t => (t.rg rd).toNat) s

/-- LD.A (R57): 8 bytes, of which bits [47:0] are kept. -/
def execLdA (c : Nat) (rd ra : BitVec 5) (imm : BitVec 16) (s : State) : Res :=
  loadAt c 8 [(badA rd || badA ra, illegal 2)] (fun t => t.offset ra imm) (fun t x => t.wA rd.toNat (BitVec.ofNat 48 x)) s

/-- ST.A (R57): 8 bytes, bits [63:48] zero. -/
def execStA (c : Nat) (rd ra : BitVec 5) (imm : BitVec 16) (s : State) : Res :=
  storeAt c 8 [(badA rd || badA ra, illegal 2)] (fun t => t.offset ra imm) (fun t => (t.rA rd.toNat).toNat) s

/-- The offset a[RA] + IMM16 × 64 of VLD and VST (R59). -/
def Task.vOffset (t : Task) (ra : BitVec 5) (imm : BitVec 16) : Nat := (t.rA ra.toNat + imm.signExtend 48 * 64).toNat

/-- VLD (R59): 64 bytes. -/
def execVld (c : Nat) (rd ra : BitVec 5) (imm : BitVec 16) (s : State) : Res :=
  loadAt c 64 [(badV rd || badA ra, illegal 2)] (fun t => t.vOffset ra imm) (fun t x => t.wV rd.toNat (BitVec.ofNat 512 x)) s

/-- VST (R59): 64 bytes. -/
def execVst (c : Nat) (rd ra : BitVec 5) (imm : BitVec 16) (s : State) : Res :=
  storeAt c 64 [(badV rd || badA ra, illegal 2)] (fun t => t.vOffset ra imm) (fun t => (t.rV rd.toNat).toNat) s

end Sys2Proof.Machine
end

