-- ==== Sys2Proof/Machine/Matrix.lean ====
section
/-! DEFINITION. The matrix unit (R87 to R122) and tile moves (R71 to R73): checks at issue, the queue, and the results. -/

namespace Sys2Proof.Machine

/-! ### Fields and checks at issue -/

/-- Format codes of TILE.LD SUB = 1, of TILE.LD SUB = 2 and MMA activations, and of ACC.CVT (R92). -/
def okWeight (k : Nat) : Bool := inRange k 1 5 || inRange k 7 4
def okAct (k : Nat) : Bool := inRange k 1 5 || inRange k 7 3
def okCvt (k : Nat) : Bool := decide (k ≤ 9)

/-- The first row address, a[AA] + IMMA, and the stride a[AB][17:0] (R71). -/
def Task.mBase (t : Task) (w : FmtM) : Nat := (t.rA w.aa.toNat + w.immA.signExtend 48).toNat
def Task.mStride (t : Task) (w : FmtM) : Nat := (t.rA w.ab.toNat).toNat % 2 ^ 18

/-- The access checks of 16 rows of `n` bytes, each aligned to `al`, in row order (R42, R40). -/
def Task.rowsBad (t : Task) (w : FmtM) (n al : Nat) : List (Bool × TrapReq) :=
  (List.range 16).flatMap (fun r => t.accessBad (rowOff (t.mBase w) (t.mStride w) r) n al)

/-- The matrix-task check (R30, R680). -/
def Task.notMx (t : Task) : Bool × TrapReq := (!t.mx, illegal 4)

/-- Bytes of a row of 16 × 2^SHAPE (R71). -/
def rowBytes (w : FmtM) : Nat := 16 * 2 ^ w.shape.toNat

/-- A matrix-class or tile-move instruction enters the queue of 4, or stalls while it is full, or while rows it reads or writes are
still to be written or read by a stream of the task (R73, R58). -/
def enqueue (c : Nat) (bad : Task → List (Bool × TrapReq)) (op : Task → MOp) (upd : Task → Task) (s : State) : Res :=
  .next (s.runInstr c 8 (fun t => firstBad (bad t)) (fun i s =>
    let t := s.task c i
    let k := s.core c
    let o := op t
    let busy (l : List (Nat × Nat)) (all : Bool) := k.streams.any (fun x => decide (x.slot = i) &&
      (decide (x.kind = 0) || (all && x.reading)) && l.any (fun e => touches e.1 e.2 (streamRows x.d)))
    if 4 ≤ k.mq.length || busy o.reads false || busy o.writes true then .stall s
    else .go ((s.updCore c (fun k => { k with mq := k.mq ++ [⟨i, o⟩] })).updTask c i upd)))

/-- TILE.LD (R71, R92). -/
def execTileLd (c : Nat) (w : FmtM) (s : State) : Res :=
  let sub := w.sub.toNat
  let f := w.fmt.toNat
  let ok : Bool :=
    if sub = 0 then decide (w.shape = 2) && decide (w.immB = 0) && decide (f = 0)
    else if sub = 1 then decide (w.t = 0) && decide (w.shape.toNat ≤ 4) && decide (w.immB.toNat ≤ 127) &&
      decide (w.immB.toNat * 256 + 16 * rowBytes w ≤ 32768) && okWeight f
    else if sub = 2 then decide (w.t.toNat ≤ 3) && decide (w.shape.toNat ≤ 2) && decide (w.immB = 0) && okAct f
    else false
  enqueue c (fun t => [(decide (2 ≤ w.flags.toNat), illegal 2), t.notMx, (!ok, illegal 7)] ++ t.rowsBad w (rowBytes w) 16)
    (fun t => .tileLd sub w.t.toNat f (rowBytes w) w.immB.toNat (t.mBase w) (t.mStride w) (decide (sub = 2) && bitOf w.flags.toNat 0))
    id s

/-- TILE.ST (R72). -/
def execTileSt (c : Nat) (w : FmtM) (s : State) : Res :=
  let ok : Bool := decide (w.sub = 0) && decide (w.shape = 2) && decide (w.immB = 0) && decide (w.fmt = 0)
  enqueue c (fun t => [(decide (w.flags ≠ 0), illegal 2), t.notMx, (!ok, illegal 7)] ++ t.rowsBad w 64 16)
    (fun t => .tileSt w.t.toNat (t.mBase w) (t.mStride w)) id s

/-- SPARSE.LD (R109). -/
def execSparseLd (c : Nat) (w : FmtM) (s : State) : Res :=
  let ok : Bool := decide (w.sub = 0) && decide (w.t = 0) && decide (w.fmt = 0) && decide (w.flags = 0) && decide (w.shape.toNat ≤ 4) &&
    decide (w.immB.toNat * 256 + 16 * rowBytes w ≤ 16384)
  enqueue c (fun t => [t.notMx, (!ok, illegal 7)] ++ t.rowsBad w (rowBytes w) 16)
    (fun t => .sparse w.immB.toNat (rowBytes w) (t.mBase w) (t.mStride w)) id s

/-- ACC.CVT (R114, R116): the seed and n are captured at issue (R122). -/
def execAccCvt (c : Nat) (w : FmtM) (s : State) : Res :=
  let f := w.fmt.toNat
  let rb := cvtRow f
  let sr := bitOf w.sub.toNat 0
  enqueue c (fun t => [(decide (256 ≤ w.immB.toNat) || decide (8 ≤ w.sub.toNat) || decide (w.shape ≠ 0) || decide (w.flags ≠ 0), illegal 2),
      t.notMx, (!okCvt f, illegal 7)] ++ t.rowsBad w rb (min 16 rb))
    (fun t => .cvt w.t.toNat f (sgn 8 w.immB.toNat) (bitOf w.sub.toNat 2) (bitOf w.sub.toNat 1) sr (t.mBase w) (t.mStride w)
      (t.seedHi ++ t.seedLo) t.srN)
    (fun t => if sr then { t with srN := t.srN + 1 } else t) s

/-- ZMASK (R111): the enable bit takes SUB bit 0; every other field is zero. -/
def execZmask (c : Nat) (w : FmtM) (s : State) : Res :=
  let zero : Bool := decide (w.immB = 0) && decide (w.immA = 0) && decide (w.sub.toNat < 2) && decide (w.t = 0) && decide (w.fmt = 0) &&
    decide (w.aa = 0) && decide (w.ab = 0) && decide (w.shape = 0) && decide (w.flags = 0)
  enqueue c (fun t => [(!zero, illegal 2), t.notMx]) (fun _ => .zmask (bitOf w.sub.toNat 0)) id s

/-- The fields of an MMA (R103). -/
structure MmaF where
  afmt : Nat
  amx : Bool
  bmx : Bool
  sbase : Nat
  wcol : Nat
  pitch : Nat
  wbase : Nat
  zs : Bool
  sp : Bool
  ovr : Bool
  t : Nat
  fmt : Nat
  slot : Nat
  k : Nat
  deriving DecidableEq, Repr

/-- The fields of an MMA word (R103): K = 16 × 2^SHAPE, weight row bytes 16 × 2^WPITCH. -/
def mmaF (w : FmtM) : MmaF :=
  { afmt := bitsOf w.immB.toNat 12 4, amx := bitOf w.immB.toNat 11, bmx := bitOf w.immB.toNat 10, sbase := bitsOf w.immB.toNat 0 6,
    wcol := bitsOf w.immA.toNat 10 4, pitch := 16 * 2 ^ bitsOf w.immA.toNat 7 3, wbase := bitsOf w.immA.toNat 0 7,
    zs := bitOf w.sub.toNat 2, sp := bitOf w.sub.toNat 1, ovr := bitOf w.sub.toNat 0, t := w.t.toNat, fmt := w.fmt.toNat,
    slot := w.aa.toNat % 4, k := 16 * 2 ^ w.shape.toNat }

/-- Classes of element formats for the pairs of R105. -/
def isFp8 (k : Nat) : Bool := decide (k = 3) || decide (k = 4)
def isFp4Class (k : Nat) : Bool := inRange k 7 4

/-- Is a pair of activation and weight formats in the table of R105? -/
def pairOk (a b : Nat) : Bool :=
  (decide (a = 1) && decide (b = 1)) || (decide (a = 2) && decide (b = 2)) || (decide (a = 5) && decide (b = 5)) ||
  ((isFp8 a || (isFp4Class a && decide (a ≠ 10))) && (isFp8 b || isFp4Class b))

/-- The array rate of a pair of formats, in MAC per cycle (R105). -/
def pairRate (a b : Nat) : Nat := if a = 1 ∨ a = 2 then 128 else if isFp4Class a && isFp4Class b then 512 else 256

/-- Slice width in bytes of a weight format (R104). -/
def sliceBytes (k : Nat) : Nat := if fmtBits k = 16 then 32 else if fmtBits k = 4 then 8 else 16

/-- Bits of an element as it lies in memory: FP6 elements take a byte's share of a granule (R94). -/
def memBits (k : Nat) : Nat := if fmtBits k = 6 then 8 else fmtBits k

/-- Weight rows that an MMA reads (R104). -/
def MmaF.rows (f : MmaF) : Nat := if f.sp then f.k / 2 else f.k

/-- The range checks of an MMA (R92, R103, R105, R106). -/
def mmaOk (w : FmtM) : Bool :=
  let f := mmaF w
  let q := sliceBytes f.fmt
  decide (w.shape.toNat ≤ 3) && decide (bitsOf w.immA.toNat 7 3 ≤ 4) && okAct f.afmt && okWeight f.fmt && pairOk f.afmt f.fmt &&
  decide (f.k * memBits f.afmt ≤ 512) && (!(f.amx || f.bmx) || decide (f.k = 32) || decide (f.k = 64)) &&
  (!f.amx || decide (memBits f.afmt ≤ 8)) && (!f.bmx || decide (memBits f.fmt ≤ 8)) &&
  (decide (f.fmt ≠ 10) || (decide (f.k = 64) && !f.sp && !f.bmx)) &&
  decide (f.wbase * 256 + f.rows * f.pitch ≤ 32768) && decide (f.wcol * q + q ≤ f.pitch)

/-- MMA (R89, R103): v[AB] is copied at issue (R122). -/
def execMma (c : Nat) (w : FmtM) (s : State) : Res :=
  let f := mmaF w
  let rsv : Bool := decide (bitsOf w.immB.toNat 6 4 ≠ 0) || decide (bitsOf w.immA.toNat 14 2 ≠ 0) || decide (8 ≤ w.sub.toNat) ||
    bitOf w.aa.toNat 2 || decide (w.flags ≠ 0) || (!(f.amx || f.bmx) && decide (w.ab ≠ 0))
  enqueue c (fun t => [(rsv, illegal 2), t.notMx, (!mmaOk w, illegal 7)]) (fun t => .mma w (t.rV w.ab.toNat)) id s

/-! ### The queue (R73, R107) -/

/-- A span of matrix state: 0 tiles, 1 weight buffer bytes, 2 input slots, 3 side buffer bytes. -/
abbrev Span := Nat × Nat × Nat

/-- The matrix state that an operation reads (R89, R104, R110, R100). -/
def MOp.ins : MOp → List Span
  | .mma w _ =>
    let f := mmaF w
    (if f.ovr then [] else [(0, f.t, 1)]) ++ [(2, f.slot, 1), (1, f.wbase * 256, f.rows * f.pitch)] ++
    (if f.sp then [(3, f.sbase * 256, 2 * f.k)]
     else if f.fmt = 10 then [(3, f.sbase * 256, 512), (3, 0, f.sbase * 256 + 512 - 16384)] else [])
  | .tileSt t _ _ => [(0, t, 1)]
  | .cvt t .. => [(0, t, 1)]
  | _ => []

/-- The matrix state that an operation writes. -/
def MOp.outs : MOp → List Span
  | .mma w _ => [(0, (mmaF w).t, 1)]
  | .tileLd sub t _ rb unit _ _ _ =>
    if sub = 0 then [(0, t, 1)] else if sub = 1 then [(1, unit * 256, 16 * rb)] else [(2, t, 1)]
  | .sparse unit rb _ _ => [(3, unit * 256, 16 * rb)]
  | .cvt t _ _ _ clr .. => if clr then [(0, t, 1)] else []
  | _ => []

/-- Do two lists of spans share state? -/
def spansMeet (a b : List Span) : Bool := a.any (fun x => b.any (fun y => decide (x.1 = y.1) && overlap x.2.1 x.2.2 y.2.1 y.2.2))

/-- Would running `b` before `a` ends change a result of program order (R73)? -/
def MOp.conflicts (a b : MOp) : Bool := spansMeet a.outs (b.ins ++ b.outs) || spansMeet a.ins b.outs

/-- Is the operation an MMA; is it one of the tile mover's? -/
def MOp.isMma : MOp → Bool
  | .mma .. => true
  | _ => false
def MOp.isMove : MOp → Bool
  | .tileLd .. => true
  | .tileSt .. => true
  | .sparse .. => true
  | .cvt .. => true
  | _ => false

/-- The queued tile move that may start: the first one, ahead of MMAs alone, whose operands overlap neither theirs nor the running
MMA's (R73). -/
def firstMove (run : Option MEnt) : List MEnt → List MEnt → Option (MEnt × List MEnt)
  | _, [] => none
  | pre, e :: t =>
    if e.op.isMove then
      if (run.toList ++ pre).any (fun p => p.op.conflicts e.op) then none else some (e, pre ++ t)
    else if e.op.isMma then firstMove run (pre ++ [e]) t
    else none

/-- An operation as it starts: a TILE.LD uses the ZMASK enable in effect at its place in the queue (R122). -/
def MOp.atStart (zen : Bool) : MOp → MOp
  | .tileLd sub t f rb u b st z => .tileLd sub t f rb u b st (z && zen)
  | o => o

/-- A queued operation starts on the tile mover or on the array, its queue entry free (R73, R107, R111). A ZMASK at the head takes
effect as it starts. Nothing happens while no operation may start. -/
def execMatrixQueueStart (c : Nat) (mover : Bool) (s : State) : Res :=
  let k := s.core c
  if mover then
    if k.mover.isSome then .next s else
    match firstMove k.array [] k.mq with
    | some (e, rest) => .next ((s.setCore c { k with mover := some ⟨e.slot, e.op.atStart k.zen⟩, mq := rest }).resched c)
    | none => .next s
  else
    match k.mq with
    | [] => .next s
    | e :: rest =>
      match e.op with
      | .zmask en => .next ((s.setCore c { k with zen := en, mq := rest }).resched c)
      | .mma .. =>
        if k.array.isSome || k.mover.toList.any (fun p => p.op.conflicts e.op) then .next s
        else .next (((s.setCore c { k with array := some e, mq := rest }).perf c 5 1).resched c)
      | _ => .next s

/-! ### Results -/

/-- `n` bytes of a buffer of matrix state from byte `b`, wrapping at `size`, as a little-endian number. -/
def bufNat (t : Tab Byte) (size b : Nat) : Nat → Nat
  | 0 => 0
  | n + 1 => (Tab.get (0 : Byte) t (b % size)).toNat + 256 * bufNat t size (b + 1) n

/-- A buffer of matrix state after bytes are written from byte `b`. -/
def bufPut (t : Tab Byte) (b : Nat) : List Byte → Tab Byte
  | [] => t
  | x :: l => bufPut (Tab.set 0 t b x) (b + 1) l

/-- Element `j` of a row given as a number (R94). -/
def elemOf (k row j : Nat) : Nat :=
  if fmtBits k = 6 then bitsOf row (128 * (j / 16) + 6 * (j % 16)) 6 else bitsOf row (fmtBits k * j) (fmtBits k)

/-- 16 elements packed as a row (R94). -/
def packRow (k : Nat) (l : List Nat) : Nat :=
  (l.foldr (fun x acc => x + acc * 2 ^ (if fmtBits k = 6 then 6 else fmtBits k)) 0)

/-- Does an element encode zero (R112)? -/
def elemZero (k x : Nat) : Bool := if k = 5 then decide (x = 0) else decide (x % 2 ^ (fmtBits k - 1) = 0)

/-- The zero mask that a TILE.LD of an input slot sets from its 16 rows (R112). -/
def zeroMask (k rb : Nat) (rows : List Nat) : Nat :=
  let n := if fmtBits k = 6 then rb else rb * 8 / fmtBits k
  (List.range 8).foldl (fun z j =>
    if 16 * j + 16 ≤ n ∧ rows.all (fun r => (List.range 16).all (fun i => elemZero k (elemOf k r (16 * j + i)))) then
      setBits z j 1 1 else z) 0

/-- An FP32 value rounded from an exact one, as a value (R90). -/
def toF32 (v : FV) : FV := fp32.decode (fp32.encode .nearest false v).1

/-- One FP32 addition and whether it is infinity minus infinity (R90, R118). -/
def addF32 (a b : FV) : FV × Bool := (toF32 (FV.add a b).1, !a.isNan && !b.isNan && (FV.add a b).2)

/-- One exact product and whether it is zero × infinity (R90, R118). -/
def mulF (a b : FV) : FV × Bool := ((FV.mul a b).1, !a.isNan && !b.isNan && (FV.mul a b).2)

/-- The list without its element `i`, and that element. -/
def takeAt (i : Nat) (l : List FV) : FV × List FV := (l.getD i (.fin false 0 0), l.eraseIdx i)

/-- The FP32 sum of values in an order that R90 leaves open: two of them, chosen freely, are added until one is left. -/
def freeSum (u : Nat → Nat) : Nat → List FV → FV × Bool
  | 0, l => (l.headD (.fin false 0 0), false)
  | n + 1, l =>
    if l.length ≤ 1 then (l.headD (.fin false 0 0), false) else
    let a := takeAt (u (2 * n) % l.length) l
    let b := takeAt (u (2 * n + 1) % a.2.length) a.2
    let s := addF32 a.1 b.1
    let r := freeSum u n (s.1 :: b.2)
    (r.1, s.2 || r.2)

/-- A side record (R98): scale, outliers (index, value), CONT, and whether it is malformed (R102). -/
structure SideRec where
  scale : Nat
  ents : List (Nat × Nat)
  cont : Bool
  bad : Bool
  deriving DecidableEq, Repr

/-- The side record of 16 bytes `x` (R98, R102). -/
def sideRec (x : Nat) : SideRec :=
  let cnt := bitsOf x 8 3
  let bad := decide (4 < cnt) || decide (bitsOf x 12 4 ≠ 0) || decide (bitsOf x 104 24 ≠ 0)
  { scale := bitsOf x 0 8, bad := bad, cont := bitOf x 11 && !bad,
    ents := if bad then [] else (List.range cnt).map (fun j => (bitsOf x (80 + 6 * j) 6, bitsOf x (16 + 16 * j) 16)) }

/-- The records of the columns from a side-buffer byte on, each with its continuation (R100, R102). -/
def sideCols (side : Tab Byte) : Nat → Nat → List SideRec
  | 0, _ => []
  | n + 1, pos =>
    let r := sideRec (bufNat side 16384 pos 16)
    if r.cont then
      let x := sideRec (bufNat side 16384 (pos + 16) 16)
      let bad := x.bad || bitOf (bufNat side 16384 (pos + 16) 16) 11
      { r with ents := if bad then [] else r.ents ++ x.ents, bad := bad } :: sideCols side n (pos + 32)
    else r :: sideCols side n (pos + 16)

/-- What an MMA works on: activation and weight values, side records, metadata, scales (R89, R96, R100, R110). -/
structure MmaIn where
  f : MmaF
  rowA : Nat → Nat
  rowB : Nat → Nat
  recs : List SideRec
  side : Nat → Nat
  vab : Nat
  zmask : Nat

/-- An element's value; an MXINT8 element is its integer × 2^−6 (R95). -/
def mxVal (mx : Bool) (k x : Nat) : FV := if mx && decide (k = 5) then (elemVal k x).scale (-6) else elemVal k x

/-- Activation element (m, k). -/
def MmaIn.a (x : MmaIn) (m k : Nat) : FV := mxVal x.f.amx x.f.afmt (elemOf x.f.afmt (x.rowA m) k)

/-- Weight element of compressed row `r` and column `n`, +0 where an outlier names it (R99). -/
def MmaIn.b (x : MmaIn) (r n : Nat) : FV :=
  if x.f.fmt = 10 && ((x.recs[n]?).map (fun q => q.ents.any (fun e => decide (e.1 = r)))).getD false then .fin false 0 0
  else mxVal x.f.bmx x.f.fmt (elemOf x.f.fmt (x.rowB r) n)

/-- The outliers of column `n` (R101). -/
def MmaIn.outliers (x : MmaIn) (n : Nat) : List (Nat × Nat) :=
  if x.f.fmt = 10 then ((x.recs[n]?).map (fun q => q.ents)).getD [] else []

/-- The factors of the products of group `j` at (m, n): 16 consecutive k, or the 8 values kept of them (R90, R110), then the outliers
of the group (R101). -/
def MmaIn.pairs (x : MmaIn) (m n j : Nat) : List (FV × FV) :=
  (if x.f.sp then (List.range 8).map (fun h =>
      let q := 4 * j + h / 2
      let pos := bitsOf (x.side q) (4 * n + 2 * (h % 2)) 2
      (x.a m (4 * q + pos), x.b (2 * q + h % 2) n))
    else (List.range 16).map (fun i => (x.a m (16 * j + i), x.b (16 * j + i) n))) ++
  ((x.outliers n).filter (fun e => decide (e.1 / 16 = j))).map (fun e => (x.a m e.1, fp16.decode e.2))

/-- The E8M0 scale exponents that apply to group `j` at (m, n); none where one is 0xFF (R97, R99). -/
def MmaIn.scaleExp (x : MmaIn) (m n j : Nat) : Option Int :=
  let blk := 256 * (16 * j / 32)
  let l := (if x.f.amx then [bitsOf x.vab (blk + 8 * m) 8] else []) ++ (if x.f.bmx then [bitsOf x.vab (blk + 128 + 8 * n) 8] else []) ++
    (if x.f.fmt = 10 then ((x.recs[n]?).map (fun q => [q.scale])).getD [] else [])
  if l.any (fun e => decide (e = 0xFF)) then none else some (l.foldl (fun (t : Int) (e : Nat) => t + (e : Int) - 127) 0)

/-- Is column `n`'s record malformed, which sets NV whether or not its groups are skipped (R102)? -/
def MmaIn.bad (x : MmaIn) (n : Nat) : Bool := x.f.fmt = 10 && ((x.recs[n]?).map (fun q => q.bad)).getD false

/-- What group `j` adds at (m, n) and whether NV arises (R90, R97, R102, R118). -/
def MmaIn.group (x : MmaIn) (u : Nat → Nat) (m n j : Nat) : FV × Bool :=
  let ps := (x.pairs m n j).map (fun p => mulF p.1 p.2)
  let nv := ps.any (fun p => p.2)
  let s := freeSum (fun i => u (((m * 16 + n) * 8 + j) * 128 + i)) ps.length (ps.map (fun p => p.1))
  if x.bad n then (.nan, true)
  else match x.scaleExp m n j with
    | none => (.nan, nv || s.2)
    | some e => (toF32 (s.1.scale e), nv || s.2)

/-- Group `j` is added to an accumulator element: its value, and whether NV and OF arise (R90, R118): OF where it becomes infinite from a finite element
and finite factors, in this group, whatever later groups make of it. -/
def MmaIn.add (x : MmaIn) (u : Nat → Nat) (m n : Nat) (st : FV × Bool × Bool) (j : Nat) : FV × Bool × Bool :=
  let g := x.group u m n j
  let t := addF32 st.1 g.1
  let finite := !st.1.isInf && (x.pairs m n j).all (fun p => !p.1.isInf && !p.2.isInf)
  (t.1, st.2.1 || g.2 || t.2, st.2.2 || (t.1.isInf && finite))

/-- Element (m, n) of the result with its flags (R89, R90, R102, R113, R118): groups in order of k, marked ones skipped. A NaN is written as 0x7FC0_0000,
the canonical one of R115: R91 names no encoding (DESIGN CHOICE, log entry 87). -/
def MmaIn.elem (x : MmaIn) (u : Nat → Nat) (acc : FV) (m n : Nat) : Nat × Nat :=
  let js := (List.range (x.f.k / 16)).filter (fun j => !(x.f.zs && bitOf x.zmask j))
  let r := js.foldl (x.add u m n) (acc, x.bad n, false)
  ((fp32.encode .nearest false r.1).1, (if r.2.1 then 16 else 0) ||| (if r.2.2 then 4 else 0))

/-- What an MMA of core state `k` works on (R89, R104, R110). -/
def mmaIn (k : Core) (w : FmtM) (vab : V512) : MmaIn :=
  let f := mmaF w
  { f := f, vab := vab.toNat, zmask := Tab.get 0 k.z f.slot,
    rowA := fun m => bufNat k.islots 4096 (1024 * f.slot + 64 * m) 64,
    rowB := fun r => bufNat k.wbuf 32768 (f.wbase * 256 + r * f.pitch + f.wcol * sliceBytes f.fmt) (sliceBytes f.fmt),
    recs := if f.fmt = 10 then sideCols k.side 16 (f.sbase * 256) else [],
    side := fun q => bufNat k.side 16384 (f.sbase * 256 + 8 * q) 8 }

/-- A tile after every element is rewritten by `g` of its row and column; flags are joined. -/
def tileMap (t : Nat) (g : Nat → Nat → Nat × Nat) (tiles : Tab W32) : Tab W32 × Nat :=
  (List.range 256).foldl (fun (st : Tab W32 × Nat) e =>
    let r := g (e / 16) (e % 16)
    (Tab.set 0 st.1 (256 * t + e) (BitVec.ofNat 32 r.1), st.2 ||| r.2)) (tiles, 0)

/-- The cycles for which an MMA occupies the array (R107), with `g` groups skipped and `c` continuation records read. -/
def MmaF.cycles (f : MmaF) (g c : Nat) : Nat :=
  let rate := pairRate f.afmt f.fmt
  let G := if f.sp then 8 else 16
  max 1 (256 * f.rows / rate + 2 * c - g * 256 * G / rate)

/-- An MMA's results (R89): groups skipped under ZS, the cycles of the array, and those that continuation records add are counted (R107, R113, R581). -/
def State.mmaEnd (s : State) (c i : Nat) (w : FmtM) (vab : V512) : State :=
  let k := s.core c
  let x := mmaIn k w vab
  let (u, s) := s.drawMany
  let acc := fun m n => if x.f.ovr then FV.fin false 0 0 else fp32.decode (Tab.get (0 : W32) k.tiles (256 * x.f.t + 16 * m + n)).toNat
  let js := (List.range (x.f.k / 16)).filter (fun j => !(x.f.zs && bitOf x.zmask j))
  let r := tileMap x.f.t (fun m n => x.elem u (acc m n) m n) k.tiles
  let tiles := if js.isEmpty && !x.f.ovr then k.tiles else r.1
  let g := x.f.k / 16 - js.length
  let n := (x.recs.filter (fun q => q.cont)).length
  let s := (((s.setCore c { k with tiles := tiles }).perf c 4 (x.f.cycles g n)).perf c 6 g).perf c 7 (2 * n)
  s.raiseIn c i r.2

/-- The 16 rows of a tile move read from the window, as numbers; the bank and row offset of an uncorrectable error (R132). -/
def State.readRows (s : State) (c i rb base stride : Nat) : Nat → State × Except (Nat × Nat) (List Nat)
  | 0 => (s, .ok [])
  | n + 1 =>
    match s.readRows c i rb base stride n with
    | (s, .error e) => (s, .error e)
    | (s, .ok l) =>
      match s.spRead c ((s.task c i).tbase + rowOff base stride n) rb with
      | (s, .error b) => (s, .error (b, rowOff base stride n))
      | (s, .ok bs) => (s, .ok (l ++ [leNat bs]))

/-- Rows written into the window of slot `i`; the bank and offset of an uncorrectable error in a word written in part. -/
def State.writeRows (s : State) (c i base stride rb : Nat) : List (Nat × Nat) → State × Option (Nat × Nat)
  | [] => (s, none)
  | (r, x) :: t =>
    match s.spWrite c ((s.task c i).tbase + rowOff base stride r) (leBytes rb x) with
    | (s, some b) => (s, some (b, rowOff base stride r))
    | (s, none) => s.writeRows c i base stride rb t

/-- A matrix or tile-move operation's rows met an uncorrectable error: the task traps with SPUE at its PC (R132). -/
def State.moveUe (s : State) (c i : Nat) (e : Nat × Nat) : State :=
  let t := s.task c i
  if t.st = .empty ∨ t.st = .trapped then s else s.trapTask c i t.pc.toNat ⟨4, e.1, 0, some e.2⟩

/-- ACC.CVT of an element: scaled exactly, rounded once (R115, R116). -/
def cvtElem (fmt : Nat) (scale : Int) (satm sr : Bool) (seed : BitVec 64) (n r c : Nat) (x : W32) : Nat × Nat :=
  elemEnc fmt (if sr then .stoch (stochDraw seed n r c) else .nearest) satm ((fp32.decode x.toNat).scale scale)

/-- The effect of an operation that has run (R71, R72, R109, R112, R114, R89). -/
def State.matrixEnd (s : State) (c : Nat) (e : MEnt) : State :=
  let i := e.slot
  match e.op with
  | .mma w vab => s.mmaEnd c i w vab
  | .zmask en => s.updCore c (fun k => { k with zen := en })
  | .tileLd sub t fmt rb unit base st z =>
    match s.readRows c i rb base st 16 with
    | (s, .error er) => s.moveUe c i er
    | (s, .ok rows) =>
      let put := fun (tab : Tab Byte) (b stp : Nat) => (rows.zipIdx).foldl (fun tab q => bufPut tab (b + stp * q.2) (leBytes rb q.1)) tab
      (s.updCore c (fun k =>
        if sub = 0 then { k with tiles := (tileMap t (fun r col => (bitsOf (rows.getD r 0) (32 * col) 32, 0)) k.tiles).1 }
        else if sub = 1 then { k with wbuf := put k.wbuf (unit * 256) rb }
        else { k with islots := put k.islots (1024 * t) 64,
                      z := Tab.set 0 k.z t (if z then zeroMask fmt rb rows else 0) })).perf c 8 (16 * rb)
  | .sparse unit rb base st =>
    match s.readRows c i rb base st 16 with
    | (s, .error er) => s.moveUe c i er
    | (s, .ok rows) =>
      (s.updCore c (fun k => { k with side := (rows.zipIdx).foldl (fun tab q => bufPut tab (unit * 256 + rb * q.2) (leBytes rb q.1)) k.side })).perf
        c 8 (16 * rb)
  | .tileSt t base st =>
    let tiles := (s.core c).tiles
    let rows := (List.range 16).map (fun r =>
      (r, (List.range 16).foldr (fun col acc => (Tab.get (0 : W32) tiles (256 * t + 16 * r + col)).toNat + acc * 2 ^ 32) 0))
    match s.writeRows c i base st 64 rows with
    | (s, some er) => s.moveUe c i er
    | (s, none) => s.perf c 8 1024
  | .cvt t fmt scale satm clr sr base st seed n =>
    let tiles := (s.core c).tiles
    let res := (List.range 16).map (fun r => (List.range 16).map (fun col =>
      cvtElem fmt scale satm sr seed n r col (Tab.get (0 : W32) tiles (256 * t + 16 * r + col))))
    let flags := res.foldl (fun f row => row.foldl (fun f e => f ||| e.2) f) 0
    let rows := (res.zipIdx).map (fun q => (q.2, packRow fmt (q.1.map (fun e => e.1))))
    let s := s.updCore c (fun k => if clr then { k with tiles := (tileMap t (fun _ _ => (0, 0)) k.tiles).1 } else k)
    let s := s.raiseIn c i flags
    match s.writeRows c i base st (cvtRow fmt) rows with
    | (s, some er) => s.moveUe c i er
    | (s, none) => s.perf c 8 (16 * cvtRow fmt)

/-- The running operation of the array or of the tile mover completes (R107, R73); `ces` corrected errors of matrix state are counted,
and an uncorrectable one is a core fault without a trap record, its results not written (R120). -/
def execMatrixOpEnd (c : Nat) (mover : Bool) (ces : Nat) (ue : Bool) (s : State) : Res :=
  let k := s.core c
  match (if mover then k.mover else k.array) with
  | none => .next s
  | some e =>
    let s := s.setCore c (if mover then { k with mover := none } else { k with array := none })
    let d := coreDie c
    let n := coreN c
    let s := if ces = 0 then s else (s.hcount (CD_HLTH_MXCE.COUNT d n) (CD_HLTH_STAT.MXCE_SAT d n) ces).ceRate c ces
    let s := if ue then s.coreFault c 2 else s.matrixEnd c e
    .next ((s.startStreams c).resched c)

end Sys2Proof.Machine
end

