-- ==== Sys2Proof/Machine/Scalar.lean ====
section
/-! DEFINITION. Scalar arithmetic, logic and address instructions: major opcode 0x01 (R56) and the immediate forms (R57). -/

namespace Sys2Proof.Machine

/-- A register form: g[RD] takes `f` of g[RA] and g[RB]; `z` requires RB to be zero (R56). -/
def scalarRR (c : Nat) (rd ra rb : BitVec 5) (z : Bool) (f : W32 → W32 → W32) (s : State) : Res :=
  .next (s.runInstr c 4 (fun _ => firstBad [(z && decide (rb ≠ 0), illegal 2)])
    (onTask c (fun t => t.wg rd (f (t.rg ra) (t.rg rb)))))

/-- An immediate form: g[RD] takes `f` of g[RA]; `z` requires RA to be zero (R57). -/
def scalarRI (c : Nat) (rd ra : BitVec 5) (z : Bool) (f : W32 → W32) (s : State) : Res :=
  .next (s.runInstr c 4 (fun _ => firstBad [(z && decide (ra ≠ 0), illegal 2)]) (onTask c (fun t => t.wg rd (f (t.rg ra)))))

/-- 1 or 0 in a register. -/
def bit32 (b : Bool) : W32 := if b then 1 else 0

/-- Leading zeros of a 32-bit number (R56). -/
def clz32 (x : W32) : W32 := if x = 0 then 32 else BitVec.ofNat 32 (31 - Nat.log2 x.toNat)

/-- ADD (R56). -/
def execAdd (c : Nat) (rd ra rb : BitVec 5) (s : State) : Res := scalarRR c rd ra rb false (fun x y => x + y) s

/-- SUB (R56). -/
def execSub (c : Nat) (rd ra rb : BitVec 5) (s : State) : Res := scalarRR c rd ra rb false (fun x y => x - y) s

/-- AND (R56). -/
def execAnd (c : Nat) (rd ra rb : BitVec 5) (s : State) : Res := scalarRR c rd ra rb false (fun x y => x &&& y) s

/-- OR (R56). -/
def execOr (c : Nat) (rd ra rb : BitVec 5) (s : State) : Res := scalarRR c rd ra rb false (fun x y => x ||| y) s

/-- XOR (R56). -/
def execXor (c : Nat) (rd ra rb : BitVec 5) (s : State) : Res := scalarRR c rd ra rb false (fun x y => x ^^^ y) s

/-- SLL (R56). -/
def execSll (c : Nat) (rd ra rb : BitVec 5) (s : State) : Res := scalarRR c rd ra rb false (fun x y => x <<< (y.toNat % 32)) s

/-- SRL (R56). -/
def execSrl (c : Nat) (rd ra rb : BitVec 5) (s : State) : Res := scalarRR c rd ra rb false (fun x y => x >>> (y.toNat % 32)) s

/-- SRA (R56). -/
def execSra (c : Nat) (rd ra rb : BitVec 5) (s : State) : Res := scalarRR c rd ra rb false (fun x y => x.sshiftRight (y.toNat % 32)) s

/-- SLT (R56). -/
def execSlt (c : Nat) (rd ra rb : BitVec 5) (s : State) : Res := scalarRR c rd ra rb false (fun x y => bit32 (x.slt y)) s

/-- SLTU (R56). -/
def execSltu (c : Nat) (rd ra rb : BitVec 5) (s : State) : Res := scalarRR c rd ra rb false (fun x y => bit32 (x.ult y)) s

/-- MIN (R56). -/
def execSmin (c : Nat) (rd ra rb : BitVec 5) (s : State) : Res := scalarRR c rd ra rb false (fun x y => if x.slt y then x else y) s

/-- MAX (R56). -/
def execSmax (c : Nat) (rd ra rb : BitVec 5) (s : State) : Res := scalarRR c rd ra rb false (fun x y => if x.slt y then y else x) s

/-- MINU (R56). -/
def execMinu (c : Nat) (rd ra rb : BitVec 5) (s : State) : Res := scalarRR c rd ra rb false (fun x y => if x.ult y then x else y) s

/-- MAXU (R56). -/
def execMaxu (c : Nat) (rd ra rb : BitVec 5) (s : State) : Res := scalarRR c rd ra rb false (fun x y => if x.ult y then y else x) s

/-- MUL (R56). -/
def execMul (c : Nat) (rd ra rb : BitVec 5) (s : State) : Res := scalarRR c rd ra rb false (fun x y => x * y) s

/-- MULH (R56). -/
def execMulh (c : Nat) (rd ra rb : BitVec 5) (s : State) : Res := scalarRR c rd ra rb false (fun x y => ((x.signExtend 64 * y.signExtend 64) >>> 32).setWidth 32) s

/-- MULHU (R56). -/
def execMulhu (c : Nat) (rd ra rb : BitVec 5) (s : State) : Res := scalarRR c rd ra rb false (fun x y => ((x.setWidth 64 * y.setWidth 64) >>> 32).setWidth 32) s

/-- CLZ (R56): RB must be zero. -/
def execClz (c : Nat) (rd ra rb : BitVec 5) (s : State) : Res := scalarRR c rd ra rb true (fun x _ => clz32 x) s

/-- POPC (R56): RB must be zero. -/
def execPopc (c : Nat) (rd ra rb : BitVec 5) (s : State) : Res :=
  scalarRR c rd ra rb true (fun x _ => BitVec.ofNat 32 (popc x.toNat 32)) s

/-- SLLI (R56): shift by the RB field value. -/
def execSlli (c : Nat) (rd ra rb : BitVec 5) (s : State) : Res := scalarRR c rd ra rb false (fun x _ => x <<< rb.toNat) s

/-- SRLI (R56). -/
def execSrli (c : Nat) (rd ra rb : BitVec 5) (s : State) : Res := scalarRR c rd ra rb false (fun x _ => x >>> rb.toNat) s

/-- SRAI (R56). -/
def execSrai (c : Nat) (rd ra rb : BitVec 5) (s : State) : Res := scalarRR c rd ra rb false (fun x _ => x.sshiftRight rb.toNat) s

/-- ADDA (R56): a[RD] takes a[RA] plus sign-extended g[RB]. -/
def execAdda (c : Nat) (rd ra rb : BitVec 5) (s : State) : Res :=
  .next (s.runInstr c 4 (fun _ => firstBad [(badA rd || badA ra, illegal 2)])
    (onTask c (fun t => t.wA rd.toNat (t.rA ra.toNat + (t.rg rb).signExtend 48))))

/-- MOVA (R56): a[RD] takes g[RB][15:0] × 2^32 + g[RA]. -/
def execMova (c : Nat) (rd ra rb : BitVec 5) (s : State) : Res :=
  .next (s.runInstr c 4 (fun _ => firstBad [(badA rd, illegal 2)])
    (onTask c (fun t => t.wA rd.toNat ((t.rg rb).setWidth 16 ++ t.rg ra))))

/-- MFAL (R56): g[RD] takes a[RA][31:0]. -/
def execMfal (c : Nat) (rd ra rb : BitVec 5) (s : State) : Res :=
  let _ := rb
  .next (s.runInstr c 4 (fun _ => firstBad [(badA ra, illegal 2)]) (onTask c (fun t => t.wg rd ((t.rA ra.toNat).setWidth 32))))

/-- MFAH (R56): g[RD] takes a[RA][47:32]. -/
def execMfah (c : Nat) (rd ra rb : BitVec 5) (s : State) : Res :=
  let _ := rb
  .next (s.runInstr c 4 (fun _ => firstBad [(badA ra, illegal 2)])
    (onTask c (fun t => t.wg rd ((t.rA ra.toNat >>> 32).setWidth 32))))

/-- ADDI (R57). -/
def execAddi (c : Nat) (rd ra : BitVec 5) (imm : BitVec 16) (s : State) : Res := scalarRI c rd ra false (fun x => x + imm.signExtend 32) s

/-- ANDI (R57). -/
def execAndi (c : Nat) (rd ra : BitVec 5) (imm : BitVec 16) (s : State) : Res := scalarRI c rd ra false (fun x => x &&& imm.setWidth 32) s

/-- ORI (R57). -/
def execOri (c : Nat) (rd ra : BitVec 5) (imm : BitVec 16) (s : State) : Res := scalarRI c rd ra false (fun x => x ||| imm.setWidth 32) s

/-- XORI (R57). -/
def execXori (c : Nat) (rd ra : BitVec 5) (imm : BitVec 16) (s : State) : Res := scalarRI c rd ra false (fun x => x ^^^ imm.setWidth 32) s

/-- SLTI (R57). -/
def execSlti (c : Nat) (rd ra : BitVec 5) (imm : BitVec 16) (s : State) : Res := scalarRI c rd ra false (fun x => bit32 (x.slt (imm.signExtend 32))) s

/-- LUI (R57): RA must be zero. -/
def execLui (c : Nat) (rd ra : BitVec 5) (imm : BitVec 16) (s : State) : Res :=
  scalarRI c rd ra true (fun _ => imm.setWidth 32 <<< 16) s

/-- ADDA.I (R57): a[RD] takes a[RA] plus the immediate. -/
def execAddaI (c : Nat) (rd ra : BitVec 5) (imm : BitVec 16) (s : State) : Res :=
  .next (s.runInstr c 4 (fun _ => firstBad [(badA rd || badA ra, illegal 2)])
    (onTask c (fun t => t.wA rd.toNat (t.rA ra.toNat + imm.signExtend 48))))

end Sys2Proof.Machine
end

