-- ==== Sys2Proof/Machine/StreamIssue.lean ====
section
/-! DEFINITION. The STREAM instructions (R53, R64 to R67) and MSG.SEND (R70). -/

namespace Sys2Proof.Machine

/-- A STREAM instruction of one kind (R66, R67): the descriptor is read and checked, the engine takes the stream, and it starts when the
streams and accesses before it allow. A full engine makes the task WAITING (R34). -/
def streamInstr (c kind : Nat) (eng rsv : BitVec 2) (da : BitVec 3) (doff : BitVec 16) (s : State) : Res :=
  .next (s.runInstr c 4 (fun t =>
    let o := (t.rA da.toNat + doff.signExtend 48).toNat
    firstBad [(decide (rsv ≠ 0), illegal 2), (decide (o % 32 ≠ 0), descBad 0 eng.toNat o), (!t.inWindow o 32, bound 2 o)]) (fun i s =>
    let t := s.task c i
    let o := (t.rA da.toNat + doff.signExtend 48).toNat
    if (s.core c).toWrite i o 32 then .stall s
    else if 4 ≤ ((s.core c).streams.filter (fun x => decide (x.eng = eng.toNat))).length then .wait s (.engine eng.toNat)
    else
      match s.spRead c (t.tbase + o) 32 with
      | (s, .error b) => .trap s ⟨4, b, 0, some o⟩
      | (s, .ok l) =>
        let d := parseDesc l
        match s.descChecks c t kind eng.toNat o d with
        | some r => .trap s r
        | none =>
          let (id, s) := s.takeTag c
          let x : Stream :=
            { id := id, eng := eng.toNat, slot := i, pc := t.pc.toNat, kind := kind, d := d, started := false, sent := false, xfers := [],
              pulled := false }
          let s := s.updCore c (fun k => { k with streams := k.streams ++ [x] })
          .go (s.startStreams c)))

/-- STREAM.GATHER (R65). -/
def execStreamGather (c : Nat) (eng rsv : BitVec 2) (da : BitVec 3) (doff : BitVec 16) (s : State) : Res := streamInstr c 0 eng rsv da doff s

/-- STREAM.SEND (R65). -/
def execStreamSend (c : Nat) (eng rsv : BitVec 2) (da : BitVec 3) (doff : BitVec 16) (s : State) : Res := streamInstr c 1 eng rsv da doff s

/-- STREAM.MCAST (R65, R174). -/
def execStreamMcast (c : Nat) (eng rsv : BitVec 2) (da : BitVec 3) (doff : BitVec 16) (s : State) : Res := streamInstr c 2 eng rsv da doff s

/-- STREAM.RSEND (R65, R201). -/
def execStreamRsend (c : Nat) (eng rsv : BitVec 2) (da : BitVec 3) (doff : BitVec 16) (s : State) : Res := streamInstr c 3 eng rsv da doff s

/-- The lowest MSGID that no message of the core under way uses (R183). -/
def Core.freeMsg (k : Core) : Nat := ((List.range 256).find? (fun i => !(k.msgs.any (fun m => decide (m.msgid = i))))).getD 0

/-- MSG.SEND (R70, R184): a full message queue makes the task WAITING (R34). -/
def execMsgSend (c : Nat) (rd ra rb : BitVec 5) (func : BitVec 11) (s : State) : Res :=
  .next (s.runInstr c 4 (fun t =>
    let g := (t.rg rd).toNat
    let d := coreDie c
    firstBad [(decide (s.rd (CD_PMAP_GRID.GX d) ≤ bitsOf g 0 8) || decide (s.rd (CD_PMAP_GRID.GY d) ≤ bitsOf g 8 7),
      ⟨2, 4, 4, none⟩)]) (fun i s =>
    let t := s.task c i
    let g := (t.rg rd).toNat
    let k := s.core c
    if k.writing i then .stall s
    else if 8 ≤ k.msgs.length then .wait s .msgs
    else
      let target := ((s.pmap (coreDie c)).locate (bitsOf g 0 8) (bitsOf g 8 7)).getD 0
      let m := k.freeMsg
      let s := s.updCore c (fun k => { k with msgs := k.msgs ++ [{ msgid := m, slot := i, pc := t.pc.toNat, dst := target }] })
      let f1 := (t.rg ra).toNat + (t.rg rb).toNat * 2 ^ 32
      let f2 := bitsOf g 15 2 + bitsOf g 17 6 * 2 ^ 2 + bitsOf func.toNat 0 10 * 2 ^ 8
      let vc := if bitOf func.toNat 10 then 0 else 1
      let h := ctlHdr 0 vc (coreDie target) (coreN target) (coreDie c) (coreN c) 2 m
      .go ((s.ctlOut h [f1, f2]).perf c 9 8)))

end Sys2Proof.Machine
end

