-- ==== Sys2Proof/Machine/Vector.lean ====
section
/-! DEFINITION. Vector instructions (R59, R60) and predicate operations (R59). -/

namespace Sys2Proof.Machine

/-- Lane `i` of `w` bits. -/
def lane (w : Nat) (v : V512) (i : Nat) : Nat := bitsOf v.toNat (w * i) w

/-- The register with lane `i` of `w` bits replaced. -/
def setLane (w : Nat) (v : V512) (i x : Nat) : V512 := BitVec.ofNat 512 (setBits v.toNat (w * i) w x)

/-- Lanes of a vector format (R59). -/
def laneCount (fmt : Nat) : Nat := 512 / fmtBits fmt

/-- The register and flags after lane function `f` is applied to each lane `i < n` whose mask bit is 1; `f` answers bits and flags. -/
def eachLane (w n : Nat) (m : M64) (d : V512) (f : Nat → Nat × Nat) : V512 × Nat :=
  (List.range n).foldl (fun (st : V512 × Nat) i =>
    if m.getLsbD i then (setLane w st.1 i (f i).1, st.2 ||| (f i).2) else st) (d, 0)

/-- The checks of a vector instruction (R59, R50, R680): its format codes, its register fields, then its ranges. -/
def vecBad (fmt : BitVec 4) (code fields range : Bool) : Option TrapReq :=
  firstBad [(decide (7 ≤ fmt.toNat) || code, illegal 1), (fields, illegal 2), (range, illegal 7)]

/-- A lane-by-lane instruction into v[RD]: `op` from the format, the lane of v[RD], v[RA] and v[RB] (R59). -/
def vecLanes (c : Nat) (rd ra rb : BitVec 5) (mask : BitVec 3) (fmt : BitVec 4) (op : Nat → Nat → Nat → Nat → Nat × Nat)
    (s : State) : Res :=
  .next (s.runInstr c 4 (fun _ => vecBad fmt false (badV rd || badV ra || badV rb) false) (fun i s =>
    let t := s.task c i
    let w := fmtBits fmt.toNat
    let d := t.rV rd.toNat
    let a := t.rV ra.toNat
    let b := t.rV rb.toNat
    let r := eachLane w (laneCount fmt.toNat) (t.rM mask.toNat) d (fun j => op fmt.toNat (lane w d j) (lane w a j) (lane w b j))
    .go (s.updTask c i (fun t => (t.wV rd.toNat r.1).raise r.2))))

/-- A lane operation: `ff` in a floating format, `fi` on the low bits of integers, which wrap (R59, R60). -/
def byKind (ff : FFmt → Nat → Nat → Nat × Nat) (fi : Nat → Nat → Nat → Nat) (fmt x y : Nat) : Nat × Nat :=
  match fmtOf fmt with
  | some f => ff f x y
  | none => (fi (fmtBits fmt) x y % 2 ^ fmtBits fmt, 0)

/-- VADD (R59, R60). -/
def execVadd (c : Nat) (rd ra rb : BitVec 5) (mask : BitVec 3) (fmt : BitVec 4) (s : State) : Res :=
  vecLanes c rd ra rb mask fmt (fun k _ x y => byKind (fun f x y => f.bin FV.add x y) (fun _ x y => x + y) k x y) s

/-- VSUB (R59, R60). -/
def execVsub (c : Nat) (rd ra rb : BitVec 5) (mask : BitVec 3) (fmt : BitVec 4) (s : State) : Res :=
  vecLanes c rd ra rb mask fmt (fun k _ x y =>
    byKind (fun f x y => f.bin (fun a b => FV.add a b.neg) x y) (fun w x y => x + (2 ^ w - y)) k x y) s

/-- VMUL (R59, R60). -/
def execVmul (c : Nat) (rd ra rb : BitVec 5) (mask : BitVec 3) (fmt : BitVec 4) (s : State) : Res :=
  vecLanes c rd ra rb mask fmt (fun k _ x y => byKind (fun f x y => f.bin FV.mul x y) (fun _ x y => x * y) k x y) s

/-- VFMA (R59, R60): v[RD] + v[RA] × v[RB] with one rounding. -/
def execVfma (c : Nat) (rd ra rb : BitVec 5) (mask : BitVec 3) (fmt : BitVec 4) (s : State) : Res :=
  vecLanes c rd ra rb mask fmt (fun k d x y => byKind (fun f x y => f.fma d x y) (fun _ x y => d + x * y) k x y) s

/-- The larger (`big`) or smaller of two signed integers of `w` bits. -/
def pickInt (big : Bool) (w x y : Nat) : Nat := if decide (sgn w x < sgn w y) = big then y else x

/-- VMAX (R59, R60). -/
def execVmax (c : Nat) (rd ra rb : BitVec 5) (mask : BitVec 3) (fmt : BitVec 4) (s : State) : Res :=
  vecLanes c rd ra rb mask fmt (fun k _ x y => byKind (fun f x y => f.pick true x y) (pickInt true) k x y) s

/-- VMIN (R59, R60). -/
def execVmin (c : Nat) (rd ra rb : BitVec 5) (mask : BitVec 3) (fmt : BitVec 4) (s : State) : Res :=
  vecLanes c rd ra rb mask fmt (fun k _ x y => byKind (fun f x y => f.pick false x y) (pickInt false) k x y) s

/-- A compare into m[RD]: `op` answers the bit and the flags of a lane; bits of unmasked and absent lanes keep their contents (R59). -/
def vecCompare (c : Nat) (rd ra rb : BitVec 5) (mask : BitVec 3) (fmt : BitVec 4) (op : Nat → Nat → Nat → Bool × Nat)
    (s : State) : Res :=
  .next (s.runInstr c 4 (fun _ => vecBad fmt false (badA rd || badV ra || badV rb) false) (fun i s =>
    let t := s.task c i
    let w := fmtBits fmt.toNat
    let a := t.rV ra.toNat
    let b := t.rV rb.toNat
    let r := (List.range (laneCount fmt.toNat)).foldl (fun (st : Nat × Nat) j =>
      if (t.rM mask.toNat).getLsbD j then
        let o := op fmt.toNat (lane w a j) (lane w b j)
        (setBits st.1 j 1 (b2n o.1), st.2 ||| o.2)
      else st) ((t.rM rd.toNat).toNat, 0)
    .go (s.updTask c i (fun t => (t.wM rd.toNat (BitVec.ofNat 64 r.1)).raise r.2))))

/-- VCMPLT (R59, R60): a NaN operand writes 0 and sets NV. -/
def execVcmplt (c : Nat) (rd ra rb : BitVec 5) (mask : BitVec 3) (fmt : BitVec 4) (s : State) : Res :=
  vecCompare c rd ra rb mask fmt (fun k x y =>
    match fmtOf k with
    | some f =>
      if (f.decode x).isNan || (f.decode y).isNan then (false, 16) else (FV.lt false (f.decode x) (f.decode y), 0)
    | none => (decide (sgn (fmtBits k) x < sgn (fmtBits k) y), 0)) s

/-- VCMPEQ (R59, R60): a NaN operand writes 0 and sets no flag. -/
def execVcmpeq (c : Nat) (rd ra rb : BitVec 5) (mask : BitVec 3) (fmt : BitVec 4) (s : State) : Res :=
  vecCompare c rd ra rb mask fmt (fun k x y =>
    match fmtOf k with
    | some f => (FV.eq (f.decode x) (f.decode y), 0)
    | none => (decide (x = y), 0)) s

/-- VSEL (R59): v[RA] where the mask bit is 1, else v[RB]; all lanes are written. -/
def execVsel (c : Nat) (rd ra rb : BitVec 5) (mask : BitVec 3) (fmt : BitVec 4) (s : State) : Res :=
  .next (s.runInstr c 4 (fun _ => vecBad fmt false (badV rd || badV ra || badV rb) false) (fun i s =>
    let t := s.task c i
    let w := fmtBits fmt.toNat
    let a := t.rV ra.toNat
    let r := eachLane w (laneCount fmt.toNat) (t.rM mask.toNat) (t.rV rb.toNat) (fun j => (lane w a j, 0))
    .go (s.updTask c i (fun t => t.wV rd.toNat r.1))))

/-- An FP32 function of one operand whose last ulps R59 leaves open: `f` takes the operand and the free choice (log entry 4). -/
def vecApprox (c : Nat) (rd ra rb : BitVec 5) (mask : BitVec 3) (fmt : BitVec 4) (f : Nat → Nat → Nat × Nat) (s : State) : Res :=
  let _ := rb
  .next (s.runInstr c 4 (fun _ => vecBad fmt false (badV rd || badV ra) (decide (fmt ≠ 0))) (fun i s =>
    let (u, s) := s.drawMany
    let t := s.task c i
    let a := t.rV ra.toNat
    let r := eachLane 32 16 (t.rM mask.toNat) (t.rV rd.toNat) (fun j => f (lane 32 a j) (u j))
    .go (s.updTask c i (fun t => (t.wV rd.toNat r.1).raise r.2))))

/-- VRCP (R59, R60). -/
def execVrcp (c : Nat) (rd ra rb : BitVec 5) (mask : BitVec 3) (fmt : BitVec 4) (s : State) : Res :=
  vecApprox c rd ra rb mask fmt vrcp32 s

/-- VRSQ (R59, R60). -/
def execVrsq (c : Nat) (rd ra rb : BitVec 5) (mask : BitVec 3) (fmt : BitVec 4) (s : State) : Res :=
  vecApprox c rd ra rb mask fmt vrsq32 s

/-- VEXP2 (R59, R60). -/
def execVexp2 (c : Nat) (rd ra rb : BitVec 5) (mask : BitVec 3) (fmt : BitVec 4) (s : State) : Res :=
  vecApprox c rd ra rb mask fmt vexp232 s

/-- Neighbours 2j and 2j + 1 added in FP32, `n` times over (R60). -/
def treeSum : Nat → List Nat → Nat × Nat
  | 0, l => (l.headD 0, 0)
  | n + 1, l =>
    let rec pairs : List Nat → List Nat × Nat
      | x :: y :: t =>
        let r := fp32.bin FV.add x y
        let p := pairs t
        (r.1 :: p.1, r.2 ||| p.2)
      | l => (l, 0)
    let p := pairs l
    let q := treeSum n p.1
    (q.1, p.2 ||| q.2)

/-- The sum of the masked lanes (R59, R60): FP32 in the fixed tree, unmasked lanes +0, or the INT32 sum of sign-extended lanes. -/
def vrsum (k : Nat) (m : M64) (a : V512) : Nat × Nat :=
  let w := fmtBits k
  let idx := List.range (laneCount k)
  match fmtOf k with
  | some f => treeSum 6 (idx.map (fun j => if m.getLsbD j then (fp32.encode .nearest false (f.decode (lane w a j))).1 else 0))
  | none => (unsgn 32 (idx.foldl (fun (n : Int) j => if m.getLsbD j then n + sgn w (lane w a j) else n) 0), 0)

/-- VRSUM (R59, R60): bits [31:0] take the sum, all others 0. -/
def execVrsum (c : Nat) (rd ra rb : BitVec 5) (mask : BitVec 3) (fmt : BitVec 4) (s : State) : Res :=
  let _ := rb
  .next (s.runInstr c 4 (fun _ => vecBad fmt false (badV rd || badV ra) false) (fun i s =>
    let t := s.task c i
    let r := vrsum fmt.toNat (t.rM mask.toNat) (t.rV ra.toNat)
    .go (s.updTask c i (fun t => (t.wV rd.toNat (BitVec.ofNat 512 r.1)).raise r.2))))

/-- The maximum of the masked lanes (R59, R60). With none masked it is the most negative value of a floating format; for an integer
format R60 states no value, and the free `u` stands (log entry 4). -/
def vrmax (k : Nat) (m : M64) (a : V512) (u : Nat) : Nat × Nat :=
  let w := fmtBits k
  let l := ((List.range (laneCount k)).filter (fun j => m.getLsbD j)).map (lane w a)
  match fmtOf k with
  | some f =>
    if l.any (fun x => (f.decode x).isNan) then (f.canon.1, 16)
    else match l with
      | [] => ((f.infBits true).1, 0)
      | x :: t => (t.foldl (fun b y => (f.pick true b y).1) x, 0)
  | none => match l with
      | [] => (u % 2 ^ w, 0)
      | x :: t => (t.foldl (pickInt true w) x, 0)

/-- VRMAX (R59, R60): lane 0 takes the maximum, the other lanes 0. -/
def execVrmax (c : Nat) (rd ra rb : BitVec 5) (mask : BitVec 3) (fmt : BitVec 4) (s : State) : Res :=
  let _ := rb
  .next (s.runInstr c 4 (fun _ => vecBad fmt false (badV rd || badV ra) false) (fun i s =>
    let (u, s) := s.draw
    let t := s.task c i
    let r := vrmax fmt.toNat (t.rM mask.toNat) (t.rV ra.toNat) u
    .go (s.updTask c i (fun t => (t.wV rd.toNat (BitVec.ofNat 512 r.1)).raise r.2))))

/-- VBCAST (R59): every masked lane takes g[RA], cut to the lane width. -/
def execVbcast (c : Nat) (rd ra rb : BitVec 5) (mask : BitVec 3) (fmt : BitVec 4) (s : State) : Res :=
  let _ := rb
  .next (s.runInstr c 4 (fun _ => vecBad fmt false (badV rd) false) (fun i s =>
    let t := s.task c i
    let r := eachLane (fmtBits fmt.toNat) (laneCount fmt.toNat) (t.rM mask.toNat) (t.rV rd.toNat) (fun _ => ((t.rg ra).toNat, 0))
    .go (s.updTask c i (fun t => t.wV rd.toNat r.1))))

/-- VCVT (R59, R117): from FMT into the format of RB[3:0]; bit 4 of RB must be zero. -/
def execVcvt (c : Nat) (rd ra rb : BitVec 5) (mask : BitVec 3) (fmt : BitVec 4) (s : State) : Res :=
  let k := rb.toNat % 16
  .next (s.runInstr c 4 (fun _ => vecBad fmt (decide (7 ≤ k)) (decide (16 ≤ rb.toNat) || badV rd || badV ra) false) (fun i s =>
    let t := s.task c i
    let a := t.rV ra.toNat
    let r := eachLane (fmtBits k) (min (laneCount fmt.toNat) (laneCount k)) (t.rM mask.toNat) (t.rV rd.toNat)
      (fun j => elemEnc k .nearest false (elemVal fmt.toNat (lane (fmtBits fmt.toNat) a j)))
    .go (s.updTask c i (fun t => (t.wV rd.toNat r.1).raise r.2))))

/-- A predicate operation into m[RD] (R59); `z` requires RB to be zero. -/
def maskOp (c : Nat) (rd ra rb : BitVec 5) (z : Bool) (f : M64 → M64 → M64) (s : State) : Res :=
  .next (s.runInstr c 4 (fun _ => firstBad [(badA rd || badA ra || (if z then decide (rb ≠ 0) else badA rb), illegal 2)])
    (onTask c (fun t => t.wM rd.toNat (f (t.rM ra.toNat) (t.rM rb.toNat)))))

/-- MAND (R59). -/
def execMand (c : Nat) (rd ra rb : BitVec 5) (s : State) : Res := maskOp c rd ra rb false (fun x y => x &&& y) s

/-- MOR (R59). -/
def execMor (c : Nat) (rd ra rb : BitVec 5) (s : State) : Res := maskOp c rd ra rb false (fun x y => x ||| y) s

/-- MXOR (R59). -/
def execMxor (c : Nat) (rd ra rb : BitVec 5) (s : State) : Res := maskOp c rd ra rb false (fun x y => x ^^^ y) s

/-- MNOT (R59): RB must be zero. -/
def execMnot (c : Nat) (rd ra rb : BitVec 5) (s : State) : Res := maskOp c rd ra rb true (fun x _ => ~~~x) s

/-- MSET (R59): m[RD] takes g[RB] × 2^32 + g[RA]. -/
def execMset (c : Nat) (rd ra rb : BitVec 5) (s : State) : Res :=
  .next (s.runInstr c 4 (fun _ => firstBad [(badA rd, illegal 2)]) (onTask c (fun t => t.wM rd.toNat (t.rg rb ++ t.rg ra))))

/-- g[RD] takes `f` of m[RA] (R59). -/
def maskGet (c : Nat) (rd ra : BitVec 5) (f : M64 → W32) (s : State) : Res :=
  .next (s.runInstr c 4 (fun _ => firstBad [(badA ra, illegal 2)]) (onTask c (fun t => t.wg rd (f (t.rM ra.toNat)))))

/-- MGETL (R59). -/
def execMgetl (c : Nat) (rd ra rb : BitVec 5) (s : State) : Res :=
  let _ := rb
  maskGet c rd ra (fun x => x.setWidth 32) s

/-- MGETH (R59). -/
def execMgeth (c : Nat) (rd ra rb : BitVec 5) (s : State) : Res :=
  let _ := rb
  maskGet c rd ra (fun x => (x >>> 32).setWidth 32) s

/-- MPOPC (R59). -/
def execMpopc (c : Nat) (rd ra rb : BitVec 5) (s : State) : Res :=
  let _ := rb
  maskGet c rd ra (fun x => BitVec.ofNat 32 (popc x.toNat 64)) s

end Sys2Proof.Machine
end

