-- ==== Sys2Proof/Machine/Dispatch.lean ====
section
/-! DEFINITION. exec: what each command does to everything but the queue; one arm a command, one direct call an arm. -/

namespace Sys2Proof.Machine

def exec (i : Instr) (s : State) : Host.Outcome State Fault Refusal :=
  match i with
  | .add c rd ra rb => Sys2Proof.Machine.execAdd c rd ra rb s
  | .sub c rd ra rb => Sys2Proof.Machine.execSub c rd ra rb s
  | .and c rd ra rb => Sys2Proof.Machine.execAnd c rd ra rb s
  | .or c rd ra rb => Sys2Proof.Machine.execOr c rd ra rb s
  | .xor c rd ra rb => Sys2Proof.Machine.execXor c rd ra rb s
  | .sll c rd ra rb => Sys2Proof.Machine.execSll c rd ra rb s
  | .srl c rd ra rb => Sys2Proof.Machine.execSrl c rd ra rb s
  | .sra c rd ra rb => Sys2Proof.Machine.execSra c rd ra rb s
  | .slt c rd ra rb => Sys2Proof.Machine.execSlt c rd ra rb s
  | .sltu c rd ra rb => Sys2Proof.Machine.execSltu c rd ra rb s
  | .smin c rd ra rb => Sys2Proof.Machine.execSmin c rd ra rb s
  | .smax c rd ra rb => Sys2Proof.Machine.execSmax c rd ra rb s
  | .minu c rd ra rb => Sys2Proof.Machine.execMinu c rd ra rb s
  | .maxu c rd ra rb => Sys2Proof.Machine.execMaxu c rd ra rb s
  | .mul c rd ra rb => Sys2Proof.Machine.execMul c rd ra rb s
  | .mulh c rd ra rb => Sys2Proof.Machine.execMulh c rd ra rb s
  | .mulhu c rd ra rb => Sys2Proof.Machine.execMulhu c rd ra rb s
  | .clz c rd ra rb => Sys2Proof.Machine.execClz c rd ra rb s
  | .popc c rd ra rb => Sys2Proof.Machine.execPopc c rd ra rb s
  | .slli c rd ra rb => Sys2Proof.Machine.execSlli c rd ra rb s
  | .srli c rd ra rb => Sys2Proof.Machine.execSrli c rd ra rb s
  | .srai c rd ra rb => Sys2Proof.Machine.execSrai c rd ra rb s
  | .adda c rd ra rb => Sys2Proof.Machine.execAdda c rd ra rb s
  | .mova c rd ra rb => Sys2Proof.Machine.execMova c rd ra rb s
  | .mfal c rd ra rb => Sys2Proof.Machine.execMfal c rd ra rb s
  | .mfah c rd ra rb => Sys2Proof.Machine.execMfah c rd ra rb s
  | .jalr c rd ra rb => Sys2Proof.Machine.execJalr c rd ra rb s
  | .addi c rd ra imm => Sys2Proof.Machine.execAddi c rd ra imm s
  | .andi c rd ra imm => Sys2Proof.Machine.execAndi c rd ra imm s
  | .ori c rd ra imm => Sys2Proof.Machine.execOri c rd ra imm s
  | .xori c rd ra imm => Sys2Proof.Machine.execXori c rd ra imm s
  | .slti c rd ra imm => Sys2Proof.Machine.execSlti c rd ra imm s
  | .lui c rd ra imm => Sys2Proof.Machine.execLui c rd ra imm s
  | .addaI c rd ra imm => Sys2Proof.Machine.execAddaI c rd ra imm s
  | .ldA c rd ra imm => Sys2Proof.Machine.execLdA c rd ra imm s
  | .stA c rd ra imm => Sys2Proof.Machine.execStA c rd ra imm s
  | .beq c rd ra imm => Sys2Proof.Machine.execBeq c rd ra imm s
  | .bne c rd ra imm => Sys2Proof.Machine.execBne c rd ra imm s
  | .blt c rd ra imm => Sys2Proof.Machine.execBlt c rd ra imm s
  | .bge c rd ra imm => Sys2Proof.Machine.execBge c rd ra imm s
  | .bltu c rd ra imm => Sys2Proof.Machine.execBltu c rd ra imm s
  | .bgeu c rd ra imm => Sys2Proof.Machine.execBgeu c rd ra imm s
  | .jal c rd ra imm => Sys2Proof.Machine.execJal c rd ra imm s
  | .loop c rd ra imm => Sys2Proof.Machine.execLoop c rd ra imm s
  | .ldW c rd ra imm => Sys2Proof.Machine.execLdW c rd ra imm s
  | .ldH c rd ra imm => Sys2Proof.Machine.execLdH c rd ra imm s
  | .ldHs c rd ra imm => Sys2Proof.Machine.execLdHs c rd ra imm s
  | .ldB c rd ra imm => Sys2Proof.Machine.execLdB c rd ra imm s
  | .ldBs c rd ra imm => Sys2Proof.Machine.execLdBs c rd ra imm s
  | .stW c rd ra imm => Sys2Proof.Machine.execStW c rd ra imm s
  | .stH c rd ra imm => Sys2Proof.Machine.execStH c rd ra imm s
  | .stB c rd ra imm => Sys2Proof.Machine.execStB c rd ra imm s
  | .streamGather c eng rsv da doff => Sys2Proof.Machine.execStreamGather c eng rsv da doff s
  | .streamSend c eng rsv da doff => Sys2Proof.Machine.execStreamSend c eng rsv da doff s
  | .streamMcast c eng rsv da doff => Sys2Proof.Machine.execStreamMcast c eng rsv da doff s
  | .streamRsend c eng rsv da doff => Sys2Proof.Machine.execStreamRsend c eng rsv da doff s
  | .waitGe c cidx sf imm => Sys2Proof.Machine.execWaitGe c cidx sf imm s
  | .cntAdd c cidx sf imm => Sys2Proof.Machine.execCntAdd c cidx sf imm s
  | .cntSet c cidx sf imm => Sys2Proof.Machine.execCntSet c cidx sf imm s
  | .cntRd c cidx sf imm => Sys2Proof.Machine.execCntRd c cidx sf imm s
  | .syncArrive c ch rsv => Sys2Proof.Machine.execSyncArrive c ch rsv s
  | .syncWait c ch rsv => Sys2Proof.Machine.execSyncWait c ch rsv s
  | .msgSend c rd ra rb func => Sys2Proof.Machine.execMsgSend c rd ra rb func s
  | .vadd c rd ra rb mask fmt => Sys2Proof.Machine.execVadd c rd ra rb mask fmt s
  | .vsub c rd ra rb mask fmt => Sys2Proof.Machine.execVsub c rd ra rb mask fmt s
  | .vmul c rd ra rb mask fmt => Sys2Proof.Machine.execVmul c rd ra rb mask fmt s
  | .vfma c rd ra rb mask fmt => Sys2Proof.Machine.execVfma c rd ra rb mask fmt s
  | .vmax c rd ra rb mask fmt => Sys2Proof.Machine.execVmax c rd ra rb mask fmt s
  | .vmin c rd ra rb mask fmt => Sys2Proof.Machine.execVmin c rd ra rb mask fmt s
  | .vcmplt c rd ra rb mask fmt => Sys2Proof.Machine.execVcmplt c rd ra rb mask fmt s
  | .vcmpeq c rd ra rb mask fmt => Sys2Proof.Machine.execVcmpeq c rd ra rb mask fmt s
  | .vsel c rd ra rb mask fmt => Sys2Proof.Machine.execVsel c rd ra rb mask fmt s
  | .vrcp c rd ra rb mask fmt => Sys2Proof.Machine.execVrcp c rd ra rb mask fmt s
  | .vrsq c rd ra rb mask fmt => Sys2Proof.Machine.execVrsq c rd ra rb mask fmt s
  | .vexp2 c rd ra rb mask fmt => Sys2Proof.Machine.execVexp2 c rd ra rb mask fmt s
  | .vrsum c rd ra rb mask fmt => Sys2Proof.Machine.execVrsum c rd ra rb mask fmt s
  | .vrmax c rd ra rb mask fmt => Sys2Proof.Machine.execVrmax c rd ra rb mask fmt s
  | .vbcast c rd ra rb mask fmt => Sys2Proof.Machine.execVbcast c rd ra rb mask fmt s
  | .vcvt c rd ra rb mask fmt => Sys2Proof.Machine.execVcvt c rd ra rb mask fmt s
  | .vld c rd ra imm => Sys2Proof.Machine.execVld c rd ra imm s
  | .vst c rd ra imm => Sys2Proof.Machine.execVst c rd ra imm s
  | .mand c rd ra rb => Sys2Proof.Machine.execMand c rd ra rb s
  | .mor c rd ra rb => Sys2Proof.Machine.execMor c rd ra rb s
  | .mxor c rd ra rb => Sys2Proof.Machine.execMxor c rd ra rb s
  | .mnot c rd ra rb => Sys2Proof.Machine.execMnot c rd ra rb s
  | .mset c rd ra rb => Sys2Proof.Machine.execMset c rd ra rb s
  | .mgetl c rd ra rb => Sys2Proof.Machine.execMgetl c rd ra rb s
  | .mgeth c rd ra rb => Sys2Proof.Machine.execMgeth c rd ra rb s
  | .mpopc c rd ra rb => Sys2Proof.Machine.execMpopc c rd ra rb s
  | .mma c w => Sys2Proof.Machine.execMma c w s
  | .sparseLd c w => Sys2Proof.Machine.execSparseLd c w s
  | .accCvt c w => Sys2Proof.Machine.execAccCvt c w s
  | .zmask c w => Sys2Proof.Machine.execZmask c w s
  | .tileLd c w => Sys2Proof.Machine.execTileLd c w s
  | .tileSt c w => Sys2Proof.Machine.execTileSt c w s
  | .matrixQueueStart c mover => Sys2Proof.Machine.execMatrixQueueStart c mover s
  | .matrixOpEnd c mover ces ue => Sys2Proof.Machine.execMatrixOpEnd c mover ces ue s
  | .nop c rd ra rb => Sys2Proof.Machine.execNop c rd ra rb s
  | .sysRd c rd ra rb => Sys2Proof.Machine.execSysRd c rd ra rb s
  | .sysWr c rd ra rb => Sys2Proof.Machine.execSysWr c rd ra rb s
  | .fenceI c rd ra rb => Sys2Proof.Machine.execFenceI c rd ra rb s
  | .taskEnd c ra imm => Sys2Proof.Machine.execTaskEnd c ra imm s
  | .trap c ra imm => Sys2Proof.Machine.execTrap c ra imm s
  | .reservedOpcode c w => Sys2Proof.Machine.execReservedOpcode c w s
  | .asyncTrap c slot => Sys2Proof.Machine.execAsyncTrap c slot s
  | .coreDone c => Sys2Proof.Machine.execCoreDone c s
  | .stuckTask c slot => Sys2Proof.Machine.execStuckTask c slot s
  | .trapValidClear c => Sys2Proof.Machine.execTrapValidClear c s
  | .scrubTick c upsets => Sys2Proof.Machine.execScrubTick c upsets s
  | .spLinmapWrite c k v => Sys2Proof.Machine.execSpLinmapWrite c k v s
  | .spCeClr c => Sys2Proof.Machine.execSpCeClr c s
  | .bulkWrite at_ cr h data => Sys2Proof.Machine.execBulkWrite at_ cr h data s
  | .mcWrite at_ cr h data => Sys2Proof.Machine.execMcWrite at_ cr h data s
  | .mcOpen at_ cr h => Sys2Proof.Machine.execMcOpen at_ cr h s
  | .mcOpenRsp at_ cr h => Sys2Proof.Machine.execMcOpenRsp at_ cr h s
  | .mcClose at_ cr h => Sys2Proof.Machine.execMcClose at_ cr h s
  | .bulkReadReq at_ cr h => Sys2Proof.Machine.execBulkReadReq at_ cr h s
  | .bulkReadRsp at_ cr h data => Sys2Proof.Machine.execBulkReadRsp at_ cr h data s
  | .meldRsp at_ cr h l data => Sys2Proof.Machine.execMeldRsp at_ cr h l data s
  | .pull at_ cr h d => Sys2Proof.Machine.execPull at_ cr h d s
  | .bulkAck at_ cr h => Sys2Proof.Machine.execBulkAck at_ cr h s
  | .bulkError at_ cr h => Sys2Proof.Machine.execBulkError at_ cr h s
  | .ringDetour at_ cr h p => Sys2Proof.Machine.execRingDetour at_ cr h p s
  | .ringPacket stop p => Sys2Proof.Machine.execRingPacket stop p s
  | .ringBreak seg k => Sys2Proof.Machine.execRingBreak seg k s
  | .ringStopReturn stop => Sys2Proof.Machine.execRingStopReturn stop s
  | .meldHoldExpiry c addr len => Sys2Proof.Machine.execMeldHoldExpiry c addr len s
  | .rsendPacket at_ cr h data => Sys2Proof.Machine.execRsendPacket at_ cr h data s
  | .rsendHoldExpiry at_ ent => Sys2Proof.Machine.execRsendHoldExpiry at_ ent s
  | .ctlMsg h lo hi slot cidx off => Sys2Proof.Machine.execCtlMsg h lo hi slot cidx off s
  | .msgAck h status => Sys2Proof.Machine.execMsgAck h status s
  | .setup h off wr size8 data rsv => Sys2Proof.Machine.execSetup h off wr size8 data rsv s
  | .setupRsp h status data => Sys2Proof.Machine.execSetupRsp h status data s
  | .fault h code unit kind dir time => Sys2Proof.Machine.execFault h code unit kind dir time s
  | .faultResend node msgid => Sys2Proof.Machine.execFaultResend node msgid s
  | .demand h region meas pred notP01 chk => Sys2Proof.Machine.execDemand h region meas pred notP01 chk s
  | .grant h region budget hard chk => Sys2Proof.Machine.execGrant h region budget hard chk s
  | .grantReq h region chk => Sys2Proof.Machine.execGrantReq h region chk s
  | .floor h region floor chk => Sys2Proof.Machine.execFloor h region floor chk s
  | .mgmtAck h mtype alive chk => Sys2Proof.Machine.execMgmtAck h mtype alive chk s
  | .chunkCrc h image chunk crc chk => Sys2Proof.Machine.execChunkCrc h image chunk crc chk s
  | .chunkResult h image chunk die ok chk => Sys2Proof.Machine.execChunkResult h image chunk die ok chk s
  | .heartbeat h role count => Sys2Proof.Machine.execHeartbeat h role count s
  | .heartbeatAck h who count => Sys2Proof.Machine.execHeartbeatAck h who count s
  | .prepare h part layer planAddr => Sys2Proof.Machine.execPrepare h part layer planAddr s
  | .dealerReady h part die layer failed => Sys2Proof.Machine.execDealerReady h part die layer failed s
  | .dealerStop h part layer => Sys2Proof.Machine.execDealerStop h part layer s
  | .quiet h part die layer => Sys2Proof.Machine.execQuiet h part die layer s
  | .dealerWake h region target => Sys2Proof.Machine.execDealerWake h region target s
  | .summary h part die layer fflags => Sys2Proof.Machine.execSummary h part die layer fflags s
  | .faultAck h msgid => Sys2Proof.Machine.execFaultAck h msgid s
  | .syncArriveFrame node ch phase => Sys2Proof.Machine.execSyncArriveFrame node ch phase s
  | .syncReleaseFrame node ch phase => Sys2Proof.Machine.execSyncReleaseFrame node ch phase s
  | .syncGo node sender seq layer => Sys2Proof.Machine.execSyncGo node sender seq layer s
  | .clamp node sender seq level => Sys2Proof.Machine.execClamp node sender seq level s
  | .trickFrame node sender seq t n => Sys2Proof.Machine.execTrickFrame node sender seq t n s
  | .trickCopy unit => Sys2Proof.Machine.execTrickCopy unit s
  | .syncFlip node sender seq ver => Sys2Proof.Machine.execSyncFlip node sender seq ver s
  | .syncTimeReq node child id => Sys2Proof.Machine.execSyncTimeReq node child id s
  | .syncTimeRsp node id t2 dt resent => Sys2Proof.Machine.execSyncTimeRsp node id t2 dt resent s
  | .timeSet node value frac => Sys2Proof.Machine.execTimeSet node value frac s
  | .timeSlew node sender seq start adj ticks => Sys2Proof.Machine.execTimeSlew node sender seq start adj ticks s
  | .timeStep node sender seq start delta => Sys2Proof.Machine.execTimeStep node sender seq start delta s
  | .syncFrameCrcError node sender type => Sys2Proof.Machine.execSyncFrameCrcError node sender type s
  | .tableChange tabs => Sys2Proof.Machine.execTableChange tabs s
  | .tableBuffersDrained => Sys2Proof.Machine.execTableBuffersDrained s
  | .rtFlipArm d => Sys2Proof.Machine.execRtFlipArm d s
  | .linkFlitError d way onDie same => Sys2Proof.Machine.execLinkFlitError d way onDie same s
  | .linkResendLimit d way onDie near far => Sys2Proof.Machine.execLinkResendLimit d way onDie near far s
  | .routerBufferUe c => Sys2Proof.Machine.execRouterBufferUe c s
  | .reduceRemote k => Sys2Proof.Machine.execReduceRemote k s
  | .hubScrub k a upsets => Sys2Proof.Machine.execHubScrub k a upsets s
  | .pprRepair stack spare => Sys2Proof.Machine.execPprRepair stack spare s
  | .stackFault stack => Sys2Proof.Machine.execStackFault stack s
  | .stackRetrainTimeout stack => Sys2Proof.Machine.execStackRetrainTimeout stack s
  | .stackThermalTrip stack => Sys2Proof.Machine.execStackThermalTrip stack s
  | .rebuildStripe stack => Sys2Proof.Machine.execRebuildStripe stack s
  | .storeInit src => Sys2Proof.Machine.execStoreInit src s
  | .storeInitComplete failed noSpare => Sys2Proof.Machine.execStoreInitComplete failed noSpare s
  | .reconStart src => Sys2Proof.Machine.execReconStart src s
  | .segMapWrite src j v => Sys2Proof.Machine.execSegMapWrite src j v s
  | .rxaEnable src n v => Sys2Proof.Machine.execRxaEnable src n v s
  | .rxaRdWrite src n v => Sys2Proof.Machine.execRxaRdWrite src n v s
  | .rxaNotify n => Sys2Proof.Machine.execRxaNotify n s
  | .hubCeClr src k => Sys2Proof.Machine.execHubCeClr src k s
  | .loadKernel k => Sys2Proof.Machine.execLoadKernel k s
  | .place k => Sys2Proof.Machine.execPlace k s
  | .runLayer k temps => Sys2Proof.Machine.execRunLayer k temps s
  | .commit k => Sys2Proof.Machine.execCommit k s
  | .release k => Sys2Proof.Machine.execRelease k s
  | .weightStreamComplete part idx => Sys2Proof.Machine.execWeightStreamComplete part idx s
  | .commitCopyStart c => Sys2Proof.Machine.execCommitCopyStart c s
  | .layerTimeLimit part => Sys2Proof.Machine.execLayerTimeLimit part s
  | .sqDoorbell f r v => Sys2Proof.Machine.execSqDoorbell f r v s
  | .cqDoorbell f r v => Sys2Proof.Machine.execCqDoorbell f r v s
  | .descriptorFetch die slots => Sys2Proof.Machine.execDescriptorFetch die slots s
  | .descriptorComplete k => Sys2Proof.Machine.execDescriptorComplete k s
  | .coalesceTimeout r => Sys2Proof.Machine.execCoalesceTimeout r s
  | .ringEnable src r v => Sys2Proof.Machine.execRingEnable src r v s
  | .ringDisable src r v => Sys2Proof.Machine.execRingDisable src r v s
  | .ringDrained r => Sys2Proof.Machine.execRingDrained r s
  | .evtHeadWrite src f v => Sys2Proof.Machine.execEvtHeadWrite src f v s
  | .evtEnable src f v => Sys2Proof.Machine.execEvtEnable src f v s
  | .partWrite src p v => Sys2Proof.Machine.execPartWrite src p v s
  | .segApply src v => Sys2Proof.Machine.execSegApply src v s
  | .segApplyDone => Sys2Proof.Machine.execSegApplyDone s
  | .bar0Access f off n data => Sys2Proof.Machine.execBar0Access f off n data s
  | .bar2Read f off n => Sys2Proof.Machine.execBar2Read f off n s
  | .bar4Access f wr poison off n data => Sys2Proof.Machine.execBar4Access f wr poison off n data s
  | .flr f => Sys2Proof.Machine.execFlr f s
  | .d3hotEntry f => Sys2Proof.Machine.execD3hotEntry f s
  | .perst ep => Sys2Proof.Machine.execPerst ep s
  | .pcieLinkDown ep => Sys2Proof.Machine.execPcieLinkDown ep s
  | .pcieLinkChange ep rate width => Sys2Proof.Machine.execPcieLinkChange ep rate width s
  | .copy k data => Sys2Proof.Machine.execCopy k data s
  | .fill k => Sys2Proof.Machine.execFill k s
  | .check k => Sys2Proof.Machine.execCheck k s
  | .sendRemote k => Sys2Proof.Machine.execSendRemote k s
  | .setTolerance k => Sys2Proof.Machine.execSetTolerance k s
  | .setBudget k => Sys2Proof.Machine.execSetBudget k s
  | .trick k => Sys2Proof.Machine.execTrick k s
  | .readLog k => Sys2Proof.Machine.execReadLog k s
  | .fence k => Sys2Proof.Machine.execFence k s
  | .barrier k => Sys2Proof.Machine.execBarrier k s
  | .barrierTimeout k => Sys2Proof.Machine.execBarrierTimeout k s
  | .fwStage k data => Sys2Proof.Machine.execFwStage k data s
  | .fwActivate k => Sys2Proof.Machine.execFwActivate k s
  | .attest k => Sys2Proof.Machine.execAttest k s
  | .laneHealthInterval k counts => Sys2Proof.Machine.execLaneHealthInterval k counts s
  | .swapConfirmTimeout n => Sys2Proof.Machine.execSwapConfirmTimeout n s
  | .laneSwitchAtFlit n tx => Sys2Proof.Machine.execLaneSwitchAtFlit n tx s
  | .portRetrainWrite src n => Sys2Proof.Machine.execPortRetrainWrite src n s
  | .laneRetest src k l good => Sys2Proof.Machine.execLaneRetest src k l good s
  | .baselineWrite src k v => Sys2Proof.Machine.execBaselineWrite src k v s
  | .portTrainingComplete n rx tx => Sys2Proof.Machine.execPortTrainingComplete n rx tx s
  | .opticalPowerSample k tx rx feed out => Sys2Proof.Machine.execOpticalPowerSample k tx rx feed out s
  | .nofarTimeout k j => Sys2Proof.Machine.execNofarTimeout k j s
  | .marginSample => Sys2Proof.Machine.execMarginSample s
  | .laserTrendCheck k bias weak => Sys2Proof.Machine.execLaserTrendCheck k bias weak s
  | .laserSuddenFail k w => Sys2Proof.Machine.execLaserSuddenFail k w s
  | .interlockBreak k => Sys2Proof.Machine.execInterlockBreak k s
  | .moduleInsert k record => Sys2Proof.Machine.execModuleInsert k record s
  | .laserWarmupComplete k bias => Sys2Proof.Machine.execLaserWarmupComplete k bias s
  | .elsSwapReq src k => Sys2Proof.Machine.execElsSwapReq src k s
  | .elsSwapCancel src k => Sys2Proof.Machine.execElsSwapCancel src k s
  | .drainComplete n => Sys2Proof.Machine.execDrainComplete n s
  | .drainTimeout n => Sys2Proof.Machine.execDrainTimeout n s
  | .flitReceive n good cells => Sys2Proof.Machine.execFlitReceive n good cells s
  | .lctlAckCredit n c => Sys2Proof.Machine.execLctlAckCredit n c s
  | .lctlNak n c => Sys2Proof.Machine.execLctlNak n c s
  | .lctlReplayMarker n c => Sys2Proof.Machine.execLctlReplayMarker n c s
  | .lctlInit n c => Sys2Proof.Machine.execLctlInit n c s
  | .lctlSwapReq n c => Sys2Proof.Machine.execLctlSwapReq n c s
  | .lctlSwapConf n c => Sys2Proof.Machine.execLctlSwapConf n c s
  | .lctlNarrowReq n c => Sys2Proof.Machine.execLctlNarrowReq n c s
  | .lctlNarrowConf n c => Sys2Proof.Machine.execLctlNarrowConf n c s
  | .lctlReject n c => Sys2Proof.Machine.execLctlReject n c s
  | .replayTimeout n => Sys2Proof.Machine.execReplayTimeout n s
  | .lctlSendTimer n => Sys2Proof.Machine.execLctlSendTimer n s
  | .jxPortUp n => Sys2Proof.Machine.execJxPortUp n s
  | .jxWrite n h data => Sys2Proof.Machine.execJxWrite n h data s
  | .jxDeliver n h data => Sys2Proof.Machine.execJxDeliver n h data s
  | .jxReduce n h data => Sys2Proof.Machine.execJxReduce n h data s
  | .jxReadReq n h => Sys2Proof.Machine.execJxReadReq n h s
  | .jxReadRsp n h data => Sys2Proof.Machine.execJxReadRsp n h data s
  | .jxAck n h => Sys2Proof.Machine.execJxAck n h s
  | .jxTransferTimeout xid pidx => Sys2Proof.Machine.execJxTransferTimeout xid pidx s
  | .barArrive n h data => Sys2Proof.Machine.execBarArrive n h data s
  | .barRelease n h => Sys2Proof.Machine.execBarRelease n h s
  | .hello n h data => Sys2Proof.Machine.execHello n h data s
  | .helloTimer n => Sys2Proof.Machine.execHelloTimer n s
  | .farvalidTimeout n => Sys2Proof.Machine.execFarvalidTimeout n s
  | .routeAdv n h data => Sys2Proof.Machine.execRouteAdv n h data s
  | .routeAdvTimer => Sys2Proof.Machine.execRouteAdvTimer s
  | .timeReq n h data => Sys2Proof.Machine.execTimeReq n h data s
  | .timeRsp n h data => Sys2Proof.Machine.execTimeRsp n h data s
  | .jxTimeTimer => Sys2Proof.Machine.execJxTimeTimer s
  | .timeLockLoss => Sys2Proof.Machine.execTimeLockLoss s
  | .linkinfo n h data => Sys2Proof.Machine.execLinkinfo n h data s
  | .sealOffer n offer far => Sys2Proof.Machine.execSealOffer n offer far s
  | .sealConfirm n tag => Sys2Proof.Machine.execSealConfirm n tag s
  | .sealOfferTimeout n => Sys2Proof.Machine.execSealOfferTimeout n s
  | .sealRetryTimer n => Sys2Proof.Machine.execSealRetryTimer n s
  | .rekeyTimer n => Sys2Proof.Machine.execRekeyTimer n s
  | .sealReqWrite src n v => Sys2Proof.Machine.execSealReqWrite src n v s
  | .sealRekey src n => Sys2Proof.Machine.execSealRekey src n s
  | .jxRtWrite src d v => Sys2Proof.Machine.execJxRtWrite src d v s
  | .jxSelfWrite src v => Sys2Proof.Machine.execJxSelfWrite src v s
  | .jxAliasWrite src k v => Sys2Proof.Machine.execJxAliasWrite src k v s
  | .linkTraining d way ctl sync eyes farEyes good compat => Sys2Proof.Machine.execLinkTraining d way ctl sync eyes farEyes good compat s
  | .monitorSweep d way group wire eye => Sys2Proof.Machine.execMonitorSweep d way group wire eye s
  | .compatTrainingComplete d way ok => Sys2Proof.Machine.execCompatTrainingComplete d way ok s
  | .forceCompatWrite src d w v => Sys2Proof.Machine.execForceCompatWrite src d w v s
  | .linkRetrainWrite src d w => Sys2Proof.Machine.execLinkRetrainWrite src d w s
  | .guestWrite g h data => Sys2Proof.Machine.execGuestWrite g h data s
  | .guestReadReq g h => Sys2Proof.Machine.execGuestReadReq g h s
  | .guestCredit g req rsp => Sys2Proof.Machine.execGuestCredit g req rsp s
  | .sidebandTimeout g => Sys2Proof.Machine.execSidebandTimeout g s
  | .guestAdmission q => Sys2Proof.Machine.execGuestAdmission q s
  | .mboxGo src g => Sys2Proof.Machine.execMboxGo src g s
  | .mboxPoll g flag answer => Sys2Proof.Machine.execMboxPoll g flag answer s
  | .mboxTimeout g => Sys2Proof.Machine.execMboxTimeout g s
  | .guestLinkDrop g => Sys2Proof.Machine.execGuestLinkDrop g s
  | .refclkLost node b => Sys2Proof.Machine.execRefclkLost node b s
  | .refclkMismatch node => Sys2Proof.Machine.execRefclkMismatch node s
  | .refclkRestored node b boot => Sys2Proof.Machine.execRefclkRestored node b boot s
  | .droopDetect d cl mv => Sys2Proof.Machine.execDroopDetect d cl mv s
  | .droopRelax d cl => Sys2Proof.Machine.execDroopRelax d cl s
  | .clusterFloorWrite src d cl v => Sys2Proof.Machine.execClusterFloorWrite src d cl v s
  | .replicaReading u slack => Sys2Proof.Machine.execReplicaReading u slack s
  | .anchorLatch => Sys2Proof.Machine.execAnchorLatch s
  | .ptExchangeTimer node => Sys2Proof.Machine.execPtExchangeTimer node s
  | .ptLockTimeout node => Sys2Proof.Machine.execPtLockTimeout node s
  | .bladeLost b => Sys2Proof.Machine.execBladeLost b s
  | .bladeRestored b => Sys2Proof.Machine.execBladeRestored b s
  | .phaseImbalance d phase => Sys2Proof.Machine.execPhaseImbalance d phase s
  | .ctPhaseFail n phase => Sys2Proof.Machine.execCtPhaseFail n phase s
  | .fuseTrip n cause => Sys2Proof.Machine.execFuseTrip n cause s
  | .fuseRetry src n => Sys2Proof.Machine.execFuseRetry src n s
  | .ctSwapReq src n => Sys2Proof.Machine.execCtSwapReq src n s
  | .ctSwapProceed n => Sys2Proof.Machine.execCtSwapProceed n s
  | .ctSwapCancel src n => Sys2Proof.Machine.execCtSwapCancel src n s
  | .ctSeated n record => Sys2Proof.Machine.execCtSeated n record s
  | .ctPulled n => Sys2Proof.Machine.execCtPulled n s
  | .budgetExchange m => Sys2Proof.Machine.execBudgetExchange m s
  | .grantTimeout r => Sys2Proof.Machine.execGrantTimeout r s
  | .regionPowerLoop r input order => Sys2Proof.Machine.execRegionPowerLoop r input order s
  | .hardLimitTrip rgn n => Sys2Proof.Machine.execHardLimitTrip rgn n s
  | .excursionLimit => Sys2Proof.Machine.execExcursionLimit s
  | .excursionRecovered => Sys2Proof.Machine.execExcursionRecovered s
  | .anteRequest r why => Sys2Proof.Machine.execAnteRequest r why s
  | .anteEvaluation m => Sys2Proof.Machine.execAnteEvaluation m s
  | .anteTimeout r => Sys2Proof.Machine.execAnteTimeout r s
  | .rampComplete r => Sys2Proof.Machine.execRampComplete r s
  | .antePeriodEnd r => Sys2Proof.Machine.execAntePeriodEnd r s
  | .idleStateEntry r target tabs => Sys2Proof.Machine.execIdleStateEntry r target tabs s
  | .regionWake r => Sys2Proof.Machine.execRegionWake r s
  | .inputVOutOfRange volt => Sys2Proof.Machine.execInputVOutOfRange volt s
  | .inputVLowClamp volt => Sys2Proof.Machine.execInputVLowClamp volt s
  | .inputVCutoff volt => Sys2Proof.Machine.execInputVCutoff volt s
  | .inputVRestored volt => Sys2Proof.Machine.execInputVRestored volt s
  | .coolantPoll inlet outlet flow fault rising => Sys2Proof.Machine.execCoolantPoll inlet outlet flow fault rising s
  | .coolantDataTimeout => Sys2Proof.Machine.execCoolantDataTimeout s
  | .flowFaultAssert => Sys2Proof.Machine.execFlowFaultAssert s
  | .junctionSample d cl diode ring => Sys2Proof.Machine.execJunctionSample d cl diode ring s
  | .clusterHoldRelease d cl => Sys2Proof.Machine.execClusterHoldRelease d cl s
  | .thermalRank => Sys2Proof.Machine.execThermalRank s
  | .holdRelease r => Sys2Proof.Machine.execHoldRelease r s
  | .thermalTrip r d => Sys2Proof.Machine.execThermalTrip r d s
  | .tripReturn r => Sys2Proof.Machine.execTripReturn r s
  | .tripClrWrite src v => Sys2Proof.Machine.execTripClrWrite src v s
  | .perimThermalLimit u temp => Sys2Proof.Machine.execPerimThermalLimit u temp s
  | .managedStop => Sys2Proof.Machine.execManagedStop s
  | .managedStopLayerLimit => Sys2Proof.Machine.execManagedStopLayerLimit s
  | .managedStopClamp => Sys2Proof.Machine.execManagedStopClamp s
  | .managedStopEnd => Sys2Proof.Machine.execManagedStopEnd s
  | .abruptClampLevel2 => Sys2Proof.Machine.execAbruptClampLevel2 s
  | .abruptLayerEnd => Sys2Proof.Machine.execAbruptLayerEnd s
  | .abruptStopEnd => Sys2Proof.Machine.execAbruptStopEnd s
  | .flowGuard r => Sys2Proof.Machine.execFlowGuard r s
  | .powerOn b => Sys2Proof.Machine.execPowerOn b s
  | .trayReset => Sys2Proof.Machine.execTrayReset s
  | .warmReset src v b => Sys2Proof.Machine.execWarmReset src v b s
  | .watchdogKick src sd => Sys2Proof.Machine.execWatchdogKick src sd s
  | .watchdogExpiry sd us => Sys2Proof.Machine.execWatchdogExpiry sd us s
  | .blockReset scope cause => Sys2Proof.Machine.execBlockReset scope cause s
  | .blockIdle scope => Sys2Proof.Machine.execBlockIdle scope s
  | .blockIdleTimeout scope => Sys2Proof.Machine.execBlockIdleTimeout scope s
  | .regionReset r => Sys2Proof.Machine.execRegionReset r s
  | .dieReset d => Sys2Proof.Machine.execDieReset d s
  | .configSave src => Sys2Proof.Machine.execConfigSave src s
  | .coreFold c code => Sys2Proof.Machine.execCoreFold c code s
  | .boundaryFold c => Sys2Proof.Machine.execBoundaryFold c s
  | .quietTimeout part die => Sys2Proof.Machine.execQuietTimeout part die s
  | .dieFold d code tabs lost => Sys2Proof.Machine.execDieFold d code tabs lost s
  | .dieRetry d ok tabs => Sys2Proof.Machine.execDieRetry d ok tabs s
  | .regionLoss r tabs lost => Sys2Proof.Machine.execRegionLoss r tabs lost s
  | .regionReturn r tabs => Sys2Proof.Machine.execRegionReturn r tabs s
  | .kittySelftest c pass => Sys2Proof.Machine.execKittySelftest c pass s
  | .stewardHeartbeatTimer wire => Sys2Proof.Machine.execStewardHeartbeatTimer wire s
  | .stewardTakeover us => Sys2Proof.Machine.execStewardTakeover us s
  | .standbyFailure => Sys2Proof.Machine.execStandbyFailure s
  | .stewardLost hid => Sys2Proof.Machine.execStewardLost hid s
  | .managerHeartbeatTimer r sent => Sys2Proof.Machine.execManagerHeartbeatTimer r sent s
  | .managerTakeover r => Sys2Proof.Machine.execManagerTakeover r s
  | .trickCollectionTimeout => Sys2Proof.Machine.execTrickCollectionTimeout s
  | .trickComplete => Sys2Proof.Machine.execTrickComplete s
  | .dailyTrick => Sys2Proof.Machine.execDailyTrick s
  | .counterWrapEvent unit => Sys2Proof.Machine.execCounterWrapEvent unit s
  | .logRecordWrite kind unit payload => Sys2Proof.Machine.execLogRecordWrite kind unit payload s
  | .logDeviceFail dev => Sys2Proof.Machine.execLogDeviceFail dev s
  | .telImgWrite src v => Sys2Proof.Machine.execTelImgWrite src v s
  | .hlthClr src d n v => Sys2Proof.Machine.execHlthClr src d n v s
  | .authChallenge q role => Sys2Proof.Machine.execAuthChallenge q role s
  | .authResponse q role keyid sig => Sys2Proof.Machine.execAuthResponse q role keyid sig s
  | .authLockExpiry q => Sys2Proof.Machine.execAuthLockExpiry q s
  | .authDrop q => Sys2Proof.Machine.execAuthDrop q s
  | .ownerEnroll q slot key => Sys2Proof.Machine.execOwnerEnroll q slot key s
  | .ownerRevoke q slot => Sys2Proof.Machine.execOwnerRevoke q slot s
  | .cosignSet q => Sys2Proof.Machine.execCosignSet q s
  | .operatorSet q slot key => Sys2Proof.Machine.execOperatorSet q slot key s
  | .zeroise q b => Sys2Proof.Machine.execZeroise q b s
  | .selftest q failed => Sys2Proof.Machine.execSelftest q failed s
  | .keyringTamper sd kind b => Sys2Proof.Machine.execKeyringTamper sd kind b s
  | .spdmGetVersion via => Sys2Proof.Machine.execSpdmGetVersion via s
  | .spdmGetCapabilities via => Sys2Proof.Machine.execSpdmGetCapabilities via s
  | .spdmNegotiateAlgorithms via offers => Sys2Proof.Machine.execSpdmNegotiateAlgorithms via offers s
  | .spdmGetDigests via => Sys2Proof.Machine.execSpdmGetDigests via s
  | .spdmGetCertificate via slot off len => Sys2Proof.Machine.execSpdmGetCertificate via slot off len s
  | .spdmChallenge via slot nonce => Sys2Proof.Machine.execSpdmChallenge via slot nonce s
  | .spdmGetMeasurements via idx signed nonce => Sys2Proof.Machine.execSpdmGetMeasurements via idx signed nonce s
  | .spdmVendorLogRead via cursor die kind maxlen req => Sys2Proof.Machine.execSpdmVendorLogRead via cursor die kind maxlen req s
  | .ckuStart src u v => Sys2Proof.Machine.execCkuStart src u v s
  | .ckuDataWrite src u v => Sys2Proof.Machine.execCkuDataWrite src u v s
  | .ckuClr src u v => Sys2Proof.Machine.execCkuClr src u v s
  | .protectedAckTimeout snode dnode mtype alive => Sys2Proof.Machine.execProtectedAckTimeout snode dnode mtype alive s
  | .setupLockWrite src v => Sys2Proof.Machine.execSetupLockWrite src v s
  | .registerWrite src off n v => Sys2Proof.Machine.execRegisterWrite src off n v s
  | .i3cRoleRequest => Sys2Proof.Machine.execI3cRoleRequest s
  | .i3cTakeBack => Sys2Proof.Machine.execI3cTakeBack s
  | .trayI3cAccess wr => Sys2Proof.Machine.execTrayI3cAccess wr s
  | .i3cTargetTimeout els k => Sys2Proof.Machine.execI3cTargetTimeout els k s
  | .elsLaserEn k v => Sys2Proof.Machine.execElsLaserEn k v s
  | .ctOutEn k v => Sys2Proof.Machine.execCtOutEn k v s
  | .stackRetrained stack => Sys2Proof.Machine.execStackRetrained stack s
  | .cartridgeFault n => Sys2Proof.Machine.execCartridgeFault n s
  | .vfEnable ep en num => Sys2Proof.Machine.execVfEnable ep en num s
  | .hostRequestRejected q => Sys2Proof.Machine.execHostRequestRejected q s
  | .perstDeassertion ep => Sys2Proof.Machine.execPerstDeassertion ep s
  | .trayResetRelease b => Sys2Proof.Machine.execTrayResetRelease b s
  | .flowFaultDeasserted => Sys2Proof.Machine.execFlowFaultDeasserted s
  | .hardLimitForceEnd rgn n => Sys2Proof.Machine.execHardLimitForceEnd rgn n s
  | .perimThermalClear u temp => Sys2Proof.Machine.execPerimThermalClear u temp s
  | .laneLockLoss k l regained => Sys2Proof.Machine.execLaneLockLoss k l regained s
  | .slewStepStart => Sys2Proof.Machine.execSlewStepStart s
  | .standbyMirrorComplete => Sys2Proof.Machine.execStandbyMirrorComplete s
  | .handoverWaitExpiry => Sys2Proof.Machine.execHandoverWaitExpiry s
  | .entropyHealthTestFail sd => Sys2Proof.Machine.execEntropyHealthTestFail sd s

end Sys2Proof.Machine
end

