-- ==== Sys2Proof/Machine/Ticks.lean ====
section
/-! DEFINITION. What a tick of panel time does while no command waits (R456, R457; log entry 1). -/

namespace Sys2Proof.Machine

/-- A panel-time tick (R457): 4 ns, and while a SLEW lasts its adjustment in 2^−16 ns, gathered in the hidden fraction; the visible count rises by 3, 4
or 5, modulo its 64 bits. -/
def State.tickTime (s : State) : State :=
  if s.clk.slewLeft = 0 then { s with ptime := (s.ptime + 4) % 2 ^ 64 }
  else
    let f : Int := (s.clk.frac : Int) + s.clk.slewAmt
    let up : Int := f / 65536
    let s := { s with
      ptime := (((s.ptime : Int) + 4 + up) % ((2 ^ 64 : Nat) : Int)).toNat
      clk := { s.clk with frac := (f % 65536).toNat, slewLeft := s.clk.slewLeft - 1 } }
    if s.clk.slewLeft = 0 then s.wr CLK_PT_STAT.SLEWING 0 else s

/-- A tick: time goes on, the sync links send what waits for them (R191), a module whose lasers are off for a swap may be
pulled (R374 step 3), and a stopped die that has become quiet says so (R553). -/
def State.tick (s : State) : State := s.tickTime.syncTick.elsTick.quietTick

end Sys2Proof.Machine
end

