-- ==== Sys2Proof/Machine/Packets.lean ====
section
/-! DEFINITION. How packets and frames lie on their links: the flits of bulk packets (R163, R164, R180, R182), and sync frames with their CRC (R190). -/

namespace Sys2Proof.Machine

/-! ### Bulk packets -/

/-- Bytes 0 to 31 of the header flit (R163); reserved bits are zero. -/
def headerBytes (h : BulkHdr) : List Byte :=
  leBytes 1 (h.type % 16 + h.vc % 8 * 2 ^ 4 + b2n h.hold * 2 ^ 7) ++
  leBytes 1 (h.dkind % 4 + b2n h.abs_ * 2 ^ 2 + b2n h.sperim * 2 ^ 3 + h.status % 16 * 2 ^ 4) ++
  leBytes 2 (h.plen % 2048) ++
  leBytes 1 h.x0 ++ leBytes 1 h.y0 ++ leBytes 1 h.x1 ++ leBytes 1 h.y1 ++
  leBytes 1 h.sx ++ leBytes 1 h.sy ++ leBytes 2 h.tag ++
  leBytes 4 (h.toff % 2 ^ 18 + h.slot % 4 * 2 ^ 18 + h.cnt % 64 * 2 ^ 20 + b2n h.cntEn * 2 ^ 26 + h.op % 16 * 2 ^ 27) ++
  leBytes 2 h.inc ++ leBytes 1 h.scode ++ [0] ++ leBytes 4 (h.soff % 2 ^ 18) ++ leBytes 8 (h.addr % 2 ^ 48)

/-- The header that bytes 0 to 31 of a header flit hold (R163). -/
def headerOf (l : List Byte) : BulkHdr :=
  let b := fun (o n : Nat) => leField l o n
  let w := b 12 4
  { type := bitsOf (b 0 1) 0 4, vc := bitsOf (b 0 1) 4 3, hold := bitOf (b 0 1) 7
    dkind := bitsOf (b 1 1) 0 2, abs_ := bitOf (b 1 1) 2, sperim := bitOf (b 1 1) 3, status := bitsOf (b 1 1) 4 4
    plen := bitsOf (b 2 2) 0 11, x0 := b 4 1, y0 := b 5 1, x1 := b 6 1, y1 := b 7 1, sx := b 8 1, sy := b 9 1, tag := b 10 2
    toff := bitsOf w 0 18, slot := bitsOf w 18 2, cnt := bitsOf w 20 6, cntEn := bitOf w 26, op := bitsOf w 27 4
    inc := b 16 2, scode := b 18 1, soff := bitsOf (b 20 4) 0 18, addr := bitsOf (b 24 8) 0 48 }

/-- The 32 bytes of a stream descriptor (R64), which a PULL copies (R180). -/
def descBytes (d : StreamDesc) : List Byte :=
  let w := if d.space = 0 then d.addr % 2 ^ 48
    else d.vx % 256 + d.vy % 128 * 2 ^ 8 + d.slot % 4 * 2 ^ 16 + d.roff % 2 ^ 18 * 2 ^ 18 + d.vx1 % 256 * 2 ^ 36 + d.vy1 % 128 * 2 ^ 44 + 2 ^ 63
  leBytes 4 (d.localOff % 2 ^ 18) ++ leBytes 2 d.rowBytes ++ leBytes 2 d.rowCount ++ leBytes 8 w ++ leBytes 4 (d.lstride % 2 ^ 18) ++ leBytes 4 d.rstride ++
  leBytes 1 (d.lcnt % 64 + d.lcntEn % 2 * 2 ^ 7) ++ leBytes 1 (d.rcnt % 64 + d.rcntEn % 2 * 2 ^ 7) ++ leBytes 2 d.linc ++ leBytes 2 d.rinc ++
  leBytes 1 (d.op % 16) ++ [0]

/-- The entries of a meld list, 4 bytes each (R182). -/
def meldBytes (l : List MeldEnt) : List Byte := l.flatMap (fun e => leBytes 1 e.x ++ leBytes 1 e.y ++ leBytes 2 e.tag)

/-- The meld list that bytes hold. -/
def meldOf : Nat → List Byte → List MeldEnt
  | 0, _ => []
  | n + 1, l => { x := leField l 0 1, y := leField l 1 1, tag := leField l 2 2 } :: meldOf n (l.drop 4)

/-- Data flits of 128 bytes, the last filled with zeros. -/
def dataFlits : Nat → List Byte → List (List Byte)
  | 0, _ => []
  | n + 1, l => fixLen 128 (l.take 128) :: dataFlits n (l.drop 128)

/-- The flits of a bulk packet (R164, R180, R182): the header flit, with a payload of at most 96 bytes, a descriptor or a meld list from byte 32 on, and the
data flits of a longer payload or of a MELD_RSP. -/
def BulkPkt.wire (q : BulkPkt) : List (List Byte) :=
  let n := flits q.h - 1
  match q.body with
  | .data l => if n = 0 then [headerBytes q.h ++ fixLen 96 l] else (headerBytes q.h ++ fixLen 96 []) :: dataFlits n l
  | .meld l d => (headerBytes q.h ++ fixLen 96 (meldBytes l)) :: dataFlits n d
  | .pull d => [headerBytes q.h ++ fixLen 96 (descBytes d)]

/-! ### Sync frames (R190) -/

/-- The CRC-4 of a frame: x^4 + x + 1, initial value 0, over bits [31:0], from bit 31 down (DEDUCED, log entry 93: as R630 takes bits). -/
def crc4 (w : Nat) : Nat := (List.range 32).foldl (fun r i => crcBit 4 3 r (bitsOf w (31 - i) 1)) 0

/-- A frame's 36 bits: 32 bits and their CRC. -/
def syncFrame (w : Nat) : Nat := w % 2 ^ 32 + crc4 (w % 2 ^ 32) * 2 ^ 32

/-- Is a frame received without a CRC error? -/
def frameOk (f : Nat) : Bool := decide (bitsOf f 32 4 = crc4 (f % 2 ^ 32))

/-- The frames of a message: the first with TYPE, LEN, SEQ and ARG, and its data frames. -/
def SyncMsg.wire (m : SyncMsg) : List Nat :=
  syncFrame (m.type % 16 + m.data.length % 4 * 2 ^ 4 + m.seq % 16 * 2 ^ 8 + m.arg % 2 ^ 20 * 2 ^ 12) :: m.data.map syncFrame

/-- The message that frames hold; none where one has a CRC error, which discards them all, or where frames are missing. -/
def syncOf (l : List Nat) : Option SyncMsg :=
  match l with
  | [] => none
  | f :: t =>
    if l.all frameOk && decide (t.length = bitsOf f 4 2) then
      some { type := bitsOf f 0 4, seq := bitsOf f 8 4, arg := bitsOf f 12 20, data := t.map (fun x => x % 2 ^ 32) }
    else none

end Sys2Proof.Machine
end

