-- ==== Sys2Proof/Machine/Pins.lean ====
section
/-! DEFINITION. The outputs of the signal connector J1 (R671, R672): what each pin shows in a state. An open-drain pin shows true while it is
released. The inputs of J1 are commands, and what the panel knows of them is in the state. -/

namespace Sys2Proof.Machine

/-- PWR_GOOD: CT18 or CT19 is ON, and with it both steward dies are powered (R28, R495). -/
def State.pwrGood (s : State) : Bool := s.boot.on && !s.coreless

/-- THERM_TRIP_N: low while any region is tripped (R511, R671); an unpowered panel drives nothing (R495). -/
def State.thermTripN (s : State) : Bool := !(s.pwrGood && (List.range 16).any (fun r => s.bit (THM_RGN.TRIPPED r)))

/-- Is the input voltage, once measured, outside 44 V to 58 V (R494, R672)? -/
def State.voltOut (s : State) : Bool :=
  let v := s.rd PWR_IN.VOLT
  decide (v ≠ 0) && (decide (v < 4400) || decide (5800 < v))

/-- The conditions of R672. -/
def State.alerting (s : State) : Bool :=
  decide (s.rd THM_STAT.FLOW_STATE ≠ 0) ||
    (List.range 16).any (fun r => s.bit (THM_RGN.HELD r) || s.bit (THM_RGN.TRIPPED r)) ||
    (List.range 20).any (fun n => decide (s.ct n = 4) || decide (s.ct n = 6)) ||
    s.bit GLB_STW_STAT.LOST_BOTH ||
    decide (s.rd RST_BOOT_STAT.STATE = 2) || decide (s.rd RST_BOOT_STAT.STATE = 3) ||
    s.voltOut

/-- ALERT_N: low while a condition of R672 holds. -/
def State.alertN (s : State) : Bool := !(s.pwrGood && s.alerting)

/-- PRSNT_N is tied to ground on the panel (R671). -/
def State.prsntN (_s : State) : Bool := false

end Sys2Proof.Machine
end

