-- ==== Sys2Proof/Safety.lean ====
section
/-! DEFINITION. What the statements speak of: the canonical form of a state's tables, a core that issues an instruction, and what running it
leaves as it was. -/

namespace Sys2Proof.Machine

/-- The register table and the memory are in canonical form: keys strictly rising, no entry equal to what an unlisted key reads as. -/
def State.Canon (s : State) : Prop := Tab.wf 0 s.regs = true ∧ Memory.wf s.mem = true

/-- Slot `i` of core `c` issues an instruction of `size` bytes: the cluster clock runs and the core is not fenced (R190, R491, R85), the slot is
RUNNING (R35), no asynchronous trap waits for its boundary (R69), and the fetch succeeds, leaving `u` (R45, R46). -/
def State.Issues (s : State) (c i size : Nat) (u : State) : Prop :=
  s.canIssue c = true ∧ (s.core c).running = some i ∧ (s.core c).async.find? (fun a => decide (a.slot = i)) = none ∧
    s.fetch c i size = (u, none)

/-- `t` is `u` after slot `i` of core `c` has completed an instruction that moves its task on by `f`: the task, the counter of instructions
(R581), and other slots of the core that wake (R36); nothing else. -/
def Ran (u t : State) (c i : Nat) (f : Task → Task) : Prop :=
  let cnt := CD_PERF.COUNT (coreDie c) (coreN c) 1
  let wrap := CD_PERF_WRAP.WRAP (coreDie c) (coreN c)
  t.task c i = f (u.task c i) ∧
  (∀ j, j ≠ i → t.task c j = u.task c j ∨
    ((u.task c j).st = .waiting ∧ t.task c j = { u.task c j with st := .ready, wait := none })) ∧
  { t.core c with tasks := [] } = { u.core c with tasks := [] } ∧
  (∀ d, d ≠ c → t.core d = u.core d) ∧
  t.rd cnt = (u.rd cnt + 1) % 2 ^ 48 ∧
  (∀ g, g.key ≠ cnt.key → g.key ≠ wrap.key → t.rd g = u.rd g) ∧
  { t.tel with wraps := [] } = { u.tel with wraps := [] } ∧
  { t with cores := [], regs := [], tel := Tel.reset } = { u with cores := [], regs := [], tel := Tel.reset }

/-- Command `x` in state `s` completes: exec answers the next state that running the instruction from `u`, which holds its own effect, gives. -/
def Completes (x : Instr) (s u : State) (c i : Nat) (f : Task → Task) : Prop :=
  ∃ t, exec x s = .next t ∧ Ran u t c i f

/-- Descriptor `k` is fetched, is of opcode `op`, may begin and stands no check against it (R301, R334 to R336): its own effect comes next. -/
def State.Begins (s : State) (k op : Nat) (d : Desc) : Prop :=
  s.descOf k = some d ∧ d.st = .fetched ∧ d.op = op ∧ s.mayBegin d = true ∧ s.descFault d = none ∧ s.recoveryOnly d = false ∧
    (s.bit GLB_STW_STAT.LOST_BOTH && needsSteward d) = false

/-- A location takes a bulk packet: its die's fabric is on (R157), no packet of the same VC is ahead of it in its input buffer, where it is on a link that
leads there (R159, R162), and, for a request, no idle request stands against its block (R530). -/
def State.Takes (s : State) (loc : Nat) (h : BulkHdr) : Prop :=
  (loc < 36864 → s.dieAbsent (coreDie loc) = false) ∧ s.blocked loc h = false ∧ (BulkHdr.request h = true → s.idling loc = false)

/-- A control packet for one node arrives: both routers are on and the tables lead there (R156, R157, R171). -/
def State.CtlArrives (s : State) (h : CtlHdr) : Prop := h.bcast = false ∧ s.ctlRoute h.snode h.dnode = true

/-- `t` is `s` but for registers, error marks, the fault reports sent, and the corrected errors of cores with their times and the day's count: what meeting
a memory error may change (R131 to R134, R549, R593). -/
def ErrOnly (s t : State) : Prop :=
  { t with regs := [], ecc := [], cores := [], net := Net.reset, out := [], tel := Tel.reset } =
    { s with regs := [], ecc := [], cores := [], net := Net.reset, out := [], tel := Tel.reset } ∧
  (∀ c, { t.core c with ceTimes := [] } = { s.core c with ceTimes := [] }) ∧ { t.tel with day := [] } = { s.tel with day := [] }

/-- Register `v` and flags `fl` are what lane function `f` gives over `n` lanes of `w` bits: masked lanes take its value, every other lane keeps that
of `d` (R59), and a flag is set where a masked lane sets it (R78). -/
def LaneWise (w n : Nat) (m : M64) (d : V512) (f : Nat → Nat × Nat) (v : V512) (fl : Nat) : Prop :=
  (∀ j, j < n → lane w v j = if m.getLsbD j then (f j).1 % 2 ^ w else lane w d j) ∧
  (∀ j, n ≤ j → j < 512 / w → lane w v j = lane w d j) ∧
  ∀ b, fl.testBit b = true ↔ ∃ j, j < n ∧ m.getLsbD j = true ∧ (f j).2.testBit b = true

/-- Mask register `v` and flags `fl` are what `f` gives over `n` lanes: masked bits take its bit, every other bit keeps that of `d` (R59). -/
def MaskWise (n : Nat) (m d : M64) (f : Nat → Bool × Nat) (v : M64) (fl : Nat) : Prop :=
  (∀ j, j < 64 → v.getLsbD j = if j < n ∧ m.getLsbD j = true then (f j).1 else d.getLsbD j) ∧
  ∀ b, fl.testBit b = true ↔ ∃ j, j < n ∧ m.getLsbD j = true ∧ (f j).2.testBit b = true

end Sys2Proof.Machine
end

