-- ==== Sys2Proof/Certificates/Slice0/Obligations.lean ====
section
/-! DEFINITION. The statements for the provers: what the panel's commands do, by the rules of spec/, and what every step keeps. -/

open Sys2Proof Sys2Proof.Machine

/-! ### Core instructions -/

/-- R56: the scalar register forms, each completing with its result in g[RD] (g0 discards it); CLZ and POPC need RB zero. -/
def Obligations.ScalarRegisterFormsGiveTheirResults : Prop :=
  ∀ (s u : State) (c i : Nat) (rd ra rb : BitVec 5), s.Issues c i 4 u →
    let x := (u.task c i).rg ra
    let y := (u.task c i).rg rb
    let gives := fun (op : Instr) (v : W32) => Completes op s (u.updTask c i (fun t => t.wg rd v)) c i (fun t => t.advance 4)
    gives (.add c rd ra rb) (BitVec.ofNat 32 (x.toNat + y.toNat)) ∧
    gives (.sub c rd ra rb) (BitVec.ofInt 32 ((x.toNat : Int) - y.toNat)) ∧
    gives (.and c rd ra rb) (x &&& y) ∧ gives (.or c rd ra rb) (x ||| y) ∧ gives (.xor c rd ra rb) (x ^^^ y) ∧
    gives (.sll c rd ra rb) (BitVec.ofNat 32 (x.toNat * 2 ^ (y.toNat % 32))) ∧
    gives (.srl c rd ra rb) (BitVec.ofNat 32 (x.toNat / 2 ^ (y.toNat % 32))) ∧
    gives (.sra c rd ra rb) (BitVec.ofInt 32 (x.toInt / 2 ^ (y.toNat % 32))) ∧
    gives (.slt c rd ra rb) (if x.toInt < y.toInt then 1 else 0) ∧ gives (.sltu c rd ra rb) (if x.toNat < y.toNat then 1 else 0) ∧
    gives (.smin c rd ra rb) (if x.toInt ≤ y.toInt then x else y) ∧ gives (.smax c rd ra rb) (if x.toInt ≤ y.toInt then y else x) ∧
    gives (.minu c rd ra rb) (if x.toNat ≤ y.toNat then x else y) ∧ gives (.maxu c rd ra rb) (if x.toNat ≤ y.toNat then y else x) ∧
    gives (.mul c rd ra rb) (BitVec.ofNat 32 (x.toNat * y.toNat)) ∧
    gives (.mulh c rd ra rb) (BitVec.ofInt 32 (x.toInt * y.toInt / 2 ^ 32)) ∧
    gives (.mulhu c rd ra rb) (BitVec.ofNat 32 (x.toNat * y.toNat / 2 ^ 32)) ∧
    gives (.slli c rd ra rb) (BitVec.ofNat 32 (x.toNat * 2 ^ rb.toNat)) ∧
    gives (.srli c rd ra rb) (BitVec.ofNat 32 (x.toNat / 2 ^ rb.toNat)) ∧
    gives (.srai c rd ra rb) (BitVec.ofInt 32 (x.toInt / 2 ^ rb.toNat)) ∧
    (∀ n ≤ 32, x.toNat < 2 ^ (32 - n) → (n < 32 → 2 ^ (31 - n) ≤ x.toNat) → rb = 0 → gives (.clz c rd ra rb) (BitVec.ofNat 32 n)) ∧
    (rb = 0 → gives (.popc c rd ra rb) (BitVec.ofNat 32 ((List.range 32).countP (fun j => x.getLsbD j))))

/-- R57, R56: the immediate forms with 16-bit immediates sign- or zero-extended as R57 says, and the address forms, whose a fields are below 8. -/
def Obligations.ImmediateAndAddressFormsGiveTheirResults : Prop :=
  ∀ (s u : State) (c i : Nat) (rd ra rb : BitVec 5) (imm : BitVec 16), s.Issues c i 4 u →
    let k := u.task c i
    let x := k.rg ra
    let gives := fun (op : Instr) (v : W32) => Completes op s (u.updTask c i (fun t => t.wg rd v)) c i (fun t => t.advance 4)
    let points := fun (op : Instr) (v : A48) => Completes op s (u.updTask c i (fun t => t.wA rd.toNat v)) c i (fun t => t.advance 4)
    gives (.addi c rd ra imm) (BitVec.ofInt 32 (x.toInt + imm.toInt)) ∧
    gives (.andi c rd ra imm) (BitVec.ofNat 32 (x.toNat &&& imm.toNat)) ∧ gives (.ori c rd ra imm) (BitVec.ofNat 32 (x.toNat ||| imm.toNat)) ∧
    gives (.xori c rd ra imm) (BitVec.ofNat 32 (x.toNat ^^^ imm.toNat)) ∧
    gives (.slti c rd ra imm) (if x.toInt < imm.toInt then 1 else 0) ∧
    (ra = 0 → gives (.lui c rd ra imm) (BitVec.ofNat 32 (imm.toNat * 2 ^ 16))) ∧
    (rd.toNat < 8 → ra.toNat < 8 →
      points (.addaI c rd ra imm) (BitVec.ofInt 48 ((k.rA ra.toNat).toNat + imm.toInt)) ∧
      points (.adda c rd ra rb) (BitVec.ofInt 48 ((k.rA ra.toNat).toNat + (k.rg rb).toInt))) ∧
    (rd.toNat < 8 → points (.mova c rd ra rb) (BitVec.ofNat 48 ((k.rg rb).toNat * 2 ^ 32 + x.toNat))) ∧
    (ra.toNat < 8 →
      gives (.mfal c rd ra rb) (BitVec.ofNat 32 (k.rA ra.toNat).toNat) ∧
      gives (.mfah c rd ra rb) (BitVec.ofNat 32 ((k.rA ra.toNat).toNat / 2 ^ 32)))

/-- R57, R47, R681: branches compare g[RD] with g[RA] and go to PC + 4 × IMM16; JAL and JALR leave PC + 4 in g[RD]; LOOP sets up its body. -/
def Obligations.TransfersGoWhereTheRulesSay : Prop :=
  ∀ (s u : State) (c i : Nat) (rd ra rb : BitVec 5) (imm : BitVec 16), s.Issues c i 4 u →
    let k := u.task c i
    let x := (k.rg rd)
    let y := (k.rg ra)
    let target : Int := k.pc.toNat + 4 * imm.toInt
    let branch := fun (op : Instr) (p : Bool) =>
      Completes op s u c i (fun t => if p then t.transfer target else t.advance 4)
    branch (.beq c rd ra imm) (decide (x.toNat = y.toNat)) ∧ branch (.bne c rd ra imm) (decide (x.toNat ≠ y.toNat)) ∧
    branch (.blt c rd ra imm) (decide (x.toInt < y.toInt)) ∧ branch (.bge c rd ra imm) (decide (y.toInt ≤ x.toInt)) ∧
    branch (.bltu c rd ra imm) (decide (x.toNat < y.toNat)) ∧ branch (.bgeu c rd ra imm) (decide (y.toNat ≤ x.toNat)) ∧
    (ra = 0 → Completes (.jal c rd ra imm) s (u.updTask c i (fun t => t.wg rd (BitVec.ofNat 32 (k.pc.toNat + 4)))) c i
      (fun t => t.transfer target)) ∧
    (y.toNat % 4 = 0 → Completes (.jalr c rd ra rb) s (u.updTask c i (fun t => t.wg rd (BitVec.ofNat 32 (k.pc.toNat + 4)))) c i
      (fun t => t.transfer y.toNat)) ∧
    (ra = 0 →
      let first := k.pc.toNat + 4
      let past := u.after c k.tbase imm.toNat first
      Completes (.loop c rd ra imm) s
        (u.updTask c i (fun t => { t with loop := if x.toNat = 0 ∨ imm.toNat = 0 then none else some ⟨first, past, x.toNat⟩ })) c i
        (fun t => if x.toNat = 0 then t.transfer past else t.advance 4))

/-- R57, R59, R40 to R42, R58: a load within bounds, aligned, behind no earlier write of its task and without a memory error completes with what it
read in its register; where an earlier write of the task is still to come it does not complete, and is issued again. -/
def Obligations.LoadsPutWhatTheyReadIntoTheirRegister : Prop :=
  ∀ (s u : State) (c i : Nat) (rd ra : BitVec 5) (imm : BitVec 16), s.Issues c i 4 u → ra.toNat < 8 →
    let k := u.task c i
    let o := (((k.rA ra.toNat).toNat + imm.toInt) % 2 ^ 48).toNat
    let ov := (((k.rA ra.toNat).toNat + 64 * imm.toInt) % 2 ^ 48).toNat
    let loads := fun (op : Instr) (o n : Nat) (put : Nat → Task → Task) => o % n = 0 → o + n ≤ k.tbound - k.tbase →
      ((u.core c).toWrite i o n = true → exec op s = .next u) ∧
      ∀ v l, (u.core c).toWrite i o n = false → u.spRead c (k.tbase + o) n = (v, .ok l) →
        Completes op s (v.updTask c i (put (leNat l))) c i (fun t => t.advance 4)
    loads (.ldW c rd ra imm) o 4 (fun x t => t.wg rd (BitVec.ofNat 32 x)) ∧
    loads (.ldH c rd ra imm) o 2 (fun x t => t.wg rd (BitVec.ofNat 32 x)) ∧
    loads (.ldHs c rd ra imm) o 2 (fun x t => t.wg rd (BitVec.ofInt 32 (sgn 16 x))) ∧
    loads (.ldB c rd ra imm) o 1 (fun x t => t.wg rd (BitVec.ofNat 32 x)) ∧
    loads (.ldBs c rd ra imm) o 1 (fun x t => t.wg rd (BitVec.ofInt 32 (sgn 8 x))) ∧
    (rd.toNat < 8 → loads (.ldA c rd ra imm) o 8 (fun x t => t.wA rd.toNat (BitVec.ofNat 48 x))) ∧
    (rd.toNat < 16 → loads (.vld c rd ra imm) ov 64 (fun x t => t.wV rd.toNat (BitVec.ofNat 512 x)))

/-- R57, R59, R40 to R42, R58: a store within bounds, aligned, behind no earlier access of its task to its bytes and without a memory error
completes, and the bytes of its width at its address take the register's value, lowest first; no other byte of the local address space changes. -/
def Obligations.StoresWriteTheirBytesAndNoOthers : Prop :=
  ∀ (s u : State) (c i : Nat) (rd ra : BitVec 5) (imm : BitVec 16), s.Issues c i 4 u → ra.toNat < 8 →
    let k := u.task c i
    let o := (((k.rA ra.toNat).toNat + imm.toInt) % 2 ^ 48).toNat
    let ov := (((k.rA ra.toNat).toNat + 64 * imm.toInt) % 2 ^ 48).toNat
    let stores := fun (op : Instr) (o n x : Nat) => o % n = 0 → o + n ≤ k.tbound - k.tbase →
      ((u.core c).toWrite i o n = true ∨ (u.core c).toRead i o n = true → exec op s = .next u) ∧
      ∀ v, (u.core c).toWrite i o n = false → (u.core c).toRead i o n = false → u.spWrite c (k.tbase + o) (leBytes n x) = (v, none) →
        Completes op s v c i (fun t => t.advance 4) ∧
        ∀ a, v.byte a = if winBase c + k.tbase + o ≤ a ∧ a < winBase c + k.tbase + o + n
          then BitVec.ofNat 8 (x / 256 ^ (a - (winBase c + k.tbase + o))) else u.byte a
    stores (.stW c rd ra imm) o 4 (k.rg rd).toNat ∧ stores (.stH c rd ra imm) o 2 (k.rg rd).toNat ∧
    stores (.stB c rd ra imm) o 1 (k.rg rd).toNat ∧
    (rd.toNat < 8 → stores (.stA c rd ra imm) o 8 (k.rA rd.toNat).toNat) ∧
    (rd.toNat < 16 → stores (.vst c rd ra imm) ov 64 (k.rV rd.toNat).toNat)

/-- R123, R130 to R132, R46: a read of the scratchpad gives its bytes, a write changes them, and a fetch changes the loop buffer; beyond that they change
only records of memory errors. Where no word touched holds an error, a read changes nothing. -/
def Obligations.ScratchpadAccessesChangeOnlyErrorRecords : Prop :=
  (∀ (s t : State) (c a n : Nat) (l : List Byte), s.spRead c a n = (t, .ok l) → l = s.bytes (winBase c + a) n ∧ t.mem = s.mem ∧ ErrOnly s t) ∧
  (∀ (s : State) (c a n : Nat), (∀ e ∈ s.ecc, e.1 < (winBase c + a) / 8 ∨ (winBase c + a + n - 1) / 8 < e.1) →
    s.spRead c a n = (s, .ok (s.bytes (winBase c + a) n))) ∧
  (∀ (s t : State) (c a : Nat) (l : List Byte), s.spWrite c a l = (t, none) → ErrOnly s { t with mem := s.mem }) ∧
  (∀ (s t : State) (c i size : Nat), s.fetch c i size = (t, none) →
    t.mem = s.mem ∧ (∀ d, { t.core d with lbuf := [], ceTimes := [] } = { s.core d with lbuf := [], ceTimes := [] }) ∧
    { t.tel with day := [] } = { s.tel with day := [] } ∧
    { t with regs := [], ecc := [], cores := [], net := Net.reset, out := [], tel := Tel.reset } =
      { s with regs := [], ecc := [], cores := [], net := Net.reset, out := [], tel := Tel.reset })

/-- R61, R62, R43, R54, R34, R144: WAIT.GE completes once its counter has reached its operand and makes the task WAITING until then; CNT.ADD, CNT.SET and
CNT.RD act on the counter TCBASE + index, the first two once the task's earlier writes are done. -/
def Obligations.CounterInstructionsActOnTheirCounter : Prop :=
  ∀ (s u : State) (c i : Nat) (cidx : BitVec 6) (sf : BitVec 1) (imm : BitVec 16), s.Issues c i 4 u →
    let k := u.task c i
    let gs := imm.extractLsb' 11 5
    let n := k.tcbase + cidx.toNat
    let held : W32 := Tab.get 0 (u.core c).counters n
    let v : W32 := if sf = 0 then BitVec.ofNat 32 imm.toNat else k.rg gs
    (sf = 1 → imm.toNat % 2 ^ 11 = 0) → cidx.toNat < k.tccount →
    (v.toNat ≤ held.toNat → Completes (.waitGe c cidx sf imm) s u c i (fun t => t.advance 4)) ∧
    (held.toNat < v.toNat → ∃ t, exec (.waitGe c cidx sf imm) s = .next t ∧
      t.task c i = { k with st := .waiting, wait := some (.counter n v) } ∧ t.mem = u.mem) ∧
    ((u.core c).writing i = true → exec (.cntAdd c cidx sf imm) s = .next u ∧ exec (.cntSet c cidx sf imm) s = .next u) ∧
    ((u.core c).writing i = false →
      Completes (.cntSet c cidx sf imm) s (u.updCore c (fun q => { q with counters := Tab.set 0 q.counters n v })) c i (fun t => t.advance 4) ∧
      ∃ w, Completes (.cntAdd c cidx sf imm) s w c i (fun t => t.advance 4) ∧
        w.core c = { u.core c with counters := Tab.set 0 (u.core c).counters n (held + v) } ∧ { w with regs := u.regs, cores := u.cores } = u ∧
        (held.toNat + v.toNat < 2 ^ 32 → w.regs = u.regs) ∧
        (2 ^ 32 ≤ held.toNat + v.toNat → n < 32 → bitOf (w.rd (CD_CNT_WRAP_LO.WRAP (coreDie c) (coreN c))) n = true)) ∧
    (sf = 1 → Completes (.cntRd c cidx sf imm) s (u.updTask c i (fun t => t.wg gs held)) c i (fun t => t.advance 4))

/-- R74, R34, R212, R215: SYNC.ARRIVE marks the task's arrival, once; a second arrival at an unreleased phase waits; the core arrives with its last task.
SYNC.WAIT waits while an arrival since the last SYNC.WAIT is unreleased. -/
def Obligations.BarrierInstructionsArriveAndWait : Prop :=
  ∀ (s u : State) (c i : Nat) (ch : BitVec 3), s.Issues c i 4 u → ch ≠ 7 → bitOf (u.task c i).barmask ch.toNat = true →
    let k := u.task c i
    let b := ch.toNat
    let mark := u.updTask c i (fun t => { t with arrived := setBits t.arrived b 1 1, since := setBits t.since b 1 1 })
    let waits := fun (op : Instr) (w : WaitCond) => ∃ t, exec op s = .next t ∧ t.task c i = { k with st := .waiting, wait := some w } ∧ t.mem = u.mem
    (bitOf k.arrived b = true → waits (.syncArrive c ch 0) (.arrive b)) ∧
    (bitOf k.arrived b = false → (u.core c).writing i = true → exec (.syncArrive c ch 0) s = .next u) ∧
    (bitOf k.arrived b = false → (u.core c).writing i = false →
      Completes (.syncArrive c ch 0) s (mark.tryArrive c b) c i (fun t => t.advance 4) ∧
      ((∃ e ∈ (mark.core c).tasks, e.2.loaded = true ∧ bitOf e.2.barmask b = true ∧ bitOf e.2.arrived b = false ∧ e.2.st ≠ .done) →
        mark.tryArrive c b = mark)) ∧
    (bitOf k.since b = true → bitOf k.arrived b = true → waits (.syncWait c ch 0) (.phase b)) ∧
    (bitOf k.since b = false ∨ bitOf k.arrived b = false →
      Completes (.syncWait c ch 0) s (u.updTask c i (fun t => { t with since := setBits t.since b 1 0 })) c i (fun t => t.advance 4))

/-- R65 to R67, R34: a STREAM instruction whose descriptor passes its checks takes an entry of its engine, and its start leaves the task running; a full
engine makes the task WAITING. -/
def Obligations.StreamInstructionsTakeAnEngineEntry : Prop :=
  ∀ (s u : State) (c i kind : Nat) (eng : BitVec 2) (da : BitVec 3) (doff : BitVec 16) (op : Instr), s.Issues c i 4 u →
    (kind = 0 ∧ op = .streamGather c eng 0 da doff) ∨ (kind = 1 ∧ op = .streamSend c eng 0 da doff) ∨
      (kind = 2 ∧ op = .streamMcast c eng 0 da doff) ∨ (kind = 3 ∧ op = .streamRsend c eng 0 da doff) →
    let k := u.task c i
    let o := (((k.rA da.toNat).toNat + doff.toInt) % 2 ^ 48).toNat
    o % 32 = 0 → o + 32 ≤ k.tbound - k.tbase → (u.core c).toWrite i o 32 = false →
    (4 ≤ ((u.core c).streams.filter (fun x => decide (x.eng = eng.toNat))).length → ∃ t, exec op s = .next t ∧
      t.task c i = { k with st := .waiting, wait := some (.engine eng.toNat) } ∧ t.mem = u.mem) ∧
    ∀ v l, ((u.core c).streams.filter (fun x => decide (x.eng = eng.toNat))).length < 4 → u.spRead c (k.tbase + o) 32 = (v, .ok l) →
      v.descChecks c k kind eng.toNat o (parseDesc l) = none →
      let entry : Machine.Stream := ⟨(v.core c).nextTag, eng.toNat, i, k.pc.toNat, kind, parseDesc l, false, false, [], false⟩
      let taken := (v.takeTag c).2.updCore c (fun q => { q with streams := q.streams ++ [entry] })
      ((taken.startStreams c).task c i).st = .running → Completes op s (taken.startStreams c) c i (fun t => t.advance 4)

/-- R65, R163, R67: a GATHER or SEND of one row of at most 1,024 bytes that names a core and may start sends its packet: a READ_REQ for the row, or a
WRITE with the row's bytes, to the core at the virtual place of the placement map. -/
def Obligations.ANewStreamSendsItsPackets : Prop :=
  ∀ (s : State) (c target : Nat) (x : Machine.Stream), x.slot < 4 → x.started = false → x.xfers = [] → (s.core c).streams = [x] →
    x.d.space = 1 → x.d.rowCount = 1 → 0 < x.d.rowBytes → x.d.rowBytes ≤ 1024 →
    (s.pmap (coreDie c)).locate x.d.vx x.d.vy = some target →
    let at_ := (s.task c x.slot).tbase + x.d.localOff
    let tag := (s.core c).nextTag
    (x.kind = 0 → (s.startStream c x).out =
        .bulk c 14 ((({ hdr0 with type := 4, plen := x.d.rowBytes, tag := tag, slot := x.d.slot, toff := x.d.roff }).dst target).src c) [] :: s.out ∧
      (s.startStream c x).core c = { s.core c with
        nextTag := (tag + 1) % 0xFFF0, streams := [{ x with started := true, sent := true, xfers := [.read tag target at_ x.d.rowBytes] }] }) ∧
    (x.kind = 1 → x.d.lcntEn = 0 → (∀ e ∈ s.ecc, e.1 < (winBase c + at_) / 8 ∨ (winBase c + at_ + x.d.rowBytes - 1) / 8 < e.1) →
      (s.startStream c x).out =
        .bulk c 14 ((((dataHdr x.d 0 2 tag 0 x.d.rowBytes)).dst target).src c) (s.bytes (winBase c + at_) x.d.rowBytes) :: s.out)

/-- R70, R184, R183, R34: MSG.SEND to a place inside the grid sends one control packet of two flits to the task's slot there and occupies an entry of the
message queue; a full queue makes the task WAITING. -/
def Obligations.MsgSendSendsTwoFlits : Prop :=
  ∀ (s u : State) (c i target : Nat) (rd ra rb : BitVec 5) (func : BitVec 11), s.Issues c i 4 u →
    let k := u.task c i
    let g := (k.rg rd).toNat
    let vx := bitsOf g 0 8
    let vy := bitsOf g 8 7
    let m := (u.core c).freeMsg
    vx < s.rd (CD_PMAP_GRID.GX (coreDie c)) → vy < s.rd (CD_PMAP_GRID.GY (coreDie c)) → (u.core c).writing i = false →
    (u.pmap (coreDie c)).locate vx vy = some target →
    (8 ≤ (u.core c).msgs.length → ∃ t, exec (.msgSend c rd ra rb func) s = .next t ∧
      t.task c i = { k with st := .waiting, wait := some .msgs } ∧ t.mem = u.mem) ∧
    ((u.core c).msgs.length < 8 →
      let vc := if bitOf func.toNat 10 then 0 else 1
      let flits := [(k.rg ra).toNat + (k.rg rb).toNat * 2 ^ 32, bitsOf g 15 2 + bitsOf g 17 6 * 2 ^ 2 + bitsOf func.toNat 0 10 * 2 ^ 8]
      Completes (.msgSend c rd ra rb func) s
        (((u.updCore c (fun q => { q with msgs := q.msgs ++ [⟨m, i, k.pc.toNat, target⟩] })).ctlOut
          (ctlHdr 0 vc (coreDie target) (coreN target) (coreDie c) (coreN c) 2 m) flits).perf c 9 8) c i (fun t => t.advance 4))

/-- R59, R60: the lane-by-lane vector instructions into v[RD]: rounding once in a floating format, wrapping in an integer format, flags joined;
VSEL and VBCAST raise none. -/
def Obligations.VectorLaneInstructionsWriteTheirMaskedLanes : Prop :=
  ∀ (s u : State) (c i : Nat) (rd ra rb : BitVec 5) (mask : BitVec 3) (fmt : BitVec 4), s.Issues c i 4 u →
    fmt.toNat < 7 → rd.toNat < 16 → ra.toNat < 16 →
    let k := u.task c i
    let w := fmtBits fmt.toNat
    let n := 512 / w
    let m := k.rM mask.toNat
    let d := k.rV rd.toNat
    let a := lane w (k.rV ra.toNat)
    let b := lane w (k.rV rb.toNat)
    let writes := fun (op : Instr) (d : V512) (f : Nat → Nat × Nat) => ∃ v fl, LaneWise w n m d f v fl ∧
      Completes op s (u.updTask c i (fun t => (t.wV rd.toNat v).raise fl)) c i (fun t => t.advance 4)
    let op2 := fun (ff : FFmt → Nat → Nat → Nat × Nat) (fi : Nat → Nat → Nat) (j : Nat) => match fmtOf fmt.toNat with
      | some f => ff f (a j) (b j)
      | none => (fi (a j) (b j), 0)
    (rb.toNat < 16 →
      writes (.vadd c rd ra rb mask fmt) d (op2 (fun f x y => f.bin FV.add x y) (fun x y => x + y)) ∧
      writes (.vsub c rd ra rb mask fmt) d (op2 (fun f x y => f.bin (fun p q => FV.add p q.neg) x y) (fun x y => x + (2 ^ w - y))) ∧
      writes (.vmul c rd ra rb mask fmt) d (op2 (fun f x y => f.bin FV.mul x y) (fun x y => x * y)) ∧
      writes (.vfma c rd ra rb mask fmt) d (fun j => match fmtOf fmt.toNat with
        | some f => f.fma (lane w d j) (a j) (b j)
        | none => (lane w d j + a j * b j, 0)) ∧
      writes (.vmax c rd ra rb mask fmt) d (op2 (fun f x y => f.pick true x y) (fun x y => if sgn w x ≤ sgn w y then y else x)) ∧
      writes (.vmin c rd ra rb mask fmt) d (op2 (fun f x y => f.pick false x y) (fun x y => if sgn w x ≤ sgn w y then x else y)) ∧
      writes (.vsel c rd ra rb mask fmt) (k.rV rb.toNat) (fun j => (a j, 0))) ∧
    (∃ v fl, LaneWise w n m d (fun _ => ((k.rg ra).toNat, 0)) v fl ∧
      Completes (.vbcast c rd ra rb mask fmt) s (u.updTask c i (fun t => (t.wV rd.toNat v).raise fl)) c i (fun t => t.advance 4)) ∧
    (rb.toNat < 7 → ∃ v fl,
      LaneWise (fmtBits rb.toNat) (min n (512 / fmtBits rb.toNat)) m d
        (fun j => elemEnc rb.toNat .nearest false (elemVal fmt.toNat (a j))) v fl ∧
      Completes (.vcvt c rd ra rb mask fmt) s (u.updTask c i (fun t => (t.wV rd.toNat v).raise fl)) c i (fun t => t.advance 4))

/-- R59, R60: the compares into m[RD]; the FP32 approximations, each lane by its function with the free choice that R59 leaves of the last ulps; and the
reductions over masked lanes: VRSUM in the fixed tree of R60 or as an INT32 sum, VRMAX the lane that no other exceeds, −0 below +0, NaN where one is
masked, the most negative value of a floating format where none is. Each completes. -/
def Obligations.VectorComparesApproximationsAndReductions : Prop :=
  ∀ (s u : State) (c i : Nat) (rd ra rb : BitVec 5) (mask : BitVec 3) (fmt : BitVec 4), s.Issues c i 4 u → fmt.toNat < 7 → ra.toNat < 16 →
    let k := u.task c i
    let w := fmtBits fmt.toNat
    let n := 512 / w
    let m := k.rM mask.toNat
    let a := lane w (k.rV ra.toNat)
    let b := lane w (k.rV rb.toNat)
    let compares := fun (op : Instr) (f : Nat → Bool × Nat) => ∃ v fl, MaskWise n m (k.rM rd.toNat) f v fl ∧
      Completes op s (u.updTask c i (fun t => (t.wM rd.toNat v).raise fl)) c i (fun t => t.advance 4)
    let approximates := fun (op : Instr) (f : Nat → Nat → Nat × Nat) => ∃ (v : V512) (fl : Nat),
      LaneWise 32 16 m (k.rV rd.toNat) (fun j => f (a j) (u.drawMany.1 j)) v fl ∧
      Completes op s (u.drawMany.2.updTask c i (fun t => (t.wV rd.toNat v).raise fl)) c i (fun t => t.advance 4)
    (rd.toNat < 8 → rb.toNat < 16 →
      compares (.vcmplt c rd ra rb mask fmt) (fun j => match fmtOf fmt.toNat with
        | some f => if (f.decode (a j)).isNan ∨ (f.decode (b j)).isNan then (false, 16) else (FV.lt false (f.decode (a j)) (f.decode (b j)), 0)
        | none => (decide (sgn w (a j) < sgn w (b j)), 0)) ∧
      compares (.vcmpeq c rd ra rb mask fmt) (fun j => match fmtOf fmt.toNat with
        | some f => (FV.eq (f.decode (a j)) (f.decode (b j)), 0)
        | none => (decide (a j = b j), 0))) ∧
    (rd.toNat < 16 → fmt = 0 →
      approximates (.vrcp c rd ra rb mask fmt) vrcp32 ∧ approximates (.vrsq c rd ra rb mask fmt) vrsq32 ∧
      approximates (.vexp2 c rd ra rb mask fmt) vexp232) ∧
    (rd.toNat < 16 →
      (∃ r fl, Completes (.vrsum c rd ra rb mask fmt) s (u.updTask c i (fun t => (t.wV rd.toNat (BitVec.ofNat 512 r)).raise fl)) c i
          (fun t => t.advance 4) ∧
        (5 ≤ fmt.toNat → fl = 0 ∧
          r = ((((List.range n).filter (fun j => m.getLsbD j)).map (fun j => sgn w (a j))).sum % 2 ^ 32).toNat) ∧
        (∀ f, fmtOf fmt.toNat = some f → (r, fl) = treeSum 6 ((List.range n).map (fun j =>
          if m.getLsbD j then (fp32.encode .nearest false (f.decode (a j))).1 else 0)))) ∧
      (∃ r fl, Completes (.vrmax c rd ra rb mask fmt) s (u.draw.2.updTask c i (fun t => (t.wV rd.toNat (BitVec.ofNat 512 r)).raise fl)) c i
          (fun t => t.advance 4) ∧
        (5 ≤ fmt.toNat → fl = 0 ∧ ∀ j, j < n → m.getLsbD j = true → sgn w (a j) ≤ sgn w r ∧ ∃ j', j' < n ∧ m.getLsbD j' = true ∧ r = a j') ∧
        (∀ f, fmtOf fmt.toNat = some f →
          ((∃ j, j < n ∧ m.getLsbD j = true ∧ (f.decode (a j)).isNan = true) → r = f.canon.1 ∧ fl = 16) ∧
          ((∀ j, j < n → m.getLsbD j = true → (f.decode (a j)).isNan = false) → fl = 0 ∧
            ((∀ j, j < n → m.getLsbD j = false) → r = (f.infBits true).1) ∧
            ∀ j, j < n → m.getLsbD j = true → FV.lt true (f.decode r) (f.decode (a j)) = false ∧ ∃ j', j' < n ∧ m.getLsbD j' = true ∧ r = a j'))))

/-- R59: the operations on mask registers; m0 reads all ones and discards writes (R29). -/
def Obligations.MaskInstructionsGiveTheirResults : Prop :=
  ∀ (s u : State) (c i : Nat) (rd ra rb : BitVec 5), s.Issues c i 4 u →
    let k := u.task c i
    let x := k.rM ra.toNat
    let y := k.rM rb.toNat
    let masks := fun (op : Instr) (v : M64) => Completes op s (u.updTask c i (fun t => t.wM rd.toNat v)) c i (fun t => t.advance 4)
    let gives := fun (op : Instr) (v : W32) => Completes op s (u.updTask c i (fun t => t.wg rd v)) c i (fun t => t.advance 4)
    (rd.toNat < 8 → ra.toNat < 8 →
      (rb.toNat < 8 → masks (.mand c rd ra rb) (x &&& y) ∧ masks (.mor c rd ra rb) (x ||| y) ∧ masks (.mxor c rd ra rb) (x ^^^ y)) ∧
      (rb = 0 → masks (.mnot c rd ra rb) (~~~x))) ∧
    (rd.toNat < 8 → masks (.mset c rd ra rb) (BitVec.ofNat 64 ((k.rg rb).toNat * 2 ^ 32 + (k.rg ra).toNat))) ∧
    (ra.toNat < 8 → gives (.mgetl c rd ra rb) (BitVec.ofNat 32 x.toNat) ∧ gives (.mgeth c rd ra rb) (BitVec.ofNat 32 (x.toNat / 2 ^ 32)) ∧
      gives (.mpopc c rd ra rb) (BitVec.ofNat 32 ((List.range 64).countP (fun j => x.getLsbD j))))

/-- R71 to R73, R103, R109, R111, R114, R30: a matrix or tile-move instruction of a matrix task whose fields and rows pass the checks enters the queue
behind the others, with its row addresses captured; ACC.CVT with stochastic rounding counts one more draw (R116). -/
def Obligations.MatrixInstructionsEnterTheQueue : Prop :=
  ∀ (s u : State) (c i : Nat) (w : FmtM), s.Issues c i 8 u → (u.task c i).mx = true → (u.core c).mq.length < 4 →
    let k := u.task c i
    let base := (((k.rA w.aa.toNat).toNat + w.immA.toInt) % 2 ^ 48).toNat
    let stride := (k.rA w.ab.toNat).toNat % 2 ^ 18
    let rb := 16 * 2 ^ w.shape.toNat
    let rows := fun (n al : Nat) => ∀ r, r < 16 → (base + r * stride) % 2 ^ 48 % al = 0 ∧ (base + r * stride) % 2 ^ 48 + n ≤ k.tbound - k.tbase
    let free := fun (o : MOp) => ∀ x ∈ (u.core c).streams, x.slot = i →
      (x.kind = 0 → ∀ e ∈ o.reads ++ o.writes, touches e.1 e.2 (streamRows x.d) = false) ∧
      (x.started = false → ∀ e ∈ o.writes, touches e.1 e.2 (streamRows x.d) = false)
    let queued := fun (op : Instr) (o : MOp) (f : Task → Task) => free o →
      Completes op s ((u.updCore c (fun q => { q with mq := q.mq ++ [⟨i, o⟩] })).updTask c i f) c i (fun t => t.advance 8)
    (w.flags.toNat < 2 → w.sub = 0 → w.shape = 2 → w.immB = 0 → w.fmt = 0 → rows 64 16 →
      queued (.tileLd c w) (.tileLd 0 w.t.toNat 0 64 0 base stride false) id ∧
      (w.flags = 0 → queued (.tileSt c w) (.tileSt w.t.toNat base stride) id)) ∧
    (w.flags.toNat < 2 → w.sub = 1 → w.t = 0 → w.shape.toNat ≤ 4 → w.immB.toNat ≤ 127 → w.immB.toNat * 256 + 16 * rb ≤ 32768 →
      okWeight w.fmt.toNat = true → rows rb 16 →
      queued (.tileLd c w) (.tileLd 1 0 w.fmt.toNat rb w.immB.toNat base stride false) id) ∧
    (w.flags.toNat < 2 → w.sub = 2 → w.t.toNat ≤ 3 → w.shape.toNat ≤ 2 → w.immB = 0 → okAct w.fmt.toNat = true → rows rb 16 →
      queued (.tileLd c w) (.tileLd 2 w.t.toNat w.fmt.toNat rb 0 base stride (decide (w.flags.toNat = 1))) id) ∧
    (w.flags = 0 → w.sub = 0 → w.t = 0 → w.fmt = 0 → w.shape.toNat ≤ 4 → w.immB.toNat * 256 + 16 * rb ≤ 16384 → rows rb 16 →
      queued (.sparseLd c w) (.sparse w.immB.toNat rb base stride) id) ∧
    (w.flags = 0 → w.immB.toNat < 256 → w.sub.toNat < 8 → w.shape = 0 → w.fmt.toNat ≤ 9 → rows (cvtRow w.fmt.toNat) (min 16 (cvtRow w.fmt.toNat)) →
      queued (.accCvt c w) (.cvt w.t.toNat w.fmt.toNat (sgn 8 w.immB.toNat) (bitOf w.sub.toNat 2) (bitOf w.sub.toNat 1) (bitOf w.sub.toNat 0) base stride
        (k.seedHi ++ k.seedLo) k.srN) (fun t => if bitOf w.sub.toNat 0 then { t with srN := t.srN + 1 } else t)) ∧
    (w.flags = 0 → w.immB = 0 → w.immA = 0 → w.sub.toNat < 2 → w.t = 0 → w.fmt = 0 → w.aa = 0 → w.ab = 0 → w.shape = 0 →
      queued (.zmask c w) (.zmask (decide (w.sub = 1))) id) ∧
    (w.flags = 0 → bitsOf w.immB.toNat 6 4 = 0 → w.immA.toNat < 2 ^ 14 → w.sub.toNat < 8 → w.aa.toNat < 4 →
      (bitOf w.immB.toNat 11 = true ∨ bitOf w.immB.toNat 10 = true ∨ w.ab = 0) → mmaOk w = true →
      queued (.mma c w) (.mma w (k.rV w.ab.toNat)) id)

/-- R73, R107, R111, R122: the head of the matrix queue starts: an MMA on a free array that conflicts with no running move, counted as an operation; a
ZMASK at once; a tile move on a free mover. Its entry is free. When it ends its effect takes place and the unit is free. -/
def Obligations.MatrixQueueStartsAndEndsItsOperations : Prop :=
  ∀ (s : State) (c : Nat) (e : MEnt) (rest : List MEnt),
    let k := s.core c
    (k.mq = e :: rest →
      (∀ w v, e.op = .mma w v → k.array = none → (∀ p, k.mover = some p → p.op.conflicts e.op = false) →
        exec (.matrixQueueStart c false) s = .next (((s.setCore c { k with array := some e, mq := rest }).perf c 5 1).resched c)) ∧
      (∀ en, e.op = .zmask en → exec (.matrixQueueStart c false) s = .next ((s.setCore c { k with zen := en, mq := rest }).resched c)) ∧
      (e.op.isMove = true → k.mover = none → (∀ p, k.array = some p → p.op.conflicts e.op = false) →
        exec (.matrixQueueStart c true) s = .next ((s.setCore c { k with mover := some ⟨e.slot, e.op.atStart k.zen⟩, mq := rest }).resched c))) ∧
    (k.array = some e → exec (.matrixOpEnd c false 0 false) s =
      .next ((((s.setCore c { k with array := none }).matrixEnd c e).startStreams c).resched c)) ∧
    (k.mover = some e → exec (.matrixOpEnd c true 0 false) s =
      .next ((((s.setCore c { k with mover := none }).matrixEnd c e).startStreams c).resched c))

/-- R89, R71, R72, R112, R114: what the ends of matrix operations write: a TILE.LD of a tile takes the words of its 16 rows, one of weights or of an input
slot its bytes, a TILE.ST writes the rows of its tile, and an MMA writes no tile but its own. -/
def Obligations.MatrixOperationsWriteTheirResults : Prop :=
  ∀ (s : State) (c i t base stride : Nat),
    (∀ v rows, s.readRows c i 64 base stride 16 = (v, .ok rows) → ∀ r col, r < 16 → col < 16 →
      Tab.get (0 : W32) ((s.matrixEnd c ⟨i, .tileLd 0 t 0 64 0 base stride false⟩).core c).tiles (256 * t + 16 * r + col) =
        BitVec.ofNat 32 (rows.getD r 0 / 2 ^ (32 * col))) ∧
    (∀ v rows f rb unit, s.readRows c i rb base stride 16 = (v, .ok rows) → ∀ j, j < 16 * rb →
      Tab.get (0 : Byte) ((s.matrixEnd c ⟨i, .tileLd 1 0 f rb unit base stride false⟩).core c).wbuf (256 * unit + j) =
        BitVec.ofNat 8 (rows.getD (j / rb) 0 / 256 ^ (j % rb))) ∧
    (∀ v rows unit rb, s.readRows c i rb base stride 16 = (v, .ok rows) → ∀ j, j < 16 * rb →
      Tab.get (0 : Byte) ((s.matrixEnd c ⟨i, .sparse unit rb base stride⟩).core c).side (256 * unit + j) =
        BitVec.ofNat 8 (rows.getD (j / rb) 0 / 256 ^ (j % rb))) ∧
    (∀ w v e, e / 256 ≠ w.t.toNat →
      Tab.get (0 : W32) ((s.matrixEnd c ⟨i, .mma w v⟩).core c).tiles e = Tab.get 0 (s.core c).tiles e) ∧
    (∀ en, (s.matrixEnd c ⟨i, .zmask en⟩).core c = { s.core c with zen := en })

/-- R48, R76, R46, R58, R116: NOP, SYS.RD, SYS.WR and FENCE.I, which is issued again until the task's earlier writes are done; reading CYCLE_LO or PTIME_LO latches the high word, writing SEED restarts the draws. -/
def Obligations.SystemInstructionsReadAndWriteTaskRegisters : Prop :=
  ∀ (s u : State) (c i : Nat) (rd ra rb : BitVec 5), s.Issues c i 4 u →
    let k := u.task c i
    let reads := fun (n : Nat) (v : W32) => ra.toNat = n →
      Completes (.sysRd c rd ra rb) s (u.updTask c i (fun t => t.wg rd v)) c i (fun t => t.advance 4)
    let time := u.dieTime (coreDie c)
    let puts := fun (n : Nat) (f : Task → Task) => rd.toNat = n → Completes (.sysWr c rd ra rb) s (u.updTask c i f) c i (fun t => t.advance 4)
    Completes (.nop c rd ra rb) s u c i (fun t => t.advance 4) ∧
    ((u.core c).unwritten i = true → exec (.fenceI c rd ra rb) s = .next u) ∧
    ((u.core c).unwritten i = false → Completes (.fenceI c rd ra rb) s (u.updCore c (fun q => { q with lbuf := [] })) c i (fun t => t.advance 4)) ∧
    reads 0x00 (BitVec.ofNat 32 (k.vx + 2 ^ 8 * k.vy + 2 ^ 16 * i)) ∧ reads 0x01 (BitVec.ofNat 32 k.tbase) ∧ reads 0x02 (BitVec.ofNat 32 k.tbound) ∧
    reads 0x03 (BitVec.ofNat 32 k.tcbase) ∧ reads 0x04 (BitVec.ofNat 32 k.tccount) ∧
    reads 0x05 (BitVec.ofNat 32 (b2n k.linear + 2 * b2n k.mx + 2 ^ 8 * k.barmask)) ∧ reads 0x06 (BitVec.ofNat 32 k.fflags.toNat) ∧
    reads 0x07 k.seedLo ∧ reads 0x08 k.seedHi ∧ reads 0x0A k.cycleHi ∧ reads 0x0C k.ptimeHi ∧ reads 0x0D k.layer ∧
    (ra.toNat = 0x09 → ∃ more : Nat,
      let cycle : Nat := (u.core c).cycle.toNat + more
      Completes (.sysRd c rd ra rb) s
        ((u.draw.2.updCore c (fun q => { q with cycle := BitVec.ofNat 64 cycle })).updTask c i
          (fun t => { t with cycleHi := BitVec.ofNat 32 (cycle / 2 ^ 32) }.wg rd (BitVec.ofNat 32 cycle))) c i (fun t => t.advance 4)) ∧
    (ra.toNat = 0x0B → Completes (.sysRd c rd ra rb) s
      (u.updTask c i (fun t => { t with ptimeHi := BitVec.ofNat 32 (time / 2 ^ 32) }.wg rd (BitVec.ofNat 32 time))) c i (fun t => t.advance 4)) ∧
    puts 0x06 (fun t => { t with fflags := BitVec.ofNat 6 (k.rg ra).toNat }) ∧ puts 0x07 (fun t => { t with seedLo := k.rg ra, srN := 0 }) ∧
    puts 0x08 (fun t => { t with seedHi := k.rg ra, srN := 0 })

/-- R77, R76, R79, R49: END makes its task DONE; TRAP and a reserved opcode leave it TRAPPED with cause USER or ILLEGAL at its PC, shown in CD_CORE_TRAP
where no record is valid. -/
def Obligations.EndAndTrapsLeaveTheTask : Prop :=
  ∀ (s u : State) (c i size : Nat), s.Issues c i size u →
    let k := u.task c i
    let d := coreDie c
    let n := coreN c
    let shows := fun (op : Instr) (cause detail code : Nat) => c < 36864 → u.partOfCore c = none → u.bit (CD_CORE_TRAP.VALID d n) = false →
      (u.core c).streams = [] → ∃ t, exec op s = .next t ∧ (t.task c i).st = .trapped ∧ (t.task c i).g = k.g ∧ t.mem = u.mem ∧
        t.rd (CD_CORE_TRAP.CAUSE d n) = cause ∧ t.rd (CD_CORE_TRAP.DETAIL d n) = detail ∧ t.rd (CD_CORE_TRAP.CODE d n) = code ∧
        t.rd (CD_CORE_TRAP.TASK d n) = i ∧ t.bit (CD_CORE_TRAP.VALID d n) = true ∧ t.rd (CD_CORE_TRAPPC.PC d n) = k.pc.toNat
    (size = 4 → ∀ imm : BitVec 16,
      (∃ t, exec (.taskEnd c 0 imm) s = .next t ∧ t.task c i = { k.advance 4 with st := .done } ∧ t.mem = u.mem) ∧
      shows (.trap c 0 imm) 7 0 imm.toNat) ∧
    (∀ (w : BitVec 64) (detail : Nat), reservedDetail w = some detail → size = (if bitsOf w.toNat 29 3 = 6 then 8 else 4) →
      shows (.reservedOpcode c w) 3 detail 0)

/-- R69, R37, R38, R86, R133, R127, R153: the events of a core: an asynchronous trap taken, a core that is done arriving on the commit barrier, a stuck
task reported, a trap record cleared, a scrub, a bank-mode write, and the clearing of the corrected-error count. -/
def Obligations.CoreEventsActOnTheCore : Prop :=
  ∀ (s : State) (c slot : Nat), c < 36864 →
    let d := coreDie c
    let n := coreN c
    let k := s.core c
    (∀ a, k.async = [a] → a.slot = slot → (s.task c slot).st ≠ .empty → (s.task c slot).st ≠ .trapped → exec (.asyncTrap c slot) s =
      .next ((((s.updCore c (fun q => { q with async := [] })).trapAs c slot a.tr).startStreams c).resched c)) ∧
    (s.coreIsDone c = true → k.doneArr = false → k.fenced = false → ∃ t, exec (.coreDone c) s = .next t ∧ (t.core c).doneArr = true ∧
      bitOf (t.core c).barPend 7 = true) ∧
    ((s.task c slot).st = .running ∨ ((s.task c slot).st = .waiting ∧ k.waitOver (s.task c slot) = true) → k.fenced = false →
      exec (.stuckTask c slot) s = .next (s.coreFault c 4)) ∧
    ((s.task c slot).st = .waiting → k.waitOver (s.task c slot) = false → exec (.stuckTask c slot) s = .next s) ∧
    ((∀ j, j < 4 → (s.task c j).trap = none) → exec (.trapValidClear c) s =
      .next ((s.wr (CD_CORE_TRAP.VALID d n) 0).wr (CD_CORE_TRAP.MULTI d n) 0)) ∧
    (s.rgnState (regionOf d) ≤ 1 → s.bit (RGN_PWR_STAT.CLAMPED (regionOf d)) = false → ∃ t, exec (.scrubTick c []) s = .next t ∧
      (t.core c).scrub = (k.scrub + 1) % 3072 ∧ t.mem = s.mem) ∧
    (∀ r (v : W32), k.active = false → s.dieAbsent d = false → ∃ t, exec (.spLinmapWrite c r v) s = .next t ∧
      t.rd (CD_SP_LINMAP.LINEAR d n r) = v.toNat ∧ t.cores = s.cores ∧
      (s.rd (CD_SP_LINMAP.LINEAR d n r) = v.toNat → t = s.wr (CD_SP_LINMAP.LINEAR d n r) v.toNat)) ∧
    (s.dieAbsent d = false → exec (.spCeClr c) s = .next ((s.wr (CD_SP_CE.COUNT d n) 0).wr (CD_SP_STAT.CE_SAT d n) 0))

/-! ### The networks -/

/-- R135 to R139, R163 to R167: a unicast WRITE that brings a whole transfer to an awake, unfenced core within the task's window is taken from its buffer, written
there, performs its increment, and is acknowledged with OK to its source. -/
def Obligations.AWholeWriteIsStoredCountedAndAcknowledged : Prop :=
  ∀ (s v : State) (c : Nat) (cr : List Nat) (h : BulkHdr) (data : List Byte),
    let g : BulkHdr := { h with type := 0 }
    c < 36864 → h.dkind = 0 → coreAt h.x0 h.y0 = c → s.Takes c g → h.vc ≠ 5 → s.asleep c = false → (s.core c).fenced = false → h.abs_ = false → (s.core c).tracker = [] →
    (s.core c).pulls = [] → h.addr ≤ data.length →
    let k := s.task c h.slot
    let n := k.tcbase + h.cnt
    k.st ≠ .empty → h.toff + (s.took c g).extentOf g data.length ≤ k.window → (h.cntEn = true → h.cnt < k.tccount) →
    (s.took c g).spWrite c (k.tbase + h.toff + h.soff) data = (v, none) →
    ∃ t, exec (.bulkWrite c cr h data) s = .next t ∧ t.mem = v.mem ∧
      t.out = .bulk c 14 ((({ hdr0 with type := 8, vc := 3, tag := h.tag }).dst h.from_).src c) [] :: v.out ∧
      (t.core c).tracker = [] ∧
      (t.core c).counters = if h.cntEn then Tab.set 0 (s.core c).counters n (Tab.get 0 (s.core c).counters n + BitVec.ofNat 32 h.inc)
        else (s.core c).counters

/-- R165 to R167, R180, R181, R68: reads at a serving core and their data at the requester, pulls at a target, and answers at the core that awaits
them: the last one ends the stream, and a failure is posted to its task. -/
def Obligations.ReadsPullsAndAnswersReachTheirStreams : Prop :=
  ∀ (s v : State) (c : Nat) (cr : List Nat) (h : BulkHdr) (data : List Byte) (x : Machine.Stream),
    c < 36864 → h.dkind = 0 → coreAt h.x0 h.y0 = c →
    let k := s.task c h.slot
    let g := fun (type : Nat) => { h with type := type }
    let rsp := fun (tag loc : Nat) => (({ hdr0 with type := 5, vc := 3, plen := h.plen, tag := tag }).dst loc).src c
    let q : Requester := ⟨h.srcCode, h.tag⟩
    let clean := fun (a n : Nat) => ∀ e ∈ s.ecc, e.1 < (winBase c + a) / 8 ∨ (winBase c + a + n - 1) / 8 < e.1
    (s.Takes c (g 4) → s.asleep c = false → (s.core c).fenced = false → h.abs_ = false → h.cntEn = false → h.hold = false → h.sperim = false →
      (s.router c).readQ = [] → k.st ≠ .empty → h.toff + h.plen ≤ k.window →
      clean (k.tbase + h.toff) h.plen → h.sx < 256 → h.sy < 256 → ∃ t, exec (.bulkReadReq c cr h) s = .next t ∧ t.mem = s.mem ∧
        t.out = .bulk c 14 (rsp h.tag (coreAt h.sx h.sy)) (s.bytes (winBase c + (k.tbase + h.toff)) h.plen) :: (s.took c (g 4)).out) ∧
    (s.asleep c = false → (s.router c).readQ = [⟨h.addr, h.plen, h.vc, true, false, false, [q]⟩] → clean h.addr h.plen → h.sperim = false → h.sx < 256 → h.sy < 256 →
      ∃ t, exec (.meldHoldExpiry c h.addr h.plen) s = .next t ∧ (t.router c).readQ = [] ∧ t.mem = s.mem ∧
        t.out = .bulk c 14 (rsp h.tag (coreAt h.sx h.sy)) (s.bytes (winBase c + h.addr) h.plen) :: s.out) ∧
    (∀ a n, s.asleep c = false → (s.core c).streams = [x] → x.kind = 0 → x.d.lcntEn = 0 → x.slot < 4 → x.sent = true → x.xfers = [.read h.tag c a n] →
      (s.Takes c (g 5) → (s.took c (g 5)).spWrite c a data = (v, none) →
        ∃ t, exec (.bulkReadRsp c cr h data) s = .next t ∧ t.mem = v.mem ∧ (t.core c).streams = []) ∧
      (s.Takes c { g 6 with dkind := 3 } → (s.took c { g 6 with dkind := 3 }).spWrite c a data = (v, none) →
        ∃ t, exec (.meldRsp c cr h [⟨h.x0, h.y0, h.tag⟩] data) s = .next t ∧ t.mem = v.mem ∧ (t.core c).streams = [])) ∧
    (∀ d, s.Takes c (g 7) → s.asleep c = false → (s.core c).fenced = false → d.rcntEn = 0 → (s.task c d.slot).st ≠ .empty →
      d.roff + span d.rowCount d.rstride d.rowBytes ≤ (s.task c d.slot).window →
      exec (.pull c cr h d) s = .next ((s.took c (g 7)).startPull c ⟨g 7, d, []⟩)) ∧
    (s.asleep c = false → (s.core c).streams = [x] → x.kind = 1 → x.d.rcntEn = 0 → x.pulled = false → x.slot < 4 → x.sent = true → x.xfers = [.ack h.tag c] → h.tag < 0xFFF0 →
      (s.router c).tree = [] →
      (s.Takes c (g 8) → h.status = 0 → ∃ t, exec (.bulkAck c cr h) s = .next t ∧ (t.core c).streams = [] ∧ t.mem = s.mem) ∧
      (s.Takes c (g 0xB) → h.status = 4 → (s.core c).async = [] → (s.task c x.slot).st ≠ .empty → (s.task c x.slot).st ≠ .trapped →
        ∃ t a, exec (.bulkError c cr h) s = .next t ∧ (t.core c).streams = [] ∧ (t.core c).async = [⟨x.slot, ⟨5, 0, x.eng, x.pc, a⟩⟩] ∧ t.mem = s.mem))

/-- R175 to R177, R202 to R207: a multicast tree's entry is taken by MC_OPEN, answers merged into it, its data copied and acknowledged, and it is released by
MC_CLOSE; an RSEND packet is combined into its target's window, and one whose hold ends leaves. -/
def Obligations.MulticastTreesAndReductions : Prop :=
  ∀ (s v : State) (r : Nat) (cr : List Nat) (h : BulkHdr) (data : List Byte) (e : TreeEnt), r < 36864 → inRect h r = true →
    let dirs := treeDirs h r
    let g := fun (type : Nat) => { h with type := type }
    let answer := fun (type status tag loc : Nat) => (({ hdr0 with type := type, vc := 3, status := status, tag := tag }).dst loc).src r
    (s.Takes r (g 2) → (s.router r).tree.length < 32 → dirs ≠ [] → exec (.mcOpen r cr h) s =
      .next (((s.took r (g 2)).updRouter r (fun x => { x with tree := x.tree ++
        [⟨h.srcCode, h.tag, dirs, (treeUp h r).getD 4, dirs.length, dirs.length + 1, 0⟩] })).copies r dirs (g 2) [])) ∧
    (s.Takes r (g 2) → (s.router r).tree.length < 32 → dirs = [] → treeUp h r = none → ∃ t, exec (.mcOpen r cr h) s = .next t ∧
      (t.router r).tree = (s.router r).tree ++ [⟨h.srcCode, h.tag, [], 4, 0, 1, 0⟩] ∧
      t.out = .bulk r 14 (answer 3 0 h.tag (codeLoc h.srcCode)) [] :: (s.took r (g 2)).out) ∧
    (s.Takes r (g 3) → (s.router r).tree = [e] → h.dkind = 0 → e.src = h.x0 + 256 * h.y0 → e.tag = h.tag → e.opens = 1 → e.up = 4 →
      ∃ t, exec (.mcOpenRsp r cr h) s = .next t ∧
        t.out = .bulk r 14 (answer 3 (mergeStatus e.status h.status) e.tag (codeLoc e.src)) [] :: (s.took r (g 3)).out ∧
        (t.router r).tree = [{ e with opens := 0, status := 0 }]) ∧
    ((s.router r).tree = [e] → e.src = h.srcCode → e.tag = h.tag →
      (s.Takes r (g 0xC) →
        exec (.mcClose r cr h) s = .next (((s.took r (g 0xC)).updRouter r (fun x => { x with tree := [] })).copies r e.branches (g 0xC) [])) ∧
      (s.Takes r (g 1) → e.branches = [] → e.acks = 1 → e.up = 4 → s.asleep r = false → (s.core r).fenced = false → h.abs_ = false → h.cntEn = false →
        (s.core r).tracker = [] → h.addr ≤ data.length → (s.task r h.slot).st ≠ .empty →
        h.toff + (s.took r (g 1)).extentOf (g 1) data.length ≤ (s.task r h.slot).window →
        (s.took r (g 1)).spWrite r ((s.task r h.slot).tbase + h.toff + h.soff) data = (v, none) →
        ∃ t, exec (.mcWrite r cr h data) s = .next t ∧ t.mem = v.mem ∧ (t.router r).tree = [] ∧
          t.out = .bulk r 14 (answer 8 (mergeStatus e.status 0) e.tag (codeLoc e.src)) [] :: v.out)) ∧
    (∀ w old, h.dkind = 0 → coreAt h.x0 h.y0 = r → s.Takes r (g 9) → s.asleep r = false → (s.core r).fenced = false → h.abs_ = false → h.cntEn = false →
      s.bit (CD_RED_CTL.DIS (coreDie r)) = true → (s.task r h.slot).st ≠ .empty →
      h.toff + h.soff + data.length ≤ (s.task r h.slot).window →
      (s.took r (g 9)).spRead r ((s.task r h.slot).tbase + h.toff + h.soff) data.length = (w, .ok old) →
      w.spWrite r ((s.task r h.slot).tbase + h.toff + h.soff) (redCombine h.op data.length old data) = (v, none) →
      ∃ t, exec (.rsendPacket r cr h data) s = .next t ∧ t.mem = v.mem ∧ t.out = .bulk r 14 (answer 8 0 h.tag h.from_) [] :: v.out) ∧
    (∀ e : LaneEnt, (s.router r).lanes = [e] → e.held = some (h, data) → e.by_.length = 1 → e.way < 9 →
      exec (.rsendHoldExpiry r e.idx) s = .next ((s.updRouter r (fun x => { x with lanes := [] })).leave r e.way h data))

/-- R21, R22: a ring packet leaves its ring at its stop; elsewhere it goes on by the shorter direction, the rising one where both are equal, or the other way
round a break; the active steward marks breaks, and clears the mark of a stop whose unit is back in service. -/
def Obligations.RingPacketsTakeTheShorterUnbrokenWay : Prop :=
  ∀ (s : State) (stop k : Nat) (p : RingPkt) (h : BulkHdr) (cr : List Nat), stop < 52 → p.dst < 52 →
    let up := (p.dst + 52 - stop) % 52
    let down := (stop + 52 - p.dst) % 52
    let come := s.updNet (fun n => { n with ring := removeFirst (fun x => decide (x.next = stop) && decide (x.p = p)) n.ring })
    let goes := fun (dir : Bool) => (come.updNet (fun n => { n with ring := n.ring ++ [⟨stop, dir, p⟩] })).emit (.ring stop dir p)
    (p.dst = stop → exec (.ringPacket stop p) s = .next (come.emit (.ringEnd stop p))) ∧
    (p.dst ≠ stop → s.net.brkSegs = [] → s.net.brkStops = [] → exec (.ringPacket stop p) s = .next (goes (decide (up ≤ down)))) ∧
    (p.dst ≠ stop → up ≤ down → s.net.brkSegs = [stop] → s.net.brkStops = [] → exec (.ringPacket stop p) s = .next (goes false)) ∧
    (h.dest = stopAt p.dst → s.Takes (stopAt p.dst) { h with type := 0xA } →
      exec (.ringDetour (stopAt p.dst) cr h p) s = .next ((s.took (stopAt p.dst) { h with type := 0xA }).emit (.ringEnd p.dst p))) ∧
    (s.bit GLB_STW_STAT.LOST_BOTH = false →
      (∃ t, exec (.ringBreak true k) s = .next t ∧ (∀ g, g ∈ t.net.brkSegs ↔ g = k ∨ g ∈ s.net.brkSegs) ∧ t.net.brkStops = s.net.brkStops ∧
        ((∀ x ∈ s.net.ring, RingHop.seg x ≠ k) → { t with net := s.net } = s)) ∧
      (∃ t, exec (.ringBreak false k) s = .next t ∧ (∀ g, g ∈ t.net.brkStops ↔ g = k ∨ g ∈ s.net.brkStops) ∧ t.net.brkSegs = s.net.brkSegs ∧
        ((∀ x ∈ s.net.ring, RingHop.next x ≠ k) → { t with net := s.net } = s)) ∧
      (s.perimIn (144 + k) = true →
        ∃ t, exec (.ringStopReturn k) s = .next t ∧ (∀ g, g ∈ t.net.brkStops ↔ g ≠ k ∧ g ∈ s.net.brkStops) ∧ { t with net := s.net } = s) ∧
      (s.perimIn (144 + k) = false → exec (.ringStopReturn k) s = .next s))

/-- R184, R135, R137, R70, R166: a task message is written at its slot's window, counts its counter up by 1 and is acknowledged; at a fenced core, outside the
window or with a counter the task does not have it is answered FOLDED, EXTENT or COUNTER and nothing is written. The acknowledgement completes it at its
sender, or posts the failure that its status gives to the sending task, with code 4. -/
def Obligations.TaskMessagesArriveAndAreAcknowledged : Prop :=
  (∀ (s v : State) (h : CtlHdr) (lo hi : W32) (slot cidx off : Nat), h.dnode < 144 → h.dlocal < 256 → slot < 4 → cidx < 64 →
    let c := h.dnode * 256 + h.dlocal
    let k := s.task c slot
    let n := k.tcbase + cidx
    s.CtlArrives h → s.asleep c = false → s.idling c = false → (s.core c).fenced = false → (s.core c).tracker = [] → (s.core c).pulls = [] →
    k.st ≠ .empty → cidx < k.tccount →
    8 * off + 8 ≤ k.window → (s.ctlTook h).spWrite c (k.tbase + 8 * off) (leBytes 8 (lo.toNat + hi.toNat * 2 ^ 32)) = (v, none) →
    ∃ w : State, exec (.ctlMsg h lo hi slot cidx off) s = .next (w.ctlOut (ctlHdr 1 h.vc h.snode h.slocal h.dnode h.dlocal 1 h.msgid) [0]) ∧ w.mem = v.mem ∧
      (w.core c).counters = Tab.set 0 (s.core c).counters n (Tab.get 0 (s.core c).counters n + 1) ∧ w.out = v.out) ∧
  (∀ (s : State) (h : CtlHdr) (lo hi : W32) (slot cidx off : Nat), h.dnode < 144 → h.dlocal < 256 → slot < 4 → cidx < 64 →
    let c := h.dnode * 256 + h.dlocal
    let k := s.task c slot
    let answers := fun (status : Nat) => exec (.ctlMsg h lo hi slot cidx off) s =
      .next ((s.ctlTook h).ctlOut (ctlHdr 1 h.vc h.snode h.slocal h.dnode h.dlocal 1 h.msgid) [status])
    s.CtlArrives h → s.asleep c = false → s.idling c = false → (s.core c).tracker = [] → (s.core c).pulls = [] →
    ((s.core c).fenced = true → answers 1) ∧
    ((s.core c).fenced = false → k.st = .empty → answers 2) ∧
    ((s.core c).fenced = false → k.st ≠ .empty → k.window < 8 * off + 8 → answers 2) ∧
    ((s.core c).fenced = false → k.st ≠ .empty → 8 * off + 8 ≤ k.window → k.tccount ≤ cidx → answers 3)) ∧
  (∀ (s : State) (h : CtlHdr) (status : Nat) (m : MsgOut), h.dnode < 144 → h.dlocal < 256 →
    let c := h.dnode * 256 + h.dlocal
    let this := fun (x : MsgOut) => decide (x.msgid = h.msgid)
    s.CtlArrives h → s.asleep c = false → (s.core c).msgs.find? this = some m → ∃ t, exec (.msgAck h status) s = .next t ∧
      (t.core c).msgs = removeFirst this (s.core c).msgs ∧ t.mem = s.mem ∧
      (status = 0 → (t.core c).async = (s.core c).async) ∧
      ((s.core c).async = [] → (s.task c m.slot).st ≠ .trapped → (s.task c m.slot).st ≠ .empty → ∃ a,
        (status = 1 ∨ status = 4 → (t.core c).async = [⟨m.slot, ⟨5, 0, 4, m.pc, a⟩⟩]) ∧
        (status = 2 → (t.core c).async = [⟨m.slot, ⟨1, 3, 4, m.pc, a⟩⟩]) ∧
        (status = 3 → (t.core c).async = [⟨m.slot, ⟨1, 4, 4, m.pc, a⟩⟩])))

/-- R632 to R634: a protected message with a good check flit whose alive value follows the last is acknowledged and accepted; a repeat is acknowledged and
discarded; one that skips is counted and accepted; one whose CRC is bad is counted and discarded. -/
def Obligations.ProtectedMessagesAreJudgedByCrcAndAlive : Prop :=
  ∀ (s : State) (h : CtlHdr) (mtype : Nat) (flits : List Nat) (chk : ChkFlit), s.hasUnit h.dnode = true →
    let u := unitOf h.dnode
    let k := peerOf h.snode
    let a := chk.alive % s.aliveMod u
    let ack := fun (s : State) => s.sendMgmt h.dnode h.dlocal h.snode h.slocal [5 + mtype * 2 ^ 8 + a * 2 ^ 16] 0
    (chk.crc ≠ checkCrc h flits chk.alive → s.judge h mtype flits chk = (s.hcount (CKU_BAD.COUNT u) (CKU_STAT.BAD_SAT u) 1, false)) ∧
    (chk.crc = checkCrc h flits chk.alive →
      (s.bit (CKU_ALIVE.VALID u k) = true → a = s.rd (CKU_ALIVE.LAST u k) →
        s.judge h mtype flits chk = (ack (s.hcount (CKU_REPEAT.COUNT u) (CKU_STAT.REP_SAT u) 1), false)) ∧
      (s.bit (CKU_ALIVE.VALID u k) = false ∨ (a = (s.rd (CKU_ALIVE.LAST u k) + 1) % s.aliveMod u ∧ a ≠ s.rd (CKU_ALIVE.LAST u k)) →
        s.judge h mtype flits chk = (ack ((s.wr (CKU_ALIVE.LAST u k) a).wr (CKU_ALIVE.VALID u k) 1), true)) ∧
      (s.bit (CKU_ALIVE.VALID u k) = true → a ≠ s.rd (CKU_ALIVE.LAST u k) → a ≠ (s.rd (CKU_ALIVE.LAST u k) + 1) % s.aliveMod u →
        s.judge h mtype flits chk =
          (ack (((s.hcount (CKU_SKIP.COUNT u) (CKU_STAT.SKIP_SAT u) 1).wr (CKU_ALIVE.LAST u k) a).wr (CKU_ALIVE.VALID u k) 1), true)))

/-- R187, R483, R484, R509, R633 to R638: what the protected messages do once they are accepted: demand, grant, request for a grant, floor, the CRC and result
of a firmware chunk; an acknowledgement ends the sending, and its lack repeats it. -/
def Obligations.AcceptedManagementMessagesTakeEffect : Prop :=
  ∀ (s u : State) (h : CtlHdr) (r x y : Nat) (chk : ChkFlit), r < 16 → x < 2 ^ 16 → y < 2 ^ 16 → s.CtlArrives h →
    let c := s.ctlTook h
    (c.judge h 1 [1 + r * 2 ^ 8 + x * 2 ^ 16 + y * 2 ^ 32] chk = (u, true) → h.dnode = u.stewardNode →
      exec (.demand h r x y false chk) s = .next ((u.wr (RGN_PWR_BUD.DEMAND r) y).wr (RGN_PWR_STAT.USED_W r) x)) ∧
    (c.judge h 2 [2 + r * 2 ^ 8 + x * 2 ^ 16 + y * 2 ^ 32] chk = (u, true) → h.dnode = u.managerDie r →
      exec (.grant h r x y chk) s = .next ((u.wr (RGN_PWR_BUD.BUDGET r) x).wr (RGN_PWR_HARD.HARD r) y)) ∧
    (c.judge h 3 [3 + r * 2 ^ 8] chk = (u, true) → h.dnode = u.stewardNode → exec (.grantReq h r chk) s =
      .next (u.sendProt u.stewardNode 258 (u.managerDie r) 257 2
        [2 + r * 2 ^ 8 + u.rd (RGN_PWR_BUD.BUDGET r) * 2 ^ 16 + u.hardOf (u.rd (RGN_PWR_BUD.BUDGET r)) * 2 ^ 32])) ∧
    (x ≤ 5 → c.judge h 4 [4 + r * 2 ^ 8 + x * 2 ^ 16] chk = (u, true) → h.dnode = u.managerDie r → ∃ t, exec (.floor h r x chk) s = .next t ∧
      Tab.get 0 t.therm.floor r = x) ∧
    (∀ d tries crc, crc < 2 ^ 32 → s.key.chunk = some (x, d, tries) → u.key.chunk = some (x, d, tries) → h.dnode < 144 → regionOf d = regionOf h.dnode → d < 144 →
      ((s.node d).hasChunk x = false → exec (.chunkCrc h 1 x crc chk) s = .next (s.wakeFor (h.dnode * 256))) ∧
      ((s.node d).hasChunk x = true → c.judge h 6 [6 + 1 * 2 ^ 8 + x * 2 ^ 16, crc] chk = (u, true) → exec (.chunkCrc h 1 x crc chk) s =
        .next (u.sendProt (u.managerDie (regionOf d)) 257 u.stewardNode 258 7 [7 + 1 * 2 ^ 8 + x * 2 ^ 16 + d * 2 ^ 32 +
          (if (u.node d).hasChunk x = true ∧ crc = crc32c (u.node d).copied then 1 else 0) * 2 ^ 40]))) ∧
    (∀ d tries, s.key.chunk = some (x, d, tries) → u.key.chunk = some (x, d, tries) → d < 144 →
      (tries < 3 → c.judge h 7 [7 + 1 * 2 ^ 8 + x * 2 ^ 16 + d * 2 ^ 32] chk = (u, true) →
        exec (.chunkResult h 1 x d false chk) s = .next (u.sendChunk d x (tries + 1))) ∧
      (x + 1 < chunks (s.markedImage 1) → c.judge h 7 [7 + 1 * 2 ^ 8 + x * 2 ^ 16 + d * 2 ^ 32 + 1 * 2 ^ 40] chk = (u, true) →
        exec (.chunkResult h 1 x d true chk) s = .next (u.sendChunk d (x + 1) 0))) ∧
    (let this := fun (p : Prot) => decide (p.snode = h.dnode) && decide (p.dnode = h.snode) && decide (p.mtype = r) && decide (p.alive = x)
     (x < 256 → s.hasUnit h.dnode = true → chk.crc = checkCrc h [5 + r * 2 ^ 8 + x * 2 ^ 16] chk.alive →
        exec (.mgmtAck h r x chk) s = .next { c with mgmt := { s.mgmt with sent := removeFirst this s.mgmt.sent } }) ∧
      (∀ p : Prot, s.mgmt.sent.find? this = some p → p.tries < 8 → exec (.protectedAckTimeout h.dnode h.snode r x) s =
        .next (({ s with mgmt := { s.mgmt with sent := updFirst this (fun p => { p with tries := p.tries + 1 }) s.mgmt.sent } }).sendMgmt
          p.snode p.slocal p.dnode p.dlocal p.flits p.alive)))

/-- R188, R289, R302, R493: the dealer's control messages: PREPARE fills the die's placed cores and is answered, READY, SUMMARY and QUIET are noted in the run,
STOP discards the die's tasks, WAKE raises a sleeping region. -/
def Obligations.DealerMessagesDriveTheLayer : Prop :=
  ∀ (s : State) (h : CtlHdr) (p d n : Nat) (l : LayerRun), p < 16 → d < 144 → n < 2 ^ 32 →
    let c := s.ctlTook h
    (s.CtlArrives h → h.dnode = d → s.dieAbsent d = false → s.asleep (d * 256) = false → (∀ a : Nat, s.heldBy a 128 = none →
      (∀ v e, c.dealerRead a 128 = (v, .error e) → exec (.prepare h p n a) s =
        .next (v.sendCtl 3 1 v.stewardNode 258 d 256 [2 + p * 2 ^ 8 + d * 2 ^ 16 + 2 ^ 24 + n * 2 ^ 32])) ∧
      (∀ v hd w body ts obj, c.dealerRead a 128 = (v, .ok hd) → v.dealerRead a (planLen hd) = (w, .ok body) →
        w.kernelOf p (parsePlan body).kernel = some (ts, obj) →
        let mine := (w.pmap d).cells.filter (fun e => decide (coreDie e.2.2 = d) && !(w.core e.2.2).fenced)
        let t := forL mine (fun e x => x.prepareCore (parsePlan body) ts n e) w
        exec (.prepare h p n a) s = .next (t.sendCtl 3 1 t.stewardNode 258 d 256 [2 + p * 2 ^ 8 + d * 2 ^ 16 + n * 2 ^ 32]) ∧
          ∀ e ∈ mine, (t.core e.2.2).phase = 0 ∧ (t.core e.2.2).doneArr = false ∧ (t.core e.2.2).mq = []))) ∧
    (s.CtlArrives h → (s.part p).run = some l → h.dnode = s.stewardNode → l.num = n → (s.placedDies p).contains d = true →
      (l.step = 4 → l.ready.contains d = false → (∃ e ∈ s.placedDies p, e ≠ d ∧ l.ready.contains e = false) →
        exec (.dealerReady h p d n false) s = .next (c.updPart p (fun x => { x with run := some { l with ready := l.ready ++ [d] } }))) ∧
      (∀ ff, ff < 64 → exec (.summary h p d n ff) s = .next (c.updPart p (fun x => { x with run := some { l with fflags := Nat.lor l.fflags ff } }))) ∧
      (l.step = 20 → l.quiet.contains d = false → s.dieQuiet d = true → exec (.quiet h p d n) s =
        .next ((c.updPart p (fun x => { x with run := some { l with quiet := l.quiet ++ [d] } })).whenQuiet p))) ∧
    (s.CtlArrives h → h.dnode = d → s.dieAbsent d = false → s.partOfRegion (regionOf d) = some p → ∃ t, exec (.dealerStop h p n) s = .next t ∧
      (∀ k ∈ s.coresOn d, (∀ x ∈ (t.core k).streams, x.started = true) ∧ (t.core k).mq = [] ∧ (t.core k).doneArr = false) ∧
      ((d, p, n) ∈ t.rcv.quietDue ∨ ∃ w : State, w.dieQuiet d = true ∧ t = w.sayQuiet d p n)) ∧
    (h.dnode = s.managerDie p → ∀ target, target < 4 →
      (s.CtlArrives h → s.rgnState p = 2 ∨ s.rgnState p = 3 → target < s.rgnState p → ∃ t, exec (.dealerWake h p target) s = .next t ∧
        (2 ≤ target → t.rgnState p = target) ∧ (target < 2 → t.rgnState p < 2)) ∧
      (h.bcast = false → s.rgnState p = 4 → exec (.dealerWake h p target) s = .next (s.wantAnte p 1)))

/-- R562 to R567, R682, R186, R547, R199: heartbeats and their answers clear the counts of missed ones; a fault is noted once and acknowledged always, one of a
placed core's error rate (code 7) makes its fold due at the boundary; it is kept until its acknowledgement and sent again; a router buffer's corrected error is
counted and its uncorrectable one is a die fault. -/
def Obligations.HeartbeatsAndFaultsAreAnswered : Prop :=
  ∀ (s : State) (h : CtlHdr) (n : Nat), n < 2 ^ 32 →
    let c := s.ctlTook h
    let ack := fun (who : Nat) (x : State) => x.sendCtl 2 5 h.snode h.slocal h.dnode h.dlocal [0x11 + who * 2 ^ 8 + n * 2 ^ 16]
    (s.CtlArrives h →
      (h.dnode = s.standbyNode → s.bit GLB_STW_STAT.STANDBY_OK = true → exec (.heartbeat h 0 n) s =
        .next (ack h.dnode (c.updMgmt (fun m => { m with stwMissed := Tab.set 0 m.stwMissed 0 0 })))) ∧
      (h.dnode < 144 → exec (.heartbeat h 1 n) s =
        .next (ack h.dnode (c.updMgmt (fun m => { m with mgrMissed := Tab.set 0 m.mgrMissed (regionOf h.dnode) 0 })))) ∧
      (h.dnode = s.stewardNode → exec (.heartbeatAck h s.standbyNode n) s =
        .next (c.updMgmt (fun m => { m with sbyMissed := Tab.set 0 m.sbyMissed 0 0 }))) ∧
      (∀ d, d < 144 → h.dnode = s.managerDie (regionOf d) → h.dnode < 144 → exec (.heartbeatAck h d n) s =
        .next (c.updMgmt (fun m => { m with unanswered := Tab.set 0 m.unanswered d 0 }))) ∧
      (h.dnode = s.stewardNode → s.bit GLB_STW_STAT.LOST_BOTH = false → h.msgid < 256 →
        let answered := c.sendCtl 3 1 h.snode h.slocal s.stewardNode 258 [7 + h.msgid * 2 ^ 8]
        let noted := answered.updNet (fun x => { x with acted := x.acted ++ [(h.snode, h.msgid)] })
        ∀ code unit kind dir time,
          (s.net.acted.contains (h.snode, h.msgid) = false → (kind ≠ 0 ∨ code ≠ 7 ∨ s.placedIn unit = none →
              exec (.fault h code unit kind dir time) s = .next noted) ∧
            (∀ p, kind = 0 → code = 7 → s.placedIn unit = some p → exec (.fault h code unit kind dir time) s = .next (noted.foldLater p unit))) ∧
          (s.net.acted.contains (h.snode, h.msgid) = true → exec (.fault h code unit kind dir time) s = .next answered)) ∧
      exec (.faultAck h n) s = .next (c.updNode h.dnode (fun x => { x with faults := x.faults.filter (fun f => decide (f.msgid ≠ n)) }))) ∧
    (∀ f : FaultMsg, (s.node h.dnode).faults.find? (fun f => decide (f.msgid = n)) = some f →
      exec (.faultResend h.dnode n) s = .next (s.ctlOut (ctlHdr 4 1 s.stewardNode 258 f.snode f.slocal 1 f.msgid) [faultFlit f])) ∧
    (n < 36864 → s.dieAbsent (coreDie n) = false → exec (.routerBufferUe ⟨n, true⟩) s =
        .next ((s.wr (CD_NET_ERR.UE (coreDie n)) 1).sendFault (coreDie n) 256 0x10 (coreDie n) 1 0) ∧
      exec (.routerBufferUe ⟨n, false⟩) s =
        .next ((s.wr (CD_NET_ERR.CE (coreDie n)) 1).hcount (CD_NET_CE.COUNT (coreDie n)) (CD_DIE_HSTAT.NET_CE_SAT (coreDie n)) 1))

/-- R185, R645: a SETUP request is answered to its agent with the read data or the write's status, MALFORMED or ABSENT where it is; the response ends the
request at the agent. -/
def Obligations.SetupRequestsAreAnswered : Prop :=
  ∀ (s : State) (h : CtlHdr) (off data : Nat), (s.ctlTook h).maySetup h = true →
    let u := (s.ctlTook h).updNode h.snode (fun x => { x with setups := x.setups ++ [h.slocal * 256 + h.msgid] })
    let rsp := fun (flits : List Nat) (x : State) => x.ctlOut (ctlHdr 6 5 h.snode h.slocal h.dnode h.dlocal flits.length h.msgid) flits
    (s.CtlArrives h →
      (off % 4 ≠ 0 → exec (.setup h off false false data false) s = .next (rsp [2] u)) ∧
      (exec (.setup h off false false data true) s = .next (rsp [2] u)) ∧
      (off % 4 = 0 → off < 2 ^ 26 → u.ownerAbsent off = true → exec (.setup h off false false data false) s = .next (rsp [1] u)) ∧
      (off % 4 = 0 → off < 2 ^ 26 → u.ownerAbsent off = false →
        exec (.setup h off false false data false) s = .next (rsp [0, (u.regRead off 4).1] (u.regRead off 4).2) ∧
        (data < 2 ^ 32 → exec (.setup h off true false data false) s = .next (rsp [0] (u.regWrite .fw off 4 data)))) ∧
      (off % 8 = 0 → off < 2 ^ 26 → u.ownerAbsent off = false →
        exec (.setup h off true true data false) s = .next (rsp [0] (u.regWrite .fw off 8 data)))) ∧
    (h.bcast = false → s.nodeOn h.dnode = false → off % 4 = 0 → off < 2 ^ 26 → exec (.setup h off false false data false) s = .next (rsp [1] u)) ∧
    (s.CtlArrives h → ∀ st, exec (.setupRsp h st data) s = .next ((s.ctlTook h).updNode h.dnode (fun x =>
      { x with setups := x.setups.filter (fun k => decide (k ≠ h.dlocal * 256 + h.msgid)) })))

/-! ### The synchronisation network, panel time, routing tables and links -/

/-- R190, R191, R192, R193, R200, R216, R458, R584: an ARRIVE counts at its die and the last is passed to the parent; a RELEASE toggles the phase and goes to the
children; a message goes on an idle link at once and waits for a busy one, which next takes one of the highest priority; the frames of a message read back as it,
and a frame with a CRC error has the message sent again; a broadcast frame is passed on once, to every neighbour but the sender, and acts at its node: GO starts the loaded
tasks, CLAMP sets the region's clamp, TRICK arms the unit, FLIP switches the tables, SLEW and STEP wait for their time; an armed unit copies its counters at T. -/
def Obligations.SyncFramesCountReleaseAndFlood : Prop :=
  ∀ (s : State) (n ch ph q : Nat), n < 144 → ch < 8 → ph < 2 → q < 16 →
    let got := Tab.get 0 (s.node n).count (cntKey ch ph) + 1
    let up := s.rd (CD_SYNC_TREE.PARENT n)
    let kids := ((List.range 9).filter (fun w => bitOf (s.rd (CD_SYNC_TREE.CHILD n)) w)).filterMap (wayNode n)
    let pass := fun (sender type arg : Nat) (data : List Nat) =>
      (forL ((s.nbrs n).filter (fun x => decide (x ≠ sender))) (fun x v => v.syncSend n x type q arg data)
        (s.updNode n (fun x => { x with seq := Tab.set 0 x.seq type (q + 1) }))).out
    let fresh := fun (type : Nat) => Tab.get 0 (s.node n).seq type ≠ q + 1
    (got ≠ s.rd (CD_SYNC_EXP.EXP n ch) → ∃ t, exec (.syncArriveFrame n ch ph) s = .next t ∧ Tab.get 0 (t.node n).count (cntKey ch ph) = got ∧
      t.out = s.out ∧ t.regs = s.regs ∧ t.mem = s.mem) ∧
    (got = s.rd (CD_SYNC_EXP.EXP n ch) → ∃ t, exec (.syncArriveFrame n ch ph) s = .next t ∧ Tab.get 0 (t.node n).count (cntKey ch ph) = 0 ∧
      t.regs = s.regs ∧ t.mem = s.mem ∧ (up = 0 → t.out = s.out) ∧
      ∀ p, up ≠ 0 → wayNode n (up - 1) = some p → t.out = (s.syncSend n p 1 0 (ch + ph * 8) []).out) ∧
    (bitsOf (s.rd (CD_SYNC_PHASE.PHASE n)) ch 1 ≠ ph → exec (.syncReleaseFrame n ch ph) s = .next s) ∧
    (bitsOf (s.rd (CD_SYNC_PHASE.PHASE n)) ch 1 = ph → ∃ t,
      exec (.syncReleaseFrame n ch ph) s = .next t ∧ bitsOf (t.rd (CD_SYNC_PHASE.PHASE n)) ch 1 = 1 - ph ∧
      ((∀ k, k < 256 → (s.core (n * 256 + k)).tasks = []) →
        t.out = (forL kids (fun x v => v.syncSend n x 2 0 (ch + ph * 8) []) s).out ∧ t.mem = s.mem ∧ t.cores = s.cores)) ∧
    (∀ m type arg data, ((s.syncLink n m).busy ≤ s.ptime → (s.syncLink n m).wait = [] → (s.syncSend n m type q arg data).out = .sync n m type q arg data :: s.out) ∧
      (s.ptime < (s.syncLink n m).busy → (s.syncSend n m type q arg data).out = s.out ∧
        ((s.syncSend n m type q arg data).syncLink n m).wait = (s.syncLink n m).wait ++ [⟨type, q, arg, data⟩])) ∧
    (∀ l x, syncPick l = some x → x ∈ l ∧ ∀ y ∈ l, syncRank x.type ≤ syncRank y.type) ∧
    (∀ m : SyncMsg, m.type < 16 → m.seq < 16 → m.arg < 2 ^ 20 → m.data.length < 4 → (∀ x ∈ m.data, x < 2 ^ 32) → syncOf m.wire = some m) ∧
    (∀ sender type, (∀ m, (s.syncLink sender n).store.find? (fun m => decide (m.type = type)) = some m →
        exec (.syncFrameCrcError n sender type) s = .next (s.emit (.sync sender n m.type m.seq m.arg m.data))) ∧
      ((∀ m ∈ (s.syncLink sender n).store, m.type ≠ type) → exec (.syncFrameCrcError n sender type) s = .next s)) ∧
    (∀ sender layer, layer < 2 ^ 32 →
      (¬ fresh 3 → exec (.syncGo n sender q layer) s = .next s) ∧
      (fresh 3 → ∃ t, exec (.syncGo n sender q layer) s = .next t ∧ t.out = pass sender 3 0 [layer] ∧ t.mem = s.mem ∧
        ∀ k i, k < 256 → i < 4 → (s.core (n * 256 + k)).fenced = false → (s.task (n * 256 + k) i).loaded = true →
          (s.task (n * 256 + k) i).st = .empty → (s.task (n * 256 + k) i).layer = BitVec.ofNat 32 layer →
          (t.task (n * 256 + k) i).st = .ready ∨ (t.task (n * 256 + k) i).st = .running)) ∧
    (∀ sender level, level < 4 → fresh 4 → ∃ t, exec (.clamp n sender q level) s = .next t ∧ t.out = pass sender 4 level [] ∧
      t.net.clamp = level ∧ t.rd (RGN_PWR_STAT.CLAMPED (regionOf n)) = (if level = 0 then 0 else 1) ∧ t.mem = s.mem ∧ t.cores = s.cores) ∧
    (∀ sender tm m tr, s.tel.trick = some tr → tr.n = m → fresh 5 → ∃ t, exec (.trickFrame n sender q tm m) s = .next t ∧
      t.out = pass sender 5 0 [tm % 2 ^ 32, tm / 2 ^ 32, m] ∧ t.tel.trick = some { tr with armed := tr.armed ++ [n] } ∧ t.regs = s.regs ∧ t.mem = s.mem) ∧
    (∀ tr, s.tel.trick = some tr → tr.t ≤ s.ptime → n ∈ tr.armed → Tab.get [] s.tel.shadow n = [] → s.unitGone n = none → ∃ t,
      exec (.trickCopy n) s = .next t ∧ Tab.get [] t.tel.shadow n = s.unitShadow n ∧ t.regs = s.regs ∧ t.mem = s.mem ∧ t.out = s.out) ∧
    (∀ sender ver, ver < 2 ^ 16 → fresh 7 → s.bit (CD_RT_CTL.PEND n) = true → s.inactiveVer n = ver → ∃ t, exec (.syncFlip n sender q ver) s = .next t ∧
      (s.net.chg = none → t.out = pass sender 7 (ver * 16) []) ∧ t.rd (CD_RT_CTL.ACTIVE n) = 1 - s.rd (CD_RT_CTL.ACTIVE n) ∧ t.rd (CD_RT_CTL.PEND n) = 0 ∧
      t.mem = s.mem ∧ t.cores = s.cores) ∧
    (∀ sender start (adj : Int) ticks a, s.clk.adj = some a → n ∉ a.got → fresh 6 →
      (∃ t, exec (.timeSlew n sender q start adj ticks) s = .next t ∧ t.out = pass sender 6 3 [start % 2 ^ 32, unsgn 32 adj, ticks % 2 ^ 32] ∧
        t.clk.adj = some { a with got := a.got ++ [n] } ∧ t.regs = s.regs) ∧
      (∃ t, exec (.timeStep n sender q start adj) s = .next t ∧
        t.out = pass sender 6 4 [start % 2 ^ 32, unsgn 64 adj % 2 ^ 32, unsgn 64 adj / 2 ^ 32] ∧
        t.clk.adj = some { a with got := a.got ++ [n] } ∧ t.regs = s.regs))

/-- R458, R459, R464: the parent answers a time request with its own time; the child takes half the sum of the two differences as its offset, corrects its clock by
it, clears or sets PT_LOCK by it, and discards an exchange whose frame was sent again; SET loads a node's time. -/
def Obligations.TimeExchangesCorrectTheClock : Prop :=
  ∀ (s : State) (n child id t2 dt : Nat) (q : PtReq), n < 144 → id < 2 ^ 16 →
    let t4 := s.time16 n % 2 ^ 32
    let ofs := (diff32 t2 q.t1 + diff32 (t2 + dt) t4) / 2
    let lock := s.bit (CD_CLK_STAT.PT_LOCK n)
    let good := Tab.get 0 s.clk.good n + 1
    let old := Tab.get 0 s.clk.ofs n
    (∃ t d, exec (.syncTimeReq n child id) s = .next t ∧ t.out = (s.syncSend n child 6 0 (1 + id * 16) [s.time16 n % 2 ^ 32, d]).out ∧
      t.regs = s.regs ∧ t.mem = s.mem ∧ t.clk = s.clk) ∧
    (Tab.get none s.clk.req n = some q → q.id = id → s.timed n = true →
      exec (.syncTimeRsp n id t2 dt true) s = .next { s with clk := { s.clk with req := Tab.set none s.clk.req n none } } ∧
      (lock = false → (ofs < -16 ∨ 16 < ofs ∨ good < 4) → ∃ t, exec (.syncTimeRsp n id t2 dt false) s = .next t ∧ Tab.get none t.clk.req n = none ∧
        Tab.get 0 t.clk.ofs n = old + ofs ∧ t.rd (CD_CLK_PTOFS.OFS n) = unsgn 32 ofs ∧ t.bit (CD_CLK_STAT.PT_LOCK n) = false ∧ t.out = s.out) ∧
      (lock = false → -16 ≤ ofs → ofs ≤ 16 → 4 ≤ good → (∀ p, p < 16 → (s.part p).run = none) → ∃ t,
        exec (.syncTimeRsp n id t2 dt false) s = .next t ∧ Tab.get 0 t.clk.ofs n = old + ofs ∧ t.bit (CD_CLK_STAT.PT_LOCK n) = true ∧ t.out = s.out) ∧
      (lock = true → -64 ≤ ofs → ofs ≤ 64 → ∃ t, exec (.syncTimeRsp n id t2 dt false) s = .next t ∧
        Tab.get 0 t.clk.ofs n = old + ofs ∧ t.bit (CD_CLK_STAT.PT_LOCK n) = true ∧ t.out = s.out) ∧
      (lock = true → (ofs < -64 ∨ 64 < ofs) → ∃ t, exec (.syncTimeRsp n id t2 dt false) s = .next t ∧
        Tab.get 0 t.clk.ofs n = old + max (-16000) (min 16000 ofs) ∧ t.bit (CD_CLK_STAT.PT_LOCK n) = false)) ∧
    (∀ value frac, value < 2 ^ 64 → frac < 65536 → s.dieAbsent n = false → ∃ t, exec (.timeSet n value frac) s = .next t ∧
      Tab.get 0 t.clk.ofs n = ((value * 16 + frac / 4096 : Nat) : Int) - ((s.ptime * 16 : Nat) : Int) ∧ t.timed n = true ∧
      t.regs = s.regs ∧ t.mem = s.mem ∧ t.out = s.out)

/-- R173, R196, R199, R200, R222, R425, R426: a table change arms every die's inactive bank with a fresh version and waits for empty buffers, then FLIP goes
out; a flit in error is counted, sent again, and the sixteenth failed resend stops the link and reports the end that fails its test. -/
def Obligations.TablesChangeTogetherAndLinksResend : Prop :=
  ∀ (s : State) (d w m : Nat) (tabs : List (Nat × List Byte)), d < 144 → w < 9 → wayNode d w = some m →
    let ver := s.net.nextVer % 2 ^ 16
    let n := Tab.get 0 (s.node d).resends w + 1
    (s.layerGoing = true → exec (.tableChange tabs) s = .next s) ∧
    (s.layerGoing = false → s.bit GLB_STW_STAT.LOST_BOTH = false → ∃ t, exec (.tableChange tabs) s = .next t ∧ t.net.chg = some ⟨ver, false⟩ ∧
      t.net.nextVer = (ver + 1) % 2 ^ 16 ∧
      (s.dieAbsent d = false → t.rd (CD_RT_CTL.PEND d) = 1 ∧ t.inactiveVer d = ver ∧ t.activeVer d = s.activeVer d) ∧ t.out = s.out ∧ t.cores = s.cores) ∧
    (∀ g, s.net.chg = some g →
      (g.flipped = false → (∀ r ∈ s.routers, r.2.lanes = []) → s.links.falling = [] →
        exec .tableBuffersDrained s = .next ((s.updNet (fun x => { x with chg := some { g with flipped := true } })).broadcast 7 (g.ver * 16) [])) ∧
      (g.flipped = false → (∃ r ∈ s.routers, r.2.lanes ≠ []) → exec .tableBuffersDrained s = .next s) ∧
      (g.flipped = true → exec .tableBuffersDrained s = .next s.resumeTraffic)) ∧
    (s.dieAbsent d = false → exec (.rtFlipArm d) s = .next (s.wr (CD_RT_CTL.PEND d) 1)) ∧
    (s.dieAbsent d = false → ∀ same, ∃ t, exec (.linkFlitError d w true same) s = .next t ∧ t.rd (CD_NET_ERR.CE d) = 1 ∧
      t.rd (CD_NET_CE.COUNT d) = satTo (allOnes (CD_NET_CE.COUNT d).w) (s.rd (CD_NET_CE.COUNT d) + 1) ∧
      Tab.get 0 (t.node d).resends 9 = (if same then Tab.get 0 (s.node d).resends 9 + 1 else 1) ∧ t.out = s.out ∧ t.mem = s.mem) ∧
    (s.dieAbsent d = false → w < 4 → w ∉ (s.node d).stopped → n ≠ 8 → s.rd (CD_LNK_ERR.RESENDS d w) < 0x7FFF →
      Tab.get 0 s.links.winMs (endKey d w) ≠ s.ptime / 1000000 + 1 → 0 < s.rd GLB_LNK_CFG.RESEND_MAX →
      ∃ t, exec (.linkFlitError d w false true) s = .next t ∧ t.rd (CD_NET_ERR.CE d) = 1 ∧ Tab.get 0 (t.node d).resends w = n ∧
        t.rd (CD_LNK_ERR.RESENDS d w) = s.rd (CD_LNK_ERR.RESENDS d w) + 1 ∧ Tab.get 0 t.links.winCnt (endKey d w) = 1 ∧ t.out = s.out) ∧
    (s.dieAbsent d = false → (∀ near far, exec (.linkResendLimit d w true near far) s =
        .next (if Tab.get 0 (s.node d).resends 9 < 16 then s else s.dieFault d 0x10)) ∧
      (n < 17 → ∀ near far, exec (.linkResendLimit d w false near far) s = .next s) ∧
      (17 ≤ n → ∃ t, exec (.linkResendLimit d w false false true) s = .next t ∧ w ∈ (t.node d).stopped) ∧
      (17 ≤ n → s.anyLayer = false → ∃ t, exec (.linkResendLimit d w false true true) s = .next t ∧ w ∈ (t.node d).stopped ∧ t.linkMode d w = 2))

/-! ### The store -/

/-- R236, R249 to R260, R264 to R266: a scrub read counts a corrected error and makes the line good; a due row takes a spare, or the stack is marked; a stack that
faults trains again and is ONLINE, or LOST after its time or at its thermal trip; parity groups rebuild their stripes; initialisation leaves a store that reads zero. -/
def Obligations.StoreStacksTrainFailRepairAndRebuild : Prop :=
  ∀ (s : State) (n row a : Nat), n < 48 →
    let k := stackHub n
    let g := n / 12
    let st := fun (t : State) => t.rd (MH_STACK_STATE.STATE n)
    (s.onHub k a = true → s.bit (MH_HUB_STAT.INSERVICE k) = true → (s.place a).1 = n → st s < 2 →
      let line := a / 64 * 64
      let cnt := MH_CE_CNT.COUNT k (stackIdx n)
      (s.lineErr a = 0 → exec (.hubScrub k a []) s = .next s) ∧
      (s.lineErr a = 1 → s.rd cnt < 2 ^ 16 - 1 → ∃ t, exec (.hubScrub k a []) s = .next t ∧ t.rd cnt = s.rd cnt + 1 ∧ t.lineErr a = 0 ∧ t.mem = s.mem) ∧
      (2 ≤ s.lineErr a → s.pmode = false → ∃ t, exec (.hubScrub k a []) s = .next t ∧ t.bit (MH_ERR_STAT.UE k) = true ∧
        t.bit (MH_ERR_STAT.UE_FIXED k) = false ∧ t.mem = s.mem) ∧
      (2 ≤ s.lineErr a → s.hasParity line = true → (∀ x ∈ mates line, s.lineErr x = 0) → ∃ t, exec (.hubScrub k a []) s = .next t ∧
        t.bit (MH_ERR_STAT.UE k) = true ∧ t.bit (MH_ERR_STAT.UE_FIXED k) = true ∧ t.lineErr a = 0 ∧ t.mem = s.mem)) ∧
    (s.store.repairs.find? (fun e => decide (e.1 = n)) = some (n, row) → s.bit (MH_PPR_CTL.EN k) = true → s.stackLost n = false → s.stackTraining n = false →
      let rest := s.store.repairs.filter (fun e => decide (e ≠ (n, row)))
      (∃ t, exec (.pprRepair n true) s = .next t ∧ t.store.repairs = rest ∧ (n, row) ∈ t.store.soft ∧
        (t.bit (MH_PPR_STAT.BUSY k) = rest.any (fun e => decide (stackHub e.1 = k) && !s.stackLost e.1 && !s.stackTraining e.1)) ∧
        t.mem = s.mem ∧ st t = st s) ∧
      (∃ t, exec (.pprRepair n false) s = .next t ∧ t.store.repairs = rest ∧ t.bit (MH_PPR_STAT.NOSPARE k) = true ∧
        t.rd (MH_STACK_STATE.NOSPARE n) = 1 ∧ st t = 1 ∧ t.mem = s.mem)) ∧
    (st s ≠ 2 → exec (.stackFault n) s = .next (s.wr (MH_STACK_STATE.STATE n) 3)) ∧
    (st s = 3 → s.store.initing = false →
      exec (.stackRetrained n) s = .next ((s.wr (MH_STACK_STATE.STATE n) (s.rd (MH_STACK_STATE.NOSPARE n))).release n heldServe) ∧
      exec (.stackRetrainTimeout n) s = .next (((s.release n (heldAnswer 7)).loseStack n).maskStack n)) ∧
    (s.stackLost n = false → exec (.stackThermalTrip n) s =
      .next (((s.loseStack n).maskStack n).release n (if s.pmode then heldServe else heldAnswer 8))) ∧
    (st s = 3 → s.store.initing = false → (∀ r ∈ s.store.held, r.stack ≠ n) → s.store.ws = [] →
      (∃ t, exec (.stackRetrained n) s = .next t ∧ st t = s.rd (MH_STACK_STATE.NOSPARE n) ∧ t.mem = s.mem ∧ t.out = s.out) ∧
      (∃ t, exec (.stackRetrainTimeout n) s = .next t ∧ st t = 2 ∧ t.mem = s.mem ∧ t.out = s.out ∧
        (n < 32 → ∀ d, d < 144 → bitOf (t.rd (CD_STORE_LOST_LO.LOST d)) n = true))) ∧
    (st s ≠ 2 → (∀ r ∈ s.store.held, r.stack ≠ n) → s.store.ws = [] → ∃ t, exec (.stackThermalTrip n) s = .next t ∧ st t = 2 ∧ t.mem = s.mem ∧ t.out = s.out ∧
      (32 ≤ n → ∀ d, d < 144 → bitOf (t.rd (CD_STORE_LOST_HI.LOST d)) (n - 32) = true) ∧
      (s.pmode = true → Tab.get [] s.store.lost g = [] → s.store.built = [] → s.store.early = [] → (∃ m, m / 12 = g ∧ m ≠ n ∧ s.stackLost m = false) → t.rd (MH_PGRP_STATE.LOST_STACK g) = n ∧
        t.rd (MH_PGRP_STATE.STATE g) = if s.bit MH_RECON_CTL.AUTO then 3 else 2)) ∧
    (s.pmode = true → s.rd (MH_PGRP_STATE.STATE g) = 3 → st s ≠ 2 → s.rd MH_RECON_CTL.RATE ≠ 0 → s.nextStripe n < stripesPerPos → ∃ t,
      exec (.rebuildStripe n) s = .next t ∧ Tab.get 0 t.store.built n = s.nextStripe n + 1 ∧ t.mem = s.mem ∧ t.out = s.out) ∧
    ((∀ j, j < 48 → s.bit (MH_SEG_MAP.ASSIGNED j) = false) → s.storeTraffic = false → ∃ t,
      exec (.storeInit .fw) s = .next t ∧ t.bit MH_STORE_CFG.READY = false ∧ st t = 3 ∧ t.store.initing = true ∧ t.mem = s.mem) ∧
    (s.storeTraffic = true → exec (.storeInit .fw) s = .next s) ∧
    (∀ f, exec (.storeInit (.fn f)) s = .next s) ∧
    (s.store.initing = true → (∀ r ∈ s.opens, r.lo < 0x024000000000 → r.hi ≤ 0x024000000000) → ∀ failed noSpare : List Nat, ∃ t,
      exec (.storeInitComplete failed noSpare) s = .next t ∧ t.bit MH_STORE_CFG.READY = true ∧ t.store.initing = false ∧
      (∀ x, x < 0x024000000000 → t.byte x = 0) ∧ (∀ x, 0x024000000000 ≤ x → t.byte x = s.byte x) ∧
      st t = (if n ∈ failed then 2 else if n ∈ noSpare then 1 else 0) ∧ (∀ j, j < 48 → t.bit (MH_SEG_MAP.ASSIGNED j) = false) ∧
      t.rd MH_FW_AREA.BASE = if s.bit MH_STORE_CFG.PARITY then 0x020FC0000000 else 0x023FC0000000) ∧
    (∃ t, exec (.reconStart .fw) s = .next t ∧ (s.rd (MH_PGRP_STATE.STATE g) = 2 → t.rd (MH_PGRP_STATE.STATE g) = 3) ∧
      (s.rd (MH_PGRP_STATE.STATE g) ≠ 2 → t.rd (MH_PGRP_STATE.STATE g) = s.rd (MH_PGRP_STATE.STATE g)) ∧ t.mem = s.mem) ∧
    (∃ t, exec (.hubCeClr .fw k) s = .next t ∧ t.rd (MH_CE_CNT.COUNT k 0) = 0 ∧ t.rd (MH_CE_CNT.COUNT k 1) = 0 ∧ t.mem = s.mem) ∧
    (∀ f, exec (.hubCeClr (.fn f) k) s = .next s)

/-- R230, R231, R243 to R248, R263 to R268, R217: a segment map write reaches the map and every die's copy, a new mode leaves the segment's bytes open and is refused
while it is assigned or in parity mode; an extent array is enabled where it stands in one shared or firmware segment, its slots are freed by RD_IDX, and its
notices come at most one a microsecond; REDUCE_REMOTE sends store bytes as a reducing transfer. -/
def Obligations.SegmentsAndReceiveArraysAreConfigured : Prop :=
  ∀ (s : State) (j n k : Nat) (v : W32) (d : Desc), j < 48 → n < 72 →
    let b := fun (i w : Nat) => bitsOf v.toNat i w
    let lg := if 8 ≤ b 4 5 ∧ b 4 5 ≤ 16 then b 4 5 else 8
    let ok := s.rxaArrayOk (s.rd (MH_RXA_HDR.BASE n)) (64 * 2 ^ lg) && s.rxaArrayOk (s.rd (MH_RXA_DATA.BASE n)) (4096 * 2 ^ lg)
    (∃ t, exec (.segMapWrite .fw j v) s = .next t ∧ t.rd (MH_SEG_MAP.ASSIGNED j) = b 0 1 ∧ t.rd (MH_SEG_MAP.SHARED j) = b 1 1 ∧
      t.rd (MH_SEG_MAP.OWNER j) = b 4 4 ∧ (∀ x, x < 144 → t.rd (CD_SEG_MAP.OWNER x j) = b 4 4 ∧ t.rd (CD_SEG_MAP.MODE x j) = t.rd (MH_SEG_MAP.MODE j)) ∧
      (s.bit (MH_SEG_MAP.ASSIGNED j) = true → b 2 1 ≠ s.rd (MH_SEG_MAP.MODE j) → t.rd (MH_SEG_MAP.MODE j) = s.rd (MH_SEG_MAP.MODE j) ∧
        t.rd MH_STORE_CFG.MODE_ERR = 1 ∧ t.mem = s.mem) ∧
      (s.bit (MH_SEG_MAP.ASSIGNED j) = false → s.pmode = false → t.rd (MH_SEG_MAP.MODE j) = b 2 1 ∧
        (b 2 1 = s.rd (MH_SEG_MAP.MODE j) → t.mem = s.mem) ∧
        ∀ x, x < j * s.segSize ∨ (j + 1) * s.segSize ≤ x → (∀ r ∈ s.opens, ¬(r.lo ≤ x ∧ x < r.hi)) → t.byte x = s.byte x)) ∧
    (∀ f, exec (.segMapWrite (.fn f) j v) s = .next s) ∧
    (∃ t, exec (.rxaEnable .fw n v) s = .next t ∧ t.rd (MH_RXA_CTL.NOTIFY n) = b 1 1 ∧ t.rd (MH_RXA_CTL.LOG2N n) = lg ∧
      t.rd (MH_RXA_CTL.FUNC n) = b 12 4 ∧ t.mem = s.mem ∧ (b 0 1 = 0 → t.bit (MH_RXA_CTL.EN n) = false) ∧
      (b 0 1 = 1 → t.rd (MH_RXA_WR.WR_IDX n) = 0 ∧ Tab.get 0 t.host.rxaDue n = 0) ∧
      (b 0 1 = 1 → ok = true → t.bit (MH_RXA_CTL.EN n) = true) ∧ (b 0 1 = 1 → ok = false → t.bit (MH_RXA_CTL.EN n) = false ∧ t.bit (MH_RXA_STAT.CFG_ERR n) = true)) ∧
    (∀ f, f ≠ s.portOwner n → exec (.rxaEnable (.fn f) n v) s = .next s ∧ exec (.rxaRdWrite (.fn f) n v) s = .next s) ∧
    ((s.rd (MH_RXA_WR.WR_IDX n) + 2 ^ 32 - v.toNat) % 2 ^ 32 ≤ s.rxaSlots n → ∃ t, exec (.rxaRdWrite .fw n v) s = .next t ∧
      t.rd (MH_RXA_RD.RD_IDX n) = v.toNat ∧
      (t.bit (MH_RXA_STAT.FULL n) = true ↔ (s.rd (MH_RXA_WR.WR_IDX n) + 2 ^ 32 - v.toNat) % 2 ^ 32 = s.rxaSlots n)) ∧
    (s.rxaSlots n < (s.rd (MH_RXA_WR.WR_IDX n) + 2 ^ 32 - v.toNat) % 2 ^ 32 →
      exec (.rxaRdWrite .fw n v) s = .next (s.wr (MH_RXA_STAT.CFG_ERR n) 1)) ∧
    (s.bit (MH_RXA_CTL.NOTIFY n) = true → Tab.get 0 s.host.rxaDue n = 1 → Tab.get 0 s.host.rxaLast n = 0 → exec (.rxaNotify n) s =
      .next (({ s with host := { s.host with rxaLast := Tab.set 0 s.host.rxaLast n (s.ptime + 1), rxaDue := Tab.set 0 s.host.rxaDue n 0 } }).postEvent
        (s.rd (MH_RXA_CTL.FUNC n)) 0x0020 31 0 (leBytes 1 n ++ leBytes 3 0 ++ leBytes 4 (s.rd (MH_RXA_WR.WR_IDX n))))) ∧
    (∀ u l, s.Begins k 0x21 d → (s.beginDesc k).mustWait (d.f 64 48) (d.f 192 32) = false →
      (s.beginDesc k).placeOf (d.f 64 48) (d.f 192 32) = .store → (s.beginDesc k).localRead (d.f 64 48) (d.f 192 32) = (u, .ok l) →
      exec (.reduceRemote k) s =
        .next (u.jxTransfer k { jxHdr0 with vc := 6, ptype := 0x03, dst := d.f 176 16, addr := d.f 128 48, op := d.f 256 4 } l))

/-! ### The dealer -/

/-- R270 to R281, R288 to R297, R489, R515, R555: LOAD_KERNEL binds a handle to a sound object, PLACE sets the placement, RUN_LAYER starts the layer of a sound
plan, each of the two only with the partition's bulk traffic drained where maps change; COMMIT asks for a copy, RELEASE frees a handle; a weight record whose
pieces have all been acknowledged starts those that wait for it; a copy starts once its core is
done; the time limit ends a layer. -/
def Obligations.DealerDescriptorsBindPlaceRunAndCommit : Prop :=
  ∀ (s u w : State) (k : Nat) (d : Desc) (l : LayerRun) (pl : Placement),
    let b := s.beginDesc k
    let p := d.tag
    let a := d.f 64 48
    let done := fun (t : State) (key st : Nat) => ∃ e, t.descOf key = some e ∧ e.st = .finished ∧ e.status = st
    (∀ hd bytes x, s.Begins k 0x10 d → b.mustWait a 64 = false → b.handleBusy p (d.f 128 6) = false → b.dealerRead a 64 = (u, .ok hd) →
      kernelHdrOk hd = true → u.descReach d.fn p a (fieldAt hd 8 4) = true → u.mustWait a (fieldAt hd 8 4) = false →
      u.dealerRead a (fieldAt hd 8 4) = (w, .ok bytes) → parseKernel bytes = .ok x → exec (.loadKernel k) s =
        .next ((w.updPart p (fun y => { y with kernels := Tab.set 0 y.kernels (d.f 128 6) (a + 1) })).finishDesc k 0 0 0 0)) ∧
    (s.Begins k 0x10 d → b.mustWait a 64 = false → b.handleBusy p (d.f 128 6) = true → ∃ t, exec (.loadKernel k) s = .next t ∧ done t k 1 ∧
      t.parts = s.parts ∧ t.mem = s.mem) ∧
    (s.Begins k 0x11 d → b.partDrained p = false → exec (.place k) s = .next (s.holdDesc d)) ∧
    (s.Begins k 0x11 d → b.partDrained p = true → (b.wr (GLB_RCV_PART.LOSS_PENDING p) 0).embed p (d.f 64 9) (d.f 80 8) (d.f 88 1) = some pl → ∃ t,
      exec (.place k) s = .next t ∧ done t k 0 ∧ (t.part p).place = some pl ∧ (t.part p).noRes = false ∧ (pl.strays = [] → t.mem = s.mem)) ∧
    (s.Begins k 0x11 d → b.partDrained p = true → (b.wr (GLB_RCV_PART.LOSS_PENDING p) 0).embed p (d.f 64 9) (d.f 80 8) (d.f 88 1) = none → ∃ t,
      exec (.place k) s = .next t ∧ done t k 3 ∧ t.parts = s.parts ∧ t.mem = s.mem) ∧
    (∀ temps q, s.Begins k 0x12 d → s.rd THM_STAT.FLOW_STATE ≠ 2 → (s.part p).noRes = false → (s.part p).foldsDue = [] → b.startsHeld = false →
      b.mustWait a 128 = false → s.bit (GLB_RCV_PART.LOSS_PENDING p) = false →
      ((b.wr (GLB_RCV_PART.LOSS_PENDING p) 0).readPlan d.fn p a = (u, .ok q) →
        (u.shufPairs p (s.part p).seq q temps = [] ∨ u.partDrained p = true → exec (.runLayer k temps) s = .next (u.startLayer k p a q temps)) ∧
        (u.shufPairs p (s.part p).seq q temps ≠ [] → u.partDrained p = false → exec (.runLayer k temps) s = .next (s.holdDesc d))) ∧
      (∀ st det, (b.wr (GLB_RCV_PART.LOSS_PENDING p) 0).readPlan d.fn p a = (u, .error (st, det)) →
        exec (.runLayer k temps) s = .next (u.endUnstarted k p st det))) ∧
    (∀ temps, s.Begins k 0x12 d → s.rd THM_STAT.FLOW_STATE = 2 → ∃ t, exec (.runLayer k temps) s = .next t ∧ done t k 9 ∧ t.parts = s.parts) ∧
    (∀ temps, s.Begins k 0x12 d → s.rd THM_STAT.FLOW_STATE ≠ 2 → (s.part p).noRes = true → ∃ t, exec (.runLayer k temps) s = .next t ∧ done t k 3 ∧
      t.parts = s.parts) ∧
    (s.Begins k 0x13 d → ∃ t, exec (.commit k) s = .next t ∧ done t k 0 ∧ t.part p = { s.part p with commitNext := true } ∧ t.mem = s.mem ∧ t.regs = s.regs) ∧
    (s.Begins k 0x14 d → (b.handleBusy p (d.f 64 6) = false → ∃ t, exec (.release k) s = .next t ∧ done t k 0 ∧
        Tab.get 0 (t.part p).kernels (d.f 64 6) = 0 ∧ t.mem = s.mem ∧ t.regs = s.regs) ∧
      (b.handleBusy p (d.f 64 6) = true → ∃ t, exec (.release k) s = .next t ∧ done t k 1 ∧ t.parts = s.parts)) ∧
    (∀ q, q < 16 → (s.part q).run = some l → (s.part q).place = some pl →
      (∀ i, l.going = true → i ∈ l.wsOn → i ∉ l.wsDone →
        ((∀ x ∈ s.store.ws, x.part = q → x.idx = i → x.live = false) → exec (.weightStreamComplete q i) s =
          .next ((s.updPart q (fun x => { x with run := some { l with wsDone := l.wsDone ++ [i] } })).startWeights q i)) ∧
        ((∃ x ∈ s.store.ws, x.part = q ∧ x.idx = i ∧ x.live = true) → exec (.weightStreamComplete q i) s = .next s)) ∧
      (∀ x tag c h cr, s.store.ws = [x] → x.hub < 24 → x.sent = true → x.xfers = [.ack tag c] → h.dest = x.loc → h.tag = tag → h.status = 0 →
        s.Takes x.loc { h with type := 8 } → ∃ t, exec (.bulkAck x.loc cr h) s = .next t ∧ t.store.ws = [] ∧ t.parts = s.parts ∧ t.mem = s.mem) ∧
      (∀ c vx vy o, s.partOfCore c = some q → l.going = true → l.copyDue = true → c ∉ l.copied → (s.core c).fenced = false → (s.core c).work = [] →
        (∃ i, (s.task c i).loaded = true ∧ i ∈ (s.core c).tasks.map Prod.fst) → (∀ e ∈ (s.core c).tasks, e.2.loaded = true → e.2.st = .done) →
        pl.virtualOf c = some (vx, vy) → l.plan.outs = [o] → exec (.commitCopyStart c) s =
          let x : StreamDesc := { parseDesc [] with localOff := o.sp, rowBytes := o.len, rowCount := 1, addr := l.copyBase + (vy * l.plan.gx + vx) * o.len }
          .next (((s.updCore c (fun y => { y with streams := y.streams ++ [⟨y.nextTag, 4, 4, 0, 1, x, false, false, [], false⟩], nextTag := (y.nextTag + 1) % 0xFFF0, copies := y.copies + 1 })).updPart q
              (fun x => { x with run := some { l with copied := l.copied ++ [c], copyStarted := true } })).startStreams c)) ∧
      (l.going = true → l.limitOn = true → ((∃ r ∈ s.placedRegions q, s.bit (RGN_PWR_STAT.CLAMPED r) = true) → exec (.layerTimeLimit q) s = .next s) ∧
        ((∀ r ∈ s.placedRegions q, s.bit (RGN_PWR_STAT.CLAMPED r) = false) → ∃ t, exec (.layerTimeLimit q) s = .next t ∧ (t.part q).run = none ∧
          t.bit (GLB_DLR_PART3.STALE q) = true ∧ t.bit (GLB_DLR_PART3.RUNNING q) = false ∧ t.mem = s.mem ∧ t.out = s.out)))

/-! ### The host interface -/

/-- R321 to R329, R332, R342, R345, R347, R348, R352: doorbells move a ring's tail or head within its space and are refused otherwise; descriptors are fetched in
order, reported in the completion ring and dropped; a ring is enabled, drained and disabled; the event ring's head frees slots; a request the host rejects puts
its ring in error. -/
def Obligations.RingsFetchReportAndFail : Prop :=
  ∀ (s : State) (f r : Nat) (v : W32), r < 4096 → f < 16 →
    let n := s.ringSize r
    let h := s.rd (RING_HEAD.HEAD r)
    let tl := s.rd (RING_TAIL.TAIL r)
    let x := v.toNat
    (s.fnLive f = true → s.rd (RING_CFG.FUNC r) ≠ f → exec (.sqDoorbell f r v) s = .next (s.wr (HID_FN_ERR.DB_FOREIGN f) 1) ∧
      exec (.cqDoorbell f r v) s = .next (s.wr (HID_FN_ERR.DB_FOREIGN f) 1)) ∧
    (s.fnLive f = true → s.rd (RING_CFG.FUNC r) = f → s.ringOk r = true →
      (s.rd (RING_CFG.KIND r) = 0 → x < n → (x + n - tl) % n ≤ (h + n - 1 + n - tl) % n → exec (.sqDoorbell f r v) s = .next (s.wr (RING_TAIL.TAIL r) x)) ∧
      (s.rd (RING_CFG.KIND r) = 0 → (n ≤ x ∨ (h + n - 1 + n - tl) % n < (x + n - tl) % n) → exec (.sqDoorbell f r v) s = .next (s.ringError r 1)) ∧
      (s.rd (RING_CFG.KIND r) = 1 → x < n → (x + n - h) % n ≤ (tl + n - h) % n →
        let u := (s.wr (RING_HEAD.HEAD r) x).showFull r
        exec (.cqDoorbell f r v) s = .next (u.flushHeld r) ∧ u.rd (RING_HEAD.HEAD r) = x % 2 ^ 16 ∧ u.mem = s.mem ∧ u.out = s.out ∧
          (s.host.held = [] → u.flushHeld r = u))) ∧
    (∀ die trump left slots, die < 2 → s.net.chg = none → s.nextRing die = some (r, trump, left) →
      let m := min (min (min 8 left) ((tl + n - h) % n)) (min (n - h) (min (2048 - (s.host.descs.filter (fun d => decide (ringDie d.ring = die))).length) slots.length))
      0 < m → s.rd (RING_CFG.FUNC r) < 16 → ∃ t, exec (.descriptorFetch die slots) s = .next t ∧
        t.rd (RING_HEAD.HEAD r) = (h + m) % n % 2 ^ 16 ∧ t.host.nextKey = s.host.nextKey + m ∧
        t.out = .hostRead (s.rd (RING_CFG.FUNC r)) (s.rd (RING_BASE.BASE r) * 4096 + 64 * h) (64 * m) :: s.out ∧
        t.host.descs = s.host.descs ++ (List.range m).map (fun j =>
          ⟨s.host.nextKey + j, r, s.rd (RING_CFG.FUNC r), slotBytes (slots.getD j []), .fetched, 0, 0, 0, 0, false⟩)) ∧
    (∀ k d, s.descOf k = some d → d.st = .finished →
      (d.wantsEntry = true → exec (.descriptorComplete k) s = .next ((s.dropDesc k).report (s.entryOf d))) ∧
      (d.wantsEntry = false → exec (.descriptorComplete k) s = .next (s.dropDesc k))) ∧
    (Tab.get 0 s.host.coal r ≠ 0 → exec (.coalesceTimeout r) s =
      .next (({ s with host := { s.host with coal := Tab.set 0 s.host.coal r 0 } }).msix (s.rd (RING_CFG.FUNC r)) (s.rd (RING_LINK.VEC r)))) ∧
    (s.rd (RING_STAT.STATE r) = 0 →
      (((s.ringFields .fw r x).wr (RING_STAT.ERR r) 0).enableBad r = none → ∃ t : State, exec (.ringEnable .fw r v) s = .next (t.flushHeld r) ∧
        t.bit (RING_CFG.EN r) = true ∧ t.rd (RING_STAT.STATE r) = 1 ∧ t.rd (RING_HEAD.HEAD r) = 0 ∧ t.rd (RING_TAIL.TAIL r) = 0 ∧
        t.rd (RING_TAIL.PHASE r) = 1 ∧ t.out = s.out ∧ t.host = s.host ∧ (s.host.held = [] → t.flushHeld r = t)) ∧
      (∀ e, e < 8 → ((s.ringFields .fw r x).wr (RING_STAT.ERR r) 0).enableBad r = some e → ∃ t, exec (.ringEnable .fw r v) s = .next t ∧
        t.rd (RING_STAT.STATE r) = 0 ∧ t.rd (RING_STAT.ERR r) = e ∧ t.out = s.out)) ∧
    (s.bit (RING_CFG.EN r) = true → s.rd (RING_CFG.KIND r) = 0 → ∃ t, exec (.ringDisable .fw r v) s = .next t ∧ t.bit (RING_CFG.EN r) = false ∧
      t.rd (RING_STAT.STATE r) = 3 ∧ t.host = s.host ∧ t.out = s.out) ∧
    (s.rd (RING_STAT.STATE r) = 3 → (∀ d ∈ s.host.descs, d.ring ≠ r) → (∀ e ∈ s.host.held, e.sq ≠ r) →
      exec (.ringDrained r) s = .next (s.wr (RING_STAT.STATE r) 0)) ∧
    (let sz := 2 ^ s.rd (HID_EVT_CFG.LOG2SIZE f)
      let eh := s.rd (HID_EVT_HEAD.HEAD f)
      let y := bitsOf x 0 12
      (y < sz → (y + sz - eh) % sz ≤ (s.rd (HID_EVT_TAIL.TAIL f) + sz - eh) % sz →
        exec (.evtHeadWrite (.fn f) f v) s = .next ((s.wr (HID_EVT_HEAD.HEAD f) y).evtFlush f)) ∧
      (sz ≤ y → exec (.evtHeadWrite (.fn f) f v) s = .next s)) ∧
    (∃ t, exec (.evtEnable (.fn f) f v) s = .next t ∧ t.rd (HID_EVT_CFG.EN f) = bitsOf x 0 1 ∧ t.rd (HID_EVT_CFG.VEC f) = bitsOf x 16 11 ∧
      t.rd (HID_EVT_CFG.LOG2SIZE f) = (if 6 ≤ bitsOf x 8 4 ∧ bitsOf x 8 4 ≤ 12 then bitsOf x 8 4 else 6) ∧
      (bitsOf x 0 1 = 1 → t.rd (HID_EVT_HEAD.HEAD f) = 0 ∧ t.rd (HID_EVT_TAIL.TAIL f) = 0 ∧ t.rd (HID_EVT_TAIL.PHASE f) = 1 ∧
        t.rd (HID_FN_ERR.EVLOST f) = 0 ∧ Tab.get 0 t.host.evtSeq f = 0) ∧ t.out = s.out ∧ t.mem = s.mem) ∧
    (s.ringOk r = true → s.rd (RING_CFG.KIND r) = 0 → exec (.hostRequestRejected (.fetch r)) s = .next (s.ringError r 2)) ∧
    (∀ k d, s.descOf k = some d → d.st = .finished → d.wantsEntry = true → s.ringOk (s.entryOf d).cq = true →
      exec (.hostRequestRejected (.completion k)) s =
        .next (((s.dropDesc k).updHost (fun y => { y with held := y.held ++ [s.entryOf d] })).ringError (s.entryOf d).cq 3)) ∧
    (r ∉ s.host.rejects → exec (.hostRequestRejected (.held r)) s = .next (s.updHost (fun y => { y with rejects := y.rejects ++ [r] }))) ∧
    (∀ e, r ∈ s.host.rejects → s.host.held = [e] → e.cq = r → s.cqTakes r = true →
      s.flushHeld r = (s.updHost (fun y => { y with rejects := y.rejects.filter (fun z => decide (z ≠ r)) })).ringError r 3) ∧
    (∀ e, r ∉ s.host.rejects → s.host.held = [e] → e.cq = r → s.cqTakes r = true →
      s.flushHeld r = (s.updHost (fun y => { y with held := [] })).writeEntry e)

/-- R217, R337 to R341, R343, R404, R482, R492, R499, R583, R594, R604, R618, R621, R627, R636: what each descriptor of the host does once it begins: data
operations move, fill or check bytes; a failed destination is left mixed; a remote send and a barrier go to the Jexlink; tolerance, budget, trick, log, fence,
staging, activation and attestation. -/
def Obligations.DescriptorsHaveTheirEffects : Prop :=
  ∀ (s u w : State) (k : Nat) (d : Desc),
    let b := s.beginDesc k
    let done := fun (t : State) (st r0 : Nat) => ∃ e, t.descOf k = some e ∧ e.st = .finished ∧ e.status = st ∧ e.r0 = r0
    (∀ data l, s.Begins k 0x01 d → (∀ e ∈ d.locals, b.mustWait e.2.1 e.2.2 = false) → (d.f 256 1 = 1 ∨ d.f 192 40 ≤ data.length) →
      b.copySource d data = (u, .ok l) →
      (d.f 257 1 = 0 → exec (.copy k data) s = .next ((u.hostWrite d.fn (d.f 128 64) l).finishDesc k 0 0 (d.f 192 40) 0)) ∧
      (d.f 257 1 = 1 → u.localWrite (d.f 128 48) l = (w, none) → exec (.copy k data) s = .next (w.finishDesc k 0 0 (d.f 192 40) 0)) ∧
      (∀ a, d.f 257 1 = 1 → u.localWrite (d.f 128 48) l = (w, some a) →
        exec (.copy k data) s = .next ((w.mixed (d.f 128 48) (d.f 192 40)).finishDesc k 8 0 a 0))) ∧
    (s.Begins k 0x02 d → b.mustWait (d.f 64 48) (d.f 128 40) = false →
      b.localWrite (d.f 64 48) ((List.range (d.f 128 40)).map (fun i => (leBytes 8 (d.f 192 64)).getD (i % 8) 0)) = (u, none) →
      exec (.fill k) s = .next (u.finishDesc k 0 0 (d.f 128 40) 0)) ∧
    (∀ l, s.Begins k 0x03 d → b.mustWait (d.f 64 48) (d.f 128 40) = false → b.localRead (d.f 64 48) (d.f 128 40) = (u, .ok l) →
      let v := crc (d.f 384 7) (d.f 192 64) (d.f 256 64) (d.f 320 64) (decide (d.f 392 1 = 1)) (decide (d.f 393 1 = 1)) l
      exec (.check k) s = .next ((u.wr (CKU_RESULT.RESULT (16 + ringDie d.ring)) v).finishDesc k 0 0 v 0)) ∧
    (∀ l, s.Begins k 0x20 d → d.trump = false → d.f 263 1 = 0 → d.f 128 48 ≠ recAddr → (d.f 128 48 < winBase 0 ∨ winBase 36864 ≤ d.f 128 48) →
      b.mustWait (d.f 64 48) (d.f 192 32) = false → b.localRead (d.f 64 48) (d.f 192 32) = (u, .ok l) → exec (.sendRemote k) s =
        .next (u.jxTransfer k { jxHdr0 with vc := 2, ptype := 0x01, dst := d.f 176 16, addr := d.f 128 48, cnt := d.f 256 6, cntEn := false, inc := d.f 272 16 } l)) ∧
    (s.Begins k 0x20 d → d.f 263 1 = 0 → winBase 0 ≤ d.f 128 48 → d.f 128 48 < winBase 36864 → ∃ t, exec (.sendRemote k) s = .next t ∧ done t 2 0 ∧ t.mem = s.mem) ∧
    (s.Begins k 0x40 d → ∃ t, exec (.setTolerance k) s = .next t ∧ t.rd (HID_PART_TOL.TOL d.tag) = d.f 64 32 ∧ t.mem = s.mem) ∧
    (s.Begins k 0x40 d → (∀ r, r < 16 → s.rgnState r < 3) → s.power.antes = [] → (∀ r, r < 16 → Tab.get 0 s.power.ramp r = 0) → ∃ t,
      exec (.setTolerance k) s = .next t ∧ t.rd (HID_PART_TOL.TOL d.tag) = d.f 64 32 ∧ done t 0 0 ∧ t.mem = s.mem) ∧
    (s.Begins k 0x41 d → ∃ t, exec (.setBudget k) s = .next t ∧ t.rd PWR_BUDGET.HOST_W = min 16000 (d.f 64 32) ∧ done t 0 (min 16000 (d.f 64 32)) ∧
      t.mem = s.mem) ∧
    (s.Begins k 0x30 d → s.tel.trick = none →
      (d.f 64 64 ≤ s.ptime + 10000000000 → exec (.trick k) s = .next (b.beginTrick (some k) (max (d.f 64 64) (s.ptime + 20000)))) ∧
      (s.ptime + 10000000000 < d.f 64 64 → ∃ t, exec (.trick k) s = .next t ∧ done t 2 0)) ∧
    (s.Begins k 0x31 d → isPf d.fn = true →
      let x := takeRecords (d.f 128 25) (s.tel.log.filter (s.logMatch d.fn (d.f 224 16) (d.f 240 8) (d.f 160 64)))
      ∃ t, exec (.readLog k) s = .next t ∧ done t 0 x.1.length ∧ t.mem = s.mem ∧ (x.1 = [] → t.out = s.out)) ∧
    (s.Begins k 0x50 d → (d.f 64 2 = 0 → (∀ e ∈ s.host.descs, e.key < k → e.ring ≠ d.ring) → ∃ t, exec (.fence k) s = .next t ∧ done t 0 0 ∧ t.regs = s.regs) ∧
      (d.f 64 2 = 1 → (∃ e ∈ s.host.descs, e.key < k ∧ e.fn = d.fn) → exec (.fence k) s = .next (s.holdDesc d))) ∧
    (s.Begins k 0x51 d →
      let data := leBytes 4 (d.f 64 32) ++ leBytes 4 (d.f 128 32) ++ leBytes 2 (d.f 112 16)
      exec (.barrier k) s = .next (({ b with jx := { b.jx with nextXid := (s.jx.nextXid + 1) % 2 ^ 32, bars := s.jx.bars ++ [(⟨s.jx.nextXid, k⟩ : JxBar)] } }).jxSend
        { jxHdr0 with vc := if d.trump then 0 else 1, ptype := 0x08, ndata := 1, hops := s.rd JX_CFG.HOPS, dst := d.f 96 16, src := s.rd JX_SELF.ID, len := data.length, xid := s.jx.nextXid, pcrc := crc32 data } data)) ∧
    (∀ x, s.jx.bars = [x] → x.key = k → s.descOf k = some d → d.st = .running → ∃ t, exec (.barrierTimeout k) s = .next t ∧ done t 7 0 ∧ t.jx.bars = [] ∧
      t.regs = s.regs ∧ t.mem = s.mem) ∧
    (∀ data, s.Begins k 0x60 d → d.f 160 32 + d.f 128 25 ≤ 2 ^ 24 → s.rcv.update = none → d.f 128 25 ≤ data.length → s.recovering = true → d.f 200 1 = 0 →
      d.f 160 32 ≠ 0 → d.f 192 2 < 3 → ∃ t, exec (.fwStage k data) s = .next t ∧ t.rd (KEY_FW_STAGE0.STATE (d.f 192 2)) = 1 ∧
        (∃ e, t.descOf k = some e ∧ e.st = .finished ∧ e.status = 0) ∧
        ∀ i, i < d.f 128 25 → t.byte (s.stageBase (d.f 192 2) + d.f 160 32 + i) = data.getD i 0) ∧
    (s.Begins k 0x61 d → s.rd (KEY_FW_STAGE0.STATE (d.f 64 2)) ≠ 2 → s.recovering = true → ∀ bad, ∃ t, exec (.fwActivate ⟨k, bad⟩) s = .next t ∧ done t 2 0 ∧
      t.mem = s.mem) ∧
    (s.Begins k 0x61 d → s.recovering = false → isPf d.fn = true → 1 ≤ s.role (d.fn / 8) → s.rcv.update = none → s.rd (KEY_FW_STAGE0.STATE 1) = 2 →
      d.f 64 2 = 1 → s.keyReady = true →
      exec (.fwActivate ⟨k, true⟩) s = .next (((b.service true).flashBad 1 ((b.stagedImg 1).getD [])).finishDesc k 8 0 0 0) ∧
      exec (.fwActivate ⟨k, false⟩) s = .next ((((((b.service true).flashBoth 1 ((b.stagedImg 1).getD [])).updRcv
        (fun r => { r with update := some ⟨k, 1, 0, []⟩ })).fwUpdate 1 0).nextDie))) ∧
    (s.Begins k 0x70 d → (d.f 128 25 < 736 → ∃ t, exec (.attest k) s = .next t ∧ done t 2 0 ∧ t.mem = s.mem) ∧
      (736 ≤ d.f 128 25 → s.keyReady = true →
        let chain := Config.chain s.sd (s.meas 1)
        let more := decide (736 + chain.length ≤ d.f 128 25)
        let body := b.report672 ((d.raw.drop 20).take 32) (if more then chain.length else 0)
        let l := body ++ b.attSign body ++ (if more then chain else [])
        exec (.attest k) s = .next (((b.service true).hostWrite d.fn (d.f 64 64) l).finishDesc k 0 0 l.length 0)))

/-- R311 to R319, R332, R346, R350 to R352: functions appear and are reset, their descriptors and rings with them; a partition is written only by a physical
function, while it does not run and its regions are free; segment requests are applied together; the windows answer by what the function may reach; the
links of the endpoints go up and down. -/
def Obligations.FunctionsPartitionsAndWindows : Prop :=
  ∀ (s u : State) (ep f p : Nat) (v : W32), ep < 2 → f < 16 → p < 16 →
    let b := fun (i w : Nat) => bitsOf v.toNat i w
    (∀ en num, ∃ t, exec (.vfEnable ep en num) s = .next t ∧ Tab.get 0 t.host.vfEn ep = (if en then 1 else 0) ∧ Tab.get 0 t.host.numVfs ep = min 7 num ∧
      (∀ i, i < 7 → (t.bit (HID_FN_ID.EN (8 * ep + i + 1)) = true ↔ en = true ∧ i < num)) ∧ t.bit (HID_FN_ID.EN (8 * ep)) = s.bit (HID_FN_ID.EN (8 * ep)) ∧
      t.mem = s.mem ∧ t.out = s.out) ∧
    (isPf f = false → exec (.partWrite (.fn f) p v) s = .next s ∧ exec (.segApply (.fn f) v) s = .next s) ∧
    (isPf f = true → s.locked = false → b 21 1 = 0 →
      let hit := ∃ q, q < 16 ∧ q ≠ p ∧ s.bit (HID_PART.EN q) = true ∧ Nat.land (s.rd (HID_PART.REGIONS q)) (b 0 16) ≠ 0
      ((s.bit (GLB_DLR_PART3.RUNNING p) = true ∨ hit) → exec (.partWrite (.fn f) p v) s = .next (s.wr (HID_PART.CFG_ERR p) 1)) ∧
      (s.bit (GLB_DLR_PART3.RUNNING p) = false → ¬ hit → (b 0 16 ≠ s.rd (HID_PART.REGIONS p) ∨ b 20 1 ≠ s.rd (HID_PART.EN p)) → ∃ t,
        exec (.partWrite (.fn f) p v) s = .next t ∧ t.rd (HID_PART.REGIONS p) = b 0 16 ∧ t.rd (HID_PART.OWNER p) = b 16 4 ∧ t.rd (HID_PART.EN p) = b 20 1 ∧
        t.bit (GLB_DLR_PART3.STALE p) = true ∧ (t.part p).place = none ∧ (t.part p).kernels = [] ∧ t.mem = s.mem)) ∧
    (isPf f = true → b 2 1 = 0 → b 3 1 = 0 → b 0 1 = 1 → exec (.segApply (.fn f) v) s = .next (s.wr HID_SEG_APPLY.BUSY 1)) ∧
    (s.boot.saveDue = false → s.bit HID_SEG_APPLY.BUSY = true → s.pmode = false → (∀ q, q < 16 → s.bit (GLB_DLR_PART3.RUNNING q) = false) → ∃ t, exec .segApplyDone s = .next t ∧
      t.bit HID_SEG_APPLY.BUSY = false ∧ t.bit HID_SEG_APPLY.APPLIED = true ∧ ∀ j, j < 48 →
        t.rd (MH_SEG_MAP.ASSIGNED j) = s.rd (HID_SEG_REQ.ASSIGNED j) ∧ t.rd (MH_SEG_MAP.SHARED j) = s.rd (HID_SEG_REQ.SHARED j) ∧
        t.rd (MH_SEG_MAP.MODE j) = s.rd (HID_SEG_REQ.MODE j) ∧ t.rd (MH_SEG_MAP.OWNER j) = s.rd (HID_SEG_REQ.OWNER j)) ∧
    (∀ j, s.boot.saveDue = false → s.bit HID_SEG_APPLY.BUSY = true → s.pmode = true → j < 48 → s.rd (HID_SEG_REQ.MODE j) = 1 → (∀ i, i < j → s.rd (HID_SEG_REQ.MODE i) ≠ 1) →
      exec .segApplyDone s = .next (((s.wr HID_SEG_APPLY.BUSY 0).wr HID_SEG_APPLY.ERR 1).wr HID_SEG_APPLY.ERR_SEG j)) ∧
    (∀ off n x, s.bar0Up f = true → off < 0x4000000 →
      ((n = 4 ∨ n = 8) → off % n = 0 → exec (.bar0Access f off n (some x)) s = .next (s.bar0Write f off n x) ∧
        exec (.bar0Access f off n none) s = .next ((s.bar0Read f off n).2.emit (.readData (.fn f) (s.bar0Read f off n).1 n false))) ∧
      (n ≠ 4 → n ≠ 8 → exec (.bar0Access f off n (some x)) s = .next s ∧
        exec (.bar0Access f off n none) s = .next (s.emit (.readData (.fn f) (allOnes (8 * n)) n false)))) ∧
    (∀ off n, s.fnLive f = true → off < 2 ^ 24 → exec (.bar2Read f off n) s = .next (s.emit (.readData (.fn f) 0 n false))) ∧
    (∀ off n data l, s.fnLive f = true → off + n ≤ 2 ^ 36 → 0 < n →
      let a := s.rd (HID_FN_AP.BASE f) * 2 ^ 30 + off
      (s.apReach f a n = false → exec (.bar4Access f true false off n data) s = .next (s.wr (HID_FN_ERR.AP_ERR f) 1) ∧
        exec (.bar4Access f false false off n data) s = .next ((s.wr (HID_FN_ERR.AP_ERR f) 1).emit (.readData (.fn f) (allOnes (8 * n)) n false))) ∧
      (s.apReach f a n = true → s.mustWait a n = false →
        exec (.bar4Access f true true off n data) s = .next ((s.wr (HID_FN_ERR.AP_ERR f) 1).updHost (fun h => { h with aer := Tab.upd 0 h.aer f (Nat.lor 0x1000) })) ∧
        (data.length = n → s.localWrite a data = (u, none) → exec (.bar4Access f true false off n data) s = .next u) ∧
        (s.localRead a n = (u, .ok l) → exec (.bar4Access f false false off n data) s = .next (u.emit (.readData (.fn f) (leNat l) n false))))) ∧
    (s.bit (HID_FN_ID.EN f) = true → ∃ t, exec (.flr f) s = .next t ∧
      exec (.d3hotEntry f) s = .next (t.updHost (fun h => { h with d3hot := Tab.set 0 h.d3hot f 1 })) ∧ (∀ d ∈ t.host.descs, d.fn ≠ f) ∧
      t.bit (HID_EVT_CFG.EN f) = false ∧ t.rd (HID_FN_AP.BASE f) = 0 ∧ t.mem = s.mem ∧
      ∀ r ∈ s.fnRings f, t.bit (RING_CFG.EN r) = false ∧ t.rd (RING_STAT.STATE r) = 0) ∧
    (Tab.get 0 s.host.inReset ep = 1 → (∃ t, exec (.perst ep) s = .next t ∧ Tab.get 0 t.host.inReset ep = 0 ∧ Tab.get 0 t.host.linkDown ep = 1 ∧
        ∀ d ∈ t.host.descs, d.fn / 8 ≠ ep) ∧
      (∃ t, exec (.pcieLinkDown ep) s = .next t ∧ Tab.get 0 t.host.inReset ep = 1 ∧ Tab.get 0 t.host.linkDown ep = 1 ∧ ∀ d ∈ t.host.descs, d.fn / 8 ≠ ep)) ∧
    (Tab.get 0 s.host.inReset ep = 0 → ∃ t, exec (.perstDeassertion ep) s = .next t ∧ Tab.get 0 t.host.inReset ep = 1 ∧ Tab.get 0 t.host.linkDown ep = 0 ∧
      (s.rd RST_BOOT_STAT.STATE = 1 → t.bit (HID_FN_ID.EN (8 * ep)) = true) ∧ t.mem = s.mem) ∧
    (∀ rate width, exec (.pcieLinkChange ep rate width) s =
      .next (({ s with host := { s.host with linkRate := Tab.set 0 s.host.linkRate ep rate, linkWidth := Tab.set 0 s.host.linkWidth ep width } }).postEvent
        (8 * ep) 0x0003 31 1 (leBytes 1 rate ++ leBytes 1 width)))

/-! ### The optical ports and the laser modules -/

/-- R358, R360 to R368, R375, R381, R400, R418, R679: an engine counts its lanes each second and a lane that crosses three times is BAD; a spare lane takes its place at
the agreed flit, or the port narrows; ports train to a width; fibres and feeds are measured against their baselines; a drained port lets its module go. -/
def Obligations.OpticalPortsTrainSwitchAndMeasure : Prop :=
  ∀ (s : State) (k l : Nat) (v : W32), k < 24 → l < 48 →
    let n := 3 * k + l / 16
    let i := l % 16
    (∀ counts farSwitched : List Nat, s.bit (OE_STAT.INSERVICE k) = true → ∃ t, exec (.laneHealthInterval k ⟨counts, farSwitched⟩) s = .next t ∧
      t.rd (OE_LANE_SER.COUNT k l) = min (2 ^ 32 - 1) (counts.getD l 0) ∧
      (s.rd (OE_LH_CFG.THR k) < counts.getD l 0 → 8 * k + l % 8 ∉ s.opt.switched → l ∉ farSwitched → (s.hstate n i = 1 ∨ s.hstate n i = 2) →
        ((s.window (48 * k + l)).length < 2 → t.rd (OE_LANE_STAT.CROSS k l) = (s.window (48 * k + l)).length + 1) ∧
        (2 ≤ (s.window (48 * k + l)).length → Tab.get none s.opt.rxOp n ≠ none → t.hstate n i = 3))) ∧
    (Tab.get none s.opt.rxOp n = none → exec (.swapConfirmTimeout n) s = .next s) ∧
    (∀ o, Tab.get none s.opt.rxOp n = some o → o.narrow = false →
      (o.fseq = none → exec (.swapConfirmTimeout n) s = .next (({ s with opt := { s.opt with rxOp := Tab.set none s.opt.rxOp n none } }).narrow n o.llane (s.width n + 1))) ∧
      (∀ q j, o.fseq = some q → o.slane < 16 → o.llane < 15 → j < 16 → s.hstate n j = 3 → s.logical n j = o.llane → s.hstate n o.slane = 2 →
        (∀ x, x < 16 → x ≠ j → s.hstate n x = 3 → s.logical n x = 0xFF) → widthOf (s.width n) ≤ (s.goodLanes n).length →
        ∃ t, exec (.laneSwitchAtFlit n .rx) s = .next t ∧
        t.hstate n o.slane = 1 ∧ t.logical n o.slane = o.llane ∧ t.logical n j = 0xFF ∧ t.mem = s.mem)) ∧
    (∀ o, Tab.get none s.opt.txOp n = some o → o.narrow = false → o.slane < 16 → ∀ far, ∃ t, exec (.laneSwitchAtFlit n (.tx far)) s = .next t ∧
      Tab.get none t.opt.txOp n = none ∧ Tab.get 0 t.opt.txLane (16 * n + o.slane) = o.llane + 1 ∧ t.regs = s.regs ∧ t.mem = s.mem) ∧
    (s.mayTrainPort n = true → exec (.portRetrainWrite .fw n) s = .next (s.trainPort n)) ∧
    (s.mayTrainPort n = false → exec (.portRetrainWrite .fw n) s = .next s) ∧
    (s.pstate n = 2 → s.hstate n i = 3 → s.logical n i = 0xFF →
      (∃ t, exec (.laneRetest .fw k l true) s = .next t ∧ t.hstate n i = 2 ∧ t.bit (OE_LANE_STAT.LOCK k l) = true ∧ t.rd (OE_LANE_STAT.CROSS k l) = 0 ∧
        t.mem = s.mem ∧ t.out = s.out) ∧ exec (.laneRetest .fw k l false) s = .next (s.laneBad n i false)) ∧
    (bitOf v.toNat 0 = true → ∃ t, exec (.baselineWrite .fw k v) s = .next t ∧ ∀ j, j < 6 → s.rd (OE_FSTAT.LEVEL k j) ≠ 3 →
      t.rd (OE_FLOSS.BASE k j) = s.rd (OE_FLOSS.LOSS k j)) ∧
    (∀ rx tx : List Nat, s.pstate n = 1 →
      let good := ((List.range 16).filter (fun j => rx.contains j)).length
      let far := ((List.range 16).filter (fun j => tx.contains j)).length
      ∃ t, exec (.portTrainingComplete n rx tx) s = .next t ∧ (i ∉ rx → t.hstate n i = 3) ∧
        (widthFor good (s.minw n) = 3 ∨ widthFor far (s.minw n) = 3 → t.pstate n = 0) ∧
        (widthFor good (s.minw n) ≠ 3 → widthFor far (s.minw n) ≠ 3 → t.pstate n = 2 ∧
          t.rd (OE_PORT_STAT.WIDTH (portK n) (portP n)) = widthFor good (s.minw n))) ∧
    (∀ tx rx feed out, s.bit (OE_STAT.INSERVICE k) = true → ∃ t, exec (.opticalPowerSample k tx rx feed out) s = .next t ∧
      (∀ j, j < 6 → t.rd (OE_FTX.POWER k j) = unsgn 16 (tx.getD j 0) ∧ t.rd (OE_FRX.POWER k j) = unsgn 16 (rx.getD j 0)) ∧
      ∀ f, f < 4 → t.rd (OE_FEED.POWER k f) = unsgn 16 (feed.getD f 0)) ∧
    (∀ j, j < 6 → exec (.nofarTimeout k j) s = .next ((s.wr (OE_FSTAT.NOFAR k j) 1).judgeFibre k j)) ∧
    (s.bit GLB_STW_STAT.LOST_BOTH = false → ∃ t, exec .marginSample s = .next t ∧ t.regs = s.regs ∧ t.mem = s.mem ∧ t.out = s.out ∧
      t.opt.day = dayOf s.ptime ∧ (Tab.get ⟨0, 0, 0, 0⟩ t.opt.margins (3 * (48 * k + l))).n =
        (if s.opt.day = dayOf s.ptime then (Tab.get ⟨0, 0, 0, 0⟩ s.opt.margins (3 * (48 * k + l))).n else 0) + 1) ∧
    (s.rd (OE_LANE_STAT.HSTATE k l) ≠ 4 → exec (.laneLockLoss k l true) s = .next (s.wr (OE_LANE_STAT.LOCK k l) 1) ∧
      (s.rd (OE_LANE_LOCK.COUNT k l) < 0x7FFF → ∃ t, exec (.laneLockLoss k l false) s = .next t ∧ t.bit (OE_LANE_STAT.LOCK k l) = false ∧
        t.rd (OE_LANE_LOCK.COUNT k l) = s.rd (OE_LANE_LOCK.COUNT k l) + 1 ∧ 48 * k + l ∈ t.opt.lostNow ∧ t.out = s.out)) ∧
    exec (.drainComplete n) s = .next (s.elsReady (k / 2)) ∧
    (s.lstate n = 3 → exec (.drainTimeout n) s = .next (((s.moveQueue n).updPort n (fun x => { x with unacked := [] })).elsReady (k / 2)))

/-- R360, R369 to R374, R379, R381, R669: a laser that fails or ages gives way to its spare, and with no spare its wavelength is out; a module's lasers go off when its
interlock breaks, and come on after the module is inserted, verified and warm; a swap drains the module's ports first and may be cancelled. -/
def Obligations.LaserModulesSpareSwapAndLight : Prop :=
  ∀ (s : State) (k w : Nat) (v : W32), k < 12 → w < 8 →
    let st := fun (t : State) => t.rd (OE_ELS_STAT.STATE k)
    let dark := fun (t : State) => t.bit (OE_STAT.DARK (2 * k)) = true ∧ t.bit (OE_STAT.DARK (2 * k + 1)) = true
    (∀ bias cooler weak : List Nat, st s = 2 → bitOf (s.rd (OE_ELS_STAT.FAILED k)) w = false → ∃ t, exec (.laserTrendCheck k ⟨bias, cooler⟩ weak) s = .next t ∧
      t.rd (OE_ELS_BIAS.BIAS k w) = bias.getD w 0 % 2 ^ 16 ∧ t.rd (ELS_LAS.COOLER k w) = cooler.getD w 0 % 2 ^ 16 ∧
      (w ∈ weak → Tab.get 0 s.opt.swap k ≠ 1 → s.bit (OE_ELS_BIAS.ON_SPARE k w) = false → s.bit (OE_ELS_BIAS.SPARE_FAIL k w) = false →
        t.bit (OE_ELS_BIAS.ON_SPARE k w) = true ∧ t.bit (OE_ELS_STAT.REPLACE k) = true)) ∧
    (st s = 2 → bitOf (s.rd (OE_ELS_STAT.FAILED k)) w = false →
      (s.bit (OE_ELS_BIAS.ON_SPARE k w) = false → s.bit (OE_ELS_BIAS.SPARE_FAIL k w) = false → ∃ t, exec (.laserSuddenFail k w) s = .next t ∧
        t.bit (OE_ELS_BIAS.ON_SPARE k w) = true ∧ bitOf (t.rd (OE_ELS_STAT.SPARED k)) w = true ∧ t.mem = s.mem) ∧
      (s.bit (OE_ELS_BIAS.ON_SPARE k w) = true → ∃ t, exec (.laserSuddenFail k w) s = .next t ∧ t.bit (OE_ELS_BIAS.SPARE_FAIL k w) = true ∧
        bitOf (t.rd (OE_ELS_STAT.FAILED k)) w = true)) ∧
    (s.bit (OE_ELS_STAT.PRESENT k) = true → ∃ t, exec (.interlockBreak k) s = .next t ∧ t.bit (OE_ELS_STAT.PRESENT k) = false ∧
      t.bit (OE_ELS_STAT.VERIFIED k) = false ∧ st t = 0 ∧ t.bit (ELS_CTL.LASER_EN k) = false ∧ (st s ≠ 3 → dark t)) ∧
    (∀ record, s.bit (OE_ELS_STAT.PRESENT k) = false → s.engPowered (2 * k) = true → s.bit GLB_STW_STAT.LOST_BOTH = false → ∃ t, exec (.moduleInsert k record) s = .next t ∧
      t.bit (OE_ELS_STAT.PRESENT k) = true ∧ t.mem = s.mem ∧ (elsRecordOk record = true → t.bit (OE_ELS_STAT.VERIFIED k) = true ∧ st t = 1) ∧
      (elsRecordOk record = false → t.bit (OE_ELS_STAT.VERIFIED k) = false ∧ st t = 0)) ∧
    (∀ bias, st s = 1 → s.bit (OE_ELS_STAT.VERIFIED k) = true → s.bit (OE_ELS_STAT.PRESENT k) = true → ∃ t, exec (.laserWarmupComplete k bias) s = .next t ∧
      st t = 2 ∧ t.bit (ELS_CTL.LASER_EN k) = true ∧ t.rd (OE_ELS_BIAS.BIAS k w) = bias.getD w 0 % 2 ^ 16) ∧
    exec (.elsSwapReq .fw k) s = .next (s.elsSwap k) ∧
    (s.bit GLB_STW_STAT.LOST_BOTH = false →
      (s.bit (OE_ELS_STAT.PRESENT k) = true → Tab.get 0 s.opt.swap k ∉ [1, 3, 4] → (∀ n ∈ elsPorts k, s.lstate n ≠ 2 ∧ s.drained n = true) → ∃ t,
        exec (.elsSwapReq .fw k) s = .next t ∧ st t = 0 ∧ t.bit (ELS_CTL.LASER_EN k) = false ∧ dark t ∧ Tab.get 0 t.opt.swap k = 4) ∧
      (Tab.get 0 s.opt.swap k = 4 → st s.elsTick = 3 ∧ Tab.get 0 s.elsTick.opt.swap k = 3) ∧
      (Tab.get 0 s.opt.swap k = 1 ∨ Tab.get 0 s.opt.swap k = 4 → ∃ t, exec (.elsSwapCancel .fw k) s = .next t ∧ Tab.get 0 t.opt.swap k = 0 ∧ t.mem = s.mem ∧
        (Tab.get 0 s.opt.swap k = 4 → st t = 1) ∧ ∀ n ∈ elsPorts k, s.lstate n = 3 → t.lstate n = 2)) ∧
    (∀ f, isPf f = false → exec (.elsSwapReq (.fn f) k) s = .next s ∧ exec (.elsSwapCancel (.fn f) k) s = .next s) ∧
    (s.bit (OE_ELS_STAT.PRESENT k) = true →
      (bitOf v.toNat 0 = true → s.bit (OE_ELS_STAT.VERIFIED k) = true → s.bit (ELS_STAT.LOCKED k) = true → s.bit (ELS_STAT.ILK_A k) = true →
        s.bit (ELS_STAT.ILK_B k) = true → ∃ t, exec (.elsLaserEn k v) s = .next t ∧ t.bit (ELS_CTL.LASER_EN k) = true ∧ st t = 2 ∧
        t.rd (ELS_CTL.IND k) = bitsOf v.toNat 1 3 ∧ t.mem = s.mem ∧ t.out = s.out) ∧
      (bitOf v.toNat 0 = true → s.bit (ELS_STAT.ILK_A k) = false → exec (.elsLaserEn k v) s = .next (s.wr (ELS_CTL.IND k) (bitsOf v.toNat 1 3))) ∧
      (bitOf v.toNat 0 = false → s.bit (ELS_CTL.LASER_EN k) = true → ∃ t, exec (.elsLaserEn k v) s = .next t ∧ t.bit (ELS_CTL.LASER_EN k) = false ∧ st t = 0 ∧ dark t))

/-! ### The Jexlink -/

/-- R360, R364, R384, R389 to R395: flits that fail are asked for again and whole packets are taken; LCTL cells acknowledge, replay, start a port and agree lane
operations; a port that makes no progress replays what is not acknowledged, and after eight replays trains again. -/
def Obligations.FlitsAreAcknowledgedAndReplayed : Prop :=
  ∀ (s : State) (n : Nat) (c : Lctl), n < 72 →
    let x := s.port n
    let up := 2 ≤ s.lstate n
    (∀ cells, s.pstate n = 2 → up → x.bad = false → exec (.flitReceive n false cells) s = .next ((s.setPort n { x with bad := true, nak := true }).reportLctl n)) ∧
    (s.pstate n = 2 → up → x.bad = false → x.open_ = none → exec (.flitReceive n true (List.replicate 4 idleCell)) s = .next (s.reportDue n)) ∧
    (∀ cells h l o, s.pstate n = 2 → up → x.bad = false → markerOf cells = none → cells.length = 4 →
      scanCells x.open_ cells = some ([.packet h l], o, true) → exec (.flitReceive n true cells) s =
        .next (((s.setPort n { x with rxNext := (x.rxNext + 1) % 4096, open_ := o, unreported := x.unreported + 1 }).packet n h l).reportDue n)) ∧
    (up → exec (.lctlAckCredit n c) s = .next (s.gotAck12 n c)) ∧
    (∀ l, up → c.lop = 0 → ackedAfter c.aseq x.unacked = some l → x.queue = [] → ∃ t, exec (.lctlAckCredit n c) s = .next t ∧ (t.port n).unacked = l ∧
      (t.port n).stuck = 0 ∧ t.rd (JX_PORT_STAT.ASEQ (portK n) (portP n)) = c.aseq % 2 ^ 12 ∧ t.mem = s.mem) ∧
    (up → exec (.lctlNak n c) s = .next ((s.gotAck12 n c).replay n)) ∧
    (up → exec (.lctlReplayMarker n c) s = .next ((s.gotAck12 n { c with lop := 0 }).gotMarker n c)) ∧
    (s.lstate n = 1 → ∃ t, exec (.lctlInit n c) s = .next t ∧ t.lstate n = 2) ∧
    (s.pstate n = 2 → s.lstate n = 0 → ∃ t, exec (.jxPortUp n) s = .next t ∧ t.lstate n = 1 ∧ (t.port n).unacked = [] ∧ (t.port n).queue = x.queue ∧
      t.rd (JX_PORT_STAT.ASEQ (portK n) (portP n)) = 0 ∧ t.mem = s.mem) ∧
    (1 ≤ s.lstate n → Tab.get none s.opt.rxOp n = none → Tab.get none s.opt.txOp n = none →
      (∃ t, exec (.lctlSwapReq n c) s = .next t ∧ Tab.get none t.opt.txOp n = some ⟨false, c.llane, c.slane, c.neww, some x.txNext⟩ ∧ t.regs = s.regs) ∧
      (∃ t, exec (.lctlNarrowReq n c) s = .next t ∧ Tab.get none t.opt.txOp n = some ⟨true, c.llane, c.slane, c.neww, some x.txNext⟩ ∧ t.regs = s.regs)) ∧
    (∀ o, Tab.get none s.opt.rxOp n = some o → o.fseq = none →
      (o.narrow = false → o.llane = c.llane → o.slane = c.slane → ∃ t, exec (.lctlSwapConf n c) s = .next t ∧
        Tab.get none t.opt.rxOp n = some { o with fseq := some c.fseq } ∧ t.regs = s.regs ∧ t.out = s.out) ∧
      (o.narrow = true → ∃ t, exec (.lctlNarrowConf n c) s = .next t ∧ Tab.get none t.opt.rxOp n = some { o with fseq := some c.fseq } ∧
        t.regs = s.regs ∧ t.out = s.out) ∧
      (o.narrow = false → o.llane = c.llane →
        exec (.lctlReject n c) s = .next (({ s with opt := { s.opt with rxOp := Tab.set none s.opt.rxOp n none } }).narrow n o.llane (s.width n + 1)))) ∧
    (∀ f r, up → x.unacked = f :: r → x.stuck < 8 → s.rd (JX_PORT_RPL.COUNT (portK n) (portP n)) < 2 ^ 32 - 1 → ∃ t m, exec (.replayTimeout n) s = .next t ∧
      (t.port n).stuck = x.stuck + 1 ∧ (t.port n).unacked = x.unacked ∧
      t.rd (JX_PORT_RPL.COUNT (portK n) (portP n)) = s.rd (JX_PORT_RPL.COUNT (portK n) (portP n)) + 1 ∧
      t.out = (x.unacked.map (fun e => Out.flit n (some e.1) e.2)).reverse ++ .flit n none m :: s.out ∧ t.mem = s.mem) ∧
    (x.unacked = [] → exec (.replayTimeout n) s = .next s) ∧
    (∀ f r, up → x.unacked = f :: r → 8 ≤ x.stuck → ∃ t, exec (.replayTimeout n) s = .next t ∧ t.pstate n = 1) ∧
    (1 ≤ s.lstate n → exec (.lctlSendTimer n) s = .next ((s.reportLctl n).retryHeld n))

/-- R386, R396, R401 to R409: a packet that arrives is opened, counted, and delivered here or forwarded; a link packet acts at its port; the last answer, or its lack,
ends a transfer and its descriptor; a barrier's release ends its descriptor; the timers send what their rules say. -/
def Obligations.PacketsAreDeliveredForwardedAndAnswered : Prop :=
  ∀ (s u : State) (n : Nat) (h : JxHdr) (data l : List Byte) (d : Desc), n < 72 → 2 ≤ s.lstate n →
    let base := fun (ty : Nat) => u.portPerf n true (jxLoad { h with ptype := ty })
    let done := fun (t : State) (st : Nat) => ∃ e, t.descOf d.key = some e ∧ e.st = .finished ∧ e.status = st
    let plain := (s.port n).rxKey = none ∧ h.sealed_ = false
    (∀ x ty b, (x, ty, b) ∈ [(.jxWrite n h data, 1, data), (.jxDeliver n h data, 2, data), (.jxReduce n h data, 3, data), (.jxReadReq n h, 4, []),
        (.jxReadRsp n h data, 5, data), (.jxAck n h, 6, []), (.barArrive n h data, 8, data), (.barRelease n h, 9, [])] →
      s.opened n { h with ptype := ty } b = some (l, u) →
      ((base ty).ownId h.dst = true → exec x s = .next ((base ty).jxDeliver ⟨{ h with ptype := ty }, l.take h.len, n, h.vc⟩)) ∧
      ((base ty).ownId h.dst = false → exec x s =
        .next (((base ty).freeCells n { h with ptype := ty }).jxForward ⟨{ h with ptype := ty }, l.take h.len, n, h.vc⟩))) ∧
    (h.ndata = 0 ∨ h.pcrc = crc32 (l.take h.len) → ∀ x ty, (x, ty) ∈ [(Instr.hello n h data, 0x10), (.routeAdv n h data, 0x11), (.timeReq n h data, 0x12), (.timeRsp n h data, 0x13), (.linkinfo n h data, 0x14)] →
      s.opened n { h with ptype := ty } data = some (l, u) →
      exec x s = .next (jxLink n { h with ptype := ty } (l.take h.len) ((base ty).freeCells n { h with ptype := ty }))) ∧
    (plain → h.ndata = 0 ∨ h.pcrc = crc32 (data.take h.len) → ∃ t, exec (.hello n h data) s = .next t ∧ t.rd (JX_PORT_FAR.PANEL (portK n) (portP n)) = leField (data.take h.len) 0 2 ∧
      t.rd (JX_PORT_FAR.PORT (portK n) (portP n)) = leField (data.take h.len) 3 1 % 128 ∧ t.bit (JX_PORT_FAR.FARVALID (portK n) (portP n)) = true ∧
      t.mem = s.mem ∧ t.out = s.out) ∧
    (s.ownId h.dst = true → plain → s.host.descs = [d] → d.st = .running →
      (s.jx.xfers = [⟨h.xid, d.key, [h.pidx], 0⟩] → h.status = 0 → ∃ t, exec (.jxAck n h) s = .next t ∧ t.jx.xfers = [] ∧ done t 0 ∧ t.mem = s.mem) ∧
      (s.jx.bars = [⟨h.xid, d.key⟩] → ∃ t, exec (.barRelease n h) s = .next t ∧ t.jx.bars = [] ∧ done t h.status ∧ t.mem = s.mem)) ∧
    (∀ xid i, exec (.jxTransferTimeout xid i) s = .next (s.jxCount xid i 7)) ∧
    (∀ xid i, s.host.descs = [d] → d.st = .running → s.jx.xfers = [⟨xid, d.key, [i], 0⟩] → ∃ t, exec (.jxTransferTimeout xid i) s = .next t ∧
      t.jx.xfers = [] ∧ done t 7 ∧ t.regs = s.regs ∧ t.mem = s.mem) ∧
    (let als := (List.range 4).flatMap (fun i => leBytes 2 (if s.bit (JX_ALIAS.EN i) then s.rd (JX_ALIAS.ID i) else 0xFFFF));
      s.lstate n = 2 → exec (.helloTimer n) s = .next (s.sendLink n 0x10 (leBytes 2 (s.rd JX_SELF.ID) ++ leBytes 1 (s.rd JX_SELF.ASSIGNED) ++ leBytes 1 n ++ als))) ∧
    exec (.farvalidTimeout n) s = .next (s.wr (JX_PORT_FAR.FARVALID (portK n) (portP n)) 0) ∧
    (s.discovers = false → exec .routeAdvTimer s = .next s) ∧
    (s.discovers = true →
      let routed := (s.regs.filter (fun e => decide (8 * 0x580000 ≤ e.1) && decide (e.1 < 8 * 0x5C0000))).map (fun e => (e.1 / 8 - 0x580000) / 4)
      let u := forL (routed ++ s.jx.heard.map (fun (e : Nat × Nat) => e.1 % 65536)).dedup (fun id t => t.routeId id) s
      exec .routeAdvTimer s = .next (forL u.upPorts (fun m t => t.sendAdv m (t.advert m)) u)) ∧
    (s.bit JX_TIME_CFG.EN = true → s.bit GLB_STW_STAT.LOST_BOTH = false → ∀ m, m < 72 → s.jxParent.rd JX_TIME_STAT.PARENT = m → exec .jxTimeTimer s =
      .next (({ s.jxParent with jx := { s.jxParent.jx with exch := some (m, s.jxParent.ptime) } }).sendLink m 0x12 (leBytes 8 s.jxParent.ptime))) ∧
    (∃ t, exec .timeLockLoss s = .next t ∧ t.bit JX_TIME_STAT.LOCKED = false ∧ t.jx.exch = none ∧ t.jx.agree = 0 ∧ t.mem = s.mem)

/-- R396, R410, R412 to R414, R604, R619, R620: an agreement starts on request, on a retry, at a rekey; a verified OFFER gives the keys, a right CONFIRM seals the port
and a wrong one fails it; the routing table, the panel's own ID and its aliases are written by firmware and physical functions. -/
def Obligations.SealingAgreesAndRoutesAreWritten : Prop :=
  ∀ (s : State) (n : Nat) (v : W32) (a : SealTry), n < 72 →
    let b := fun (i w : Nat) => bitsOf v.toNat i w
    let agrees := s.sealReq n = true ∧ 2 ≤ s.lstate n ∧ s.keyReady = true ∧ s.bit KEY_CFG.APPROVED_ONLY = false
    ((s.port n).agr = some a → a.gotConf = false →
      (∀ offer key, s.sealReq n = true → 2 ≤ s.lstate n → a.far = none →
        (offer.getD 0 0 = 1 → 132 ≤ offer.length → Config.verify key (offer.take 68) ((offer.drop 68).take 64) = true → ∃ t,
          exec (.sealOffer n offer (some key)) s = .next t ∧
          (t.port n).agr = some { a with far := some offer, keys := some (s.sealKeys n a.priv a.offer offer) } ∧ (t.port n).farKey = some key) ∧
        (Config.verify key (offer.take 68) ((offer.drop 68).take 64) = false → ∃ t, exec (.sealOffer n offer (some key)) s = .next t ∧
          t.sstate n = 3 ∧ (t.port n).agr = none)) ∧
      (∀ tag far ks, a.far = some far → a.keys = some ks →
        (leNat (tag.take 16) = confirmTag ks.2 far a.offer % 2 ^ 128 → ∃ t, exec (.sealConfirm n tag) s = .next t ∧ t.sstate n = 2 ∧
          (t.port n).rxKey = some ks.2) ∧
        (leNat (tag.take 16) ≠ confirmTag ks.2 far a.offer % 2 ^ 128 → ∃ t, exec (.sealConfirm n tag) s = .next t ∧ t.sstate n = 3 ∧
          (t.port n).rxKey = none)) ∧
      (a.far = none → ∃ t, exec (.sealOfferTimeout n) s = .next t ∧ t.sstate n = 3 ∧ (t.port n).agr = none ∧ t.mem = s.mem) ∧
      (a.far ≠ none → exec (.sealOfferTimeout n) s = .next s)) ∧
    (agrees → (s.sstate n = 3 → ∃ t, exec (.sealRetryTimer n) s = .next t ∧ t.sstate n = 1 ∧ (t.port n).agr ≠ none) ∧
      (s.sstate n = 2 → ∃ t, exec (.rekeyTimer n) s = .next t ∧ t.sstate n = 2 ∧ (t.port n).agr ≠ none) ∧
      (s.sstate n = 2 → ∃ t, exec (.sealRekey .fw n) s = .next t ∧ t.sstate n = 2 ∧ (t.port n).agr ≠ none)) ∧
    (∃ t, exec (.sealReqWrite .fw n v) s = .next t ∧ (t.sealReq n = true ↔ b 0 1 = 1) ∧
      (b 0 1 = 0 → t.sstate n = 0 ∧ (t.port n).agr = none ∧ (t.port n).rxKey = none)) ∧
    (∀ f, s.operator (.fn f) = false → exec (.sealReqWrite (.fn f) n v) s = .next s ∧ exec (.sealRekey (.fn f) n) s = .next s) ∧
    (∀ d, d < 65536 → ∃ t, exec (.jxRtWrite .fw d v) s = .next t ∧ t.rd (JX_RT.P0 d) = b 0 7 ∧ t.rd (JX_RT.P1 d) = b 8 7 ∧ t.rd (JX_RT.P2 d) = b 16 7 ∧
      t.rd (JX_RT.P3 d) = b 24 7 ∧ t.rd (JX_RT.DL0 d) = b 7 1 ∧ t.rd (JX_RT.DL1 d) = b 15 1 ∧ t.rd (JX_RT.DL2 d) = b 23 1 ∧ t.rd (JX_RT.DL3 d) = b 31 1 ∧
      t.mem = s.mem ∧ t.out = s.out) ∧
    (s.discovers = false → ∃ t, exec (.jxSelfWrite .fw v) s = .next t ∧ t.bit JX_SELF.SHADOWED = false ∧ t.mem = s.mem ∧ t.out = s.out ∧
      (s.locked = false → t.rd JX_SELF.ID = b 0 16 ∧ t.rd JX_SELF.ASSIGNED = b 16 1) ∧
      (s.locked = true → t.rd JX_SELF.ID = s.rd JX_SELF.ID ∧ t.rd JX_SELF.ASSIGNED = s.rd JX_SELF.ASSIGNED)) ∧
    (∀ i, i < 4 → s.discovers = false → ∃ t, exec (.jxAliasWrite .fw i v) s = .next t ∧ t.rd (JX_ALIAS.ID i) = b 0 16 ∧ t.rd (JX_ALIAS.EN i) = b 16 1 ∧
      t.mem = s.mem ∧ t.out = s.out) ∧
    (∀ f d i, isPf f = false → exec (.jxRtWrite (.fn f) d v) s = .next s ∧ exec (.jxSelfWrite (.fn f) v) s = .next s ∧
      exec (.jxAliasWrite (.fn f) i v) s = .next s)

/-! ### Links in training, guests, clocks -/

/-- R420 to R429, R440: a link trains to its native width, to compat mode, or is down; a weak wire gives way to a spare; firmware forces compat mode or a retrain. -/
def Obligations.LinksTrainRepairAndFallBack : Prop :=
  ∀ (s : State) (d w g wire eye : Nat) (v : W32), d < 144 → w < 9 →
    let n := (linkShape d w).1
    let dataW := (linkShape d w).2.1
    let sp := (linkShape d w).2.2
    let key := grpKey d w g
    let used := Tab.get 0 s.links.used key
    (∀ eyes farEyes : List (List Nat), s.mayTrain d w = true → (∀ p, p < 16 → (s.part p).run = none) →
      let need := fun (x : List (List Nat)) (j : Nat) => sparesFor dataW sp (failingWires (s.rd GLB_LNK_CFG.TRAIN_EYE) (x.getD j []))
      ((∀ j, j < n → need eyes j ≠ none ∧ need farEyes j ≠ none) → ∀ compat, ∃ t, exec (.linkTraining d w true true eyes farEyes true compat) s = .next t ∧ t.linkMode d w = 0 ∧
        (∀ u, g < n → need eyes g = some u → Tab.get 0 t.links.used key = u) ∧ Tab.get 0 (t.node d).resends w = 0 ∧ t.mem = s.mem ∧
        (s.net.ports = [] → t.out = s.out)) ∧
      (w < 4 → ∃ t, exec (.linkTraining d w true true eyes farEyes false true) s = .next t ∧ t.linkMode d w = 1 ∧ t.mem = s.mem) ∧
      (∀ ctl sync good compat, (ctl && sync) = false → ∃ t, exec (.linkTraining d w ctl sync eyes farEyes good compat) s = .next t ∧ t.linkMode d w = 2 ∧ t.mem = s.mem ∧
        (s.net.ports = [] → t.out = s.out))) ∧
    (∀ bad u, sparesFor dataW sp bad = some u → u ≤ sp ∧ (bad.filter (fun x => decide (x < dataW + u))).length ≤ u ∧
      ∀ y, y < u → y < (bad.filter (fun x => decide (x < dataW + y))).length) ∧
    (s.dieAbsent d = false → s.linkMode d w = 0 → g < n → wire < dataW + sp → eye < 64 →
      Tab.get 0 s.links.eyes (512 * key + wire) ≠ eyeRetired → s.linkBusy d w = false →
      (s.rd GLB_LNK_CFG.REPAIR_EYE ≤ eye → ∃ t, exec (.monitorSweep d w g wire eye) s = .next t ∧ Tab.get 0 t.links.eyes (512 * key + wire) = eye + 1 ∧
        t.links.used = s.links.used ∧ t.mem = s.mem ∧ t.out = s.out) ∧
      (eye < s.rd GLB_LNK_CFG.REPAIR_EYE → wire < dataW + used → used < sp → w < 4 →
        (let e := Tab.get 0 s.links.eyes (512 * key + dataW + used); e = 0 ∨ (s.rd GLB_LNK_CFG.REPAIR_EYE < e ∧ e ≠ eyeRetired)) → s.rd (CD_LNK_ERR.REPAIRS d w) < 0x7FFF → ∃ t,
        exec (.monitorSweep d w g wire eye) s = .next t ∧ Tab.get 0 t.links.used key = used + 1 ∧ Tab.get 0 t.links.eyes (512 * key + wire) = eyeRetired ∧
        t.rd (CD_LNK_ERR.REPAIRS d w) = s.rd (CD_LNK_ERR.REPAIRS d w) + 1 ∧ t.linkMode d w = 0)) ∧
    (∀ k c, s.fallingAt d w = some (k, c) →
      (∃ t, exec (.compatTrainingComplete d w true) s = .next t ∧ t.linkMode d w = 1 ∧ t.mem = s.mem) ∧
      (s.anyLayer = false → ∃ t, exec (.compatTrainingComplete d w false) s = .next t ∧ t.linkMode d w = 2)) ∧
    (w < 4 → s.dieAbsent d = false →
      (bitsOf v.toNat 1 1 = 0 → exec (.forceCompatWrite .fw d w v) s = .next (s.wr (CD_LNK_CTL.FORCE_COMPAT d w) 0)) ∧
      (bitsOf v.toNat 1 1 = 1 → exec (.forceCompatWrite .fw d w v) s = .next ((s.wr (CD_LNK_CTL.FORCE_COMPAT d w) 1).fallback d w 3)) ∧
      (wayNode d w ≠ none → ∃ t, exec (.linkRetrainWrite .fw d w) s = .next t ∧ t.bit (CD_LNK_STAT.TRAINING d w) = true ∧
        Tab.get 0 t.links.falling (endKey d w) = 0 ∧ t.mem = s.mem ∧ t.out = s.out)) ∧
    (∀ f, exec (.forceCompatWrite (.fn f) d w v) s = .next s ∧ exec (.linkRetrainWrite (.fn f) d w) s = .next s)

/-- R431 to R443: a packet of an ADMITTED guest goes to its hub within its windows and is refused outside them; an ISOLATED guest's is dropped; admission ends in
ADMITTED or at the step that fails; the mailbox carries sixteen words each way. The admission clause asks for a fitted and powered site, which Config leaves open. -/
def Obligations.GuestsAreAdmittedServedAndDropped : Prop :=
  ∀ (s : State) (g : Nat) (h : BulkHdr) (data answer : List Byte) (q : GuestTry), g < 2 →
    let x := s.guest g
    let st := fun (t : State) => t.gstate g
    let free := s.freeReq g (flits h)
    let hub := fun (a : Nat) => stopAt (hubStop (stackHub (s.serving a)))
    let room := x.reqs.length < leField (s.guestCap g) 6 2
    let side := fun (wr : Bool) (a v : Nat) => if s.bit (GS_STAT.MODE g) = true then Out.frame g (compatFrame wr a v) else Out.sideband g wr a v
    (st s = 2 → exec (.guestWrite g h data) s = .next (s.guestCount g false) ∧ exec (.guestReadReq g h) s = .next (s.guestCount g false)) ∧
    (st s = 3 → h.dkind = 1 → room → x.allows true h.addr data.length = true → h.type = 0 → exec (.guestWrite g h data) s =
      .next ((free.updGuest g (fun y => { y with reqs := y.reqs ++ [h.tag] })).inject (stopAt (guestStop g)) (h.dst (hub h.addr)) data)) ∧
    (st s = 3 → h.dkind = 1 → room → x.allows false h.addr h.plen = true → h.type = 4 → exec (.guestReadReq g h) s =
      .next ((free.updGuest g (fun y => { y with reqs := y.reqs ++ [h.tag] })).inject (stopAt (guestStop g)) (h.dst (hub h.addr)) [])) ∧
    (st s = 3 → h.dkind = 1 → room → x.allows false h.addr h.plen = false → h.type = 4 →
      exec (.guestReadReq g h) s = .next ((free.guestCount g true).guestError g h 2 0)) ∧
    (st s = 3 → h.dkind ≠ 1 ∨ (h.type ≠ 0 ∧ h.type ≠ 4) → exec (.guestWrite g h data) s = .next ((free.guestCount g true).guestError g h 5 2)) ∧
    (∀ req rsp, st s = 3 → let u := s.setGuest g { x with rspFreed := rsp % 65536 }
      exec (.guestCredit g req rsp) s = .next (State.guestPump g x.queue.length u) ∧ (x.queue = [] → State.guestPump g x.queue.length u = u)) ∧
    (st s = 1 → (x.tries < 3 → exec (.sidebandTimeout g) s = .next (s.setGuest g { x with tries := x.tries + 1 })) ∧
      (3 ≤ x.tries → x.step ≤ 4 → ∃ t, exec (.sidebandTimeout g) s = .next t ∧ st t = 4 ∧ t.rd (GS_STAT.CAUSE g) = 4 ∧ t.guest g = Guest.reset ∧ t.mem = s.mem)) ∧
    (q.g = g → st s = 1 → s.sitePowered g = true → s.bit GLB_STW_STAT.LOST_BOTH = false → s.keyReady = true →
      (x.step ≤ 2 → q.sideband = false → ∃ t, exec (.guestAdmission q) s = .next t ∧ st t = 4 ∧ t.rd (GS_STAT.CAUSE g) = 2 ∧ t.mem = s.mem) ∧
      (q.sideband = true → q.mainband = true → capOk q.cap = true → q.manifest.length = leField q.cap 20 4 →
        s.manifestFails (leField q.cap 8 8) q.manifest = none → (s.winsOf g).length ≤ leField q.cap 24 1 → (∀ y ∈ s.winsOf g, s.winOk g y = true) → ∃ t,
        exec (.guestAdmission q) s = .next t ∧ st t = 3 ∧ t.rd (GS_STAT.CAUSE g) = 0 ∧ t.guest g = { Guest.reset with wins := s.winsOf g, step := 6 } ∧
        t.mem = s.mem)) ∧
    (st s = 3 → x.mbox = false → ∃ t, exec (.mboxGo .fw g) s = .next t ∧ (t.guest g).mbox = true ∧ t.regs = s.regs ∧ t.mem = s.mem ∧
      t.out = side true 0x180 1 :: (((List.range 16).map (fun w => side true (0x100 + 4 * w) (s.rd (GS_MBOX.DATA g w)))).reverse ++ s.out)) ∧
    (x.mbox = true → (exec (.mboxPoll g false answer) s = .next (s.emit (side false 0x184 0))) ∧
      (∃ t, exec (.mboxPoll g true answer) s = .next t ∧ (t.guest g).mbox = false ∧ t.bit (GS_STAT.MBOX_DONE g) = true ∧ t.mem = s.mem ∧
        ∀ w, w < 16 → t.rd (GS_MBOX_RSP.DATA g w) = leField answer (4 * w) 4) ∧
      (∃ t, exec (.mboxTimeout g) s = .next t ∧ (t.guest g).mbox = false ∧ t.bit (GS_STAT.MBOX_DONE g) = true ∧ t.bit (GS_STAT.MBOX_TMO g) = true ∧
        t.mem = s.mem ∧ ∀ w, w < 16 → t.rd (GS_MBOX_RSP.DATA g w) = 0)) ∧
    ((st s = 2 ∨ st s = 3) → ∃ t, exec (.guestLinkDrop g) s = .next t ∧ st t = 1 ∧ t.guest g = { Guest.reset with step := 2 } ∧ t.mem = s.mem ∧ t.out = s.out)

/-- R445 to R470: a node that loses its reference takes the other, or holds over; droop, power and replica floors make a cluster's level; anchors are latched; a
node asks its parent for the time; a SLEW or STEP takes force at its start, and a node that missed it falls behind. -/
def Obligations.ClocksFollowReferencesFloorsAndPanelTime : Prop :=
  ∀ (s : State) (d cl c : Nat) (v : W32), d < 144 → cl < 16 → c < 36864 → s.dieAbsent d = false → s.dieAbsent (coreDie c) = false →
    let sel := decide (s.refSel d = 1)
    let lvl := fun (droop p r : Nat) => if s.forcedDie d then 5 else min 5 (max (max droop p) r)
    let dr := Tab.get 0 s.clk.droop (16 * d + cl)
    let pf := s.rd (CD_CLK_CL.PFLOOR d cl)
    let rf := s.rd (CD_CLK_CL.RFLOOR d cl)
    (∀ b, (s.setRef d b false).refOk d sel = true → exec (.refclkLost d b) s = .next (s.setRef d b false)) ∧
    ((s.setRef d sel false).refOk d (!sel) = true → ∃ t, exec (.refclkLost d sel) s = .next t ∧ (t.refSel d = 1 ↔ sel = false) ∧
      t.bit CLK_REF_STAT.SWITCHED = true ∧ t.mem = s.mem ∧ Tab.get none t.clk.req d = none) ∧
    ((s.setRef d sel false).refOk d (!sel) = false → ∃ t, exec (.refclkLost d sel) s = .next t ∧ t.bit (CD_CLK_STAT.HOLDOVER d) = true ∧ t.mem = s.mem) ∧
    (s.bit GLB_STW_STAT.LOST_BOTH = false → s.clk.shun = 0 → ∀ node, ∃ t, exec (.refclkMismatch node) s = .next t ∧ t.refSel d = s.refSel s.stewardNode ∧
      t.clk.shun = 2 - s.refSel s.stewardNode ∧ t.mem = s.mem) ∧
    (∀ boot, s.clk.warmDue = false → s.clk.shun = 0 → exec (.refclkRestored d true boot) s = .next (s.setRef d true true) ∧
      exec (.refclkRestored d false boot) s = .next (s.setRef d false true)) ∧
    (∀ mv, s.rd (CD_CLK_CFG.DROOP1 d) ≤ mv →
      let l := max dr (min 5 (1 + (mv - s.rd (CD_CLK_CFG.DROOP1 d)) / max 1 (s.rd (CD_CLK_CFG.DROOP_STEP d))))
      ∃ t, exec (.droopDetect d cl mv) s = .next t ∧ Tab.get 0 t.clk.droop (16 * d + cl) = l ∧ t.rd (CD_CLK_CL.LEVEL d cl) = lvl l pf rf ∧
        t.mem = s.mem ∧ t.out = s.out) ∧
    (∃ t, exec (.droopRelax d cl) s = .next t ∧ Tab.get 0 t.clk.droop (16 * d + cl) = dr - 1 ∧ t.rd (CD_CLK_CL.LEVEL d cl) = lvl (dr - 1) pf rf ∧
      t.mem = s.mem ∧ t.out = s.out) ∧
    (let p := min 5 (bitsOf v.toNat 4 3)
     let r := min 5 (bitsOf v.toNat 8 3)
     ∃ t, exec (.clusterFloorWrite .fw d cl v) s = .next t ∧ t.rd (CD_CLK_CL.PFLOOR d cl) = p ∧ t.rd (CD_CLK_CL.RFLOOR d cl) = r ∧
      t.rd (CD_CLK_CL.LEVEL d cl) = lvl dr p r ∧ t.mem = s.mem ∧ t.out = s.out) ∧
    (∀ x, x < 64 →
      let warn := s.rd (CD_CLK_CFG.RPL_WARN (coreDie c))
      let fl := CD_CLK_CL.RFLOOR (coreDie c) (clusterOf (coreN c))
      ∃ t, exec (.replicaReading c x) s = .next t ∧ t.rd (CD_CLK_RPL.SLACK (coreDie c) (coreN c)) = x ∧
        t.rd (CD_CLK_RPL.MIN (coreDie c) (coreN c)) = min x (s.rd (CD_CLK_RPL.MIN (coreDie c) (coreN c))) ∧ t.mem = s.mem ∧
        (t.bit (CD_CLK_RPL.WARN (coreDie c) (coreN c)) = true ↔ x < warn) ∧ (warn ≤ x → 2 ≤ x → t.out = s.out ∧ t.rd fl = s.rd fl) ∧
        (x < warn → 2 ≤ x → t.rd fl = min 5 (s.rd fl + 1))) ∧
    (let old := Tab.get [] s.clk.anchors (16 * d + cl)
     ∃ t n gt, exec .anchorLatch s = .next t ∧ t.mem = s.mem ∧ t.out = s.out ∧ t.clk.gated = [] ∧
      Tab.get [] t.clk.anchors (16 * d + cl) = (⟨s.dieTime d, ((old.head?).elim 0 (fun a => a.cycle)) + n, gt⟩ :: old).take 2048 ∧
      ∀ i, i < 16 → t.rd (CD_PERF.COUNT d (coreIn cl i) 0) = (s.rd (CD_PERF.COUNT d (coreIn cl i) 0) + n) % 2 ^ 48) ∧
    (∀ p, s.timed d = true → s.timeParent d = some p → ∃ t, exec (.ptExchangeTimer d) s = .next t ∧
      Tab.get none t.clk.req d = some ⟨Tab.get 0 s.clk.nextId d, s.time16 d % 2 ^ 32⟩ ∧
      t.out = (s.syncSend d p 6 0 (Tab.get 0 s.clk.nextId d * 16) []).out ∧ t.regs = s.regs ∧ t.mem = s.mem) ∧
    (s.dieAdmitted d = true → s.bit (CD_CLK_STAT.PT_LOCK d) = false → exec (.ptLockTimeout d) s = .next (s.dieFault d 0x12)) ∧
    (∀ a, s.clk.adj = some a → s.anyLayer = false →
      (a.step = true → ∃ t, exec .slewStepStart s = .next t ∧ t.clk.adj = none ∧ t.ptime = ((s.ptime + a.amount) % ((2 ^ 64 : Nat) : Int)).toNat ∧
        t.bit CLK_PT_STAT.STEPPED = true ∧ (d ∈ a.got → Tab.get 0 t.clk.ofs d = Tab.get 0 s.clk.ofs d) ∧
        (d ∉ a.got → Tab.get 0 t.clk.ofs d = Tab.get 0 s.clk.ofs d - a.amount * 16)) ∧
      (a.step = false → a.ticks ≠ 0 → ∃ t, exec .slewStepStart s = .next t ∧ t.clk.adj = none ∧ t.clk.slewLeft = a.ticks ∧ t.clk.slewAmt = a.amount ∧
        t.bit CLK_PT_STAT.SLEWING = true ∧ t.ptime = s.ptime ∧ t.out = s.out)) ∧
    (∀ a, s.clk.adj = some a → s.anyLayer = true → a.step = true → exec .slewStepStart s = .next s)

/-! ### Power and cooling -/

/-- R473 to R481, R490, R494, R499, R531, R667 to R669: blades and input voltage come and go, phases are shed, a fuse opens and is tried again, and a cartridge is
swapped, seated, pulled, faulted, or switched by its controller's register. IND shows a trip, a failed check and SWAP_READY (R666), and a trip drives ALERT_N
low (R672); that the steward writes IND with STATE is log entry 85. -/
def Obligations.CartridgesBladesAndInputChangeState : Prop :=
  ∀ (s : State) (n b : Nat) (v : W32) (record : List Byte), n < 20 → b < 4 →
    let ct := fun (t : State) => t.ct n
    let asks := fun (t : State) => ∃ a ∈ t.power.antes, a.region = n
    let free := (∀ a ∈ s.power.antes, a.region ≠ n) ∧ 4 ≤ s.rgnState n ∧ Tab.get 0 s.power.ramp n = 0
    (s.bit (PWR_BLADE.OK b) = true → ∃ t, exec (.bladeLost b) s = .next t ∧ t.bit (PWR_BLADE.OK b) = false) ∧
    (s.bit (PWR_BLADE.OK b) = false → ∃ t, exec (.bladeRestored b) s = .next t ∧ t.bit (PWR_BLADE.OK b) = true) ∧
    (∀ d ph, d < 144 → ph < 16 → s.dieAbsent d = false →
      let i := d / 12 % 3 * 3 + d % 12 % 3
      bitOf (s.rd (RGN_DIE_PWR.SHED (regionOf d) i)) ph = false → ∃ t, exec (.phaseImbalance d ph) s = .next t ∧ t.mem = s.mem ∧
        bitOf (t.rd (RGN_DIE_PWR.SHED (regionOf d) i)) ph = true ∧ t.rd (RGN_DIE_PWR.LIMIT (regionOf d) i) = s.rd (RGN_DIE_PWR.LIMIT (regionOf d) i) - 5) ∧
    (∀ ph, ph < ctPhases n → ct s ≠ 0 → Tab.get 0 s.power.ctPhase n < ctPhases n → ∃ t, exec (.ctPhaseFail n ph) s = .next t ∧
      t.bit (PWR_CT_STAT.SPARE_USED n) = true ∧ Tab.get 0 t.power.ctPhase n = Tab.get 0 s.power.ctPhase n + 1 ∧ ct t = ct s ∧ t.mem = s.mem) ∧
    (∀ cause, (ct s = 2 ∨ ct s = 3) → ∃ t, exec (.fuseTrip n cause) s = .next t ∧ ct t = 4 ∧ t.bit (CT_CTL.OUT_EN n) = false ∧ t.rd (CT_CTL.IND n) = 3 ∧
      (t.pwrGood = true → t.alertN = false) ∧
      (Tab.get 0 s.power.retryAt n ≠ 0 → s.ptime < Tab.get 0 s.power.retryAt n - 1 + 10000000000 → t.bit (PWR_CT_STAT.RETRY_LOCK n) = true)) ∧
    (ct s = 4 → s.bit (PWR_CT_STAT.RETRY_LOCK n) = false → (n < 16 → s.bit (THM_RGN.TRIPPED n) = false) → ∃ t, exec (.fuseRetry .fw n) s = .next t ∧
      Tab.get 0 t.power.retryAt n = s.ptime + 1 ∧ (n < 16 → free → ct t = 1 ∧ asks t) ∧ (16 ≤ n → (s.unfed n = false → ct t = 3) ∧ (s.unfed n = true → ct t = 1))) ∧
    (s.bit GLB_STW_STAT.LOST_BOTH = false → exec (.ctSwapReq .fw n) s = .next (s.swapReq n) ∧
      (Tab.get 0 s.power.swap n = 1 → n < 16 → ∃ t, exec (.ctSwapProceed n) s = .next t ∧ ct t = 5 ∧ t.rd (CT_CTL.IND n) = 2 ∧ Tab.get 0 t.power.swap n = 2)) ∧
    (Tab.get 0 s.power.swap n = 1 → ∃ t, exec (.ctSwapCancel .fw n) s = .next t ∧ Tab.get 0 t.power.swap n = 0 ∧ ct t = ct s ∧ t.mem = s.mem) ∧
    (∀ f, isPf f = false → exec (.ctSwapReq (.fn f) n) s = .next s ∧ exec (.ctSwapCancel (.fn f) n) s = .next s ∧ exec (.fuseRetry (.fn f) n) s = .next s) ∧
    (ct s = 0 →
      (ctRecordOk record = false → ∃ t, exec (.ctSeated n record) s = .next t ∧ ct t = 1 ∧ t.rd (CT_CTL.IND n) = 3 ∧ t.rd (PWR_CT_ID.SERIAL n) = s.rd (PWR_CT_ID.SERIAL n) ∧ t.mem = s.mem) ∧
      (ctRecordOk record = true → s.boot.on = true → n < 16 → s.unfed n = false → free → ∃ t, exec (.ctSeated n record) s = .next t ∧ ct t = 1 ∧ asks t ∧
        t.rd (PWR_CT_ID.SERIAL n) = leField record 8 6 ∧ t.mem = s.mem)) ∧
    (ct s ≠ 0 → ∃ t, exec (.ctPulled n) s = .next t ∧ ct t = 0) ∧
    (ct s ≠ 0 → ct s ≠ 6 → ∃ t, exec (.cartridgeFault n) s = .next t ∧ ct t = 6) ∧
    (bitOf v.toNat 1 = false → (bitOf v.toNat 0 = true → ct s = 1 → 16 ≤ n → s.unfed n = false → ∃ t, exec (.ctOutEn n v) s = .next t ∧ ct t = 3) ∧
      (bitOf v.toNat 0 = false → ct s = 3 → ∃ t, exec (.ctOutEn n v) s = .next t ∧ ct t = 1 ∧ t.bit (CT_CTL.OUT_EN n) = false)) ∧
    (∀ volt, (volt < 4400 ∨ 5800 < volt) → exec (.inputVOutOfRange volt) s =
      .next ((s.wr PWR_IN.VOLT volt).postPanel 0x0107 31 2 (leBytes 1 (if 5800 < volt then 1 else 0) ++ leBytes 1 0 ++ leBytes 2 volt))) ∧
    (∀ volt, volt < 4200 → s.bit GLB_STW_STAT.LOST_BOTH = false → exec (.inputVLowClamp volt) s = .next ((s.wr PWR_IN.VOLT volt).addHold 0)) ∧
    (∀ volt, (volt < 4000 ∨ 6000 < volt) → s.boot.on = true → ∃ t, exec (.inputVCutoff volt) s = .next t ∧ t.boot.on = false ∧
      (ct t = 1 ↔ ct s ≠ 0)) ∧
    (∀ volt, 4400 ≤ volt → volt ≤ 5800 → ∃ t, exec (.inputVRestored volt) s = .next t ∧ 0 ∉ t.power.holds ∧ t.rd PWR_IN.VOLT = volt ∧ t.mem = s.mem)

/-- R482 to R493, R499, R582: each exchange measures the input, makes the effective budget and sends the grants; a region's loop raises its hungriest cluster; a hard
limit forces clusters to level 5 while it lasts; antes are asked for, granted, or refused in time; a region ramps, idles and wakes. -/
def Obligations.BudgetsAntesAndIdleStatesFollowTheirRules : Prop :=
  ∀ (s : State) (r n : Nat) (m : PwrMeas), r < 16 → n < 20 →
    let b := s.rd (RGN_PWR_BUD.BUDGET r)
    let steps := Tab.get [] s.power.loop r
    let lost := s.bit GLB_STW_STAT.LOST_BOTH
    (lost = true → exec (.budgetExchange m) s = .next ((s.measure m).countEnergy m)) ∧
    (lost = false → ∃ t, exec (.budgetExchange m) s = .next t ∧ t.rd (PWR_CT_ENERGY.COUNT n) = (s.rd (PWR_CT_ENERGY.COUNT n) + m.ins.getD n 0) % 2 ^ 48 ∧
      t.rd PWR_IN.POWER = m.power % 2 ^ 16 ∧ t.power.excess = (s.measure m).excessNow m.power ∧
      t.rd PWR_BUDGET.EFF_W = min (min (min (s.rd PWR_BUDGET.HOST_W) 16000) (s.measure m).flowLimit) (s.measure m).bladeCap % 2 ^ 16 ∧ t.mem = s.mem) ∧
    exec (.grantTimeout r) s = .next s ∧
    (∀ input d cl rest, s.rgnState r < 2 → b < input → d < 144 → regionOf d = r → cl < 16 → s.dieHole d = false → s.rd (CD_CLK_CL.PFLOOR d cl) < 5 → ∃ t,
      exec (.regionPowerLoop r input ((d, cl) :: rest)) s = .next t ∧ Tab.get [] t.power.loop r = .raise d cl :: steps ∧ t.mem = s.mem ∧ t.out = s.out) ∧
    (∀ input order, s.rgnState r < 2 → 100 * input < 95 * b → .halve ∉ steps → 9 ≤ Tab.get 0 s.power.calm r → ∃ t,
      exec (.regionPowerLoop r input order) s = .next t ∧ Tab.get [] t.power.loop r = steps.drop 1 ∧ t.mem = s.mem ∧ t.out = s.out) ∧
    (∃ t, exec (.hardLimitTrip true r) s = .next t ∧ r ∈ t.power.forced ∧ (∀ i cl, i < 9 → cl < 16 → t.rd (CD_CLK_CL.LEVEL (regionDie r i) cl) = 5) ∧
      t.mem = s.mem ∧ t.out = s.out) ∧
    (∃ t, exec (.hardLimitForceEnd true r) s = .next t ∧ r ∉ t.power.forced ∧ t.mem = s.mem ∧ t.out = s.out) ∧
    (lost = false → (∃ t, exec .excursionLimit s = .next t ∧ t.power.tight = true ∧ t.mem = s.mem) ∧
      (∃ t, exec .excursionRecovered s = .next t ∧ t.power.tight = false ∧ t.mem = s.mem)) ∧
    (∀ why, why < 5 → s.anteOk r = true → exec (.anteRequest r why) s = .next (s.wantAnte r why)) ∧
    (lost = false →
      (let u := s.measure m
       exec (.anteEvaluation m) s = .next (forL u.power.antes (fun a t => match t.anteCause m a.region with
          | none => t.grantAnte a
          | some c => { t with power := { t.power with antes := updFirst (fun x => decide (x.region = a.region)) (fun x => { x with cause := c + 1 }) t.power.antes } }) u)) ∧
      (s.clamped = false → (∀ p, p < 16 → (s.part p).run = none) → r ∈ s.power.antes.map (·.region) → ∃ t, exec (.anteTimeout r) s = .next t ∧
        t.power.antes = s.power.antes.filter (fun x => decide (x.region ≠ r)) ∧ bitOf (t.rd PWR_ANTE_STAT.PEND) r = false ∧ t.mem = s.mem)) ∧
    (∀ a, s.power.antes = [a] → a.region = r → lost = false →
      ((s.measure m).anteCause m r = none → ∃ t, exec (.anteEvaluation m) s = .next t ∧ t.power.antes = [] ∧ Tab.get 0 t.power.ramp r = a.why + 1 ∧
        Tab.get 0 t.power.resv r = s.worstCase r ∧ t.ct r = 2 ∧ t.mem = s.mem) ∧
      (∀ c, (s.measure m).anteCause m r = some c → ∃ t, exec (.anteEvaluation m) s = .next t ∧ t.power.antes = [{ a with cause := c + 1 }] ∧ t.ct r = s.ct r ∧
        t.mem = s.mem) ∧
      (s.clamped = true → exec (.anteTimeout r) s = .next s) ∧
      (s.clamped = false → (∀ p, p < 16 → (s.part p).run = none) → ∃ t, exec (.anteTimeout r) s = .next t ∧ t.power.antes = [] ∧
        bitOf (t.rd PWR_ANTE_STAT.PEND) r = false ∧ t.mem = s.mem ∧ ∀ p, p < 16 → bitOf (s.rd (HID_PART.REGIONS p)) r = true →
          (∀ d ∈ s.host.descs, d.st = .running → d.op ≠ 0x40) → (t.part p).refused = true)) ∧
    (Tab.get 0 s.power.ramp r ≠ 0 → ∃ t, exec (.rampComplete r) s = .next t ∧ t.ct r = 3 ∧ Tab.get 0 t.power.ramp r = 0 ∧ t.rgnState r < 2 ∧
      t.rd (RGN_PWR_BUD.BUDGET r) = Tab.get 0 s.power.resv r % 2 ^ 16 ∧ t.mem = s.mem) ∧
    (Tab.get 0 s.power.ramp r = 0 → exec (.antePeriodEnd r) s = .next { s with power := { s.power with resv := Tab.set 0 s.power.resv r 0 } }) ∧
    (∀ target tabs, s.rgnState r < target → target ≤ s.deepest r → s.rgnIdle r = true → r ∉ s.power.waking →
      ((target = 2 ∨ target = 3) → exec (.idleStateEntry r target tabs) s = .next (s.enterState r target) ∧ (s.enterState r target).rgnState r = target) ∧
      (target = 4 → lost = false → s.layerGoing = false → s.net.chg = none →
        (s.routesAround r = true → exec (.idleStateEntry r 4 tabs) s = .next ((s.enterState r 4).skipChunk) ∧ (s.enterState r 4).rgnState r = 4) ∧
        (s.routesAround r = false → exec (.idleStateEntry r 4 tabs) s = .next (s.changeTables (fun d => decide (regionOf d = r)) tabs)))) ∧
    ((s.rgnState r = 2 ∨ s.rgnState r = 3) → ∃ t, exec (.regionWake r) s = .next t ∧ t.rgnState r < 2 ∧ r ∉ t.power.waking ∧ t.mem = s.mem ∧ t.out = s.out)

/-- R500 to R524, R531: coolant readings are checked and limit the input; a junction's sensors are compared and hold the region above HOLD; the rank raises and lowers
floors; a trip, a flow guard or a unit's limit turns things off, and a return asks for an ante; managed and abrupt stops begin, clamp and end. While a region
is tripped the panel's outputs THERM_TRIP_N and ALERT_N are low (R671, R672). -/
def Obligations.CoolingReadsRanksTripsAndStops : Prop :=
  ∀ (s : State) (r d cl u : Nat) (v : W32), r < 16 → d < 144 → cl < 16 → u < 100 →
    let lost := s.bit GLB_STW_STAT.LOST_BOTH
    let fs := s.rd THM_STAT.FLOW_STATE
    let free := fun (s : State) => (∀ a ∈ s.power.antes, a.region ≠ r) ∧ 4 ≤ s.rgnState r ∧ Tab.get 0 s.power.ramp r = 0
    let asks := fun (t : State) => ∃ a ∈ t.power.antes, a.region = r ∧ a.why = 4
    (∀ inlet outlet flow, lost = false → s.boot.tray = false → 0 ≤ inlet → inlet ≤ 8000 → 0 ≤ outlet → outlet ≤ 10000 → 240 ≤ flow → flow ≤ 6000 → ∃ t,
      exec (.coolantPoll inlet outlet flow false false) s = .next t ∧ t.rd THM_COOLANT.INLET = unsgn 16 inlet ∧ t.rd THM_COOLANT.OUTLET = unsgn 16 outlet ∧
      t.rd THM_COOLANT.FLOW = flow ∧ t.bit THM_COOLANT.VFLOW = true ∧ t.bit THM_STAT.NOFLOWDATA = false ∧ t.mem = s.mem) ∧
    (∀ inlet outlet flow, lost = false → s.boot.tray = false → ∃ t, exec (.coolantPoll inlet outlet flow true false) s = .next t ∧
      t.rd THM_COOLANT.FLOW = s.rd THM_COOLANT.FLOW ∧ t.bit THM_COOLANT.VFLOW = false ∧ t.mem = s.mem ∧ t.out = s.out) ∧
    (s.bit THM_COOLANT.VFLOW = false → lost = false → ∃ t, exec .coolantDataTimeout s = .next t ∧ t.bit THM_STAT.NOFLOWDATA = true ∧ t.mem = s.mem) ∧
    (exec .flowFaultAssert s = .next ((({ s with therm := { s.therm with faultN := true } }).wr THM_COOLANT.FAULT_N_LOW 1).abrupt)) ∧
    (exec .flowFaultDeasserted s = .next (({ s with therm := { s.therm with faultN := false } }).wr THM_COOLANT.FAULT_N_LOW 0)) ∧
    (∀ diode ring : Int, s.dieAbsent d = false → s.inletT ≤ diode → diode ≤ 15000 → s.inletT ≤ ring → ring ≤ 15000 → ∃ t,
      exec (.junctionSample d cl diode ring) s = .next t ∧ t.rd (CD_THM_CL.DIODE d cl) = unsgn 16 diode ∧ t.rd (CD_THM_CL.RING d cl) = unsgn 16 ring ∧
      t.rd (CD_THM_CL.GOV d cl) = unsgn 16 (max diode ring) ∧ t.bit (CD_THM_CL.DIODE_OK d cl) = true ∧ t.bit (CD_THM_CL.RING_OK d cl) = true ∧
      Tab.get 0 t.therm.hot (16 * d + cl) = (if 11500 ≤ diode then Tab.get 0 s.therm.hot (16 * d + cl) + 1 else 0) ∧ t.mem = s.mem) ∧
    (s.dieAbsent d = false → s.bit (CD_THM_CL.HELD d cl) = true → s.bit (CD_THM_CL.DIODE_OK d cl) = true → ∃ t, exec (.clusterHoldRelease d cl) s = .next t ∧
      t.bit (CD_THM_CL.HELD d cl) = false ∧ t.mem = s.mem ∧ t.out = s.out) ∧
    (lost = true → exec .thermalRank s = .next s) ∧
    (lost = false → (∀ j, j < 16 → sgn 16 (s.rd (THM_RGN.TJ j)) < ((s.rd THM_CFG.THR * 100 : Nat) : Int)) → s.rgnState r < 4 →
      sgn 16 (s.rd (THM_RGN.TJ r)) < ((s.rd THM_CFG.THR * 100 : Nat) : Int) - 300 → ∃ t, exec .thermalRank s = .next t ∧
      (Tab.get 0 s.therm.cool r = 9 → 0 < s.rd (THM_RGN.FLOOR r) → t.rd (THM_RGN.FLOOR r) = s.rd (THM_RGN.FLOOR r) - 1) ∧
      (Tab.get 0 s.therm.cool r < 9 → t.rd (THM_RGN.FLOOR r) = s.rd (THM_RGN.FLOOR r) ∧ Tab.get 0 t.therm.cool r = Tab.get 0 s.therm.cool r + 1)) ∧
    (s.bit (THM_RGN.HELD r) = true → sgn 16 (s.rd (THM_RGN.TJ r)) < ((s.rd THM_CFG.HOLD * 100 : Nat) : Int) - 500 →
      exec (.holdRelease r) s = .next (s.holdRegion r false)) ∧
    (regionOf d = r → s.rgnState r < 4 → 2 ≤ Tab.get 0 s.therm.hot (16 * d + cl) → ∃ t, exec (.thermalTrip r d) s = .next t ∧
      t.bit (THM_RGN.TRIPPED r) = true ∧ t.rgnState r = 5 ∧ t.ct r = 4 ∧ t.rd (THM_RGN.TJ r) = 0 ∧ bitOf (t.rd GLB_HOLE_RGN.HOLE) r = true ∧
      (t.pwrGood = true → t.thermTripN = false ∧ t.alertN = false)) ∧
    (s.flowBack = true → s.bit THM_COOLANT.VIN = true → sgn 16 (s.rd THM_COOLANT.INLET) ≤ 4000 → s.clamped = false → lost = false →
      (r ∈ s.therm.guarded → free s → ∃ t, exec (.tripReturn r) s = .next t ∧ asks t ∧ r ∉ t.therm.guarded ∧ t.mem = s.mem) ∧
      (r ∉ s.therm.guarded → s.bit (THM_RGN.TRIPPED r) = true → s.bit (THM_RGN.TRIP_LOCK r) = false →
        (Tab.get 0 s.therm.autoAt r = 0 → free s → ∃ t, exec (.tripReturn r) s = .next t ∧ asks t ∧ Tab.get 0 t.therm.autoAt r = s.ptime + 1 ∧ t.mem = s.mem) ∧
        (Tab.get 0 s.therm.autoAt r ≠ 0 → s.ptime < Tab.get 0 s.therm.autoAt r - 1 + 3600000000000 → ∃ t, exec (.tripReturn r) s = .next t ∧
          t.bit (THM_RGN.TRIP_LOCK r) = true ∧ t.power.antes = s.power.antes ∧ t.mem = s.mem))) ∧
    (bitOf v.toNat r = true → s.bit (THM_RGN.TRIP_LOCK r) = true → free s → ∃ t, exec (.tripClrWrite .fw v) s = .next t ∧ asks t ∧
      t.bit (THM_RGN.TRIP_LOCK r) = false ∧ t.mem = s.mem) ∧
    (∀ f, isPf f = false → exec (.tripClrWrite (.fn f) v) s = .next s) ∧
    (∀ temp, (temp < (perimLimits u).1 → exec (.perimThermalLimit u temp) s = .next s) ∧
      ((perimLimits u).1 ≤ temp → temp < (perimLimits u).2 → ∃ t, exec (.perimThermalLimit u temp) s = .next t ∧ t.rd (THM_UNIT.LEVEL u) = 1 ∧ t.mem = s.mem) ∧
      (s.rd (THM_UNIT.LEVEL u) = 1 → temp < (perimLimits u).1 - 500 → ∃ t, exec (.perimThermalClear u temp) s = .next t ∧ t.rd (THM_UNIT.LEVEL u) = 0 ∧
        Tab.get 0 t.therm.pace u = 0 ∧ t.mem = s.mem ∧ t.out = s.out)) ∧
    (s.bit THM_COOLANT.VFLOW = true → s.rd THM_COOLANT.FLOW < 1200 → fs < 2 → lost = false → exec .managedStop s = .next ((s.wr THM_STAT.FLOW_STATE 2).flowLow 2)) ∧
    (fs = 2 → lost = false → exec .managedStopLayerLimit s = .next s.endLayers ∧ (
      (s.anyLayer = false → exec .managedStopClamp s = .next (s.addHold 1)) ∧
      (s.flowBack = true → exec .managedStopEnd s = .next (((s.wr THM_STAT.FLOW_STATE 0).flowNormal).dropHolds (fun x => decide (x = 1)))))) ∧
    (fs = 3 → lost = false → exec .abruptLayerEnd s = .next s.endLayers ∧
      (2 ∈ s.power.holds → exec .abruptClampLevel2 s =
        .next ((s.setHolds (s.power.holds.filter (fun x => decide (x ≠ 2)) ++ [4])).flowFault (if s.therm.faultN then 0 else 1))) ∧
      (s.therm.faultN = false → s.flowBack = true → exec .abruptStopEnd s =
        .next ((((s.wr THM_STAT.FLOW_STATE 0).flowNormal).dropHolds (fun x => decide (x = 2) || decide (x = 4))).flowFault 2))) ∧
    (s.therm.faultN = true → s.rgnState r < 2 → s.bit (RGN_PWR_STAT.CLAMPED r) = false → ∃ t, exec (.flowGuard r) s = .next t ∧ t.rgnState r = 5 ∧ t.ct r = 1 ∧
      r ∈ t.therm.guarded)

/-! ### Resets, folds and failovers -/

/-- R494, R525 to R532, R536, R544, R546, R671, R679, R682: power-on and the release of the tray's reset start the panel cold, a warm reset restarts it, a block reset waits
for idle or for its time; the watchdogs; the configuration is saved. -/
def Obligations.ResetsStartAndRestartThePanel : Prop :=
  ∀ (s : State) (b : BootTry) (v : W32) (scope cause sd r d us : Nat), sd < 2 → r < 16 → d < 144 →
    let lost := s.bit GLB_STW_STAT.LOST_BOTH
    (s.boot.on = true → exec (.powerOn b) s = .next s) ∧
    (s.boot.on = false → s.boot.trayLow = false → exec (.powerOn b) s = .next ((s.coldStart 0x01 b).updBoot (fun x => { x with on := true }))) ∧
    (s.boot.on = false → s.boot.trayLow = true → exec (.powerOn b) s = .next (s.coldClear.updBoot (fun x => { x with on := true }))) ∧
    (∃ t, exec .trayReset s = .next t ∧ t.boot.trayLow = true ∧ t.mem = [] ∧ t.pending = s.pending ∧ ∀ n, n < 20 → (t.ct n = 1 ↔ s.ct n ≠ 0)) ∧
    (s.boot.trayLow = true → s.boot.on = true → exec (.trayResetRelease b) s = .next ((s.updBoot (fun x => { x with trayLow := false })).coldStart 0x02 b)) ∧
    (s.boot.trayLow = true → s.boot.on = false → exec (.trayResetRelease b) s = .next (s.updBoot (fun x => { x with trayLow := false }))) ∧
    (v.toNat % 65536 = 0x5752 → s.rd RST_BOOT_STAT.STATE ≠ 0 → exec (.warmReset .fw v b) s = .next (s.warmStart 0x03 b)) ∧
    (v.toNat % 65536 ≠ 0x5752 → exec (.warmReset .fw v b) s = .next s) ∧
    exec (.watchdogKick .fw sd) s = .next { s with boot := { s.boot with kick := Tab.set 0 s.boot.kick sd s.ptime } } ∧
    (∀ f, exec (.watchdogKick (.fn f) sd) s = .next s) ∧
    (lost = false → (sd = s.sd → s.bit GLB_STW_STAT.STANDBY_OK = true → exec (.watchdogExpiry sd us) s = .next (s.takeover 1 us)) ∧
      (sd ≠ s.sd → s.key.sbyState ≠ 2 → ∃ t, exec (.watchdogExpiry sd us) s = .next t ∧ t.bit GLB_STW_STAT.STANDBY_OK = false ∧ t.rcv.booting = true ∧
        t.rd (RST_LAST_CAUSE.CAUSE (1 + sd)) = 6 ∧ t.mem = s.mem)) ∧
    (0 < scope → scope < 215 → cause < 256 → (∀ e ∈ s.boot.idle, within scope e.1 = false) → exec (.blockReset scope cause) s =
      .next { s with boot := { s.boot with idle := s.boot.idle.filter (fun e => !within e.1 scope) ++ [(scope, cause)] } }) ∧
    (s.boot.idle.find? (fun e => decide (e.1 = scope)) = some (scope, cause) → exec (.blockIdle scope) s = .next (s.blockAct scope cause false) ∧
      exec (.blockIdleTimeout scope) s = .next (s.blockAct scope cause true)) ∧
    (s.rgnState r < 4 → exec (.regionReset r) s = .next (s.blockAct (5 + r) 0x08 false)) ∧
    (s.dieAbsent d = false → exec (.dieReset d) s = .next (s.blockAct (21 + d) 0x09 false)) ∧
    (s.bit HID_SEG_APPLY.BUSY = true → lost = false → exec (.configSave .fw) s = .next { s with boot := { s.boot with saveDue := true } }) ∧
    (s.bit HID_SEG_APPLY.BUSY = false → s.boot.saveDue = false → s.logOk = true → lost = false → exec (.configSave .fw) s = .next ((s.logWrite 0x0B 0xFFFE s.ownerCfgBytes).wr RST_CTL.SAVED 1))

/-- R547 to R558, R573: a core is fenced and recorded at once or between layers; a die that stays loud is reported; a die or a region becomes a hole, its retry
or return makes it whole again; a kitty core is tested. -/
def Obligations.FoldsAndLossesLeaveHoles : Prop :=
  ∀ (s : State) (c d r : Nat) (tabs : List (Nat × List Byte)) (lost : List (Nat × Nat)), c < 36864 → d < 144 → r < 16 →
    let up := s.bit GLB_STW_STAT.LOST_BOTH = false
    let hole := fun (t : State) => bitOf (t.rd (GLB_HOLE_DIE.HOLE (d / 32))) (d % 32)
    let folded := fun (t : State) => bitOf (t.rd (GLB_FOLD_MAP.FOLDED (c / 32))) (c % 32)
    (∀ code, code < 256 → (s.core c).fenced = false → s.dieAbsent (coreDie c) = false → up → ∃ t, exec (.coreFold c code) s = .next t ∧ folded t = true ∧
      (s.placedIn c = none → (t.core c).fenced = true ∧ Tab.get 0 t.rcv.code c = code + 1 ∧ t.mem = s.mem)) ∧
    (up → s.placedIn c = none → ((s.core c).fenced = true ∨ s.ceDue c = false) → exec (.boundaryFold c) s = .next s) ∧
    (up → s.placedIn c = none → (s.core c).fenced = false → s.dieAbsent (coreDie c) = false → s.ceDue c = true → ∃ t, exec (.boundaryFold c) s = .next t ∧
      folded t = true ∧ (t.core c).fenced = true ∧ Tab.get 0 t.rcv.code c = 8 ∧ t.mem = s.mem) ∧
    (∀ p l, p < 16 → (s.part p).run = some l → l.step = 20 → d ∉ l.quiet → d ∈ s.placedDies p → s.dieAbsent d = false →
      exec (.quietTimeout p d) s = .next (s.sendFault s.stewardNode 258 0x14 d 1 0)) ∧
    (∀ code, code < 256 → s.dieAbsent d = false → up → ∃ t, exec (.dieFold d code tabs lost) s = .next t ∧ hole t = true ∧
      (code = 0x12 → s.bit GLB_FOLD_CFG.DIE_RETRY = true → Tab.get 0 s.rcv.lastRetry d = 0 → Tab.get 0 t.rcv.retry d = s.ptime + 1)) ∧
    (Tab.get 0 s.rcv.retry d ≠ 0 → up → ∃ t, exec (.dieRetry d true tabs) s = .next t ∧ Tab.get 0 t.rcv.retry d = 0 ∧
      (s.ptime ≤ Tab.get 0 s.rcv.retry d - 1 + 60000000000 → hole t = false)) ∧
    (Tab.get 0 s.rcv.retry d ≠ 0 → up → ∃ t, exec (.dieRetry d false tabs) s = .next t ∧ Tab.get 0 t.rcv.retry d = 0 ∧ hole t = hole s ∧
      ∀ w, w < 8 → t.rd (GLB_FOLD_MAP.FOLDED (8 * d + w)) = 2 ^ 32 - 1) ∧
    (∀ cause, Tab.get 0 s.rcv.lossDue r = cause + 1 → up → s.anyLayer = false → ∃ t, exec (.regionLoss r tabs lost) s = .next t ∧ Tab.get 0 t.rcv.lossDue r = 0 ∧
      t.rd (RGN_PWR_BUD.BUDGET r) = 0 ∧ bitOf (t.rd PWR_ANTE_STAT.PEND) r = false) ∧
    (bitOf (s.rd GLB_HOLE_RGN.HOLE) r = true → s.admitted r = true → Tab.get 0 s.power.ramp r = 0 → up → ∃ t, exec (.regionReturn r tabs) s = .next t ∧
      bitOf (t.rd GLB_HOLE_RGN.HOLE) r = false ∧ (s.bit (THM_RGN.TRIPPED r) = true → t.bit (THM_RGN.TRIPPED r) = false) ∧
      (Tab.get 0 s.power.swap r = 3 → Tab.get 0 t.power.swap r = 0)) ∧
    ((s.core c).fenced = false → s.dieAbsent (coreDie c) = false → s.placedIn c = none →
      (∃ t, exec (.kittySelftest c true) s = .next t ∧ Tab.get 0 t.rcv.tested c = s.ptime + 1 ∧ t.out = s.out ∧
        ∀ a, a < winBase c ∨ winBase c + 0x30000 ≤ a → (∀ x ∈ s.opens, ¬(x.lo ≤ a ∧ a < x.hi)) → t.byte a = s.byte a) ∧
      (∃ t, exec (.kittySelftest c false) s = .next t ∧ Tab.get 0 t.rcv.tested c = s.ptime + 1))

/-- R352, R562 to R568, R600, R609, R682: the stewards' heartbeats are counted on both paths, five missed on both make a takeover or a reset of the standby; a planned handover
waits for its layers; a host interface die that has lost the stewards ends its descriptors; a manager that is silent is replaced. -/
def Obligations.StewardsAndManagersAreWatched : Prop :=
  ∀ (s : State) (r us hid : Nat) (u : Update), r < 16 → hid < 2 →
    let lost := s.bit GLB_STW_STAT.LOST_BOTH
    let stw := fun (i : Nat) => Tab.get 0 s.mgmt.stwMissed i
    let sby := fun (i : Nat) => Tab.get 0 s.mgmt.sbyMissed i
    (∀ wire, lost = false → s.bit GLB_STW_STAT.STANDBY_OK = true → ∃ t, exec (.stewardHeartbeatTimer wire) s = .next t ∧
      Tab.get 0 t.mgmt.stwMissed 0 = stw 0 + 1 ∧ Tab.get 0 t.mgmt.stwMissed 1 = (if wire then 0 else stw 1 + 1) ∧
      Tab.get 0 t.mgmt.sbyMissed 0 = sby 0 + 1 ∧ Tab.get 0 t.mgmt.sbyMissed 1 = (if wire then 0 else sby 1 + 1) ∧
      Tab.get 0 t.mgmt.beats 16 = (Tab.get 0 s.mgmt.beats 16 + 1) % 2 ^ 32 ∧ t.mem = s.mem) ∧
    (lost = false → 5 ≤ stw 0 → 5 ≤ stw 1 → exec (.stewardTakeover us) s = .next (s.takeover 0 us)) ∧
    (lost = false → (stw 0 < 5 ∨ stw 1 < 5) → s.rcv.update = none → exec (.stewardTakeover us) s = .next s) ∧
    (lost = false → (stw 0 < 5 ∨ stw 1 < 5) → s.rcv.update = some u → u.image = 0 → u.step = 2 → s.anyLayer = false →
      exec (.stewardTakeover us) s = .next (s.handover u.key us) ∧ exec .handoverWaitExpiry s = .next (s.handover u.key 0)) ∧
    (lost = false → s.rcv.update = none → exec .handoverWaitExpiry s = .next s ∧
      ((sby 0 < 5 ∨ sby 1 < 5) → exec .standbyFailure s = .next s) ∧
      (5 ≤ sby 0 → 5 ≤ sby 1 → ∃ t, exec .standbyFailure s = .next t ∧ t.bit GLB_STW_STAT.STANDBY_OK = false ∧ t.rcv.booting = true ∧
        t.mgmt.sbyMissed = [] ∧ t.rd (RST_LAST_CAUSE.CAUSE (1 + s.sbySd)) = 0x0F ∧ t.mem = s.mem)) ∧
    (lost = true → Tab.get 0 s.host.stwLost hid = 0 → (s.host.descs.map Desc.key).Nodup → ∃ t, exec (.stewardLost hid) s = .next t ∧
      Tab.get 0 t.host.stwLost hid = 1 ∧ t.mem = s.mem ∧ t.host.descs.length = s.host.descs.length ∧
      ∀ d ∈ t.host.descs, ringDie d.ring = hid → d.st = .running → needsSteward d = false) ∧
    (s.rgnState r < 4 → exec (.managerHeartbeatTimer r false) s =
        .next { s with mgmt := { s.mgmt with mgrMissed := Tab.upd 0 s.mgmt.mgrMissed r (· + 1) } } ∧
      (∃ t, exec (.managerHeartbeatTimer r true) s = .next t ∧ t.mem = s.mem ∧ t.regs = s.regs ∧
        Tab.get 0 t.mgmt.beats r = (Tab.get 0 s.mgmt.beats r + 1) % 2 ^ 32 ∧ ∀ i, i < 9 → regionDie r i ≠ s.managerDie r → s.dieAbsent (regionDie r i) = false →
          Tab.get 0 t.mgmt.unanswered (regionDie r i) = min 4 (Tab.get 0 s.mgmt.unanswered (regionDie r i) + 1))) ∧
    (∀ i, s.rgnState r < 4 → 3 ≤ Tab.get 0 s.mgmt.mgrMissed r → s.nextManager r (s.rd (RGN_PWR_STAT.MANAGER r)) = some i → ∃ t,
      exec (.managerTakeover r) s = .next t ∧ t.rd (RGN_PWR_STAT.MANAGER r) = i ∧ Tab.get 0 t.mgmt.mgrMissed r = 0 ∧ t.mem = s.mem) ∧
    (s.rcv.booting = true → lost = false → ∃ t, exec .standbyMirrorComplete s = .next t ∧ t.bit GLB_STW_STAT.STANDBY_OK = true ∧ t.rcv.booting = false ∧ t.mem = s.mem)

/-! ### Telemetry, the keyring, check units, set-up -/

/-- R576 to R578, R583 to R587, R590 to R595, R600, R630, R639, R640: a trick ends when every unit has reported or at its time, and a daily one waits for it; counter
wraps are announced; a record takes the next sequence number; a failed log device leaves the other; counts clear; a check unit runs its polynomial. -/
def Obligations.TricksRecordsAndCheckUnitsCount : Prop :=
  ∀ (s : State) (tr : Trick) (unit kind q u d n : Nat) (payload : List Byte) (w : W32) (v : M64), u < 20 → d < 144 → n < 256 →
    (s.tel.trick = none → exec .trickCollectionTimeout s = .next s ∧ exec .trickComplete s = .next s) ∧
    (s.tel.trick = some tr → s.bit GLB_STW_STAT.LOST_BOTH = false → (s.ptime < max tr.t tr.since + 20000000 → exec .trickCollectionTimeout s = .next s) ∧
      (max tr.t tr.since + 20000000 ≤ s.ptime → exec .trickCollectionTimeout s = .next (s.endTrick tr)) ∧
      ((∀ x ∈ trickUnits, unitRecords x = [] ∨ s.unitGone x ≠ none ∨ Tab.get [] s.tel.shadow x ≠ []) → exec .trickComplete s = .next (s.endTrick tr)) ∧
      exec .dailyTrick s = .next { s.endDay with tel := { s.endDay.tel with daily := true } } ∧
      (tr.key = none → tr.image = none → s.tel.daily = false → s.tel.dayRecs = [] → tr.n < 2 ^ 32 → tr.t < 2 ^ 64 → max tr.t tr.since + 20000000 ≤ s.ptime →
        ∃ t, exec .trickCollectionTimeout s = .next t ∧ t.tel.trick = none ∧ t.bit TEL_TRICK_STAT.BUSY = false ∧ t.rd TEL_TRICK_NUM.N = tr.n ∧
          t.rd TEL_TRICK_T.T = tr.t ∧ t.rd TEL_TRICK_NEXT.T = 0 ∧ t.mem = s.mem ∧ t.out = s.out)) ∧
    (s.tel.trick = none → s.bit GLB_STW_STAT.LOST_BOTH = false → exec .dailyTrick s = .next ({ s.endDay with tel := { s.endDay.tel with daily := false } }.beginTrick none (s.ptime + 20000))) ∧
    (s.dieAbsent d = false → (0x03, d, (List.range 256).map (fun i => BitVec.ofNat 8 (63 - Tab.get 0 s.clk.daily (256 * d + i)))) ∈ s.endDay.tel.dayRecs ∧
      s.endDay.clk.daily = [] ∧ s.endDay.tel.day = [] ∧ s.endDay.opt.margins = [] ∧ s.endDay.regs = s.regs ∧ s.endDay.mem = s.mem ∧ s.endDay.out = s.out) ∧
    (∀ e, s.tel.dayRecs = [e] → s.writeDay = { s with tel := { s.tel with dayRecs := [] } }.logWrite e.1 e.2.1 e.2.2) ∧
    (Tab.get 0 s.tel.wraps unit = 0 → exec (.counterWrapEvent unit) s = .next s) ∧
    (Tab.get 0 s.tel.wraps unit ≠ 0 → Tab.get 0 s.tel.wrapAt unit = 0 → ∃ t, exec (.counterWrapEvent unit) s = .next t ∧ Tab.get 0 t.tel.wraps unit = 0 ∧
      Tab.get 0 t.tel.wrapAt unit = s.ptime + 1 ∧ t.cores = s.cores ∧
      (s.bit (HID_FN_ID.EN 0) = false → s.bit (HID_FN_ID.EN 8) = false → t.regs = s.regs ∧ t.out = s.out)) ∧
    (s.logOk = true → s.bit GLB_STW_STAT.LOST_BOTH = false → ∃ t, exec (.logRecordWrite kind unit payload) s = .next t ∧
      t.rd TEL_LOG_SEQ.SEQ = (s.rd TEL_LOG_SEQ.SEQ + 1) % 2 ^ 64 ∧ t.mem = s.mem ∧
      t.tel.log.getLast? =
        some ⟨kind % 256, lifeKind (kind % 256), unit % 2 ^ 16, (s.rd TEL_LOG_SEQ.SEQ + 1) % 2 ^ 64, s.ptime, payload⟩) ∧
    (s.logOk = false → exec (.logRecordWrite kind unit payload) s = .next s) ∧
    (s.bit TEL_LOG_STAT.DEV0_OK = true → ∃ t, exec (.logDeviceFail 0) s = .next t ∧ t.bit TEL_LOG_STAT.DEV0_OK = false ∧
      t.bit TEL_LOG_STAT.DEV1_OK = s.bit TEL_LOG_STAT.DEV1_OK ∧ t.bit TEL_LOG_STAT.MIRROR_OK = s.bit TEL_LOG_STAT.MIRROR_OK ∧ t.tel.log = s.tel.log) ∧
    (s.bit TEL_LOG_STAT.DEV0_OK = false → exec (.logDeviceFail 0) s = .next s) ∧
    (bitsOf v.toNat 63 1 = 1 → bitsOf v.toNat 0 48 % 2 ^ 24 ≠ 0 → exec (.telImgWrite .fw v) s = .next (s.wr TEL_TRICK_STAT.IMG_ERR 1)) ∧
    (bitsOf v.toNat 63 1 = 0 → exec (.telImgWrite .fw v) s = .next (((s.wr TEL_IMG.BASE (bitsOf v.toNat 0 48)).wr TEL_IMG.EN 0).wr TEL_TRICK_STAT.VALID 0)) ∧
    (s.dieAbsent d = false → bitsOf w.toNat 2 1 = 1 → ∃ t, exec (.hlthClr .fw d (some n) w) s = .next t ∧ t.rd (CD_HLTH_STRERR.COUNT d n) = 0 ∧
      t.rd (CD_HLTH_MXCE.COUNT d n) = 0 ∧ t.bit (CD_HLTH_STAT.STRERR_SAT d n) = false ∧ t.bit (CD_HLTH_STAT.MXCE_SAT d n) = false ∧ t.mem = s.mem ∧ t.cores = s.cores) ∧
    (∀ f, exec (.ckuStart (.fn f) u w) s = .next s ∧ exec (.ckuDataWrite (.fn f) u v) s = .next s ∧ exec (.ckuClr (.fn f) u w) s = .next s) ∧
    (s.bit (CKU_STAT.BUSY u) = true → exec (.ckuStart .fw u w) s = .next s ∧ exec (.ckuDataWrite .fw u v) s = .next s) ∧
    (s.bit (CKU_STAT.BUSY u) = false → bitsOf w.toNat 0 1 = 1 → ∃ t, exec (.ckuStart .fw u w) s = .next t ∧ t.rd (CKU_CTL.LAST_N u) = bitsOf w.toNat 1 3 ∧
      t.rd (CKU_RUN.RUN u) = s.rd (CKU_INIT.VALUE u) % 2 ^ s.ckuW u ∧ t.mem = s.mem ∧ t.cores = s.cores) ∧
    (s.bit (CKU_STAT.BUSY u) = false → q = (if s.rd (CKU_CTL.LAST_N u) = 0 then 8 else s.rd (CKU_CTL.LAST_N u)) →
      let run := crcRun (s.ckuW u) (s.rd (CKU_POLY.VALUE u)) (s.bit (CKU_CFG.REFIN u)) (s.rd (CKU_RUN.RUN u) % 2 ^ s.ckuW u) (leBytes q v.toNat)
      ∃ t, exec (.ckuDataWrite .fw u v) s = .next t ∧ t.rd (CKU_CTL.LAST_N u) = 0 ∧ t.rd (CKU_RUN.RUN u) = run % 2 ^ 64 ∧
        t.rd (CKU_RESULT.RESULT u) = crcResult (s.ckuW u) (s.bit (CKU_CFG.REFOUT u)) (s.rd (CKU_XOROUT.VALUE u)) run % 2 ^ 64 ∧ t.mem = s.mem) ∧
    (bitsOf w.toNat 4 1 = 1 → ∃ t, exec (.ckuClr .fw u w) s = .next t ∧ t.rd (CKU_BAD.COUNT u) = 0 ∧ t.rd (CKU_REPEAT.COUNT u) = 0 ∧
      t.rd (CKU_SKIP.COUNT u) = 0 ∧ t.bit (CKU_STAT.BAD_SAT u) = false ∧ t.mem = s.mem)

/-- R603 to R608, R611 to R613, R623: a mailbox command of a live physical function is answered with its status; a session is a verified response to the challenge
given; owner keys, cosigning and operator keys follow the owner's session; tampering and zeroising clear the keys and restart the panel. -/
def Obligations.KeyringCommandsAnswerTheirMailbox : Prop :=
  ∀ (s u : State) (q role keyid slot failed sd : Nat) (key sig : List Byte) (b : BootTry), q < 2 → slot < 4 → s.fnLive (8 * q) = true →
    s.bit GLB_STW_STAT.LOST_BOTH = false →
    let cmds := [Instr.authChallenge q role, .authResponse q role keyid sig, .authDrop q, .ownerEnroll q slot key, .ownerRevoke q slot, .cosignSet q,
      .operatorSet q slot key, .zeroise q b, .selftest q failed]
    (s.rd KEY_STAT.STATE = 0 → ∀ c ∈ cmds, exec c s = .next (s.wr (KEY_MBOX_CTL.BUSY q) 1)) ∧
    (2 ≤ s.rd KEY_STAT.STATE → ∀ c ∈ cmds, exec c s = .next (s.mboxDone q 6 [])) ∧
    (s.rd KEY_STAT.STATE = 1 →
      (Tab.get 0 s.key.lock q ≠ 0 → exec (.authChallenge q role) s = .next (s.mboxDone q 4 []) ∧ exec (.authResponse q role keyid sig) s = .next (s.mboxDone q 4 [])) ∧
      (Tab.get 0 s.key.lock q = 0 → role = 1 ∨ role = 2 →
        (∃ t, exec (.authChallenge q role) s = .next t ∧ Tab.get [] t.key.chal q = leBytes 32 (Config.freeValue s.fresh) ∧ Tab.get 0 t.key.chalRole q = role ∧
          t.rd (KEY_MBOX_CTL.STATUS q) = 0 ∧ t.bit (KEY_MBOX_CTL.BUSY q) = false ∧ t.mem = s.mem ∧ t.out = s.out) ∧
        (1 ≤ keyid → keyid ≤ 4 → s.ownerOk (keyid - 1) = true → Tab.get [] s.key.chal q ≠ [] → Tab.get 0 s.key.chalRole q = role →
          Config.verify (s.ownerKey (keyid - 1)) (Tab.get [] s.key.chal q ++ leBytes 1 (8 * q) ++ leBytes 1 role) (sig.take 64) = true →
          ∃ t, exec (.authResponse q role keyid sig) s = .next t ∧ t.rd (KEY_MBOX_CTL.ROLE q) = role ∧ t.rd (KEY_MBOX_CTL.STATUS q) = 0 ∧
            Tab.get [] t.key.chal q = [] ∧ t.mem = s.mem ∧ t.out = s.out) ∧
        (1 ≤ keyid → keyid ≤ 4 → Tab.get [] s.key.chal q = [] → Tab.get [] s.key.fails q = [] → ∃ t, exec (.authResponse q role keyid sig) s = .next t ∧
          t.rd (KEY_MBOX_CTL.STATUS q) = 3 ∧ t.rd (KEY_MBOX_CTL.ROLE q) = s.rd (KEY_MBOX_CTL.ROLE q) ∧ Tab.get [] t.key.fails q = [s.ptime] ∧
          Tab.get 0 t.key.lock q = Tab.get 0 s.key.lock q ∧ t.mem = s.mem ∧ t.out = s.out)) ∧
      (∃ t, exec (.authDrop q) s = .next t ∧ t.rd (KEY_MBOX_CTL.ROLE q) = 0 ∧ Tab.get [] t.key.chal q = [] ∧ t.rd (KEY_MBOX_CTL.STATUS q) = 0 ∧ t.mem = s.mem ∧ t.out = s.out) ∧
      (s.owned = true → s.rd (KEY_MBOX_CTL.ROLE q) ≠ 2 → ∀ c ∈ [Instr.ownerEnroll q slot key, .ownerRevoke q slot, .cosignSet q, .operatorSet q slot key, .zeroise q b],
        exec c s = .next (s.mboxDone q 3 [])) ∧
      (s.owned = false → s.bit (KEY_OWNER.VALID slot) = false → s.bit (KEY_OWNER.REVOKED slot) = false → key.length = 32 → ∃ t,
        exec (.ownerEnroll q slot key) s = .next t ∧ t.ownerOk slot = true ∧ t.ownerKey slot = key ∧ t.bit KEY_STAT.OWNED = true ∧ t.rd (KEY_MBOX_CTL.STATUS q) = 0) ∧
      (s.rd (KEY_MBOX_CTL.ROLE q) = 2 →
        (∀ o, o < 4 → o ≠ slot → s.ownerOk o = true → s.ownerOk slot = true → ∃ t, exec (.ownerRevoke q slot) s = .next t ∧ t.ownerOk slot = false ∧
          t.ownerOk o = true ∧ t.rd (KEY_MBOX_CTL.STATUS q) = 0) ∧
        (s.ownerOk slot = true → (∀ o, o < 4 → o ≠ slot → s.ownerOk o = false) → exec (.ownerRevoke q slot) s = .next (s.mboxDone q 2 [])) ∧
        (∃ t, exec (.cosignSet q) s = .next t ∧ t.bit KEY_STAT.COSIGN = true ∧ t.rd (KEY_MBOX_CTL.STATUS q) = 0) ∧
        (key.length = 32 → key.any (fun x => decide (x ≠ 0)) = true → ∃ t, exec (.operatorSet q slot key) s = .next t ∧ Tab.get [] t.key.ops slot = key ∧
          t.rd (KEY_MBOX_CTL.STATUS q) = 0) ∧
        exec (.zeroise q b) s = .next (((s.clearKeys.warmStart 0x0D b).rekeyAll).postPanel 0x0A02 31 2 (leBytes 1 s.sd))) ∧
      (exec (.selftest q 0) s = .next (s.mboxDone q 0 [0])) ∧
      (0 < failed → failed < 256 → ∃ t, exec (.selftest q failed) s = .next t ∧ t.rd KEY_STAT.STATE = 2 ∧ t.rd (KEY_MBOX_CTL.STATUS q) = 0)) ∧
    (∀ n, Tab.get 0 s.key.lock q = n + 1 →
      (n + 60000000000 ≤ s.ptime → ∃ t, exec (.authLockExpiry q) s = .next t ∧ Tab.get 0 t.key.lock q = 0 ∧ Tab.get [] t.key.fails q = [] ∧ t.regs = s.regs ∧
        t.mem = s.mem ∧ t.out = s.out) ∧
      (s.ptime < n + 60000000000 → exec (.authLockExpiry q) s = .next s)) ∧
    (sd < 2 → ∀ k, k < 4 → u = (s.clearKeys.warmStart 0x0C b).rekeyAll → exec (.keyringTamper sd k b) s =
      .next ((u.logWrite 0x0E 0xFFFE (evtBytes 0x0A01 31 2 0 (Tab.get 0 u.host.evtSeq 0) u.ptime (leBytes 1 sd ++ leBytes 1 k))).postPanel 0x0A01 31 2
        (leBytes 1 sd ++ leBytes 1 k))) ∧
    (s.sd < 2 → (∃ t, exec (.entropyHealthTestFail s.sd) s = .next t ∧ t.rd KEY_STAT.STATE = 2) ∧
      ∃ t, exec (.entropyHealthTestFail (1 - s.sd)) s = .next t ∧ t.key.sbyState = 2 ∧ t.rd KEY_STAT.STATE = s.rd KEY_STAT.STATE)

/-- R614 to R617, R648, R652 to R654, R661, R669, R673, R679: attestation requests are answered in their order, with chain, nonce and signature; set-up registers are
written by those who may, LOCK holds once set; the tray reads and writes while it holds the bus; a part that does not answer is tried four times. -/
def Obligations.OutsideRequestsAreAnsweredAndLocked : Prop :=
  ∀ (s : State) (via : SpdmVia) (slot off len k : Nat) (nonce l : List Byte) (v : W32) (src : Src), k < 12 →
    let got := s.spdmTake via
    let u := got.service true
    let at_ := fun (n : Nat) => s.spdmOpen via = true ∧ s.keyReady = true ∧ n ≤ Tab.get 0 s.key.spdm (spdmKey via)
    let say := fun (t : State) (kind : Nat) (data : List Byte) => t.emit (.spdm via kind data)
    let fresh := leBytes 32 (Config.freeValue s.fresh)
    let drawn := { u with fresh := s.fresh + 1 }
    (s.spdmOpen via = false → ∀ c ∈ [Instr.spdmGetVersion via, .spdmGetCapabilities via, .spdmGetDigests via, .spdmChallenge via slot nonce], exec c s = .next got) ∧
    (s.spdmOpen via = true → s.keyReady = true → Tab.get 0 s.key.spdm (spdmKey via) = 0 →
      ∀ c ∈ [Instr.spdmGetCapabilities via, .spdmGetDigests via, .spdmChallenge via slot nonce], exec c s = .next (say got 0x7F [])) ∧
    (at_ 0 → ∃ t, exec (.spdmGetVersion via) s = .next t ∧ t.out = .spdm via 0x04 (leBytes 2 0x1300) :: s.out ∧ Tab.get 0 t.key.spdm (spdmKey via) = 1 ∧ t.mem = s.mem) ∧
    (at_ 1 → ∃ t, exec (.spdmGetCapabilities via) s = .next t ∧ (∃ x, t.out = .spdm via 0x61 x :: s.out) ∧ Tab.get 0 t.key.spdm (spdmKey via) = 2 ∧ t.mem = s.mem) ∧
    (at_ 2 → (∃ t, exec (.spdmNegotiateAlgorithms via true) s = .next t ∧ (∃ x, t.out = .spdm via 0x63 x :: s.out) ∧
        Tab.get 0 t.key.spdm (spdmKey via) = 3 ∧ t.mem = s.mem) ∧
      exec (.spdmNegotiateAlgorithms via false) s = .next (say u 0x7F [])) ∧
    (at_ 3 →
      exec (.spdmGetDigests via) s = .next (say u 0x01 (leBytes 1 1 ++ digest u.slot0)) ∧
      (off ≤ u.slot0.length → ∃ part rest, part = (u.slot0.drop off).take (min len 4088) ∧ rest = u.slot0.length - off - part.length ∧
        exec (.spdmGetCertificate via 0 off len) s = .next (say u 0x02 (leBytes 2 part.length ++ leBytes 2 rest ++ part))) ∧
      (slot ≠ 0 → exec (.spdmGetCertificate via slot off len) s = .next (say u 0x7F []) ∧ exec (.spdmChallenge via slot nonce) s = .next (say u 0x7F [])) ∧
      exec (.spdmChallenge via 0 nonce) s = .next (say drawn 0x03 ((digest u.slot0 ++ fresh) ++ u.attSign (nonce ++ (digest u.slot0 ++ fresh)))) ∧
      (1 ≤ k → k ≤ 8 → exec (.spdmGetMeasurements via k false nonce) s = .next (say u 0x60 (u.measBlock (k - 1))) ∧
        exec (.spdmGetMeasurements via k true nonce) s = .next (say drawn 0x60 ((u.measBlock (k - 1) ++ fresh) ++ u.attSign (nonce ++ (u.measBlock (k - 1) ++ fresh))))) ∧
      exec (.spdmGetMeasurements via 0 false nonce) s = .next (say u 0x60 [8]) ∧
      (∀ cursor die kind, len ≤ 3900 → let x := takeRecords len (u.mirror.filter (u.logMatch 0 die kind cursor))
        let body := x.1 ++ leBytes 8 ((x.2.head?.map (·.seq)).getD 0)
        exec (.spdmVendorLogRead via cursor die kind len l) s = .next (say u 0x7E (body ++ u.attSign (l ++ body)))) ∧
      (s.tel.log = [] → exec (.spdmVendorLogRead via 0 0xFFFF 0xFF 3900 l) s = .next (say u 0x7E (leBytes 8 0 ++ u.attSign (l ++ leBytes 8 0)))) ∧
      (3900 < len → exec (.spdmVendorLogRead via 0 0xFFFF 0xFF len l) s = .next (say u 0x7F []))) ∧
    (s.bit SETUP_LOCK.LOCK = true → exec (.setupLockWrite src v) s = .next s ∧ exec (.registerWrite .fw 0x100004 4 1) s = .next s) ∧
    (∀ f, f ≠ 0 → f ≠ 8 → exec (.setupLockWrite (.fn f) v) s = .next s) ∧
    (s.bit SETUP_LOCK.LOCK = false → s.boot.lockDue = false → v.toNat % 2 = 1 →
      (s.rd RST_BOOT_STAT.STATE = 1 → s.bit GLB_STW_STAT.LOST_BOTH = false → ∃ t, exec (.setupLockWrite (.fn 8) v) s = .next t ∧ t.bit SETUP_LOCK.LOCK = true ∧
        t.rd SETUP_LOCK.BY = 8 ∧ t.bit SETUP_LOCK.PENDING = false ∧ t.mem = s.mem ∧ t.cores = s.cores) ∧
      (s.rd RST_BOOT_STAT.STATE ≠ 1 → ∃ t, exec (.setupLockWrite .fw v) s = .next t ∧ t.bit SETUP_LOCK.LOCK = false ∧ t.bit SETUP_LOCK.PENDING = true ∧
        t.boot.lockDue = true ∧ t.mem = s.mem)) ∧
    (s.bit SETUP_LOCK.LOCK = false → ∃ t, exec (.registerWrite .fw 0x100004 4 1) s = .next t ∧ t.bit KEY_CFG.APPROVED_ONLY = true ∧ t.mem = s.mem ∧ t.cores = s.cores ∧
      t.out = s.out) ∧
    (s.boot.on = true → s.bit GLB_STW_STAT.LOST_BOTH = false →
      exec .i3cRoleRequest s = .next (s.updBoot (fun x => { x with tray := true })) ∧
      (s.boot.tray = true →
        (l.length = 4 → exec (.trayI3cAccess (some l)) s = .next (s.updBoot (fun x => { x with i3cOfs := leNat l }))) ∧
        (s.boot.i3cOfs = 0x0 → exec (.trayI3cAccess none) s = .next (s.emit (.i3c (leBytes 4 (s.regWord 0)))))) ∧
      (s.boot.tray = false → exec (.trayI3cAccess (some l)) s = .next s)) ∧
    (∃ t, exec .i3cTakeBack s = .next t ∧ t.boot.tray = false ∧ t.regs = s.regs ∧ t.mem = s.mem ∧ t.out = s.out) ∧
    (Tab.get 0 s.boot.i3cTries k < 3 → exec (.i3cTargetTimeout true k) s =
      .next { s with boot := { s.boot with i3cTries := Tab.set 0 s.boot.i3cTries k (Tab.get 0 s.boot.i3cTries k + 1) } }) ∧
    (3 ≤ Tab.get 0 s.boot.i3cTries k → ∃ t, exec (.i3cTargetTimeout true k) s = .next t ∧ Tab.get 0 t.boot.i3cTries k = 0) ∧
    (3 ≤ Tab.get 0 s.boot.i3cTries (12 + k) → s.ct k = 1 → ∃ t, exec (.i3cTargetTimeout false k) s = .next t ∧ Tab.get 0 t.boot.i3cTries (12 + k) = 0 ∧ t.ct k = 6)

/-! ### The panel as a whole -/

/-- A step takes the command at the front of the queue and runs it with the rest of the queue; with no command waiting panel time advances by a tick of 4 ns,
outside a SLEW (R457; that the tick is what an empty queue does is the model's choice, log entry 1), and what waits for time has its turn: sync messages (R191), a
module whose lasers are off for a swap (R374), a stopped die that has become quiet (R553). -/
def Obligations.AStepRunsTheFrontCommand : Prop :=
  (∀ (s : State) (c : Instr) (rest : List Instr), step { s with pending := c :: rest } = exec c { s with pending := rest }) ∧
  (∀ s : State, s.pending = [] → ∃ t, step s = .next t ∧ t.pending = [] ∧ t.ptime = s.tickTime.ptime ∧ t.mem = s.mem ∧ t.cores = s.cores ∧
    ((∀ e ∈ s.net.syncs, e.2.wait = []) → (∀ e ∈ s.opt.swap, e.2 ≠ 4) → s.rcv.quietDue = [] → t = s.tickTime ∧ t.out = s.out ∧
      (s.clk.slewLeft = 0 → t = { s with ptime := (s.ptime + 4) % 2 ^ 64 }) ∧ ∀ f, f.key ≠ CLK_PT_STAT.SLEWING.key → t.rd f = s.rd f))

/-- Every register field reads its reset value at reset, of the field tables where they give one and of log entry 2 elsewhere; among them are values of the
identity, thermal, event and lock tables. No command waits, no byte of memory is listed, no task stands in a slot, and the tables are in canonical form. -/
def Obligations.ResetLeavesEveryFieldAtItsValue : Prop :=
  let z := State.reset
  z.Canon ∧ z.pending = [] ∧ (∀ a, z.byte a = 0) ∧ z.out = [] ∧ (∀ f : Field, z.rd f = f.reset % 2 ^ f.w) ∧
  (z.rd GLB_ID_VENDOR.VENDOR = 0xD3B5 ∧ z.rd GLB_ID_VENDOR.DEVICE = 0x0144 ∧ z.rd GLB_ID_MAP.LOG2_SIZE = 26 ∧ z.rd GLB_ID_UNITS.DIES = 144 ∧
    z.rd GLB_ID_UNITS.HUBS = 24 ∧ z.rd GLB_ID_UNITS.ENGINES = 24) ∧
  (z.rd THM_CFG.THR = 95 ∧ z.rd THM_CFG.HOLD = 105 ∧ (∀ f, f < 16 → z.bit (HID_EVT_TAIL.PHASE f) = true) ∧ z.bit SETUP_LOCK.LOCK = false) ∧
  (∀ c, (z.core c).running = none ∧ (z.core c).fenced = false ∧ ∀ i, (z.task c i).st = .empty) ∧
  z.host.descs = [] ∧ z.net.nodes = [] ∧ z.jx.xfers = [] ∧ z.tel.log = []

/-- R232 to R234: no two pages of the central store share a stack-local page of a stack, whatever modes its segments are in; with parity mode on, no data page of a
stripe lies on the stack that holds the stripe's parity. An interleaved page lies where R232 puts it. -/
def Obligations.NoTwoStorePagesShareAPlace : Prop :=
  ∀ (s : State) (a b : Nat), s.inStore a 1 = true →
    ((s.place a).1 < 48 ∧ (s.place a).2 < 12582912) ∧
    (s.inStore b 1 = true → s.place a = s.place b → a / 4096 = b / 4096) ∧
    (∀ p, p = a / 4096 → s.pmode = false → s.bit (MH_SEG_MAP.MODE (a / (48 * 2 ^ 30))) = false →
      s.place a = (p % 3 * 16 + ((p / 3 % 16) ^^^ (p / 48 % 16)), p / 48)) ∧
    (s.pmode = true → (s.place a).1 / 12 = a / 4096 % 44 % 4 ∧ (s.place a).1 ≠ parityStack ((s.place a).1 / 12) (s.place a).2)

/-- The register table and the memory stay in canonical form, whatever command a step runs: keys strictly rising, no entry equal to what an unlisted key reads as. -/
def Obligations.EveryStepKeepsTheCanonicalForm : Prop :=
  ∀ s t : State, s.Canon → step s = .next t → t.Canon
end

