-- ==== Sys2Proof/Laws/Tab.lean ====
section
/-! SUPPORT. Tables: what a write reads back as, what it leaves, and that it keeps the canonical form. -/

namespace Sys2Proof.Machine

variable {α : Type}

theorem Tab.get_put_same (d : α) (t : Tab α) (k : Nat) (v : α) : Tab.get d (Tab.put t k v) k = v := by
  induction t with
  | nil => simp [Tab.put, Tab.get]
  | cons e t ih =>
    obtain ⟨a, b⟩ := e
    by_cases h1 : a = k
    · simp [Tab.put, Tab.get, h1]
    · by_cases h2 : k < a
      · simp [Tab.put, Tab.get, h1, h2]
      · simp [Tab.put, Tab.get, h1, h2, ih]

theorem Tab.get_put_ne (d : α) (t : Tab α) {k j : Nat} (v : α) (h : j ≠ k) : Tab.get d (Tab.put t k v) j = Tab.get d t j := by
  have hk : ¬k = j := fun e => h e.symm
  induction t with
  | nil => simp [Tab.put, Tab.get, hk]
  | cons e t ih =>
    obtain ⟨a, b⟩ := e
    by_cases h1 : a = k
    · subst h1; simp [Tab.put, Tab.get, hk]
    · by_cases h2 : k < a
      · simp [Tab.put, Tab.get, h1, h2, hk]
      · by_cases h3 : a = j
        · subst h3; simp [Tab.put, Tab.get, h1, h2]
        · simp [Tab.put, Tab.get, h1, h2, h3, ih]

theorem Tab.get_drop_same (d : α) (t : Tab α) (k : Nat) : Tab.get d (Tab.drop t k) k = d := by
  induction t with
  | nil => rfl
  | cons e t ih =>
    obtain ⟨a, b⟩ := e
    by_cases h1 : a = k
    · simp [Tab.drop, h1, ih]
    · simp [Tab.drop, Tab.get, h1, ih]

theorem Tab.get_drop_ne (d : α) (t : Tab α) {k j : Nat} (h : j ≠ k) : Tab.get d (Tab.drop t k) j = Tab.get d t j := by
  induction t with
  | nil => rfl
  | cons e t ih =>
    obtain ⟨a, b⟩ := e
    by_cases h1 : a = k
    · subst h1
      have : ¬a = j := fun e => h e.symm
      simp [Tab.drop, Tab.get, this, ih]
    · by_cases h3 : a = j
      · subst h3; simp [Tab.drop, Tab.get, h1]
      · simp [Tab.drop, Tab.get, h1, h3, ih]

variable [DecidableEq α]

/-- A write reads back. -/
@[simp] theorem Tab.get_set_same (d : α) (t : Tab α) (k : Nat) (v : α) : Tab.get d (Tab.set d t k v) k = v := by
  by_cases h : v = d
  · simp [Tab.set, h, Tab.get_drop_same]
  · simp [Tab.set, h, Tab.get_put_same]

/-- A write leaves every other key. -/
theorem Tab.get_set_ne (d : α) (t : Tab α) {k j : Nat} (v : α) (h : j ≠ k) : Tab.get d (Tab.set d t k v) j = Tab.get d t j := by
  by_cases hv : v = d
  · simp [Tab.set, hv, Tab.get_drop_ne d t h]
  · simp [Tab.set, hv, Tab.get_put_ne d t v h]

theorem Tab.get_set (d : α) (t : Tab α) (k j : Nat) (v : α) : Tab.get d (Tab.set d t k v) j = if j = k then v else Tab.get d t j := by
  by_cases h : j = k
  · subst h; simp
  · simp [h, Tab.get_set_ne d t v h]

/-- The value at a key after it goes through `f`. -/
@[simp] theorem Tab.get_upd_same (d : α) (t : Tab α) (k : Nat) (f : α → α) : Tab.get d (Tab.upd d t k f) k = f (Tab.get d t k) := by
  simp [Tab.upd]

theorem Tab.wfFrom_none_of_some (d : α) (lo : Nat) (t : Tab α) (h : Tab.wfFrom d (some lo) t = true) : Tab.wfFrom d none t = true := by
  cases t with
  | nil => rfl
  | cons e t =>
    obtain ⟨a, b⟩ := e
    simp [Tab.wfFrom] at h ⊢
    exact ⟨h.1.2, h.2⟩

theorem Tab.wfFrom_mono (d : α) {lo hi : Nat} (hl : lo ≤ hi) (t : Tab α) (h : Tab.wfFrom d (some hi) t = true) : Tab.wfFrom d (some lo) t = true := by
  cases t with
  | nil => rfl
  | cons e t =>
    obtain ⟨a, b⟩ := e
    simp [Tab.wfFrom] at h ⊢
    exact ⟨⟨by omega, h.1.2⟩, h.2⟩

theorem Tab.wfFrom_drop (d : α) (lo : Option Nat) (t : Tab α) (k : Nat) (h : Tab.wfFrom d lo t = true) : Tab.wfFrom d lo (Tab.drop t k) = true := by
  induction t generalizing lo with
  | nil => cases lo <;> rfl
  | cons e t ih =>
    obtain ⟨a, b⟩ := e
    by_cases h1 : a = k
    · simp only [Tab.drop, h1, if_true]
      refine ih lo ?_
      cases lo with
      | none => simp [Tab.wfFrom] at h; exact Tab.wfFrom_none_of_some d a t h.2
      | some lo => simp [Tab.wfFrom] at h; exact Tab.wfFrom_mono d (by omega) t h.2
    · simp only [Tab.drop, h1, if_false]
      cases lo with
      | none => simp [Tab.wfFrom] at h ⊢; exact ⟨h.1, ih _ h.2⟩
      | some lo => simp [Tab.wfFrom] at h ⊢; exact ⟨h.1, ih _ h.2⟩

theorem Tab.wfFrom_put (d : α) (lo : Option Nat) (t : Tab α) (k : Nat) (v : α) (hv : v ≠ d) (hlo : ∀ x, lo = some x → x < k)
    (h : Tab.wfFrom d lo t = true) : Tab.wfFrom d lo (Tab.put t k v) = true := by
  induction t generalizing lo with
  | nil =>
    cases lo with
    | none => simp [Tab.put, Tab.wfFrom, hv]
    | some x => simp [Tab.put, Tab.wfFrom, hv, hlo x rfl]
  | cons e t ih =>
    obtain ⟨a, b⟩ := e
    by_cases h1 : a = k
    · subst h1
      cases lo <;> simp_all [Tab.put, Tab.wfFrom]
    · by_cases h2 : k < a
      · cases lo with
        | none => simp [Tab.put, h1, h2, Tab.wfFrom] at h ⊢; exact ⟨hv, h⟩
        | some x => simp [Tab.put, h1, h2, Tab.wfFrom] at h ⊢; exact ⟨⟨hlo x rfl, hv⟩, h.1.2, h.2⟩
      · have h3 : a < k := by omega
        cases lo with
        | none => simp [Tab.put, h1, h2, Tab.wfFrom] at h ⊢; exact ⟨h.1, ih (some a) (by simp; exact h3) h.2⟩
        | some x => simp [Tab.put, h1, h2, Tab.wfFrom] at h ⊢; exact ⟨h.1, ih (some a) (by simp; exact h3) h.2⟩

/-- A write keeps the canonical form. -/
theorem Tab.wf_set (d : α) (t : Tab α) (k : Nat) (v : α) (h : Tab.wf d t = true) : Tab.wf d (Tab.set d t k v) = true := by
  by_cases hv : v = d
  · simp [Tab.set, hv, Tab.wf]; exact Tab.wfFrom_drop d none t k h
  · simp [Tab.set, hv, Tab.wf]; exact Tab.wfFrom_put d none t k v hv (by simp) h

theorem Tab.wfFrom_filter (d : α) (lo : Option Nat) (t : Tab α) (p : Nat × α → Bool) (h : Tab.wfFrom d lo t = true) :
    Tab.wfFrom d lo (t.filter p) = true := by
  induction t generalizing lo with
  | nil => exact h
  | cons e t ih =>
    obtain ⟨a, b⟩ := e
    by_cases hp : p (a, b) = true
    · cases lo with
      | none => simp [hp, Tab.wfFrom] at h ⊢; exact ⟨h.1, ih _ h.2⟩
      | some x => simp [hp, Tab.wfFrom] at h ⊢; exact ⟨h.1, ih _ h.2⟩
    · rw [List.filter_cons_of_neg hp]
      refine ih lo ?_
      cases lo with
      | none => simp [Tab.wfFrom] at h; exact Tab.wfFrom_none_of_some d a t h.2
      | some x => simp [Tab.wfFrom] at h; exact Tab.wfFrom_mono d (by omega) t h.2

/-- Removing entries keeps the canonical form. -/
theorem Tab.wf_filter (d : α) (t : Tab α) (p : Nat × α → Bool) (h : Tab.wf d t = true) : Tab.wf d (t.filter p) = true :=
  Tab.wfFrom_filter d none t p h

end Sys2Proof.Machine
end

