-- ==== Sys2Proof/Laws/State.lean ====
section
/-! SUPPORT. The state's small updates: one lemma for each field that an update leaves, and what an update reads back as. -/

namespace Sys2Proof.Machine

variable (s : State)

@[simp] theorem State.wr_pending (f : Field) (v : Nat) : (s.wr f v).pending = s.pending := rfl
@[simp] theorem State.wr_mem (f : Field) (v : Nat) : (s.wr f v).mem = s.mem := rfl
@[simp] theorem State.wr_opens (f : Field) (v : Nat) : (s.wr f v).opens = s.opens := rfl
@[simp] theorem State.wr_ecc (f : Field) (v : Nat) : (s.wr f v).ecc = s.ecc := rfl
@[simp] theorem State.wr_cores (f : Field) (v : Nat) : (s.wr f v).cores = s.cores := rfl
@[simp] theorem State.wr_routers (f : Field) (v : Nat) : (s.wr f v).routers = s.routers := rfl
@[simp] theorem State.wr_net (f : Field) (v : Nat) : (s.wr f v).net = s.net := rfl
@[simp] theorem State.wr_host (f : Field) (v : Nat) : (s.wr f v).host = s.host := rfl
@[simp] theorem State.wr_parts (f : Field) (v : Nat) : (s.wr f v).parts = s.parts := rfl
@[simp] theorem State.wr_guards (f : Field) (v : Nat) : (s.wr f v).guards = s.guards := rfl
@[simp] theorem State.wr_store (f : Field) (v : Nat) : (s.wr f v).store = s.store := rfl
@[simp] theorem State.wr_tel (f : Field) (v : Nat) : (s.wr f v).tel = s.tel := rfl
@[simp] theorem State.wr_mgmt (f : Field) (v : Nat) : (s.wr f v).mgmt = s.mgmt := rfl
@[simp] theorem State.wr_power (f : Field) (v : Nat) : (s.wr f v).power = s.power := rfl
@[simp] theorem State.wr_rcv (f : Field) (v : Nat) : (s.wr f v).rcv = s.rcv := rfl
@[simp] theorem State.wr_clk (f : Field) (v : Nat) : (s.wr f v).clk = s.clk := rfl
@[simp] theorem State.wr_therm (f : Field) (v : Nat) : (s.wr f v).therm = s.therm := rfl
@[simp] theorem State.wr_links (f : Field) (v : Nat) : (s.wr f v).links = s.links := rfl
@[simp] theorem State.wr_guests (f : Field) (v : Nat) : (s.wr f v).guests = s.guests := rfl
@[simp] theorem State.wr_opt (f : Field) (v : Nat) : (s.wr f v).opt = s.opt := rfl
@[simp] theorem State.wr_jx (f : Field) (v : Nat) : (s.wr f v).jx = s.jx := rfl
@[simp] theorem State.wr_key (f : Field) (v : Nat) : (s.wr f v).key = s.key := rfl
@[simp] theorem State.wr_boot (f : Field) (v : Nat) : (s.wr f v).boot = s.boot := rfl
@[simp] theorem State.wr_ptime (f : Field) (v : Nat) : (s.wr f v).ptime = s.ptime := rfl
@[simp] theorem State.wr_fresh (f : Field) (v : Nat) : (s.wr f v).fresh = s.fresh := rfl
@[simp] theorem State.wr_out (f : Field) (v : Nat) : (s.wr f v).out = s.out := rfl

@[simp] theorem State.rst_pending (f : Field) : (s.rst f).pending = s.pending := rfl
@[simp] theorem State.rst_mem (f : Field) : (s.rst f).mem = s.mem := rfl
@[simp] theorem State.rst_opens (f : Field) : (s.rst f).opens = s.opens := rfl
@[simp] theorem State.rst_ecc (f : Field) : (s.rst f).ecc = s.ecc := rfl
@[simp] theorem State.rst_cores (f : Field) : (s.rst f).cores = s.cores := rfl
@[simp] theorem State.rst_routers (f : Field) : (s.rst f).routers = s.routers := rfl
@[simp] theorem State.rst_net (f : Field) : (s.rst f).net = s.net := rfl
@[simp] theorem State.rst_host (f : Field) : (s.rst f).host = s.host := rfl
@[simp] theorem State.rst_parts (f : Field) : (s.rst f).parts = s.parts := rfl
@[simp] theorem State.rst_guards (f : Field) : (s.rst f).guards = s.guards := rfl
@[simp] theorem State.rst_store (f : Field) : (s.rst f).store = s.store := rfl
@[simp] theorem State.rst_tel (f : Field) : (s.rst f).tel = s.tel := rfl
@[simp] theorem State.rst_mgmt (f : Field) : (s.rst f).mgmt = s.mgmt := rfl
@[simp] theorem State.rst_power (f : Field) : (s.rst f).power = s.power := rfl
@[simp] theorem State.rst_rcv (f : Field) : (s.rst f).rcv = s.rcv := rfl
@[simp] theorem State.rst_clk (f : Field) : (s.rst f).clk = s.clk := rfl
@[simp] theorem State.rst_therm (f : Field) : (s.rst f).therm = s.therm := rfl
@[simp] theorem State.rst_links (f : Field) : (s.rst f).links = s.links := rfl
@[simp] theorem State.rst_guests (f : Field) : (s.rst f).guests = s.guests := rfl
@[simp] theorem State.rst_opt (f : Field) : (s.rst f).opt = s.opt := rfl
@[simp] theorem State.rst_jx (f : Field) : (s.rst f).jx = s.jx := rfl
@[simp] theorem State.rst_key (f : Field) : (s.rst f).key = s.key := rfl
@[simp] theorem State.rst_boot (f : Field) : (s.rst f).boot = s.boot := rfl
@[simp] theorem State.rst_ptime (f : Field) : (s.rst f).ptime = s.ptime := rfl
@[simp] theorem State.rst_fresh (f : Field) : (s.rst f).fresh = s.fresh := rfl
@[simp] theorem State.rst_out (f : Field) : (s.rst f).out = s.out := rfl

@[simp] theorem State.sat_pending (f : Field) (n : Nat) : (s.sat f n).pending = s.pending := rfl
@[simp] theorem State.sat_mem (f : Field) (n : Nat) : (s.sat f n).mem = s.mem := rfl
@[simp] theorem State.sat_opens (f : Field) (n : Nat) : (s.sat f n).opens = s.opens := rfl
@[simp] theorem State.sat_ecc (f : Field) (n : Nat) : (s.sat f n).ecc = s.ecc := rfl
@[simp] theorem State.sat_cores (f : Field) (n : Nat) : (s.sat f n).cores = s.cores := rfl
@[simp] theorem State.sat_routers (f : Field) (n : Nat) : (s.sat f n).routers = s.routers := rfl
@[simp] theorem State.sat_net (f : Field) (n : Nat) : (s.sat f n).net = s.net := rfl
@[simp] theorem State.sat_host (f : Field) (n : Nat) : (s.sat f n).host = s.host := rfl
@[simp] theorem State.sat_parts (f : Field) (n : Nat) : (s.sat f n).parts = s.parts := rfl
@[simp] theorem State.sat_guards (f : Field) (n : Nat) : (s.sat f n).guards = s.guards := rfl
@[simp] theorem State.sat_store (f : Field) (n : Nat) : (s.sat f n).store = s.store := rfl
@[simp] theorem State.sat_tel (f : Field) (n : Nat) : (s.sat f n).tel = s.tel := rfl
@[simp] theorem State.sat_mgmt (f : Field) (n : Nat) : (s.sat f n).mgmt = s.mgmt := rfl
@[simp] theorem State.sat_power (f : Field) (n : Nat) : (s.sat f n).power = s.power := rfl
@[simp] theorem State.sat_rcv (f : Field) (n : Nat) : (s.sat f n).rcv = s.rcv := rfl
@[simp] theorem State.sat_clk (f : Field) (n : Nat) : (s.sat f n).clk = s.clk := rfl
@[simp] theorem State.sat_therm (f : Field) (n : Nat) : (s.sat f n).therm = s.therm := rfl
@[simp] theorem State.sat_links (f : Field) (n : Nat) : (s.sat f n).links = s.links := rfl
@[simp] theorem State.sat_guests (f : Field) (n : Nat) : (s.sat f n).guests = s.guests := rfl
@[simp] theorem State.sat_opt (f : Field) (n : Nat) : (s.sat f n).opt = s.opt := rfl
@[simp] theorem State.sat_jx (f : Field) (n : Nat) : (s.sat f n).jx = s.jx := rfl
@[simp] theorem State.sat_key (f : Field) (n : Nat) : (s.sat f n).key = s.key := rfl
@[simp] theorem State.sat_boot (f : Field) (n : Nat) : (s.sat f n).boot = s.boot := rfl
@[simp] theorem State.sat_ptime (f : Field) (n : Nat) : (s.sat f n).ptime = s.ptime := rfl
@[simp] theorem State.sat_fresh (f : Field) (n : Nat) : (s.sat f n).fresh = s.fresh := rfl
@[simp] theorem State.sat_out (f : Field) (n : Nat) : (s.sat f n).out = s.out := rfl

@[simp] theorem State.wrBit_pending (f : Field) (i : Nat) (b : Bool) : (s.wrBit f i b).pending = s.pending := rfl
@[simp] theorem State.wrBit_mem (f : Field) (i : Nat) (b : Bool) : (s.wrBit f i b).mem = s.mem := rfl
@[simp] theorem State.wrBit_opens (f : Field) (i : Nat) (b : Bool) : (s.wrBit f i b).opens = s.opens := rfl
@[simp] theorem State.wrBit_ecc (f : Field) (i : Nat) (b : Bool) : (s.wrBit f i b).ecc = s.ecc := rfl
@[simp] theorem State.wrBit_cores (f : Field) (i : Nat) (b : Bool) : (s.wrBit f i b).cores = s.cores := rfl
@[simp] theorem State.wrBit_routers (f : Field) (i : Nat) (b : Bool) : (s.wrBit f i b).routers = s.routers := rfl
@[simp] theorem State.wrBit_net (f : Field) (i : Nat) (b : Bool) : (s.wrBit f i b).net = s.net := rfl
@[simp] theorem State.wrBit_host (f : Field) (i : Nat) (b : Bool) : (s.wrBit f i b).host = s.host := rfl
@[simp] theorem State.wrBit_parts (f : Field) (i : Nat) (b : Bool) : (s.wrBit f i b).parts = s.parts := rfl
@[simp] theorem State.wrBit_guards (f : Field) (i : Nat) (b : Bool) : (s.wrBit f i b).guards = s.guards := rfl
@[simp] theorem State.wrBit_store (f : Field) (i : Nat) (b : Bool) : (s.wrBit f i b).store = s.store := rfl
@[simp] theorem State.wrBit_tel (f : Field) (i : Nat) (b : Bool) : (s.wrBit f i b).tel = s.tel := rfl
@[simp] theorem State.wrBit_mgmt (f : Field) (i : Nat) (b : Bool) : (s.wrBit f i b).mgmt = s.mgmt := rfl
@[simp] theorem State.wrBit_power (f : Field) (i : Nat) (b : Bool) : (s.wrBit f i b).power = s.power := rfl
@[simp] theorem State.wrBit_rcv (f : Field) (i : Nat) (b : Bool) : (s.wrBit f i b).rcv = s.rcv := rfl
@[simp] theorem State.wrBit_clk (f : Field) (i : Nat) (b : Bool) : (s.wrBit f i b).clk = s.clk := rfl
@[simp] theorem State.wrBit_therm (f : Field) (i : Nat) (b : Bool) : (s.wrBit f i b).therm = s.therm := rfl
@[simp] theorem State.wrBit_links (f : Field) (i : Nat) (b : Bool) : (s.wrBit f i b).links = s.links := rfl
@[simp] theorem State.wrBit_guests (f : Field) (i : Nat) (b : Bool) : (s.wrBit f i b).guests = s.guests := rfl
@[simp] theorem State.wrBit_opt (f : Field) (i : Nat) (b : Bool) : (s.wrBit f i b).opt = s.opt := rfl
@[simp] theorem State.wrBit_jx (f : Field) (i : Nat) (b : Bool) : (s.wrBit f i b).jx = s.jx := rfl
@[simp] theorem State.wrBit_key (f : Field) (i : Nat) (b : Bool) : (s.wrBit f i b).key = s.key := rfl
@[simp] theorem State.wrBit_boot (f : Field) (i : Nat) (b : Bool) : (s.wrBit f i b).boot = s.boot := rfl
@[simp] theorem State.wrBit_ptime (f : Field) (i : Nat) (b : Bool) : (s.wrBit f i b).ptime = s.ptime := rfl
@[simp] theorem State.wrBit_fresh (f : Field) (i : Nat) (b : Bool) : (s.wrBit f i b).fresh = s.fresh := rfl
@[simp] theorem State.wrBit_out (f : Field) (i : Nat) (b : Bool) : (s.wrBit f i b).out = s.out := rfl

@[simp] theorem State.emit_pending (o : Out) : (s.emit o).pending = s.pending := rfl
@[simp] theorem State.emit_regs (o : Out) : (s.emit o).regs = s.regs := rfl
@[simp] theorem State.emit_mem (o : Out) : (s.emit o).mem = s.mem := rfl
@[simp] theorem State.emit_opens (o : Out) : (s.emit o).opens = s.opens := rfl
@[simp] theorem State.emit_ecc (o : Out) : (s.emit o).ecc = s.ecc := rfl
@[simp] theorem State.emit_cores (o : Out) : (s.emit o).cores = s.cores := rfl
@[simp] theorem State.emit_routers (o : Out) : (s.emit o).routers = s.routers := rfl
@[simp] theorem State.emit_net (o : Out) : (s.emit o).net = s.net := rfl
@[simp] theorem State.emit_host (o : Out) : (s.emit o).host = s.host := rfl
@[simp] theorem State.emit_parts (o : Out) : (s.emit o).parts = s.parts := rfl
@[simp] theorem State.emit_guards (o : Out) : (s.emit o).guards = s.guards := rfl
@[simp] theorem State.emit_store (o : Out) : (s.emit o).store = s.store := rfl
@[simp] theorem State.emit_tel (o : Out) : (s.emit o).tel = s.tel := rfl
@[simp] theorem State.emit_mgmt (o : Out) : (s.emit o).mgmt = s.mgmt := rfl
@[simp] theorem State.emit_power (o : Out) : (s.emit o).power = s.power := rfl
@[simp] theorem State.emit_rcv (o : Out) : (s.emit o).rcv = s.rcv := rfl
@[simp] theorem State.emit_clk (o : Out) : (s.emit o).clk = s.clk := rfl
@[simp] theorem State.emit_therm (o : Out) : (s.emit o).therm = s.therm := rfl
@[simp] theorem State.emit_links (o : Out) : (s.emit o).links = s.links := rfl
@[simp] theorem State.emit_guests (o : Out) : (s.emit o).guests = s.guests := rfl
@[simp] theorem State.emit_opt (o : Out) : (s.emit o).opt = s.opt := rfl
@[simp] theorem State.emit_jx (o : Out) : (s.emit o).jx = s.jx := rfl
@[simp] theorem State.emit_key (o : Out) : (s.emit o).key = s.key := rfl
@[simp] theorem State.emit_boot (o : Out) : (s.emit o).boot = s.boot := rfl
@[simp] theorem State.emit_ptime (o : Out) : (s.emit o).ptime = s.ptime := rfl
@[simp] theorem State.emit_fresh (o : Out) : (s.emit o).fresh = s.fresh := rfl

@[simp] theorem State.updHost_pending (f : HostSide → HostSide) : (s.updHost f).pending = s.pending := rfl
@[simp] theorem State.updHost_regs (f : HostSide → HostSide) : (s.updHost f).regs = s.regs := rfl
@[simp] theorem State.updHost_mem (f : HostSide → HostSide) : (s.updHost f).mem = s.mem := rfl
@[simp] theorem State.updHost_opens (f : HostSide → HostSide) : (s.updHost f).opens = s.opens := rfl
@[simp] theorem State.updHost_ecc (f : HostSide → HostSide) : (s.updHost f).ecc = s.ecc := rfl
@[simp] theorem State.updHost_cores (f : HostSide → HostSide) : (s.updHost f).cores = s.cores := rfl
@[simp] theorem State.updHost_routers (f : HostSide → HostSide) : (s.updHost f).routers = s.routers := rfl
@[simp] theorem State.updHost_net (f : HostSide → HostSide) : (s.updHost f).net = s.net := rfl
@[simp] theorem State.updHost_parts (f : HostSide → HostSide) : (s.updHost f).parts = s.parts := rfl
@[simp] theorem State.updHost_guards (f : HostSide → HostSide) : (s.updHost f).guards = s.guards := rfl
@[simp] theorem State.updHost_store (f : HostSide → HostSide) : (s.updHost f).store = s.store := rfl
@[simp] theorem State.updHost_tel (f : HostSide → HostSide) : (s.updHost f).tel = s.tel := rfl
@[simp] theorem State.updHost_mgmt (f : HostSide → HostSide) : (s.updHost f).mgmt = s.mgmt := rfl
@[simp] theorem State.updHost_power (f : HostSide → HostSide) : (s.updHost f).power = s.power := rfl
@[simp] theorem State.updHost_rcv (f : HostSide → HostSide) : (s.updHost f).rcv = s.rcv := rfl
@[simp] theorem State.updHost_clk (f : HostSide → HostSide) : (s.updHost f).clk = s.clk := rfl
@[simp] theorem State.updHost_therm (f : HostSide → HostSide) : (s.updHost f).therm = s.therm := rfl
@[simp] theorem State.updHost_links (f : HostSide → HostSide) : (s.updHost f).links = s.links := rfl
@[simp] theorem State.updHost_guests (f : HostSide → HostSide) : (s.updHost f).guests = s.guests := rfl
@[simp] theorem State.updHost_opt (f : HostSide → HostSide) : (s.updHost f).opt = s.opt := rfl
@[simp] theorem State.updHost_jx (f : HostSide → HostSide) : (s.updHost f).jx = s.jx := rfl
@[simp] theorem State.updHost_key (f : HostSide → HostSide) : (s.updHost f).key = s.key := rfl
@[simp] theorem State.updHost_boot (f : HostSide → HostSide) : (s.updHost f).boot = s.boot := rfl
@[simp] theorem State.updHost_ptime (f : HostSide → HostSide) : (s.updHost f).ptime = s.ptime := rfl
@[simp] theorem State.updHost_fresh (f : HostSide → HostSide) : (s.updHost f).fresh = s.fresh := rfl
@[simp] theorem State.updHost_out (f : HostSide → HostSide) : (s.updHost f).out = s.out := rfl

@[simp] theorem State.updNet_pending (f : Net → Net) : (s.updNet f).pending = s.pending := rfl
@[simp] theorem State.updNet_regs (f : Net → Net) : (s.updNet f).regs = s.regs := rfl
@[simp] theorem State.updNet_mem (f : Net → Net) : (s.updNet f).mem = s.mem := rfl
@[simp] theorem State.updNet_opens (f : Net → Net) : (s.updNet f).opens = s.opens := rfl
@[simp] theorem State.updNet_ecc (f : Net → Net) : (s.updNet f).ecc = s.ecc := rfl
@[simp] theorem State.updNet_cores (f : Net → Net) : (s.updNet f).cores = s.cores := rfl
@[simp] theorem State.updNet_routers (f : Net → Net) : (s.updNet f).routers = s.routers := rfl
@[simp] theorem State.updNet_host (f : Net → Net) : (s.updNet f).host = s.host := rfl
@[simp] theorem State.updNet_parts (f : Net → Net) : (s.updNet f).parts = s.parts := rfl
@[simp] theorem State.updNet_guards (f : Net → Net) : (s.updNet f).guards = s.guards := rfl
@[simp] theorem State.updNet_store (f : Net → Net) : (s.updNet f).store = s.store := rfl
@[simp] theorem State.updNet_tel (f : Net → Net) : (s.updNet f).tel = s.tel := rfl
@[simp] theorem State.updNet_mgmt (f : Net → Net) : (s.updNet f).mgmt = s.mgmt := rfl
@[simp] theorem State.updNet_power (f : Net → Net) : (s.updNet f).power = s.power := rfl
@[simp] theorem State.updNet_rcv (f : Net → Net) : (s.updNet f).rcv = s.rcv := rfl
@[simp] theorem State.updNet_clk (f : Net → Net) : (s.updNet f).clk = s.clk := rfl
@[simp] theorem State.updNet_therm (f : Net → Net) : (s.updNet f).therm = s.therm := rfl
@[simp] theorem State.updNet_links (f : Net → Net) : (s.updNet f).links = s.links := rfl
@[simp] theorem State.updNet_guests (f : Net → Net) : (s.updNet f).guests = s.guests := rfl
@[simp] theorem State.updNet_opt (f : Net → Net) : (s.updNet f).opt = s.opt := rfl
@[simp] theorem State.updNet_jx (f : Net → Net) : (s.updNet f).jx = s.jx := rfl
@[simp] theorem State.updNet_key (f : Net → Net) : (s.updNet f).key = s.key := rfl
@[simp] theorem State.updNet_boot (f : Net → Net) : (s.updNet f).boot = s.boot := rfl
@[simp] theorem State.updNet_ptime (f : Net → Net) : (s.updNet f).ptime = s.ptime := rfl
@[simp] theorem State.updNet_fresh (f : Net → Net) : (s.updNet f).fresh = s.fresh := rfl
@[simp] theorem State.updNet_out (f : Net → Net) : (s.updNet f).out = s.out := rfl

@[simp] theorem State.setNode_pending (n : Nat) (x : Node) : (s.setNode n x).pending = s.pending := rfl
@[simp] theorem State.setNode_regs (n : Nat) (x : Node) : (s.setNode n x).regs = s.regs := rfl
@[simp] theorem State.setNode_mem (n : Nat) (x : Node) : (s.setNode n x).mem = s.mem := rfl
@[simp] theorem State.setNode_opens (n : Nat) (x : Node) : (s.setNode n x).opens = s.opens := rfl
@[simp] theorem State.setNode_ecc (n : Nat) (x : Node) : (s.setNode n x).ecc = s.ecc := rfl
@[simp] theorem State.setNode_cores (n : Nat) (x : Node) : (s.setNode n x).cores = s.cores := rfl
@[simp] theorem State.setNode_routers (n : Nat) (x : Node) : (s.setNode n x).routers = s.routers := rfl
@[simp] theorem State.setNode_host (n : Nat) (x : Node) : (s.setNode n x).host = s.host := rfl
@[simp] theorem State.setNode_parts (n : Nat) (x : Node) : (s.setNode n x).parts = s.parts := rfl
@[simp] theorem State.setNode_guards (n : Nat) (x : Node) : (s.setNode n x).guards = s.guards := rfl
@[simp] theorem State.setNode_store (n : Nat) (x : Node) : (s.setNode n x).store = s.store := rfl
@[simp] theorem State.setNode_tel (n : Nat) (x : Node) : (s.setNode n x).tel = s.tel := rfl
@[simp] theorem State.setNode_mgmt (n : Nat) (x : Node) : (s.setNode n x).mgmt = s.mgmt := rfl
@[simp] theorem State.setNode_power (n : Nat) (x : Node) : (s.setNode n x).power = s.power := rfl
@[simp] theorem State.setNode_rcv (n : Nat) (x : Node) : (s.setNode n x).rcv = s.rcv := rfl
@[simp] theorem State.setNode_clk (n : Nat) (x : Node) : (s.setNode n x).clk = s.clk := rfl
@[simp] theorem State.setNode_therm (n : Nat) (x : Node) : (s.setNode n x).therm = s.therm := rfl
@[simp] theorem State.setNode_links (n : Nat) (x : Node) : (s.setNode n x).links = s.links := rfl
@[simp] theorem State.setNode_guests (n : Nat) (x : Node) : (s.setNode n x).guests = s.guests := rfl
@[simp] theorem State.setNode_opt (n : Nat) (x : Node) : (s.setNode n x).opt = s.opt := rfl
@[simp] theorem State.setNode_jx (n : Nat) (x : Node) : (s.setNode n x).jx = s.jx := rfl
@[simp] theorem State.setNode_key (n : Nat) (x : Node) : (s.setNode n x).key = s.key := rfl
@[simp] theorem State.setNode_boot (n : Nat) (x : Node) : (s.setNode n x).boot = s.boot := rfl
@[simp] theorem State.setNode_ptime (n : Nat) (x : Node) : (s.setNode n x).ptime = s.ptime := rfl
@[simp] theorem State.setNode_fresh (n : Nat) (x : Node) : (s.setNode n x).fresh = s.fresh := rfl
@[simp] theorem State.setNode_out (n : Nat) (x : Node) : (s.setNode n x).out = s.out := rfl

@[simp] theorem State.updNode_pending (n : Nat) (f : Node → Node) : (s.updNode n f).pending = s.pending := rfl
@[simp] theorem State.updNode_regs (n : Nat) (f : Node → Node) : (s.updNode n f).regs = s.regs := rfl
@[simp] theorem State.updNode_mem (n : Nat) (f : Node → Node) : (s.updNode n f).mem = s.mem := rfl
@[simp] theorem State.updNode_opens (n : Nat) (f : Node → Node) : (s.updNode n f).opens = s.opens := rfl
@[simp] theorem State.updNode_ecc (n : Nat) (f : Node → Node) : (s.updNode n f).ecc = s.ecc := rfl
@[simp] theorem State.updNode_cores (n : Nat) (f : Node → Node) : (s.updNode n f).cores = s.cores := rfl
@[simp] theorem State.updNode_routers (n : Nat) (f : Node → Node) : (s.updNode n f).routers = s.routers := rfl
@[simp] theorem State.updNode_host (n : Nat) (f : Node → Node) : (s.updNode n f).host = s.host := rfl
@[simp] theorem State.updNode_parts (n : Nat) (f : Node → Node) : (s.updNode n f).parts = s.parts := rfl
@[simp] theorem State.updNode_guards (n : Nat) (f : Node → Node) : (s.updNode n f).guards = s.guards := rfl
@[simp] theorem State.updNode_store (n : Nat) (f : Node → Node) : (s.updNode n f).store = s.store := rfl
@[simp] theorem State.updNode_tel (n : Nat) (f : Node → Node) : (s.updNode n f).tel = s.tel := rfl
@[simp] theorem State.updNode_mgmt (n : Nat) (f : Node → Node) : (s.updNode n f).mgmt = s.mgmt := rfl
@[simp] theorem State.updNode_power (n : Nat) (f : Node → Node) : (s.updNode n f).power = s.power := rfl
@[simp] theorem State.updNode_rcv (n : Nat) (f : Node → Node) : (s.updNode n f).rcv = s.rcv := rfl
@[simp] theorem State.updNode_clk (n : Nat) (f : Node → Node) : (s.updNode n f).clk = s.clk := rfl
@[simp] theorem State.updNode_therm (n : Nat) (f : Node → Node) : (s.updNode n f).therm = s.therm := rfl
@[simp] theorem State.updNode_links (n : Nat) (f : Node → Node) : (s.updNode n f).links = s.links := rfl
@[simp] theorem State.updNode_guests (n : Nat) (f : Node → Node) : (s.updNode n f).guests = s.guests := rfl
@[simp] theorem State.updNode_opt (n : Nat) (f : Node → Node) : (s.updNode n f).opt = s.opt := rfl
@[simp] theorem State.updNode_jx (n : Nat) (f : Node → Node) : (s.updNode n f).jx = s.jx := rfl
@[simp] theorem State.updNode_key (n : Nat) (f : Node → Node) : (s.updNode n f).key = s.key := rfl
@[simp] theorem State.updNode_boot (n : Nat) (f : Node → Node) : (s.updNode n f).boot = s.boot := rfl
@[simp] theorem State.updNode_ptime (n : Nat) (f : Node → Node) : (s.updNode n f).ptime = s.ptime := rfl
@[simp] theorem State.updNode_fresh (n : Nat) (f : Node → Node) : (s.updNode n f).fresh = s.fresh := rfl
@[simp] theorem State.updNode_out (n : Nat) (f : Node → Node) : (s.updNode n f).out = s.out := rfl

@[simp] theorem State.setCore_pending (c : Nat) (k : Core) : (s.setCore c k).pending = s.pending := rfl
@[simp] theorem State.setCore_regs (c : Nat) (k : Core) : (s.setCore c k).regs = s.regs := rfl
@[simp] theorem State.setCore_mem (c : Nat) (k : Core) : (s.setCore c k).mem = s.mem := rfl
@[simp] theorem State.setCore_opens (c : Nat) (k : Core) : (s.setCore c k).opens = s.opens := rfl
@[simp] theorem State.setCore_ecc (c : Nat) (k : Core) : (s.setCore c k).ecc = s.ecc := rfl
@[simp] theorem State.setCore_routers (c : Nat) (k : Core) : (s.setCore c k).routers = s.routers := rfl
@[simp] theorem State.setCore_net (c : Nat) (k : Core) : (s.setCore c k).net = s.net := rfl
@[simp] theorem State.setCore_host (c : Nat) (k : Core) : (s.setCore c k).host = s.host := rfl
@[simp] theorem State.setCore_parts (c : Nat) (k : Core) : (s.setCore c k).parts = s.parts := rfl
@[simp] theorem State.setCore_guards (c : Nat) (k : Core) : (s.setCore c k).guards = s.guards := rfl
@[simp] theorem State.setCore_store (c : Nat) (k : Core) : (s.setCore c k).store = s.store := rfl
@[simp] theorem State.setCore_tel (c : Nat) (k : Core) : (s.setCore c k).tel = s.tel := rfl
@[simp] theorem State.setCore_mgmt (c : Nat) (k : Core) : (s.setCore c k).mgmt = s.mgmt := rfl
@[simp] theorem State.setCore_power (c : Nat) (k : Core) : (s.setCore c k).power = s.power := rfl
@[simp] theorem State.setCore_rcv (c : Nat) (k : Core) : (s.setCore c k).rcv = s.rcv := rfl
@[simp] theorem State.setCore_clk (c : Nat) (k : Core) : (s.setCore c k).clk = s.clk := rfl
@[simp] theorem State.setCore_therm (c : Nat) (k : Core) : (s.setCore c k).therm = s.therm := rfl
@[simp] theorem State.setCore_links (c : Nat) (k : Core) : (s.setCore c k).links = s.links := rfl
@[simp] theorem State.setCore_guests (c : Nat) (k : Core) : (s.setCore c k).guests = s.guests := rfl
@[simp] theorem State.setCore_opt (c : Nat) (k : Core) : (s.setCore c k).opt = s.opt := rfl
@[simp] theorem State.setCore_jx (c : Nat) (k : Core) : (s.setCore c k).jx = s.jx := rfl
@[simp] theorem State.setCore_key (c : Nat) (k : Core) : (s.setCore c k).key = s.key := rfl
@[simp] theorem State.setCore_boot (c : Nat) (k : Core) : (s.setCore c k).boot = s.boot := rfl
@[simp] theorem State.setCore_ptime (c : Nat) (k : Core) : (s.setCore c k).ptime = s.ptime := rfl
@[simp] theorem State.setCore_fresh (c : Nat) (k : Core) : (s.setCore c k).fresh = s.fresh := rfl
@[simp] theorem State.setCore_out (c : Nat) (k : Core) : (s.setCore c k).out = s.out := rfl

@[simp] theorem State.updCore_pending (c : Nat) (f : Core → Core) : (s.updCore c f).pending = s.pending := rfl
@[simp] theorem State.updCore_regs (c : Nat) (f : Core → Core) : (s.updCore c f).regs = s.regs := rfl
@[simp] theorem State.updCore_mem (c : Nat) (f : Core → Core) : (s.updCore c f).mem = s.mem := rfl
@[simp] theorem State.updCore_opens (c : Nat) (f : Core → Core) : (s.updCore c f).opens = s.opens := rfl
@[simp] theorem State.updCore_ecc (c : Nat) (f : Core → Core) : (s.updCore c f).ecc = s.ecc := rfl
@[simp] theorem State.updCore_routers (c : Nat) (f : Core → Core) : (s.updCore c f).routers = s.routers := rfl
@[simp] theorem State.updCore_net (c : Nat) (f : Core → Core) : (s.updCore c f).net = s.net := rfl
@[simp] theorem State.updCore_host (c : Nat) (f : Core → Core) : (s.updCore c f).host = s.host := rfl
@[simp] theorem State.updCore_parts (c : Nat) (f : Core → Core) : (s.updCore c f).parts = s.parts := rfl
@[simp] theorem State.updCore_guards (c : Nat) (f : Core → Core) : (s.updCore c f).guards = s.guards := rfl
@[simp] theorem State.updCore_store (c : Nat) (f : Core → Core) : (s.updCore c f).store = s.store := rfl
@[simp] theorem State.updCore_tel (c : Nat) (f : Core → Core) : (s.updCore c f).tel = s.tel := rfl
@[simp] theorem State.updCore_mgmt (c : Nat) (f : Core → Core) : (s.updCore c f).mgmt = s.mgmt := rfl
@[simp] theorem State.updCore_power (c : Nat) (f : Core → Core) : (s.updCore c f).power = s.power := rfl
@[simp] theorem State.updCore_rcv (c : Nat) (f : Core → Core) : (s.updCore c f).rcv = s.rcv := rfl
@[simp] theorem State.updCore_clk (c : Nat) (f : Core → Core) : (s.updCore c f).clk = s.clk := rfl
@[simp] theorem State.updCore_therm (c : Nat) (f : Core → Core) : (s.updCore c f).therm = s.therm := rfl
@[simp] theorem State.updCore_links (c : Nat) (f : Core → Core) : (s.updCore c f).links = s.links := rfl
@[simp] theorem State.updCore_guests (c : Nat) (f : Core → Core) : (s.updCore c f).guests = s.guests := rfl
@[simp] theorem State.updCore_opt (c : Nat) (f : Core → Core) : (s.updCore c f).opt = s.opt := rfl
@[simp] theorem State.updCore_jx (c : Nat) (f : Core → Core) : (s.updCore c f).jx = s.jx := rfl
@[simp] theorem State.updCore_key (c : Nat) (f : Core → Core) : (s.updCore c f).key = s.key := rfl
@[simp] theorem State.updCore_boot (c : Nat) (f : Core → Core) : (s.updCore c f).boot = s.boot := rfl
@[simp] theorem State.updCore_ptime (c : Nat) (f : Core → Core) : (s.updCore c f).ptime = s.ptime := rfl
@[simp] theorem State.updCore_fresh (c : Nat) (f : Core → Core) : (s.updCore c f).fresh = s.fresh := rfl
@[simp] theorem State.updCore_out (c : Nat) (f : Core → Core) : (s.updCore c f).out = s.out := rfl

@[simp] theorem State.setTask_pending (c i : Nat) (t : Task) : (s.setTask c i t).pending = s.pending := rfl
@[simp] theorem State.setTask_regs (c i : Nat) (t : Task) : (s.setTask c i t).regs = s.regs := rfl
@[simp] theorem State.setTask_mem (c i : Nat) (t : Task) : (s.setTask c i t).mem = s.mem := rfl
@[simp] theorem State.setTask_opens (c i : Nat) (t : Task) : (s.setTask c i t).opens = s.opens := rfl
@[simp] theorem State.setTask_ecc (c i : Nat) (t : Task) : (s.setTask c i t).ecc = s.ecc := rfl
@[simp] theorem State.setTask_routers (c i : Nat) (t : Task) : (s.setTask c i t).routers = s.routers := rfl
@[simp] theorem State.setTask_net (c i : Nat) (t : Task) : (s.setTask c i t).net = s.net := rfl
@[simp] theorem State.setTask_host (c i : Nat) (t : Task) : (s.setTask c i t).host = s.host := rfl
@[simp] theorem State.setTask_parts (c i : Nat) (t : Task) : (s.setTask c i t).parts = s.parts := rfl
@[simp] theorem State.setTask_guards (c i : Nat) (t : Task) : (s.setTask c i t).guards = s.guards := rfl
@[simp] theorem State.setTask_store (c i : Nat) (t : Task) : (s.setTask c i t).store = s.store := rfl
@[simp] theorem State.setTask_tel (c i : Nat) (t : Task) : (s.setTask c i t).tel = s.tel := rfl
@[simp] theorem State.setTask_mgmt (c i : Nat) (t : Task) : (s.setTask c i t).mgmt = s.mgmt := rfl
@[simp] theorem State.setTask_power (c i : Nat) (t : Task) : (s.setTask c i t).power = s.power := rfl
@[simp] theorem State.setTask_rcv (c i : Nat) (t : Task) : (s.setTask c i t).rcv = s.rcv := rfl
@[simp] theorem State.setTask_clk (c i : Nat) (t : Task) : (s.setTask c i t).clk = s.clk := rfl
@[simp] theorem State.setTask_therm (c i : Nat) (t : Task) : (s.setTask c i t).therm = s.therm := rfl
@[simp] theorem State.setTask_links (c i : Nat) (t : Task) : (s.setTask c i t).links = s.links := rfl
@[simp] theorem State.setTask_guests (c i : Nat) (t : Task) : (s.setTask c i t).guests = s.guests := rfl
@[simp] theorem State.setTask_opt (c i : Nat) (t : Task) : (s.setTask c i t).opt = s.opt := rfl
@[simp] theorem State.setTask_jx (c i : Nat) (t : Task) : (s.setTask c i t).jx = s.jx := rfl
@[simp] theorem State.setTask_key (c i : Nat) (t : Task) : (s.setTask c i t).key = s.key := rfl
@[simp] theorem State.setTask_boot (c i : Nat) (t : Task) : (s.setTask c i t).boot = s.boot := rfl
@[simp] theorem State.setTask_ptime (c i : Nat) (t : Task) : (s.setTask c i t).ptime = s.ptime := rfl
@[simp] theorem State.setTask_fresh (c i : Nat) (t : Task) : (s.setTask c i t).fresh = s.fresh := rfl
@[simp] theorem State.setTask_out (c i : Nat) (t : Task) : (s.setTask c i t).out = s.out := rfl

@[simp] theorem State.updTask_pending (c i : Nat) (f : Task → Task) : (s.updTask c i f).pending = s.pending := rfl
@[simp] theorem State.updTask_regs (c i : Nat) (f : Task → Task) : (s.updTask c i f).regs = s.regs := rfl
@[simp] theorem State.updTask_mem (c i : Nat) (f : Task → Task) : (s.updTask c i f).mem = s.mem := rfl
@[simp] theorem State.updTask_opens (c i : Nat) (f : Task → Task) : (s.updTask c i f).opens = s.opens := rfl
@[simp] theorem State.updTask_ecc (c i : Nat) (f : Task → Task) : (s.updTask c i f).ecc = s.ecc := rfl
@[simp] theorem State.updTask_routers (c i : Nat) (f : Task → Task) : (s.updTask c i f).routers = s.routers := rfl
@[simp] theorem State.updTask_net (c i : Nat) (f : Task → Task) : (s.updTask c i f).net = s.net := rfl
@[simp] theorem State.updTask_host (c i : Nat) (f : Task → Task) : (s.updTask c i f).host = s.host := rfl
@[simp] theorem State.updTask_parts (c i : Nat) (f : Task → Task) : (s.updTask c i f).parts = s.parts := rfl
@[simp] theorem State.updTask_guards (c i : Nat) (f : Task → Task) : (s.updTask c i f).guards = s.guards := rfl
@[simp] theorem State.updTask_store (c i : Nat) (f : Task → Task) : (s.updTask c i f).store = s.store := rfl
@[simp] theorem State.updTask_tel (c i : Nat) (f : Task → Task) : (s.updTask c i f).tel = s.tel := rfl
@[simp] theorem State.updTask_mgmt (c i : Nat) (f : Task → Task) : (s.updTask c i f).mgmt = s.mgmt := rfl
@[simp] theorem State.updTask_power (c i : Nat) (f : Task → Task) : (s.updTask c i f).power = s.power := rfl
@[simp] theorem State.updTask_rcv (c i : Nat) (f : Task → Task) : (s.updTask c i f).rcv = s.rcv := rfl
@[simp] theorem State.updTask_clk (c i : Nat) (f : Task → Task) : (s.updTask c i f).clk = s.clk := rfl
@[simp] theorem State.updTask_therm (c i : Nat) (f : Task → Task) : (s.updTask c i f).therm = s.therm := rfl
@[simp] theorem State.updTask_links (c i : Nat) (f : Task → Task) : (s.updTask c i f).links = s.links := rfl
@[simp] theorem State.updTask_guests (c i : Nat) (f : Task → Task) : (s.updTask c i f).guests = s.guests := rfl
@[simp] theorem State.updTask_opt (c i : Nat) (f : Task → Task) : (s.updTask c i f).opt = s.opt := rfl
@[simp] theorem State.updTask_jx (c i : Nat) (f : Task → Task) : (s.updTask c i f).jx = s.jx := rfl
@[simp] theorem State.updTask_key (c i : Nat) (f : Task → Task) : (s.updTask c i f).key = s.key := rfl
@[simp] theorem State.updTask_boot (c i : Nat) (f : Task → Task) : (s.updTask c i f).boot = s.boot := rfl
@[simp] theorem State.updTask_ptime (c i : Nat) (f : Task → Task) : (s.updTask c i f).ptime = s.ptime := rfl
@[simp] theorem State.updTask_fresh (c i : Nat) (f : Task → Task) : (s.updTask c i f).fresh = s.fresh := rfl
@[simp] theorem State.updTask_out (c i : Nat) (f : Task → Task) : (s.updTask c i f).out = s.out := rfl

@[simp] theorem State.setRouter_pending (c : Nat) (r : Router) : (s.setRouter c r).pending = s.pending := rfl
@[simp] theorem State.setRouter_regs (c : Nat) (r : Router) : (s.setRouter c r).regs = s.regs := rfl
@[simp] theorem State.setRouter_mem (c : Nat) (r : Router) : (s.setRouter c r).mem = s.mem := rfl
@[simp] theorem State.setRouter_opens (c : Nat) (r : Router) : (s.setRouter c r).opens = s.opens := rfl
@[simp] theorem State.setRouter_ecc (c : Nat) (r : Router) : (s.setRouter c r).ecc = s.ecc := rfl
@[simp] theorem State.setRouter_cores (c : Nat) (r : Router) : (s.setRouter c r).cores = s.cores := rfl
@[simp] theorem State.setRouter_net (c : Nat) (r : Router) : (s.setRouter c r).net = s.net := rfl
@[simp] theorem State.setRouter_host (c : Nat) (r : Router) : (s.setRouter c r).host = s.host := rfl
@[simp] theorem State.setRouter_parts (c : Nat) (r : Router) : (s.setRouter c r).parts = s.parts := rfl
@[simp] theorem State.setRouter_guards (c : Nat) (r : Router) : (s.setRouter c r).guards = s.guards := rfl
@[simp] theorem State.setRouter_store (c : Nat) (r : Router) : (s.setRouter c r).store = s.store := rfl
@[simp] theorem State.setRouter_tel (c : Nat) (r : Router) : (s.setRouter c r).tel = s.tel := rfl
@[simp] theorem State.setRouter_mgmt (c : Nat) (r : Router) : (s.setRouter c r).mgmt = s.mgmt := rfl
@[simp] theorem State.setRouter_power (c : Nat) (r : Router) : (s.setRouter c r).power = s.power := rfl
@[simp] theorem State.setRouter_rcv (c : Nat) (r : Router) : (s.setRouter c r).rcv = s.rcv := rfl
@[simp] theorem State.setRouter_clk (c : Nat) (r : Router) : (s.setRouter c r).clk = s.clk := rfl
@[simp] theorem State.setRouter_therm (c : Nat) (r : Router) : (s.setRouter c r).therm = s.therm := rfl
@[simp] theorem State.setRouter_links (c : Nat) (r : Router) : (s.setRouter c r).links = s.links := rfl
@[simp] theorem State.setRouter_guests (c : Nat) (r : Router) : (s.setRouter c r).guests = s.guests := rfl
@[simp] theorem State.setRouter_opt (c : Nat) (r : Router) : (s.setRouter c r).opt = s.opt := rfl
@[simp] theorem State.setRouter_jx (c : Nat) (r : Router) : (s.setRouter c r).jx = s.jx := rfl
@[simp] theorem State.setRouter_key (c : Nat) (r : Router) : (s.setRouter c r).key = s.key := rfl
@[simp] theorem State.setRouter_boot (c : Nat) (r : Router) : (s.setRouter c r).boot = s.boot := rfl
@[simp] theorem State.setRouter_ptime (c : Nat) (r : Router) : (s.setRouter c r).ptime = s.ptime := rfl
@[simp] theorem State.setRouter_fresh (c : Nat) (r : Router) : (s.setRouter c r).fresh = s.fresh := rfl
@[simp] theorem State.setRouter_out (c : Nat) (r : Router) : (s.setRouter c r).out = s.out := rfl

@[simp] theorem State.updRouter_pending (c : Nat) (f : Router → Router) : (s.updRouter c f).pending = s.pending := rfl
@[simp] theorem State.updRouter_regs (c : Nat) (f : Router → Router) : (s.updRouter c f).regs = s.regs := rfl
@[simp] theorem State.updRouter_mem (c : Nat) (f : Router → Router) : (s.updRouter c f).mem = s.mem := rfl
@[simp] theorem State.updRouter_opens (c : Nat) (f : Router → Router) : (s.updRouter c f).opens = s.opens := rfl
@[simp] theorem State.updRouter_ecc (c : Nat) (f : Router → Router) : (s.updRouter c f).ecc = s.ecc := rfl
@[simp] theorem State.updRouter_cores (c : Nat) (f : Router → Router) : (s.updRouter c f).cores = s.cores := rfl
@[simp] theorem State.updRouter_net (c : Nat) (f : Router → Router) : (s.updRouter c f).net = s.net := rfl
@[simp] theorem State.updRouter_host (c : Nat) (f : Router → Router) : (s.updRouter c f).host = s.host := rfl
@[simp] theorem State.updRouter_parts (c : Nat) (f : Router → Router) : (s.updRouter c f).parts = s.parts := rfl
@[simp] theorem State.updRouter_guards (c : Nat) (f : Router → Router) : (s.updRouter c f).guards = s.guards := rfl
@[simp] theorem State.updRouter_store (c : Nat) (f : Router → Router) : (s.updRouter c f).store = s.store := rfl
@[simp] theorem State.updRouter_tel (c : Nat) (f : Router → Router) : (s.updRouter c f).tel = s.tel := rfl
@[simp] theorem State.updRouter_mgmt (c : Nat) (f : Router → Router) : (s.updRouter c f).mgmt = s.mgmt := rfl
@[simp] theorem State.updRouter_power (c : Nat) (f : Router → Router) : (s.updRouter c f).power = s.power := rfl
@[simp] theorem State.updRouter_rcv (c : Nat) (f : Router → Router) : (s.updRouter c f).rcv = s.rcv := rfl
@[simp] theorem State.updRouter_clk (c : Nat) (f : Router → Router) : (s.updRouter c f).clk = s.clk := rfl
@[simp] theorem State.updRouter_therm (c : Nat) (f : Router → Router) : (s.updRouter c f).therm = s.therm := rfl
@[simp] theorem State.updRouter_links (c : Nat) (f : Router → Router) : (s.updRouter c f).links = s.links := rfl
@[simp] theorem State.updRouter_guests (c : Nat) (f : Router → Router) : (s.updRouter c f).guests = s.guests := rfl
@[simp] theorem State.updRouter_opt (c : Nat) (f : Router → Router) : (s.updRouter c f).opt = s.opt := rfl
@[simp] theorem State.updRouter_jx (c : Nat) (f : Router → Router) : (s.updRouter c f).jx = s.jx := rfl
@[simp] theorem State.updRouter_key (c : Nat) (f : Router → Router) : (s.updRouter c f).key = s.key := rfl
@[simp] theorem State.updRouter_boot (c : Nat) (f : Router → Router) : (s.updRouter c f).boot = s.boot := rfl
@[simp] theorem State.updRouter_ptime (c : Nat) (f : Router → Router) : (s.updRouter c f).ptime = s.ptime := rfl
@[simp] theorem State.updRouter_fresh (c : Nat) (f : Router → Router) : (s.updRouter c f).fresh = s.fresh := rfl
@[simp] theorem State.updRouter_out (c : Nat) (f : Router → Router) : (s.updRouter c f).out = s.out := rfl

@[simp] theorem State.setPart_pending (p : Nat) (x : Part) : (s.setPart p x).pending = s.pending := rfl
@[simp] theorem State.setPart_regs (p : Nat) (x : Part) : (s.setPart p x).regs = s.regs := rfl
@[simp] theorem State.setPart_mem (p : Nat) (x : Part) : (s.setPart p x).mem = s.mem := rfl
@[simp] theorem State.setPart_opens (p : Nat) (x : Part) : (s.setPart p x).opens = s.opens := rfl
@[simp] theorem State.setPart_ecc (p : Nat) (x : Part) : (s.setPart p x).ecc = s.ecc := rfl
@[simp] theorem State.setPart_cores (p : Nat) (x : Part) : (s.setPart p x).cores = s.cores := rfl
@[simp] theorem State.setPart_routers (p : Nat) (x : Part) : (s.setPart p x).routers = s.routers := rfl
@[simp] theorem State.setPart_net (p : Nat) (x : Part) : (s.setPart p x).net = s.net := rfl
@[simp] theorem State.setPart_host (p : Nat) (x : Part) : (s.setPart p x).host = s.host := rfl
@[simp] theorem State.setPart_guards (p : Nat) (x : Part) : (s.setPart p x).guards = s.guards := rfl
@[simp] theorem State.setPart_store (p : Nat) (x : Part) : (s.setPart p x).store = s.store := rfl
@[simp] theorem State.setPart_tel (p : Nat) (x : Part) : (s.setPart p x).tel = s.tel := rfl
@[simp] theorem State.setPart_mgmt (p : Nat) (x : Part) : (s.setPart p x).mgmt = s.mgmt := rfl
@[simp] theorem State.setPart_power (p : Nat) (x : Part) : (s.setPart p x).power = s.power := rfl
@[simp] theorem State.setPart_rcv (p : Nat) (x : Part) : (s.setPart p x).rcv = s.rcv := rfl
@[simp] theorem State.setPart_clk (p : Nat) (x : Part) : (s.setPart p x).clk = s.clk := rfl
@[simp] theorem State.setPart_therm (p : Nat) (x : Part) : (s.setPart p x).therm = s.therm := rfl
@[simp] theorem State.setPart_links (p : Nat) (x : Part) : (s.setPart p x).links = s.links := rfl
@[simp] theorem State.setPart_guests (p : Nat) (x : Part) : (s.setPart p x).guests = s.guests := rfl
@[simp] theorem State.setPart_opt (p : Nat) (x : Part) : (s.setPart p x).opt = s.opt := rfl
@[simp] theorem State.setPart_jx (p : Nat) (x : Part) : (s.setPart p x).jx = s.jx := rfl
@[simp] theorem State.setPart_key (p : Nat) (x : Part) : (s.setPart p x).key = s.key := rfl
@[simp] theorem State.setPart_boot (p : Nat) (x : Part) : (s.setPart p x).boot = s.boot := rfl
@[simp] theorem State.setPart_ptime (p : Nat) (x : Part) : (s.setPart p x).ptime = s.ptime := rfl
@[simp] theorem State.setPart_fresh (p : Nat) (x : Part) : (s.setPart p x).fresh = s.fresh := rfl
@[simp] theorem State.setPart_out (p : Nat) (x : Part) : (s.setPart p x).out = s.out := rfl

@[simp] theorem State.updPart_pending (p : Nat) (f : Part → Part) : (s.updPart p f).pending = s.pending := rfl
@[simp] theorem State.updPart_regs (p : Nat) (f : Part → Part) : (s.updPart p f).regs = s.regs := rfl
@[simp] theorem State.updPart_mem (p : Nat) (f : Part → Part) : (s.updPart p f).mem = s.mem := rfl
@[simp] theorem State.updPart_opens (p : Nat) (f : Part → Part) : (s.updPart p f).opens = s.opens := rfl
@[simp] theorem State.updPart_ecc (p : Nat) (f : Part → Part) : (s.updPart p f).ecc = s.ecc := rfl
@[simp] theorem State.updPart_cores (p : Nat) (f : Part → Part) : (s.updPart p f).cores = s.cores := rfl
@[simp] theorem State.updPart_routers (p : Nat) (f : Part → Part) : (s.updPart p f).routers = s.routers := rfl
@[simp] theorem State.updPart_net (p : Nat) (f : Part → Part) : (s.updPart p f).net = s.net := rfl
@[simp] theorem State.updPart_host (p : Nat) (f : Part → Part) : (s.updPart p f).host = s.host := rfl
@[simp] theorem State.updPart_guards (p : Nat) (f : Part → Part) : (s.updPart p f).guards = s.guards := rfl
@[simp] theorem State.updPart_store (p : Nat) (f : Part → Part) : (s.updPart p f).store = s.store := rfl
@[simp] theorem State.updPart_tel (p : Nat) (f : Part → Part) : (s.updPart p f).tel = s.tel := rfl
@[simp] theorem State.updPart_mgmt (p : Nat) (f : Part → Part) : (s.updPart p f).mgmt = s.mgmt := rfl
@[simp] theorem State.updPart_power (p : Nat) (f : Part → Part) : (s.updPart p f).power = s.power := rfl
@[simp] theorem State.updPart_rcv (p : Nat) (f : Part → Part) : (s.updPart p f).rcv = s.rcv := rfl
@[simp] theorem State.updPart_clk (p : Nat) (f : Part → Part) : (s.updPart p f).clk = s.clk := rfl
@[simp] theorem State.updPart_therm (p : Nat) (f : Part → Part) : (s.updPart p f).therm = s.therm := rfl
@[simp] theorem State.updPart_links (p : Nat) (f : Part → Part) : (s.updPart p f).links = s.links := rfl
@[simp] theorem State.updPart_guests (p : Nat) (f : Part → Part) : (s.updPart p f).guests = s.guests := rfl
@[simp] theorem State.updPart_opt (p : Nat) (f : Part → Part) : (s.updPart p f).opt = s.opt := rfl
@[simp] theorem State.updPart_jx (p : Nat) (f : Part → Part) : (s.updPart p f).jx = s.jx := rfl
@[simp] theorem State.updPart_key (p : Nat) (f : Part → Part) : (s.updPart p f).key = s.key := rfl
@[simp] theorem State.updPart_boot (p : Nat) (f : Part → Part) : (s.updPart p f).boot = s.boot := rfl
@[simp] theorem State.updPart_ptime (p : Nat) (f : Part → Part) : (s.updPart p f).ptime = s.ptime := rfl
@[simp] theorem State.updPart_fresh (p : Nat) (f : Part → Part) : (s.updPart p f).fresh = s.fresh := rfl
@[simp] theorem State.updPart_out (p : Nat) (f : Part → Part) : (s.updPart p f).out = s.out := rfl

@[simp] theorem State.setGuest_pending (g : Nat) (x : Guest) : (s.setGuest g x).pending = s.pending := rfl
@[simp] theorem State.setGuest_regs (g : Nat) (x : Guest) : (s.setGuest g x).regs = s.regs := rfl
@[simp] theorem State.setGuest_mem (g : Nat) (x : Guest) : (s.setGuest g x).mem = s.mem := rfl
@[simp] theorem State.setGuest_opens (g : Nat) (x : Guest) : (s.setGuest g x).opens = s.opens := rfl
@[simp] theorem State.setGuest_ecc (g : Nat) (x : Guest) : (s.setGuest g x).ecc = s.ecc := rfl
@[simp] theorem State.setGuest_cores (g : Nat) (x : Guest) : (s.setGuest g x).cores = s.cores := rfl
@[simp] theorem State.setGuest_routers (g : Nat) (x : Guest) : (s.setGuest g x).routers = s.routers := rfl
@[simp] theorem State.setGuest_net (g : Nat) (x : Guest) : (s.setGuest g x).net = s.net := rfl
@[simp] theorem State.setGuest_host (g : Nat) (x : Guest) : (s.setGuest g x).host = s.host := rfl
@[simp] theorem State.setGuest_parts (g : Nat) (x : Guest) : (s.setGuest g x).parts = s.parts := rfl
@[simp] theorem State.setGuest_guards (g : Nat) (x : Guest) : (s.setGuest g x).guards = s.guards := rfl
@[simp] theorem State.setGuest_store (g : Nat) (x : Guest) : (s.setGuest g x).store = s.store := rfl
@[simp] theorem State.setGuest_tel (g : Nat) (x : Guest) : (s.setGuest g x).tel = s.tel := rfl
@[simp] theorem State.setGuest_mgmt (g : Nat) (x : Guest) : (s.setGuest g x).mgmt = s.mgmt := rfl
@[simp] theorem State.setGuest_power (g : Nat) (x : Guest) : (s.setGuest g x).power = s.power := rfl
@[simp] theorem State.setGuest_rcv (g : Nat) (x : Guest) : (s.setGuest g x).rcv = s.rcv := rfl
@[simp] theorem State.setGuest_clk (g : Nat) (x : Guest) : (s.setGuest g x).clk = s.clk := rfl
@[simp] theorem State.setGuest_therm (g : Nat) (x : Guest) : (s.setGuest g x).therm = s.therm := rfl
@[simp] theorem State.setGuest_links (g : Nat) (x : Guest) : (s.setGuest g x).links = s.links := rfl
@[simp] theorem State.setGuest_opt (g : Nat) (x : Guest) : (s.setGuest g x).opt = s.opt := rfl
@[simp] theorem State.setGuest_jx (g : Nat) (x : Guest) : (s.setGuest g x).jx = s.jx := rfl
@[simp] theorem State.setGuest_key (g : Nat) (x : Guest) : (s.setGuest g x).key = s.key := rfl
@[simp] theorem State.setGuest_boot (g : Nat) (x : Guest) : (s.setGuest g x).boot = s.boot := rfl
@[simp] theorem State.setGuest_ptime (g : Nat) (x : Guest) : (s.setGuest g x).ptime = s.ptime := rfl
@[simp] theorem State.setGuest_fresh (g : Nat) (x : Guest) : (s.setGuest g x).fresh = s.fresh := rfl
@[simp] theorem State.setGuest_out (g : Nat) (x : Guest) : (s.setGuest g x).out = s.out := rfl

@[simp] theorem State.updGuest_pending (g : Nat) (f : Guest → Guest) : (s.updGuest g f).pending = s.pending := rfl
@[simp] theorem State.updGuest_regs (g : Nat) (f : Guest → Guest) : (s.updGuest g f).regs = s.regs := rfl
@[simp] theorem State.updGuest_mem (g : Nat) (f : Guest → Guest) : (s.updGuest g f).mem = s.mem := rfl
@[simp] theorem State.updGuest_opens (g : Nat) (f : Guest → Guest) : (s.updGuest g f).opens = s.opens := rfl
@[simp] theorem State.updGuest_ecc (g : Nat) (f : Guest → Guest) : (s.updGuest g f).ecc = s.ecc := rfl
@[simp] theorem State.updGuest_cores (g : Nat) (f : Guest → Guest) : (s.updGuest g f).cores = s.cores := rfl
@[simp] theorem State.updGuest_routers (g : Nat) (f : Guest → Guest) : (s.updGuest g f).routers = s.routers := rfl
@[simp] theorem State.updGuest_net (g : Nat) (f : Guest → Guest) : (s.updGuest g f).net = s.net := rfl
@[simp] theorem State.updGuest_host (g : Nat) (f : Guest → Guest) : (s.updGuest g f).host = s.host := rfl
@[simp] theorem State.updGuest_parts (g : Nat) (f : Guest → Guest) : (s.updGuest g f).parts = s.parts := rfl
@[simp] theorem State.updGuest_guards (g : Nat) (f : Guest → Guest) : (s.updGuest g f).guards = s.guards := rfl
@[simp] theorem State.updGuest_store (g : Nat) (f : Guest → Guest) : (s.updGuest g f).store = s.store := rfl
@[simp] theorem State.updGuest_tel (g : Nat) (f : Guest → Guest) : (s.updGuest g f).tel = s.tel := rfl
@[simp] theorem State.updGuest_mgmt (g : Nat) (f : Guest → Guest) : (s.updGuest g f).mgmt = s.mgmt := rfl
@[simp] theorem State.updGuest_power (g : Nat) (f : Guest → Guest) : (s.updGuest g f).power = s.power := rfl
@[simp] theorem State.updGuest_rcv (g : Nat) (f : Guest → Guest) : (s.updGuest g f).rcv = s.rcv := rfl
@[simp] theorem State.updGuest_clk (g : Nat) (f : Guest → Guest) : (s.updGuest g f).clk = s.clk := rfl
@[simp] theorem State.updGuest_therm (g : Nat) (f : Guest → Guest) : (s.updGuest g f).therm = s.therm := rfl
@[simp] theorem State.updGuest_links (g : Nat) (f : Guest → Guest) : (s.updGuest g f).links = s.links := rfl
@[simp] theorem State.updGuest_opt (g : Nat) (f : Guest → Guest) : (s.updGuest g f).opt = s.opt := rfl
@[simp] theorem State.updGuest_jx (g : Nat) (f : Guest → Guest) : (s.updGuest g f).jx = s.jx := rfl
@[simp] theorem State.updGuest_key (g : Nat) (f : Guest → Guest) : (s.updGuest g f).key = s.key := rfl
@[simp] theorem State.updGuest_boot (g : Nat) (f : Guest → Guest) : (s.updGuest g f).boot = s.boot := rfl
@[simp] theorem State.updGuest_ptime (g : Nat) (f : Guest → Guest) : (s.updGuest g f).ptime = s.ptime := rfl
@[simp] theorem State.updGuest_fresh (g : Nat) (f : Guest → Guest) : (s.updGuest g f).fresh = s.fresh := rfl
@[simp] theorem State.updGuest_out (g : Nat) (f : Guest → Guest) : (s.updGuest g f).out = s.out := rfl

@[simp] theorem State.setPort_pending (n : Nat) (x : JxPort) : (s.setPort n x).pending = s.pending := rfl
@[simp] theorem State.setPort_regs (n : Nat) (x : JxPort) : (s.setPort n x).regs = s.regs := rfl
@[simp] theorem State.setPort_mem (n : Nat) (x : JxPort) : (s.setPort n x).mem = s.mem := rfl
@[simp] theorem State.setPort_opens (n : Nat) (x : JxPort) : (s.setPort n x).opens = s.opens := rfl
@[simp] theorem State.setPort_ecc (n : Nat) (x : JxPort) : (s.setPort n x).ecc = s.ecc := rfl
@[simp] theorem State.setPort_cores (n : Nat) (x : JxPort) : (s.setPort n x).cores = s.cores := rfl
@[simp] theorem State.setPort_routers (n : Nat) (x : JxPort) : (s.setPort n x).routers = s.routers := rfl
@[simp] theorem State.setPort_net (n : Nat) (x : JxPort) : (s.setPort n x).net = s.net := rfl
@[simp] theorem State.setPort_host (n : Nat) (x : JxPort) : (s.setPort n x).host = s.host := rfl
@[simp] theorem State.setPort_parts (n : Nat) (x : JxPort) : (s.setPort n x).parts = s.parts := rfl
@[simp] theorem State.setPort_guards (n : Nat) (x : JxPort) : (s.setPort n x).guards = s.guards := rfl
@[simp] theorem State.setPort_store (n : Nat) (x : JxPort) : (s.setPort n x).store = s.store := rfl
@[simp] theorem State.setPort_tel (n : Nat) (x : JxPort) : (s.setPort n x).tel = s.tel := rfl
@[simp] theorem State.setPort_mgmt (n : Nat) (x : JxPort) : (s.setPort n x).mgmt = s.mgmt := rfl
@[simp] theorem State.setPort_power (n : Nat) (x : JxPort) : (s.setPort n x).power = s.power := rfl
@[simp] theorem State.setPort_rcv (n : Nat) (x : JxPort) : (s.setPort n x).rcv = s.rcv := rfl
@[simp] theorem State.setPort_clk (n : Nat) (x : JxPort) : (s.setPort n x).clk = s.clk := rfl
@[simp] theorem State.setPort_therm (n : Nat) (x : JxPort) : (s.setPort n x).therm = s.therm := rfl
@[simp] theorem State.setPort_links (n : Nat) (x : JxPort) : (s.setPort n x).links = s.links := rfl
@[simp] theorem State.setPort_guests (n : Nat) (x : JxPort) : (s.setPort n x).guests = s.guests := rfl
@[simp] theorem State.setPort_opt (n : Nat) (x : JxPort) : (s.setPort n x).opt = s.opt := rfl
@[simp] theorem State.setPort_key (n : Nat) (x : JxPort) : (s.setPort n x).key = s.key := rfl
@[simp] theorem State.setPort_boot (n : Nat) (x : JxPort) : (s.setPort n x).boot = s.boot := rfl
@[simp] theorem State.setPort_ptime (n : Nat) (x : JxPort) : (s.setPort n x).ptime = s.ptime := rfl
@[simp] theorem State.setPort_fresh (n : Nat) (x : JxPort) : (s.setPort n x).fresh = s.fresh := rfl
@[simp] theorem State.setPort_out (n : Nat) (x : JxPort) : (s.setPort n x).out = s.out := rfl

@[simp] theorem State.updPort_pending (n : Nat) (f : JxPort → JxPort) : (s.updPort n f).pending = s.pending := rfl
@[simp] theorem State.updPort_regs (n : Nat) (f : JxPort → JxPort) : (s.updPort n f).regs = s.regs := rfl
@[simp] theorem State.updPort_mem (n : Nat) (f : JxPort → JxPort) : (s.updPort n f).mem = s.mem := rfl
@[simp] theorem State.updPort_opens (n : Nat) (f : JxPort → JxPort) : (s.updPort n f).opens = s.opens := rfl
@[simp] theorem State.updPort_ecc (n : Nat) (f : JxPort → JxPort) : (s.updPort n f).ecc = s.ecc := rfl
@[simp] theorem State.updPort_cores (n : Nat) (f : JxPort → JxPort) : (s.updPort n f).cores = s.cores := rfl
@[simp] theorem State.updPort_routers (n : Nat) (f : JxPort → JxPort) : (s.updPort n f).routers = s.routers := rfl
@[simp] theorem State.updPort_net (n : Nat) (f : JxPort → JxPort) : (s.updPort n f).net = s.net := rfl
@[simp] theorem State.updPort_host (n : Nat) (f : JxPort → JxPort) : (s.updPort n f).host = s.host := rfl
@[simp] theorem State.updPort_parts (n : Nat) (f : JxPort → JxPort) : (s.updPort n f).parts = s.parts := rfl
@[simp] theorem State.updPort_guards (n : Nat) (f : JxPort → JxPort) : (s.updPort n f).guards = s.guards := rfl
@[simp] theorem State.updPort_store (n : Nat) (f : JxPort → JxPort) : (s.updPort n f).store = s.store := rfl
@[simp] theorem State.updPort_tel (n : Nat) (f : JxPort → JxPort) : (s.updPort n f).tel = s.tel := rfl
@[simp] theorem State.updPort_mgmt (n : Nat) (f : JxPort → JxPort) : (s.updPort n f).mgmt = s.mgmt := rfl
@[simp] theorem State.updPort_power (n : Nat) (f : JxPort → JxPort) : (s.updPort n f).power = s.power := rfl
@[simp] theorem State.updPort_rcv (n : Nat) (f : JxPort → JxPort) : (s.updPort n f).rcv = s.rcv := rfl
@[simp] theorem State.updPort_clk (n : Nat) (f : JxPort → JxPort) : (s.updPort n f).clk = s.clk := rfl
@[simp] theorem State.updPort_therm (n : Nat) (f : JxPort → JxPort) : (s.updPort n f).therm = s.therm := rfl
@[simp] theorem State.updPort_links (n : Nat) (f : JxPort → JxPort) : (s.updPort n f).links = s.links := rfl
@[simp] theorem State.updPort_guests (n : Nat) (f : JxPort → JxPort) : (s.updPort n f).guests = s.guests := rfl
@[simp] theorem State.updPort_opt (n : Nat) (f : JxPort → JxPort) : (s.updPort n f).opt = s.opt := rfl
@[simp] theorem State.updPort_key (n : Nat) (f : JxPort → JxPort) : (s.updPort n f).key = s.key := rfl
@[simp] theorem State.updPort_boot (n : Nat) (f : JxPort → JxPort) : (s.updPort n f).boot = s.boot := rfl
@[simp] theorem State.updPort_ptime (n : Nat) (f : JxPort → JxPort) : (s.updPort n f).ptime = s.ptime := rfl
@[simp] theorem State.updPort_fresh (n : Nat) (f : JxPort → JxPort) : (s.updPort n f).fresh = s.fresh := rfl
@[simp] theorem State.updPort_out (n : Nat) (f : JxPort → JxPort) : (s.updPort n f).out = s.out := rfl

@[simp] theorem State.setBport_pending (k : Nat) (p : Port BulkPkt) : (s.setBport k p).pending = s.pending := rfl
@[simp] theorem State.setBport_regs (k : Nat) (p : Port BulkPkt) : (s.setBport k p).regs = s.regs := rfl
@[simp] theorem State.setBport_mem (k : Nat) (p : Port BulkPkt) : (s.setBport k p).mem = s.mem := rfl
@[simp] theorem State.setBport_opens (k : Nat) (p : Port BulkPkt) : (s.setBport k p).opens = s.opens := rfl
@[simp] theorem State.setBport_ecc (k : Nat) (p : Port BulkPkt) : (s.setBport k p).ecc = s.ecc := rfl
@[simp] theorem State.setBport_cores (k : Nat) (p : Port BulkPkt) : (s.setBport k p).cores = s.cores := rfl
@[simp] theorem State.setBport_routers (k : Nat) (p : Port BulkPkt) : (s.setBport k p).routers = s.routers := rfl
@[simp] theorem State.setBport_host (k : Nat) (p : Port BulkPkt) : (s.setBport k p).host = s.host := rfl
@[simp] theorem State.setBport_parts (k : Nat) (p : Port BulkPkt) : (s.setBport k p).parts = s.parts := rfl
@[simp] theorem State.setBport_guards (k : Nat) (p : Port BulkPkt) : (s.setBport k p).guards = s.guards := rfl
@[simp] theorem State.setBport_store (k : Nat) (p : Port BulkPkt) : (s.setBport k p).store = s.store := rfl
@[simp] theorem State.setBport_tel (k : Nat) (p : Port BulkPkt) : (s.setBport k p).tel = s.tel := rfl
@[simp] theorem State.setBport_mgmt (k : Nat) (p : Port BulkPkt) : (s.setBport k p).mgmt = s.mgmt := rfl
@[simp] theorem State.setBport_power (k : Nat) (p : Port BulkPkt) : (s.setBport k p).power = s.power := rfl
@[simp] theorem State.setBport_rcv (k : Nat) (p : Port BulkPkt) : (s.setBport k p).rcv = s.rcv := rfl
@[simp] theorem State.setBport_clk (k : Nat) (p : Port BulkPkt) : (s.setBport k p).clk = s.clk := rfl
@[simp] theorem State.setBport_therm (k : Nat) (p : Port BulkPkt) : (s.setBport k p).therm = s.therm := rfl
@[simp] theorem State.setBport_links (k : Nat) (p : Port BulkPkt) : (s.setBport k p).links = s.links := rfl
@[simp] theorem State.setBport_guests (k : Nat) (p : Port BulkPkt) : (s.setBport k p).guests = s.guests := rfl
@[simp] theorem State.setBport_opt (k : Nat) (p : Port BulkPkt) : (s.setBport k p).opt = s.opt := rfl
@[simp] theorem State.setBport_jx (k : Nat) (p : Port BulkPkt) : (s.setBport k p).jx = s.jx := rfl
@[simp] theorem State.setBport_key (k : Nat) (p : Port BulkPkt) : (s.setBport k p).key = s.key := rfl
@[simp] theorem State.setBport_boot (k : Nat) (p : Port BulkPkt) : (s.setBport k p).boot = s.boot := rfl
@[simp] theorem State.setBport_ptime (k : Nat) (p : Port BulkPkt) : (s.setBport k p).ptime = s.ptime := rfl
@[simp] theorem State.setBport_fresh (k : Nat) (p : Port BulkPkt) : (s.setBport k p).fresh = s.fresh := rfl
@[simp] theorem State.setBport_out (k : Nat) (p : Port BulkPkt) : (s.setBport k p).out = s.out := rfl

@[simp] theorem State.setCport_pending (k : Nat) (p : Port CtlPkt) : (s.setCport k p).pending = s.pending := rfl
@[simp] theorem State.setCport_regs (k : Nat) (p : Port CtlPkt) : (s.setCport k p).regs = s.regs := rfl
@[simp] theorem State.setCport_mem (k : Nat) (p : Port CtlPkt) : (s.setCport k p).mem = s.mem := rfl
@[simp] theorem State.setCport_opens (k : Nat) (p : Port CtlPkt) : (s.setCport k p).opens = s.opens := rfl
@[simp] theorem State.setCport_ecc (k : Nat) (p : Port CtlPkt) : (s.setCport k p).ecc = s.ecc := rfl
@[simp] theorem State.setCport_cores (k : Nat) (p : Port CtlPkt) : (s.setCport k p).cores = s.cores := rfl
@[simp] theorem State.setCport_routers (k : Nat) (p : Port CtlPkt) : (s.setCport k p).routers = s.routers := rfl
@[simp] theorem State.setCport_host (k : Nat) (p : Port CtlPkt) : (s.setCport k p).host = s.host := rfl
@[simp] theorem State.setCport_parts (k : Nat) (p : Port CtlPkt) : (s.setCport k p).parts = s.parts := rfl
@[simp] theorem State.setCport_guards (k : Nat) (p : Port CtlPkt) : (s.setCport k p).guards = s.guards := rfl
@[simp] theorem State.setCport_store (k : Nat) (p : Port CtlPkt) : (s.setCport k p).store = s.store := rfl
@[simp] theorem State.setCport_tel (k : Nat) (p : Port CtlPkt) : (s.setCport k p).tel = s.tel := rfl
@[simp] theorem State.setCport_mgmt (k : Nat) (p : Port CtlPkt) : (s.setCport k p).mgmt = s.mgmt := rfl
@[simp] theorem State.setCport_power (k : Nat) (p : Port CtlPkt) : (s.setCport k p).power = s.power := rfl
@[simp] theorem State.setCport_rcv (k : Nat) (p : Port CtlPkt) : (s.setCport k p).rcv = s.rcv := rfl
@[simp] theorem State.setCport_clk (k : Nat) (p : Port CtlPkt) : (s.setCport k p).clk = s.clk := rfl
@[simp] theorem State.setCport_therm (k : Nat) (p : Port CtlPkt) : (s.setCport k p).therm = s.therm := rfl
@[simp] theorem State.setCport_links (k : Nat) (p : Port CtlPkt) : (s.setCport k p).links = s.links := rfl
@[simp] theorem State.setCport_guests (k : Nat) (p : Port CtlPkt) : (s.setCport k p).guests = s.guests := rfl
@[simp] theorem State.setCport_opt (k : Nat) (p : Port CtlPkt) : (s.setCport k p).opt = s.opt := rfl
@[simp] theorem State.setCport_jx (k : Nat) (p : Port CtlPkt) : (s.setCport k p).jx = s.jx := rfl
@[simp] theorem State.setCport_key (k : Nat) (p : Port CtlPkt) : (s.setCport k p).key = s.key := rfl
@[simp] theorem State.setCport_boot (k : Nat) (p : Port CtlPkt) : (s.setCport k p).boot = s.boot := rfl
@[simp] theorem State.setCport_ptime (k : Nat) (p : Port CtlPkt) : (s.setCport k p).ptime = s.ptime := rfl
@[simp] theorem State.setCport_fresh (k : Nat) (p : Port CtlPkt) : (s.setCport k p).fresh = s.fresh := rfl
@[simp] theorem State.setCport_out (k : Nat) (p : Port CtlPkt) : (s.setCport k p).out = s.out := rfl

@[simp] theorem State.setSync_pending (n m : Nat) (x : SyncLink) : (s.setSync n m x).pending = s.pending := rfl
@[simp] theorem State.setSync_regs (n m : Nat) (x : SyncLink) : (s.setSync n m x).regs = s.regs := rfl
@[simp] theorem State.setSync_mem (n m : Nat) (x : SyncLink) : (s.setSync n m x).mem = s.mem := rfl
@[simp] theorem State.setSync_opens (n m : Nat) (x : SyncLink) : (s.setSync n m x).opens = s.opens := rfl
@[simp] theorem State.setSync_ecc (n m : Nat) (x : SyncLink) : (s.setSync n m x).ecc = s.ecc := rfl
@[simp] theorem State.setSync_cores (n m : Nat) (x : SyncLink) : (s.setSync n m x).cores = s.cores := rfl
@[simp] theorem State.setSync_routers (n m : Nat) (x : SyncLink) : (s.setSync n m x).routers = s.routers := rfl
@[simp] theorem State.setSync_host (n m : Nat) (x : SyncLink) : (s.setSync n m x).host = s.host := rfl
@[simp] theorem State.setSync_parts (n m : Nat) (x : SyncLink) : (s.setSync n m x).parts = s.parts := rfl
@[simp] theorem State.setSync_guards (n m : Nat) (x : SyncLink) : (s.setSync n m x).guards = s.guards := rfl
@[simp] theorem State.setSync_store (n m : Nat) (x : SyncLink) : (s.setSync n m x).store = s.store := rfl
@[simp] theorem State.setSync_tel (n m : Nat) (x : SyncLink) : (s.setSync n m x).tel = s.tel := rfl
@[simp] theorem State.setSync_mgmt (n m : Nat) (x : SyncLink) : (s.setSync n m x).mgmt = s.mgmt := rfl
@[simp] theorem State.setSync_power (n m : Nat) (x : SyncLink) : (s.setSync n m x).power = s.power := rfl
@[simp] theorem State.setSync_rcv (n m : Nat) (x : SyncLink) : (s.setSync n m x).rcv = s.rcv := rfl
@[simp] theorem State.setSync_clk (n m : Nat) (x : SyncLink) : (s.setSync n m x).clk = s.clk := rfl
@[simp] theorem State.setSync_therm (n m : Nat) (x : SyncLink) : (s.setSync n m x).therm = s.therm := rfl
@[simp] theorem State.setSync_links (n m : Nat) (x : SyncLink) : (s.setSync n m x).links = s.links := rfl
@[simp] theorem State.setSync_guests (n m : Nat) (x : SyncLink) : (s.setSync n m x).guests = s.guests := rfl
@[simp] theorem State.setSync_opt (n m : Nat) (x : SyncLink) : (s.setSync n m x).opt = s.opt := rfl
@[simp] theorem State.setSync_jx (n m : Nat) (x : SyncLink) : (s.setSync n m x).jx = s.jx := rfl
@[simp] theorem State.setSync_key (n m : Nat) (x : SyncLink) : (s.setSync n m x).key = s.key := rfl
@[simp] theorem State.setSync_boot (n m : Nat) (x : SyncLink) : (s.setSync n m x).boot = s.boot := rfl
@[simp] theorem State.setSync_ptime (n m : Nat) (x : SyncLink) : (s.setSync n m x).ptime = s.ptime := rfl
@[simp] theorem State.setSync_fresh (n m : Nat) (x : SyncLink) : (s.setSync n m x).fresh = s.fresh := rfl
@[simp] theorem State.setSync_out (n m : Nat) (x : SyncLink) : (s.setSync n m x).out = s.out := rfl

@[simp] theorem State.updStream_pending (c id : Nat) (f : Stream → Stream) : (s.updStream c id f).pending = s.pending := rfl
@[simp] theorem State.updStream_regs (c id : Nat) (f : Stream → Stream) : (s.updStream c id f).regs = s.regs := rfl
@[simp] theorem State.updStream_mem (c id : Nat) (f : Stream → Stream) : (s.updStream c id f).mem = s.mem := rfl
@[simp] theorem State.updStream_opens (c id : Nat) (f : Stream → Stream) : (s.updStream c id f).opens = s.opens := rfl
@[simp] theorem State.updStream_ecc (c id : Nat) (f : Stream → Stream) : (s.updStream c id f).ecc = s.ecc := rfl
@[simp] theorem State.updStream_routers (c id : Nat) (f : Stream → Stream) : (s.updStream c id f).routers = s.routers := rfl
@[simp] theorem State.updStream_net (c id : Nat) (f : Stream → Stream) : (s.updStream c id f).net = s.net := rfl
@[simp] theorem State.updStream_host (c id : Nat) (f : Stream → Stream) : (s.updStream c id f).host = s.host := rfl
@[simp] theorem State.updStream_parts (c id : Nat) (f : Stream → Stream) : (s.updStream c id f).parts = s.parts := rfl
@[simp] theorem State.updStream_guards (c id : Nat) (f : Stream → Stream) : (s.updStream c id f).guards = s.guards := rfl
@[simp] theorem State.updStream_store (c id : Nat) (f : Stream → Stream) : (s.updStream c id f).store = s.store := rfl
@[simp] theorem State.updStream_tel (c id : Nat) (f : Stream → Stream) : (s.updStream c id f).tel = s.tel := rfl
@[simp] theorem State.updStream_mgmt (c id : Nat) (f : Stream → Stream) : (s.updStream c id f).mgmt = s.mgmt := rfl
@[simp] theorem State.updStream_power (c id : Nat) (f : Stream → Stream) : (s.updStream c id f).power = s.power := rfl
@[simp] theorem State.updStream_rcv (c id : Nat) (f : Stream → Stream) : (s.updStream c id f).rcv = s.rcv := rfl
@[simp] theorem State.updStream_clk (c id : Nat) (f : Stream → Stream) : (s.updStream c id f).clk = s.clk := rfl
@[simp] theorem State.updStream_therm (c id : Nat) (f : Stream → Stream) : (s.updStream c id f).therm = s.therm := rfl
@[simp] theorem State.updStream_links (c id : Nat) (f : Stream → Stream) : (s.updStream c id f).links = s.links := rfl
@[simp] theorem State.updStream_guests (c id : Nat) (f : Stream → Stream) : (s.updStream c id f).guests = s.guests := rfl
@[simp] theorem State.updStream_opt (c id : Nat) (f : Stream → Stream) : (s.updStream c id f).opt = s.opt := rfl
@[simp] theorem State.updStream_jx (c id : Nat) (f : Stream → Stream) : (s.updStream c id f).jx = s.jx := rfl
@[simp] theorem State.updStream_key (c id : Nat) (f : Stream → Stream) : (s.updStream c id f).key = s.key := rfl
@[simp] theorem State.updStream_boot (c id : Nat) (f : Stream → Stream) : (s.updStream c id f).boot = s.boot := rfl
@[simp] theorem State.updStream_ptime (c id : Nat) (f : Stream → Stream) : (s.updStream c id f).ptime = s.ptime := rfl
@[simp] theorem State.updStream_fresh (c id : Nat) (f : Stream → Stream) : (s.updStream c id f).fresh = s.fresh := rfl
@[simp] theorem State.updStream_out (c id : Nat) (f : Stream → Stream) : (s.updStream c id f).out = s.out := rfl

@[simp] theorem State.dropStream_pending (c id : Nat) : (s.dropStream c id).pending = s.pending := rfl
@[simp] theorem State.dropStream_regs (c id : Nat) : (s.dropStream c id).regs = s.regs := rfl
@[simp] theorem State.dropStream_mem (c id : Nat) : (s.dropStream c id).mem = s.mem := rfl
@[simp] theorem State.dropStream_opens (c id : Nat) : (s.dropStream c id).opens = s.opens := rfl
@[simp] theorem State.dropStream_ecc (c id : Nat) : (s.dropStream c id).ecc = s.ecc := rfl
@[simp] theorem State.dropStream_routers (c id : Nat) : (s.dropStream c id).routers = s.routers := rfl
@[simp] theorem State.dropStream_net (c id : Nat) : (s.dropStream c id).net = s.net := rfl
@[simp] theorem State.dropStream_host (c id : Nat) : (s.dropStream c id).host = s.host := rfl
@[simp] theorem State.dropStream_parts (c id : Nat) : (s.dropStream c id).parts = s.parts := rfl
@[simp] theorem State.dropStream_guards (c id : Nat) : (s.dropStream c id).guards = s.guards := rfl
@[simp] theorem State.dropStream_store (c id : Nat) : (s.dropStream c id).store = s.store := rfl
@[simp] theorem State.dropStream_tel (c id : Nat) : (s.dropStream c id).tel = s.tel := rfl
@[simp] theorem State.dropStream_mgmt (c id : Nat) : (s.dropStream c id).mgmt = s.mgmt := rfl
@[simp] theorem State.dropStream_power (c id : Nat) : (s.dropStream c id).power = s.power := rfl
@[simp] theorem State.dropStream_rcv (c id : Nat) : (s.dropStream c id).rcv = s.rcv := rfl
@[simp] theorem State.dropStream_clk (c id : Nat) : (s.dropStream c id).clk = s.clk := rfl
@[simp] theorem State.dropStream_therm (c id : Nat) : (s.dropStream c id).therm = s.therm := rfl
@[simp] theorem State.dropStream_links (c id : Nat) : (s.dropStream c id).links = s.links := rfl
@[simp] theorem State.dropStream_guests (c id : Nat) : (s.dropStream c id).guests = s.guests := rfl
@[simp] theorem State.dropStream_opt (c id : Nat) : (s.dropStream c id).opt = s.opt := rfl
@[simp] theorem State.dropStream_jx (c id : Nat) : (s.dropStream c id).jx = s.jx := rfl
@[simp] theorem State.dropStream_key (c id : Nat) : (s.dropStream c id).key = s.key := rfl
@[simp] theorem State.dropStream_boot (c id : Nat) : (s.dropStream c id).boot = s.boot := rfl
@[simp] theorem State.dropStream_ptime (c id : Nat) : (s.dropStream c id).ptime = s.ptime := rfl
@[simp] theorem State.dropStream_fresh (c id : Nat) : (s.dropStream c id).fresh = s.fresh := rfl
@[simp] theorem State.dropStream_out (c id : Nat) : (s.dropStream c id).out = s.out := rfl

@[simp] theorem State.updWs_pending (id : Nat) (f : WsPiece → WsPiece) : (s.updWs id f).pending = s.pending := rfl
@[simp] theorem State.updWs_regs (id : Nat) (f : WsPiece → WsPiece) : (s.updWs id f).regs = s.regs := rfl
@[simp] theorem State.updWs_mem (id : Nat) (f : WsPiece → WsPiece) : (s.updWs id f).mem = s.mem := rfl
@[simp] theorem State.updWs_opens (id : Nat) (f : WsPiece → WsPiece) : (s.updWs id f).opens = s.opens := rfl
@[simp] theorem State.updWs_ecc (id : Nat) (f : WsPiece → WsPiece) : (s.updWs id f).ecc = s.ecc := rfl
@[simp] theorem State.updWs_cores (id : Nat) (f : WsPiece → WsPiece) : (s.updWs id f).cores = s.cores := rfl
@[simp] theorem State.updWs_routers (id : Nat) (f : WsPiece → WsPiece) : (s.updWs id f).routers = s.routers := rfl
@[simp] theorem State.updWs_net (id : Nat) (f : WsPiece → WsPiece) : (s.updWs id f).net = s.net := rfl
@[simp] theorem State.updWs_host (id : Nat) (f : WsPiece → WsPiece) : (s.updWs id f).host = s.host := rfl
@[simp] theorem State.updWs_parts (id : Nat) (f : WsPiece → WsPiece) : (s.updWs id f).parts = s.parts := rfl
@[simp] theorem State.updWs_guards (id : Nat) (f : WsPiece → WsPiece) : (s.updWs id f).guards = s.guards := rfl
@[simp] theorem State.updWs_tel (id : Nat) (f : WsPiece → WsPiece) : (s.updWs id f).tel = s.tel := rfl
@[simp] theorem State.updWs_mgmt (id : Nat) (f : WsPiece → WsPiece) : (s.updWs id f).mgmt = s.mgmt := rfl
@[simp] theorem State.updWs_power (id : Nat) (f : WsPiece → WsPiece) : (s.updWs id f).power = s.power := rfl
@[simp] theorem State.updWs_rcv (id : Nat) (f : WsPiece → WsPiece) : (s.updWs id f).rcv = s.rcv := rfl
@[simp] theorem State.updWs_clk (id : Nat) (f : WsPiece → WsPiece) : (s.updWs id f).clk = s.clk := rfl
@[simp] theorem State.updWs_therm (id : Nat) (f : WsPiece → WsPiece) : (s.updWs id f).therm = s.therm := rfl
@[simp] theorem State.updWs_links (id : Nat) (f : WsPiece → WsPiece) : (s.updWs id f).links = s.links := rfl
@[simp] theorem State.updWs_guests (id : Nat) (f : WsPiece → WsPiece) : (s.updWs id f).guests = s.guests := rfl
@[simp] theorem State.updWs_opt (id : Nat) (f : WsPiece → WsPiece) : (s.updWs id f).opt = s.opt := rfl
@[simp] theorem State.updWs_jx (id : Nat) (f : WsPiece → WsPiece) : (s.updWs id f).jx = s.jx := rfl
@[simp] theorem State.updWs_key (id : Nat) (f : WsPiece → WsPiece) : (s.updWs id f).key = s.key := rfl
@[simp] theorem State.updWs_boot (id : Nat) (f : WsPiece → WsPiece) : (s.updWs id f).boot = s.boot := rfl
@[simp] theorem State.updWs_ptime (id : Nat) (f : WsPiece → WsPiece) : (s.updWs id f).ptime = s.ptime := rfl
@[simp] theorem State.updWs_fresh (id : Nat) (f : WsPiece → WsPiece) : (s.updWs id f).fresh = s.fresh := rfl
@[simp] theorem State.updWs_out (id : Nat) (f : WsPiece → WsPiece) : (s.updWs id f).out = s.out := rfl

@[simp] theorem State.updDescs_pending (f : List Desc → List Desc) : (s.updDescs f).pending = s.pending := rfl
@[simp] theorem State.updDescs_regs (f : List Desc → List Desc) : (s.updDescs f).regs = s.regs := rfl
@[simp] theorem State.updDescs_mem (f : List Desc → List Desc) : (s.updDescs f).mem = s.mem := rfl
@[simp] theorem State.updDescs_opens (f : List Desc → List Desc) : (s.updDescs f).opens = s.opens := rfl
@[simp] theorem State.updDescs_ecc (f : List Desc → List Desc) : (s.updDescs f).ecc = s.ecc := rfl
@[simp] theorem State.updDescs_cores (f : List Desc → List Desc) : (s.updDescs f).cores = s.cores := rfl
@[simp] theorem State.updDescs_routers (f : List Desc → List Desc) : (s.updDescs f).routers = s.routers := rfl
@[simp] theorem State.updDescs_net (f : List Desc → List Desc) : (s.updDescs f).net = s.net := rfl
@[simp] theorem State.updDescs_parts (f : List Desc → List Desc) : (s.updDescs f).parts = s.parts := rfl
@[simp] theorem State.updDescs_guards (f : List Desc → List Desc) : (s.updDescs f).guards = s.guards := rfl
@[simp] theorem State.updDescs_store (f : List Desc → List Desc) : (s.updDescs f).store = s.store := rfl
@[simp] theorem State.updDescs_tel (f : List Desc → List Desc) : (s.updDescs f).tel = s.tel := rfl
@[simp] theorem State.updDescs_mgmt (f : List Desc → List Desc) : (s.updDescs f).mgmt = s.mgmt := rfl
@[simp] theorem State.updDescs_power (f : List Desc → List Desc) : (s.updDescs f).power = s.power := rfl
@[simp] theorem State.updDescs_rcv (f : List Desc → List Desc) : (s.updDescs f).rcv = s.rcv := rfl
@[simp] theorem State.updDescs_clk (f : List Desc → List Desc) : (s.updDescs f).clk = s.clk := rfl
@[simp] theorem State.updDescs_therm (f : List Desc → List Desc) : (s.updDescs f).therm = s.therm := rfl
@[simp] theorem State.updDescs_links (f : List Desc → List Desc) : (s.updDescs f).links = s.links := rfl
@[simp] theorem State.updDescs_guests (f : List Desc → List Desc) : (s.updDescs f).guests = s.guests := rfl
@[simp] theorem State.updDescs_opt (f : List Desc → List Desc) : (s.updDescs f).opt = s.opt := rfl
@[simp] theorem State.updDescs_jx (f : List Desc → List Desc) : (s.updDescs f).jx = s.jx := rfl
@[simp] theorem State.updDescs_key (f : List Desc → List Desc) : (s.updDescs f).key = s.key := rfl
@[simp] theorem State.updDescs_boot (f : List Desc → List Desc) : (s.updDescs f).boot = s.boot := rfl
@[simp] theorem State.updDescs_ptime (f : List Desc → List Desc) : (s.updDescs f).ptime = s.ptime := rfl
@[simp] theorem State.updDescs_fresh (f : List Desc → List Desc) : (s.updDescs f).fresh = s.fresh := rfl
@[simp] theorem State.updDescs_out (f : List Desc → List Desc) : (s.updDescs f).out = s.out := rfl

@[simp] theorem State.updKey_pending (f : Keyring → Keyring) : (s.updKey f).pending = s.pending := rfl
@[simp] theorem State.updKey_regs (f : Keyring → Keyring) : (s.updKey f).regs = s.regs := rfl
@[simp] theorem State.updKey_mem (f : Keyring → Keyring) : (s.updKey f).mem = s.mem := rfl
@[simp] theorem State.updKey_opens (f : Keyring → Keyring) : (s.updKey f).opens = s.opens := rfl
@[simp] theorem State.updKey_ecc (f : Keyring → Keyring) : (s.updKey f).ecc = s.ecc := rfl
@[simp] theorem State.updKey_cores (f : Keyring → Keyring) : (s.updKey f).cores = s.cores := rfl
@[simp] theorem State.updKey_routers (f : Keyring → Keyring) : (s.updKey f).routers = s.routers := rfl
@[simp] theorem State.updKey_net (f : Keyring → Keyring) : (s.updKey f).net = s.net := rfl
@[simp] theorem State.updKey_host (f : Keyring → Keyring) : (s.updKey f).host = s.host := rfl
@[simp] theorem State.updKey_parts (f : Keyring → Keyring) : (s.updKey f).parts = s.parts := rfl
@[simp] theorem State.updKey_guards (f : Keyring → Keyring) : (s.updKey f).guards = s.guards := rfl
@[simp] theorem State.updKey_store (f : Keyring → Keyring) : (s.updKey f).store = s.store := rfl
@[simp] theorem State.updKey_tel (f : Keyring → Keyring) : (s.updKey f).tel = s.tel := rfl
@[simp] theorem State.updKey_mgmt (f : Keyring → Keyring) : (s.updKey f).mgmt = s.mgmt := rfl
@[simp] theorem State.updKey_power (f : Keyring → Keyring) : (s.updKey f).power = s.power := rfl
@[simp] theorem State.updKey_rcv (f : Keyring → Keyring) : (s.updKey f).rcv = s.rcv := rfl
@[simp] theorem State.updKey_clk (f : Keyring → Keyring) : (s.updKey f).clk = s.clk := rfl
@[simp] theorem State.updKey_therm (f : Keyring → Keyring) : (s.updKey f).therm = s.therm := rfl
@[simp] theorem State.updKey_links (f : Keyring → Keyring) : (s.updKey f).links = s.links := rfl
@[simp] theorem State.updKey_guests (f : Keyring → Keyring) : (s.updKey f).guests = s.guests := rfl
@[simp] theorem State.updKey_opt (f : Keyring → Keyring) : (s.updKey f).opt = s.opt := rfl
@[simp] theorem State.updKey_jx (f : Keyring → Keyring) : (s.updKey f).jx = s.jx := rfl
@[simp] theorem State.updKey_boot (f : Keyring → Keyring) : (s.updKey f).boot = s.boot := rfl
@[simp] theorem State.updKey_ptime (f : Keyring → Keyring) : (s.updKey f).ptime = s.ptime := rfl
@[simp] theorem State.updKey_fresh (f : Keyring → Keyring) : (s.updKey f).fresh = s.fresh := rfl
@[simp] theorem State.updKey_out (f : Keyring → Keyring) : (s.updKey f).out = s.out := rfl

@[simp] theorem State.updOpt_pending (f : Optics → Optics) : (s.updOpt f).pending = s.pending := rfl
@[simp] theorem State.updOpt_regs (f : Optics → Optics) : (s.updOpt f).regs = s.regs := rfl
@[simp] theorem State.updOpt_mem (f : Optics → Optics) : (s.updOpt f).mem = s.mem := rfl
@[simp] theorem State.updOpt_opens (f : Optics → Optics) : (s.updOpt f).opens = s.opens := rfl
@[simp] theorem State.updOpt_ecc (f : Optics → Optics) : (s.updOpt f).ecc = s.ecc := rfl
@[simp] theorem State.updOpt_cores (f : Optics → Optics) : (s.updOpt f).cores = s.cores := rfl
@[simp] theorem State.updOpt_routers (f : Optics → Optics) : (s.updOpt f).routers = s.routers := rfl
@[simp] theorem State.updOpt_net (f : Optics → Optics) : (s.updOpt f).net = s.net := rfl
@[simp] theorem State.updOpt_host (f : Optics → Optics) : (s.updOpt f).host = s.host := rfl
@[simp] theorem State.updOpt_parts (f : Optics → Optics) : (s.updOpt f).parts = s.parts := rfl
@[simp] theorem State.updOpt_guards (f : Optics → Optics) : (s.updOpt f).guards = s.guards := rfl
@[simp] theorem State.updOpt_store (f : Optics → Optics) : (s.updOpt f).store = s.store := rfl
@[simp] theorem State.updOpt_tel (f : Optics → Optics) : (s.updOpt f).tel = s.tel := rfl
@[simp] theorem State.updOpt_mgmt (f : Optics → Optics) : (s.updOpt f).mgmt = s.mgmt := rfl
@[simp] theorem State.updOpt_power (f : Optics → Optics) : (s.updOpt f).power = s.power := rfl
@[simp] theorem State.updOpt_rcv (f : Optics → Optics) : (s.updOpt f).rcv = s.rcv := rfl
@[simp] theorem State.updOpt_clk (f : Optics → Optics) : (s.updOpt f).clk = s.clk := rfl
@[simp] theorem State.updOpt_therm (f : Optics → Optics) : (s.updOpt f).therm = s.therm := rfl
@[simp] theorem State.updOpt_links (f : Optics → Optics) : (s.updOpt f).links = s.links := rfl
@[simp] theorem State.updOpt_guests (f : Optics → Optics) : (s.updOpt f).guests = s.guests := rfl
@[simp] theorem State.updOpt_jx (f : Optics → Optics) : (s.updOpt f).jx = s.jx := rfl
@[simp] theorem State.updOpt_key (f : Optics → Optics) : (s.updOpt f).key = s.key := rfl
@[simp] theorem State.updOpt_boot (f : Optics → Optics) : (s.updOpt f).boot = s.boot := rfl
@[simp] theorem State.updOpt_ptime (f : Optics → Optics) : (s.updOpt f).ptime = s.ptime := rfl
@[simp] theorem State.updOpt_fresh (f : Optics → Optics) : (s.updOpt f).fresh = s.fresh := rfl
@[simp] theorem State.updOpt_out (f : Optics → Optics) : (s.updOpt f).out = s.out := rfl

@[simp] theorem State.updBoot_pending (f : Boot → Boot) : (s.updBoot f).pending = s.pending := rfl
@[simp] theorem State.updBoot_regs (f : Boot → Boot) : (s.updBoot f).regs = s.regs := rfl
@[simp] theorem State.updBoot_mem (f : Boot → Boot) : (s.updBoot f).mem = s.mem := rfl
@[simp] theorem State.updBoot_opens (f : Boot → Boot) : (s.updBoot f).opens = s.opens := rfl
@[simp] theorem State.updBoot_ecc (f : Boot → Boot) : (s.updBoot f).ecc = s.ecc := rfl
@[simp] theorem State.updBoot_cores (f : Boot → Boot) : (s.updBoot f).cores = s.cores := rfl
@[simp] theorem State.updBoot_routers (f : Boot → Boot) : (s.updBoot f).routers = s.routers := rfl
@[simp] theorem State.updBoot_net (f : Boot → Boot) : (s.updBoot f).net = s.net := rfl
@[simp] theorem State.updBoot_host (f : Boot → Boot) : (s.updBoot f).host = s.host := rfl
@[simp] theorem State.updBoot_parts (f : Boot → Boot) : (s.updBoot f).parts = s.parts := rfl
@[simp] theorem State.updBoot_guards (f : Boot → Boot) : (s.updBoot f).guards = s.guards := rfl
@[simp] theorem State.updBoot_store (f : Boot → Boot) : (s.updBoot f).store = s.store := rfl
@[simp] theorem State.updBoot_tel (f : Boot → Boot) : (s.updBoot f).tel = s.tel := rfl
@[simp] theorem State.updBoot_mgmt (f : Boot → Boot) : (s.updBoot f).mgmt = s.mgmt := rfl
@[simp] theorem State.updBoot_power (f : Boot → Boot) : (s.updBoot f).power = s.power := rfl
@[simp] theorem State.updBoot_rcv (f : Boot → Boot) : (s.updBoot f).rcv = s.rcv := rfl
@[simp] theorem State.updBoot_clk (f : Boot → Boot) : (s.updBoot f).clk = s.clk := rfl
@[simp] theorem State.updBoot_therm (f : Boot → Boot) : (s.updBoot f).therm = s.therm := rfl
@[simp] theorem State.updBoot_links (f : Boot → Boot) : (s.updBoot f).links = s.links := rfl
@[simp] theorem State.updBoot_guests (f : Boot → Boot) : (s.updBoot f).guests = s.guests := rfl
@[simp] theorem State.updBoot_opt (f : Boot → Boot) : (s.updBoot f).opt = s.opt := rfl
@[simp] theorem State.updBoot_jx (f : Boot → Boot) : (s.updBoot f).jx = s.jx := rfl
@[simp] theorem State.updBoot_key (f : Boot → Boot) : (s.updBoot f).key = s.key := rfl
@[simp] theorem State.updBoot_ptime (f : Boot → Boot) : (s.updBoot f).ptime = s.ptime := rfl
@[simp] theorem State.updBoot_fresh (f : Boot → Boot) : (s.updBoot f).fresh = s.fresh := rfl
@[simp] theorem State.updBoot_out (f : Boot → Boot) : (s.updBoot f).out = s.out := rfl

@[simp] theorem State.updMgmt_pending (f : Mgmt → Mgmt) : (s.updMgmt f).pending = s.pending := rfl
@[simp] theorem State.updMgmt_regs (f : Mgmt → Mgmt) : (s.updMgmt f).regs = s.regs := rfl
@[simp] theorem State.updMgmt_mem (f : Mgmt → Mgmt) : (s.updMgmt f).mem = s.mem := rfl
@[simp] theorem State.updMgmt_opens (f : Mgmt → Mgmt) : (s.updMgmt f).opens = s.opens := rfl
@[simp] theorem State.updMgmt_ecc (f : Mgmt → Mgmt) : (s.updMgmt f).ecc = s.ecc := rfl
@[simp] theorem State.updMgmt_cores (f : Mgmt → Mgmt) : (s.updMgmt f).cores = s.cores := rfl
@[simp] theorem State.updMgmt_routers (f : Mgmt → Mgmt) : (s.updMgmt f).routers = s.routers := rfl
@[simp] theorem State.updMgmt_net (f : Mgmt → Mgmt) : (s.updMgmt f).net = s.net := rfl
@[simp] theorem State.updMgmt_host (f : Mgmt → Mgmt) : (s.updMgmt f).host = s.host := rfl
@[simp] theorem State.updMgmt_parts (f : Mgmt → Mgmt) : (s.updMgmt f).parts = s.parts := rfl
@[simp] theorem State.updMgmt_guards (f : Mgmt → Mgmt) : (s.updMgmt f).guards = s.guards := rfl
@[simp] theorem State.updMgmt_store (f : Mgmt → Mgmt) : (s.updMgmt f).store = s.store := rfl
@[simp] theorem State.updMgmt_tel (f : Mgmt → Mgmt) : (s.updMgmt f).tel = s.tel := rfl
@[simp] theorem State.updMgmt_power (f : Mgmt → Mgmt) : (s.updMgmt f).power = s.power := rfl
@[simp] theorem State.updMgmt_rcv (f : Mgmt → Mgmt) : (s.updMgmt f).rcv = s.rcv := rfl
@[simp] theorem State.updMgmt_clk (f : Mgmt → Mgmt) : (s.updMgmt f).clk = s.clk := rfl
@[simp] theorem State.updMgmt_therm (f : Mgmt → Mgmt) : (s.updMgmt f).therm = s.therm := rfl
@[simp] theorem State.updMgmt_links (f : Mgmt → Mgmt) : (s.updMgmt f).links = s.links := rfl
@[simp] theorem State.updMgmt_guests (f : Mgmt → Mgmt) : (s.updMgmt f).guests = s.guests := rfl
@[simp] theorem State.updMgmt_opt (f : Mgmt → Mgmt) : (s.updMgmt f).opt = s.opt := rfl
@[simp] theorem State.updMgmt_jx (f : Mgmt → Mgmt) : (s.updMgmt f).jx = s.jx := rfl
@[simp] theorem State.updMgmt_key (f : Mgmt → Mgmt) : (s.updMgmt f).key = s.key := rfl
@[simp] theorem State.updMgmt_boot (f : Mgmt → Mgmt) : (s.updMgmt f).boot = s.boot := rfl
@[simp] theorem State.updMgmt_ptime (f : Mgmt → Mgmt) : (s.updMgmt f).ptime = s.ptime := rfl
@[simp] theorem State.updMgmt_fresh (f : Mgmt → Mgmt) : (s.updMgmt f).fresh = s.fresh := rfl
@[simp] theorem State.updMgmt_out (f : Mgmt → Mgmt) : (s.updMgmt f).out = s.out := rfl

@[simp] theorem State.updRcv_pending (f : Rcv → Rcv) : (s.updRcv f).pending = s.pending := rfl
@[simp] theorem State.updRcv_regs (f : Rcv → Rcv) : (s.updRcv f).regs = s.regs := rfl
@[simp] theorem State.updRcv_mem (f : Rcv → Rcv) : (s.updRcv f).mem = s.mem := rfl
@[simp] theorem State.updRcv_opens (f : Rcv → Rcv) : (s.updRcv f).opens = s.opens := rfl
@[simp] theorem State.updRcv_ecc (f : Rcv → Rcv) : (s.updRcv f).ecc = s.ecc := rfl
@[simp] theorem State.updRcv_cores (f : Rcv → Rcv) : (s.updRcv f).cores = s.cores := rfl
@[simp] theorem State.updRcv_routers (f : Rcv → Rcv) : (s.updRcv f).routers = s.routers := rfl
@[simp] theorem State.updRcv_net (f : Rcv → Rcv) : (s.updRcv f).net = s.net := rfl
@[simp] theorem State.updRcv_host (f : Rcv → Rcv) : (s.updRcv f).host = s.host := rfl
@[simp] theorem State.updRcv_parts (f : Rcv → Rcv) : (s.updRcv f).parts = s.parts := rfl
@[simp] theorem State.updRcv_guards (f : Rcv → Rcv) : (s.updRcv f).guards = s.guards := rfl
@[simp] theorem State.updRcv_store (f : Rcv → Rcv) : (s.updRcv f).store = s.store := rfl
@[simp] theorem State.updRcv_tel (f : Rcv → Rcv) : (s.updRcv f).tel = s.tel := rfl
@[simp] theorem State.updRcv_mgmt (f : Rcv → Rcv) : (s.updRcv f).mgmt = s.mgmt := rfl
@[simp] theorem State.updRcv_power (f : Rcv → Rcv) : (s.updRcv f).power = s.power := rfl
@[simp] theorem State.updRcv_clk (f : Rcv → Rcv) : (s.updRcv f).clk = s.clk := rfl
@[simp] theorem State.updRcv_therm (f : Rcv → Rcv) : (s.updRcv f).therm = s.therm := rfl
@[simp] theorem State.updRcv_links (f : Rcv → Rcv) : (s.updRcv f).links = s.links := rfl
@[simp] theorem State.updRcv_guests (f : Rcv → Rcv) : (s.updRcv f).guests = s.guests := rfl
@[simp] theorem State.updRcv_opt (f : Rcv → Rcv) : (s.updRcv f).opt = s.opt := rfl
@[simp] theorem State.updRcv_jx (f : Rcv → Rcv) : (s.updRcv f).jx = s.jx := rfl
@[simp] theorem State.updRcv_key (f : Rcv → Rcv) : (s.updRcv f).key = s.key := rfl
@[simp] theorem State.updRcv_boot (f : Rcv → Rcv) : (s.updRcv f).boot = s.boot := rfl
@[simp] theorem State.updRcv_ptime (f : Rcv → Rcv) : (s.updRcv f).ptime = s.ptime := rfl
@[simp] theorem State.updRcv_fresh (f : Rcv → Rcv) : (s.updRcv f).fresh = s.fresh := rfl
@[simp] theorem State.updRcv_out (f : Rcv → Rcv) : (s.updRcv f).out = s.out := rfl

@[simp] theorem State.write_pending (a : Nat) (l : List Byte) : (s.write a l).pending = s.pending := rfl
@[simp] theorem State.write_regs (a : Nat) (l : List Byte) : (s.write a l).regs = s.regs := rfl
@[simp] theorem State.write_opens (a : Nat) (l : List Byte) : (s.write a l).opens = s.opens := rfl
@[simp] theorem State.write_ecc (a : Nat) (l : List Byte) : (s.write a l).ecc = s.ecc := rfl
@[simp] theorem State.write_cores (a : Nat) (l : List Byte) : (s.write a l).cores = s.cores := rfl
@[simp] theorem State.write_routers (a : Nat) (l : List Byte) : (s.write a l).routers = s.routers := rfl
@[simp] theorem State.write_net (a : Nat) (l : List Byte) : (s.write a l).net = s.net := rfl
@[simp] theorem State.write_host (a : Nat) (l : List Byte) : (s.write a l).host = s.host := rfl
@[simp] theorem State.write_parts (a : Nat) (l : List Byte) : (s.write a l).parts = s.parts := rfl
@[simp] theorem State.write_guards (a : Nat) (l : List Byte) : (s.write a l).guards = s.guards := rfl
@[simp] theorem State.write_store (a : Nat) (l : List Byte) : (s.write a l).store = s.store := rfl
@[simp] theorem State.write_tel (a : Nat) (l : List Byte) : (s.write a l).tel = s.tel := rfl
@[simp] theorem State.write_mgmt (a : Nat) (l : List Byte) : (s.write a l).mgmt = s.mgmt := rfl
@[simp] theorem State.write_power (a : Nat) (l : List Byte) : (s.write a l).power = s.power := rfl
@[simp] theorem State.write_rcv (a : Nat) (l : List Byte) : (s.write a l).rcv = s.rcv := rfl
@[simp] theorem State.write_clk (a : Nat) (l : List Byte) : (s.write a l).clk = s.clk := rfl
@[simp] theorem State.write_therm (a : Nat) (l : List Byte) : (s.write a l).therm = s.therm := rfl
@[simp] theorem State.write_links (a : Nat) (l : List Byte) : (s.write a l).links = s.links := rfl
@[simp] theorem State.write_guests (a : Nat) (l : List Byte) : (s.write a l).guests = s.guests := rfl
@[simp] theorem State.write_opt (a : Nat) (l : List Byte) : (s.write a l).opt = s.opt := rfl
@[simp] theorem State.write_jx (a : Nat) (l : List Byte) : (s.write a l).jx = s.jx := rfl
@[simp] theorem State.write_key (a : Nat) (l : List Byte) : (s.write a l).key = s.key := rfl
@[simp] theorem State.write_boot (a : Nat) (l : List Byte) : (s.write a l).boot = s.boot := rfl
@[simp] theorem State.write_ptime (a : Nat) (l : List Byte) : (s.write a l).ptime = s.ptime := rfl
@[simp] theorem State.write_fresh (a : Nat) (l : List Byte) : (s.write a l).fresh = s.fresh := rfl
@[simp] theorem State.write_out (a : Nat) (l : List Byte) : (s.write a l).out = s.out := rfl

@[simp] theorem State.zeroRange_pending (lo hi : Nat) : (s.zeroRange lo hi).pending = s.pending := rfl
@[simp] theorem State.zeroRange_regs (lo hi : Nat) : (s.zeroRange lo hi).regs = s.regs := rfl
@[simp] theorem State.zeroRange_cores (lo hi : Nat) : (s.zeroRange lo hi).cores = s.cores := rfl
@[simp] theorem State.zeroRange_routers (lo hi : Nat) : (s.zeroRange lo hi).routers = s.routers := rfl
@[simp] theorem State.zeroRange_net (lo hi : Nat) : (s.zeroRange lo hi).net = s.net := rfl
@[simp] theorem State.zeroRange_host (lo hi : Nat) : (s.zeroRange lo hi).host = s.host := rfl
@[simp] theorem State.zeroRange_parts (lo hi : Nat) : (s.zeroRange lo hi).parts = s.parts := rfl
@[simp] theorem State.zeroRange_guards (lo hi : Nat) : (s.zeroRange lo hi).guards = s.guards := rfl
@[simp] theorem State.zeroRange_store (lo hi : Nat) : (s.zeroRange lo hi).store = s.store := rfl
@[simp] theorem State.zeroRange_tel (lo hi : Nat) : (s.zeroRange lo hi).tel = s.tel := rfl
@[simp] theorem State.zeroRange_mgmt (lo hi : Nat) : (s.zeroRange lo hi).mgmt = s.mgmt := rfl
@[simp] theorem State.zeroRange_power (lo hi : Nat) : (s.zeroRange lo hi).power = s.power := rfl
@[simp] theorem State.zeroRange_rcv (lo hi : Nat) : (s.zeroRange lo hi).rcv = s.rcv := rfl
@[simp] theorem State.zeroRange_clk (lo hi : Nat) : (s.zeroRange lo hi).clk = s.clk := rfl
@[simp] theorem State.zeroRange_therm (lo hi : Nat) : (s.zeroRange lo hi).therm = s.therm := rfl
@[simp] theorem State.zeroRange_links (lo hi : Nat) : (s.zeroRange lo hi).links = s.links := rfl
@[simp] theorem State.zeroRange_guests (lo hi : Nat) : (s.zeroRange lo hi).guests = s.guests := rfl
@[simp] theorem State.zeroRange_opt (lo hi : Nat) : (s.zeroRange lo hi).opt = s.opt := rfl
@[simp] theorem State.zeroRange_jx (lo hi : Nat) : (s.zeroRange lo hi).jx = s.jx := rfl
@[simp] theorem State.zeroRange_key (lo hi : Nat) : (s.zeroRange lo hi).key = s.key := rfl
@[simp] theorem State.zeroRange_boot (lo hi : Nat) : (s.zeroRange lo hi).boot = s.boot := rfl
@[simp] theorem State.zeroRange_ptime (lo hi : Nat) : (s.zeroRange lo hi).ptime = s.ptime := rfl
@[simp] theorem State.zeroRange_fresh (lo hi : Nat) : (s.zeroRange lo hi).fresh = s.fresh := rfl
@[simp] theorem State.zeroRange_out (lo hi : Nat) : (s.zeroRange lo hi).out = s.out := rfl

@[simp] theorem State.openRange_pending (lo hi : Nat) : (s.openRange lo hi).pending = s.pending := rfl
@[simp] theorem State.openRange_regs (lo hi : Nat) : (s.openRange lo hi).regs = s.regs := rfl
@[simp] theorem State.openRange_cores (lo hi : Nat) : (s.openRange lo hi).cores = s.cores := rfl
@[simp] theorem State.openRange_routers (lo hi : Nat) : (s.openRange lo hi).routers = s.routers := rfl
@[simp] theorem State.openRange_net (lo hi : Nat) : (s.openRange lo hi).net = s.net := rfl
@[simp] theorem State.openRange_host (lo hi : Nat) : (s.openRange lo hi).host = s.host := rfl
@[simp] theorem State.openRange_parts (lo hi : Nat) : (s.openRange lo hi).parts = s.parts := rfl
@[simp] theorem State.openRange_guards (lo hi : Nat) : (s.openRange lo hi).guards = s.guards := rfl
@[simp] theorem State.openRange_store (lo hi : Nat) : (s.openRange lo hi).store = s.store := rfl
@[simp] theorem State.openRange_tel (lo hi : Nat) : (s.openRange lo hi).tel = s.tel := rfl
@[simp] theorem State.openRange_mgmt (lo hi : Nat) : (s.openRange lo hi).mgmt = s.mgmt := rfl
@[simp] theorem State.openRange_power (lo hi : Nat) : (s.openRange lo hi).power = s.power := rfl
@[simp] theorem State.openRange_rcv (lo hi : Nat) : (s.openRange lo hi).rcv = s.rcv := rfl
@[simp] theorem State.openRange_clk (lo hi : Nat) : (s.openRange lo hi).clk = s.clk := rfl
@[simp] theorem State.openRange_therm (lo hi : Nat) : (s.openRange lo hi).therm = s.therm := rfl
@[simp] theorem State.openRange_links (lo hi : Nat) : (s.openRange lo hi).links = s.links := rfl
@[simp] theorem State.openRange_guests (lo hi : Nat) : (s.openRange lo hi).guests = s.guests := rfl
@[simp] theorem State.openRange_opt (lo hi : Nat) : (s.openRange lo hi).opt = s.opt := rfl
@[simp] theorem State.openRange_jx (lo hi : Nat) : (s.openRange lo hi).jx = s.jx := rfl
@[simp] theorem State.openRange_key (lo hi : Nat) : (s.openRange lo hi).key = s.key := rfl
@[simp] theorem State.openRange_boot (lo hi : Nat) : (s.openRange lo hi).boot = s.boot := rfl
@[simp] theorem State.openRange_ptime (lo hi : Nat) : (s.openRange lo hi).ptime = s.ptime := rfl
@[simp] theorem State.openRange_out (lo hi : Nat) : (s.openRange lo hi).out = s.out := rfl

@[simp] theorem State.resetRegs_pending (lo hi : Nat) : (s.resetRegs lo hi).pending = s.pending := rfl
@[simp] theorem State.resetRegs_mem (lo hi : Nat) : (s.resetRegs lo hi).mem = s.mem := rfl
@[simp] theorem State.resetRegs_opens (lo hi : Nat) : (s.resetRegs lo hi).opens = s.opens := rfl
@[simp] theorem State.resetRegs_ecc (lo hi : Nat) : (s.resetRegs lo hi).ecc = s.ecc := rfl
@[simp] theorem State.resetRegs_cores (lo hi : Nat) : (s.resetRegs lo hi).cores = s.cores := rfl
@[simp] theorem State.resetRegs_routers (lo hi : Nat) : (s.resetRegs lo hi).routers = s.routers := rfl
@[simp] theorem State.resetRegs_net (lo hi : Nat) : (s.resetRegs lo hi).net = s.net := rfl
@[simp] theorem State.resetRegs_host (lo hi : Nat) : (s.resetRegs lo hi).host = s.host := rfl
@[simp] theorem State.resetRegs_parts (lo hi : Nat) : (s.resetRegs lo hi).parts = s.parts := rfl
@[simp] theorem State.resetRegs_guards (lo hi : Nat) : (s.resetRegs lo hi).guards = s.guards := rfl
@[simp] theorem State.resetRegs_store (lo hi : Nat) : (s.resetRegs lo hi).store = s.store := rfl
@[simp] theorem State.resetRegs_tel (lo hi : Nat) : (s.resetRegs lo hi).tel = s.tel := rfl
@[simp] theorem State.resetRegs_mgmt (lo hi : Nat) : (s.resetRegs lo hi).mgmt = s.mgmt := rfl
@[simp] theorem State.resetRegs_power (lo hi : Nat) : (s.resetRegs lo hi).power = s.power := rfl
@[simp] theorem State.resetRegs_rcv (lo hi : Nat) : (s.resetRegs lo hi).rcv = s.rcv := rfl
@[simp] theorem State.resetRegs_clk (lo hi : Nat) : (s.resetRegs lo hi).clk = s.clk := rfl
@[simp] theorem State.resetRegs_therm (lo hi : Nat) : (s.resetRegs lo hi).therm = s.therm := rfl
@[simp] theorem State.resetRegs_links (lo hi : Nat) : (s.resetRegs lo hi).links = s.links := rfl
@[simp] theorem State.resetRegs_guests (lo hi : Nat) : (s.resetRegs lo hi).guests = s.guests := rfl
@[simp] theorem State.resetRegs_opt (lo hi : Nat) : (s.resetRegs lo hi).opt = s.opt := rfl
@[simp] theorem State.resetRegs_jx (lo hi : Nat) : (s.resetRegs lo hi).jx = s.jx := rfl
@[simp] theorem State.resetRegs_key (lo hi : Nat) : (s.resetRegs lo hi).key = s.key := rfl
@[simp] theorem State.resetRegs_boot (lo hi : Nat) : (s.resetRegs lo hi).boot = s.boot := rfl
@[simp] theorem State.resetRegs_ptime (lo hi : Nat) : (s.resetRegs lo hi).ptime = s.ptime := rfl
@[simp] theorem State.resetRegs_fresh (lo hi : Nat) : (s.resetRegs lo hi).fresh = s.fresh := rfl
@[simp] theorem State.resetRegs_out (lo hi : Nat) : (s.resetRegs lo hi).out = s.out := rfl

@[simp] theorem State.draw_pending : s.draw.2.pending = s.pending := rfl
@[simp] theorem State.draw_regs : s.draw.2.regs = s.regs := rfl
@[simp] theorem State.draw_mem : s.draw.2.mem = s.mem := rfl
@[simp] theorem State.draw_opens : s.draw.2.opens = s.opens := rfl
@[simp] theorem State.draw_ecc : s.draw.2.ecc = s.ecc := rfl
@[simp] theorem State.draw_cores : s.draw.2.cores = s.cores := rfl
@[simp] theorem State.draw_routers : s.draw.2.routers = s.routers := rfl
@[simp] theorem State.draw_net : s.draw.2.net = s.net := rfl
@[simp] theorem State.draw_host : s.draw.2.host = s.host := rfl
@[simp] theorem State.draw_parts : s.draw.2.parts = s.parts := rfl
@[simp] theorem State.draw_guards : s.draw.2.guards = s.guards := rfl
@[simp] theorem State.draw_store : s.draw.2.store = s.store := rfl
@[simp] theorem State.draw_tel : s.draw.2.tel = s.tel := rfl
@[simp] theorem State.draw_mgmt : s.draw.2.mgmt = s.mgmt := rfl
@[simp] theorem State.draw_power : s.draw.2.power = s.power := rfl
@[simp] theorem State.draw_rcv : s.draw.2.rcv = s.rcv := rfl
@[simp] theorem State.draw_clk : s.draw.2.clk = s.clk := rfl
@[simp] theorem State.draw_therm : s.draw.2.therm = s.therm := rfl
@[simp] theorem State.draw_links : s.draw.2.links = s.links := rfl
@[simp] theorem State.draw_guests : s.draw.2.guests = s.guests := rfl
@[simp] theorem State.draw_opt : s.draw.2.opt = s.opt := rfl
@[simp] theorem State.draw_jx : s.draw.2.jx = s.jx := rfl
@[simp] theorem State.draw_key : s.draw.2.key = s.key := rfl
@[simp] theorem State.draw_boot : s.draw.2.boot = s.boot := rfl
@[simp] theorem State.draw_ptime : s.draw.2.ptime = s.ptime := rfl
@[simp] theorem State.draw_out : s.draw.2.out = s.out := rfl
@[simp] theorem State.draw_fresh : s.draw.2.fresh = s.fresh + 1 := rfl

@[simp] theorem State.drawMany_pending : s.drawMany.2.pending = s.pending := rfl
@[simp] theorem State.drawMany_regs : s.drawMany.2.regs = s.regs := rfl
@[simp] theorem State.drawMany_mem : s.drawMany.2.mem = s.mem := rfl
@[simp] theorem State.drawMany_opens : s.drawMany.2.opens = s.opens := rfl
@[simp] theorem State.drawMany_ecc : s.drawMany.2.ecc = s.ecc := rfl
@[simp] theorem State.drawMany_cores : s.drawMany.2.cores = s.cores := rfl
@[simp] theorem State.drawMany_routers : s.drawMany.2.routers = s.routers := rfl
@[simp] theorem State.drawMany_net : s.drawMany.2.net = s.net := rfl
@[simp] theorem State.drawMany_host : s.drawMany.2.host = s.host := rfl
@[simp] theorem State.drawMany_parts : s.drawMany.2.parts = s.parts := rfl
@[simp] theorem State.drawMany_guards : s.drawMany.2.guards = s.guards := rfl
@[simp] theorem State.drawMany_store : s.drawMany.2.store = s.store := rfl
@[simp] theorem State.drawMany_tel : s.drawMany.2.tel = s.tel := rfl
@[simp] theorem State.drawMany_mgmt : s.drawMany.2.mgmt = s.mgmt := rfl
@[simp] theorem State.drawMany_power : s.drawMany.2.power = s.power := rfl
@[simp] theorem State.drawMany_rcv : s.drawMany.2.rcv = s.rcv := rfl
@[simp] theorem State.drawMany_clk : s.drawMany.2.clk = s.clk := rfl
@[simp] theorem State.drawMany_therm : s.drawMany.2.therm = s.therm := rfl
@[simp] theorem State.drawMany_links : s.drawMany.2.links = s.links := rfl
@[simp] theorem State.drawMany_guests : s.drawMany.2.guests = s.guests := rfl
@[simp] theorem State.drawMany_opt : s.drawMany.2.opt = s.opt := rfl
@[simp] theorem State.drawMany_jx : s.drawMany.2.jx = s.jx := rfl
@[simp] theorem State.drawMany_key : s.drawMany.2.key = s.key := rfl
@[simp] theorem State.drawMany_boot : s.drawMany.2.boot = s.boot := rfl
@[simp] theorem State.drawMany_ptime : s.drawMany.2.ptime = s.ptime := rfl
@[simp] theorem State.drawMany_out : s.drawMany.2.out = s.out := rfl
@[simp] theorem State.drawMany_fresh : s.drawMany.2.fresh = s.fresh + 1 := rfl

/-! ### Reading back -/

@[simp] theorem State.emit_out (o : Out) : (s.emit o).out = o :: s.out := rfl
@[simp] theorem State.updHost_host (f : HostSide → HostSide) : (s.updHost f).host = f s.host := rfl
@[simp] theorem State.updNet_net (f : Net → Net) : (s.updNet f).net = f s.net := rfl
@[simp] theorem State.updKey_key (f : Keyring → Keyring) : (s.updKey f).key = f s.key := rfl
@[simp] theorem State.updOpt_opt (f : Optics → Optics) : (s.updOpt f).opt = f s.opt := rfl
@[simp] theorem State.updBoot_boot (f : Boot → Boot) : (s.updBoot f).boot = f s.boot := rfl
@[simp] theorem State.updMgmt_mgmt (f : Mgmt → Mgmt) : (s.updMgmt f).mgmt = f s.mgmt := rfl
@[simp] theorem State.updRcv_rcv (f : Rcv → Rcv) : (s.updRcv f).rcv = f s.rcv := rfl

@[simp] theorem State.core_setCore_same (n : Nat) (x : Core) : (s.setCore n x).core n = x := by simp [State.core, State.setCore]
theorem State.core_setCore_ne {n m : Nat} (x : Core) (h : m ≠ n) : (s.setCore n x).core m = s.core m := by
  simp [State.core, State.setCore, Tab.get_set_ne _ _ _ h]
@[simp] theorem State.router_setRouter_same (n : Nat) (x : Router) : (s.setRouter n x).router n = x := by simp [State.router, State.setRouter]
theorem State.router_setRouter_ne {n m : Nat} (x : Router) (h : m ≠ n) : (s.setRouter n x).router m = s.router m := by
  simp [State.router, State.setRouter, Tab.get_set_ne _ _ _ h]
@[simp] theorem State.part_setPart_same (n : Nat) (x : Part) : (s.setPart n x).part n = x := by simp [State.part, State.setPart]
theorem State.part_setPart_ne {n m : Nat} (x : Part) (h : m ≠ n) : (s.setPart n x).part m = s.part m := by
  simp [State.part, State.setPart, Tab.get_set_ne _ _ _ h]
@[simp] theorem State.guest_setGuest_same (n : Nat) (x : Guest) : (s.setGuest n x).guest n = x := by simp [State.guest, State.setGuest]
theorem State.guest_setGuest_ne {n m : Nat} (x : Guest) (h : m ≠ n) : (s.setGuest n x).guest m = s.guest m := by
  simp [State.guest, State.setGuest, Tab.get_set_ne _ _ _ h]
@[simp] theorem State.port_setPort_same (n : Nat) (x : JxPort) : (s.setPort n x).port n = x := by simp [State.port, State.setPort]
theorem State.port_setPort_ne {n m : Nat} (x : JxPort) (h : m ≠ n) : (s.setPort n x).port m = s.port m := by
  simp [State.port, State.setPort, Tab.get_set_ne _ _ _ h]
@[simp] theorem State.node_setNode_same (n : Nat) (x : Node) : (s.setNode n x).node n = x := by simp [State.node, State.setNode]
theorem State.node_setNode_ne {n m : Nat} (x : Node) (h : m ≠ n) : (s.setNode n x).node m = s.node m := by
  simp [State.node, State.setNode, Tab.get_set_ne _ _ _ h]

@[simp] theorem State.bport_setBport_same (k : Nat) (p : Port BulkPkt) : (s.setBport k p).bport k = p := by simp [State.bport, State.setBport]
theorem State.bport_setBport_ne {k j : Nat} (p : Port BulkPkt) (h : j ≠ k) : (s.setBport k p).bport j = s.bport j := by
  simp [State.bport, State.setBport, Tab.get_set_ne _ _ _ h]
@[simp] theorem State.cport_setCport_same (k : Nat) (p : Port CtlPkt) : (s.setCport k p).cport k = p := by simp [State.cport, State.setCport]
theorem State.cport_setCport_ne {k j : Nat} (p : Port CtlPkt) (h : j ≠ k) : (s.setCport k p).cport j = s.cport j := by
  simp [State.cport, State.setCport, Tab.get_set_ne _ _ _ h]
@[simp] theorem State.syncLink_setSync_same (n m : Nat) (x : SyncLink) : (s.setSync n m x).syncLink n m = x := by simp [State.syncLink, State.setSync]
theorem State.syncLink_setSync_ne {n m j k : Nat} (x : SyncLink) (h : 256 * j + k ≠ 256 * n + m) : (s.setSync n m x).syncLink j k = s.syncLink j k := by
  simp [State.syncLink, State.setSync, Tab.get_set_ne _ _ _ h]
@[simp] theorem State.updDescs_descs (f : List Desc → List Desc) : (s.updDescs f).host.descs = f s.host.descs := rfl

@[simp] theorem State.core_updCore_same (c : Nat) (f : Core → Core) : (s.updCore c f).core c = f (s.core c) := by simp [State.updCore]
theorem State.core_updCore_ne {c d : Nat} (f : Core → Core) (h : d ≠ c) : (s.updCore c f).core d = s.core d := by
  simp [State.updCore, State.core_setCore_ne s _ h]

@[simp] theorem Core.task_setTask_same (k : Core) (i : Nat) (t : Task) : (k.setTask i t).task i = t := by simp [Core.task, Core.setTask]
theorem Core.task_setTask_ne (k : Core) {i j : Nat} (t : Task) (h : j ≠ i) : (k.setTask i t).task j = k.task j := by
  simp [Core.task, Core.setTask, Tab.get_set_ne _ _ _ h]

@[simp] theorem State.task_updTask_same (c i : Nat) (f : Task → Task) : (s.updTask c i f).task c i = f (s.task c i) := by
  simp [State.updTask, State.setTask, State.task]
theorem State.task_updTask_slot_ne {c i j : Nat} (f : Task → Task) (h : j ≠ i) : (s.updTask c i f).task c j = s.task c j := by
  simp [State.updTask, State.setTask, State.task, Core.task_setTask_ne _ _ h]
theorem State.task_updTask_core_ne {c d i j : Nat} (f : Task → Task) (h : d ≠ c) : (s.updTask c i f).task d j = s.task d j := by
  simp [State.updTask, State.setTask, State.task, State.core_setCore_ne s _ h]

end Sys2Proof.Machine
end

