-- ==== Sys2Proof/Laws/Regs.lean ====
section
/-! SUPPORT. Register fields: a write reads back, cut to the field's width, and leaves every other field. -/

namespace Sys2Proof.Machine

variable (s : State)

theorem xor_reset (a r : Nat) : Nat.xor (Nat.xor a r) r = a := by
  show (a ^^^ r) ^^^ r = a
  rw [Nat.xor_assoc, Nat.xor_self, Nat.xor_zero]

/-- A field's value after a write of it. -/
@[simp] theorem State.rd_wr_same (f : Field) (v : Nat) : (s.wr f v).rd f = v % 2 ^ f.w := by
  simp [State.rd, State.wr]

/-- A write leaves every field with another key. -/
theorem State.rd_wr_ne {f g : Field} (v : Nat) (h : g.key ≠ f.key) : (s.wr f v).rd g = s.rd g := by
  simp [State.rd, State.wr, Tab.get_set_ne _ _ _ h]

theorem State.bit_wr_ne {f g : Field} (v : Nat) (h : g.key ≠ f.key) : (s.wr f v).bit g = s.bit g := by
  simp [State.bit, s.rd_wr_ne v h]

/-- Fields depend on the register table alone. -/
theorem State.rd_congr {s t : State} (h : t.regs = s.regs) (f : Field) : t.rd f = s.rd f := by simp [State.rd, h]
theorem State.bit_congr {s t : State} (h : t.regs = s.regs) (f : Field) : t.bit f = s.bit f := by simp [State.bit, State.rd_congr h]

@[simp] theorem State.rd_emit (o : Out) (f : Field) : (s.emit o).rd f = s.rd f := rfl
@[simp] theorem State.rd_updHost (g : HostSide → HostSide) (f : Field) : (s.updHost g).rd f = s.rd f := rfl
@[simp] theorem State.rd_updNode (n : Nat) (g : Node → Node) (f : Field) : (s.updNode n g).rd f = s.rd f := rfl
@[simp] theorem State.rd_updNet (g : Net → Net) (f : Field) : (s.updNet g).rd f = s.rd f := rfl
@[simp] theorem State.rd_updCore (c : Nat) (g : Core → Core) (f : Field) : (s.updCore c g).rd f = s.rd f := rfl
@[simp] theorem State.rd_setCore (c : Nat) (k : Core) (f : Field) : (s.setCore c k).rd f = s.rd f := rfl
@[simp] theorem State.rd_updTask (c i : Nat) (g : Task → Task) (f : Field) : (s.updTask c i g).rd f = s.rd f := rfl
@[simp] theorem State.rd_updRouter (c : Nat) (g : Router → Router) (f : Field) : (s.updRouter c g).rd f = s.rd f := rfl
@[simp] theorem State.rd_updPart (p : Nat) (g : Part → Part) (f : Field) : (s.updPart p g).rd f = s.rd f := rfl
@[simp] theorem State.rd_updGuest (n : Nat) (g : Guest → Guest) (f : Field) : (s.updGuest n g).rd f = s.rd f := rfl
@[simp] theorem State.rd_setGuest (n : Nat) (x : Guest) (f : Field) : (s.setGuest n x).rd f = s.rd f := rfl
@[simp] theorem State.rd_setPort (n : Nat) (x : JxPort) (f : Field) : (s.setPort n x).rd f = s.rd f := rfl
@[simp] theorem State.rd_updPort (n : Nat) (g : JxPort → JxPort) (f : Field) : (s.updPort n g).rd f = s.rd f := rfl
@[simp] theorem State.rd_updKey (g : Keyring → Keyring) (f : Field) : (s.updKey g).rd f = s.rd f := rfl
@[simp] theorem State.rd_updOpt (g : Optics → Optics) (f : Field) : (s.updOpt g).rd f = s.rd f := rfl
@[simp] theorem State.rd_updBoot (g : Boot → Boot) (f : Field) : (s.updBoot g).rd f = s.rd f := rfl
@[simp] theorem State.rd_updMgmt (g : Mgmt → Mgmt) (f : Field) : (s.updMgmt g).rd f = s.rd f := rfl
@[simp] theorem State.rd_updRcv (g : Rcv → Rcv) (f : Field) : (s.updRcv g).rd f = s.rd f := rfl
@[simp] theorem State.rd_write (a : Nat) (l : List Byte) (f : Field) : (s.write a l).rd f = s.rd f := rfl
@[simp] theorem State.rd_draw (f : Field) : s.draw.2.rd f = s.rd f := rfl

/-- A one-bit field after it is written with a bit. -/
theorem State.bit_wr_same (f : Field) (v : Nat) (hw : f.w = 1) : (s.wr f v).bit f = decide (v % 2 = 1) := by
  simp [State.bit, hw]

end Sys2Proof.Machine
end

