-- ==== Sys2Proof/Laws/Issue.lean ====
section
/-! SUPPORT. What running an instruction leaves: the slots that wake, the choice of a slot, the counter of instructions, and the two ways in which
an instruction completes. -/

namespace Sys2Proof.Machine

/-- `k'` is `k` with some slots that waited made READY. -/
def WokeFrom (k k' : Core) : Prop :=
  (∀ j, k'.task j = k.task j ∨ ((k.task j).st = .waiting ∧ k'.task j = { k.task j with st := .ready, wait := none })) ∧
  { k' with tasks := [] } = { k with tasks := [] }

theorem wakeOne_spec (k : Core) (st : Core × List (Option WaitCond)) (i : Nat) (h : WokeFrom k st.1) : WokeFrom k (wakeOne st i).1 := by
  by_cases hc : (decide ((st.1.task i).st = .waiting) && st.1.waitOver (st.1.task i) &&
      decide ((st.2.filter (sameWait (st.1.task i).wait)).length < st.1.freeFor (st.1.task i).wait)) = true
  · have e : wakeOne st i = (st.1.setTask i { st.1.task i with st := .ready, wait := none }, (st.1.task i).wait :: st.2) := by
      unfold wakeOne; exact if_pos hc
    rw [e]
    simp only [Bool.and_eq_true, decide_eq_true_eq] at hc
    refine ⟨fun j => ?_, h.2⟩
    by_cases hj : j = i
    · subst hj
      have e2 : (st.1.setTask j { st.1.task j with st := .ready, wait := none }).task j = { st.1.task j with st := .ready, wait := none } :=
        Core.task_setTask_same _ _ _
      rw [e2]
      rcases h.1 j with e | ⟨-, e⟩
      · rw [e] at hc ⊢; exact .inr ⟨hc.1.1, rfl⟩
      · rw [e] at hc; exact absurd hc.1.1 (by simp)
    · have e2 : (st.1.setTask i { st.1.task i with st := .ready, wait := none }).task j = st.1.task j :=
        Core.task_setTask_ne _ _ hj
      rw [e2]; exact h.1 j
  · have e : wakeOne st i = st := by unfold wakeOne; exact if_neg hc
    rw [e]; exact h

/-- Waking touches no slot but those that wait, and makes them READY (R36). -/
theorem Core.wake_spec (k : Core) : WokeFrom k k.wake := by
  have key : ∀ (l : List Nat) (st : Core × List (Option WaitCond)), WokeFrom k st.1 → WokeFrom k (l.foldl wakeOne st).1 := by
    intro l
    induction l with
    | nil => exact fun _ h => h
    | cons i l ih => exact fun st h => ih _ (wakeOne_spec k st i h)
  exact key _ _ ⟨fun _ => .inl rfl, rfl⟩

/-- A slot that is RUNNING is found. -/
theorem Core.running_isSome {k : Core} {i : Nat} (hi : i < 4) (h : (k.task i).st = .running) : k.running.isSome = true := by
  simp only [Core.running, List.find?_isSome]
  exact ⟨i, List.mem_range.2 hi, by simp [h]⟩

theorem Core.lt_of_running {k : Core} {i : Nat} (h : k.running = some i) : i < 4 :=
  List.mem_range.1 (List.mem_of_find?_eq_some h)

theorem Core.st_of_running {k : Core} {i : Nat} (h : k.running = some i) : (k.task i).st = .running := by
  have := List.find?_some h
  simpa using this

/-- With a slot RUNNING, scheduling only wakes slots (R35, R36). -/
theorem State.resched_running {v : State} {c i : Nat} (hi : i < 4) (h : (v.task c i).st = .running) :
    v.resched c = v.setCore c (v.core c).wake := by
  have hw : ((v.core c).wake.task i).st = .running := by
    rcases (v.core c).wake_spec.1 i with e | ⟨e, -⟩
    · rw [e]; exact h
    · change ((v.core c).task i).st = .waiting at e
      change ((v.core c).task i).st = .running at h
      rw [h] at e; cases e
  have hs : (v.core c).wake.select = ((v.core c).wake, false) := by
    simp [Core.select, Core.running_isSome hi hw]
  simp [State.resched, hs]

/-- What counting leaves, by field of State. -/
theorem State.pcount_frame (s : State) (unit : Nat) (f wrap : Field) (bit n : Nat) :
    { s.pcount unit f wrap bit n with regs := [], tel := Tel.reset } = { s with regs := [], tel := Tel.reset } ∧
    { (s.pcount unit f wrap bit n).tel with wraps := [] } = { s.tel with wraps := [] } ∧
    (∀ g, g.key ≠ f.key → g.key ≠ wrap.key → (s.pcount unit f wrap bit n).rd g = s.rd g) := by
  simp only [State.pcount]
  split
  · exact ⟨rfl, rfl, fun g h _ => s.rd_wr_ne _ h⟩
  · split
    · exact ⟨rfl, rfl, fun g h _ => s.rd_wr_ne _ h⟩
    · refine ⟨rfl, rfl, fun g h h' => ?_⟩
      have : ∀ (x : State) (y : Tel), ({ x with tel := y } : State).rd g = x.rd g := fun _ _ => rfl
      rw [this, State.wrBit, State.rd_wr_ne _ _ h', State.rd_wr_ne _ _ h]

/-- A counter's value after it counts. -/
theorem State.pcount_rd (s : State) (unit : Nat) (f wrap : Field) (bit n : Nat) (h : f.key ≠ wrap.key) :
    (s.pcount unit f wrap bit n).rd f = (s.rd f + n) % 2 ^ f.w := by
  simp only [State.pcount]
  split
  · simp
  · split
    · simp
    · have : ∀ (x : State) (y : Tel), ({ x with tel := y } : State).rd f = x.rd f := fun _ _ => rfl
      rw [this, State.wrBit, State.rd_wr_ne _ _ h]; simp

theorem State.pcount_cores (s : State) (unit : Nat) (f wrap : Field) (bit n : Nat) :
    (s.pcount unit f wrap bit n).cores = s.cores := by
  have := congrArg State.cores (s.pcount_frame unit f wrap bit n).1
  exact this

/-- The counters of a core and the word of their WRAP bits are two registers. -/
theorem perf_key_ne (d n : Nat) {i : Nat} (h : i < 13) : (CD_PERF.COUNT d n i).key ≠ (CD_PERF_WRAP.WRAP d n).key := by
  simp only [CD_PERF.COUNT, CD_PERF_WRAP.WRAP]; omega

theorem State.perf_core (v : State) (c i n d : Nat) : (v.perf c i n).core d = v.core d := by
  unfold State.core State.perf; rw [State.pcount_cores]

/-- The core after a slot's task has moved on by `f` and the core is scheduled. -/
theorem moved_core {u : State} {c i : Nat} {f : Task → Task} (hi : i < 4) (hf : (f (u.task c i)).st = .running) :
    (((u.updTask c i f).perf c 1 1).resched c) =
      ((u.updTask c i f).perf c 1 1).setCore c ((u.core c).setTask i (f (u.task c i))).wake := by
  have hk : ((u.updTask c i f).perf c 1 1).core c = (u.core c).setTask i (f (u.task c i)) := by
    rw [State.perf_core]; exact State.core_setCore_same _ _ _
  have ht : (((u.updTask c i f).perf c 1 1).task c i).st = .running := by
    unfold State.task; rw [hk, Core.task_setTask_same]; exact hf
  rw [State.resched_running hi ht, hk]

theorem State.task_of_core {s : State} {c i : Nat} {k : Core} (h : s.core c = k) : s.task c i = k.task i := by rw [← h]; rfl

theorem setCore_frame (x : State) (c : Nat) (k : Core) :
    ({ x.setCore c k with cores := [], regs := [], tel := Tel.reset } : State) = { x with cores := [], regs := [], tel := Tel.reset } := rfl

/-- Counting an instruction and scheduling after a slot's task has moved on by `f`. -/
theorem Ran_moved {u : State} {c i : Nat} {f : Task → Task} (hi : i < 4) (hf : (f (u.task c i)).st = .running) :
    Ran u (((u.updTask c i f).perf c 1 1).resched c) c i f := by
  rw [moved_core hi hf]
  obtain ⟨w1, w2⟩ := ((u.core c).setTask i (f (u.task c i))).wake_spec
  obtain ⟨p1, p2, p3⟩ := (u.updTask c i f).pcount_frame (coreDie c) (CD_PERF.COUNT (coreDie c) (coreN c) 1)
    (CD_PERF_WRAP.WRAP (coreDie c) (coreN c)) 1 1
  refine ⟨?_, ?_, ?_, ?_, ?_, ?_, ?_, ?_⟩
  · rw [State.task_of_core (State.core_setCore_same _ _ _)]
    rcases w1 i with e | ⟨e, -⟩
    · rw [e, Core.task_setTask_same]
    · rw [Core.task_setTask_same, hf] at e; cases e
  · intro j hj
    have := w1 j
    rw [Core.task_setTask_ne _ _ hj] at this
    rw [State.task_of_core (State.core_setCore_same _ _ _)]
    exact this
  · rw [State.core_setCore_same, w2]; rfl
  · intro d hd
    rw [State.core_setCore_ne _ _ hd, State.perf_core]
    exact State.core_setCore_ne _ _ hd
  · have e := (u.updTask c i f).pcount_rd (coreDie c) (CD_PERF.COUNT (coreDie c) (coreN c) 1)
      (CD_PERF_WRAP.WRAP (coreDie c) (coreN c)) 1 1 (perf_key_ne _ _ (by omega))
    rw [State.rd_updTask, show (CD_PERF.COUNT (coreDie c) (coreN c) 1).w = 48 from rfl] at e
    rw [State.rd_setCore]
    unfold State.perf
    exact e
  · intro g h h'
    have e := p3 g h h'
    rw [State.rd_updTask] at e
    rw [State.rd_setCore]
    unfold State.perf
    exact e
  · exact p2
  · rw [setCore_frame]
    have e : ({ ({ (u.updTask c i f).perf c 1 1 with regs := [], tel := Tel.reset } : State) with cores := [] } : State) =
      { ({ u.updTask c i f with regs := [], tel := Tel.reset } : State) with cores := [] } := by unfold State.perf; rw [p1]
    exact e

theorem Task.advance_st (t : Task) (size : Nat) : (t.advance size).st = t.st := by
  unfold Task.advance; dsimp only
  cases t.loop with
  | none => rfl
  | some l => dsimp only; split <;> [split <;> rfl; rfl]

theorem Task.transfer_st (t : Task) (g : Int) : (t.transfer g).st = t.st := by
  unfold Task.transfer; dsimp only; split <;> rfl

/-- An instruction that completes in sequence. -/
theorem Ran_go {u : State} {c i size : Nat} (hi : i < 4) (h : (u.task c i).st = .running) :
    Ran u (finish c i size (.go u)) c i (fun t => t.advance size) := by
  unfold finish
  exact Ran_moved (f := fun t => t.advance size) hi ((Task.advance_st _ _).trans h)

/-- An instruction that transfers control. -/
theorem Ran_jump {u : State} {c i size : Nat} {g : Int} (hi : i < 4) (h : (u.task c i).st = .running) :
    Ran u (finish c i size (.jump u g)) c i (fun t => t.transfer g) := by
  unfold finish
  exact Ran_moved (f := fun t => t.transfer g) hi ((Task.transfer_st _ _).trans h)

/-- Running an instruction that a core issues: its checks, then its body. -/
theorem State.runInstr_issues {s u : State} {c i size : Nat} (h : s.Issues c i size u) (check : Task → Option TrapReq)
    (body : Nat → State → Done) (hc : check (u.task c i) = none) :
    s.runInstr c size check body = finish c i size (body i u) := by
  obtain ⟨h1, h2, h3, h4⟩ := h
  simp only [State.runInstr, h1, h2, h3, h4, hc, if_true]

end Sys2Proof.Machine
end

