-- ==== Sys2Proof/Laws/Net.lean ====
section
/-! SUPPORT. What the networks' operations can change: taking a packet from a link's buffer, the ports, the flit counters, and what the panel sends (R161, R162,
R582); sending on the control network, its ports; sending on the sync network, its links. -/

namespace Sys2Proof.Machine

/-- `t` is `s` but for the ports, the flit counters of links with their wraps, and what the panel has sent. -/
def TxOnly (s t : State) : Prop :=
  { t with regs := [], tel := Tel.reset, out := [], net := { t.net with ports := [] } } =
    { s with regs := [], tel := Tel.reset, out := [], net := { s.net with ports := [] } } ∧
  { t.tel with wraps := [] } = { s.tel with wraps := [] } ∧
  ∀ g : Field, (∀ d i, g.key ≠ (CD_NET_TX.COUNT d i).key) → (∀ d, g.key ≠ (CD_PERF_DWRAP.NET_WRAP d).key) → t.rd g = s.rd g

theorem TxOnly.refl (s : State) : TxOnly s s := ⟨rfl, rfl, fun _ _ _ => rfl⟩

theorem TxOnly.trans {a b c : State} (h : TxOnly a b) (k : TxOnly b c) : TxOnly a c :=
  ⟨k.1.trans h.1, k.2.1.trans h.2.1, fun g x y => (k.2.2 g x y).trans (h.2.2 g x y)⟩

theorem TxOnly.cores {s t : State} (h : TxOnly s t) : t.cores = s.cores := by have := congrArg State.cores h.1; exact this
theorem TxOnly.routers {s t : State} (h : TxOnly s t) : t.routers = s.routers := by have := congrArg State.routers h.1; exact this
theorem TxOnly.mem {s t : State} (h : TxOnly s t) : t.mem = s.mem := by have := congrArg State.mem h.1; exact this
theorem TxOnly.ecc {s t : State} (h : TxOnly s t) : t.ecc = s.ecc := by have := congrArg State.ecc h.1; exact this

theorem setBport_txOnly (s : State) (k : Nat) (p : Port BulkPkt) : TxOnly s (s.setBport k p) := ⟨rfl, rfl, fun _ _ _ => rfl⟩

theorem emit_txOnly (s : State) (o : Out) : TxOnly s (s.emit o) := ⟨rfl, rfl, fun _ _ _ => rfl⟩

theorem txCount_txOnly (s : State) (loc w : Nat) (h : BulkHdr) : TxOnly s (s.txCount loc w h) := by
  unfold State.txCount
  split
  · obtain ⟨a, b, c⟩ := s.pcount_frame (coreDie loc) (CD_NET_TX.COUNT (coreDie loc) (w % 4)) (CD_PERF_DWRAP.NET_WRAP (coreDie loc)) (w % 4) (flits h)
    refine ⟨?_, b, fun g x y => c g (x _ _) (y _)⟩
    have e := congrArg (fun z : State => ({ z with out := [], net := { z.net with ports := [] } } : State)) a
    exact e
  · exact TxOnly.refl s

theorem sendOff_txOnly (s : State) (k : Nat) (q : BulkPkt) : TxOnly s (s.sendOff k q) := by
  unfold State.sendOff; dsimp only
  refine TxOnly.trans ?_ ((txCount_txOnly _ _ _ _).trans (emit_txOnly _ _))
  split
  · exact setBport_txOnly _ _ _
  · exact TxOnly.refl s

theorem bpump_txOnly (n : Nat) (ks : List Nat) (s : State) : TxOnly s (State.bpump n ks s) := by
  induction n generalizing ks s with
  | zero => cases ks <;> exact TxOnly.refl s
  | succ n ih =>
    cases ks with
    | nil => exact TxOnly.refl s
    | cons k ks =>
      unfold State.bpump
      split
      · exact ih _ _
      · exact (setBport_txOnly _ _ _).trans (ih _ _)
      · exact ((setBport_txOnly _ _ _).trans (sendOff_txOnly _ _ _)).trans (ih _ _)

theorem pumpPorts_txOnly (s : State) (ks : List Nat) : TxOnly s (s.pumpPorts ks) := bpump_txOnly _ _ _

/-- A packet taken from its buffer gives its credits back, and what waited for them leaves; nothing else changes (R162). -/
theorem State.took_txOnly (s : State) (loc : Nat) (h : BulkHdr) : TxOnly s (s.took loc h) := by
  unfold State.took
  split
  · exact (setBport_txOnly _ _ _).trans (pumpPorts_txOnly _ _)
  · exact TxOnly.refl s

/-- A packet that leaves by a port changes no more. -/
theorem State.leaveBy_txOnly (s : State) (loc way : Nat) (q : BulkPkt) : TxOnly s (s.leaveBy loc way q) :=
  (setBport_txOnly _ _ _).trans (pumpPorts_txOnly _ _)

/-! ### The control and the sync network -/

/-- `t` is `s` but for the control ports and what the panel has sent. -/
def CtlOnly (s t : State) : Prop :=
  { t with out := [], net := { t.net with cports := [] } } = { s with out := [], net := { s.net with cports := [] } }

theorem CtlOnly.regs {s t : State} (h : CtlOnly s t) : t.regs = s.regs := by have := congrArg State.regs h; exact this
theorem CtlOnly.cores {s t : State} (h : CtlOnly s t) : t.cores = s.cores := by have := congrArg State.cores h; exact this
theorem CtlOnly.mem {s t : State} (h : CtlOnly s t) : t.mem = s.mem := by have := congrArg State.mem h; exact this

theorem cpump_ctlOnly (n k : Nat) (s : State) : CtlOnly s (State.cpump n k s) := by
  induction n generalizing s with
  | zero => rfl
  | succ n ih =>
    unfold State.cpump
    split
    · rfl
    · exact (ih _).trans rfl
    · exact (ih _).trans rfl

/-- A control packet that leaves its node changes the control ports and what the panel has sent, no more (R161, R162). -/
theorem State.ctlOut_ctlOnly (s : State) (h : CtlHdr) (flits : List Nat) : CtlOnly s (s.ctlOut h flits) := by
  unfold State.ctlOut
  split
  · rfl
  · split
    · rfl
    · exact (cpump_ctlOnly _ _ _).trans rfl

/-- So does one that is taken at its node. -/
theorem State.ctlTook_ctlOnly (s : State) (h : CtlHdr) : CtlOnly s (s.ctlTook h) := by
  unfold State.ctlTook
  split
  · exact (cpump_ctlOnly _ _ _).trans rfl
  · rfl

/-- `t` is `s` but for the sync links and what the panel has sent. -/
def SyncOnly (s t : State) : Prop :=
  { t with out := [], net := { t.net with syncs := [] } } = { s with out := [], net := { s.net with syncs := [] } }

theorem SyncOnly.regs {s t : State} (h : SyncOnly s t) : t.regs = s.regs := by have := congrArg State.regs h; exact this
theorem SyncOnly.cores {s t : State} (h : SyncOnly s t) : t.cores = s.cores := by have := congrArg State.cores h; exact this
theorem SyncOnly.mem {s t : State} (h : SyncOnly s t) : t.mem = s.mem := by have := congrArg State.mem h; exact this

/-- A sync message that is sent, or that waits, changes its link and what the panel has sent, no more (R191). -/
theorem State.syncSend_syncOnly (s : State) (n m type seq arg : Nat) (data : List Nat) : SyncOnly s (s.syncSend n m type seq arg data) := by
  unfold State.syncSend; dsimp only
  split <;> rfl

theorem syncDrain_syncOnly (n m fuel : Nat) (s : State) : SyncOnly s (State.syncDrain n m fuel s) := by
  induction fuel generalizing s with
  | zero => rfl
  | succ k ih =>
    unfold State.syncDrain; dsimp only
    split
    · rfl
    · split
      · rfl
      · exact (ih _).trans rfl

end Sys2Proof.Machine
end

