-- ==== Sys2Proof/Laws/Scratch.lean ====
section
/-! SUPPORT. The scratchpad's error codes leave the tasks, the memory and everything that is not a record of an error as it was. -/

namespace Sys2Proof.Machine

theorem ErrOnly.refl (s : State) : ErrOnly s s := ⟨rfl, fun _ => rfl, rfl⟩

theorem ErrOnly.trans {a b c : State} (h : ErrOnly a b) (k : ErrOnly b c) : ErrOnly a c :=
  ⟨k.1.trans h.1, fun d => (k.2.1 d).trans (h.2.1 d), k.2.2.trans h.2.2⟩

theorem ErrOnly.mem {s t : State} (h : ErrOnly s t) : t.mem = s.mem := by have := congrArg State.mem h.1; exact this
theorem ErrOnly.opens {s t : State} (h : ErrOnly s t) : t.opens = s.opens := by have := congrArg State.opens h.1; exact this
theorem ErrOnly.tasks {s t : State} (h : ErrOnly s t) (c : Nat) : (t.core c).tasks = (s.core c).tasks := by
  have := congrArg Core.tasks (h.2.1 c); exact this
theorem ErrOnly.task {s t : State} (h : ErrOnly s t) (c i : Nat) : t.task c i = s.task c i := by
  unfold State.task Core.task; rw [h.tasks]

theorem wr_errOnly (s : State) (f : Field) (v : Nat) : ErrOnly s (s.wr f v) := ⟨rfl, fun _ => rfl, rfl⟩

theorem hcount_errOnly (s : State) (f g : Field) (n : Nat) : ErrOnly s (s.hcount f g n) := by
  unfold State.hcount; dsimp only; split
  · exact (wr_errOnly _ _ _).trans (wr_errOnly _ _ _)
  · exact wr_errOnly _ _ _

/-- A change of the networks and of what the panel sends. -/
theorem net_errOnly (s : State) (n : Net) (o : List Out) : ErrOnly s { s with net := n, out := o } := ⟨rfl, fun _ => rfl, rfl⟩

theorem cpump_errOnly (n k : Nat) (s : State) : ErrOnly s (State.cpump n k s) := by
  induction n generalizing s with
  | zero => exact ErrOnly.refl s
  | succ n ih =>
    unfold State.cpump
    split
    · exact ErrOnly.refl s
    · exact (net_errOnly s _ s.out).trans (ih _)
    · exact (net_errOnly s _ _).trans (ih _)

theorem ctlOut_errOnly (s : State) (h : CtlHdr) (flits : List Nat) : ErrOnly s (s.ctlOut h flits) := by
  unfold State.ctlOut; dsimp only
  split
  · exact net_errOnly s s.net _
  · split
    · exact net_errOnly s s.net _
    · exact (net_errOnly s _ s.out).trans (cpump_errOnly _ _ _)

theorem sendFault_errOnly (s : State) (a b c d e f : Nat) : ErrOnly s (s.sendFault a b c d e f) := by
  unfold State.sendFault; dsimp only
  exact (net_errOnly s _ s.out).trans (ctlOut_errOnly _ _ _)

theorem dayCount_errOnly (s : State) (k n : Nat) : ErrOnly s (s.dayCount k n) := ⟨rfl, fun _ => rfl, rfl⟩

theorem ecc_errOnly (s : State) (e : Tab Nat) : ErrOnly s { s with ecc := e } := ⟨rfl, fun _ => rfl, rfl⟩

theorem ceTimes_errOnly (s : State) (c : Nat) (l : List Nat) : ErrOnly s (s.updCore c (fun k => { k with ceTimes := l })) := by
  refine ⟨rfl, fun d => ?_, rfl⟩
  by_cases h : d = c
  · subst h; rw [State.core_updCore_same]
  · rw [State.core_updCore_ne _ _ h]

theorem ceRate_errOnly (s : State) (c n : Nat) : ErrOnly s (s.ceRate c n) := by
  unfold State.ceRate; dsimp only
  split
  · exact ((ceTimes_errOnly _ _ _).trans (dayCount_errOnly _ _ _)).trans (sendFault_errOnly _ _ _ _ _ _ _)
  · exact (ceTimes_errOnly _ _ _).trans (dayCount_errOnly _ _ _)

theorem noteCe_errOnly (s : State) (c a : Nat) : ErrOnly s (s.noteCe c a) := by
  unfold State.noteCe; dsimp only
  exact ((((hcount_errOnly _ _ _ _).trans (wr_errOnly _ _ _)).trans (wr_errOnly _ _ _)).trans (ecc_errOnly _ _)).trans (ceRate_errOnly _ _ _)

theorem noteUe_errOnly (s : State) (c a : Nat) : ErrOnly s (s.noteUe c a) := by
  unfold State.noteUe State.coreFault; dsimp only
  exact ((((wr_errOnly _ _ _).trans (wr_errOnly _ _ _)).trans (wr_errOnly _ _ _)).trans (wr_errOnly _ _ _)).trans (sendFault_errOnly _ _ _ _ _ _ _)

theorem forL_errOnly {α : Type} (l : List α) (f : α → State → State) (hf : ∀ a s, ErrOnly s (f a s)) (s : State) : ErrOnly s (forL l f s) := by
  induction l generalizing s with
  | nil => exact ErrOnly.refl s
  | cons a l ih => exact (hf a s).trans (ih _)

/-- The check of a read's words records errors and does nothing else (R131, R132). -/
theorem spCheck_errOnly (s : State) (c a n : Nat) : ErrOnly s (s.spCheck c a n).1 := by
  unfold State.spCheck; dsimp only
  split
  · exact (forL_errOnly _ _ (fun _ _ => noteCe_errOnly _ _ _) _).trans (noteUe_errOnly _ _ _)
  · exact forL_errOnly _ _ (fun _ _ => noteCe_errOnly _ _ _) _

theorem spRead_errOnly (s : State) (c a n : Nat) : ErrOnly s (s.spRead c a n).1 := by
  have h := spCheck_errOnly s c a n
  unfold State.spRead
  split <;> rename_i e <;> rw [e] at h <;> exact h

/-- A fetched line changes the loop buffer and records errors (R46, R83). -/
theorem fetchLine_tasks (s : State) (c a d : Nat) : ((s.fetchLine c a).1.core d).tasks = (s.core d).tasks := by
  have hs : ∀ (x : State) (k : Core), k.tasks = (x.core c).tasks → ((x.setCore c k).core d).tasks = (x.core d).tasks := by
    intro x k hk
    by_cases h : d = c
    · subst h; rw [State.core_setCore_same]; exact hk
    · rw [State.core_setCore_ne _ _ h]
  unfold State.fetchLine; dsimp only
  split
  · exact hs _ _ rfl
  · have h := spRead_errOnly s c (a / 64 * 64) 64
    split <;> rename_i e <;> rw [e] at h
    · exact h.tasks d
    · refine (hs _ _ ?_).trans (h.tasks d)
      rfl

theorem fetch_tasks (s : State) (c i size d : Nat) : ((s.fetch c i size).1.core d).tasks = (s.core d).tasks := by
  unfold State.fetch; dsimp only
  split
  · rfl
  · split
    · rfl
    · have h := fetchLine_tasks s c ((s.task c i).tbase + (s.task c i).pc.toNat) d
      split <;> rename_i e <;> rw [e] at h
      · exact h
      · split
        · exact h
        · have h2 := fetchLine_tasks (s.fetchLine c ((s.task c i).tbase + (s.task c i).pc.toNat)).1 c ((s.task c i).tbase + (s.task c i).pc.toNat + size - 4) d
          rw [e] at h2
          split <;> rename_i e2 <;> rw [e2] at h2
          · exact h2.trans h
          · exact h2.trans h

/-- The task that issues is RUNNING, and is as it was before the fetch. -/
theorem State.Issues.task {s u : State} {c i size : Nat} (h : s.Issues c i size u) (j : Nat) : u.task c j = s.task c j := by
  have := fetch_tasks s c i size c
  rw [h.2.2.2] at this
  unfold State.task Core.task; rw [this]

theorem State.Issues.lt {s u : State} {c i size : Nat} (h : s.Issues c i size u) : i < 4 := Core.lt_of_running h.2.1

theorem State.Issues.st {s u : State} {c i size : Nat} (h : s.Issues c i size u) : (u.task c i).st = .running := by
  rw [h.task]; exact Core.st_of_running h.2.1

/-- An instruction that a core issues, whose checks pass and whose body goes on in sequence from `v`, completes. -/
theorem completes_go {x : Instr} {s u v : State} {c i size : Nat} {check : Task → Option TrapReq} {body : Nat → State → Done}
    (h : s.Issues c i size u) (hx : exec x s = .next (s.runInstr c size check body)) (hc : check (u.task c i) = none)
    (hb : body i u = .go v) (hv : (v.task c i).st = .running) : Completes x s v c i (fun t => t.advance size) := by
  refine ⟨_, hx, ?_⟩
  rw [State.runInstr_issues h check body hc, hb]
  exact Ran_go h.lt hv

/-- The same for a transfer of control. -/
theorem completes_jump {x : Instr} {s u v : State} {c i size : Nat} {g : Int} {check : Task → Option TrapReq} {body : Nat → State → Done}
    (h : s.Issues c i size u) (hx : exec x s = .next (s.runInstr c size check body)) (hc : check (u.task c i) = none)
    (hb : body i u = .jump v g) (hv : (v.task c i).st = .running) : Completes x s v c i (fun t => t.transfer g) := by
  refine ⟨_, hx, ?_⟩
  rw [State.runInstr_issues h check body hc, hb]
  exact Ran_jump h.lt hv

theorem Task.wg_st (t : Task) (r : BitVec 5) (v : W32) : (t.wg r v).st = t.st := by unfold Task.wg; split <;> rfl

end Sys2Proof.Machine
end

