-- ==== Sys2Proof/WellFormed.lean ====
section
/-! DEFINITION. Which commands can arrive: every operand in the range that the spec gives its field. The meanings are total; a command outside
these ranges is none that the panel's wires, packets or registers can carry. -/

namespace Sys2Proof

/-- A source: firmware, or one of the 16 functions (R310). -/
def srcOk : Src → Bool
  | .fw => true
  | .fn f => decide (f < 16)

/-- A bulk header's fields fit their bits (R163). -/
def bulkOk (h : BulkHdr) : Bool :=
  decide (h.type < 16) && decide (h.vc < 8) && decide (h.dkind < 4) && decide (h.status < 16) && decide (h.plen ≤ 1024) && decide (h.plen % 16 = 0) && decide (h.x0 < 256) &&
  decide (h.y0 < 256) && decide (h.x1 < 256) && decide (h.y1 < 256) && decide (h.sx < 256) && decide (h.sy < 256) && decide (h.tag < 2 ^ 16) &&
  decide (h.toff < 2 ^ 18) && decide (h.slot < 4) && decide (h.cnt < 64) && decide (h.op < 16) && decide (h.inc < 2 ^ 16) && decide (h.scode < 256) &&
  decide (h.soff < 2 ^ 18) && decide (h.addr < 2 ^ 48)

/-- A control header's fields fit their bits and name nodes and agents that exist (R183). -/
def ctlOk (h : CtlHdr) : Bool :=
  decide (h.type < 7) && (decide (h.vc < 2) || decide (h.vc = 5)) && decide (h.dnode < 196) && decide (h.dlocal ≤ 260) && decide (h.snode < 196) &&
  decide (h.slocal ≤ 260) && decide (h.len ≤ 4) && decide (h.msgid < 256)

/-- A Jexlink header's fields fit their bits (R385). -/
def jxOk (h : JxHdr) : Bool :=
  decide (h.vc < 8) && decide (h.ptype < 256) && decide (h.ndata ≤ 64) && decide (h.hops < 64) && decide (h.dst < 2 ^ 16) && decide (h.src < 2 ^ 16) &&
  decide (h.addr < 2 ^ 48) && decide (h.len ≤ 4096) && decide (h.cnt < 64) && decide (h.op < 16) && decide (h.status < 16) && decide (h.inc < 2 ^ 16) &&
  decide (h.pidx < 2 ^ 16) && decide (h.xid < 2 ^ 32) && decide (h.arg < 2 ^ 32) && decide (h.sctr < 2 ^ 64) && decide (h.hcrc < 2 ^ 32) &&
  decide (h.pcrc < 2 ^ 32) && decide (h.tag < 2 ^ 128)

/-- A link-control cell's fields fit their bits (R388). -/
def lctlOk (c : Lctl) : Bool :=
  decide (c.aseq < 4096) && decide (c.rseq < 4096) && decide (c.creds.length = 8) && c.creds.all (fun x => decide (x < 2 ^ 16)) && decide (c.lop < 6) &&
  decide (c.llane < 16) && decide (c.slane < 16) && decide (c.neww < 3) && decide (c.fseq < 4096)

/-- A check flit (R632). -/
def chkOk (c : ChkFlit) : Bool := decide (c.alive < 256) && decide (c.crc < 2 ^ 32)

/-- A stream descriptor's fields fit their bits (R64). -/
def descOk (d : StreamDesc) : Bool :=
  decide (d.localOff < 2 ^ 18) && decide (d.rowBytes < 2 ^ 16) && decide (d.rowCount < 2 ^ 16) && decide (d.space < 2) && decide (d.addr < 2 ^ 48) &&
  decide (d.vx < 256) && decide (d.vy < 128) && decide (d.slot < 4) && decide (d.roff < 2 ^ 18) && decide (d.vx1 < 256) && decide (d.vy1 < 128) &&
  decide (d.lstride < 2 ^ 18) && decide (d.rstride < 2 ^ 32) && decide (d.lcnt < 64) && decide (d.lcntEn < 2) && decide (d.rcnt < 64) &&
  decide (d.rcntEn < 2) && decide (d.linc < 2 ^ 16) && decide (d.rinc < 2 ^ 16) && decide (d.op < 16) && decide (d.rsv < 2)

/-- A ring packet names a stop (R21). -/
def ringOk (p : RingPkt) : Bool := decide (p.dst < 52)

/-- Where an SPDM request comes from: a PF, or a port (R615). -/
def viaOk : SpdmVia → Bool
  | .doe f => decide (f = 0) || decide (f = 8)
  | .jex n panel xid => decide (n < 72) && decide (panel < 2 ^ 16) && decide (xid < 2 ^ 32)

/-- A start-up's outcomes name units that exist (R532 to R535). -/
def bootOk (b : BootTry) : Bool :=
  b.hids.all (fun x => decide (x < 2)) && b.badStacks.all (fun x => decide (x < 48)) && b.noSpare.all (fun x => decide (x < 48)) && b.regions.all (fun x => decide (x < 16)) &&
  b.dies.all (fun x => decide (x < 144)) && b.links.all (fun x => decide (x.1 < 144)) && b.compat.all (fun x => decide (x.1 < 144)) &&
  decide (b.mods.length ≤ 12) && decide (b.ports.length ≤ 72) && decide (b.ms < 2 ^ 32)

/-- The power sensors' readings fit their registers (R497). -/
def measOk (m : PwrMeas) : Bool :=
  decide (m.power < 2 ^ 16) && decide (m.volt < 2 ^ 16) && decide (m.curr < 2 ^ 16) && decide (m.avg5 < 2 ^ 16) && decide (m.blades.length ≤ 4) &&
  decide (m.ins.length ≤ 20) && decide (m.outs.length ≤ 20)

/-- An admission attempt names a site (R434). -/
def guestOk (q : GuestTry) : Bool := decide (q.g < 2)

/-- A rejected request names a ring or a function (R327). -/
def reqOk : HostReq → Bool
  | .fetch ring => decide (ring < 4096)
  | .data _ addr => decide (addr < 2 ^ 64)
  | .completion _ => true
  | .held cq => decide (cq < 4096)
  | .event f => decide (f < 16)

/-- Fault tables of 196 bytes, one a node (R168). -/
def tabsOk (t : List (Nat × List Byte)) : Bool := t.all (fun e => decide (e.1 < 196) && decide (e.2.length = 196))

/-- Is a command well formed? -/
def Instr.wellFormed (i : Instr) : Bool :=
  match i with
  | .add c _ _ _ => decide (c < 36864)
  | .sub c _ _ _ => decide (c < 36864)
  | .and c _ _ _ => decide (c < 36864)
  | .or c _ _ _ => decide (c < 36864)
  | .xor c _ _ _ => decide (c < 36864)
  | .sll c _ _ _ => decide (c < 36864)
  | .srl c _ _ _ => decide (c < 36864)
  | .sra c _ _ _ => decide (c < 36864)
  | .slt c _ _ _ => decide (c < 36864)
  | .sltu c _ _ _ => decide (c < 36864)
  | .smin c _ _ _ => decide (c < 36864)
  | .smax c _ _ _ => decide (c < 36864)
  | .minu c _ _ _ => decide (c < 36864)
  | .maxu c _ _ _ => decide (c < 36864)
  | .mul c _ _ _ => decide (c < 36864)
  | .mulh c _ _ _ => decide (c < 36864)
  | .mulhu c _ _ _ => decide (c < 36864)
  | .clz c _ _ _ => decide (c < 36864)
  | .popc c _ _ _ => decide (c < 36864)
  | .slli c _ _ _ => decide (c < 36864)
  | .srli c _ _ _ => decide (c < 36864)
  | .srai c _ _ _ => decide (c < 36864)
  | .adda c _ _ _ => decide (c < 36864)
  | .mova c _ _ _ => decide (c < 36864)
  | .mfal c _ _ _ => decide (c < 36864)
  | .mfah c _ _ _ => decide (c < 36864)
  | .jalr c _ _ _ => decide (c < 36864)
  | .addi c _ _ _ => decide (c < 36864)
  | .andi c _ _ _ => decide (c < 36864)
  | .ori c _ _ _ => decide (c < 36864)
  | .xori c _ _ _ => decide (c < 36864)
  | .slti c _ _ _ => decide (c < 36864)
  | .lui c _ _ _ => decide (c < 36864)
  | .addaI c _ _ _ => decide (c < 36864)
  | .ldA c _ _ _ => decide (c < 36864)
  | .stA c _ _ _ => decide (c < 36864)
  | .beq c _ _ _ => decide (c < 36864)
  | .bne c _ _ _ => decide (c < 36864)
  | .blt c _ _ _ => decide (c < 36864)
  | .bge c _ _ _ => decide (c < 36864)
  | .bltu c _ _ _ => decide (c < 36864)
  | .bgeu c _ _ _ => decide (c < 36864)
  | .jal c _ _ _ => decide (c < 36864)
  | .loop c _ _ _ => decide (c < 36864)
  | .ldW c _ _ _ => decide (c < 36864)
  | .ldH c _ _ _ => decide (c < 36864)
  | .ldHs c _ _ _ => decide (c < 36864)
  | .ldB c _ _ _ => decide (c < 36864)
  | .ldBs c _ _ _ => decide (c < 36864)
  | .stW c _ _ _ => decide (c < 36864)
  | .stH c _ _ _ => decide (c < 36864)
  | .stB c _ _ _ => decide (c < 36864)
  | .streamGather c _ _ _ _ => decide (c < 36864)
  | .streamSend c _ _ _ _ => decide (c < 36864)
  | .streamMcast c _ _ _ _ => decide (c < 36864)
  | .streamRsend c _ _ _ _ => decide (c < 36864)
  | .waitGe c _ _ _ => decide (c < 36864)
  | .cntAdd c _ _ _ => decide (c < 36864)
  | .cntSet c _ _ _ => decide (c < 36864)
  | .cntRd c _ _ _ => decide (c < 36864)
  | .syncArrive c _ _ => decide (c < 36864)
  | .syncWait c _ _ => decide (c < 36864)
  | .msgSend c _ _ _ _ => decide (c < 36864)
  | .vadd c _ _ _ _ _ => decide (c < 36864)
  | .vsub c _ _ _ _ _ => decide (c < 36864)
  | .vmul c _ _ _ _ _ => decide (c < 36864)
  | .vfma c _ _ _ _ _ => decide (c < 36864)
  | .vmax c _ _ _ _ _ => decide (c < 36864)
  | .vmin c _ _ _ _ _ => decide (c < 36864)
  | .vcmplt c _ _ _ _ _ => decide (c < 36864)
  | .vcmpeq c _ _ _ _ _ => decide (c < 36864)
  | .vsel c _ _ _ _ _ => decide (c < 36864)
  | .vrcp c _ _ _ _ _ => decide (c < 36864)
  | .vrsq c _ _ _ _ _ => decide (c < 36864)
  | .vexp2 c _ _ _ _ _ => decide (c < 36864)
  | .vrsum c _ _ _ _ _ => decide (c < 36864)
  | .vrmax c _ _ _ _ _ => decide (c < 36864)
  | .vbcast c _ _ _ _ _ => decide (c < 36864)
  | .vcvt c _ _ _ _ _ => decide (c < 36864)
  | .vld c _ _ _ => decide (c < 36864)
  | .vst c _ _ _ => decide (c < 36864)
  | .mand c _ _ _ => decide (c < 36864)
  | .mor c _ _ _ => decide (c < 36864)
  | .mxor c _ _ _ => decide (c < 36864)
  | .mnot c _ _ _ => decide (c < 36864)
  | .mset c _ _ _ => decide (c < 36864)
  | .mgetl c _ _ _ => decide (c < 36864)
  | .mgeth c _ _ _ => decide (c < 36864)
  | .mpopc c _ _ _ => decide (c < 36864)
  | .mma c _ => decide (c < 36864)
  | .sparseLd c _ => decide (c < 36864)
  | .accCvt c _ => decide (c < 36864)
  | .zmask c _ => decide (c < 36864)
  | .tileLd c _ => decide (c < 36864)
  | .tileSt c _ => decide (c < 36864)
  | .matrixQueueStart c _ => decide (c < 36864)
  | .matrixOpEnd c _ _ _ => decide (c < 36864)
  | .nop c _ _ _ => decide (c < 36864)
  | .sysRd c _ _ _ => decide (c < 36864)
  | .sysWr c _ _ _ => decide (c < 36864)
  | .fenceI c _ _ _ => decide (c < 36864)
  | .taskEnd c _ _ => decide (c < 36864)
  | .trap c _ _ => decide (c < 36864)
  | .reservedOpcode c _ => decide (c < 36864)
  | .asyncTrap c slot => decide (c < 36864) && decide (slot < 4)
  | .coreDone c => decide (c < 36864)
  | .stuckTask c slot => decide (c < 36864) && decide (slot < 4)
  | .trapValidClear c => decide (c < 36864)
  | .scrubTick c _ => decide (c < 36864)
  | .spLinmapWrite c k _ => decide (c < 36864) && decide (k < 6)
  | .spCeClr c => decide (c < 36864)
  | .bulkWrite at_ _ h data => decide (at_ < 36916) && bulkOk h && decide (data.length ≤ 1024)
  | .mcWrite at_ _ h data => decide (at_ < 36916) && bulkOk h && decide (data.length ≤ 1024)
  | .mcOpen at_ _ h => decide (at_ < 36916) && bulkOk h
  | .mcOpenRsp at_ _ h => decide (at_ < 36916) && bulkOk h
  | .mcClose at_ _ h => decide (at_ < 36916) && bulkOk h
  | .bulkReadReq at_ _ h => decide (at_ < 36916) && bulkOk h
  | .bulkReadRsp at_ _ h data => decide (at_ < 36916) && bulkOk h && decide (data.length ≤ 1024)
  | .meldRsp at_ _ h l data => decide (at_ < 36916) && bulkOk h && decide (l.length ≤ 8) && decide (data.length ≤ 1024)
  | .pull at_ _ h d => decide (at_ < 36916) && bulkOk h && descOk d
  | .bulkAck at_ _ h => decide (at_ < 36916) && bulkOk h
  | .bulkError at_ _ h => decide (at_ < 36916) && bulkOk h
  | .ringDetour at_ _ h p => decide (at_ < 36916) && bulkOk h && ringOk p
  | .ringPacket stop p => decide (stop < 52) && ringOk p
  | .ringBreak _ k => decide (k < 52)
  | .ringStopReturn stop => decide (stop < 52)
  | .meldHoldExpiry c _ _ => decide (c < 36864)
  | .rsendPacket at_ _ h data => decide (at_ < 36916) && bulkOk h && decide (data.length ≤ 1024)
  | .rsendHoldExpiry at_ _ => decide (at_ < 36916)
  | .ctlMsg h _ _ slot cidx off => ctlOk h && decide (slot < 4) && decide (cidx < 64) && decide (off < 1024)
  | .msgAck h status => ctlOk h && decide (status < 16)
  | .setup h off _ _ _ _ => ctlOk h && decide (off < 67108864)
  | .setupRsp h _ _ => ctlOk h
  | .fault h _ _ _ _ _ => ctlOk h
  | .faultResend node msgid => decide (node < 196) && decide (msgid < 256)
  | .demand h region _ _ _ chk => ctlOk h && decide (region < 16) && chkOk chk
  | .grant h region _ _ chk => ctlOk h && decide (region < 16) && chkOk chk
  | .grantReq h region chk => ctlOk h && decide (region < 16) && chkOk chk
  | .floor h region floorV chk => ctlOk h && decide (region < 16) && decide (floorV < 6) && chkOk chk
  | .mgmtAck h _ _ chk => ctlOk h && chkOk chk
  | .chunkCrc h image _ _ chk => ctlOk h && decide (image < 2) && chkOk chk
  | .chunkResult h image _ die _ chk => ctlOk h && decide (image < 2) && decide (die < 144) && chkOk chk
  | .heartbeat h role _ => ctlOk h && decide (role < 256)
  | .heartbeatAck h _ _ => ctlOk h
  | .prepare h part _ _ => ctlOk h && decide (part < 16)
  | .dealerReady h part die _ _ => ctlOk h && decide (part < 16) && decide (die < 144)
  | .dealerStop h part _ => ctlOk h && decide (part < 16)
  | .quiet h part die _ => ctlOk h && decide (part < 16) && decide (die < 144)
  | .dealerWake h region target => ctlOk h && decide (region < 16) && decide (target < 4)
  | .summary h part die _ _ => ctlOk h && decide (part < 16) && decide (die < 144)
  | .faultAck h msgid => ctlOk h && decide (msgid < 256)
  | .syncArriveFrame node ch phase => decide (node < 196) && decide (ch < 8) && decide (phase < 2)
  | .syncReleaseFrame node ch phase => decide (node < 196) && decide (ch < 8) && decide (phase < 2)
  | .syncGo node sender _ _ => decide (node < 196) && decide (sender < 196)
  | .clamp node sender _ level => decide (node < 196) && decide (sender < 196) && decide (level < 3)
  | .trickFrame node sender _ _ _ => decide (node < 196) && decide (sender < 196)
  | .trickCopy unit => decide (unit < 198)
  | .syncFlip node sender _ _ => decide (node < 196) && decide (sender < 196)
  | .syncTimeReq node child _ => decide (node < 196) && decide (child < 196)
  | .syncTimeRsp node _ _ _ _ => decide (node < 196)
  | .timeSet node _ _ => decide (node < 196)
  | .timeSlew node sender _ _ _ _ => decide (node < 196) && decide (sender < 196)
  | .timeStep node sender _ _ _ => decide (node < 196) && decide (sender < 196)
  | .syncFrameCrcError node sender _ => decide (node < 196) && decide (sender < 196)
  | .tableChange tabs => tabsOk tabs
  | .tableBuffersDrained => true
  | .rtFlipArm d => decide (d < 144)
  | .linkFlitError d way _ _ => decide (d < 144) && decide (way < 9)
  | .linkResendLimit d way _ _ _ => decide (d < 144) && decide (way < 9)
  | .routerBufferUe c => decide (c.core < 36864)
  | .reduceRemote _ => true
  | .hubScrub k _ _ => decide (k < 24)
  | .pprRepair stack _ => decide (stack < 48)
  | .stackFault stack => decide (stack < 48)
  | .stackRetrainTimeout stack => decide (stack < 48)
  | .stackThermalTrip stack => decide (stack < 48)
  | .rebuildStripe stack => decide (stack < 48)
  | .storeInit src => srcOk src
  | .storeInitComplete _ _ => true
  | .reconStart src => srcOk src
  | .segMapWrite src j _ => srcOk src && decide (j < 48)
  | .rxaEnable src n _ => srcOk src && decide (n < 72)
  | .rxaRdWrite src n _ => srcOk src && decide (n < 72)
  | .rxaNotify n => decide (n < 72)
  | .hubCeClr src k => srcOk src && decide (k < 24)
  | .loadKernel _ => true
  | .place _ => true
  | .runLayer _ _ => true
  | .commit _ => true
  | .release _ => true
  | .weightStreamComplete part _ => decide (part < 16)
  | .commitCopyStart c => decide (c < 36864)
  | .layerTimeLimit part => decide (part < 16)
  | .sqDoorbell f r _ => decide (f < 16) && decide (r < 4096)
  | .cqDoorbell f r _ => decide (f < 16) && decide (r < 4096)
  | .descriptorFetch die _ => decide (die < 144)
  | .descriptorComplete _ => true
  | .coalesceTimeout r => decide (r < 4096)
  | .ringEnable src r _ => srcOk src && decide (r < 4096)
  | .ringDisable src r _ => srcOk src && decide (r < 4096)
  | .ringDrained r => decide (r < 4096)
  | .evtHeadWrite src f _ => srcOk src && decide (f < 16)
  | .evtEnable src f _ => srcOk src && decide (f < 16)
  | .partWrite src p _ => srcOk src && decide (p < 16)
  | .segApply src _ => srcOk src
  | .segApplyDone => true
  | .bar0Access f off n _ => decide (f < 16) && decide (off < 67108864) && decide (0 < n)
  | .bar2Read f off n => decide (f < 16) && decide (off < 16777216) && decide (0 < n)
  | .bar4Access f _ _ off n _ => decide (f < 16) && decide (off < 68719476736) && decide (0 < n)
  | .flr f => decide (f < 16)
  | .d3hotEntry f => decide (f < 16)
  | .perst ep => decide (ep < 2)
  | .pcieLinkDown ep => decide (ep < 2)
  | .pcieLinkChange ep _ _ => decide (ep < 2)
  | .copy _ _ => true
  | .fill _ => true
  | .check _ => true
  | .sendRemote _ => true
  | .setTolerance _ => true
  | .setBudget _ => true
  | .trick _ => true
  | .readLog _ => true
  | .fence _ => true
  | .barrier _ => true
  | .barrierTimeout _ => true
  | .fwStage _ _ => true
  | .fwActivate _ => true
  | .attest _ => true
  | .laneHealthInterval k _ => decide (k < 24)
  | .swapConfirmTimeout n => decide (n < 72)
  | .laneSwitchAtFlit n _ => decide (n < 72)
  | .portRetrainWrite src n => srcOk src && decide (n < 72)
  | .laneRetest src k l _ => srcOk src && decide (k < 24) && decide (l < 48)
  | .baselineWrite src k _ => srcOk src && decide (k < 24)
  | .portTrainingComplete n _ _ => decide (n < 72)
  | .opticalPowerSample k _ _ _ _ => decide (k < 24)
  | .nofarTimeout k j => decide (k < 24) && decide (j < 6)
  | .marginSample => true
  | .laserTrendCheck k _ _ => decide (k < 12)
  | .laserSuddenFail k w => decide (k < 12) && decide (w < 8)
  | .interlockBreak k => decide (k < 12)
  | .moduleInsert k record => decide (k < 12) && decide (record.length = 128)
  | .laserWarmupComplete k _ => decide (k < 12)
  | .elsSwapReq src k => srcOk src && decide (k < 12)
  | .elsSwapCancel src k => srcOk src && decide (k < 12)
  | .drainComplete n => decide (n < 72)
  | .drainTimeout n => decide (n < 72)
  | .flitReceive n _ cells => decide (n < 72) && decide (cells.length ≤ 4)
  | .lctlAckCredit n c => decide (n < 72) && lctlOk c
  | .lctlNak n c => decide (n < 72) && lctlOk c
  | .lctlReplayMarker n c => decide (n < 72) && lctlOk c
  | .lctlInit n c => decide (n < 72) && lctlOk c
  | .lctlSwapReq n c => decide (n < 72) && lctlOk c
  | .lctlSwapConf n c => decide (n < 72) && lctlOk c
  | .lctlNarrowReq n c => decide (n < 72) && lctlOk c
  | .lctlNarrowConf n c => decide (n < 72) && lctlOk c
  | .lctlReject n c => decide (n < 72) && lctlOk c
  | .replayTimeout n => decide (n < 72)
  | .lctlSendTimer n => decide (n < 72)
  | .jxPortUp n => decide (n < 72)
  | .jxWrite n h data => decide (n < 72) && jxOk h && decide (data.length ≤ 4096)
  | .jxDeliver n h data => decide (n < 72) && jxOk h && decide (data.length ≤ 4096)
  | .jxReduce n h data => decide (n < 72) && jxOk h && decide (data.length ≤ 4096)
  | .jxReadReq n h => decide (n < 72) && jxOk h
  | .jxReadRsp n h data => decide (n < 72) && jxOk h && decide (data.length ≤ 4096)
  | .jxAck n h => decide (n < 72) && jxOk h
  | .jxTransferTimeout xid pidx => decide (xid < 4294967296) && decide (pidx < 65536)
  | .barArrive n h data => decide (n < 72) && jxOk h && decide (data.length ≤ 4096)
  | .barRelease n h => decide (n < 72) && jxOk h
  | .hello n h data => decide (n < 72) && jxOk h && decide (data.length ≤ 4096)
  | .helloTimer n => decide (n < 72)
  | .farvalidTimeout n => decide (n < 72)
  | .routeAdv n h data => decide (n < 72) && jxOk h && decide (data.length ≤ 4096)
  | .routeAdvTimer => true
  | .timeReq n h data => decide (n < 72) && jxOk h && decide (data.length ≤ 4096)
  | .timeRsp n h data => decide (n < 72) && jxOk h && decide (data.length ≤ 4096)
  | .jxTimeTimer => true
  | .timeLockLoss => true
  | .linkinfo n h data => decide (n < 72) && jxOk h && decide (data.length ≤ 4096)
  | .sealOffer n offer _ => decide (n < 72) && decide (offer.length ≤ 4096)
  | .sealConfirm n tag => decide (n < 72) && decide (tag.length ≤ 4096)
  | .sealOfferTimeout n => decide (n < 72)
  | .sealRetryTimer n => decide (n < 72)
  | .rekeyTimer n => decide (n < 72)
  | .sealReqWrite src n _ => srcOk src && decide (n < 72)
  | .sealRekey src n => srcOk src && decide (n < 72)
  | .jxRtWrite src d _ => srcOk src && decide (d < 65536)
  | .jxSelfWrite src _ => srcOk src
  | .jxAliasWrite src k _ => srcOk src && decide (k < 4)
  | .linkTraining d way _ _ _ _ _ _ => decide (d < 144) && decide (way < 9)
  | .monitorSweep d way _ _ eye => decide (d < 144) && decide (way < 9) && decide (eye < 64)
  | .compatTrainingComplete d way _ => decide (d < 144) && decide (way < 9)
  | .forceCompatWrite src d w _ => srcOk src && decide (d < 144) && decide (w < 4)
  | .linkRetrainWrite src d w => srcOk src && decide (d < 144) && decide (w < 4)
  | .guestWrite g h data => decide (g < 2) && bulkOk h && decide (data.length ≤ 1024)
  | .guestReadReq g h => decide (g < 2) && bulkOk h
  | .guestCredit g _ _ => decide (g < 2)
  | .sidebandTimeout g => decide (g < 2)
  | .guestAdmission q => guestOk q
  | .mboxGo src g => srcOk src && decide (g < 2)
  | .mboxPoll g _ answer => decide (g < 2) && decide (answer.length ≤ 64)
  | .mboxTimeout g => decide (g < 2)
  | .guestLinkDrop g => decide (g < 2)
  | .refclkLost node _ => decide (node < 196)
  | .refclkMismatch node => decide (node < 196)
  | .refclkRestored node _ boot => decide (node < 196) && bootOk boot
  | .droopDetect d cl _ => decide (d < 144) && decide (cl < 16)
  | .droopRelax d cl => decide (d < 144) && decide (cl < 16)
  | .clusterFloorWrite src d cl _ => srcOk src && decide (d < 144) && decide (cl < 16)
  | .replicaReading u slack => decide (u < 36896) && decide (slack < 64)
  | .anchorLatch => true
  | .ptExchangeTimer node => decide (node < 196)
  | .ptLockTimeout node => decide (node < 196)
  | .bladeLost b => decide (b < 4)
  | .bladeRestored b => decide (b < 4)
  | .phaseImbalance d phase => decide (d < 144) && decide (phase < 16)
  | .ctPhaseFail n phase => decide (n < 20) && decide (phase < 8)
  | .fuseTrip n cause => decide (n < 20) && decide (cause < 256)
  | .fuseRetry src n => srcOk src && decide (n < 20)
  | .ctSwapReq src n => srcOk src && decide (n < 20)
  | .ctSwapProceed n => decide (n < 20)
  | .ctSwapCancel src n => srcOk src && decide (n < 20)
  | .ctSeated n record => decide (n < 20) && decide (record.length = 128)
  | .ctPulled n => decide (n < 20)
  | .budgetExchange m => measOk m
  | .grantTimeout r => decide (r < 16)
  | .regionPowerLoop r _ _ => decide (r < 16)
  | .hardLimitTrip rgn n => decide (n < if rgn then 16 else 144)
  | .excursionLimit => true
  | .excursionRecovered => true
  | .anteRequest r why => decide (r < 16) && decide (why < 5)
  | .anteEvaluation m => measOk m
  | .anteTimeout r => decide (r < 16)
  | .rampComplete r => decide (r < 16)
  | .antePeriodEnd r => decide (r < 16)
  | .idleStateEntry r _ tabs => decide (r < 16) && tabsOk tabs
  | .regionWake r => decide (r < 16)
  | .inputVOutOfRange _ => true
  | .inputVLowClamp _ => true
  | .inputVCutoff _ => true
  | .inputVRestored _ => true
  | .coolantPoll _ _ _ _ _ => true
  | .coolantDataTimeout => true
  | .flowFaultAssert => true
  | .junctionSample d cl _ _ => decide (d < 144) && decide (cl < 16)
  | .clusterHoldRelease d cl => decide (d < 144) && decide (cl < 16)
  | .thermalRank => true
  | .holdRelease r => decide (r < 16)
  | .thermalTrip r d => decide (r < 16) && decide (d < 144)
  | .tripReturn r => decide (r < 16)
  | .tripClrWrite src _ => srcOk src
  | .perimThermalLimit u _ => decide (u < 100)
  | .managedStop => true
  | .managedStopLayerLimit => true
  | .managedStopClamp => true
  | .managedStopEnd => true
  | .abruptClampLevel2 => true
  | .abruptLayerEnd => true
  | .abruptStopEnd => true
  | .flowGuard r => decide (r < 16)
  | .powerOn b => bootOk b
  | .trayReset => true
  | .warmReset src _ b => srcOk src && bootOk b
  | .watchdogKick src sd => srcOk src && decide (sd < 2)
  | .watchdogExpiry sd _ => decide (sd < 2)
  | .blockReset scope cause => decide (scope < 215) && decide (cause < 256)
  | .blockIdle scope => decide (scope < 215)
  | .blockIdleTimeout scope => decide (scope < 215)
  | .regionReset r => decide (r < 16)
  | .dieReset d => decide (d < 144)
  | .configSave src => srcOk src
  | .coreFold c code => decide (c < 36864) && decide (code < 256)
  | .boundaryFold c => decide (c < 36864)
  | .quietTimeout part die => decide (part < 16) && decide (die < 144)
  | .dieFold d code tabs _ => decide (d < 144) && decide (code < 256) && tabsOk tabs
  | .dieRetry d _ tabs => decide (d < 144) && tabsOk tabs
  | .regionLoss r tabs _ => decide (r < 16) && tabsOk tabs
  | .regionReturn r tabs => decide (r < 16) && tabsOk tabs
  | .kittySelftest c _ => decide (c < 36864)
  | .stewardHeartbeatTimer _ => true
  | .stewardTakeover _ => true
  | .standbyFailure => true
  | .stewardLost hid => decide (hid < 2)
  | .managerHeartbeatTimer r _ => decide (r < 16)
  | .managerTakeover r => decide (r < 16)
  | .trickCollectionTimeout => true
  | .trickComplete => true
  | .dailyTrick => true
  | .counterWrapEvent unit => decide (unit < 198)
  | .logRecordWrite kind unit _ => decide (kind < 65536) && decide (unit < 65536)
  | .logDeviceFail dev => decide (dev < 2)
  | .telImgWrite src _ => srcOk src
  | .hlthClr src d n _ => srcOk src && decide (d < 144) && (match n with | some n => decide (n < 256) | none => true)
  | .authChallenge q role => decide (q < 2) && decide (role < 256)
  | .authResponse q role keyid sig => decide (q < 2) && decide (role < 256) && decide (keyid < 256) && decide (sig.length = 64)
  | .authLockExpiry q => decide (q < 2)
  | .authDrop q => decide (q < 2)
  | .ownerEnroll q slot key => decide (q < 2) && decide (slot < 256) && decide (key.length = 32)
  | .ownerRevoke q slot => decide (q < 2) && decide (slot < 256)
  | .cosignSet q => decide (q < 2)
  | .operatorSet q slot key => decide (q < 2) && decide (slot < 256) && decide (key.length = 32)
  | .zeroise q b => decide (q < 2) && bootOk b
  | .selftest q failed => decide (q < 2) && decide (failed < 256)
  | .keyringTamper sd kind b => decide (sd < 2) && decide (kind < 4) && bootOk b
  | .spdmGetVersion via => viaOk via
  | .spdmGetCapabilities via => viaOk via
  | .spdmNegotiateAlgorithms via _ => viaOk via
  | .spdmGetDigests via => viaOk via
  | .spdmGetCertificate via slot _ _ => viaOk via && decide (slot < 256)
  | .spdmChallenge via slot nonce => viaOk via && decide (slot < 256) && decide (nonce.length = 32)
  | .spdmGetMeasurements via _ _ nonce => viaOk via && decide (nonce.length = 32)
  | .spdmVendorLogRead via _ _ _ _ _ => viaOk via
  | .ckuStart src u _ => srcOk src && decide (u < 20)
  | .ckuDataWrite src u _ => srcOk src && decide (u < 20)
  | .ckuClr src u _ => srcOk src && decide (u < 20)
  | .protectedAckTimeout snode dnode _ _ => decide (snode < 196) && decide (dnode < 196)
  | .setupLockWrite src _ => srcOk src
  | .registerWrite src off n _ => srcOk src && decide (off < 67108864) && decide (0 < n)
  | .i3cRoleRequest => true
  | .i3cTakeBack => true
  | .trayI3cAccess _ => true
  | .i3cTargetTimeout els k => decide (k < if els then 12 else 20)
  | .elsLaserEn k _ => decide (k < 12)
  | .ctOutEn k _ => decide (k < 20)
  | .stackRetrained stack => decide (stack < 48)
  | .cartridgeFault n => decide (n < 20)
  | .vfEnable ep _ _ => decide (ep < 2)
  | .hostRequestRejected q => reqOk q
  | .perstDeassertion ep => decide (ep < 2)
  | .trayResetRelease b => bootOk b
  | .flowFaultDeasserted => true
  | .hardLimitForceEnd rgn n => decide (n < if rgn then 16 else 144)
  | .perimThermalClear u _ => decide (u < 100)
  | .laneLockLoss k l _ => decide (k < 24) && decide (l < 48)
  | .slewStepStart => true
  | .standbyMirrorComplete => true
  | .handoverWaitExpiry => true
  | .entropyHealthTestFail sd => decide (sd < 2)

end Sys2Proof
end

