-- ==== Sys2Proof/Tests/Slice0.lean ====
section
/-! SUPPORT. Tests: ill-formed commands that WellFormed refuses, witnesses that the hypotheses of the statements can be met, and small checks of
single steps against the spec's own figures. -/

namespace Sys2Proof.Tests

open Sys2Proof Sys2Proof.Machine

set_option Elab.async false

/-! ### States for the tests -/

/-- A panel at reset but for region 0, which is in P0. -/
def ready : State := State.reset.wr (RGN_PWR_STAT.STATE 0) 0

/-- `ready` with the task that `f` makes of slot 0 of core 0 running: a window of 4,096 bytes, four counters. -/
def running (f : Task → Task) : State :=
  ready.updTask 0 0 (fun t => f { t with st := .running, loaded := true, tbound := 0x1000, tccount := 4 })

/-- The state after its fetch. -/
def fetched (s : State) (n : Nat) : State := (s.fetch 0 0 n).1

theorem issues {s : State} {n : Nat} (a : s.canIssue 0 = true) (b : (s.core 0).running = some 0)
    (d : (s.core 0).async.find? (fun a => decide (a.slot = 0)) = none) (e : (s.fetch 0 0 n).2 = none) : s.Issues 0 0 n (fetched s n) :=
  ⟨a, b, d, Prod.ext rfl e⟩

/-! ### Witnesses: states and operands that meet the hypotheses of the statements -/

theorem issues_plain : (running id).Issues 0 0 4 (fetched (running id) 4) := issues (by decide) (by decide) (by decide) (by decide)

/-- A tile store of the task waits in the queue. -/
def storing : State := (running id).updCore 0 (fun k => { k with mq := [⟨0, .tileSt 0 0 64⟩] })
theorem issues_storing : storing.Issues 0 0 4 (fetched storing 4) := issues (by decide) (by decide) (by decide) (by decide)

theorem wit_ScalarRegisterForms : ∃ s u : State, s.Issues 0 0 4 u ∧
    ((u.task 0 0).rg 1).toNat < 2 ^ (32 - 0) ∧ 2 ^ (31 - 0) ≤ ((u.task 0 0).rg 1).toNat ∧ ((u.task 0 0).rg 2).toNat < 2 ^ (32 - 32) :=
  ⟨running (fun t => t.wg 1 0x80000000), _, issues (by decide) (by decide) (by decide) (by decide), by decide, by decide, by decide⟩

theorem wit_ImmediateForms : ∃ s u : State, s.Issues 0 0 4 u ∧ ∃ rd ra : BitVec 5, ra = 0 ∧ rd.toNat < 8 ∧ ra.toNat < 8 :=
  ⟨running id, _, issues_plain, 7, 0, by decide⟩

theorem wit_Transfers : ∃ s u : State, s.Issues 0 0 4 u ∧ ∃ ra : BitVec 5, ra = 0 ∧ ((u.task 0 0).rg ra).toNat % 4 = 0 := ⟨running id, _, issues_plain, 0, by decide⟩

theorem wit_Loads : ∃ s u v : State, ∃ l, s.Issues 0 0 4 u ∧ 4088 + 8 ≤ (u.task 0 0).tbound - (u.task 0 0).tbase ∧ (u.core 0).toWrite 0 4088 8 = false ∧
    u.spRead 0 ((u.task 0 0).tbase + 4088) 8 = (v, .ok l) := ⟨running id, _, _, _, issues_plain, by decide, by decide, rfl⟩

theorem wit_LoadsAndCountersWait : ∃ s u : State, s.Issues 0 0 4 u ∧ (u.core 0).toWrite 0 8 4 = true ∧ (u.core 0).writing 0 = true :=
  ⟨storing, _, issues_storing, by decide, by decide⟩

theorem wit_Stores : ∃ s u v : State, s.Issues 0 0 4 u ∧ (u.core 0).toWrite 0 4092 4 = false ∧ (u.core 0).toRead 0 4092 4 = false ∧
    u.spWrite 0 ((u.task 0 0).tbase + 4092) (leBytes 4 7) = (v, none) := ⟨running id, fetched (running id) 4, ((fetched (running id) 4).spWrite 0 4092 (leBytes 4 7)).1, issues_plain, by decide, by decide, Prod.ext rfl (by decide)⟩

theorem wit_ScratchpadAccesses : ∃ s t : State, ∃ l, s.spRead 0 0 4 = (t, .ok l) ∧ (s.spWrite 0 0 [1]).2 = none ∧ s.fetch 0 0 4 = (fetched s 4, none) ∧
    ∀ e ∈ s.ecc, e.1 < (winBase 0 + 0) / 8 ∨ (winBase 0 + 0 + 4 - 1) / 8 < e.1 := ⟨running id, _, _, rfl, by decide, issues_plain.2.2.2, by decide⟩

theorem wit_Counters : ∃ s u : State, s.Issues 0 0 4 u ∧ (3 : Nat) < (u.task 0 0).tccount ∧ (u.core 0).writing 0 = false ∧
    (0 : W32).toNat ≤ (Tab.get (0 : W32) (u.core 0).counters 3).toNat ∧ (Tab.get (0 : W32) (u.core 0).counters 3).toNat < (1 : W32).toNat :=
  ⟨running id, _, issues_plain, by decide⟩

theorem wit_CounterWraps : ∃ s u : State, s.Issues 0 0 4 u ∧ 2 ^ 32 ≤ (Tab.get (0 : W32) (u.core 0).counters 3).toNat + (1 : W32).toNat :=
  ⟨(running id).updCore 0 (fun k => { k with counters := [(3, 0xFFFFFFFF)] }), _, issues (by decide) (by decide) (by decide) (by decide), by decide⟩

theorem wit_Barriers : ∃ s u : State, s.Issues 0 0 4 u ∧ bitOf (u.task 0 0).barmask 6 = true ∧ bitOf (u.task 0 0).arrived 6 = false ∧
    bitOf (u.task 0 0).since 6 = false ∧ (u.core 0).writing 0 = false :=
  ⟨running (fun t => { t with barmask := 0x40 }), _, issues (by decide) (by decide) (by decide) (by decide), by decide⟩

theorem wit_BarriersWait : ∃ s u : State, s.Issues 0 0 4 u ∧ bitOf (u.task 0 0).barmask 0 = true ∧ bitOf (u.task 0 0).arrived 0 = true ∧
    bitOf (u.task 0 0).since 0 = true :=
  ⟨running (fun t => { t with barmask := 1, arrived := 1, since := 1 }), _, issues (by decide) (by decide) (by decide) (by decide), by decide⟩

theorem wit_BarrierHeldByAnotherTask : ∃ s u : State, s.Issues 0 0 4 u ∧ (u.core 0).writing 0 = false ∧ bitOf (u.task 0 0).barmask 0 = true ∧
    bitOf (u.task 0 0).arrived 0 = false ∧
    ∃ e ∈ ((u.updTask 0 0 (fun t => { t with arrived := setBits t.arrived 0 1 1, since := setBits t.since 0 1 1 })).core 0).tasks,
      e.2.loaded = true ∧ bitOf e.2.barmask 0 = true ∧ bitOf e.2.arrived 0 = false ∧ e.2.st ≠ .done :=
  ⟨(running (fun t => { t with barmask := 1 })).updTask 0 1 (fun t => { t with barmask := 1, loaded := true, st := .ready }), _,
    issues (by decide) (by decide) (by decide) (by decide), by decide, by decide, by decide, by decide⟩

/-- A stream descriptor of one row of 16 bytes for the virtual core (0, 0), at offset 64 of the task's window, and a placement map of one core. -/
def placed : State := ((((ready.wr (CD_PMAP_GRID.GX 0) 1).wr (CD_PMAP_GRID.GY 0) 1).wr (CD_PMAP_CNT.NREC 0) 1).write (winBase 0 + 64)
  [0, 0, 0, 0, 16, 0, 1, 0, 0, 0, 0, 0, 0, 0, 0, 0x80, 0, 0, 0, 0, 0, 0, 0, 0, 0, 0, 0, 0, 0, 0, 0, 0])
def streaming : State := placed.updTask 0 0 (fun t => { t with st := .running, loaded := true, tbound := 0x1000, tccount := 4 })
theorem issues_streaming : streaming.Issues 0 0 4 (fetched streaming 4) := issues (by decide) (by decide) (by decide) (by decide)

theorem wit_Streams : ∃ s u v : State, ∃ l, s.Issues 0 0 4 u ∧ ((64 : Nat) + 32 ≤ (u.task 0 0).tbound - (u.task 0 0).tbase ∧ (u.core 0).toWrite 0 64 32 = false ∧
      ((u.core 0).streams.filter (fun x => decide (x.eng = 0))).length < 4) ∧
    u.spRead 0 ((u.task 0 0).tbase + 64) 32 = (v, .ok l) ∧ v.descChecks 0 (u.task 0 0) 1 0 64 (parseDesc l) = none ∧
    ((((v.takeTag 0).2.updCore 0 (fun q => { q with streams := q.streams ++ [⟨(v.core 0).nextTag, 0, 0, (u.task 0 0).pc.toNat, 1, parseDesc l, false, false, [], false⟩] })).startStreams
      0).task 0 0).st = .running :=
  ⟨streaming, _, _, _, issues_streaming, by decide, rfl, by decide, by decide⟩

def fullEngine : State := streaming.updCore 0 (fun k => { k with streams := List.replicate 4 ⟨0, 3, 0, 0, 1, parseDesc [], true, true, [], false⟩ })
theorem wit_StreamsWait : ∃ s u : State, s.Issues 0 0 4 u ∧ (u.core 0).toWrite 0 64 32 = false ∧ 4 ≤ ((u.core 0).streams.filter (fun x => decide (x.eng = 3))).length :=
  ⟨fullEngine, _, issues (by decide) (by decide) (by decide) (by decide), by decide⟩

theorem wit_NewStream : ∃ (s : State) (d : StreamDesc), (s.core 0).streams = [⟨0, 0, 3, 0, 1, d, false, false, [], false⟩] ∧ d.space = 1 ∧ d.rowCount = 1 ∧
    d.rowBytes = 1024 ∧ d.lcntEn = 0 ∧ (s.pmap (coreDie 0)).locate d.vx d.vy = some 0 ∧
    ∀ e ∈ s.ecc, e.1 < (winBase 0 + d.localOff) / 8 ∨ (winBase 0 + d.localOff + d.rowBytes - 1) / 8 < e.1 :=
  ⟨placed.updCore 0 (fun k => { k with streams := [⟨0, 0, 3, 0, 1, { parseDesc [] with space := 1, rowCount := 1, rowBytes := 1024 }, false, false, [], false⟩] }),
    { parseDesc [] with space := 1, rowCount := 1, rowBytes := 1024 }, by decide, by decide, by decide, by decide, by decide, by decide, by decide⟩

theorem wit_MsgSend : ∃ s u : State, s.Issues 0 0 4 u ∧ 0 < s.rd (CD_PMAP_GRID.GX (coreDie 0)) ∧ 0 < s.rd (CD_PMAP_GRID.GY (coreDie 0)) ∧ (u.core 0).writing 0 = false ∧
    (u.pmap (coreDie 0)).locate 0 0 = some 0 ∧ (u.core 0).msgs.length < 8 ∧ ((u.task 0 0).rg 1).toNat = 0 :=
  ⟨streaming, _, issues_streaming, by decide, by decide, by decide, by decide, by decide, by decide⟩

theorem wit_MsgSendWaits : ∃ s u : State, s.Issues 0 0 4 u ∧ (u.core 0).writing 0 = false ∧ (u.pmap (coreDie 0)).locate 0 0 = some 0 ∧ 8 ≤ (u.core 0).msgs.length :=
  ⟨streaming.updCore 0 (fun k => { k with msgs := List.replicate 8 ⟨0, 0, 0, 0⟩ }), _, issues (by decide) (by decide) (by decide) (by decide), by decide, by decide, by decide⟩

theorem wit_Vectors : ∃ s u : State, s.Issues 0 0 4 u ∧ ∃ rd rb : BitVec 5, ∃ fmt : BitVec 4, rd.toNat < 8 ∧ rb.toNat < 7 ∧ fmt = 0 ∧
    (List.range 16).filter (fun j => ((u.task 0 0).rM 1).getLsbD j) = [] := ⟨running id, _, issues_plain, 7, 6, 0, by decide⟩

set_option exponentiation.threshold 600 in
/-- VRMAX meets a NaN lane, and lanes that are none, under the mask m0. -/
theorem wit_VectorMaximum : ∃ s u : State, s.Issues 0 0 4 u ∧ fmtOf 0 = some fp32 ∧ ((u.task 0 0).rM 0).getLsbD 0 = true ∧
    (fp32.decode (lane 32 ((u.task 0 0).rV 1) 0)).isNan = true ∧ ∀ j, j < 16 → (fp32.decode (lane 32 ((u.task 0 0).rV 0) j)).isNan = false :=
  ⟨running (fun t => t.wV 1 (0x7FC00000)), _, issues (by decide) (by decide) (by decide) (by decide), rfl, by decide, by decide, by decide⟩

/-- A matrix task. -/
def matrix : State := running (fun t => { t with mx := true })
theorem issues_matrix : matrix.Issues 0 0 8 (fetched matrix 8) := issues (by decide) (by decide) (by decide) (by decide)

theorem wit_MatrixInstructions : ∃ s u : State, s.Issues 0 0 8 u ∧ (u.task 0 0).mx = true ∧ (u.core 0).mq.length < 4 ∧ (u.core 0).streams = [] ∧
    (u.task 0 0).rA 0 = 0 ∧ (u.task 0 0).rA 1 = 0 ∧ (u.task 0 0).tbound - (u.task 0 0).tbase = 0x1000 ∧ okWeight 1 = true ∧ okAct 9 = true ∧
    mmaOk ⟨0x1000, 0x100, 0, 0, 1, 0, 0, 0, 0⟩ = true ∧ cvtRow 0 ≤ 0x1000 :=
  ⟨matrix, _, issues_matrix, by decide, by decide, by decide, by decide, by decide, by decide, by decide, by decide, by decide, by decide⟩

theorem wit_MatrixQueue : ∃ s t u v : State, (s.core 0).mq = [⟨0, .zmask true⟩] ∧
    ((t.core 0).mq = [⟨0, .mma ⟨0, 0, 0, 0, 0, 0, 0, 0, 0⟩ 0⟩] ∧ (t.core 0).array = none ∧ (t.core 0).mover = none) ∧
    ((u.core 0).mq = [⟨0, .tileSt 0 0 64⟩] ∧ (u.core 0).mover = none ∧ (u.core 0).array = none ∧ (MOp.tileSt 0 0 64).isMove = true) ∧
    ((v.core 0).array = some ⟨0, .zmask true⟩ ∧ (v.core 0).mover = some ⟨0, .tileSt 0 0 64⟩) :=
  ⟨matrix.updCore 0 (fun k => { k with mq := [⟨0, .zmask true⟩] }), matrix.updCore 0 (fun k => { k with mq := [⟨0, .mma ⟨0, 0, 0, 0, 0, 0, 0, 0, 0⟩ 0⟩] }),
    matrix.updCore 0 (fun k => { k with mq := [⟨0, .tileSt 0 0 64⟩] }),
    matrix.updCore 0 (fun k => { k with array := some ⟨0, .zmask true⟩, mover := some ⟨0, .tileSt 0 0 64⟩ }), by decide, ⟨rfl, by decide, by decide⟩, by decide, by decide⟩

theorem wit_MatrixResults : ∃ s v : State, ∃ rows, s.readRows 0 0 64 0 64 16 = (v, .ok rows) := by
  have one : ∀ a n, matrix.spRead 0 a n = (matrix, .ok (matrix.spBytes 0 a n)) := by
    intro a n
    have h : matrix.ecc = [] := by decide
    unfold State.spRead State.spCheck
    rw [h]
    split <;> simp_all [forL]
  have all : ∀ n, ∃ l, matrix.readRows 0 0 64 0 64 n = (matrix, .ok l) := by
    intro n
    induction n with
    | zero => exact ⟨[], rfl⟩
    | succ n ih =>
      obtain ⟨l, e⟩ := ih
      exact ⟨_, by rw [State.readRows, e]; dsimp only; rw [one]⟩
  exact ⟨matrix, matrix, all 16⟩

theorem wit_System : ∃ s u t v : State, (s.Issues 0 0 4 u ∧ (u.core 0).unwritten 0 = false) ∧ t.Issues 0 0 4 v ∧ (v.core 0).unwritten 0 = true :=
  ⟨running id, _, storing, _, ⟨issues_plain, by decide⟩, issues_storing, by decide⟩

theorem wit_EndAndTraps : ∃ s u : State, s.Issues 0 0 4 u ∧ u.partOfCore 0 = none ∧ u.bit (CD_CORE_TRAP.VALID (coreDie 0) (coreN 0)) = false ∧
    (u.core 0).streams = [] ∧ reservedDetail 0 = some 0 ∧ bitsOf (0 : BitVec 64).toNat 29 3 ≠ 6 :=
  ⟨running id, _, issues_plain, by decide, by decide, by decide, by decide, by decide⟩

theorem wit_ReservedLong : ∃ s u : State, s.Issues 0 0 8 u ∧ ∃ w : BitVec 64, reservedDetail w = some 0 ∧ bitsOf w.toNat 29 3 = 6 :=
  ⟨matrix, _, issues_matrix, 0xD8000000, by decide, by decide⟩

theorem wit_CoreEvents : ∃ s t u v w x : State, ((s.core 35).async = [⟨3, ⟨5, 0, 0, 0, 0⟩⟩] ∧ (s.task 35 3).st = .ready) ∧
    (t.coreIsDone 0 = true ∧ (t.core 0).doneArr = false ∧ (t.core 0).fenced = false) ∧ ((u.task 0 0).st = .running ∧ (u.core 0).fenced = false) ∧
    ((w.task 0 0).st = .waiting ∧ (w.core 0).waitOver (w.task 0 0) = true ∧ (w.core 0).fenced = false) ∧
    ((x.task 0 0).st = .waiting ∧ (x.core 0).waitOver (x.task 0 0) = false) ∧
    ((∀ j, j < 4 → (v.task 0 j).trap = none) ∧ v.rgnState (regionOf (coreDie 0)) ≤ 1 ∧ v.bit (RGN_PWR_STAT.CLAMPED (regionOf (coreDie 0))) = false ∧
      (v.core 0).active = false ∧ v.dieAbsent (coreDie 0) = false) :=
  ⟨(ready.updTask 35 3 (fun t => { t with st := .ready })).updCore 35 (fun k => { k with async := [⟨3, ⟨5, 0, 0, 0, 0⟩⟩] }),
    running (fun t => { t with st := .done }), running id, ready, running (fun t => { t with st := .waiting, wait := some (.counter 0 0) }),
    running (fun t => { t with st := .waiting, wait := some (.counter 0 1) }), by decide, by decide, by decide, by decide, by decide, by decide, by decide, by decide, by decide, by decide⟩

/-- Whatever `spWrite` leaves where it meets no error. -/
theorem spWrite_ok {s : State} {c a : Nat} {l : List Byte} (h : (s.spWrite c a l).2 = none) : s.spWrite c a l = ((s.spWrite c a l).1, none) := Prod.ext rfl h

/-- A panel whose links carry nothing takes a packet at a location that accepts requests. -/
theorem takes {s : State} {loc : Nat} {h : BulkHdr} (a : s.dieAbsent (coreDie loc) = false) (b : s.net.ports = []) (d : s.idling loc = false) : s.Takes loc h :=
  ⟨fun _ => a, by simp [State.blocked, State.cameBy, b], fun _ => d⟩
theorem takes_stop {s : State} {loc : Nat} {h : BulkHdr} (a : 36864 ≤ loc) (b : s.net.ports = []) (d : s.idling loc = false) : s.Takes loc h :=
  ⟨fun g => absurd g (by omega), by simp [State.blocked, State.cameBy, b], fun _ => d⟩
theorem took_idle {s : State} {loc : Nat} {h : BulkHdr} (b : s.net.ports = []) : s.took loc h = s := by simp [State.took, State.cameBy, b]

theorem wit_WholeWrite : ∃ (s v : State) (h : BulkHdr) (data : List Byte), (h.dkind = 0 ∧ coreAt h.x0 h.y0 = 0 ∧ h.vc ≠ 5 ∧ s.asleep 0 = false ∧ (s.core 0).fenced = false ∧
    h.abs_ = false ∧ (s.core 0).tracker = [] ∧ (s.core 0).pulls = [] ∧ h.addr ≤ data.length ∧ (s.task 0 h.slot).st ≠ .empty ∧
    h.toff + (s.took 0 { h with type := 0 }).extentOf { h with type := 0 } data.length = (s.task 0 h.slot).window ∧ h.cntEn = true ∧ h.cnt < (s.task 0 h.slot).tccount) ∧
    s.Takes 0 { h with type := 0 } ∧ (s.took 0 { h with type := 0 }).spWrite 0 ((s.task 0 h.slot).tbase + h.toff + h.soff) data = (v, none) :=
  ⟨running id, _, { hdr0 with toff := 0xFFC, cnt := 3, cntEn := true, addr := 4 }, [1, 2, 3, 4], by decide, takes (by decide) (by decide) (by decide), spWrite_ok (by decide)⟩

/-- A stream of core 0's slot 0 that waits for one transfer. -/
def awaiting (kind : Nat) (x : Xfer) : State := (running id).updCore 0 (fun k => { k with streams := [⟨0, 0, 0, 0, kind, parseDesc [], true, true, [x], false⟩] })

theorem wit_Reads : ∃ (s : State) (h : BulkHdr), s.Takes 0 { h with type := 4 } ∧ h.dkind = 0 ∧ coreAt h.x0 h.y0 = 0 ∧ s.asleep 0 = false ∧ (s.core 0).fenced = false ∧ h.abs_ = false ∧ h.cntEn = false ∧
    h.hold = false ∧ h.sperim = false ∧ (s.router 0).readQ = [] ∧ (s.task 0 h.slot).st ≠ .empty ∧
    h.toff + h.plen = (s.task 0 h.slot).window ∧ h.sx < 256 ∧ h.sy < 256 ∧
    ∀ e ∈ s.ecc, e.1 < (winBase 0 + ((s.task 0 h.slot).tbase + h.toff)) / 8 ∨ (winBase 0 + ((s.task 0 h.slot).tbase + h.toff) + h.plen - 1) / 8 < e.1 :=
  ⟨running id, { hdr0 with toff := 0xC00, plen := 1024 }, takes (by decide) (by decide) (by decide), by decide⟩

theorem wit_MeldHold : ∃ (s : State) (h : BulkHdr), s.asleep 0 = false ∧ (s.router 0).readQ = [⟨h.addr, h.plen, h.vc, true, false, false, [⟨h.srcCode, h.tag⟩]⟩] ∧
    h.sperim = false ∧ h.sx < 256 ∧ h.sy < 256 ∧ s.ecc = [] :=
  ⟨ready.updRouter 0 (fun x => { x with readQ := [⟨0, 64, 2, true, false, false, [⟨0, 0⟩]⟩] }), { hdr0 with plen := 64 }, by decide⟩

theorem wit_Answers : ∃ s t v : State, (∀ n, s.Takes 0 { hdr0 with type := n } ∧ s.Takes 0 { hdr0 with type := n, dkind := 3 } ∧
      s.took 0 { hdr0 with type := n } = s ∧ s.took 0 { hdr0 with type := n, dkind := 3 } = s ∧ t.Takes 0 { hdr0 with type := n }) ∧ (s.asleep 0 = false ∧ (s.core 0).streams = [⟨0, 0, 0, 0, 0, parseDesc [], true, true, [.read 0 0 0 4], false⟩] ∧ (parseDesc []).lcntEn = 0) ∧
    s.spWrite 0 0 [1, 2, 3, 4] = (v, none) ∧ (t.asleep 0 = false ∧ (t.core 0).streams = [⟨0, 0, 0, 0, 1, parseDesc [], true, true, [.ack 0 0], false⟩] ∧ (parseDesc []).rcntEn = 0 ∧
      (t.router 0).tree = [] ∧ (t.core 0).async = [] ∧ (t.task 0 0).st = .running) :=
  ⟨awaiting 0 (.read 0 0 0 4), awaiting 1 (.ack 0 0), _, fun _ => ⟨takes (by decide) (by decide) (by decide), takes (by decide) (by decide) (by decide), took_idle (by decide),
    took_idle (by decide), takes (by decide) (by decide) (by decide)⟩, by decide, spWrite_ok (by decide), by decide⟩

theorem wit_Pull : ∃ (s : State) (d : StreamDesc), s.Takes 0 { hdr0 with type := 7 } ∧ s.asleep 0 = false ∧ (s.core 0).fenced = false ∧ d.rcntEn = 0 ∧
    (s.task 0 d.slot).st ≠ .empty ∧ d.roff + span d.rowCount d.rstride d.rowBytes = (s.task 0 d.slot).window :=
  ⟨running id, { parseDesc [] with rowCount := 1, rowBytes := 0x1000 }, takes (by decide) (by decide) (by decide), by decide⟩

theorem wit_Multicast : ∃ (s : State) (h g : BulkHdr), inRect h 0 = true ∧ inRect g 0 = true ∧ (s.router 0).tree.length < 32 ∧ treeDirs h 0 ≠ [] ∧ treeDirs g 0 = [] ∧
    treeUp g 0 = none ∧ s.Takes 0 { h with type := 2 } ∧ s.Takes 0 { g with type := 2 } :=
  ⟨ready, { hdr0 with x1 := 1 }, hdr0, by decide, by decide, by decide, by decide, by decide, by decide, takes (by decide) (by decide) (by decide),
    takes (by decide) (by decide) (by decide)⟩

/-- Router 0 with one tree entry, whose one answer or acknowledgement is the core's own. -/
def treed (opens acks : Nat) : State := (running id).updRouter 0 (fun x => { x with tree := [⟨hdr0.srcCode, 0, [], 4, opens, acks, 0⟩] })
theorem wit_MulticastAnswers : ∃ (s t v : State) (h : BulkHdr) (e f : TreeEnt), (∀ n, s.Takes 0 { h with type := n } ∧ t.Takes 0 { h with type := n }) ∧ inRect h 0 = true ∧ h.dkind = 0 ∧ (s.router 0).tree = [e] ∧ e.src = h.x0 + 256 * h.y0 ∧ e.tag = h.tag ∧
    e.opens = 1 ∧ e.up = 4 ∧ ((t.router 0).tree = [f] ∧ f.src = h.srcCode ∧ f.tag = h.tag ∧ f.branches = [] ∧ f.acks = 1 ∧ f.up = 4 ∧ t.asleep 0 = false ∧
      (t.core 0).tracker = [] ∧ h.addr ≤ [(7 : Byte)].length ∧ (t.task 0 h.slot).st ≠ .empty ∧
      h.toff + (t.took 0 { h with type := 1 }).extentOf { h with type := 1 } [(7 : Byte)].length ≤ (t.task 0 h.slot).window) ∧
      (t.took 0 { h with type := 1 }).spWrite 0 ((t.task 0 h.slot).tbase + h.toff + h.soff) [7] = (v, none) :=
  ⟨treed 1 1, treed 0 1, _, { hdr0 with addr := 1 }, ⟨hdr0.srcCode, 0, [], 4, 1, 1, 0⟩, ⟨hdr0.srcCode, 0, [], 4, 0, 1, 0⟩,
    fun _ => ⟨takes (by decide) (by decide) (by decide), takes (by decide) (by decide) (by decide)⟩, by decide, by decide, by decide, by decide,
    by decide, by decide, by decide, by decide, spWrite_ok (by decide)⟩

theorem wit_Rsend : ∃ (s v w : State) (old : List Byte), s.Takes 0 { hdr0 with type := 9 } ∧ s.bit (CD_RED_CTL.DIS (coreDie 0)) = true ∧ s.asleep 0 = false ∧
    (s.task 0 0).st ≠ .empty ∧ (s.took 0 { hdr0 with type := 9 }).spRead 0 0 4 = (w, .ok old) ∧ w.spWrite 0 0 (redCombine 0 4 [0, 0, 0, 0] old) = (v, none) :=
  ⟨(running id).wr (CD_RED_CTL.DIS 0) 1, _, _, _, takes (by decide) (by decide) (by decide), by decide, by decide, by decide, rfl, spWrite_ok (by decide)⟩

theorem wit_RsendHold : ∃ (s : State) (g : LaneEnt), (s.router 0).lanes = [g] ∧ g.held = some (hdr0, []) ∧ g.by_.length = 1 ∧ g.way < 9 :=
  ⟨ready.updRouter 0 (fun x => { x with lanes := [⟨0, 8, some (hdr0, []), [⟨0, 0, 0⟩]⟩] }), ⟨0, 8, some (hdr0, []), [⟨0, 0, 0⟩]⟩, by decide⟩

theorem wit_Ring : ∃ (s t u : State) (stop : Nat) (p : RingPkt) (h : BulkHdr), stop < 52 ∧ p.dst < 52 ∧ p.dst ≠ stop ∧ s.net.brkSegs = [] ∧ s.net.brkStops = [] ∧
    t.net.brkSegs = [stop] ∧ (p.dst + 52 - stop) % 52 ≤ (stop + 52 - p.dst) % 52 ∧ h.dest = stopAt p.dst ∧
    s.bit GLB_STW_STAT.LOST_BOTH = false ∧ (∀ x ∈ s.net.ring, RingHop.seg x ≠ 51) ∧ (∀ x ∈ s.net.ring, RingHop.next x ≠ 51) ∧ s.perimIn (144 + 13) = true ∧
    (u.bit GLB_STW_STAT.LOST_BOTH = false ∧ u.perimIn (144 + 1) = false) ∧ s.Takes (stopAt p.dst) { h with type := 0xA } :=
  ⟨ready, ready.updNet (fun x => { x with brkSegs := [51] }), ready.wr (MH_HUB_STAT.INSERVICE 0) 0, 51, ⟨25, false, []⟩, { hdr0 with dkind := 1, x0 := 25 },
    by decide, by decide, by decide, by decide, by decide, by decide, by decide, by decide, by decide, by decide, by decide, by decide, by decide,
    takes_stop (by decide) (by decide) (by decide)⟩

/-- A control header from an agent to another of its own node. -/
def msgTo (dnode dlocal : Nat) : CtlHdr := ctlHdr 4 1 dnode dlocal dnode 258 1 0
/-- Where no control packet is on a link, the taking of one changes nothing. -/
theorem ctlTook_idle {s : State} {h : CtlHdr} (b : s.net.cports = []) : s.ctlTook h = s := by simp [State.ctlTook, b]
/-- A control packet arrives over a link too: from die 11 by its edge link at the first steward. -/
theorem wit_CtlArrives : ∃ s : State, s.CtlArrives (ctlHdr 4 1 157 258 11 257 1 0) := 
  ⟨{ State.reset.wr (RGN_PWR_STAT.STATE (regionOf 11)) 0 with links := { State.reset.links with corner := [(11, 2)] } }, by decide, by decide⟩
/-- A check flit with the CRC that its message needs. -/
def good (h : CtlHdr) (flits : List Nat) (a : Nat := 0) : ChkFlit := ⟨a, checkCrc h flits a⟩
theorem good_crc (h : CtlHdr) (l : List Nat) (a : Nat) : (good h l a).crc = checkCrc h l (good h l a).alive := rfl
/-- What a receiver leaves that accepts its peer's first message. -/
def taken (s : State) (h : CtlHdr) (m : Nat) : State :=
  ((s.wr (CKU_ALIVE.LAST (unitOf h.dnode) (peerOf h.snode)) 0).wr (CKU_ALIVE.VALID (unitOf h.dnode) (peerOf h.snode)) 1).sendMgmt h.dnode h.dlocal h.snode h.slocal
    [5 + m * 2 ^ 8 + 0 * 2 ^ 16] 0
theorem judged {s : State} {h : CtlHdr} {m : Nat} {f : List Nat} (a : s.hasUnit h.dnode = true)
    (b : s.bit (CKU_ALIVE.VALID (unitOf h.dnode) (peerOf h.snode)) = false) : s.judge h m f (good h f) = (taken s h m, true) := by
  unfold State.judge; simp [a, b, good, taken]

theorem wit_TaskMessages : ∃ s v t : State, (s.CtlArrives (msgTo 0 0) ∧ t.CtlArrives (msgTo 0 0)) ∧ (s.asleep 0 = false ∧ s.idling 0 = false ∧ (s.core 0).fenced = false ∧ (s.core 0).tracker = [] ∧ (s.core 0).pulls = [] ∧ (s.task 0 0).st ≠ .empty ∧
      (3 : Nat) < (s.task 0 0).tccount ∧ 8 * 511 + 8 = (s.task 0 0).window) ∧ (s.ctlTook (msgTo 0 0)).spWrite 0 ((s.task 0 0).tbase + 8 * 511) (leBytes 8 1) = (v, none) ∧
    (t.asleep 0 = false ∧ (t.core 0).msgs = [⟨0, 0, 0, 1⟩] ∧ (t.core 0).async = [] ∧ (t.task 0 0).st = .running) :=
  ⟨running id, _, (running id).updCore 0 (fun k => { k with msgs := [⟨0, 0, 0, 1⟩] }), ⟨⟨rfl, by decide⟩, rfl, by decide⟩, by decide, spWrite_ok (by decide), by decide⟩

theorem wit_RefusedMessages : ∃ f e w n : State, (∀ x ∈ [f, e, w, n], x.asleep 0 = false ∧ x.idling 0 = false ∧ (x.core 0).tracker = [] ∧ (x.core 0).pulls = []) ∧
    (f.core 0).fenced = true ∧ ((e.core 0).fenced = false ∧ (e.task 0 3).st = .empty) ∧
    ((w.core 0).fenced = false ∧ (w.task 0 0).st ≠ .empty ∧ (w.task 0 0).window < 8 * 512 + 8) ∧
    ((n.core 0).fenced = false ∧ (n.task 0 0).st ≠ .empty ∧ 8 * 511 + 8 ≤ (n.task 0 0).window ∧ (n.task 0 0).tccount ≤ 63) :=
  ⟨(running id).updCore 0 (fun k => { k with fenced := true }), running id, running id, running id, by decide, by decide, by decide, by decide, by decide⟩

theorem wit_MessageStatuses : ∃ s : State, s.CtlArrives (msgTo 0 0) ∧ s.asleep 0 = false ∧ (s.core 0).async = [] ∧ (s.task 0 0).st ≠ .trapped ∧ (s.task 0 0).st ≠ .empty ∧
    (s.core 0).msgs.find? (fun x => decide (x.msgid = (msgTo 0 0).msgid)) = some ⟨0, 0, 0, 1⟩ ∧ (s.core 0).msgs ≠ [⟨0, 0, 0, 1⟩] :=
  ⟨(running id).updCore 0 (fun k => { k with msgs := [⟨9, 0, 0, 1⟩, ⟨0, 0, 0, 1⟩] }), ⟨rfl, by decide⟩, by decide, by decide, by decide, by decide, by decide, by decide⟩

theorem wit_Protected : ∃ (s t : State) (h : CtlHdr), s.hasUnit h.dnode = true ∧ s.bit (CKU_ALIVE.VALID (unitOf h.dnode) (peerOf h.snode)) = false ∧
    t.hasUnit h.dnode = true ∧ t.bit (CKU_ALIVE.VALID (unitOf h.dnode) (peerOf h.snode)) = true ∧
    (∀ flits, ∃ c : ChkFlit, c.crc = checkCrc h flits c.alive ∧ c.alive % t.aliveMod (unitOf h.dnode) = t.rd (CKU_ALIVE.LAST (unitOf h.dnode) (peerOf h.snode))) ∧
    (∀ flits, ∃ c : ChkFlit, c.crc = checkCrc h flits c.alive ∧
      c.alive % t.aliveMod (unitOf h.dnode) = (t.rd (CKU_ALIVE.LAST (unitOf h.dnode) (peerOf h.snode)) + 1) % t.aliveMod (unitOf h.dnode) ∧
      c.alive % t.aliveMod (unitOf h.dnode) ≠ t.rd (CKU_ALIVE.LAST (unitOf h.dnode) (peerOf h.snode))) ∧
    (∀ flits, ∃ c : ChkFlit, c.crc = checkCrc h flits c.alive ∧ c.alive % t.aliveMod (unitOf h.dnode) ≠ t.rd (CKU_ALIVE.LAST (unitOf h.dnode) (peerOf h.snode)) ∧
      c.alive % t.aliveMod (unitOf h.dnode) ≠ (t.rd (CKU_ALIVE.LAST (unitOf h.dnode) (peerOf h.snode)) + 1) % t.aliveMod (unitOf h.dnode)) ∧
    ∀ flits, ∃ c : ChkFlit, c.crc ≠ checkCrc h flits c.alive :=
  ⟨ready, ready.wr (CKU_ALIVE.VALID 18 (peerOf 183)) 1, msgTo 157 258, by decide, by decide, by decide, by decide,
    fun f => ⟨⟨0, checkCrc _ f 0⟩, rfl, by dsimp only; decide⟩, fun f => ⟨⟨1, checkCrc _ f 1⟩, rfl, by dsimp only; decide⟩, fun f => ⟨⟨2, checkCrc _ f 2⟩, rfl, by dsimp only; decide, by dsimp only; decide⟩, fun f => ⟨⟨0, checkCrc _ f 0 + 1⟩, Nat.succ_ne_self _⟩⟩

/-- A firmware image of two chunks is being sent to die 0. -/
def chunking : State := ready.updKey (fun k => { k with chunk := some (0, 0, 2) })
/-- Die 0 has taken all bytes of the chunk. -/
def chunked : State := chunking.updNode 0 (fun x => { x with fwTag := 1, fwLen := 0 })
theorem wit_Accepted : ∃ s a b c d e f g : State, s.CtlArrives (msgTo 157 258) ∧ s.CtlArrives (msgTo 0 257) ∧
    (s.ctlTook (msgTo 157 258)).judge (msgTo 157 258) 1 [1] (good (msgTo 157 258) [1]) = (a, true) ∧ 157 = a.stewardNode ∧
    (s.ctlTook (msgTo 0 257)).judge (msgTo 0 257) 2 [2] (good (msgTo 0 257) [2]) = (b, true) ∧ 0 = b.managerDie 0 ∧
    (s.ctlTook (msgTo 157 258)).judge (msgTo 157 258) 3 [3] (good (msgTo 157 258) [3]) = (c, true) ∧ 157 = c.stewardNode ∧
    (s.ctlTook (msgTo 0 257)).judge (msgTo 0 257) 4 [4 + 5 * 2 ^ 16] (good (msgTo 0 257) [4 + 5 * 2 ^ 16]) = (d, true) ∧ 0 = d.managerDie 0 ∧
    (chunked.CtlArrives (msgTo 0 257) ∧ chunked.CtlArrives (msgTo 157 258) ∧ (chunking.node 0).hasChunk 0 = false ∧ (chunked.node 0).hasChunk 0 = true) ∧
    (chunked.ctlTook (msgTo 0 257)).judge (msgTo 0 257) 6 [6 + 1 * 2 ^ 8, 0] (good (msgTo 0 257) [6 + 1 * 2 ^ 8, 0]) = (e, true) ∧ e.key.chunk = some (0, 0, 2) ∧
    chunked.key.chunk = some (0, 0, 2) ∧ (chunked.ctlTook (msgTo 157 258)).judge (msgTo 157 258) 7 [7 + 1 * 2 ^ 8] (good (msgTo 157 258) [7 + 1 * 2 ^ 8]) = (f, true) ∧
    f.key.chunk = some (0, 0, 2) ∧
    (chunked.ctlTook (msgTo 157 258)).judge (msgTo 157 258) 7 [7 + 1 * 2 ^ 8 + 1 * 2 ^ 40] (good (msgTo 157 258) [7 + 1 * 2 ^ 8 + 1 * 2 ^ 40]) = (g, true) :=
  ⟨ready, _, _, _, _, _, _, _, ⟨rfl, by decide⟩, ⟨rfl, by decide⟩, judged (by decide) (by decide), by decide, judged (by decide) (by decide), by decide,
    judged (by decide) (by decide), by decide, judged (by decide) (by decide), by decide, ⟨⟨rfl, by decide⟩, ⟨rfl, by decide⟩, by decide, by decide⟩,
    judged (by decide) (by decide), by decide, by decide, judged (by decide) (by decide), by decide, judged (by decide) (by decide)⟩

theorem wit_ManagementAnswers : ∃ (s : State) (p : Prot) (h : CtlHdr) (c : ChkFlit), s.CtlArrives h ∧ c.crc = checkCrc h [5 + 2 * 2 ^ 8 + 255 * 2 ^ 16] c.alive ∧
    s.mgmt.sent = [p] ∧ p.snode = h.dnode ∧ p.dnode = h.snode ∧ p.mtype = 2 ∧ p.alive = 255 ∧ p.tries < 8 ∧ s.hasUnit h.dnode = true :=
  ⟨ready.updMgmt (fun m => { m with sent := [⟨157, 258, 157, 258, 2, [2], 255, 7⟩] }), ⟨157, 258, 157, 258, 2, [2], 255, 7⟩, msgTo 157 258,
    good (msgTo 157 258) [5 + 2 * 2 ^ 8 + 255 * 2 ^ 16], ⟨rfl, by decide⟩, good_crc _ _ _, by decide⟩

/-- Stack 0 is online at a hub in service. -/
def online : State := (ready.wr (MH_STACK_STATE.STATE 0) 0).wr (MH_HUB_STAT.INSERVICE 0) 1
/-- A layer run of an empty plan, at a step. -/
def runAt (step : Nat) : LayerRun :=
  ⟨0, 0, parsePlan [], 0, 7, step, [], [], [], [], 0, 0, 0, false, false, false, false, 0, 0, false, [], false, false, false, []⟩
/-- Partition 0 owns regions 0 and 1, has placed the virtual core (0, 0) on core 0 and runs a layer. -/
def layered (step : Nat) : State :=
  ((((((online.wr (HID_PART.REGIONS 0) 3).wr (HID_PART.EN 0) 1).wr (CD_PMAP_GRID.GX 0) 1).wr (CD_PMAP_GRID.GY 0) 1).wr (CD_PMAP_CNT.NREC 0) 1).updPart 0 (fun x =>
    { x with run := some (runAt step), place := some ⟨32, 1, 1, [⟨0, 0, 32, 1, 0, 0⟩], []⟩, kernels := [(0, 1)] }))

theorem wit_Prepare : ∃ (s : State), s.CtlArrives (msgTo 0 256) ∧ s.dieAbsent 0 = false ∧ s.asleep 0 = false ∧ s.heldBy 0 128 = none ∧
    ((s.ctlTook (msgTo 0 256)).dealerRead 0 128).2.toOption.isSome = true ∧ ((s.ctlTook (msgTo 0 256)).dealerRead 0 (planLen [])).2.toOption.isSome = true ∧ (s.kernelOf 0 (parsePlan []).kernel).isSome = true ∧ (s.pmap 0).cells = [(0, 0, 0)] ∧ (s.core 0).fenced = false ∧
    s.partOfRegion (regionOf 0) = some 0 := ⟨layered 4, ⟨rfl, by decide⟩, by decide, by decide, by decide, by decide, by decide, by decide, by decide, by decide, by decide⟩

theorem wit_DealerMessages : ∃ s t u v : State, ∃ l m : LayerRun, (s.CtlArrives (msgTo 157 258) ∧ t.CtlArrives (msgTo 157 258) ∧ s.CtlArrives (msgTo 0 256) ∧
      u.CtlArrives (msgTo 0 256)) ∧ ((s.part 0).run = some l ∧ (msgTo 157 258).dnode = s.stewardNode ∧ l.num = 7 ∧ l.step = 4 ∧ l.ready.contains 0 = false) ∧
    (s.placedDies 0).contains 0 = true ∧ (∃ e ∈ s.placedDies 0, e ≠ 0 ∧ l.ready.contains e = false) ∧
    ((t.part 0).run = some m ∧ m.step = 20 ∧ m.quiet.contains 0 = false) ∧ t.dieQuiet 0 = true ∧ (msgTo 0 256).dnode = u.managerDie 0 ∧ u.rgnState 0 = 2 ∧
    ((msgTo 0 256).dnode = v.managerDie 0 ∧ v.rgnState 0 = 4) :=
  ⟨layered 4, layered 20, ready.wr (RGN_PWR_STAT.STATE 0) 2, ready.wr (RGN_PWR_STAT.STATE 0) 4, runAt 4, runAt 20,
    ⟨⟨rfl, by decide⟩, ⟨rfl, by decide⟩, ⟨rfl, by decide⟩, rfl, by decide⟩, ⟨rfl, by decide⟩, by decide, ⟨1, by decide⟩, ⟨rfl, by decide⟩, by decide, by decide, by decide, by decide⟩

/-- A fault report of die 0 that is not acknowledged. -/
def fault0 : FaultMsg := ⟨0, 256, 9, 0x10, 0, 1, 0, 0⟩
theorem wit_Heartbeats : ∃ s t : State, (s.CtlArrives (msgTo 183 258) ∧ s.CtlArrives (msgTo 157 258) ∧ s.CtlArrives (msgTo 0 257) ∧ t.CtlArrives (msgTo 0 256)) ∧
    ((msgTo 183 258).dnode = s.standbyNode ∧ s.bit GLB_STW_STAT.STANDBY_OK = true) ∧ s.dieAbsent 0 = false ∧ (msgTo 157 258).dnode = s.stewardNode ∧
    (msgTo 0 257).dnode = s.managerDie (regionOf 0) ∧ s.bit GLB_STW_STAT.LOST_BOTH = false ∧ s.net.acted.contains (0, 255) = false ∧ t.net.acted.contains (0, 255) = true ∧ t.bit GLB_STW_STAT.LOST_BOTH = false ∧
    ((t.node (msgTo 0 256).dnode).faults = [fault0] ∧ fault0.msgid = 9) :=
  ⟨ready.wr GLB_STW_STAT.STANDBY_OK 1, (ready.updNode 0 (fun x => { x with faults := [fault0] })).updNet (fun x => { x with acted := [(0, 255)] }),
    ⟨⟨rfl, by decide⟩, ⟨rfl, by decide⟩, ⟨rfl, by decide⟩, rfl, by decide⟩, by decide, by decide, by decide, by decide, by decide, by decide, by decide, by decide, by decide⟩

theorem wit_Setup : ∃ s : State, ((s.ctlTook (msgTo 157 258)).maySetup (msgTo 157 258) = true ∧ (s.ctlTook (msgTo 143 258)).maySetup (msgTo 143 258) = true ∧
      s.nodeOn 143 = false) ∧ s.CtlArrives (msgTo 157 258) ∧
    ((s.ctlTook (msgTo 157 258)).updNode 157 (fun x => { x with setups := x.setups ++ [258 * 256] })).ownerAbsent 0x200000 = true ∧
    ((s.ctlTook (msgTo 157 258)).updNode 157 (fun x => { x with setups := x.setups ++ [258 * 256] })).ownerAbsent 0x3FFFFF8 = false :=
  ⟨ready, by decide, ⟨rfl, by decide⟩, by decide, by decide⟩

/-! Synchronisation, time, tables. -/

theorem wit_Sync : ∃ s t u : State, ∃ tr, (Tab.get 0 (s.node 143).count (cntKey 7 1) + 1 = s.rd (CD_SYNC_EXP.EXP 143 7)) ∧
    (Tab.get 0 (t.node 143).count (cntKey 7 1) + 1 ≠ t.rd (CD_SYNC_EXP.EXP 143 7)) ∧ bitsOf (s.rd (CD_SYNC_PHASE.PHASE 143)) 7 1 ≠ 1 ∧
    bitsOf (s.rd (CD_SYNC_PHASE.PHASE 143)) 7 1 = 0 ∧ (∀ k, k < 256 → (t.core (143 * 256 + k)).tasks = []) ∧ Tab.get 0 (s.node 143).seq 3 ≠ 15 + 1 ∧
    ¬(Tab.get 0 (t.node 143).seq 3 ≠ 15 + 1) ∧ (u.tel.trick = some tr ∧ tr.n = 5 ∧ tr.t ≤ u.ptime ∧ 143 ∈ tr.armed ∧ Tab.get [] u.tel.shadow 143 = [] ∧ u.dieAbsent 143 = false ∧ u.unitGone 143 = none ∧
      u.bit (CD_RT_CTL.PEND 143) = true ∧ u.inactiveVer 143 = 0) ∧ (u.clk.adj.isSome = true ∧ ∀ a, u.clk.adj = some a → 143 ∉ a.got) :=
  ⟨State.reset.wr (CD_SYNC_EXP.EXP 143 7) 1, State.reset.updNode 143 (fun x => { x with seq := [(3, 16)] }),
    { ((State.reset.wr (RGN_PWR_STAT.STATE 15) 0).wr (CD_RT_CTL.PEND 143) 1) with
      tel := { Tel.reset with trick := some ⟨none, 5, 0, 0, none, [143], 0⟩ }, clk := { Clocks.reset with adj := some ⟨false, 0, 0, 0, []⟩ } },
    ⟨none, 5, 0, 0, none, [143], 0⟩, by decide, by decide, by decide, by decide, fun _ _ => rfl, by decide, by decide, by decide, by decide,
    fun a h => by cases h; decide⟩

theorem wit_TimeExchanges : ∃ s t : State, ∃ q, Tab.get none s.clk.req 0 = some q ∧ q.id = 65535 ∧ s.timed 0 = true ∧ s.bit (CD_CLK_STAT.PT_LOCK 0) = false ∧
    4 ≤ Tab.get 0 s.clk.good 0 + 1 ∧ (∀ p, p < 16 → (s.part p).run = none) ∧
    (-16 ≤ (diff32 0 q.t1 + diff32 (0 + 0) (s.time16 0 % 2 ^ 32)) / 2 ∧ (diff32 0 q.t1 + diff32 (0 + 0) (s.time16 0 % 2 ^ 32)) / 2 ≤ 16) ∧
    (diff32 34 q.t1 + diff32 (34 + 0) (s.time16 0 % 2 ^ 32)) / 2 = 34 ∧ (diff32 65 q.t1 + diff32 (65 + 0) (s.time16 0 % 2 ^ 32)) / 2 = 65 ∧
    (Tab.get none t.clk.req 0 = some q ∧ t.bit (CD_CLK_STAT.PT_LOCK 0) = true ∧ t.timed 0 = true) ∧ s.dieAbsent 0 = false :=
  ⟨{ ready with clk := { Clocks.reset with req := [(0, some ⟨65535, 0⟩)], good := [(0, 3)] } },
    { ready.wr (CD_CLK_STAT.PT_LOCK 0) 1 with clk := { Clocks.reset with req := [(0, some ⟨65535, 0⟩)] } }, ⟨65535, 0⟩, rfl, rfl, by decide, by decide, by decide,
    fun _ _ => rfl, by decide, by decide, by decide, ⟨rfl, by decide, by decide⟩, by decide⟩

theorem wit_Tables : ∃ s t : State, ∃ g, wayNode 0 0 = some 1 ∧ s.layerGoing = false ∧ s.bit GLB_STW_STAT.LOST_BOTH = false ∧ s.dieAbsent 0 = false ∧ (s.net.chg = some g ∧ g.flipped = false) ∧ (∀ r ∈ s.routers, r.2.lanes = []) ∧ s.links.falling = [] ∧
    Tab.get 0 (s.node s.stewardNode).seq 7 ≠ Tab.get 0 s.net.bseq 7 + 1 ∧ 0 ∉ (s.node 0).stopped ∧ Tab.get 0 (s.node 0).resends 0 + 1 ≠ 8 ∧
    s.rd (CD_LNK_ERR.RESENDS 0 0) < 0x7FFF ∧ Tab.get 0 s.links.winMs (endKey 0 0) ≠ s.ptime / 1000000 + 1 ∧ 0 < s.rd GLB_LNK_CFG.RESEND_MAX ∧ s.anyLayer = false ∧
    (17 ≤ Tab.get 0 (t.node 0).resends 0 + 1 ∧ t.anyLayer = false ∧ t.dieAbsent 0 = false) :=
  ⟨ready.updNet (fun x => { x with chg := some ⟨1, false⟩ }), ready.updNode 0 (fun x => { x with resends := [(0, 16)] }), ⟨1, false⟩, by decide, by decide, by decide, by decide, by decide,
    by decide, by decide, by decide, by decide, by decide, by decide, by decide, by decide, by decide, by decide⟩
theorem wit_TablesWait : ∃ s t u : State, s.layerGoing = true ∧ (t.net.chg = some ⟨1, false⟩ ∧ ∃ r ∈ t.routers, r.2.lanes ≠ []) ∧ u.net.chg = some ⟨1, true⟩ :=
  ⟨layered 9, (ready.updNet (fun x => { x with chg := some ⟨1, false⟩ })).updRouter 0 (fun x => { x with lanes := [⟨0, 8, none, []⟩] }),
    ready.updNet (fun x => { x with chg := some ⟨1, true⟩ }), by decide, by decide, by decide⟩

/-- A sync link that is free, one that is busy, and one whose store holds the last message of type 3. -/
theorem wit_SyncLinks : ∃ s t : State, ((s.syncLink 0 1).busy ≤ s.ptime ∧ (s.syncLink 0 1).wait = []) ∧ t.ptime < (t.syncLink 0 1).busy ∧
    (t.syncLink 0 1).store.find? (fun m => decide (m.type = 3)) = some ⟨3, 2, 0, [7]⟩ ∧ (∀ m ∈ (s.syncLink 0 1).store, m.type ≠ 3) ∧
    ∃ m : SyncMsg, syncPick [⟨3, 0, 0, []⟩, ⟨4, 0, 0, []⟩] = some m ∧ m.type < 16 ∧ m.seq < 16 ∧ m.arg < 2 ^ 20 ∧ m.data.length < 4 ∧ ∀ x ∈ m.data, x < 2 ^ 32 :=
  ⟨ready, ready.setSync 0 1 ⟨8, [], [⟨3, 2, 0, [7]⟩]⟩, by decide, by decide, by decide, by decide, _, rfl, by decide⟩

/-! The store. -/

/-- Hub 0 scrubs address 0 of its online stack `n`. -/
abbrev Scrubs (n : Nat) (s : State) : Prop := s.onHub 0 0 = true ∧ s.bit (MH_HUB_STAT.INSERVICE 0) = true ∧ (s.place 0).1 = n ∧ s.rd (MH_STACK_STATE.STATE n) < 2
theorem wit_StoreScrub : ∃ s t u : State, Scrubs 0 online ∧ online.lineErr 0 = 0 ∧ (Scrubs 0 s ∧ s.lineErr 0 = 1 ∧ s.rd (MH_CE_CNT.COUNT 0 (stackIdx 0)) < 2 ^ 16 - 1) ∧
    (Scrubs 0 t ∧ 2 ≤ t.lineErr 0 ∧ t.pmode = false) ∧ (Scrubs 1 u ∧ 2 ≤ u.lineErr 0 ∧ u.hasParity 0 = true ∧ ∀ x ∈ mates 0, u.lineErr x = 0) :=
  ⟨{ online with ecc := [(0, 1)] }, { online with ecc := [(0, 2)] }, { (online.wr MH_STORE_CFG.PMODE 1).wr (MH_STACK_STATE.STATE 1) 0 with ecc := [(0, 2)] }, by decide, by decide,
    ⟨by decide, by decide⟩, ⟨by decide, by decide⟩, by decide, by decide +kernel, by decide +kernel, by decide +kernel⟩

theorem wit_StoreStacks : ∃ s t u : State, (s.store.repairs = [(0, 5)] ∧ s.bit (MH_PPR_CTL.EN (stackHub 0)) = true ∧ s.stackLost 0 = false ∧ s.stackTraining 0 = false) ∧
    (t.rd (MH_STACK_STATE.STATE 47) = 3 ∧ t.store.initing = false ∧ (∀ r ∈ t.store.held, r.stack ≠ 47) ∧ t.store.ws = []) ∧
    (u.pmode = true ∧ u.rd (MH_PGRP_STATE.STATE 3) = 3 ∧ u.rd (MH_STACK_STATE.STATE 47) ≠ 2 ∧ u.rd MH_RECON_CTL.RATE ≠ 0 ∧ u.nextStripe 47 < stripesPerPos ∧
      Tab.get [] u.store.lost 3 = [] ∧ (∀ r ∈ u.store.held, r.stack ≠ 47) ∧ u.store.ws = [] ∧ u.store.built = [] ∧ u.store.early = [] ∧ u.stackLost 46 = false) :=
  ⟨{ online.wr (MH_PPR_CTL.EN 0) 1 with store := { Store.reset with repairs := [(0, 5)] } }, ready,
    (((ready.wr MH_STORE_CFG.PMODE 1).wr (MH_PGRP_STATE.STATE 3) 3).wr (MH_STACK_STATE.STATE 47) 0).wr MH_RECON_CTL.RATE 1, by decide, by decide, by decide⟩

theorem wit_StoreInit : ∃ s t : State, ((∀ j, j < 48 → s.bit (MH_SEG_MAP.ASSIGNED j) = false) ∧ s.storeTraffic = false) ∧ (layered 9).storeTraffic = true ∧
    (t.store.initing = true ∧ ∀ r ∈ t.opens, r.lo < 0x024000000000 → r.hi ≤ 0x024000000000) ∧ s.rd (MH_PGRP_STATE.STATE 0) ≠ 2 :=
  ⟨ready, { ready with store := { Store.reset with initing := true } }, by decide, by decide, by decide, by decide⟩

theorem wit_Segments : ∃ s t : State, (s.bit (MH_SEG_MAP.ASSIGNED 47) = true ∧ (0 : Nat) = s.rd (MH_SEG_MAP.MODE 47)) ∧ (t.bit (MH_SEG_MAP.ASSIGNED 47) = false ∧ t.pmode = false) ∧
    (t.rxaArrayOk (t.rd (MH_RXA_HDR.BASE 71)) (64 * 2 ^ 8) && t.rxaArrayOk (t.rd (MH_RXA_DATA.BASE 71)) (4096 * 2 ^ 8)) = false :=
  ⟨ready.wr (MH_SEG_MAP.ASSIGNED 47) 1, ready, by decide, by decide, by decide⟩
theorem wit_ReceiveArrays : ∃ s t : State, (s.rxaArrayOk (s.rd (MH_RXA_HDR.BASE 71)) (64 * 2 ^ 16) && s.rxaArrayOk (s.rd (MH_RXA_DATA.BASE 71)) (4096 * 2 ^ 16)) = true ∧
    ((s.rd (MH_RXA_WR.WR_IDX 71) + 2 ^ 32 - 0) % 2 ^ 32 ≤ s.rxaSlots 71 ∧ s.rxaSlots 71 < (s.rd (MH_RXA_WR.WR_IDX 71) + 2 ^ 32 - 1) % 2 ^ 32) ∧
    (t.bit (MH_RXA_CTL.NOTIFY 71) = true ∧ Tab.get 0 t.host.rxaDue 71 = 1 ∧ Tab.get 0 t.host.rxaLast 71 = 0) ∧ 8 ≠ t.portOwner 0 :=
  ⟨(ready.wr (MH_SEG_MAP.ASSIGNED 0) 1).wr (MH_SEG_MAP.SHARED 0) 1, { ready.wr (MH_RXA_CTL.NOTIFY 71) 1 with host := { HostSide.reset with rxaDue := [(71, 1)] } },
    by decide, by decide, by decide, by decide⟩

/-! Descriptors. -/

/-- A descriptor of ring 0, function 0 and partition 0, of an opcode, whose bytes from byte 8 are `l`. -/
def desc (op : Nat) (l : List Byte) : Desc := ⟨0, 0, 0, BitVec.ofNat 8 op :: List.replicate 7 0 ++ l, .fetched, 0, 0, 0, 0, false⟩
/-- `s` with partition 0 in regions 0 and 1, segment 0 its own, and one descriptor fetched. -/
def asked (s : State) (d : Desc) : State :=
  { (((s.wr (HID_PART.REGIONS 0) 3).wr (HID_PART.EN 0) 1).wr (MH_SEG_MAP.ASSIGNED 0) 1) with host := { HostSide.reset with nextKey := 1, descs := [d] } }
def le (n x : Nat) : List Byte := leBytes n x
theorem begins {s : State} {d : Desc} {op : Nat} (a : (s.descOf d.key = some d ∧ d.st = .fetched ∧ d.op = op))
    (b : (s.mayBegin d = true ∧ s.recoveryOnly d = false ∧ (s.bit GLB_STW_STAT.LOST_BOTH && needsSteward d) = false)) (c : s.descFault d = none) : s.Begins d.key op d :=
  ⟨a.1, a.2.1, a.2.2, b.1, c, b.2.1, b.2.2⟩
theorem got {x : State × Except (Nat × Nat) Plan} {l : Plan} (h : x.2.toOption = some l) : x = (x.1, .ok l) := by
  obtain ⟨a, b⟩ := x; cases b with
  | error e => simp [Except.toOption] at h
  | ok v => simp [Except.toOption] at h; rw [h]
theorem gotBytes {x : State × Except Nat (List Byte)} {l : List Byte} (h : x.2.toOption = some l) : x = (x.1, .ok l) := by
  obtain ⟨a, b⟩ := x; cases b with
  | error e => simp [Except.toOption] at h
  | ok v => simp [Except.toOption] at h; rw [h]

/-- A kernel object of one task of one instruction, and a plan of one core that binds handle 0. -/
def kernelObj : List Byte := [66, 79, 80, 75, 1, 1, 0, 0, 112, 0, 0, 0, 220, 192, 186, 178] ++ List.replicate 48 0 ++
  [0, 0, 1, 0, 0, 0, 0, 0, 0, 0, 0, 0, 4, 0, 0, 0, 96, 0, 0, 0] ++ List.replicate 28 0
def planObj : List Byte := [65, 76, 80, 76, 1, 0, 0, 0, 1, 0, 1] ++ List.replicate 21 0 ++ [128, 0, 0, 0, 77, 88, 66, 251] ++ List.replicate 88 0
/-- Both in the store, the plan at 128; the handle bound and the core placed. -/
def loaded : State := ((online.write 0 kernelObj).write 128 planObj).updPart 0 (fun x =>
  { x with kernels := [(0, 1)], place := some ⟨1, 1, 0, [⟨0, 0, 1, 1, 0, 0⟩], []⟩ })

theorem wit_LoadKernel : ∃ (s u w : State) (d : Desc) (hd bytes : List Byte), s.Begins d.key 0x10 d ∧ ((s.beginDesc 0).mustWait 0 64 = false ∧
      (s.beginDesc 0).handleBusy 0 63 = false) ∧ (s.beginDesc 0).dealerRead 0 64 = (u, .ok hd) ∧ kernelHdrOk hd = true ∧ u.descReach 0 0 0 (fieldAt hd 8 4) = true ∧
    u.mustWait 0 (fieldAt hd 8 4) = false ∧ u.dealerRead 0 (fieldAt hd 8 4) = (w, .ok bytes) ∧ (parseKernel bytes).toOption.isSome = true :=
  ⟨asked loaded (desc 0x10 (le 8 0 ++ le 8 63)), _, _, desc 0x10 (le 8 0 ++ le 8 63), kernelObj.take 64, kernelObj, begins (by decide) (by decide) (by decide +kernel), by decide,
    gotBytes (by decide +kernel), by decide +kernel, by decide +kernel, by decide +kernel, gotBytes (by decide +kernel), by decide +kernel⟩

theorem wit_HandleBusy : ∃ (s : State) (d : Desc), s.Begins d.key 0x14 d ∧ (s.beginDesc 0).handleBusy 0 0 = true :=
  ⟨asked (layered 9) (desc 0x14 (le 8 0)), desc 0x14 (le 8 0), begins (by decide) (by decide) (by decide +kernel), by decide⟩

theorem wit_Place : ∃ (s t : State) (d e : Desc), s.Begins d.key 0x11 d ∧ ((s.beginDesc 0).partDrained 0 = true ∧ (t.beginDesc 0).partDrained 0 = true) ∧ (((s.beginDesc 0).wr (GLB_RCV_PART.LOSS_PENDING 0) 0).embed 0 1 1 0).isSome = true ∧ t.Begins e.key 0x11 e ∧
    (((t.beginDesc 0).wr (GLB_RCV_PART.LOSS_PENDING 0) 0).embed 0 256 128 0) = none :=
  ⟨(asked ready (desc 0x11 [1, 0, 1])).wr (HID_PART.REGIONS 0) 1, (asked ready (desc 0x11 [0, 1, 128])).wr (HID_PART.REGIONS 0) 0, desc 0x11 [1, 0, 1],
    desc 0x11 [0, 1, 128], begins (by decide) (by decide) (by decide +kernel), by decide +kernel, by decide +kernel, begins (by decide) (by decide) (by decide +kernel), by decide +kernel⟩

/-- Core 0 of partition 0 still sends a message. -/
def busy0 (d : Desc) : State := (asked loaded d).updCore 0 (fun k => { k with msgs := [⟨0, 0, 0, 1⟩] })
theorem wit_PlaceWaits : ∃ (s : State) (d : Desc), s.Begins d.key 0x11 d ∧ (s.beginDesc 0).partDrained 0 = false :=
  ⟨busy0 (desc 0x11 [1, 0, 1]), desc 0x11 [1, 0, 1], begins (by decide) (by decide) (by decide +kernel), by decide +kernel⟩

/-- A shuffle is due: region 0 is hot, and core (0, 0) of partition 0 on it. -/
theorem wit_ShuffleDrains : ∃ (s t : State) (temps : List (Nat × Nat)), s.shufPairs 0 0 (parsePlan planObj) [] = [] ∧ t.shufPairs 0 1 (parsePlan planObj) temps ≠ [] ∧
    t.partDrained 0 = false ∧ (t.updCore 0 (fun k => { k with msgs := [] })).partDrained 0 = true :=
  ⟨loaded, ((((busy0 (desc 0x12 (le 8 128))).wr THM_SHUF_CFG.HOT 0).wr THM_SHUF_CFG.DELTA 0).wr GLB_DLR_CTL.SHUF_EN 1).wr (GLB_DLR_PART3.STALE 0) 0, [(0, 0)], by decide +kernel, by decide +kernel, by decide +kernel, by decide +kernel⟩

theorem wit_RunLayer : ∃ (s u : State) (d : Desc) (q : Plan), s.Begins d.key 0x12 d ∧ s.rd THM_STAT.FLOW_STATE ≠ 2 ∧ (s.part 0).noRes = false ∧ (s.part 0).foldsDue = [] ∧
    (s.beginDesc 0).startsHeld = false ∧ (s.beginDesc 0).mustWait 128 128 = false ∧ s.bit (GLB_RCV_PART.LOSS_PENDING 0) = false ∧
    (((s.beginDesc 0).wr (GLB_RCV_PART.LOSS_PENDING 0) 0).readPlan 0 0 128) = (u, .ok q) :=
  ⟨asked loaded (desc 0x12 (le 8 128)), _, desc 0x12 (le 8 128), parsePlan planObj, begins (by decide) (by decide) (by decide +kernel), by decide, by decide, by decide, by decide,
    by decide, by decide, got (by decide +kernel)⟩

theorem wit_RunLayerRefused : ∃ (s t : State) (d : Desc), (s.Begins d.key 0x12 d ∧ s.rd THM_STAT.FLOW_STATE = 2) ∧ t.Begins d.key 0x12 d ∧ (t.part 0).noRes = true ∧
    (((s.beginDesc 0).wr (GLB_RCV_PART.LOSS_PENDING 0) 0).readPlan 0 0 0).2.toOption.isSome = false :=
  ⟨(asked online (desc 0x12 (le 8 0))).wr THM_STAT.FLOW_STATE 2, asked (online.updPart 0 (fun x => { x with noRes := true })) (desc 0x12 (le 8 0)), desc 0x12 (le 8 0),
    ⟨begins (by decide) (by decide) (by decide +kernel), by decide⟩, begins (by decide) (by decide) (by decide +kernel), by decide, by decide +kernel⟩

/-- A going layer of two cores on die 0, one weight record for both, one output, a copy due, a time limit. -/
def weights : WsRec := { saddr := 0, rowBytes := 16, rowCount := 1, sstride := 16, vx0 := 0, vx1 := 0, vy0 := 0, vy1 := 0, roff := 0, slot := 0, rstride := 16, cnt := 0, cntEn := false, after := 0xFF, inc := 0 }
def goingRun : LayerRun :=
  { runAt 9 with plan := { parsePlan [] with ws := [weights], outs := [⟨0, 32, 0, false⟩], gx := 1, gy := 1 }, wsOn := [0], copyDue := true, limitOn := true }
def going (st : TaskSt) : State := (asked (loaded.updPart 0 (fun x => { x with run := some goingRun })) (desc 0x13 [])).updTask 0 0 (fun t =>
  { t with st := st, loaded := true, tbound := 0x1000 })
/-- A piece of a weight record of partition 0, waiting for one acknowledgement at hub 0. -/
def piece (live : Bool) : WsPiece := ⟨0, 0, 0, 0, weights, 0, 16, 0, true, some (List.replicate 16 0), true, true, live, [.ack 3 0]⟩
theorem wit_Weights : ∃ (s t : State) (l : LayerRun) (pl : Placement), ((s.part 0).run = some l ∧ (s.part 0).place = some pl ∧ (t.part 0).run = some l ∧ (t.part 0).place = some pl) ∧
    (l.going = true ∧ 0 ∈ l.wsOn ∧ 0 ∉ l.wsDone) ∧ (∀ x ∈ s.store.ws, x.part = 0 → x.idx = 0 → x.live = false) ∧
    (∃ x ∈ t.store.ws, x.part = 0 ∧ x.idx = 0 ∧ x.live = true) ∧
    (t.store.ws = [piece true] ∧ t.Takes (piece true).loc { hdr0 with type := 8, dkind := 1, x0 := (piece true).loc - 36864, tag := 3 } ∧
      BulkHdr.dest { hdr0 with type := 8, dkind := 1, x0 := (piece true).loc - 36864, tag := 3 } = (piece true).loc) :=
  ⟨going .running, { going .running with store := { Store.reset with ws := [piece true] } }, goingRun, ⟨1, 1, 0, [⟨0, 0, 1, 1, 0, 0⟩], []⟩, ⟨rfl, rfl, rfl, rfl⟩, by decide, by decide,
    ⟨piece true, by decide⟩, rfl, takes_stop (by decide) (by decide) (by decide), by decide⟩

theorem wit_CommitCopy : ∃ (s : State) (l : LayerRun) (pl : Placement), (s.part 0).run = some l ∧ (s.part 0).place = some pl ∧ s.partOfCore 0 = some 0 ∧
    (l.going = true ∧ l.copyDue = true ∧ 0 ∉ l.copied ∧ l.limitOn = true) ∧ ((s.core 0).fenced = false ∧ (s.core 0).work = [] ∧ (s.task 0 0).loaded = true ∧ 0 ∈ (s.core 0).tasks.map Prod.fst) ∧
    (∀ e ∈ (s.core 0).tasks, e.2.loaded = true → e.2.st = .done) ∧ pl.virtualOf 0 = some (0, 0) ∧ l.plan.outs = [⟨0, 32, 0, false⟩] ∧
    (∀ r ∈ s.placedRegions 0, s.bit (RGN_PWR_STAT.CLAMPED r) = false) :=
  ⟨going .done, goingRun, ⟨1, 1, 0, [⟨0, 0, 1, 1, 0, 0⟩], []⟩, rfl, rfl, by decide, by decide, by decide, by decide, by decide, by decide, by decide⟩
theorem wit_LayerClamped : ∃ (s : State), ∃ r ∈ s.placedRegions 0, s.bit (RGN_PWR_STAT.CLAMPED r) = true := ⟨loaded.wr (RGN_PWR_STAT.CLAMPED 0) 1, 0, by decide⟩
theorem wit_Commit : ∃ (s : State) (d : Desc), s.Begins d.key 0x13 d := ⟨asked ready (desc 0x13 []), desc 0x13 [], begins (by decide) (by decide) (by decide +kernel)⟩

/-! The host interface. -/

/-- Function 0 live, its ring 2047 a submission ring of 64 descriptors, ring 0 its completion ring. -/
def hosting : State :=
  { (((((ready.wr (HID_FN_ID.EN 0) 1).wr (RING_CFG.EN 2047) 1).wr (RING_CFG.LOG2SIZE 2047) 6).wr (RING_STAT.STATE 2047) 1).wr RST_BOOT_STAT.STATE 1) with
    host := { HostSide.reset with inReset := [(0, 1), (1, 1)] } }

theorem wit_Doorbells : ∃ s t : State, (s.fnLive 0 = true ∧ s.rd (RING_CFG.FUNC 2047) = 0 ∧ s.ringOk 2047 = true ∧ s.rd (RING_CFG.KIND 2047) = 0 ∧
      (63 : Nat) < s.ringSize 2047 ∧ (63 + s.ringSize 2047 - s.rd (RING_TAIL.TAIL 2047)) % s.ringSize 2047 ≤
        (s.rd (RING_HEAD.HEAD 2047) + s.ringSize 2047 - 1 + s.ringSize 2047 - s.rd (RING_TAIL.TAIL 2047)) % s.ringSize 2047 ∧ s.ringSize 2047 ≤ 64) ∧
    (t.fnLive 0 = true ∧ t.rd (RING_CFG.FUNC 2047) ≠ 0) := ⟨hosting, hosting.wr (RING_CFG.FUNC 2047) 1, by decide, by decide⟩

theorem wit_CqDoorbell : ∃ s : State, s.fnLive 0 = true ∧ s.rd (RING_CFG.FUNC 2047) = 0 ∧ s.ringOk 2047 = true ∧ s.rd (RING_CFG.KIND 2047) = 1 ∧ (0 : Nat) < s.ringSize 2047 ∧
    (0 + s.ringSize 2047 - s.rd (RING_HEAD.HEAD 2047)) % s.ringSize 2047 ≤ (s.rd (RING_TAIL.TAIL 2047) + s.ringSize 2047 - s.rd (RING_HEAD.HEAD 2047)) % s.ringSize 2047 ∧
    s.host.held = [] := ⟨hosting.wr (RING_CFG.KIND 2047) 1, by decide⟩

theorem wit_Fetch : ∃ s : State, s.net.chg = none ∧ s.nextRing 0 = some (5, false, 1) ∧ s.rd (RING_CFG.FUNC 5) < 16 ∧
    0 < min (min (min 8 1) ((s.rd (RING_TAIL.TAIL 5) + s.ringSize 5 - s.rd (RING_HEAD.HEAD 5)) % s.ringSize 5))
      (min (s.ringSize 5 - s.rd (RING_HEAD.HEAD 5)) (min (2048 - (s.host.descs.filter (fun d => decide (ringDie d.ring = 0))).length) [[(0 : Byte)]].length)) :=
  ⟨{ (((((ready.wr (HID_FN_ID.EN 0) 1).wr (RING_CFG.EN 5) 1).wr (RING_STAT.STATE 5) 1).wr (RING_TAIL.TAIL 5) 1).wr RST_BOOT_STAT.STATE 1) with
      host := { HostSide.reset with inReset := [(0, 1)], rrRing := [(0, 4)] } }, by decide +kernel⟩

theorem wit_Completion : ∃ s t : State, ∃ d e, (s.descOf 0 = some d ∧ d.st = .finished ∧ d.wantsEntry = true) ∧ (t.descOf 0 = some e ∧ e.st = .finished ∧ e.wantsEntry = false) ∧
    s.ringOk (s.entryOf d).cq = true ∧ Tab.get 0 t.host.coal 2047 ≠ 0 :=
  ⟨{ (hosting.wr (RING_CFG.EN 0) 1).wr (RING_STAT.STATE 0) 1 with host := { HostSide.reset with descs := [{ desc 0x13 [] with st := .finished, status := 1 }] } },
    { hosting with host := { HostSide.reset with descs := [{ desc 0x13 [] with st := .finished }], coal := [(2047, 1)] } },
    { desc 0x13 [] with st := .finished, status := 1 }, { desc 0x13 [] with st := .finished }, by decide, by decide, by decide, by decide⟩

theorem wit_RingEnable : ∃ s t : State, (s.rd (RING_STAT.STATE 2047) = 0 ∧ s.host.held = [] ∧ ((s.ringFields .fw 2047 3).wr (RING_STAT.ERR 2047) 0).enableBad 2047 = none) ∧
    (t.rd (RING_STAT.STATE 2047) = 0 ∧ ((t.ringFields .fw 2047 1).wr (RING_STAT.ERR 2047) 0).enableBad 2047 = some 4) ∧
    (hosting.bit (RING_CFG.EN 2047) = true ∧ hosting.rd (RING_CFG.KIND 2047) = 0) :=
  ⟨ready, ready, by decide +kernel, by decide +kernel, by decide⟩

theorem wit_RingDrained : ∃ s : State, s.rd (RING_STAT.STATE 2047) = 3 ∧ (∀ d ∈ s.host.descs, d.ring ≠ 2047) ∧ ∀ e ∈ s.host.held, e.sq ≠ 2047 :=
  ⟨ready.wr (RING_STAT.STATE 2047) 3, by decide⟩

theorem wit_EventHead : ∃ s : State, (63 : Nat) < 2 ^ s.rd (HID_EVT_CFG.LOG2SIZE 15) ∧ (63 + 2 ^ s.rd (HID_EVT_CFG.LOG2SIZE 15) - s.rd (HID_EVT_HEAD.HEAD 15)) % 2 ^ s.rd (HID_EVT_CFG.LOG2SIZE 15) ≤
    (s.rd (HID_EVT_TAIL.TAIL 15) + 2 ^ s.rd (HID_EVT_CFG.LOG2SIZE 15) - s.rd (HID_EVT_HEAD.HEAD 15)) % 2 ^ s.rd (HID_EVT_CFG.LOG2SIZE 15) ∧ 2 ^ s.rd (HID_EVT_CFG.LOG2SIZE 15) ≤ 64 :=
  ⟨(ready.wr (HID_EVT_CFG.LOG2SIZE 15) 6).wr (HID_EVT_TAIL.TAIL 15) 63, by decide⟩

/-- An entry of a completion ring waits for its slot, and the host will reject its write; the event ring has no slot 64. -/
theorem wit_HeldRejected : ∃ (s : State) (e : HeldEnt), s.ringOk 2047 = true ∧ 2047 ∉ hosting.host.rejects ∧ 2047 ∈ s.host.rejects ∧ s.host.held = [e] ∧ e.cq = 2047 ∧
    s.cqTakes 2047 = true ∧ 2 ^ hosting.rd (HID_EVT_CFG.LOG2SIZE 15) ≤ 64 :=
  ⟨(hosting.wr (RING_CFG.KIND 2047) 1).updHost (fun h => { h with held := [⟨2047, 5, 0, 0, 0, false⟩], rejects := [2047] }), ⟨2047, 5, 0, 0, 0, false⟩, by decide, by decide, by decide, rfl, rfl, by decide, by decide⟩

/-- Segment 0 belongs to partition 0: the store's first page can be read and written by its descriptors. -/
def owned : State := asked online (desc 0 [])
def owning (d : Desc) : State := asked online d
def copyIn : Desc := desc 0x01 (le 8 0 ++ le 8 64 ++ le 8 1 ++ [2])
def copyOut : Desc := desc 0x01 (le 8 64 ++ le 8 0 ++ le 8 1 ++ [1])

theorem wit_Copy : ∃ (s t u w x y : State) (l m : List Byte), s.Begins copyIn.key 0x01 copyIn ∧ t.Begins copyOut.key 0x01 copyOut ∧
    (∀ e ∈ copyIn.locals, (s.beginDesc 0).mustWait e.2.1 e.2.2 = false) ∧ (∀ e ∈ copyOut.locals, (t.beginDesc 0).mustWait e.2.1 e.2.2 = false) ∧
    (copyIn.f 256 1 = 0 ∧ copyIn.f 257 1 = 1 ∧ copyIn.f 192 40 ≤ [(9 : Byte)].length ∧ copyOut.f 256 1 = 1 ∧ copyOut.f 257 1 = 0) ∧
    (s.beginDesc 0).copySource copyIn [9] = (u, .ok l) ∧ (t.beginDesc 0).copySource copyOut [] = (x, .ok m) ∧
    u.localWrite (copyIn.f 128 48) l = (w, none) ∧ ready.localWrite 0 [9] = (y, some 0) :=
  ⟨owning copyIn, owning copyOut, _, _, _, _, [9], [0], begins (by decide) (by decide) (by decide +kernel), begins (by decide) (by decide) (by decide +kernel), by decide +kernel,
    by decide +kernel, by decide +kernel, gotBytes (by decide +kernel), gotBytes (by decide +kernel), Prod.ext rfl (by decide +kernel), Prod.ext rfl (by decide +kernel)⟩

def fill8 : Desc := desc 0x02 (le 8 64 ++ le 8 8 ++ le 8 5)
def check4 : Desc := desc 0x03 (le 8 64 ++ le 8 4 ++ le 8 0x04C11DB7 ++ le 8 0xFFFFFFFF ++ le 8 0xFFFFFFFF ++ [32, 3])
theorem wit_FillCheck : ∃ (s t u v : State) (l : List Byte), s.Begins fill8.key 0x02 fill8 ∧ t.Begins check4.key 0x03 check4 ∧ (s.beginDesc 0).mustWait 64 8 = false ∧
    (s.beginDesc 0).localWrite (fill8.f 64 48) ((List.range (fill8.f 128 40)).map (fun i => (leBytes 8 (fill8.f 192 64)).getD (i % 8) 0)) = (u, none) ∧
    (t.beginDesc 0).localRead (check4.f 64 48) (check4.f 128 40) = (v, .ok l) :=
  ⟨owning fill8, owning check4, _, _, [0, 0, 0, 0], begins (by decide) (by decide) (by decide +kernel), begins (by decide) (by decide) (by decide +kernel), by decide +kernel,
    Prod.ext rfl (by decide +kernel), gotBytes (by decide +kernel)⟩

def send16 (dst : Nat) : Desc := desc 0x20 (le 8 64 ++ le 8 dst ++ le 8 16)
def reduce16 : Desc := desc 0x21 (le 8 64 ++ le 8 64 ++ le 8 16)
theorem wit_SendReduce : ∃ (s t v u w : State) (l m : List Byte), s.Begins (send16 64).key 0x20 (send16 64) ∧ t.Begins (send16 (winBase 0)).key 0x20 (send16 (winBase 0)) ∧
    v.Begins reduce16.key 0x21 reduce16 ∧ ((send16 64).trump = false ∧ (send16 64).f 263 1 = 0 ∧ (send16 64).f 128 48 ≠ recAddr ∧ (send16 64).f 128 48 < winBase 0 ∧
      (send16 (winBase 0)).f 128 48 = winBase 0) ∧ ((s.beginDesc 0).mustWait 64 16 = false ∧ (v.beginDesc 0).mustWait 64 16 = false ∧ (v.beginDesc 0).placeOf 64 16 = .store) ∧
    (s.beginDesc 0).localRead ((send16 64).f 64 48) ((send16 64).f 192 32) = (u, .ok l) ∧ (v.beginDesc 0).localRead (reduce16.f 64 48) (reduce16.f 192 32) = (w, .ok m) :=
  ⟨owning (send16 64), owning (send16 (winBase 0)), owning reduce16, _, _, List.replicate 16 0, List.replicate 16 0, begins (by decide) (by decide) (by decide +kernel),
    begins (by decide) (by decide) (by decide +kernel), begins (by decide) (by decide) (by decide +kernel), by decide +kernel, by decide +kernel,
    gotBytes (by decide +kernel), gotBytes (by decide +kernel)⟩

theorem wit_OtherDescriptors : ∀ op ∈ [0x40, 0x41, 0x30, 0x50, 0x61], ∃ (s : State) (d : Desc), s.Begins d.key op d ∧ (∀ r, r < 16 → s.rgnState r < 3 ∧ Tab.get 0 s.power.ramp r = 0) ∧
    s.power.antes = [] ∧ s.tel.trick = none ∧ d.f 64 64 ≤ s.ptime + 10000000000 ∧ d.f 64 2 = 0 ∧ (∀ e ∈ s.host.descs, e.key < 0 → e.ring ≠ d.ring) := by
  intro op h
  refine ⟨(List.range 16).foldl (fun s r => s.wr (RGN_PWR_STAT.STATE r) 0) (owning (desc op [])), desc op [], begins ?_ ?_ ?_, ?_, rfl, rfl, ?_, ?_, ?_⟩ <;> revert op <;> decide +kernel

def readLog : Desc := desc 0x31 (le 8 0 ++ le 4 64)
def barrier1 : Desc := desc 0x51 (le 4 0 ++ le 2 0 ++ le 2 1)
def attest736 (n : Nat) : Desc := desc 0x70 (le 8 0 ++ le 4 n)
theorem wit_LogBarrierAttest : ∃ s t u v : State, s.Begins readLog.key 0x31 readLog ∧ t.Begins barrier1.key 0x51 barrier1 ∧ u.Begins (attest736 735).key 0x70 (attest736 735) ∧
    v.Begins (attest736 736).key 0x70 (attest736 736) ∧ isPf readLog.fn = true ∧ (attest736 735).f 128 25 < 736 ∧ 736 ≤ (attest736 736).f 128 25 ∧ v.keyReady = true :=
  ⟨owning readLog, owning barrier1, owning (attest736 735), (owning (attest736 736)).wr KEY_STAT.STATE 1, begins (by decide) (by decide) (by decide +kernel),
    begins (by decide) (by decide) (by decide +kernel), begins (by decide) (by decide) (by decide +kernel), begins (by decide) (by decide) (by decide +kernel), by decide +kernel,
    by decide +kernel, by decide +kernel, by decide⟩

theorem wit_BarrierTimeout : ∃ (s : State) (d : Desc), s.jx.bars = [⟨7, 0⟩] ∧ s.descOf 0 = some d ∧ d.st = .running :=
  ⟨{ owning { barrier1 with st := .running } with jx := { Jexlink.reset with bars := [⟨7, 0⟩] } }, { barrier1 with st := .running }, by decide⟩

def fence1 : Desc := { desc 0x50 [1] with key := 1 }
theorem wit_FenceWaits : ∃ (s : State), s.Begins fence1.key 0x50 fence1 ∧ fence1.f 64 2 = 1 ∧ ∃ e ∈ s.host.descs, e.key < 1 ∧ e.fn = fence1.fn :=
  ⟨{ asked ready fence1 with host := { HostSide.reset with descs := [{ desc 0x13 [] with st := .running }, fence1] } }, begins (by decide) (by decide) (by decide +kernel), by decide +kernel,
    ⟨{ desc 0x13 [] with st := .running }, by decide⟩⟩

def stage1 : Desc := desc 0x60 (le 8 0 ++ le 4 1 ++ le 4 16777215)
def activate (img : Nat) : Desc := desc 0x61 [BitVec.ofNat 8 img]
theorem wit_Firmware : ∃ s t u : State, (s.Begins stage1.key 0x60 stage1 ∧ stage1.f 160 32 + stage1.f 128 25 ≤ 2 ^ 24 ∧ s.rcv.update = none ∧
      stage1.f 128 25 ≤ [(1 : Byte)].length ∧ s.recovering = true ∧ stage1.f 200 1 = 0 ∧ stage1.f 160 32 ≠ 0 ∧ stage1.f 192 2 < 3) ∧
    (t.Begins (activate 0).key 0x61 (activate 0) ∧ t.rd (KEY_FW_STAGE0.STATE 0) ≠ 2 ∧ t.recovering = true) ∧
    (u.Begins (activate 1).key 0x61 (activate 1) ∧ u.recovering = false ∧ isPf (activate 1).fn = true ∧ 1 ≤ u.role 0 ∧ u.rcv.update = none ∧
      u.rd (KEY_FW_STAGE0.STATE 1) = 2 ∧ (activate 1).f 64 2 = 1 ∧ u.keyReady = true) :=
  ⟨(owning stage1).wr RST_BOOT_STAT.STATE 2, (owning (activate 0)).wr RST_BOOT_STAT.STATE 2,
    (((owning (activate 1)).wr (KEY_MBOX_CTL.ROLE 0) 1).wr (KEY_FW_STAGE0.STATE 1) 2).wr KEY_STAT.STATE 1,
    ⟨begins (by decide) (by decide +kernel) (by decide +kernel), by decide +kernel⟩, ⟨begins (by decide) (by decide +kernel) (by decide +kernel), by decide⟩,
    ⟨begins (by decide) (by decide) (by decide +kernel), by decide +kernel⟩⟩

theorem wit_Partitions : ∃ s t : State, (isPf 8 = true ∧ isPf 15 = false ∧ s.locked = false ∧ s.bit (GLB_DLR_PART3.RUNNING 15) = false ∧
      ¬(∃ q, q < 16 ∧ q ≠ 15 ∧ s.bit (HID_PART.EN q) = true ∧ Nat.land (s.rd (HID_PART.REGIONS q)) 0x8000 ≠ 0) ∧ 0x8000 ≠ s.rd (HID_PART.REGIONS 15)) ∧
    (t.locked = false ∧ t.bit (GLB_DLR_PART3.RUNNING 15) = true) := ⟨ready, ready.wr (GLB_DLR_PART3.RUNNING 15) 1, by decide, by decide⟩

theorem wit_SegmentRequests : ∃ s t : State, (s.boot.saveDue = false ∧ s.bit HID_SEG_APPLY.BUSY = true ∧ s.pmode = false ∧ ∀ q, q < 16 → s.bit (GLB_DLR_PART3.RUNNING q) = false) ∧
    (t.boot.saveDue = false ∧ t.bit HID_SEG_APPLY.BUSY = true ∧ t.pmode = true ∧ t.rd (HID_SEG_REQ.MODE 47) = 1 ∧ ∀ i, i < 47 → t.rd (HID_SEG_REQ.MODE i) ≠ 1) :=
  ⟨ready.wr HID_SEG_APPLY.BUSY 1, ((ready.wr HID_SEG_APPLY.BUSY 1).wr MH_STORE_CFG.PMODE 1).wr (HID_SEG_REQ.MODE 47) 1, by decide, by decide⟩

/-- Function 0 live, and segment 0 shared and served. -/
def open0 : State := { ((((online.wr (MH_SEG_MAP.SHARED 0) 1).wr (HID_FN_ID.EN 0) 1).wr RST_BOOT_STAT.STATE 1)) with host := { HostSide.reset with inReset := [(0, 1)] } }
theorem wit_Windows : ∃ s t u v : State, (s.fnLive 0 = true ∧ s.bar0Up 0 = true ∧ s.bit (HID_FN_ID.EN 0) = true ∧ Tab.get 0 s.host.inReset 1 = 1 ∧ s.rd (HID_FN_AP.BASE 0) = 0) ∧
    s.apReach 0 0 4 = false ∧ (t.fnLive 0 = true ∧ t.rd (HID_FN_AP.BASE 0) = 0) ∧ (t.apReach 0 0 4 = true ∧ t.mustWait 0 4 = false) ∧
    t.localWrite 0 [1, 2, 3, 4] = (u, none) ∧ t.localRead 0 4 = (v, .ok [0, 0, 0, 0]) ∧ Tab.get 0 ready.host.inReset 1 = 0 :=
  ⟨hosting.updBoot (fun b => { b with on := true }), open0, (open0.localWrite 0 [1, 2, 3, 4]).1, (open0.localRead 0 4).1, by decide, by decide +kernel, by decide, by decide +kernel,
    Prod.ext rfl (by decide +kernel), gotBytes (by decide +kernel), by decide⟩

/-! The optical ports, the laser modules and the Jexlink. -/

def portUp : State := ((ready.wr (OE_PORT_STAT.STATE 23 2) 2).wr (JX_PORT_STAT.LSTATE 23 2) 2).wr (OE_STAT.INSERVICE 23) 1
def swapOp : LaneOp := ⟨false, 3, 15, 0, some 9⟩

theorem wit_LaneHealth : ∃ s t : State, (s.bit (OE_STAT.INSERVICE 23) = true ∧ s.rd (OE_LH_CFG.THR 23) < [2 ^ 32 - 1].getD 0 0 ∧ 8 * 23 + 32 % 8 ∉ s.opt.switched ∧ s.hstate 71 0 = 2 ∧
      (s.window (48 * 23 + 32)).length < 2) ∧ (2 ≤ (t.window (48 * 23 + 32)).length ∧ Tab.get none t.opt.rxOp 71 ≠ none ∧ t.hstate 71 0 = 2) :=
  ⟨portUp.wr (OE_LANE_STAT.HSTATE 23 32) 2, { portUp.wr (OE_LANE_STAT.HSTATE 23 32) 2 with opt := { Optics.reset with cross := [(48 * 23 + 32, [0, 0])], rxOp := [(71, some swapOp)] } },
    by decide, by decide⟩

theorem wit_LaneSwitch : ∃ s t : State, ∃ o, (Tab.get none s.opt.rxOp 71 = some o ∧ o.narrow = false ∧ o.fseq = some 9 ∧ o.slane < 16 ∧ o.llane < 15 ∧ s.hstate 71 0 = 3 ∧ s.logical 71 0 = o.llane ∧
      s.hstate 71 o.slane = 2 ∧ ∀ x, x < 16 → x ≠ 0 → s.hstate 71 x = 3 → s.logical 71 x = 0xFF) ∧ widthOf (s.width 71) ≤ (s.goodLanes 71).length ∧ (Tab.get none s.opt.txOp 71 = some o ∧ Tab.get none t.opt.rxOp 71 = some { o with fseq := none } ∧
      Tab.get none ready.opt.rxOp 71 = none) :=
  ⟨{ ((portUp.wr (OE_LANE_STAT.HSTATE 23 32) 3).wr (OE_LANE_STAT.LOGICAL 23 32) 3).wr (OE_LANE_STAT.HSTATE 23 47) 2 with
      opt := { Optics.reset with rxOp := [(71, some swapOp)], txOp := [(71, some swapOp)] } },
    { portUp with opt := { Optics.reset with rxOp := [(71, some { swapOp with fseq := none })] } }, swapOp, by decide, by decide, by decide⟩

theorem wit_Ports : ∃ s t u : State, (s.mayTrainPort 71 = true ∧ ready.mayTrainPort 71 = false) ∧ (t.pstate 71 = 2 ∧ t.hstate 71 15 = 3 ∧ t.logical 71 15 = 0xFF ∧ t.lstate 71 = 3) ∧
    (u.pstate 71 = 1 ∧ u.rd (OE_FSTAT.LEVEL 23 5) ≠ 3 ∧ u.rd (OE_LANE_STAT.HSTATE 23 47) ≠ 4 ∧ u.rd (OE_LANE_LOCK.COUNT 23 47) < 0x7FFF ∧
      widthFor 16 (u.minw 71) ≠ 3 ∧ widthFor 0 (u.minw 71) = 3) :=
  ⟨(portUp.wr (JX_PORT_STAT.LSTATE 23 2) 2).wr (OE_STAT.DARK 23) 0, ((portUp.wr (OE_LANE_STAT.HSTATE 23 47) 3).wr (OE_LANE_STAT.LOGICAL 23 47) 0xFF).wr (JX_PORT_STAT.LSTATE 23 2) 3,
    portUp.wr (OE_PORT_STAT.STATE 23 2) 1, by decide, by decide, by decide⟩

def laserOn : State := ((((ready.wr (OE_ELS_STAT.STATE 11) 2).wr (OE_ELS_STAT.PRESENT 11) 1).wr (OE_ELS_STAT.VERIFIED 11) 1).wr (ELS_CTL.LASER_EN 11) 1)
theorem wit_Lasers : ∃ s t : State, (s.rd (OE_ELS_STAT.STATE 11) = 2 ∧ bitOf (s.rd (OE_ELS_STAT.FAILED 11)) 7 = false ∧ Tab.get 0 s.opt.swap 11 ≠ 1 ∧
      s.bit (OE_ELS_BIAS.ON_SPARE 11 7) = false ∧ s.bit (OE_ELS_BIAS.SPARE_FAIL 11 7) = false ∧ s.bit (OE_ELS_STAT.PRESENT 11) = true ∧ s.bit (ELS_CTL.LASER_EN 11) = true) ∧
    (t.bit (OE_ELS_BIAS.ON_SPARE 11 7) = true ∧ t.rd (OE_ELS_STAT.STATE 11) = 2) := ⟨laserOn, laserOn.wr (OE_ELS_BIAS.ON_SPARE 11 7) 1, by decide, by decide⟩

theorem wit_Modules : ∃ s t u v x : State, (s.bit GLB_STW_STAT.LOST_BOTH = false ∧ u.bit GLB_STW_STAT.LOST_BOTH = false ∧ v.bit GLB_STW_STAT.LOST_BOTH = false ∧
      x.bit GLB_STW_STAT.LOST_BOTH = false ∧ Tab.get 0 x.opt.swap 11 = 4) ∧ (s.bit (OE_ELS_STAT.PRESENT 11) = false ∧ s.engPowered 22 = true ∧ elsRecordOk [] = false) ∧
    (t.rd (OE_ELS_STAT.STATE 11) = 1 ∧ t.bit (OE_ELS_STAT.VERIFIED 11) = true ∧ t.bit (OE_ELS_STAT.PRESENT 11) = true) ∧
    (u.bit (OE_ELS_STAT.PRESENT 11) = true ∧ u.rd (OE_ELS_STAT.STATE 11) ≠ 3 ∧ Tab.get 0 u.opt.swap 11 ∉ [1, 3, 4] ∧ (∀ n ∈ elsPorts 11, u.lstate n ≠ 2 ∧ u.drained n = true)) ∧
    (Tab.get 0 v.opt.swap 11 = 1 ∧ v.bit (OE_ELS_STAT.PRESENT 11) = true ∧ v.bit (OE_ELS_STAT.VERIFIED 11) = true ∧ v.bit (ELS_STAT.LOCKED 11) = true ∧ v.bit (ELS_STAT.ILK_A 11) = true ∧
      v.bit (ELS_STAT.ILK_B 11) = true) ∧ (laserOn.wr (ELS_STAT.ILK_A 11) 0).bit (ELS_STAT.ILK_A 11) = false :=
  ⟨ready.wr (PWR_CT_STAT.STATE 17) 3 |>.wr (PWR_CT_STAT.STATE 18) 3 |>.wr (PWR_CT_STAT.STATE 16) 3 |>.wr (PWR_CT_STAT.STATE 19) 3, laserOn.wr (OE_ELS_STAT.STATE 11) 1, laserOn,
    { ((laserOn.wr (ELS_STAT.LOCKED 11) 1).wr (ELS_STAT.ILK_A 11) 1).wr (ELS_STAT.ILK_B 11) 1 with opt := { Optics.reset with swap := [(11, 1)] } },
    { laserOn.wr (OE_ELS_STAT.STATE 11) 0 with opt := { Optics.reset with swap := [(11, 4)] } }, by decide, by decide, by decide, by decide, by decide, by decide⟩
/-- A module record of a part of version 1 on the grid of R372. -/
def goodRecord : List Byte :=
  let b := leBytes 4 0x49445245 ++ [1, 1] ++ List.replicate 18 0 ++ (List.range 8).flatMap (fun w => leBytes 8 (gridMHz w)) ++ List.replicate 36 0
  b ++ leBytes 4 (crc32 b)
theorem wit_ModuleRecord : elsRecordOk goodRecord = true := by decide +kernel

theorem wit_Flits : ∃ s t u : State, ∃ cells, (s.pstate 71 = 2 ∧ 2 ≤ s.lstate 71 ∧ (s.port 71).bad = false ∧ (s.port 71).open_ = none ∧ (s.port 71).queue = [] ∧
      ackedAfter 4095 [(4095, [])] = some [] ∧ 1 ≤ s.lstate 71) ∧ (markerOf cells = none ∧ cells.length = 4 ∧ scanCells none cells = some ([.packet (parseHdr (cells.headD [])) []], none, true)) ∧
    ((t.port 71).unacked = [(4095, [])] ∧ (t.port 71).stuck = 7 ∧ 2 ≤ t.lstate 71 ∧ t.rd (JX_PORT_RPL.COUNT (portK 71) (portP 71)) < 2 ^ 32 - 1) ∧
    ((u.port 71).unacked = [(4095, [])] ∧ 8 ≤ (u.port 71).stuck ∧ u.lstate 71 = 2) ∧ ((ready.wr (JX_PORT_STAT.LSTATE 23 2) 1).lstate 71 = 1 ∧ (portUp.wr (JX_PORT_STAT.LSTATE 23 2) 0).pstate 71 = 2 ∧
      (portUp.wr (JX_PORT_STAT.LSTATE 23 2) 0).lstate 71 = 0) :=
  ⟨portUp, portUp.updPort 71 (fun x => { x with unacked := [(4095, [])], stuck := 7 }), portUp.updPort 71 (fun x => { x with unacked := [(4095, [])], stuck := 8 }),
    [(2 :: List.replicate 39 (0 : Byte)) ++ leBytes 4 (crc32 (2 :: List.replicate 39 (0 : Byte))) ++ List.replicate 20 (0 : Byte), idleCell, idleCell, idleCell],
    by decide, by decide +kernel, by decide, by decide, by decide⟩

theorem wit_LaneOperations : ∃ s t : State, (Tab.get none s.opt.rxOp 71 = none ∧ Tab.get none s.opt.txOp 71 = none ∧ 1 ≤ s.lstate 71) ∧
    (Tab.get none t.opt.rxOp 71 = some { swapOp with fseq := none }) := ⟨portUp, { portUp with opt := { Optics.reset with rxOp := [(71, some { swapOp with fseq := none })] } }, by decide, by decide⟩

theorem wit_Packets : ∃ s t u : State, ∃ h : JxHdr, (2 ≤ s.lstate 71 ∧ (s.port 71).rxKey = none ∧ h.sealed_ = false ∧ s.opened 71 h [] = some ([], s) ∧ h.ndata = 0 ∧ s.lstate 71 = 2) ∧ s.ownId h.dst = true ∧
    (t.host.descs = [{ desc 0x20 [] with st := .running }] ∧ t.jx.xfers = [⟨h.xid, 0, [h.pidx], 0⟩] ∧ h.status = 0) ∧ (u.jx.bars = [⟨h.xid, 0⟩]) :=
  ⟨(portUp.wr JX_SELF.ASSIGNED 1).wr JX_SELF.ID 0, { portUp with host := { HostSide.reset with descs := [{ desc 0x20 [] with st := .running }] }, jx := { Jexlink.reset with xfers := [⟨7, 0, [0], 0⟩] } },
    { portUp with jx := { Jexlink.reset with bars := [⟨7, 0⟩] } }, { jxHdr0 with xid := 7 }, by decide, by decide, by decide, by decide⟩

theorem wit_Discovery : ∃ s t : State, (s.discovers = false) ∧ (t.discovers = true ∧ t.upPorts = [] ∧
      t.regs.filter (fun e => decide (8 * 0x580000 ≤ e.1) && decide (e.1 < 8 * 0x5C0000)) = []) ∧ (portUp.wr JX_TIME_CFG.EN 1).bit JX_TIME_CFG.EN = true :=
  ⟨ready.wr JX_CFG.DISC_EN 0, ready.wr JX_CFG.DISC_EN 1, by decide, by decide, by decide⟩
theorem wit_JxTime : ∃ s : State, s.bit JX_TIME_CFG.EN = true ∧ s.bit GLB_STW_STAT.LOST_BOTH = false ∧ s.jxParent.rd JX_TIME_STAT.PARENT = 71 :=
  ⟨{ (portUp.wr JX_TIME_CFG.EN 1).wr JX_TIME_CFG.ROOT 9 with jx := { Jexlink.reset with heard := [(71 * 131072 + 9, 2)] } }, by decide +kernel⟩

/-- An agreement under way at port 71. -/
def try0 : SealTry := ⟨0, [1], none, none, false⟩
def agreeing (a : SealTry) : State := ((portUp.wr (JX_SEAL_CTL.REQ 23 2) 1).wr KEY_STAT.STATE 1).updPort 71 (fun x => { x with agr := some a })
theorem wit_Sealing : ∃ s t u v w : State, ((s.port 71).agr = some try0 ∧ try0.gotConf = false ∧ s.sealReq 71 = true ∧ 2 ≤ s.lstate 71 ∧ try0.far = none) ∧
    ((t.port 71).agr = some { try0 with far := some [2], keys := some ((0, 0), (1, 1)) }) ∧
    (u.sealReq 71 = true ∧ u.keyReady = true ∧ u.bit KEY_CFG.APPROVED_ONLY = false ∧ u.sstate 71 = 3) ∧ (v.sstate 71 = 2 ∧ v.sealReq 71 = true ∧ v.keyReady = true) ∧
    (w.operator (.fn 8) = false ∧ w.discovers = false ∧ w.locked = true ∧ ready.locked = false) :=
  ⟨agreeing try0, agreeing { try0 with far := some [2], keys := some ((0, 0), (1, 1)) }, (agreeing try0).wr (JX_PORT_STAT.SSTATE 23 2) 3, (agreeing try0).wr (JX_PORT_STAT.SSTATE 23 2) 2,
    (ready.wr SETUP_LOCK.LOCK 1).wr JX_CFG.DISC_EN 0, by decide, by decide, by decide, by decide, by decide⟩
/-- Whether a signature or a confirmation is good rests on Config: where one is, and where one is not, each of the clauses on OFFER and CONFIRM has its case. -/
theorem wit_SealChecks (key : List Byte) (offer : List Byte) (h : Config.verify key (offer.take 68) ((offer.drop 68).take 64) = true) (g : offer.getD 0 0 = 1 ∧ 132 ≤ offer.length) :
    ∃ (k o : List Byte), o.getD 0 0 = (1 : Byte) ∧ 132 ≤ o.length ∧ Config.verify k (o.take 68) ((o.drop 68).take 64) = true := ⟨key, offer, g.1, g.2, h⟩
theorem wit_Confirm (x : Nat) : (∃ tag : List Byte, leNat (tag.take 16) = x % 2 ^ 128) ∧ ∃ tag : List Byte, leNat (tag.take 16) ≠ x % 2 ^ 128 := by
  have h : ∀ y, (leBytes 16 y).take 16 = leBytes 16 y := fun y => List.take_of_length_le (by simp)
  refine ⟨⟨leBytes 16 x, by rw [h, leNat_leBytes]; norm_num⟩, ⟨leBytes 16 (x + 1), ?_⟩⟩
  rw [h, leNat_leBytes]; norm_num; omega

/-! Links, guests, clocks. -/

theorem wit_LinkTraining : ∃ s t u : State, (s.mayTrain 0 0 = true ∧ s.net.ports = [] ∧ (∀ p, p < 16 → (s.part p).run = none) ∧
      ∀ j, j < (linkShape 0 0).1 → sparesFor (linkShape 0 0).2.1 (linkShape 0 0).2.2 (failingWires (s.rd GLB_LNK_CFG.TRAIN_EYE) ([[63, 0]].getD j [])) ≠ none) ∧
    (t.dieAbsent 0 = false ∧ t.linkMode 0 0 = 0 ∧ 0 < (linkShape 0 0).1 ∧ (linkShape 0 0).2.1 - 1 < (linkShape 0 0).2.1 + (linkShape 0 0).2.2 ∧
      t.rd GLB_LNK_CFG.REPAIR_EYE ≤ 63 ∧ 0 < t.rd GLB_LNK_CFG.REPAIR_EYE ∧ Tab.get 0 t.links.used (grpKey 0 0 0) < (linkShape 0 0).2.2 ∧ t.rd (CD_LNK_ERR.REPAIRS 0 0) < 0x7FFF ∧ t.linkBusy 0 0 = false ∧
      Tab.get 0 t.links.eyes (512 * grpKey 0 0 0 + (linkShape 0 0).2.1 - 1) ≠ eyeRetired ∧ Tab.get 0 t.links.eyes (512 * grpKey 0 0 0 + (linkShape 0 0).2.1 + Tab.get 0 t.links.used (grpKey 0 0 0)) = 0) ∧
    (u.fallingAt 0 0 = some (endKey 0 0, 3) ∧ u.anyLayer = false) ∧ wayNode 0 0 ≠ none :=
  ⟨(((ready.wr (CD_CLK_STAT.PLL_LOCK 0) 1).wr (CD_CLK_STAT.PLL_LOCK 1) 1).setMode 0 0 2), (ready.setMode 0 0 0),
    { ready with links := { LinkSide.reset with falling := [(endKey 0 0, 3)] } }, by decide, by decide, by decide, by decide⟩

def guestAt (g st : Nat) (f : Guest → Guest) : State := (ready.wr (GS_STAT.STATE g) st).updGuest g f
def window0 : GuestWin := ⟨0, 4096, true, true⟩
theorem wit_Guests : ∃ s t u v : State, ∃ h : BulkHdr, s.gstate 1 = 2 ∧ (t.gstate 1 = 3 ∧ h.dkind = 1 ∧ (t.guest 1).reqs.length < leField (t.guestCap 1) 6 2 ∧
      (t.guest 1).allows true h.addr 4096 = true ∧ (t.guest 1).allows false h.addr h.plen = true ∧ (t.guest 1).allows false 4096 h.plen = false ∧ h.type = 4 ∧ (t.guest 1).queue = [] ∧
      (t.guest 1).mbox = false) ∧ (u.gstate 1 = 1 ∧ (u.guest 1).tries = 3 ∧ (u.guest 1).step = 4) ∧ (v.guest 1).mbox = true ∧ (guestAt 1 1 id).gstate 1 = 1 ∧ ((guestAt 1 1 id).guest 1).tries = 0 :=
  ⟨guestAt 1 2 id, (guestAt 1 3 (fun x => { x with wins := [window0] })).wr (GS_CAP.CAP 1 1) 0x10000, guestAt 1 1 (fun x => { x with tries := 3, step := 4 }),
    guestAt 1 3 (fun x => { x with mbox := true }), { hdr0 with dkind := 1, type := 4, plen := 16 }, by decide, by decide, by decide, by decide, by decide⟩

/-- A capability block and a manifest's length that fit together. -/
def cap0 : List Byte := leBytes 4 0x47534350 ++ [1, 0] ++ leBytes 2 1 ++ leBytes 8 0 ++ leBytes 4 0x200 ++ leBytes 4 64 ++ [4, 0] ++ leBytes 2 128 ++ leBytes 4 0
/-- A site that is fitted (Config leaves it open) and powered, and a manifest that passes: admission has its cases. -/
theorem wit_Admission (hp : Config.partG = true) (hf : bitOf Config.fitted 1 = true) (mf : List Byte) (hl : mf.length = 64)
    (hm : (((guestAt 1 1 id).wr (PWR_CT_STAT.STATE 19) 3).wr KEY_STAT.STATE 1).manifestFails 0 mf = none) : ∃ (s : State) (q : GuestTry), q.g = 1 ∧ s.gstate 1 = 1 ∧ s.sitePowered 1 = true ∧
      s.bit GLB_STW_STAT.LOST_BOTH = false ∧ s.keyReady = true ∧ q.sideband = true ∧ q.mainband = true ∧ capOk q.cap = true ∧ q.manifest.length = leField q.cap 20 4 ∧
      s.manifestFails (leField q.cap 8 8) q.manifest = none ∧ (s.winsOf 1).length ≤ leField q.cap 24 1 ∧ (∀ y ∈ s.winsOf 1, s.winOk 1 y = true) ∧ (s.guest 1).step ≤ 2 :=
  ⟨((guestAt 1 1 id).wr (PWR_CT_STAT.STATE 19) 3).wr KEY_STAT.STATE 1, ⟨1, true, true, false, 0, false, cap0, mf⟩, rfl, by decide,
    by simp only [State.sitePowered, hp, hf]; decide, by decide, by decide, rfl, rfl, (by decide : capOk cap0 = true),
    hl.trans (by decide : 64 = leField cap0 20 4), hm, (by decide : ((((guestAt 1 1 id).wr (PWR_CT_STAT.STATE 19) 3).wr KEY_STAT.STATE 1).winsOf 1).length ≤ leField cap0 24 1), by decide, by decide⟩

theorem wit_Clocks : ∃ s t u : State, (s.dieAbsent 0 = false ∧ (s.setRef 0 true false).refOk 0 (decide (s.refSel 0 = 1)) = true ∧ s.bit GLB_STW_STAT.LOST_BOTH = false ∧ s.clk.shun = 0 ∧
      s.clk.warmDue = false ∧ s.rd (CD_CLK_CFG.DROOP1 0) ≤ 1023 ∧ s.timed 0 = true ∧ s.dieAdmitted 0 = true ∧ s.bit (CD_CLK_STAT.PT_LOCK 0) = false) ∧
    ((t.setRef 0 (decide (t.refSel 0 = 1)) false).refOk 0 (!(decide (t.refSel 0 = 1))) = true ∧ t.timeParent 0 = some 1) ∧
    ((u.setRef 0 (decide (u.refSel 0 = 1)) false).refOk 0 (!(decide (u.refSel 0 = 1))) = false) :=
  ⟨ready.wr (CD_CLK_STAT.A_OK 0) 1, ((ready.wr (CD_CLK_STAT.A_OK 0) 1).wr (CD_CLK_STAT.B_OK 0) 1).wr (CD_SYNC_TREE.PARENT 0) 1, (ready.wr (CD_CLK_STAT.A_OK 0) 1).wr (CD_CLK_STAT.B_OK 0) 0,
    by decide, by decide, by decide⟩
theorem wit_FaultOfPlacedCore : ∃ s : State, s.placedIn 0 = some 0 ∧ ready.placedIn 0 = none ∧ s.net.acted.contains (5, 3) = false ∧
    (ready.updNet (fun x => { x with acted := [(5, 3)] })).net.acted.contains (5, 3) = true :=
  ⟨layered 4, by decide, by decide, by decide, by decide⟩

theorem wit_Adjustments : ∃ s t : State, ∃ a c, (s.clk.adj = some a ∧ s.anyLayer = false ∧ a.step = true ∧ 1 ∈ a.got ∧ 2 ∉ a.got ∧ s.dieAbsent 1 = false ∧ s.dieAbsent 2 = false) ∧ (t.clk.adj = some c ∧ c.step = false ∧ c.ticks ≠ 0 ∧ t.anyLayer = false) ∧
    (layered 9).anyLayer = true :=
  ⟨{ ready with clk := { Clocks.reset with adj := some ⟨true, 0, 100, 0, [1]⟩ } }, { ready with clk := { Clocks.reset with adj := some ⟨false, 0, 1, 10, []⟩ } },
    ⟨true, 0, 100, 0, [1]⟩, ⟨false, 0, 1, 10, []⟩, by decide, by decide, by decide⟩

/-! Power and cooling. -/

theorem wit_Cartridges : ∃ s t u v w : State, (s.ct 15 = 2 ∧ 4 ≤ s.rgnState 15 ∧ (∀ a ∈ s.power.antes, a.region ≠ 15) ∧ Tab.get 0 s.power.ramp 15 = 0 ∧ 0 < ctPhases 15 ∧ Tab.get 0 s.power.ctPhase 15 < ctPhases 15 ∧
      s.bit GLB_STW_STAT.LOST_BOTH = false) ∧ (t.ct 15 = 4 ∧ t.bit (PWR_CT_STAT.RETRY_LOCK 15) = false ∧ t.bit (THM_RGN.TRIPPED 15) = false ∧ 4 ≤ t.rgnState 15) ∧
    (Tab.get 0 u.power.swap 15 = 1 ∧ Tab.get 0 u.power.retryAt 15 ≠ 0 ∧ u.ptime < Tab.get 0 u.power.retryAt 15 - 1 + 10000000000 ∧ u.ct 15 = 3) ∧
    (v.ct 15 = 0 ∧ ctRecordOk [] = false ∧ v.boot.on = true ∧ v.unfed 15 = false ∧ 4 ≤ v.rgnState 15 ∧ (∀ a ∈ v.power.antes, a.region ≠ 15) ∧ Tab.get 0 v.power.ramp 15 = 0) ∧
    (w.ct 19 = 1 ∧ w.unfed 19 = false ∧ ready.unfed 19 = true) ∧
    (ready.bit (PWR_BLADE.OK 3) = false ∧ (ready.wr (PWR_BLADE.OK 3) 1).bit (PWR_BLADE.OK 3) = true ∧ ready.dieAbsent 0 = false ∧ bitOf (ready.rd (RGN_DIE_PWR.SHED (regionOf 0) 0)) 15 = false) :=
  ⟨ready.wr (PWR_CT_STAT.STATE 15) 2, ready.wr (PWR_CT_STAT.STATE 15) 4, { ready.wr (PWR_CT_STAT.STATE 15) 3 with power := { Power.reset with swap := [(15, 1)], retryAt := [(15, 1)] } },
    ((ready.wr (PWR_CT_STAT.STATE 15) 0).wr (PWR_BLADE.OK 1) 1).updBoot (fun b => { b with on := true }), (ready.wr (PWR_CT_STAT.STATE 19) 1).wr (PWR_BLADE.OK 1) 1, by decide, by decide, by decide, by decide,
    by decide, by decide⟩

def powered (f : Power → Power) : State := { ready with power := f Power.reset }
def lostBoth : State := ready.wr GLB_STW_STAT.LOST_BOTH 1
/-- A measurement of an idle panel at 48 V. -/
def meas0 : PwrMeas := ⟨1000, 4800, 200, 1000, [], [], []⟩
def ante0 : Ante := ⟨0, 0, 0, 0⟩

theorem wit_Budgets : lostBoth.bit GLB_STW_STAT.LOST_BOTH = true ∧ ready.bit GLB_STW_STAT.LOST_BOTH = false ∧ (ready.rgnState 0 < 2 ∧ ready.rd (RGN_PWR_BUD.BUDGET 0) < 2000 ∧ regionOf 0 = 0 ∧
      ready.dieHole 0 = false ∧ ready.rd (CD_CLK_CL.PFLOOR 0 15) < 5) ∧
    ∃ s : State, s.rgnState 0 < 2 ∧ 100 * 0 < 95 * s.rd (RGN_PWR_BUD.BUDGET 0) ∧ LoopStep.halve ∉ Tab.get [] s.power.loop 0 ∧ 9 ≤ Tab.get 0 s.power.calm 0 :=
  ⟨by decide, by decide, by decide, (powered (fun x => { x with loop := [(0, [.raise 0 15])], calm := [(0, 9)] })).wr (RGN_PWR_BUD.BUDGET 0) 500, by decide⟩

theorem wit_Antes : (∃ s : State, s.anteOk 15 = true) ∧
    (∃ s : State, s.power.antes = [ante0] ∧ s.bit GLB_STW_STAT.LOST_BOTH = false ∧ (s.measure meas0).anteCause meas0 0 = none) ∧
    (∃ s : State, s.power.antes = [ante0] ∧ s.bit GLB_STW_STAT.LOST_BOTH = false ∧ (s.measure meas0).anteCause meas0 0 = some 3 ∧ s.clamped = true) ∧
    (∃ s : State, s.power.antes = [ante0] ∧ s.clamped = false ∧ (∀ p, p < 16 → (s.part p).run = none) ∧ bitOf (s.rd (HID_PART.REGIONS 0)) 0 = true ∧
      ∀ d ∈ s.host.descs, d.st = .running → d.op ≠ 0x40) :=
  ⟨⟨(ready.wr (PWR_CT_STAT.STATE 15) 1).wr (PWR_BLADE.OK 1) 1, by decide⟩,
    ⟨(powered (fun x => { x with antes := [ante0] })).wr PWR_BUDGET.EFF_W 16000, by decide, by decide, by decide +kernel⟩,
    ⟨(powered (fun x => { x with antes := [ante0], holds := [1] })).wr PWR_BUDGET.EFF_W 16000, by decide, by decide, by decide +kernel, by decide⟩,
    ⟨(powered (fun x => { x with antes := [ante0] })).wr (HID_PART.REGIONS 0) 1, by decide⟩⟩

theorem wit_IdleStates : (Tab.get 0 (powered (fun x => { x with ramp := [(0, 1)] })).power.ramp 0 ≠ 0 ∧ Tab.get 0 ready.power.ramp 0 = 0) ∧
    (∃ s : State, s.rgnState 0 < 2 ∧ 2 ≤ s.deepest 0 ∧ s.rgnIdle 0 = true ∧ 0 ∉ s.power.waking) ∧
    (∃ s t : State, (s.rgnState 0 < 4 ∧ 4 ≤ s.deepest 0 ∧ s.rgnIdle 0 = true ∧ 0 ∉ s.power.waking ∧ s.bit GLB_STW_STAT.LOST_BOTH = false ∧ s.layerGoing = false ∧ s.net.chg = none) ∧
      s.routesAround 0 = true ∧ (t.rgnState 0 < 4 ∧ 4 ≤ t.deepest 0 ∧ t.rgnIdle 0 = true ∧ 0 ∉ t.power.waking ∧ t.net.chg = none) ∧ t.routesAround 0 = false) ∧
    ∃ s : State, s.rgnState 0 = 3 :=
  ⟨by decide, ⟨ready.wr PWR_STATE_CFG.FREE_STATE 2, by decide⟩, ⟨ready.wr PWR_STATE_CFG.FREE_STATE 4, ((ready.wr PWR_STATE_CFG.FREE_STATE 4).wr (RGN_PWR_STAT.STATE 1) 0).wr (CD_RT_FT0.E0 3 0) 4, by decide, by decide +kernel, by decide, by decide +kernel⟩, ready.wr (RGN_PWR_STAT.STATE 0) 3, by decide⟩

theorem wit_Coolant : (ready.bit GLB_STW_STAT.LOST_BOTH = false ∧ ready.boot.tray = false ∧ ready.bit THM_COOLANT.VFLOW = false ∧ ready.dieAbsent 0 = false ∧ ready.inletT ≤ 11500) ∧
    ∃ s : State, s.dieAbsent 0 = false ∧ s.bit (CD_THM_CL.HELD 0 15) = true ∧ s.bit (CD_THM_CL.DIODE_OK 0 15) = true :=
  ⟨by decide, (ready.wr (CD_THM_CL.HELD 0 15) 1).wr (CD_THM_CL.DIODE_OK 0 15) 1, by decide⟩

def heated (f : Cooling → Cooling) : State := { ready with therm := f Cooling.reset }
/-- Flow of 16 L/min and an inlet at 40 °C, both valid. -/
def flowing (s : State) : State := (((s.wr THM_COOLANT.VFLOW 1).wr THM_COOLANT.FLOW 1600).wr THM_COOLANT.VIN 1).wr THM_COOLANT.INLET 4000
theorem wit_Regions : (ready.rgnState 0 < 4 ∧ (∀ j, j < 16 → sgn 16 (ready.rd (THM_RGN.TJ j)) < ((ready.rd THM_CFG.THR * 100 : Nat) : Int)) ∧
      sgn 16 (ready.rd (THM_RGN.TJ 0)) < ((ready.rd THM_CFG.THR * 100 : Nat) : Int) - 300) ∧
    (∃ s : State, s.bit (THM_RGN.HELD 0) = true ∧ sgn 16 (s.rd (THM_RGN.TJ 0)) < ((s.rd THM_CFG.HOLD * 100 : Nat) : Int) - 500) ∧
    (∃ s : State, s.rgnState 0 < 4 ∧ 2 ≤ Tab.get 0 s.therm.hot 15) ∧
    (∃ s : State, s.flowBack = true ∧ s.bit THM_COOLANT.VIN = true ∧ sgn 16 (s.rd THM_COOLANT.INLET) ≤ 4000 ∧ s.clamped = false ∧ s.bit GLB_STW_STAT.LOST_BOTH = false ∧ 15 ∈ s.therm.guarded ∧
      (∀ a ∈ s.power.antes, a.region ≠ 15) ∧ 4 ≤ s.rgnState 15 ∧ Tab.get 0 s.power.ramp 15 = 0) ∧
    (∃ s : State, s.flowBack = true ∧ s.bit THM_COOLANT.VIN = true ∧ sgn 16 (s.rd THM_COOLANT.INLET) ≤ 4000 ∧ s.clamped = false ∧ s.bit GLB_STW_STAT.LOST_BOTH = false ∧ 15 ∉ s.therm.guarded ∧
      s.bit (THM_RGN.TRIPPED 15) = true ∧ s.bit (THM_RGN.TRIP_LOCK 15) = false ∧ Tab.get 0 s.therm.autoAt 15 = 0 ∧ 4 ≤ s.rgnState 15) ∧
    (∃ s : State, s.flowBack = true ∧ s.bit THM_COOLANT.VIN = true ∧ sgn 16 (s.rd THM_COOLANT.INLET) ≤ 4000 ∧ s.clamped = false ∧ s.bit GLB_STW_STAT.LOST_BOTH = false ∧ 15 ∉ s.therm.guarded ∧
      s.bit (THM_RGN.TRIPPED 15) = true ∧ s.bit (THM_RGN.TRIP_LOCK 15) = false ∧ Tab.get 0 s.therm.autoAt 15 ≠ 0 ∧ s.ptime < Tab.get 0 s.therm.autoAt 15 - 1 + 3600000000000) ∧
    ∃ s : State, bitOf (0x8000 : W32).toNat 15 = true ∧ s.bit (THM_RGN.TRIP_LOCK 15) = true ∧ (∀ a ∈ s.power.antes, a.region ≠ 15) ∧ 4 ≤ s.rgnState 15 ∧ Tab.get 0 s.power.ramp 15 = 0 :=
  ⟨by decide, ⟨ready.wr (THM_RGN.HELD 0) 1, by decide⟩, ⟨heated (fun x => { x with hot := [(15, 2)] }), by decide⟩, ⟨flowing (heated (fun x => { x with guarded := [15] })), by decide⟩,
    ⟨(flowing ready).wr (THM_RGN.TRIPPED 15) 1, by decide⟩, ⟨(flowing (heated (fun x => { x with autoAt := [(15, 1)] }))).wr (THM_RGN.TRIPPED 15) 1, by decide⟩,
    ready.wr (THM_RGN.TRIP_LOCK 15) 1, by decide⟩

theorem wit_PerimeterUnits : ((8499 : Int) < (perimLimits 0).1 ∧ (perimLimits 0).1 ≤ (8500 : Int) ∧ (8500 : Int) < (perimLimits 0).2) ∧
    (ready.wr (THM_UNIT.LEVEL 99) 1).rd (THM_UNIT.LEVEL 99) = 1 ∧ (9499 : Int) < (perimLimits 99).1 - 500 := by decide

theorem wit_Stops : (∃ s : State, s.bit THM_COOLANT.VFLOW = true ∧ s.rd THM_COOLANT.FLOW < 1200 ∧ s.rd THM_STAT.FLOW_STATE < 2 ∧ s.bit GLB_STW_STAT.LOST_BOTH = false) ∧
    (∃ s : State, s.rd THM_STAT.FLOW_STATE = 2 ∧ s.bit GLB_STW_STAT.LOST_BOTH = false ∧ s.anyLayer = false ∧ s.flowBack = true) ∧
    (∃ s : State, s.rd THM_STAT.FLOW_STATE = 3 ∧ s.bit GLB_STW_STAT.LOST_BOTH = false ∧ 2 ∈ s.power.holds ∧ s.therm.faultN = false ∧ s.flowBack = true) ∧
    ∃ s : State, s.therm.faultN = true ∧ s.rgnState 0 < 2 ∧ s.bit (RGN_PWR_STAT.CLAMPED 0) = false :=
  ⟨⟨(ready.wr THM_COOLANT.VFLOW 1).wr THM_COOLANT.FLOW 1199, by decide⟩, ⟨(flowing ready).wr THM_STAT.FLOW_STATE 2, by decide⟩,
    ⟨(flowing (powered (fun x => { x with holds := [2] }))).wr THM_STAT.FLOW_STATE 3, by decide⟩, heated (fun x => { x with faultN := true }), by decide⟩

/-! Resets, folds, stewards. -/

def booted (f : Boot → Boot) : State := ready.updBoot f
theorem wit_Starts : (∃ s : State, s.boot.on = true ∧ s.boot.trayLow = false) ∧ (∃ s : State, s.boot.on = false ∧ s.boot.trayLow = true) ∧ (∃ s : State, s.boot.on = true ∧ s.boot.trayLow = true) ∧
    (∃ s : State, s.boot.on = false ∧ s.boot.trayLow = false) ∧
    ((0x5752 : W32).toNat % 65536 = 0x5752 ∧ (0x5753 : W32).toNat % 65536 ≠ 0x5752 ∧ ∃ s : State, s.rd RST_BOOT_STAT.STATE = 1 ∧ s.bit GLB_STW_STAT.LOST_BOTH = false) :=
  ⟨⟨booted (fun x => { x with on := true }), by decide⟩, ⟨booted (fun x => { x with on := false, trayLow := true }), by decide⟩,
    ⟨booted (fun x => { x with on := true, trayLow := true }), by decide⟩, ⟨booted (fun x => { x with on := false }), by decide⟩, by decide, by decide, ready.wr RST_BOOT_STAT.STATE 1, by decide⟩

theorem wit_Watchdogs : (∃ s : State, s.bit GLB_STW_STAT.LOST_BOTH = false ∧ s.sd < 2 ∧ s.bit GLB_STW_STAT.STANDBY_OK = true) ∧
    (∃ s : State, s.bit GLB_STW_STAT.LOST_BOTH = false ∧ 1 ≠ s.sd ∧ s.key.sbyState ≠ 2) := ⟨⟨ready.wr GLB_STW_STAT.STANDBY_OK 1, by decide⟩, ready, by decide⟩

theorem wit_BlockResets : ready.boot.idle = [] ∧ (∃ s : State, s.boot.idle = [(214, 8)]) ∧ ready.rgnState 0 < 4 ∧ ready.dieAbsent 0 = false ∧
    (∃ s : State, s.bit HID_SEG_APPLY.BUSY = true ∧ s.bit GLB_STW_STAT.LOST_BOTH = false) ∧ ∃ s : State, s.bit HID_SEG_APPLY.BUSY = false ∧ s.boot.saveDue = false ∧ s.logOk = true ∧ s.bit GLB_STW_STAT.LOST_BOTH = false :=
  ⟨by decide, ⟨booted (fun x => { x with idle := [(214, 8)] }), by decide⟩, by decide, by decide, ⟨ready.wr HID_SEG_APPLY.BUSY 1, by decide⟩, ready.wr TEL_LOG_STAT.DEV0_OK 1, by decide⟩

def recovering (f : Rcv → Rcv) : State := { ready with rcv := f Rcv.reset }
theorem wit_Folds : (ready.bit GLB_STW_STAT.LOST_BOTH = false ∧ (ready.core 0).fenced = false ∧ ready.dieAbsent (coreDie 0) = false ∧ ready.placedIn 0 = none ∧ ready.ceDue 0 = false) ∧
    (∃ s : State, s.bit GLB_STW_STAT.LOST_BOTH = false ∧ s.placedIn 0 = none ∧ (s.core 0).fenced = false ∧ s.dieAbsent (coreDie 0) = false ∧ s.ceDue 0 = true) ∧
    (∃ (s : State) (l : LayerRun), (s.part 0).run = some l ∧ l.step = 20 ∧ 0 ∉ l.quiet ∧ 0 ∈ s.placedDies 0 ∧ s.dieAbsent 0 = false) :=
  ⟨by decide, ⟨(ready.wr GLB_FOLD_CFG.CE_THR 1).updCore 0 (fun k => { k with ceTimes := [0, 0] }), by decide⟩, layered 20, runAt 20, rfl, by decide⟩

theorem wit_DieFolds : (∃ s : State, s.dieAbsent 0 = false ∧ s.bit GLB_STW_STAT.LOST_BOTH = false ∧ s.bit GLB_FOLD_CFG.DIE_RETRY = true ∧ Tab.get 0 s.rcv.lastRetry 0 = 0) ∧
    (∃ s : State, Tab.get 0 s.rcv.retry 143 ≠ 0 ∧ s.bit GLB_STW_STAT.LOST_BOTH = false ∧ s.ptime ≤ Tab.get 0 s.rcv.retry 143 - 1 + 60000000000) :=
  ⟨⟨ready.wr GLB_FOLD_CFG.DIE_RETRY 1, by decide⟩, recovering (fun x => { x with retry := [(143, 1)] }), by decide⟩

theorem wit_RegionLosses : (∃ s : State, Tab.get 0 s.rcv.lossDue 15 = 1 + 1 ∧ s.bit GLB_STW_STAT.LOST_BOTH = false ∧ s.anyLayer = false) ∧
    (∃ s : State, bitOf (s.rd GLB_HOLE_RGN.HOLE) 15 = true ∧ s.admitted 15 = true ∧ Tab.get 0 s.power.ramp 15 = 0 ∧ s.bit GLB_STW_STAT.LOST_BOTH = false ∧
      s.bit (THM_RGN.TRIPPED 15) = true ∧ Tab.get 0 s.power.swap 15 = 3) :=
  ⟨⟨recovering (fun x => { x with lossDue := [(15, 2)] }), by decide⟩,
    ((((List.range 9).foldl (fun (t : State) i => t.wr (CD_CLK_STAT.PT_LOCK (regionDie 15 i)) 1) ((powered (fun x => { x with swap := [(15, 3)] })).wr (RGN_PWR_STAT.STATE 15) 0)).wr
      GLB_HOLE_RGN.HOLE 0x8000).wr (THM_RGN.TRIPPED 15) 1), by decide⟩

def beating (f : Mgmt → Mgmt) : State := ready.updMgmt f
def update0 : Update := ⟨0, 0, 2, []⟩
theorem wit_Stewards : (∃ s : State, s.bit GLB_STW_STAT.LOST_BOTH = false ∧ s.bit GLB_STW_STAT.STANDBY_OK = true) ∧
    (∃ s : State, s.bit GLB_STW_STAT.LOST_BOTH = false ∧ 5 ≤ Tab.get 0 s.mgmt.stwMissed 0 ∧ 5 ≤ Tab.get 0 s.mgmt.stwMissed 1) ∧
    (∃ s : State, s.bit GLB_STW_STAT.LOST_BOTH = false ∧ 5 ≤ Tab.get 0 s.mgmt.sbyMissed 0 ∧ 5 ≤ Tab.get 0 s.mgmt.sbyMissed 1 ∧ s.rcv.update = none) ∧
    (∃ s : State, s.bit GLB_STW_STAT.LOST_BOTH = false ∧ (Tab.get 0 s.mgmt.stwMissed 0 < 5 ∨ Tab.get 0 s.mgmt.stwMissed 1 < 5) ∧ s.rcv.update = some update0 ∧ update0.image = 0 ∧
      update0.step = 2 ∧ s.anyLayer = false) ∧
    (∃ s : State, s.rcv.booting = true ∧ s.bit GLB_STW_STAT.LOST_BOTH = false) :=
  ⟨⟨ready.wr GLB_STW_STAT.STANDBY_OK 1, by decide⟩, ⟨beating (fun m => { m with stwMissed := [(0, 5), (1, 5)] }), by decide⟩, ⟨beating (fun m => { m with sbyMissed := [(0, 5), (1, 5)] }), by decide⟩,
    ⟨recovering (fun x => { x with update := some update0 }), by decide⟩, recovering (fun x => { x with booting := true }), by decide⟩
theorem wit_Managers : (∃ s : State, s.bit GLB_STW_STAT.LOST_BOTH = true ∧ Tab.get 0 s.host.stwLost 1 = 0 ∧ (s.host.descs.map Desc.key).Nodup) ∧ (0 : Nat) ≠ regionDie 0 1 ∧
    ∃ s : State, s.rgnState 0 < 4 ∧ 3 ≤ Tab.get 0 s.mgmt.mgrMissed 0 ∧ s.nextManager 0 (s.rd (RGN_PWR_STAT.MANAGER 0)) = some 1 :=
  ⟨⟨lostBoth, by decide⟩, by decide, beating (fun m => { m with mgrMissed := [(0, 3)] }), by decide⟩

/-! Telemetry, the keyring, requests from outside, the whole panel. -/

def trick0 : Trick := ⟨none, 1, 1000, 0, none, [], 0⟩
def shadowed : State := { ready with tel := { Tel.reset with trick := some trick0, shadow := trickUnits.map (fun x => (x, [(1 : Byte)])) } }
theorem wit_Tricks : ready.tel.trick = none ∧ (∃ s : State, s.tel.trick = some trick0 ∧ s.bit GLB_STW_STAT.LOST_BOTH = false ∧ s.ptime < max trick0.t trick0.since + 20000000) ∧
    (∃ s : State, s.tel.trick = some trick0 ∧ max trick0.t trick0.since + 20000000 ≤ s.ptime ∧ s.tel.daily = false ∧ s.tel.dayRecs = []) ∧
    (∃ s : State, s.tel.dayRecs = [(3, 0, [])]) ∧
    (∃ s : State, s.tel.trick = some trick0 ∧ ∀ x ∈ trickUnits, unitRecords x = [] ∨ s.unitGone x ≠ none ∨ Tab.get [] s.tel.shadow x ≠ []) ∧
    (∃ s : State, Tab.get 0 s.tel.wraps 143 ≠ 0 ∧ Tab.get 0 s.tel.wrapAt 143 = 0 ∧ s.bit (HID_FN_ID.EN 0) = false ∧ s.bit (HID_FN_ID.EN 8) = false) :=
  ⟨rfl, ⟨{ ready with tel := { Tel.reset with trick := some trick0 } }, by decide⟩, ⟨{ ready with tel := { Tel.reset with trick := some trick0 }, ptime := 20001000 }, by decide⟩,
    ⟨{ ready with tel := { Tel.reset with dayRecs := [(3, 0, [])] } }, rfl⟩,
    ⟨shadowed, rfl, fun x hx => .inr (.inr ((by decide +kernel : ∀ x ∈ trickUnits, Tab.get [] shadowed.tel.shadow x ≠ []) x hx))⟩,
    ⟨(({ ready with tel := { Tel.reset with wraps := [(143, 1)] } } : State).wr (HID_FN_ID.EN 0) 0).wr (HID_FN_ID.EN 8) 0, by decide⟩⟩
theorem wit_Records : (∃ s : State, s.logOk = true ∧ s.bit GLB_STW_STAT.LOST_BOTH = false ∧ s.bit TEL_LOG_STAT.DEV0_OK = true ∧ s.bit TEL_LOG_STAT.DEV1_OK = false) ∧
    (∃ s : State, s.logOk = false ∧ s.bit TEL_LOG_STAT.DEV0_OK = false) ∧
    (bitsOf (0x8000000000000001 : M64).toNat 63 1 = 1 ∧ bitsOf (0x8000000000000001 : M64).toNat 0 48 % 2 ^ 24 ≠ 0 ∧ bitsOf (0 : M64).toNat 63 1 = 0) ∧
    (bitsOf (4 : W32).toNat 2 1 = 1 ∧ bitsOf (1 : W32).toNat 0 1 = 1 ∧ bitsOf (16 : W32).toNat 4 1 = 1) :=
  ⟨⟨(ready.wr TEL_LOG_STAT.DEV0_OK 1).wr TEL_LOG_STAT.DEV1_OK 0, by decide⟩, ⟨(ready.wr TEL_LOG_STAT.DEV0_OK 0).wr TEL_LOG_STAT.DEV1_OK 0, by decide⟩, by decide, by decide⟩

/-- Endpoint 0 live, the keyring in a state. -/
def keyed (st : Nat) : State := ((({ ready with host := { HostSide.reset with inReset := [(0, 1)] } } : State).wr (HID_FN_ID.EN 0) 1).wr RST_BOOT_STAT.STATE 1).wr KEY_STAT.STATE st
theorem wit_Mailbox : (∀ st ∈ [0, 1, 2], (keyed st).fnLive (8 * 0) = true ∧ (keyed st).bit GLB_STW_STAT.LOST_BOTH = false ∧ (keyed st).rd KEY_STAT.STATE = st) ∧
    (Tab.get 0 ((keyed 1).updKey (fun k => { k with lock := [(0, 1)] })).key.lock 0 = 0 + 1 ∧ ((keyed 1).updKey (fun k => { k with lock := [(0, 1)] })).ptime < 0 + 60000000000 ∧
      Tab.get 0 (keyed 1).key.lock 0 = 0) ∧ (∃ s : State, s.fnLive (8 * 0) = true ∧ s.bit GLB_STW_STAT.LOST_BOTH = false ∧ Tab.get 0 s.key.lock 0 = 0 + 1 ∧ 0 + 60000000000 ≤ s.ptime) ∧
    ((keyed 1).owned = false ∧ (keyed 1).bit (KEY_OWNER.VALID 3) = false ∧ (keyed 1).bit (KEY_OWNER.REVOKED 3) = false ∧ Tab.get [] (keyed 1).key.chal 0 = [] ∧ Tab.get [] (keyed 1).key.fails 0 = []) ∧
    (∃ s : State, s.rd KEY_STAT.STATE = 1 ∧ s.owned = true ∧ s.rd (KEY_MBOX_CTL.ROLE 0) ≠ 2) ∧
    (∃ s : State, s.rd KEY_STAT.STATE = 1 ∧ s.rd (KEY_MBOX_CTL.ROLE 0) = 2 ∧ s.ownerOk 0 = true ∧ s.ownerOk 1 = true) ∧
    (∃ s : State, s.rd KEY_STAT.STATE = 1 ∧ s.rd (KEY_MBOX_CTL.ROLE 0) = 2 ∧ s.ownerOk 3 = true ∧ ∀ o, o < 4 → o ≠ 3 → s.ownerOk o = false) ∧
    ((List.replicate 32 (1 : Byte)).length = 32 ∧ (List.replicate 32 (1 : Byte)).any (fun x => decide (x ≠ 0)) = true) ∧ ready.sd < 2 :=
  ⟨by decide, by decide, ⟨{ (keyed 1).updKey (fun k => { k with lock := [(0, 1)] }) with ptime := 60000000000 }, by decide⟩, by decide,
    ⟨(keyed 1).wr (KEY_OWNER.VALID 0) 1, by decide⟩, ⟨(((keyed 1).wr (KEY_OWNER.VALID 0) 1).wr (KEY_OWNER.VALID 1) 1).wr (KEY_MBOX_CTL.ROLE 0) 2, by decide⟩,
    ⟨((keyed 1).wr (KEY_OWNER.VALID 3) 1).wr (KEY_MBOX_CTL.ROLE 0) 2, by decide⟩, by decide, by decide⟩
/-- A session begins where Config verifies the signature over the challenge, the function and the role. -/
theorem wit_Session (key chal sig : List Byte) (hk : key = (((keyed 1).wr (KEY_OWNER.VALID 0) 1).updKey (fun k => { k with chal := [(0, chal)], chalRole := [(0, 1)] })).ownerKey 0) (hc : chal ≠ [])
    (hv : Config.verify key (chal ++ leBytes 1 (8 * 0) ++ leBytes 1 1) (sig.take 64) = true) : ∃ s : State, s.rd KEY_STAT.STATE = 1 ∧ Tab.get 0 s.key.lock 0 = 0 ∧ s.ownerOk 0 = true ∧
      Tab.get [] s.key.chal 0 ≠ [] ∧ Tab.get 0 s.key.chalRole 0 = 1 ∧ Config.verify (s.ownerKey 0) (Tab.get [] s.key.chal 0 ++ leBytes 1 (8 * 0) ++ leBytes 1 1) (sig.take 64) = true :=
  ⟨((keyed 1).wr (KEY_OWNER.VALID 0) 1).updKey (fun k => { k with chal := [(0, chal)], chalRole := [(0, 1)] }), (by decide : ((keyed 1).wr (KEY_OWNER.VALID 0) 1).rd KEY_STAT.STATE = 1), (by decide : Tab.get 0 ([] : Tab Nat) 0 = 0),
    (by decide : ((keyed 1).wr (KEY_OWNER.VALID 0) 1).ownerOk 0 = true), hc, rfl, hk ▸ hv⟩

theorem wit_Outside : (∀ n ∈ [0, 1, 2, 3], ∃ s : State, s.spdmOpen (.doe 0) = true ∧ s.keyReady = true ∧ Tab.get 0 s.key.spdm (spdmKey (.doe 0)) = n ∧ s.tel.log = []) ∧ ready.spdmOpen (.doe 0) = false ∧
    (∃ s : State, s.bit SETUP_LOCK.LOCK = true) ∧ (∃ s : State, s.bit SETUP_LOCK.LOCK = false ∧ s.boot.lockDue = false ∧ s.rd RST_BOOT_STAT.STATE = 1 ∧ s.bit GLB_STW_STAT.LOST_BOTH = false) ∧
    (ready.bit SETUP_LOCK.LOCK = false ∧ ready.boot.lockDue = false ∧ ready.rd RST_BOOT_STAT.STATE ≠ 1) ∧
    (∃ s : State, s.boot.on = true ∧ s.bit GLB_STW_STAT.LOST_BOTH = false ∧ s.boot.tray = true ∧ s.boot.i3cOfs = 0) ∧
    (∃ s : State, s.boot.on = true ∧ s.bit GLB_STW_STAT.LOST_BOTH = false ∧ s.boot.tray = false) ∧
    (Tab.get 0 ready.boot.i3cTries 11 < 3 ∧ 3 ≤ Tab.get 0 (booted (fun x => { x with i3cTries := [(11, 3)] })).boot.i3cTries 11) ∧
    (∃ s : State, 3 ≤ Tab.get 0 s.boot.i3cTries (12 + 11) ∧ s.ct 11 = 1) :=
  ⟨fun n _ => ⟨(keyed 1).updKey (fun k => { k with spdm := [(0, n)] }), (by decide : (keyed 1).spdmOpen (.doe 0) = true), (by decide : (keyed 1).keyReady = true), rfl, rfl⟩, by decide, ⟨ready.wr SETUP_LOCK.LOCK 1, by decide⟩, ⟨ready.wr RST_BOOT_STAT.STATE 1, by decide⟩,
    by decide, ⟨booted (fun x => { x with on := true, tray := true }), by decide⟩, ⟨booted (fun x => { x with on := true }), by decide⟩, by decide,
    (booted (fun x => { x with i3cTries := [(23, 3)] })).wr (PWR_CT_STAT.STATE 11) 1, by decide⟩

theorem wit_Step : ready.pending = [] ∧ ready.clk.slewLeft = 0 ∧ (∀ e ∈ ready.net.syncs, e.2.wait = []) ∧ (∀ e ∈ ready.opt.swap, e.2 ≠ 4) ∧ ready.rcv.quietDue = [] := by decide
theorem wit_Pages : ready.inStore 0 1 = true ∧ ready.place 0 = ready.place 4095 ∧ (ready.pmode = false ∧ ready.bit (MH_SEG_MAP.MODE 0) = false) ∧ (ready.wr MH_STORE_CFG.PMODE 1).pmode = true := by decide
theorem wit_Canon : ∃ s t : State, s.Canon ∧ step s = .next t := ⟨State.reset, _, ⟨by decide, by decide⟩, rfl⟩

/-! WellFormed refuses: one command out of range for each check, all else in range. -/

def ctl0 : CtlHdr := msgTo 157 258
def lctl0 : Lctl := ⟨false, false, false, 0, 0, List.replicate 8 0, 0, 0, 0, 0, 0⟩
def chk0 : ChkFlit := ⟨0, 0⟩
def desc0 : StreamDesc := ⟨0, 0, 0, 0, 0, 0, 0, 0, 0, 0, 0, 0, 0, 0, 0, 0, 0, 0, 0, 0, 0⟩
def boot0 : BootTry := ⟨0, 0, 0, 0, [], [], [], [], [], [], [], [], [], [], 0⟩

theorem wf_good : bulkOk hdr0 = true ∧ ctlOk ctl0 = true ∧ jxOk jxHdr0 = true ∧ lctlOk lctl0 = true ∧ chkOk chk0 = true ∧ descOk desc0 = true ∧ ringOk ⟨51, true, []⟩ = true ∧ viaOk (.doe 8) = true ∧
    viaOk (.jex 71 65535 0) = true ∧ bootOk boot0 = true ∧ measOk meas0 = true ∧ guestOk ⟨1, true, true, false, 0, false, [], []⟩ = true ∧ reqOk (.fetch 4095) = true ∧ reqOk (.completion 9) = true ∧
    tabsOk [(195, List.replicate 196 0)] = true ∧ srcOk (.fn 15) = true := by decide +kernel

theorem wf_core : 
    (∀ f ∈ [Instr.add, Instr.sub, Instr.and, Instr.or, Instr.xor, Instr.sll, Instr.srl, Instr.sra, Instr.slt, Instr.sltu, Instr.smin, Instr.smax, Instr.minu, Instr.maxu, Instr.mul, Instr.mulh, Instr.mulhu, Instr.clz, Instr.popc, Instr.slli, Instr.srli, Instr.srai, Instr.adda, Instr.mova, Instr.mfal, Instr.mfah, Instr.jalr, Instr.mand, Instr.mor, Instr.mxor, Instr.mnot, Instr.mset, Instr.mgetl, Instr.mgeth, Instr.mpopc, Instr.nop, Instr.sysRd, Instr.sysWr, Instr.fenceI], (f 36864 0 0 0).wellFormed = false) ∧
    (∀ f ∈ [Instr.addi, Instr.andi, Instr.ori, Instr.xori, Instr.slti, Instr.lui, Instr.addaI, Instr.ldA, Instr.stA, Instr.beq, Instr.bne, Instr.blt, Instr.bge, Instr.bltu, Instr.bgeu, Instr.jal, Instr.loop, Instr.ldW, Instr.ldH, Instr.ldHs, Instr.ldB, Instr.ldBs, Instr.stW, Instr.stH, Instr.stB, Instr.vld, Instr.vst], (f 36864 0 0 0).wellFormed = false) ∧
    (∀ f ∈ [Instr.streamGather, Instr.streamSend, Instr.streamMcast, Instr.streamRsend], (f 36864 0 0 0 0).wellFormed = false) ∧
    (∀ f ∈ [Instr.waitGe, Instr.cntAdd, Instr.cntSet, Instr.cntRd], (f 36864 0 0 0).wellFormed = false) ∧ (∀ f ∈ [Instr.syncArrive, Instr.syncWait], (f 36864 0 0).wellFormed = false) ∧
    (Instr.msgSend 36864 0 0 0 0).wellFormed = false ∧
    (∀ f ∈ [Instr.vadd, Instr.vsub, Instr.vmul, Instr.vfma, Instr.vmax, Instr.vmin, Instr.vcmplt, Instr.vcmpeq, Instr.vsel, Instr.vrcp, Instr.vrsq, Instr.vexp2, Instr.vrsum, Instr.vrmax, Instr.vbcast, Instr.vcvt], (f 36864 0 0 0 0 0).wellFormed = false) ∧
    (∀ f ∈ [Instr.mma, Instr.sparseLd, Instr.accCvt, Instr.zmask, Instr.tileLd, Instr.tileSt], (f 36864 ⟨0, 0, 0, 0, 0, 0, 0, 0, 0⟩).wellFormed = false) ∧
    (∀ f ∈ [Instr.matrixQueueStart, Instr.kittySelftest], (f 36864 false).wellFormed = false) ∧ (Instr.matrixOpEnd 36864 false 0 false).wellFormed = false ∧
    (∀ f ∈ [Instr.taskEnd, Instr.trap], (f 36864 0 0).wellFormed = false) ∧ (Instr.reservedOpcode 36864 0).wellFormed = false ∧
    (∀ f ∈ [Instr.asyncTrap, Instr.stuckTask, Instr.coreFold], (f 36864 0).wellFormed = false) ∧
    (∀ f ∈ [Instr.coreDone, Instr.trapValidClear, Instr.spCeClr, Instr.commitCopyStart, Instr.boundaryFold], (f 36864).wellFormed = false) ∧ (Instr.scrubTick 36864 []).wellFormed = false ∧
    (Instr.spLinmapWrite 36864 0 0).wellFormed = false ∧ (Instr.meldHoldExpiry 36864 0 0).wellFormed = false := by decide +kernel

theorem wf_range0 : ∀ i ∈ ([.asyncTrap 0 4, .stuckTask 0 4, .spLinmapWrite 0 6 0, .bulkWrite 36916 [] hdr0 [], .mcWrite 36916 [] hdr0 [], .mcOpen 36916 [] hdr0, .mcOpenRsp 36916 [] hdr0, .mcClose 36916 [] hdr0,
    .bulkReadReq 36916 [] hdr0, .bulkReadRsp 36916 [] hdr0 [], .meldRsp 36916 [] hdr0 [] [], .pull 36916 [] hdr0 desc0, .bulkAck 36916 [] hdr0, .bulkError 36916 [] hdr0,
    .ringDetour 36916 [] hdr0 ⟨0, false, []⟩, .ringPacket 52 ⟨0, false, []⟩, .ringBreak false 52, .ringStopReturn 52, .rsendPacket 36916 [] hdr0 [], .rsendHoldExpiry 36916 0,
    .ctlMsg ctl0 0 0 4 0 0, .ctlMsg ctl0 0 0 0 64 0, .ctlMsg ctl0 0 0 0 0 1024, .msgAck ctl0 16, .setup ctl0 67108864 false false 0 false, .faultResend 196 0, .faultResend 0 256,
    .demand ctl0 16 0 0 false ⟨0, 0⟩, .grant ctl0 16 0 0 ⟨0, 0⟩, .grantReq ctl0 16 ⟨0, 0⟩, .floor ctl0 16 0 ⟨0, 0⟩, .floor ctl0 0 6 ⟨0, 0⟩, .chunkCrc ctl0 2 0 0 ⟨0, 0⟩,
    .chunkResult ctl0 2 0 0 false ⟨0, 0⟩, .chunkResult ctl0 0 0 144 false ⟨0, 0⟩, .heartbeat ctl0 256 0, .prepare ctl0 16 0 0, .dealerReady ctl0 16 0 0 false,
    .dealerReady ctl0 0 144 0 false, .dealerStop ctl0 16 0, .quiet ctl0 16 0 0, .quiet ctl0 0 144 0, .dealerWake ctl0 16 0, .dealerWake ctl0 0 4, .summary ctl0 16 0 0 0,
    .summary ctl0 0 144 0 0, .faultAck ctl0 256, .syncArriveFrame 196 0 0, .syncArriveFrame 0 8 0, .syncArriveFrame 0 0 2, .syncReleaseFrame 196 0 0, .syncReleaseFrame 0 8 0,
    .syncReleaseFrame 0 0 2, .syncGo 196 0 0 0, .syncGo 0 196 0 0, .clamp 196 0 0 0, .clamp 0 196 0 0, .clamp 0 0 0 3, .trickFrame 196 0 0 0 0, .trickFrame 0 196 0 0 0] : List Instr), i.wellFormed = false := by decide +kernel

theorem wf_range1 : ∀ i ∈ ([.trickCopy 198, .syncFlip 196 0 0 0, .syncFlip 0 196 0 0, .syncTimeReq 196 0 0, .syncTimeReq 0 196 0, .syncTimeRsp 196 0 0 0 false, .timeSet 196 0 0, .timeSlew 196 0 0 0 0 0,
    .timeSlew 0 196 0 0 0 0, .timeStep 196 0 0 0 0, .timeStep 0 196 0 0 0, .syncFrameCrcError 196 0 0, .syncFrameCrcError 0 196 0, .rtFlipArm 144, .linkFlitError 144 0 false false,
    .linkFlitError 0 9 false false, .linkResendLimit 144 0 false false false, .linkResendLimit 0 9 false false false, .routerBufferUe ⟨36864, false⟩, .hubScrub 24 0 [], .pprRepair 48 false,
    .stackFault 48, .stackRetrainTimeout 48, .stackThermalTrip 48, .rebuildStripe 48, .segMapWrite .fw 48 0, .rxaEnable .fw 72 0, .rxaRdWrite .fw 72 0, .rxaNotify 72, .hubCeClr .fw 24,
    .weightStreamComplete 16 0, .layerTimeLimit 16, .sqDoorbell 16 0 0, .sqDoorbell 0 4096 0, .cqDoorbell 16 0 0, .cqDoorbell 0 4096 0, .descriptorFetch 144 [], .coalesceTimeout 4096,
    .ringEnable .fw 4096 0, .ringDisable .fw 4096 0, .ringDrained 4096, .evtHeadWrite .fw 16 0, .evtEnable .fw 16 0, .partWrite .fw 16 0, .bar0Access 16 0 4 none,
    .bar0Access 0 67108864 4 none, .bar0Access 0 0 0 none, .bar2Read 16 0 4, .bar2Read 0 16777216 4, .bar2Read 0 0 0, .bar4Access 16 false false 0 4 [],
    .bar4Access 0 false false 68719476736 4 [], .bar4Access 0 false false 0 0 [], .flr 16, .d3hotEntry 16, .perst 2, .pcieLinkDown 2, .pcieLinkChange 2 0 0, .laneHealthInterval 24 ⟨[], []⟩,
    .swapConfirmTimeout 72] : List Instr), i.wellFormed = false := by decide +kernel

theorem wf_range2 : ∀ i ∈ ([.laneSwitchAtFlit 72 .rx, .portRetrainWrite .fw 72, .laneRetest .fw 24 0 false, .laneRetest .fw 0 48 false, .baselineWrite .fw 24 0, .portTrainingComplete 72 [] [],
    .opticalPowerSample 24 [] [] [] [], .nofarTimeout 24 0, .nofarTimeout 0 6, .laserTrendCheck 12 ⟨[], []⟩ [], .laserSuddenFail 12 0, .laserSuddenFail 0 8, .interlockBreak 12,
    .moduleInsert 12 (List.replicate 128 0), .laserWarmupComplete 12 [], .elsSwapReq .fw 12, .elsSwapCancel .fw 12, .drainComplete 72, .drainTimeout 72, .flitReceive 72 false [],
    .lctlAckCredit 72 lctl0, .lctlNak 72 lctl0, .lctlReplayMarker 72 lctl0, .lctlInit 72 lctl0, .lctlSwapReq 72 lctl0, .lctlSwapConf 72 lctl0, .lctlNarrowReq 72 lctl0,
    .lctlNarrowConf 72 lctl0, .lctlReject 72 lctl0, .replayTimeout 72, .lctlSendTimer 72, .jxPortUp 72, .jxWrite 72 jxHdr0 [], .jxDeliver 72 jxHdr0 [], .jxReduce 72 jxHdr0 [],
    .jxReadReq 72 jxHdr0, .jxReadRsp 72 jxHdr0 [], .jxAck 72 jxHdr0, .jxTransferTimeout 4294967296 0, .jxTransferTimeout 0 65536, .barArrive 72 jxHdr0 [], .barRelease 72 jxHdr0,
    .hello 72 jxHdr0 [], .helloTimer 72, .farvalidTimeout 72, .routeAdv 72 jxHdr0 [], .timeReq 72 jxHdr0 [], .timeRsp 72 jxHdr0 [], .linkinfo 72 jxHdr0 [], .sealOffer 72 [] none,
    .sealConfirm 72 [], .sealOfferTimeout 72, .sealRetryTimer 72, .rekeyTimer 72, .sealReqWrite .fw 72 0, .sealRekey .fw 72, .jxRtWrite .fw 65536 0, .jxAliasWrite .fw 4 0,
    .linkTraining 144 0 false false [] [] false false, .linkTraining 0 9 false false [] [] false false] : List Instr), i.wellFormed = false := by decide +kernel

theorem wf_range3 : ∀ i ∈ ([.monitorSweep 144 0 0 0 0, .monitorSweep 0 9 0 0 0, .monitorSweep 0 0 0 0 64, .compatTrainingComplete 144 0 false, .compatTrainingComplete 0 9 false, .forceCompatWrite .fw 144 0 0,
    .forceCompatWrite .fw 0 4 0, .linkRetrainWrite .fw 144 0, .linkRetrainWrite .fw 0 4, .guestWrite 2 hdr0 [], .guestReadReq 2 hdr0, .guestCredit 2 0 0, .sidebandTimeout 2, .mboxGo .fw 2,
    .mboxPoll 2 false [], .mboxTimeout 2, .guestLinkDrop 2, .refclkLost 196 false, .refclkMismatch 196, .refclkRestored 196 false boot0, .droopDetect 144 0 0, .droopDetect 0 16 0,
    .droopRelax 144 0, .droopRelax 0 16, .clusterFloorWrite .fw 144 0 0, .clusterFloorWrite .fw 0 16 0, .replicaReading 36896 0, .replicaReading 0 64, .ptExchangeTimer 196,
    .ptLockTimeout 196, .bladeLost 4, .bladeRestored 4, .phaseImbalance 144 0, .phaseImbalance 0 16, .ctPhaseFail 20 0, .ctPhaseFail 0 8, .fuseTrip 20 0, .fuseTrip 0 256, .fuseRetry .fw 20,
    .ctSwapReq .fw 20, .ctSwapProceed 20, .ctSwapCancel .fw 20, .ctSeated 20 (List.replicate 128 0), .ctPulled 20, .grantTimeout 16, .regionPowerLoop 16 0 [], .hardLimitTrip true 16,
    .hardLimitTrip false 144, .anteRequest 16 0, .anteRequest 0 5, .anteTimeout 16, .rampComplete 16, .antePeriodEnd 16, .idleStateEntry 16 0 [], .regionWake 16, .junctionSample 144 0 0 0,
    .junctionSample 0 16 0 0, .clusterHoldRelease 144 0, .clusterHoldRelease 0 16, .holdRelease 16] : List Instr), i.wellFormed = false := by decide +kernel

theorem wf_range4 : ∀ i ∈ ([.thermalTrip 16 0, .thermalTrip 0 144, .tripReturn 16, .perimThermalLimit 100 0, .flowGuard 16, .watchdogKick .fw 2, .watchdogExpiry 2 0, .blockReset 215 0, .blockReset 0 256,
    .blockIdle 215, .blockIdleTimeout 215, .regionReset 16, .dieReset 144, .coreFold 0 256, .quietTimeout 16 0, .quietTimeout 0 144, .dieFold 144 0 [] [], .dieFold 0 256 [] [],
    .dieRetry 144 false [], .regionLoss 16 [] [], .regionReturn 16 [], .stewardLost 2, .managerHeartbeatTimer 16 false, .managerTakeover 16, .counterWrapEvent 198,
    .logRecordWrite 65536 0 [], .logRecordWrite 0 65536 [], .logDeviceFail 2, .hlthClr .fw 144 none 0, .hlthClr .fw 0 (some 256) 0, .authChallenge 2 0, .authChallenge 0 256,
    .authResponse 2 0 0 (List.replicate 64 0), .authResponse 0 256 0 (List.replicate 64 0), .authResponse 0 0 256 (List.replicate 64 0), .authLockExpiry 2, .authDrop 2,
    .ownerEnroll 2 0 (List.replicate 32 0), .ownerEnroll 0 256 (List.replicate 32 0), .ownerRevoke 2 0, .ownerRevoke 0 256, .cosignSet 2, .operatorSet 2 0 (List.replicate 32 0),
    .operatorSet 0 256 (List.replicate 32 0), .zeroise 2 boot0, .selftest 2 0, .selftest 0 256, .keyringTamper 2 0 boot0, .keyringTamper 0 4 boot0, .spdmGetCertificate (.doe 0) 256 0 0,
    .spdmChallenge (.doe 0) 256 (List.replicate 32 0), .ckuStart .fw 20 0, .ckuDataWrite .fw 20 0, .ckuClr .fw 20 0, .protectedAckTimeout 196 0 0 0, .protectedAckTimeout 0 196 0 0,
    .registerWrite .fw 67108864 4 0, .registerWrite .fw 0 0 0, .i3cTargetTimeout true 12, .i3cTargetTimeout false 20] : List Instr), i.wellFormed = false := by decide +kernel

theorem wf_range5 : ∀ i ∈ ([.elsLaserEn 12 0, .ctOutEn 20 0, .stackRetrained 48, .cartridgeFault 20, .vfEnable 2 false 0, .perstDeassertion 2, .hardLimitForceEnd true 16, .hardLimitForceEnd false 144,
    .perimThermalClear 100 0, .laneLockLoss 24 0 false, .laneLockLoss 0 48 false, .entropyHealthTestFail 2] : List Instr), i.wellFormed = false := by decide +kernel

theorem wf_part_bulkOk : ∀ i ∈ ([.bulkWrite 0 [] { hdr0 with tag := 65536 } [], .mcWrite 0 [] { hdr0 with tag := 65536 } [], .mcOpen 0 [] { hdr0 with tag := 65536 }, .mcOpenRsp 0 [] { hdr0 with tag := 65536 },
    .mcClose 0 [] { hdr0 with tag := 65536 }, .bulkReadReq 0 [] { hdr0 with tag := 65536 }, .bulkReadRsp 0 [] { hdr0 with tag := 65536 } [], .meldRsp 0 [] { hdr0 with tag := 65536 } [] [],
    .pull 0 [] { hdr0 with tag := 65536 } desc0, .bulkAck 0 [] { hdr0 with tag := 65536 }, .bulkError 0 [] { hdr0 with tag := 65536 },
    .ringDetour 0 [] { hdr0 with tag := 65536 } ⟨0, false, []⟩, .rsendPacket 0 [] { hdr0 with tag := 65536 } [], .guestWrite 0 { hdr0 with tag := 65536 } [],
    .guestReadReq 0 { hdr0 with tag := 65536 }] : List Instr), i.wellFormed = false := by decide +kernel

theorem wf_length : ∀ i ∈ ([.bulkWrite 0 [] hdr0 (List.replicate 1025 0), .mcWrite 0 [] hdr0 (List.replicate 1025 0), .bulkReadRsp 0 [] hdr0 (List.replicate 1025 0), .meldRsp 0 [] hdr0 (List.replicate 9 ⟨0, 0, 0⟩) [],
    .meldRsp 0 [] hdr0 [] (List.replicate 1025 0), .rsendPacket 0 [] hdr0 (List.replicate 1025 0), .moduleInsert 0 (List.replicate 129 0), .flitReceive 0 false (List.replicate 5 []),
    .jxWrite 0 jxHdr0 (List.replicate 4097 0), .jxDeliver 0 jxHdr0 (List.replicate 4097 0), .jxReduce 0 jxHdr0 (List.replicate 4097 0), .jxReadRsp 0 jxHdr0 (List.replicate 4097 0),
    .barArrive 0 jxHdr0 (List.replicate 4097 0), .hello 0 jxHdr0 (List.replicate 4097 0), .routeAdv 0 jxHdr0 (List.replicate 4097 0), .timeReq 0 jxHdr0 (List.replicate 4097 0),
    .timeRsp 0 jxHdr0 (List.replicate 4097 0), .linkinfo 0 jxHdr0 (List.replicate 4097 0), .sealOffer 0 (List.replicate 4097 0) none, .sealConfirm 0 (List.replicate 4097 0),
    .guestWrite 0 hdr0 (List.replicate 1025 0), .mboxPoll 0 false (List.replicate 65 0), .ctSeated 0 (List.replicate 129 0), .authResponse 0 0 0 (List.replicate 65 0),
    .ownerEnroll 0 0 (List.replicate 33 0), .operatorSet 0 0 (List.replicate 33 0), .spdmChallenge (.doe 0) 0 (List.replicate 33 0),
    .spdmGetMeasurements (.doe 0) 0 false (List.replicate 33 0)] : List Instr), i.wellFormed = false := by decide +kernel

theorem wf_part_descOk : ∀ i ∈ ([.pull 0 [] hdr0 { desc0 with space := 2 }] : List Instr), i.wellFormed = false := by decide +kernel

theorem wf_part_ringOk : ∀ i ∈ ([.ringDetour 0 [] hdr0 ⟨52, false, []⟩, .ringPacket 0 ⟨52, false, []⟩] : List Instr), i.wellFormed = false := by decide +kernel

theorem wf_part_ctlOk : ∀ i ∈ ([.ctlMsg { ctl0 with dnode := 196 } 0 0 0 0 0, .msgAck { ctl0 with dnode := 196 } 0, .setup { ctl0 with dnode := 196 } 0 false false 0 false, .setupRsp { ctl0 with dnode := 196 } 0 0,
    .fault { ctl0 with dnode := 196 } 0 0 0 0 0, .demand { ctl0 with dnode := 196 } 0 0 0 false ⟨0, 0⟩, .grant { ctl0 with dnode := 196 } 0 0 0 ⟨0, 0⟩,
    .grantReq { ctl0 with dnode := 196 } 0 ⟨0, 0⟩, .floor { ctl0 with dnode := 196 } 0 0 ⟨0, 0⟩, .mgmtAck { ctl0 with dnode := 196 } 0 0 ⟨0, 0⟩,
    .chunkCrc { ctl0 with dnode := 196 } 0 0 0 ⟨0, 0⟩, .chunkResult { ctl0 with dnode := 196 } 0 0 0 false ⟨0, 0⟩, .heartbeat { ctl0 with dnode := 196 } 0 0,
    .heartbeatAck { ctl0 with dnode := 196 } 0 0, .prepare { ctl0 with dnode := 196 } 0 0 0, .dealerReady { ctl0 with dnode := 196 } 0 0 0 false, .dealerStop { ctl0 with dnode := 196 } 0 0,
    .quiet { ctl0 with dnode := 196 } 0 0 0, .dealerWake { ctl0 with dnode := 196 } 0 0, .summary { ctl0 with dnode := 196 } 0 0 0 0, .faultAck { ctl0 with dnode := 196 } 0] : List Instr), i.wellFormed = false := by decide +kernel

theorem wf_part_chkOk : ∀ i ∈ ([.demand ctl0 0 0 0 false ⟨256, 0⟩, .grant ctl0 0 0 0 ⟨256, 0⟩, .grantReq ctl0 0 ⟨256, 0⟩, .floor ctl0 0 0 ⟨256, 0⟩, .mgmtAck ctl0 0 0 ⟨256, 0⟩, .chunkCrc ctl0 0 0 0 ⟨256, 0⟩,
    .chunkResult ctl0 0 0 0 false ⟨256, 0⟩] : List Instr), i.wellFormed = false := by decide +kernel

theorem wf_part_tabsOk : ∀ i ∈ ([.tableChange [(0, [])], .idleStateEntry 0 0 [(0, [])], .dieFold 0 0 [(0, [])] [], .dieRetry 0 false [(0, [])], .regionLoss 0 [(0, [])] [], .regionReturn 0 [(0, [])]] : List Instr), i.wellFormed = false := by decide +kernel

theorem wf_part_srcOk : ∀ i ∈ ([.storeInit (.fn 16), .reconStart (.fn 16), .segMapWrite (.fn 16) 0 0, .rxaEnable (.fn 16) 0 0, .rxaRdWrite (.fn 16) 0 0, .hubCeClr (.fn 16) 0, .ringEnable (.fn 16) 0 0,
    .ringDisable (.fn 16) 0 0, .evtHeadWrite (.fn 16) 0 0, .evtEnable (.fn 16) 0 0, .partWrite (.fn 16) 0 0, .segApply (.fn 16) 0, .portRetrainWrite (.fn 16) 0,
    .laneRetest (.fn 16) 0 0 false, .baselineWrite (.fn 16) 0 0, .elsSwapReq (.fn 16) 0, .elsSwapCancel (.fn 16) 0, .sealReqWrite (.fn 16) 0 0, .sealRekey (.fn 16) 0,
    .jxRtWrite (.fn 16) 0 0, .jxSelfWrite (.fn 16) 0, .jxAliasWrite (.fn 16) 0 0, .forceCompatWrite (.fn 16) 0 0 0, .linkRetrainWrite (.fn 16) 0 0, .mboxGo (.fn 16) 0,
    .clusterFloorWrite (.fn 16) 0 0 0, .fuseRetry (.fn 16) 0, .ctSwapReq (.fn 16) 0, .ctSwapCancel (.fn 16) 0, .tripClrWrite (.fn 16) 0, .warmReset (.fn 16) 0 boot0,
    .watchdogKick (.fn 16) 0, .configSave (.fn 16), .telImgWrite (.fn 16) 0, .hlthClr (.fn 16) 0 none 0, .ckuStart (.fn 16) 0 0, .ckuDataWrite (.fn 16) 0 0, .ckuClr (.fn 16) 0 0,
    .setupLockWrite (.fn 16) 0, .registerWrite (.fn 16) 0 4 0] : List Instr), i.wellFormed = false := by decide +kernel

theorem wf_part_lctlOk : ∀ i ∈ ([.lctlAckCredit 0 { lctl0 with creds := [] }, .lctlNak 0 { lctl0 with creds := [] }, .lctlReplayMarker 0 { lctl0 with creds := [] }, .lctlInit 0 { lctl0 with creds := [] },
    .lctlSwapReq 0 { lctl0 with creds := [] }, .lctlSwapConf 0 { lctl0 with creds := [] }, .lctlNarrowReq 0 { lctl0 with creds := [] }, .lctlNarrowConf 0 { lctl0 with creds := [] },
    .lctlReject 0 { lctl0 with creds := [] }] : List Instr), i.wellFormed = false := by decide +kernel

theorem wf_part_jxOk : ∀ i ∈ ([.jxWrite 0 { jxHdr0 with ndata := 65 } [], .jxDeliver 0 { jxHdr0 with ndata := 65 } [], .jxReduce 0 { jxHdr0 with ndata := 65 } [], .jxReadReq 0 { jxHdr0 with ndata := 65 },
    .jxReadRsp 0 { jxHdr0 with ndata := 65 } [], .jxAck 0 { jxHdr0 with ndata := 65 }, .barArrive 0 { jxHdr0 with ndata := 65 } [], .barRelease 0 { jxHdr0 with ndata := 65 },
    .hello 0 { jxHdr0 with ndata := 65 } [], .routeAdv 0 { jxHdr0 with ndata := 65 } [], .timeReq 0 { jxHdr0 with ndata := 65 } [], .timeRsp 0 { jxHdr0 with ndata := 65 } [],
    .linkinfo 0 { jxHdr0 with ndata := 65 } []] : List Instr), i.wellFormed = false := by decide +kernel

theorem wf_part_guestOk : ∀ i ∈ ([.guestAdmission ⟨2, true, true, false, 0, false, [], []⟩] : List Instr), i.wellFormed = false := by decide +kernel

theorem wf_part_bootOk : ∀ i ∈ ([.refclkRestored 0 false { boot0 with hids := [2] }, .powerOn { boot0 with hids := [2] }, .warmReset .fw 0 { boot0 with hids := [2] }, .zeroise 0 { boot0 with hids := [2] },
    .keyringTamper 0 0 { boot0 with hids := [2] }, .trayResetRelease { boot0 with hids := [2] }] : List Instr), i.wellFormed = false := by decide +kernel

theorem wf_part_measOk : ∀ i ∈ ([.budgetExchange { meas0 with volt := 65536 }, .anteEvaluation { meas0 with volt := 65536 }] : List Instr), i.wellFormed = false := by decide +kernel

theorem wf_part_viaOk : ∀ i ∈ ([.spdmGetVersion (.doe 1), .spdmGetCapabilities (.doe 1), .spdmNegotiateAlgorithms (.doe 1) false, .spdmGetDigests (.doe 1), .spdmGetCertificate (.doe 1) 0 0 0,
    .spdmChallenge (.doe 1) 0 (List.replicate 32 0), .spdmGetMeasurements (.doe 1) 0 false (List.replicate 32 0), .spdmVendorLogRead (.doe 1) 0 0 0 0 []] : List Instr), i.wellFormed = false := by decide +kernel

theorem wf_part_reqOk : ∀ i ∈ ([.hostRequestRejected (.event 16)] : List Instr), i.wellFormed = false := by decide +kernel

theorem wf_fields_bulkOk : ∀ i ∈ ([.bulkReadReq 0 [] { hdr0 with type := 16 }, .bulkReadReq 0 [] { hdr0 with vc := 8 }, .bulkReadReq 0 [] { hdr0 with dkind := 4 }, .bulkReadReq 0 [] { hdr0 with status := 16 },
    .bulkReadReq 0 [] { hdr0 with plen := 1025 }, .bulkReadReq 0 [] { hdr0 with x0 := 256 }, .bulkReadReq 0 [] { hdr0 with y0 := 256 }, .bulkReadReq 0 [] { hdr0 with x1 := 256 },
    .bulkReadReq 0 [] { hdr0 with y1 := 256 }, .bulkReadReq 0 [] { hdr0 with sx := 256 }, .bulkReadReq 0 [] { hdr0 with sy := 256 }, .bulkReadReq 0 [] { hdr0 with tag := 65536 },
    .bulkReadReq 0 [] { hdr0 with toff := 262144 }, .bulkReadReq 0 [] { hdr0 with slot := 4 }, .bulkReadReq 0 [] { hdr0 with cnt := 64 }, .bulkReadReq 0 [] { hdr0 with op := 16 },
    .bulkReadReq 0 [] { hdr0 with inc := 65536 }, .bulkReadReq 0 [] { hdr0 with scode := 256 }, .bulkReadReq 0 [] { hdr0 with soff := 262144 },
    .bulkReadReq 0 [] { hdr0 with addr := 281474976710656 }] : List Instr), i.wellFormed = false := by decide +kernel

theorem wf_fields_ctlOk : ∀ i ∈ ([.heartbeatAck { ctl0 with type := 7 } 0 0, .heartbeatAck { ctl0 with vc := 2 } 0 0, .heartbeatAck { ctl0 with dnode := 196 } 0 0, .heartbeatAck { ctl0 with dlocal := 261 } 0 0,
    .heartbeatAck { ctl0 with snode := 196 } 0 0, .heartbeatAck { ctl0 with slocal := 261 } 0 0, .heartbeatAck { ctl0 with len := 5 } 0 0, .heartbeatAck { ctl0 with msgid := 256 } 0 0,
    .heartbeatAck { ctl0 with vc := 3 } 0 0] : List Instr), i.wellFormed = false := by decide +kernel

theorem wf_fields_jxOk : ∀ i ∈ ([.jxAck 0 { jxHdr0 with vc := 8 }, .jxAck 0 { jxHdr0 with ptype := 256 }, .jxAck 0 { jxHdr0 with ndata := 65 }, .jxAck 0 { jxHdr0 with hops := 64 }, .jxAck 0 { jxHdr0 with dst := 65536 },
    .jxAck 0 { jxHdr0 with src := 65536 }, .jxAck 0 { jxHdr0 with addr := 281474976710656 }, .jxAck 0 { jxHdr0 with len := 4097 }, .jxAck 0 { jxHdr0 with cnt := 64 },
    .jxAck 0 { jxHdr0 with op := 16 }, .jxAck 0 { jxHdr0 with status := 16 }, .jxAck 0 { jxHdr0 with inc := 65536 }, .jxAck 0 { jxHdr0 with pidx := 65536 },
    .jxAck 0 { jxHdr0 with xid := 4294967296 }, .jxAck 0 { jxHdr0 with arg := 4294967296 }, .jxAck 0 { jxHdr0 with sctr := 18446744073709551616 },
    .jxAck 0 { jxHdr0 with hcrc := 4294967296 }, .jxAck 0 { jxHdr0 with pcrc := 4294967296 }, .jxAck 0 { jxHdr0 with tag := 340282366920938463463374607431768211456 }] : List Instr), i.wellFormed = false := by decide +kernel

theorem wf_fields_lctlOk : ∀ i ∈ ([.lctlNak 0 { lctl0 with aseq := 4096 }, .lctlNak 0 { lctl0 with rseq := 4096 }, .lctlNak 0 { lctl0 with lop := 6 }, .lctlNak 0 { lctl0 with llane := 16 },
    .lctlNak 0 { lctl0 with slane := 16 }, .lctlNak 0 { lctl0 with neww := 3 }, .lctlNak 0 { lctl0 with fseq := 4096 }, .lctlNak 0 { lctl0 with creds := List.replicate 9 0 },
    .lctlNak 0 { lctl0 with creds := List.replicate 8 65536 }] : List Instr), i.wellFormed = false := by decide +kernel

theorem wf_fields_descOk : ∀ i ∈ ([.pull 0 [] hdr0 { desc0 with localOff := 262144 }, .pull 0 [] hdr0 { desc0 with rowBytes := 65536 }, .pull 0 [] hdr0 { desc0 with rowCount := 65536 },
    .pull 0 [] hdr0 { desc0 with space := 2 }, .pull 0 [] hdr0 { desc0 with addr := 281474976710656 }, .pull 0 [] hdr0 { desc0 with vx := 256 }, .pull 0 [] hdr0 { desc0 with vy := 128 },
    .pull 0 [] hdr0 { desc0 with slot := 4 }, .pull 0 [] hdr0 { desc0 with roff := 262144 }, .pull 0 [] hdr0 { desc0 with vx1 := 256 }, .pull 0 [] hdr0 { desc0 with vy1 := 128 },
    .pull 0 [] hdr0 { desc0 with lstride := 262144 }, .pull 0 [] hdr0 { desc0 with rstride := 4294967296 }, .pull 0 [] hdr0 { desc0 with lcnt := 64 },
    .pull 0 [] hdr0 { desc0 with lcntEn := 2 }, .pull 0 [] hdr0 { desc0 with rcnt := 64 }, .pull 0 [] hdr0 { desc0 with rcntEn := 2 }, .pull 0 [] hdr0 { desc0 with linc := 65536 },
    .pull 0 [] hdr0 { desc0 with rinc := 65536 }, .pull 0 [] hdr0 { desc0 with op := 16 }, .pull 0 [] hdr0 { desc0 with rsv := 2 }] : List Instr), i.wellFormed = false := by decide +kernel

theorem wf_fields_measOk : ∀ i ∈ ([.budgetExchange { meas0 with power := 65536 }, .budgetExchange { meas0 with volt := 65536 }, .budgetExchange { meas0 with curr := 65536 }, .budgetExchange { meas0 with avg5 := 65536 },
    .budgetExchange { meas0 with blades := List.replicate 5 (0, 0) }, .budgetExchange { meas0 with ins := List.replicate 21 0 }, .budgetExchange { meas0 with outs := List.replicate 21 0 }] : List Instr), i.wellFormed = false := by decide +kernel

theorem wf_fields_chkOk : ∀ i ∈ ([.mgmtAck ctl0 0 0 { chk0 with alive := 256 }, .mgmtAck ctl0 0 0 { chk0 with crc := 4294967296 }] : List Instr), i.wellFormed = false := by decide +kernel

theorem wf_fields_bootOk : ∀ i ∈ ([.powerOn { boot0 with hids := [2] }, .powerOn { boot0 with badStacks := [48] }, .powerOn { boot0 with noSpare := [48] }, .powerOn { boot0 with regions := [16] },
    .powerOn { boot0 with dies := [144] }, .powerOn { boot0 with links := [(144, 0)] }, .powerOn { boot0 with compat := [(144, 0)] }, .powerOn { boot0 with mods := List.replicate 13 [] },
    .powerOn { boot0 with ports := List.replicate 73 [] }, .powerOn { boot0 with ms := 4294967296 }] : List Instr), i.wellFormed = false := by decide +kernel

theorem wf_fields_other : ∀ i ∈ ([.spdmGetVersion (.jex 72 0 0), .spdmGetVersion (.jex 0 65536 0), .spdmGetVersion (.jex 0 0 4294967296), .hostRequestRejected (.fetch 4096),
    .hostRequestRejected (.data 0 18446744073709551616), .tableChange [(196, List.replicate 196 0)], .tableChange [(0, List.replicate 195 0)]] : List Instr), i.wellFormed = false := by decide +kernel

/-! The spec's own figures. -/

/-- R14, R21 and the worked example of R644: physical core 29,037 is local core 109 of die 113; its window and its registers. -/
theorem test_core_29037 : coreDie 29037 = 113 ∧ coreN 29037 = 109 ∧ winBase 29037 = 0x8001C5B40000 ∧ (CD_SP_CE.COUNT 113 109).key = 8 * 0x171ADB8 ∧ (CD_CLK_RPL.SLACK 113 109).key = 8 * 0x17195B4 ∧
    regionOf 113 = 13 ∧ regionDie 13 2 = 113 ∧ (RGN_DIE_PWR.SHED 13 2).key = 8 * 0xB40018 ∧ (GLB_FOLD_MAP.FOLDED (29037 / 32)).key = 8 * 0x3006E2C ∧ 29037 % 32 = 13 := by decide

/-- Worked example of R142: CNT.ADD of 0x1000_0000 takes a count of 0xF000_1000 to 0x1000. -/
theorem test_cntAdd_rebases : (match exec (.cntAdd 0 2 1 0x800) ((running (fun t => t.wg 1 0x10000000)).updCore 0 (fun k => { k with counters := [(2, 0xF0001000)] })) with
    | .next t => decide (Tab.get 0 (t.core 0).counters 2 = 0x1000)
    | _ => false) = true := by decide

/-- Worked example of R232 to R234: address 0x12_3456_7890, interleaved, edge-local and interleaved with parity. -/
theorem test_place_interleaved : ready.place 0x1234567890 = (16, 397682) ∧ stackHub 16 = 8 ∧ 397682 * 4096 + 0x890 = 0x61172890 := by decide
theorem test_place_edge_local : (ready.wr (MH_SEG_MAP.MODE 1) 1).place 0x1234567890 = (37, 315737) ∧ stackHub 37 = 18 := by decide
theorem test_place_parity : (ready.wr MH_STORE_CFG.PMODE 1).place 0x1234567890 = (36, 433835) ∧ parityStack (36 / 12) 433835 = 47 := by decide

/-- Worked example of R174: the pieces and the stray of a multicast after a fold. -/
def foldedMap : List (Nat × Nat × Nat × Nat × Nat × Nat) := [(0, 0, 8, 3, 44, 24), (0, 3, 5, 1, 44, 27), (6, 3, 2, 1, 50, 27), (0, 4, 8, 4, 44, 28)]
def mapped : State :=
  let s := foldedMap.zipIdx.foldl (fun (s : State) e => ((((((s.wr (CD_PMAP_REC.VX0 14 e.2) e.1.1).wr (CD_PMAP_REC.VY0 14 e.2) e.1.2.1).wr (CD_PMAP_REC.WM1 14 e.2) (e.1.2.2.1 - 1)).wr
    (CD_PMAP_REC.HM1 14 e.2) (e.1.2.2.2.1 - 1)).wr (CD_PMAP_REC.PX0 14 e.2) e.1.2.2.2.2.1).wr (CD_PMAP_REC.PY0 14 e.2) e.1.2.2.2.2.2)) ready
  (((((s.wr (CD_PMAP_CNT.NREC 14) 4).wr (CD_PMAP_CNT.NSTRAY 14) 1).wr (CD_PMAP_STRAY.VX 14 0) 5).wr (CD_PMAP_STRAY.VY 14 0) 3).wr (CD_PMAP_STRAY.PX 14 0) 52).wr (CD_PMAP_STRAY.PY 14 0) 40
theorem test_cover_after_fold : (mapped.cover 14 { desc0 with vx1 := 7, vy1 := 7 }) =
    ([⟨44, 24, 51, 26⟩, ⟨44, 27, 48, 27⟩, ⟨50, 27, 51, 27⟩, ⟨44, 28, 51, 31⟩], [coreAt 52 40]) ∧
    ((mapped.cover 14 { desc0 with vx1 := 7, vy1 := 7 }).1.flatMap Rect.cores).length = 63 ∧ coreDie (coreAt 40 20) = 14 := by decide +kernel

/-- Worked example of R266 to R279: 128 tiles on dies 0 to 127 make 16 records; virtual core (200, 20) is core 7,240; its fold makes 19, and moves it to 34,824. -/
def wholeMap : Placement := ⟨256, 128, 0, mergeBlocks ((List.range 128).map (fun t => tileBlock 256 128 ((t % 16, t / 16), t))), []⟩
theorem test_placement_records : wholeMap.blocks.length = 16 ∧ wholeMap.blocks.take 4 =
    [⟨0, 0, 192, 16, 0, 0⟩, ⟨192, 0, 64, 16, 0, 16⟩, ⟨0, 16, 128, 16, 64, 16⟩, ⟨128, 16, 128, 16, 0, 32⟩] := by decide +kernel
theorem test_placement_core : wholeMap.locate 200 20 = some 7240 ∧ (wholeMap.uncover 200 20).blocks.length = 19 ∧
    nearest 7240 ((List.range 256).map (136 * 256 + ·) ++ (List.range 16).map (128 * 256 + ·)) = some 34824 ∧ coreDist 7240 34824 = 140 ∧ coreDist 7240 (128 * 256) = 180 := by decide +kernel

/-- Worked example of R323: ring 40 of 64 slots, head and tail 63, takes the doorbell 0. -/
def ringed : State := ((((((({ ready with host := { HostSide.reset with inReset := [(0, 1)] } } : State).wr (HID_FN_ID.EN 1) 1).wr RST_BOOT_STAT.STATE 1).wr (RING_CFG.FUNC 40) 1).wr (RING_CFG.LOG2SIZE 40) 6).wr
  (RING_STAT.STATE 40) 1).wr (RING_HEAD.HEAD 40) 63).wr (RING_TAIL.TAIL 40) 63
theorem test_doorbell_wraps : (match exec (.sqDoorbell 1 40 0) ringed with
    | .next t => decide (t.rd (RING_TAIL.TAIL 40) = 0 ∧ t.rd (RING_STAT.ERR 40) = 0)
    | _ => false) = true := by decide
theorem test_doorbell_beyond : (match exec (.sqDoorbell 1 40 64) ringed with
    | .next t => decide (t.rd (RING_TAIL.TAIL 40) = 63 ∧ t.rd (RING_STAT.ERR 40) ≠ 0)
    | _ => false) = true := by decide

/-- Worked example of R360: the third crossing of lane 37 at port 23 within 600 s makes it BAD, and lane 47 takes its logical lane. -/
def lane37 : State := { ((((ready.wr (OE_STAT.INSERVICE 7) 1).wr (OE_LANE_STAT.HSTATE 7 37) 1).wr (OE_LANE_STAT.LOGICAL 7 37) 5).wr (OE_LANE_STAT.HSTATE 7 47) 2) with
  ptime := 431000000000, opt := { Optics.reset with cross := [(48 * 7 + 37, [0, 212000000000])] } }
theorem test_third_crossing : (match exec (.laneHealthInterval 7 ⟨List.replicate 37 0 ++ [2100000], []⟩) lane37 with
    | .next t => decide (t.rd (OE_LANE_STAT.HSTATE 7 37) = 3 ∧ t.rd (OE_LANE_STAT.HSTATE 7 36) = 0)
    | _ => false) = true := by decide +kernel

/-- R361: 14 good lanes run at width 12; 15 at width 15. -/
theorem test_port_width : widthFor 14 3 = 1 ∧ widthFor 15 3 = 0 ∧ widthFor 11 3 = 2 ∧ widthFor 7 3 = 3 := by decide

/-- Worked example of R662: ELS8 feeds OE16 and OE17, ports 48 to 53. -/
theorem test_els8_ports : elsPorts 8 = [48, 49, 50, 51, 52, 53] := by decide

/-- Worked example of R396: 10,000 bytes to a window, cut into three packets of 65, 65 and 30 cells. -/
theorem test_jexlink_cut : (jxCut { jxHdr0 with addr := 0x8001C5B41000 } (List.replicate 10000 0)).map (fun e => (e.1.addr, e.1.len, e.1.ndata + 1)) =
    [(0x8001C5B41000, 4096, 65), (0x8001C5B42000, 4096, 65), (0x8001C5B43000, 1808, 30)] := by decide +kernel

/-- Worked example of R487 and R488: region 5 asks for 816 W beside region 6; the first evaluation fails, the second passes. -/
def beside : State := ((ready.wr (RGN_PWR_STAT.STATE 6) 0).wr (RGN_PWR_BUD.BUDGET 6) 900).wr PWR_BUDGET.EFF_W 16000
def meas6 (power curr w6 : Nat) : PwrMeas := ⟨power, 4760, curr, power, [], List.replicate 6 0 ++ [w6], []⟩
theorem test_ante : ready.worstCase 5 = 816 ∧ beside.anteCause (meas6 15400 3235 860) 5 = some 0 ∧ beside.anteCause (meas6 15400 3235 700) 5 = some 1 ∧
    beside.anteCause (meas6 15400 3130 700) 5 = some 2 ∧ beside.anteCause (meas6 14900 3130 700) 5 = none := by decide

/-- Worked example of R492: the deepest state of partition 3's regions by its tolerance. -/
def tolerant (tol : Nat) : State := ((ready.wr (HID_PART.REGIONS 3) 0xF000).wr (HID_PART.EN 3) 1).wr (HID_PART_TOL.TOL 3) tol
theorem test_idle_state : (tolerant 0).deepest 12 = 2 ∧ (tolerant 25000).deepest 12 = 3 ∧ (tolerant 5000000).deepest 12 = 4 := by decide

/-- Worked example of R587: where a trick's half holds the records of core 29,037 and of CD113. -/
theorem test_trick_places : (unitRecords 113)[109]? = some (0x38C680, 128) ∧ (unitRecords 113)[256]? = some (0x4B9800, 2048) := by decide +kernel

/-- Check values of R639 over "123456789". -/
def digits : List Byte := [0x31, 0x32, 0x33, 0x34, 0x35, 0x36, 0x37, 0x38, 0x39]
theorem test_crc : crc32 digits = 0xCBF43926 ∧ crc32c digits = 0xE3069283 ∧ crc 32 0x04C11DB7 0xFFFFFFFF 0 false false digits = 0x0376E6E7 ∧
    crc 64 0x42F0E1EBA9EA3693 (2 ^ 64 - 1) (2 ^ 64 - 1) true true digits = 0x995DC9BBDF1939FA := by decide +kernel

/-- Worked example of R423: wire 37 reads 14/64 UI, and the group goes to its second spare. -/
theorem test_wire_repair : (match exec (.monitorSweep 53 1 9 37 14) { (ready.wr (RGN_PWR_STAT.STATE 5) 0).setMode 53 1 0 with links := { LinkSide.reset with used := [(grpKey 53 1 9, 1)] } } with
    | .next t => decide (Tab.get 0 t.links.used (grpKey 53 1 9) = 2)
    | _ => false) = true := by decide +kernel

end Sys2Proof.Tests
end

/-! PROOFS. The perimeter ring (R20 to R22): a unicast packet at its destination, a path and the breaks on it, the direction of a packet, and what the
marking and clearing of breaks leave as they were. Settles O24. -/

namespace Sys2Proof.Machine

/-! ### A packet at its own location -/

/-- A pass over a list keeps whatever each of its steps keeps. -/
theorem forL_keeps {σ α β : Type} (g : σ → β) (f : α → σ → σ) (hf : ∀ a s, g (f a s) = g s) (l : List α) (s : σ) :
    g (forL l f s) = g s := by
  induction l generalizing s with
  | nil => rfl
  | cons a l ih => exact (ih (f a s)).trans (hf a s)

/-- A packet that its location takes, and that waits for no core, is handled. -/
theorem State.receive_of_takes {s : State} {loc : Nat} {h : BulkHdr} (ht : s.Takes loc h) (f : State → State) :
    s.receive loc h none f = f s := by
  obtain ⟨hdie, hfirst, hidle⟩ := ht
  have hon : (decide (loc < 36864) && s.dieAbsent (coreDie loc)) = false := by simpa using hdie
  have hopen : (BulkHdr.request h && s.idling loc) = false := by simpa using hidle
  simp [State.receive, hon, hfirst, hopen]

/-- A unicast packet that is routed to its own location, and for which nothing waits there, is taken and delivered. -/
theorem unicast_here {s : State} {loc l : Nat} {cr : List Nat} {h : BulkHdr} {waits : State → Nat → Bool}
    (hroute : s.routeTo loc cr h.dest (laneOf h) = .here l) (hwait : waits s l = false) (ht : s.Takes loc h)
    (body : BulkBody) (f : Nat → State → State) : unicast loc cr h body waits f s = f l (s.took loc h) := by
  unfold unicast
  simp only [hroute, hwait]
  exact State.receive_of_takes ht _

/-- At the stop it is for, a packet has arrived (R170). -/
theorem State.routeTo_stop_self (s : State) (q : Nat) (cr : List Nat) (lane : Option Nat) :
    s.routeTo (stopAt q) cr (stopAt q) lane = .here (stopAt q) := by
  simp [State.routeTo, stopAt]

/-! ### Paths and breaks -/

/-- A path is clear where none of its segments and none of its stops is marked broken. -/
theorem State.ringClear_iff {s : State} {up : Bool} {a n : Nat} : s.ringClear up a n = true ↔
    (∀ g ∈ (ringPath up a n).1, g ∉ s.net.brkSegs) ∧ ∀ q ∈ (ringPath up a n).2, q ∉ s.net.brkStops := by
  simp [State.ringClear]

theorem State.ringClear_of_unbroken {s : State} (hg : s.net.brkSegs = []) (hq : s.net.brkStops = []) (up : Bool) (a n : Nat) :
    s.ringClear up a n = true := by
  simp [State.ringClear_iff, hg, hq]

/-- A rising path from stop `a` begins on segment `a`. -/
theorem mem_ringPath_up_self {a n : Nat} (ha : a < 52) (hn : 0 < n) : a ∈ (ringPath true a n).1 := by
  have hself : a % 52 = a := Nat.mod_eq_of_lt ha
  simpa [ringPath] using ⟨0, hn, by simpa using hself⟩

/-- A falling path from stop `a`, short of a whole turn, never crosses segment `a`. -/
theorem not_mem_ringPath_down_self {a n : Nat} (ha : a < 52) (hn : n < 52) : a ∉ (ringPath false a n).1 := by
  simp only [ringPath, List.mem_map, List.mem_range, Bool.false_eq_true, if_false]
  rintro ⟨i, hi, hseg⟩
  omega

/-- With only segment `a` broken, the rising way out of stop `a` is barred. -/
theorem State.ringClear_up_at_break {s : State} {a n : Nat} (hg : s.net.brkSegs = [a]) (ha : a < 52) (hn : 0 < n) :
    s.ringClear true a n = false := by
  rw [Bool.eq_false_iff]
  intro hclear
  exact (State.ringClear_iff.mp hclear).1 a (mem_ringPath_up_self ha hn) (by simp [hg])

/-- With only segment `a` broken, the falling way out of stop `a` is clear. -/
theorem State.ringClear_down_at_break {s : State} {a n : Nat} (hg : s.net.brkSegs = [a]) (hq : s.net.brkStops = []) (ha : a < 52) (hn : n < 52) :
    s.ringClear false a n = true := by
  refine State.ringClear_iff.mpr ⟨fun g hmem hbrk => ?_, by simp [hq]⟩
  obtain rfl : g = a := by simpa [hg] using hbrk
  exact not_mem_ringPath_down_self ha hn hmem

/-! ### The direction of a packet -/

/-- R21: on an unbroken ring, the direction with fewer segments, the rising one where both are equal. -/
theorem State.ringDir_of_unbroken {s : State} (hg : s.net.brkSegs = []) (hq : s.net.brkStops = []) (a q : Nat) :
    s.ringDir a q = some (decide (ringUp a q ≤ ringDown a q)) := by
  simp [State.ringDir, State.ringClear_of_unbroken hg hq]

/-- R22: where the rising way is the shorter but its first segment is the ring's one break, the falling way. -/
theorem State.ringDir_at_break {s : State} {a q : Nat} (hg : s.net.brkSegs = [a]) (hq : s.net.brkStops = []) (ha : a < 52) (hd : q < 52)
    (hne : q ≠ a) (hle : ringUp a q ≤ ringDown a q) : s.ringDir a q = some false := by
  have hup : 0 < ringUp a q := by unfold ringUp; omega
  have hdown : ringDown a q < 52 := Nat.mod_lt _ (by decide)
  simp [State.ringDir, hle, State.ringClear_up_at_break hg ha hup, State.ringClear_down_at_break hg hq ha hdown]

theorem State.ringOn_of_ringDir {s : State} {a : Nat} {p : RingPkt} {up : Bool} (hdir : s.ringDir a p.dst = some up) :
    s.ringOn a p = (s.updNet (fun n => { n with ring := n.ring ++ [⟨a, up, p⟩] })).emit (.ring a up p) := by
  simp [State.ringOn, hdir]

/-! ### The ring's commands -/

/-- The state once a packet that came over a segment to `stop` is taken off that segment. -/
def State.ringCome (s : State) (stop : Nat) (p : RingPkt) : State :=
  s.updNet (fun n => { n with ring := removeFirst (fun x => decide (x.next = stop) && decide (x.p = p)) n.ring })

theorem exec_ringPacket_at_dst {stop : Nat} {p : RingPkt} (h : p.dst = stop) (s : State) :
    exec (.ringPacket stop p) s = .next ((s.ringCome stop p).emit (.ringEnd stop p)) :=
  congrArg Host.Outcome.next (if_pos h)

theorem exec_ringPacket_beyond {stop : Nat} {p : RingPkt} (h : p.dst ≠ stop) (s : State) :
    exec (.ringPacket stop p) s = .next ((s.ringCome stop p).ringOn stop p) :=
  congrArg Host.Outcome.next (if_neg h)

/-- A detoured packet at the link of its destination stop leaves the bulk network there (R22). -/
theorem exec_ringDetour_at_dst {s : State} {h : BulkHdr} {p : RingPkt} (hdest : h.dest = stopAt p.dst)
    (ht : s.Takes (stopAt p.dst) { h with type := 0xA }) (cr : List Nat) :
    exec (.ringDetour (stopAt p.dst) cr h p) s = .next ((s.took (stopAt p.dst) { h with type := 0xA }).emit (.ringEnd p.dst p)) := by
  have hroute : s.routeTo (stopAt p.dst) cr { h with type := 0xA }.dest (laneOf { h with type := 0xA }) = .here (stopAt p.dst) :=
    hdest ▸ s.routeTo_stop_self p.dst cr _
  refine congrArg Host.Outcome.next ((unicast_here hroute rfl ht _ _).trans ?_)
  exact if_pos rfl

/-! ### Marking and clearing breaks -/

/-- The segments and the stops that are marked broken. -/
def State.ringMarks (s : State) : List Nat × List Nat := (s.net.brkSegs, s.net.brkStops)

/-- The state with a segment, or a stop, added to the marks of breaks. -/
def State.markSeg (s : State) (k : Nat) : State := s.updNet (fun n => { n with brkSegs := k :: n.brkSegs.filter (fun x => decide (x ≠ k)) })
def State.markStop (s : State) (k : Nat) : State := s.updNet (fun n => { n with brkStops := k :: n.brkStops.filter (fun x => decide (x ≠ k)) })

theorem State.breakSeg_eq {s : State} (hstw : s.bit GLB_STW_STAT.LOST_BOTH = false) (k : Nat) :
    s.breakSeg k = (s.markSeg k).ringResend (fun x => decide (x.seg = k)) := by
  simp [State.breakSeg, hstw, State.markSeg]

theorem State.breakStop_eq {s : State} (hstw : s.bit GLB_STW_STAT.LOST_BOTH = false) (k : Nat) :
    s.breakStop k = (s.markStop k).ringResend (fun x => decide (x.next = k)) := by
  simp [State.breakStop, hstw, State.markStop]

/-- A packet that goes on, waits or detours leaves the marks of breaks as they are. -/
theorem State.ringOn_ringMarks (s : State) (a : Nat) (p : RingPkt) : (s.ringOn a p).ringMarks = s.ringMarks := by
  unfold State.ringOn
  split
  · rfl
  · split <;> rfl

/-- So do all that a break takes, once they are resent. -/
theorem State.ringResend_ringMarks (s : State) (gone : RingHop → Bool) : (s.ringResend gone).ringMarks = s.ringMarks := by
  have hkeep : ∀ (x : RingHop) (t : State), (t.ringOn x.stop x.p).ringMarks = t.ringMarks := fun x t => t.ringOn_ringMarks x.stop x.p
  simp only [State.ringResend, forL_keeps State.ringMarks _ hkeep]
  rfl

/-- A break that takes no packet has nothing resent. -/
theorem State.ringResend_of_none_gone {s : State} {gone : RingHop → Bool} (h : ∀ x ∈ s.net.ring, gone x = false) : s.ringResend gone = s := by
  have hgone : s.net.ring.filter gone = [] := by simpa using h
  have hstay : s.net.ring.filter (fun x => !gone x) = s.net.ring := by simpa using h
  simp [State.ringResend, forL, State.updNet, hgone, hstay]

/-- An element put in front of a list that it is struck from. -/
theorem mem_cons_filter_ne {g k : Nat} {l : List Nat} : g ∈ k :: l.filter (fun x => decide (x ≠ k)) ↔ g = k ∨ g ∈ l := by
  by_cases hg : g = k <;> simp [hg]

/-- R22: the active steward marks a segment broken; beyond the networks that changes nothing where no packet is on it. -/
theorem exec_ringBreak_seg {s : State} (hstw : s.bit GLB_STW_STAT.LOST_BOTH = false) (k : Nat) :
    ∃ t, exec (.ringBreak true k) s = .next t ∧ (∀ g, g ∈ t.net.brkSegs ↔ g = k ∨ g ∈ s.net.brkSegs) ∧ t.net.brkStops = s.net.brkStops ∧
      ((∀ x ∈ s.net.ring, RingHop.seg x ≠ k) → { t with net := s.net } = s) := by
  obtain ⟨hsegs, hstops⟩ := Prod.mk.inj ((s.markSeg k).ringResend_ringMarks (fun x => decide (x.seg = k)))
  refine ⟨_, congrArg Host.Outcome.next (State.breakSeg_eq hstw k), fun g => ?_, hstops, fun hfree => ?_⟩
  · rw [hsegs]
    exact mem_cons_filter_ne
  · rw [State.ringResend_of_none_gone (s := s.markSeg k) (fun x hx => decide_eq_false (hfree x hx))]
    rfl

/-- R22: the active steward marks a stop broken; beyond the networks that changes nothing where no packet is on its way to it. -/
theorem exec_ringBreak_stop {s : State} (hstw : s.bit GLB_STW_STAT.LOST_BOTH = false) (k : Nat) :
    ∃ t, exec (.ringBreak false k) s = .next t ∧ (∀ g, g ∈ t.net.brkStops ↔ g = k ∨ g ∈ s.net.brkStops) ∧ t.net.brkSegs = s.net.brkSegs ∧
      ((∀ x ∈ s.net.ring, RingHop.next x ≠ k) → { t with net := s.net } = s) := by
  obtain ⟨hsegs, hstops⟩ := Prod.mk.inj ((s.markStop k).ringResend_ringMarks (fun x => decide (x.next = k)))
  refine ⟨_, congrArg Host.Outcome.next (State.breakStop_eq hstw k), fun g => ?_, hsegs, fun hfree => ?_⟩
  · rw [hstops]
    exact mem_cons_filter_ne
  · rw [State.ringResend_of_none_gone (s := s.markStop k) (fun x hx => decide_eq_false (hfree x hx))]
    rfl

/-- R22: the mark of a stop whose unit is back in service is cleared. -/
theorem exec_ringStopReturn_in {s : State} {k : Nat} (hstw : s.bit GLB_STW_STAT.LOST_BOTH = false) (hin : s.perimIn (144 + k) = true) :
    ∃ t, exec (.ringStopReturn k) s = .next t ∧ (∀ g, g ∈ t.net.brkStops ↔ g ≠ k ∧ g ∈ s.net.brkStops) ∧ { t with net := s.net } = s := by
  have hno : ¬ (s.bit GLB_STW_STAT.LOST_BOTH || !s.perimIn (144 + k)) = true := by simp [hstw, hin]
  exact ⟨_, congrArg Host.Outcome.next (if_neg hno), fun g => by simp [and_comm], rfl⟩

/-- R22: the mark of a stop whose unit is out of service stays. -/
theorem exec_ringStopReturn_out {s : State} {k : Nat} (hout : s.perimIn (144 + k) = false) : exec (.ringStopReturn k) s = .next s :=
  congrArg Host.Outcome.next (if_pos (by simp [hout]))

/-- Settles O24: a packet's direction by `ringDir` on the unbroken and the once broken ring, its arrival by ring and by detour, and the marks of breaks. -/
theorem ringPacketsTakeTheShorterUnbrokenWay : Obligations.RingPacketsTakeTheShorterUnbrokenWay := by
  unfold Obligations.RingPacketsTakeTheShorterUnbrokenWay
  intro s stop k p h cr hstop hdst up down come goes
  refine ⟨fun harr => exec_ringPacket_at_dst harr s, fun hne hg hq => ?_, fun hne hle hg hq => ?_,
    fun hdest ht => exec_ringDetour_at_dst hdest ht cr, fun hstw => ?_⟩
  · have hdir : (s.ringCome stop p).ringDir stop p.dst = some (decide (up ≤ down)) := State.ringDir_of_unbroken hg hq stop p.dst
    rw [exec_ringPacket_beyond hne, State.ringOn_of_ringDir hdir]
    rfl
  · have hdir : (s.ringCome stop p).ringDir stop p.dst = some false := State.ringDir_at_break hg hq hstop hdst hne hle
    rw [exec_ringPacket_beyond hne, State.ringOn_of_ringDir hdir]
    rfl
  · exact ⟨exec_ringBreak_seg hstw k, exec_ringBreak_stop hstw k, exec_ringStopReturn_in hstw, exec_ringStopReturn_out⟩

end Sys2Proof.Machine

/-! PROOFS. What the instructions of a core share: checks that pass, instructions that act on their task alone, and the numbers that bit vectors stand for. -/

namespace Sys2Proof.Machine

/-! ### Checks -/

/-- The checks of R680 pass where none of them fails. -/
theorem firstBad_eq_none {l : List (Bool × TrapReq)} : firstBad l = none ↔ ∀ e ∈ l, e.1 = false := by
  induction l with
  | nil => simp [firstBad]
  | cons e l ih =>
    obtain ⟨b, r⟩ := e
    cases b <;> simp [firstBad, ih]

@[simp] theorem badA_eq_false {r : BitVec 5} : badA r = false ↔ r.toNat < 8 := by simp [badA]
@[simp] theorem badV_eq_false {r : BitVec 5} : badV r = false ↔ r.toNat < 16 := by simp [badV]

/-! ### Instructions that act on their task alone -/

theorem State.updTask_congr {s : State} {c i : Nat} {f g : Task → Task} (h : f (s.task c i) = g (s.task c i)) : s.updTask c i f = s.updTask c i g := by
  unfold State.updTask
  rw [h]

@[simp] theorem Task.wA_st (t : Task) (r : Nat) (v : A48) : (t.wA r v).st = t.st := rfl
@[simp] theorem Task.wV_st (t : Task) (r : Nat) (v : V512) : (t.wV r v).st = t.st := rfl
@[simp] theorem Task.raise_st (t : Task) (f : Nat) : (t.raise f).st = t.st := rfl
@[simp] theorem Task.wM_st (t : Task) (r : Nat) (v : M64) : (t.wM r v).st = t.st := by
  unfold Task.wM
  split <;> rfl

/-- An instruction that acts on its task's registers alone, and whose checks pass, completes. -/
theorem completes_onTask {x : Instr} {s u : State} {c i size : Nat} {check : Task → Option TrapReq} {f g : Task → Task}
    (h : s.Issues c i size u) (hx : exec x s = .next (s.runInstr c size check (onTask c f))) (hc : check (u.task c i) = none)
    (hfg : f (u.task c i) = g (u.task c i)) (hg : (g (u.task c i)).st = (u.task c i).st) :
    Completes x s (u.updTask c i g) c i (fun t => t.advance size) :=
  completes_go h hx hc (congrArg Done.go (State.updTask_congr hfg)) (by rw [State.task_updTask_same, hg, h.st])

/-- A register form completes with the value of its function. -/
theorem completes_scalarRR {x : Instr} {s u : State} {c i : Nat} {rd ra rb : BitVec 5} {z : Bool} {f : W32 → W32 → W32} {v : W32}
    (h : s.Issues c i 4 u) (hx : exec x s = scalarRR c rd ra rb z f s) (hz : (z && decide (rb ≠ 0)) = false)
    (hv : f ((u.task c i).rg ra) ((u.task c i).rg rb) = v) :
    Completes x s (u.updTask c i (fun t => t.wg rd v)) c i (fun t => t.advance 4) :=
  completes_onTask h hx (by simpa [firstBad_eq_none] using hz) (by rw [hv]) (Task.wg_st _ _ _)

/-- So does an immediate form. -/
theorem completes_scalarRI {x : Instr} {s u : State} {c i : Nat} {rd ra : BitVec 5} {z : Bool} {f : W32 → W32} {v : W32}
    (h : s.Issues c i 4 u) (hx : exec x s = scalarRI c rd ra z f s) (hz : (z && decide (ra ≠ 0)) = false) (hv : f ((u.task c i).rg ra) = v) :
    Completes x s (u.updTask c i (fun t => t.wg rd v)) c i (fun t => t.advance 4) :=
  completes_onTask h hx (by simpa [firstBad_eq_none] using hz) (by rw [hv]) (Task.wg_st _ _ _)

/-! ### Bit vectors and their numbers -/

section Words

variable {w : Nat}

theorem sub_eq_ofInt (x y : BitVec w) : x - y = BitVec.ofInt w ((x.toNat : Int) - y.toNat) := by
  rw [Int.sub_eq_add_neg, BitVec.ofInt_add, BitVec.ofInt_neg]
  simp [BitVec.sub_eq_add_neg]

theorem shiftLeft_eq_ofNat (x : BitVec w) (n : Nat) : x <<< n = BitVec.ofNat w (x.toNat * 2 ^ n) := by
  apply BitVec.eq_of_toNat_eq
  simp [Nat.shiftLeft_eq]

theorem ushiftRight_eq_ofNat (x : BitVec w) (n : Nat) : x >>> n = BitVec.ofNat w (x.toNat / 2 ^ n) := by
  rw [← Nat.shiftRight_eq_div_pow, ← BitVec.toNat_ushiftRight, BitVec.ofNat_toNat, BitVec.setWidth_eq]

theorem sshiftRight_eq_ofInt (x : BitVec w) (n : Nat) : x.sshiftRight n = BitVec.ofInt w (x.toInt / 2 ^ n) := by
  have hshift : x.toInt / 2 ^ n = (x.sshiftRight n).toInt := by rw [BitVec.toInt_sshiftRight, Int.shiftRight_eq_div_pow]; norm_cast
  rw [hshift, BitVec.ofInt_toInt]

/-- The sum with a sign-extended immediate, of an operand read as a signed number. -/
theorem add_signExtend_toInt (x : BitVec w) {v : Nat} (k : BitVec v) : x + k.signExtend w = BitVec.ofInt w (x.toInt + k.toInt) := by
  rw [BitVec.ofInt_add, BitVec.ofInt_toInt, BitVec.signExtend]

/-- The same, of one read as a natural number. -/
theorem add_signExtend_toNat (x : BitVec w) {v : Nat} (k : BitVec v) : x + k.signExtend w = BitVec.ofInt w (x.toNat + k.toInt) := by
  rw [BitVec.ofInt_add, BitVec.ofInt_natCast, BitVec.ofNat_toNat, BitVec.setWidth_eq, BitVec.signExtend]

theorem append_eq_ofNat {v : Nat} (x : BitVec v) (y : BitVec w) : x ++ y = BitVec.ofNat (v + w) (x.toNat * 2 ^ w + y.toNat) := by
  apply BitVec.eq_of_toNat_eq
  have hx := x.isLt
  have hy := y.isLt
  have hlt : x.toNat * 2 ^ w + y.toNat < 2 ^ (v + w) := by
    rw [Nat.pow_add]
    nlinarith [Nat.mul_le_mul_right (2 ^ w) hx]
  rw [BitVec.toNat_append, BitVec.toNat_ofNat, Nat.mod_eq_of_lt hlt, ← Nat.shiftLeft_add_eq_or_of_lt hy, Nat.shiftLeft_eq]

/-- A choice by `<` is the choice by `≤` where it makes no difference at equality. -/
theorem ite_lt_eq_ite_le {α β : Type} [LinearOrder β] {p q : β} {a b : α} (h : p = q → a = b) : (if p < q then a else b) = if p ≤ q then a else b := by
  rcases lt_trichotomy p q with hlt | heq | hgt
  · rw [if_pos hlt, if_pos hlt.le]
  · rw [h heq, ite_self, ite_self]
  · rw [if_neg hgt.le.not_gt, if_neg hgt.not_ge]

theorem bitOf_eq_testBit (x i : Nat) : bitOf x i = x.testBit i := (Nat.testBit_eq_decide_div_mod_eq).symm

/-- `popc` counts one bits. -/
theorem popc_eq_countP (x w : Nat) : popc x w = (List.range w).countP (fun j => x.testBit j) := by
  induction w with
  | zero => rfl
  | succ w ih =>
    rw [popc, ih, List.range_succ, List.countP_append, bitOf_eq_testBit, Nat.add_comm]
    cases hbit : x.testBit w <;> simp [b2n, hbit]

theorem popc_toNat (x : BitVec w) (n : Nat) : popc x.toNat n = (List.range n).countP (fun j => x.getLsbD j) := popc_eq_countP _ _

end Words

/-- The high half of a product of 32-bit numbers, taken as signed. -/
theorem mulh_eq_ofInt (x y : W32) : ((x.signExtend 64 * y.signExtend 64) >>> 32).setWidth 32 = BitVec.ofInt 32 (x.toInt * y.toInt / 2 ^ 32) := by
  have hprod : x.signExtend 64 * y.signExtend 64 = BitVec.ofInt 64 (x.toInt * y.toInt) := by
    rw [BitVec.ofInt_mul, BitVec.signExtend, BitVec.signExtend]
  rw [hprod]
  apply BitVec.eq_of_toNat_eq
  simp only [BitVec.toNat_setWidth, BitVec.toNat_ushiftRight, BitVec.toNat_ofInt, Nat.shiftRight_eq_div_pow]
  omega

/-- The same, taken as unsigned. -/
theorem mulhu_eq_ofNat (x y : W32) : ((x.setWidth 64 * y.setWidth 64) >>> 32).setWidth 32 = BitVec.ofNat 32 (x.toNat * y.toNat / 2 ^ 32) := by
  have hprod : x.setWidth 64 * y.setWidth 64 = BitVec.ofNat 64 (x.toNat * y.toNat) := by
    rw [BitVec.ofNat_mul, BitVec.ofNat_toNat, BitVec.ofNat_toNat]
  rw [hprod]
  apply BitVec.eq_of_toNat_eq
  simp only [BitVec.toNat_setWidth, BitVec.toNat_ushiftRight, BitVec.toNat_ofNat, Nat.shiftRight_eq_div_pow]
  omega

/-- The number of leading zeros is fixed by the binade. -/
theorem clz32_eq {x : W32} {n : Nat} (hn : n ≤ 32) (hlt : x.toNat < 2 ^ (32 - n)) (hge : n < 32 → 2 ^ (31 - n) ≤ x.toNat) :
    clz32 x = BitVec.ofNat 32 n := by
  unfold clz32
  by_cases hx : x = 0
  · have hn : n = 32 := by
      by_contra hne
      have hpos := Nat.lt_of_lt_of_le (Nat.two_pow_pos _) (hge (by omega))
      simp [hx] at hpos
    rw [if_pos hx, hn]
    rfl
  · have hx0 : x.toNat ≠ 0 := fun h0 => hx (BitVec.eq_of_toNat_eq h0)
    have hn : n < 32 := by
      by_contra hne
      obtain rfl : n = 32 := by omega
      exact hx0 (by simpa using hlt)
    have hlog : x.toNat.log2 = 31 - n := (Nat.log2_eq_iff hx0).mpr ⟨hge hn, by rwa [show 31 - n + 1 = 32 - n by omega]⟩
    rw [if_neg hx, hlog, show 31 - (31 - n) = n by omega]

/-! ### The arms of `exec` -/

section Arms

variable (c : Nat) (rd ra rb : BitVec 5) (s : State)

theorem exec_add : exec (.add c rd ra rb) s = execAdd c rd ra rb s := rfl
theorem exec_sub : exec (.sub c rd ra rb) s = execSub c rd ra rb s := rfl
theorem exec_and : exec (.and c rd ra rb) s = execAnd c rd ra rb s := rfl
theorem exec_or : exec (.or c rd ra rb) s = execOr c rd ra rb s := rfl
theorem exec_xor : exec (.xor c rd ra rb) s = execXor c rd ra rb s := rfl
theorem exec_sll : exec (.sll c rd ra rb) s = execSll c rd ra rb s := rfl
theorem exec_srl : exec (.srl c rd ra rb) s = execSrl c rd ra rb s := rfl
theorem exec_sra : exec (.sra c rd ra rb) s = execSra c rd ra rb s := rfl
theorem exec_slt : exec (.slt c rd ra rb) s = execSlt c rd ra rb s := rfl
theorem exec_sltu : exec (.sltu c rd ra rb) s = execSltu c rd ra rb s := rfl
theorem exec_smin : exec (.smin c rd ra rb) s = execSmin c rd ra rb s := rfl
theorem exec_smax : exec (.smax c rd ra rb) s = execSmax c rd ra rb s := rfl
theorem exec_minu : exec (.minu c rd ra rb) s = execMinu c rd ra rb s := rfl
theorem exec_maxu : exec (.maxu c rd ra rb) s = execMaxu c rd ra rb s := rfl
theorem exec_mul : exec (.mul c rd ra rb) s = execMul c rd ra rb s := rfl
theorem exec_mulh : exec (.mulh c rd ra rb) s = execMulh c rd ra rb s := rfl
theorem exec_mulhu : exec (.mulhu c rd ra rb) s = execMulhu c rd ra rb s := rfl
theorem exec_clz : exec (.clz c rd ra rb) s = execClz c rd ra rb s := rfl
theorem exec_popc : exec (.popc c rd ra rb) s = execPopc c rd ra rb s := rfl
theorem exec_slli : exec (.slli c rd ra rb) s = execSlli c rd ra rb s := rfl
theorem exec_srli : exec (.srli c rd ra rb) s = execSrli c rd ra rb s := rfl
theorem exec_srai : exec (.srai c rd ra rb) s = execSrai c rd ra rb s := rfl

end Arms

/-- Settles O1: each register form is `scalarRR` of its function, whose value is the number that the rule names. -/
theorem scalarRegisterFormsGiveTheirResults : Obligations.ScalarRegisterFormsGiveTheirResults := by
  unfold Obligations.ScalarRegisterFormsGiveTheirResults
  intro s u c i rd ra rb h x y gives
  have signed : x.toInt = y.toInt → x = y := BitVec.eq_of_toInt_eq
  have unsigned : x.toNat = y.toNat → x = y := BitVec.eq_of_toNat_eq
  refine ⟨?add, ?sub, ?and, ?or, ?xor, ?sll, ?srl, ?sra, ?slt, ?sltu, ?smin, ?smax, ?minu, ?maxu, ?mul, ?mulh, ?mulhu, ?slli, ?srli, ?srai,
    fun n hn hlt hge hz => ?clz, fun hz => ?popc⟩
  case add => exact completes_scalarRR h (exec_add ..) rfl rfl
  case sub => exact completes_scalarRR h (exec_sub ..) rfl (sub_eq_ofInt x y)
  case and => exact completes_scalarRR h (exec_and ..) rfl rfl
  case or => exact completes_scalarRR h (exec_or ..) rfl rfl
  case xor => exact completes_scalarRR h (exec_xor ..) rfl rfl
  case sll => exact completes_scalarRR h (exec_sll ..) rfl (shiftLeft_eq_ofNat x _)
  case srl => exact completes_scalarRR h (exec_srl ..) rfl (ushiftRight_eq_ofNat x _)
  case sra => exact completes_scalarRR h (exec_sra ..) rfl (sshiftRight_eq_ofInt x _)
  case slt => exact completes_scalarRR h (exec_slt ..) rfl (by simp [bit32, BitVec.slt, x, y])
  case sltu => exact completes_scalarRR h (exec_sltu ..) rfl (by simp [bit32, BitVec.ult, x, y])
  case smin => exact completes_scalarRR h (exec_smin ..) rfl ((if_congr BitVec.slt_iff_toInt_lt rfl rfl).trans (ite_lt_eq_ite_le signed))
  case smax => exact completes_scalarRR h (exec_smax ..) rfl ((if_congr BitVec.slt_iff_toInt_lt rfl rfl).trans (ite_lt_eq_ite_le fun e => (signed e).symm))
  case minu => exact completes_scalarRR h (exec_minu ..) rfl ((if_congr BitVec.ult_iff_lt rfl rfl).trans (ite_lt_eq_ite_le unsigned))
  case maxu => exact completes_scalarRR h (exec_maxu ..) rfl ((if_congr BitVec.ult_iff_lt rfl rfl).trans (ite_lt_eq_ite_le fun e => (unsigned e).symm))
  case mul => exact completes_scalarRR h (exec_mul ..) rfl rfl
  case mulh => exact completes_scalarRR h (exec_mulh ..) rfl (mulh_eq_ofInt x y)
  case mulhu => exact completes_scalarRR h (exec_mulhu ..) rfl (mulhu_eq_ofNat x y)
  case slli => exact completes_scalarRR h (exec_slli ..) rfl (shiftLeft_eq_ofNat x _)
  case srli => exact completes_scalarRR h (exec_srli ..) rfl (ushiftRight_eq_ofNat x _)
  case srai => exact completes_scalarRR h (exec_srai ..) rfl (sshiftRight_eq_ofInt x _)
  case clz => exact completes_scalarRR h (exec_clz ..) (by simp [hz]) (clz32_eq hn hlt hge)
  case popc => exact completes_scalarRR h (exec_popc ..) (by simp [hz]) (congrArg _ (popc_toNat x 32))

end Sys2Proof.Machine

/-! PROOFS. The immediate and address forms, the mask instructions, and the transfers of control. Settles O2, O14 and O3. -/

namespace Sys2Proof.Machine

/-! ### The arms of `exec` -/

section Arms

variable (c : Nat) (rd ra rb : BitVec 5) (imm : BitVec 16) (s : State)

theorem exec_addi : exec (.addi c rd ra imm) s = execAddi c rd ra imm s := rfl
theorem exec_andi : exec (.andi c rd ra imm) s = execAndi c rd ra imm s := rfl
theorem exec_ori : exec (.ori c rd ra imm) s = execOri c rd ra imm s := rfl
theorem exec_xori : exec (.xori c rd ra imm) s = execXori c rd ra imm s := rfl
theorem exec_slti : exec (.slti c rd ra imm) s = execSlti c rd ra imm s := rfl
theorem exec_lui : exec (.lui c rd ra imm) s = execLui c rd ra imm s := rfl
theorem exec_addaI : exec (.addaI c rd ra imm) s = execAddaI c rd ra imm s := rfl
theorem exec_adda : exec (.adda c rd ra rb) s = execAdda c rd ra rb s := rfl
theorem exec_mova : exec (.mova c rd ra rb) s = execMova c rd ra rb s := rfl
theorem exec_mfal : exec (.mfal c rd ra rb) s = execMfal c rd ra rb s := rfl
theorem exec_mfah : exec (.mfah c rd ra rb) s = execMfah c rd ra rb s := rfl
theorem exec_mand : exec (.mand c rd ra rb) s = execMand c rd ra rb s := rfl
theorem exec_mor : exec (.mor c rd ra rb) s = execMor c rd ra rb s := rfl
theorem exec_mxor : exec (.mxor c rd ra rb) s = execMxor c rd ra rb s := rfl
theorem exec_mnot : exec (.mnot c rd ra rb) s = execMnot c rd ra rb s := rfl
theorem exec_mset : exec (.mset c rd ra rb) s = execMset c rd ra rb s := rfl
theorem exec_mgetl : exec (.mgetl c rd ra rb) s = execMgetl c rd ra rb s := rfl
theorem exec_mgeth : exec (.mgeth c rd ra rb) s = execMgeth c rd ra rb s := rfl
theorem exec_mpopc : exec (.mpopc c rd ra rb) s = execMpopc c rd ra rb s := rfl
theorem exec_beq : exec (.beq c rd ra imm) s = execBeq c rd ra imm s := rfl
theorem exec_bne : exec (.bne c rd ra imm) s = execBne c rd ra imm s := rfl
theorem exec_blt : exec (.blt c rd ra imm) s = execBlt c rd ra imm s := rfl
theorem exec_bge : exec (.bge c rd ra imm) s = execBge c rd ra imm s := rfl
theorem exec_bltu : exec (.bltu c rd ra imm) s = execBltu c rd ra imm s := rfl
theorem exec_bgeu : exec (.bgeu c rd ra imm) s = execBgeu c rd ra imm s := rfl
theorem exec_jal : exec (.jal c rd ra imm) s = execJal c rd ra imm s := rfl
theorem exec_jalr : exec (.jalr c rd ra rb) s = execJalr c rd ra rb s := rfl
theorem exec_loop : exec (.loop c rd ra imm) s = execLoop c rd ra imm s := rfl

end Arms

/-! ### Immediate and address forms (O2) -/

/-- The high part of a word that is read into a shorter one. -/
theorem high_eq_ofNat {w v : Nat} (x : BitVec w) (n : Nat) : (x >>> n).setWidth v = BitVec.ofNat v (x.toNat / 2 ^ n) := by
  rw [← BitVec.ofNat_toNat, BitVec.toNat_ushiftRight, Nat.shiftRight_eq_div_pow]

theorem setWidth_append_eq_ofNat {k v w : Nat} (x : BitVec k) (y : BitVec w) :
    x.setWidth v ++ y = BitVec.ofNat (v + w) (x.toNat * 2 ^ w + y.toNat) := by
  have hhigh : x.toNat % 2 ^ v * 2 ^ w ≡ x.toNat * 2 ^ w [MOD 2 ^ (v + w)] := by
    rw [Nat.pow_add]
    exact (Nat.mod_modEq _ _).mul_right' _
  rw [append_eq_ofNat, BitVec.toNat_setWidth]
  exact BitVec.eq_of_toNat_eq (hhigh.add_right y.toNat)

/-- Settles O2: the immediate forms are `scalarRI` of their functions, and the address forms act on their task alone. -/
theorem immediateAndAddressFormsGiveTheirResults : Obligations.ImmediateAndAddressFormsGiveTheirResults := by
  unfold Obligations.ImmediateAndAddressFormsGiveTheirResults
  intro s u c i rd ra rb imm h k x gives points
  refine ⟨?addi, ?andi, ?ori, ?xori, ?slti, fun hz => ?lui, fun hd ha => ⟨?addaI, ?adda⟩, fun hd => ?mova, fun ha => ⟨?mfal, ?mfah⟩⟩
  case addi => exact completes_scalarRI h (exec_addi ..) rfl (add_signExtend_toInt x imm)
  case andi => exact completes_scalarRI h (exec_andi ..) rfl (by rw [BitVec.ofNat_and]; simp [x, k])
  case ori => exact completes_scalarRI h (exec_ori ..) rfl (by rw [BitVec.ofNat_or]; simp [x, k])
  case xori => exact completes_scalarRI h (exec_xori ..) rfl (by rw [BitVec.ofNat_xor]; simp [x, k])
  case slti =>
    have himm : (imm.signExtend 32).toInt = imm.toInt := BitVec.toInt_signExtend_of_le (by decide)
    exact completes_scalarRI h (exec_slti ..) rfl (by simp [bit32, BitVec.slt, himm, x, k])
  case lui => exact completes_scalarRI h (exec_lui ..) (by simp [hz]) (by rw [shiftLeft_eq_ofNat, BitVec.toNat_setWidth_of_le (by decide)])
  case addaI => exact completes_onTask h (exec_addaI ..) (by simp [firstBad_eq_none, hd, ha]) (congrArg _ (add_signExtend_toNat ..)) (Task.wA_st ..)
  case adda => exact completes_onTask h (exec_adda ..) (by simp [firstBad_eq_none, hd, ha]) (congrArg _ (add_signExtend_toNat ..)) (Task.wA_st ..)
  case mova => exact completes_onTask h (exec_mova ..) (by simp [firstBad_eq_none, hd]) (congrArg _ (setWidth_append_eq_ofNat (v := 16) ..)) (Task.wA_st ..)
  case mfal => exact completes_onTask h (exec_mfal ..) (by simp [firstBad_eq_none, ha]) (congrArg _ (BitVec.ofNat_toNat ..).symm) (Task.wg_st ..)
  case mfah => exact completes_onTask h (exec_mfah ..) (by simp [firstBad_eq_none, ha]) (congrArg _ (high_eq_ofNat ..)) (Task.wg_st ..)

/-! ### Mask instructions (O14) -/

/-- Settles O14: the mask instructions act on their task alone. -/
theorem maskInstructionsGiveTheirResults : Obligations.MaskInstructionsGiveTheirResults := by
  unfold Obligations.MaskInstructionsGiveTheirResults
  intro s u c i rd ra rb h k x y masks gives
  refine ⟨fun hd ha => ⟨fun hb => ⟨?mand, ?mor, ?mxor⟩, fun hz => ?mnot⟩, fun hd => ?mset, fun ha => ⟨?mgetl, ?mgeth, ?mpopc⟩⟩
  case mand => exact completes_onTask h (exec_mand ..) (by simp [firstBad_eq_none, hd, ha, hb]) rfl (Task.wM_st ..)
  case mor => exact completes_onTask h (exec_mor ..) (by simp [firstBad_eq_none, hd, ha, hb]) rfl (Task.wM_st ..)
  case mxor => exact completes_onTask h (exec_mxor ..) (by simp [firstBad_eq_none, hd, ha, hb]) rfl (Task.wM_st ..)
  case mnot => exact completes_onTask h (exec_mnot ..) (by simp [firstBad_eq_none, hd, ha, hz]) rfl (Task.wM_st ..)
  case mset => exact completes_onTask h (exec_mset ..) (by simp [firstBad_eq_none, hd]) (congrArg _ (append_eq_ofNat ..)) (Task.wM_st ..)
  case mgetl => exact completes_onTask h (exec_mgetl ..) (by simp [firstBad_eq_none, ha]) (congrArg _ (BitVec.ofNat_toNat ..).symm) (Task.wg_st ..)
  case mgeth => exact completes_onTask h (exec_mgeth ..) (by simp [firstBad_eq_none, ha]) (congrArg _ (high_eq_ofNat ..)) (Task.wg_st ..)
  case mpopc =>
    exact completes_onTask h (exec_mpopc ..) (by simp [firstBad_eq_none, ha]) (congrArg _ (congrArg _ (popc_toNat ..))) (Task.wg_st ..)

/-! ### Transfers of control (O3) -/

/-- A branch goes to its target where its comparison holds, and on in sequence where it does not (R57). -/
theorem completes_branch {x : Instr} {s u : State} {c i : Nat} {rd ra : BitVec 5} {imm : BitVec 16} {p : W32 → W32 → Bool} {q : Bool}
    (h : s.Issues c i 4 u) (hx : exec x s = branchIf c rd ra imm p s) (hp : p ((u.task c i).rg rd) ((u.task c i).rg ra) = q) :
    Completes x s u c i (fun t => if q then t.transfer ((u.task c i).pc.toNat + 4 * imm.toInt) else t.advance 4) := by
  subst hp
  have target : (u.task c i).branchTo imm = (u.task c i).pc.toNat + 4 * imm.toInt := by rw [Task.branchTo, Int.mul_comm]
  rw [← target]
  by_cases hp : p ((u.task c i).rg rd) ((u.task c i).rg ra) = true
  · simp only [hp, if_true]
    exact completes_jump h hx rfl (if_pos hp) h.st
  · simp only [hp]
    exact completes_go h hx rfl (if_neg hp) h.st

/-- Settles O3. -/
theorem transfersGoWhereTheRulesSay : Obligations.TransfersGoWhereTheRulesSay := by
  unfold Obligations.TransfersGoWhereTheRulesSay
  intro s u c i rd ra rb imm h k x y target branch
  have hlink : ∀ v : W32, ((u.updTask c i (fun t => t.wg rd v)).task c i).st = .running := fun v => by
    rw [State.task_updTask_same, Task.wg_st, h.st]
  have hloop : ∀ l : Option LoopSt, ((u.updTask c i (fun t => { t with loop := l })).task c i).st = .running := fun l => by
    rw [State.task_updTask_same]; exact h.st
  refine ⟨?beq, ?bne, ?blt, ?bge, ?bltu, ?bgeu, fun hz => ?jal, fun hal => ?jalr, fun hz => ?loop⟩
  case beq => exact completes_branch h (exec_beq ..) (decide_eq_decide.mpr BitVec.toNat_inj.symm)
  case bne => exact completes_branch h (exec_bne ..) (decide_eq_decide.mpr BitVec.toNat_inj.symm.not)
  case blt => exact completes_branch h (exec_blt ..) rfl
  case bge => exact completes_branch h (exec_bge ..) ((decide_not ..).symm.trans (decide_eq_decide.mpr not_lt))
  case bltu => exact completes_branch h (exec_bltu ..) rfl
  case bgeu => exact completes_branch h (exec_bgeu ..) ((decide_not ..).symm.trans (decide_eq_decide.mpr not_lt))
  case jal =>
    have htarget : k.branchTo imm = target := by rw [Task.branchTo, Int.mul_comm]
    exact completes_jump h (exec_jal ..) (by simp [firstBad_eq_none, hz]) (congrArg _ htarget) (hlink _)
  case jalr => exact completes_jump h (exec_jalr ..) (by simpa [firstBad_eq_none] using hal) rfl (hlink _)
  case loop =>
    have hc : firstBad [(decide (ra ≠ 0), illegal 2)] = none := by simp [firstBad_eq_none, hz]
    intro first past
    by_cases hx : x.toNat = 0
    · simp only [hx, true_or, if_true]
      exact completes_jump h (exec_loop ..) hc (if_pos hx) (hloop _)
    · by_cases himm : imm = 0
      · have himm0 : imm.toNat = 0 := by rw [himm]; rfl
        simp only [hx, himm0, or_true, if_true, if_false]
        exact completes_go h (exec_loop ..) hc ((if_neg hx).trans (if_pos himm)) (hloop _)
      · have himm0 : imm.toNat ≠ 0 := fun h0 => himm (BitVec.eq_of_toNat_eq h0)
        simp only [hx, himm0, or_self, if_false]
        exact completes_go h (exec_loop ..) hc ((if_neg hx).trans (if_neg himm)) (hloop _)

end Sys2Proof.Machine

/-! PROOFS. Loads and stores (R57, R59, R40 to R42, R58): offsets, what a write of the scratchpad leaves in each byte, and the two shared meanings
`loadAt` and `storeAt`. Settles O4 and O5. -/

namespace Sys2Proof.Machine

/-! ### The arms of `exec` -/

section Arms

variable (c : Nat) (rd ra : BitVec 5) (imm : BitVec 16) (s : State)

theorem exec_ldW : exec (.ldW c rd ra imm) s = execLdW c rd ra imm s := rfl
theorem exec_ldH : exec (.ldH c rd ra imm) s = execLdH c rd ra imm s := rfl
theorem exec_ldHs : exec (.ldHs c rd ra imm) s = execLdHs c rd ra imm s := rfl
theorem exec_ldB : exec (.ldB c rd ra imm) s = execLdB c rd ra imm s := rfl
theorem exec_ldBs : exec (.ldBs c rd ra imm) s = execLdBs c rd ra imm s := rfl
theorem exec_ldA : exec (.ldA c rd ra imm) s = execLdA c rd ra imm s := rfl
theorem exec_vld : exec (.vld c rd ra imm) s = execVld c rd ra imm s := rfl
theorem exec_stW : exec (.stW c rd ra imm) s = execStW c rd ra imm s := rfl
theorem exec_stH : exec (.stH c rd ra imm) s = execStH c rd ra imm s := rfl
theorem exec_stB : exec (.stB c rd ra imm) s = execStB c rd ra imm s := rfl
theorem exec_stA : exec (.stA c rd ra imm) s = execStA c rd ra imm s := rfl
theorem exec_vst : exec (.vst c rd ra imm) s = execVst c rd ra imm s := rfl

end Arms

/-! ### Offsets and sign extension -/

/-- The offset of a load or store as a number modulo 2^48 (R57). -/
theorem Task.offset_eq (t : Task) (ra : BitVec 5) (imm : BitVec 16) :
    t.offset ra imm = (((t.rA ra.toNat).toNat + imm.toInt) % 2 ^ 48).toNat := by
  rw [Task.offset, add_signExtend_toNat, BitVec.toNat_ofInt]
  rfl

/-- That of a vector load or store, whose immediate counts 64 bytes (R59). -/
theorem Task.vOffset_eq (t : Task) (ra : BitVec 5) (imm : BitVec 16) :
    t.vOffset ra imm = (((t.rA ra.toNat).toNat + 64 * imm.toInt) % 2 ^ 48).toNat := by
  have hscaled : imm.signExtend 48 * 64 = BitVec.ofInt 48 (64 * imm.toInt) := by
    rw [BitVec.ofInt_mul, BitVec.mul_comm, BitVec.signExtend]
    rfl
  rw [Task.vOffset, hscaled, show t.rA ra.toNat = BitVec.ofInt 48 (t.rA ra.toNat).toNat by simp, ← BitVec.ofInt_add, BitVec.toNat_ofInt]
  simp

theorem toInt_ofNat_eq_sgn {w : Nat} (hw : 0 < w) (x : Nat) : (BitVec.ofNat w x).toInt = sgn w x := by
  have hpow : 2 ^ w = 2 * 2 ^ (w - 1) := by rw [← Nat.pow_succ', Nat.succ_eq_add_one, Nat.sub_add_cancel hw]
  rw [BitVec.toInt_eq_toNat_cond, BitVec.toNat_ofNat, sgn]
  exact if_congr (by omega) rfl (by push_cast; rfl)

theorem signExtend_ofNat {w : Nat} (hw : 0 < w) (v x : Nat) : (BitVec.ofNat w x).signExtend v = BitVec.ofInt v (sgn w x) := by
  rw [BitVec.signExtend, toInt_ofNat_eq_sgn hw]

/-! ### The bytes that a write leaves -/

theorem getD_leBytes {n j : Nat} (hj : j < n) (x : Nat) : (leBytes n x).getD j 0 = BitVec.ofNat 8 (x / 256 ^ j) := by
  induction n generalizing j x with
  | zero => omega
  | succ n ih =>
    cases j with
    | zero => simp [leBytes]
    | succ j => rw [leBytes, List.getD_cons_succ, ih (by omega), Nat.div_div_eq_div_mul, ← Nat.pow_succ']

/-- Which cell of memory holds what, after bytes are written. -/
theorem get_memWrite (u : Nat → Byte) (m : List Host.Cell) (a : Nat) (l : List Byte) (b : Nat) :
    Tab.get 0 (memWrite u m a l) b = if a ≤ b ∧ b < a + l.length then l.getD (b - a) 0 ^^^ u b else Tab.get 0 m b := by
  induction l generalizing m a with
  | nil => simp [memWrite, show ¬ (a ≤ b ∧ b < a) by omega]
  | cons x l ih =>
    rw [memWrite, ih, Tab.get_set, List.length_cons]
    rcases Nat.lt_trichotomy b a with hlt | rfl | hgt
    · simp [show ¬ a + 1 ≤ b by omega, show ¬ a ≤ b by omega, show b ≠ a by omega]
    · simp
    · obtain ⟨j, rfl⟩ : ∃ j, b = a + 1 + j := ⟨b - (a + 1), by omega⟩
      have hne : a + 1 + j ≠ a := by omega
      have hshift : a + 1 + j - a = j + 1 := by omega
      have hrange : (a ≤ a + 1 + j ∧ a + 1 + j < a + (l.length + 1)) ↔ (a + 1 ≤ a + 1 + j ∧ a + 1 + j < a + 1 + l.length) := by omega
      simp only [hrange, if_neg hne, hshift, Nat.add_sub_cancel_left, List.getD_cons_succ]

/-- A byte after bytes are written. -/
theorem State.byte_write (s : State) (a : Nat) (l : List Byte) (b : Nat) :
    (s.write a l).byte b = if a ≤ b ∧ b < a + l.length then l.getD (b - a) 0 else s.byte b := by
  have hunlisted : (s.write a l).unlisted = s.unlisted := rfl
  rw [State.byte, hunlisted]
  simp only [State.write, get_memWrite]
  split
  · rw [BitVec.xor_assoc, BitVec.xor_self, BitVec.xor_zero]
  · rfl

/-- Bytes depend on the memory and on the unspecified ranges alone, which an error leaves. -/
theorem ErrOnly.byte {s t : State} (h : ErrOnly s t) (b : Nat) : t.byte b = s.byte b := by
  unfold State.byte State.unlisted
  rw [h.mem, h.opens]

theorem freshCodes_errOnly (s : State) (c a n : Nat) : ErrOnly s (s.freshCodes c a n) := ecc_errOnly _ _

/-- A write that meets no uncorrectable error writes its bytes; beyond them it changes only records of errors. -/
theorem spWrite_eq_ok {s v : State} {c a : Nat} {l : List Byte} (h : s.spWrite c a l = (v, none)) :
    ∃ t, ErrOnly s t ∧ v = t.write (winBase c + a) l := by
  have hcheck : ∀ (p : Prop) [Decidable p] (t : State) (b : Nat), ErrOnly t (if p then (t, none) else t.spCheck c b 8).1 := by
    intro p _ t b
    split
    · exact ErrOnly.refl t
    · exact spCheck_errOnly t c b 8
  unfold State.spWrite at h
  dsimp only at h
  split at h
  · next hempty =>
    obtain rfl := List.length_eq_zero_iff.mp hempty
    exact ⟨s, ErrOnly.refl s, by simpa [State.write, memWrite] using h.symm⟩
  · split at h
    · simp at h
    · next s1 hfirst =>
      have h1 := hfirst ▸ hcheck (a % 8 = 0) s (a - a % 8)
      split at h
      · simp at h
      · next s2 hlast =>
        have h2 := hlast ▸ hcheck ((a + l.length) % 8 = 0) s1 (a + l.length - (a + l.length) % 8)
        exact ⟨_, (h1.trans h2).trans (freshCodes_errOnly s2 c a l.length), (Prod.mk.inj h).1.symm⟩

/-! ### Loads (O4) -/

section Access

variable {x : Instr} {s u : State} {c i n off : Nat} {bad : List (Bool × TrapReq)} {o : Task → Nat}

/-- The checks of an aligned access within the window pass where the checks before them do. -/
theorem access_checks {t : Task} (hbad : ∀ e ∈ bad, e.1 = false) (ho : o t = off) (hal : off % n = 0) (hin : off + n ≤ t.tbound - t.tbase) :
    firstBad (bad ++ t.accessBad (o t) n n) = none := by
  subst ho
  have haccess : ∀ e ∈ t.accessBad (o t) n n, e.1 = false := by simp [Task.accessBad, Task.inWindow, Task.window, hal, hin]
  exact firstBad_eq_none.mpr fun e he => (List.mem_append.mp he).elim (hbad e) (haccess e)

/-- A load waits for the writes before it, and else puts what it reads into its register. -/
theorem loads_of_loadAt {put : Task → Nat → Task} {put' : Nat → Task → Task} (h : s.Issues c i 4 u) (hx : exec x s = loadAt c n bad o put s)
    (hbad : ∀ e ∈ bad, e.1 = false) (ho : o (u.task c i) = off) (hput : ∀ y t, put t y = put' y t) (hst : ∀ y t, (put' y t).st = t.st) :
    off % n = 0 → off + n ≤ (u.task c i).tbound - (u.task c i).tbase →
      ((u.core c).toWrite i off n = true → exec x s = .next u) ∧
      ∀ v l, (u.core c).toWrite i off n = false → u.spRead c ((u.task c i).tbase + off) n = (v, .ok l) →
        Completes x s (v.updTask c i (put' (leNat l))) c i (fun t => t.advance 4) := by
  intro hal hin
  have hc := access_checks hbad ho hal hin
  subst ho
  refine ⟨fun hw => ?_, fun v l hw hr => ?_⟩
  · rw [hx, loadAt, State.runInstr_issues h _ _ hc, if_pos hw]
    rfl
  · have htask : v.task c i = u.task c i := by
      have herr := spRead_errOnly u c ((u.task c i).tbase + o (u.task c i)) n
      rw [hr] at herr
      exact herr.task c i
    have hrun : ((v.updTask c i (put' (leNat l))).task c i).st = .running := by rw [State.task_updTask_same, hst, htask, h.st]
    refine completes_go h hx hc ?_ hrun
    simp only [hw, hr]
    exact congrArg Done.go (State.updTask_congr (hput _ _))

/-- A store waits for the accesses before it, and else writes the bytes of its value. -/
theorem stores_of_storeAt {val : Task → Nat} {y : Nat} (h : s.Issues c i 4 u) (hx : exec x s = storeAt c n bad o val s)
    (hbad : ∀ e ∈ bad, e.1 = false) (ho : o (u.task c i) = off) (hv : val (u.task c i) = y) :
    off % n = 0 → off + n ≤ (u.task c i).tbound - (u.task c i).tbase →
      ((u.core c).toWrite i off n = true ∨ (u.core c).toRead i off n = true → exec x s = .next u) ∧
      ∀ v, (u.core c).toWrite i off n = false → (u.core c).toRead i off n = false →
        u.spWrite c ((u.task c i).tbase + off) (leBytes n y) = (v, none) →
        Completes x s v c i (fun t => t.advance 4) ∧
        ∀ a, v.byte a = if winBase c + (u.task c i).tbase + off ≤ a ∧ a < winBase c + (u.task c i).tbase + off + n
          then BitVec.ofNat 8 (y / 256 ^ (a - (winBase c + (u.task c i).tbase + off))) else u.byte a := by
  intro hal hin
  have hc := access_checks hbad ho hal hin
  subst ho hv
  refine ⟨fun hw => ?_, fun v hw hr hwrite => ?_⟩
  · rw [hx, storeAt, State.runInstr_issues h _ _ hc, if_pos (Bool.or_eq_true_iff.mpr hw)]
    rfl
  · obtain ⟨t, herr, rfl⟩ := spWrite_eq_ok hwrite
    refine ⟨completes_go h hx hc (by simp only [hw, hr, hwrite]; rfl) ?_, fun a => ?_⟩
    · exact (congrArg Task.st (herr.task c i)).trans h.st
    · rw [State.byte_write, leBytes_length, ← Nat.add_assoc, herr.byte]
      split
      · exact getD_leBytes (by omega) _
      · rfl

end Access

/-- Settles O4: each load is `loadAt` at its offset and width. -/
theorem loadsPutWhatTheyReadIntoTheirRegister : Obligations.LoadsPutWhatTheyReadIntoTheirRegister := by
  unfold Obligations.LoadsPutWhatTheyReadIntoTheirRegister
  intro s u c i rd ra imm h ha
  have ho := (u.task c i).offset_eq ra imm
  have hov := (u.task c i).vOffset_eq ra imm
  dsimp only
  refine ⟨?ldW, ?ldH, ?ldHs, ?ldB, ?ldBs, fun hd => ?ldA, fun hd => ?vld⟩
  case ldW =>
    exact loads_of_loadAt (put' := fun y t => t.wg rd (BitVec.ofNat 32 y)) h (exec_ldW ..) (by simp [ha]) ho (fun _ _ => rfl) (fun _ _ => Task.wg_st ..)
  case ldH =>
    exact loads_of_loadAt (put' := fun y t => t.wg rd (BitVec.ofNat 32 y)) h (exec_ldH ..) (by simp [ha]) ho (fun _ _ => rfl) (fun _ _ => Task.wg_st ..)
  case ldHs =>
    exact loads_of_loadAt (put' := fun y t => t.wg rd (BitVec.ofInt 32 (sgn 16 y))) h (exec_ldHs ..) (by simp [ha]) ho
      (fun _ _ => congrArg _ (signExtend_ofNat (by decide) ..)) (fun _ _ => Task.wg_st ..)
  case ldB =>
    exact loads_of_loadAt (put' := fun y t => t.wg rd (BitVec.ofNat 32 y)) h (exec_ldB ..) (by simp [ha]) ho (fun _ _ => rfl) (fun _ _ => Task.wg_st ..)
  case ldBs =>
    exact loads_of_loadAt (put' := fun y t => t.wg rd (BitVec.ofInt 32 (sgn 8 y))) h (exec_ldBs ..) (by simp [ha]) ho
      (fun _ _ => congrArg _ (signExtend_ofNat (by decide) ..)) (fun _ _ => Task.wg_st ..)
  case ldA =>
    exact loads_of_loadAt (put' := fun y t => t.wA rd.toNat (BitVec.ofNat 48 y)) h (exec_ldA ..) (by simp [ha, hd]) ho (fun _ _ => rfl) (fun _ _ => rfl)
  case vld =>
    exact loads_of_loadAt (put' := fun y t => t.wV rd.toNat (BitVec.ofNat 512 y)) h (exec_vld ..) (by simp [ha, hd]) hov (fun _ _ => rfl) (fun _ _ => rfl)

/-- Settles O5: each store is `storeAt` at its offset and width. -/
theorem storesWriteTheirBytesAndNoOthers : Obligations.StoresWriteTheirBytesAndNoOthers := by
  unfold Obligations.StoresWriteTheirBytesAndNoOthers
  intro s u c i rd ra imm h ha
  have ho := (u.task c i).offset_eq ra imm
  have hov := (u.task c i).vOffset_eq ra imm
  dsimp only
  refine ⟨?stW, ?stH, ?stB, fun hd => ?stA, fun hd => ?vst⟩
  case stW => exact stores_of_storeAt h (exec_stW ..) (by simp [ha]) ho rfl
  case stH => exact stores_of_storeAt h (exec_stH ..) (by simp [ha]) ho rfl
  case stB => exact stores_of_storeAt h (exec_stB ..) (by simp [ha]) ho rfl
  case stA => exact stores_of_storeAt h (exec_stA ..) (by simp [ha, hd]) ho rfl
  case vst => exact stores_of_storeAt h (exec_vst ..) (by simp [ha, hd]) hov rfl

end Sys2Proof.Machine

/-! PROOFS. The lane-by-lane vector instructions (R59, R60): bit fields of numbers, lanes of registers, and what a lane function leaves in each. Settles O12. -/

namespace Sys2Proof.Machine

/-! ### Bit fields -/

@[simp] theorem testBit_bitsOf (x lo w k : Nat) : (bitsOf x lo w).testBit k = (decide (k < w) && x.testBit (lo + k)) := by
  rw [bitsOf, Nat.testBit_mod_two_pow, Nat.testBit_div_two_pow, Nat.add_comm]

/-- A number with a field replaced, as the part above the field, the field, and the part below it. -/
theorem setBits_eq (x lo w v : Nat) : setBits x lo w v = 2 ^ lo * (2 ^ w * (x / 2 ^ lo / 2 ^ w) + v % 2 ^ w) + x % 2 ^ lo := by
  have hlow := Nat.div_add_mod x (2 ^ lo)
  have hhigh := Nat.div_add_mod (x / 2 ^ lo) (2 ^ w)
  have hsplit : x = bitsOf x lo w * 2 ^ lo + (2 ^ lo * (2 ^ w * (x / 2 ^ lo / 2 ^ w)) + x % 2 ^ lo) := by
    calc x = 2 ^ lo * (2 ^ w * (x / 2 ^ lo / 2 ^ w) + x / 2 ^ lo % 2 ^ w) + x % 2 ^ lo := by rw [hhigh, hlow]
      _ = _ := by rw [bitsOf]; ring
  have hrest : x - bitsOf x lo w * 2 ^ lo = 2 ^ lo * (2 ^ w * (x / 2 ^ lo / 2 ^ w)) + x % 2 ^ lo := by omega
  rw [setBits, hrest]
  ring

/-- Each bit of a number with a field replaced. -/
theorem testBit_setBits (x lo w v k : Nat) :
    (setBits x lo w v).testBit k = if lo ≤ k ∧ k < lo + w then v.testBit (k - lo) else x.testBit k := by
  rw [setBits_eq, Nat.testBit_two_pow_mul_add _ (Nat.mod_lt _ (Nat.two_pow_pos _)), Nat.testBit_two_pow_mul_add _ (Nat.mod_lt _ (Nat.two_pow_pos _))]
  rcases Nat.lt_or_ge k lo with hlow | hlow
  · simp [hlow, hlow.not_ge]
  · rcases Nat.lt_or_ge k (lo + w) with hin | hhigh
    · simp [hlow, hin, hlow.not_gt, show k - lo < w by omega]
    · simp [hlow, hlow.not_gt, hhigh.not_gt, show ¬ k - lo < w by omega, Nat.testBit_div_two_pow, show k - lo - w + w + lo = k by omega]

/-! ### Lanes -/

/-- Lane `j` after lane `i` is replaced. -/
theorem lane_setLane {w i j : Nat} (v : V512) (x : Nat) (hi : w * i + w ≤ 512) (hj : w * j + w ≤ 512) :
    lane w (setLane w v i x) j = if j = i then x % 2 ^ w else lane w v j := by
  apply Nat.eq_of_testBit_eq
  intro k
  simp only [lane, setLane, BitVec.toNat_ofNat, testBit_bitsOf, Nat.testBit_mod_two_pow, testBit_setBits]
  rcases Nat.lt_or_ge k w with hk | hk
  · have hbound : w * j + k < 512 := by omega
    by_cases hji : j = i
    · subst hji
      simp [hk, hbound]
    · have houtside : ¬ (w * i ≤ w * j + k ∧ w * j + k < w * i + w) := by
        rcases Nat.lt_or_gt_of_ne hji with hlt | hgt
        · have := Nat.mul_le_mul_left w (show j + 1 ≤ i from hlt)
          rw [Nat.mul_succ] at this
          omega
        · have := Nat.mul_le_mul_left w (show i + 1 ≤ j from hgt)
          rw [Nat.mul_succ] at this
          omega
      simp [hk, hbound, hji, houtside]
  · by_cases hji : j = i <;> simp [hji, hk.not_gt]

theorem lane_end {w n j : Nat} (hn : n ≤ 512 / w) (hj : j < n) : w * j + w ≤ 512 := by
  have hle := Nat.mul_le_mul_left w (show j + 1 ≤ 512 / w by omega)
  have hdiv := Nat.mul_div_le 512 w
  rw [Nat.mul_succ] at hle
  omega

theorem eachLane_succ (w n : Nat) (m : M64) (d : V512) (f : Nat → Nat × Nat) :
    eachLane w (n + 1) m d f = if m.getLsbD n then (setLane w (eachLane w n m d f).1 n (f n).1, (eachLane w n m d f).2 ||| (f n).2)
      else eachLane w n m d f := by
  simp [eachLane, List.range_succ]

/-- Every lane of a register after a lane function. -/
theorem lane_eachLane {w n : Nat} (m : M64) (d : V512) (f : Nat → Nat × Nat) (hn : n ≤ 512 / w) {j : Nat} (hj : j < 512 / w) :
    lane w (eachLane w n m d f).1 j = if j < n ∧ m.getLsbD j = true then (f j).1 % 2 ^ w else lane w d j := by
  induction n with
  | zero => simp [eachLane]
  | succ n ih =>
    specialize ih (by omega)
    rw [eachLane_succ]
    by_cases hm : m.getLsbD n = true
    · rw [if_pos hm, lane_setLane _ _ (lane_end hn (Nat.lt_succ_self n)) (lane_end le_rfl hj), ih]
      rcases Nat.lt_trichotomy j n with hlt | rfl | hgt
      · simp [hlt, hlt.ne, Nat.lt_succ_of_lt hlt]
      · simp [hm]
      · simp [hgt.ne', hgt.not_gt, show ¬ j < n + 1 by omega]
    · rw [if_neg hm, ih]
      by_cases hjn : j = n
      · subst hjn
        simp [hm]
      · simp only [show j < n + 1 ↔ j < n by omega]

/-- Where a predicate holds of some number below `n + 1`. -/
theorem exists_lt_succ_iff {n : Nat} {p : Nat → Prop} : (∃ j, j < n + 1 ∧ p j) ↔ (∃ j, j < n ∧ p j) ∨ p n := by
  constructor
  · rintro ⟨j, hj, hp⟩
    rcases Nat.lt_succ_iff_lt_or_eq.mp hj with hlt | rfl
    · exact .inl ⟨j, hlt, hp⟩
    · exact .inr hp
  · rintro (⟨j, hj, hp⟩ | hp)
    · exact ⟨j, Nat.lt_succ_of_lt hj, hp⟩
    · exact ⟨n, Nat.lt_succ_self n, hp⟩

/-- The flags of a lane function are those of its masked lanes, joined. -/
theorem testBit_eachLane (w n : Nat) (m : M64) (d : V512) (f : Nat → Nat × Nat) (b : Nat) :
    (eachLane w n m d f).2.testBit b = true ↔ ∃ j, j < n ∧ m.getLsbD j = true ∧ (f j).2.testBit b = true := by
  induction n with
  | zero => simp [eachLane]
  | succ n ih =>
    rw [eachLane_succ, exists_lt_succ_iff, ← ih]
    by_cases hm : m.getLsbD n = true <;> simp [hm]

/-- Do two results of a lane agree in the lane's bits and in the flags? -/
def SameLane (w : Nat) (p q : Nat × Nat) : Prop := p.1 % 2 ^ w = q.1 % 2 ^ w ∧ p.2 = q.2

theorem SameLane.refl (w : Nat) (p : Nat × Nat) : SameLane w p p := ⟨rfl, rfl⟩

/-- `eachLane` is what LaneWise says, of every lane function that agrees with its own. -/
theorem laneWise_eachLane {w n : Nat} {m : M64} {d : V512} {f g : Nat → Nat × Nat} (hn : n ≤ 512 / w) (hfg : ∀ j, SameLane w (f j) (g j)) :
    LaneWise w n m d g (eachLane w n m d f).1 (eachLane w n m d f).2 := by
  refine ⟨fun j hj => ?_, fun j hj hj' => ?_, fun b => ?_⟩
  · rw [lane_eachLane m d f hn (by omega), (hfg j).1]
    simp [hj]
  · rw [lane_eachLane m d f hn hj', if_neg (by omega)]
  · rw [testBit_eachLane]
    simp only [(hfg _).2]

/-- A lane function that raises nothing leaves the flags. -/
theorem laneWise_eachLane_zero {w n : Nat} {m : M64} {d : V512} {f : Nat → Nat × Nat} (hn : n ≤ 512 / w) (hf : ∀ j, (f j).2 = 0) :
    LaneWise w n m d f (eachLane w n m d f).1 0 := by
  obtain ⟨hin, hout, -⟩ := laneWise_eachLane (m := m) (d := d) hn fun j => SameLane.refl w (f j)
  exact ⟨hin, hout, fun b => by simp [hf]⟩

/-! ### Formats -/

theorem fmtBits_pos (k : Nat) : 0 < fmtBits k := by
  unfold fmtBits
  split <;> decide

theorem vecBad_eq_none {fmt : BitVec 4} {code fields range : Bool} (hfmt : fmt.toNat < 7) (hcode : code = false) (hfields : fields = false)
    (hrange : range = false) : vecBad fmt code fields range = none := by
  simp [vecBad, firstBad_eq_none, hfmt, hcode, hfields, hrange]

theorem sgn_inj {w x y : Nat} (h : sgn w x = sgn w y) : x % 2 ^ w = y % 2 ^ w := by
  have hx := Nat.mod_lt x (Nat.two_pow_pos w)
  have hy := Nat.mod_lt y (Nat.two_pow_pos w)
  unfold sgn at h
  split at h <;> split at h <;> omega

theorem Task.raise_zero (t : Task) : t.raise 0 = t := by simp [Task.raise]

/-! ### Lane-by-lane instructions (O12) -/

section Arms

variable (c : Nat) (rd ra rb : BitVec 5) (mask : BitVec 3) (fmt : BitVec 4) (s : State)

theorem exec_vadd : exec (.vadd c rd ra rb mask fmt) s = execVadd c rd ra rb mask fmt s := rfl
theorem exec_vsub : exec (.vsub c rd ra rb mask fmt) s = execVsub c rd ra rb mask fmt s := rfl
theorem exec_vmul : exec (.vmul c rd ra rb mask fmt) s = execVmul c rd ra rb mask fmt s := rfl
theorem exec_vfma : exec (.vfma c rd ra rb mask fmt) s = execVfma c rd ra rb mask fmt s := rfl
theorem exec_vmax : exec (.vmax c rd ra rb mask fmt) s = execVmax c rd ra rb mask fmt s := rfl
theorem exec_vmin : exec (.vmin c rd ra rb mask fmt) s = execVmin c rd ra rb mask fmt s := rfl
theorem exec_vsel : exec (.vsel c rd ra rb mask fmt) s = execVsel c rd ra rb mask fmt s := rfl
theorem exec_vbcast : exec (.vbcast c rd ra rb mask fmt) s = execVbcast c rd ra rb mask fmt s := rfl
theorem exec_vcvt : exec (.vcvt c rd ra rb mask fmt) s = execVcvt c rd ra rb mask fmt s := rfl

end Arms

section Lanes

variable {x : Instr} {s u : State} {c i : Nat} {rd ra rb : BitVec 5} {mask : BitVec 3} {fmt : BitVec 4}

/-- An instruction whose checks pass and whose body writes a vector register and joins flags completes. -/
theorem completes_wV {v : State} {check : Task → Option TrapReq} {body : Nat → State → Done} {r fl : Nat} {y : V512} (h : s.Issues c i 4 u)
    (hx : exec x s = .next (s.runInstr c 4 check body)) (hc : check (u.task c i) = none)
    (hb : body i u = .go (v.updTask c i (fun t => (t.wV r y).raise fl))) (hv : v.task c i = u.task c i) :
    Completes x s (v.updTask c i (fun t => (t.wV r y).raise fl)) c i (fun t => t.advance 4) :=
  completes_go h hx hc hb (by rw [State.task_updTask_same, Task.raise_st, Task.wV_st, hv, h.st])

/-- A lane-by-lane instruction writes the lanes of every function that agrees with its own. -/
theorem completes_vecLanes {op : Nat → Nat → Nat → Nat → Nat × Nat} {g : Nat → Nat × Nat} (h : s.Issues c i 4 u)
    (hx : exec x s = vecLanes c rd ra rb mask fmt op s) (hfmt : fmt.toNat < 7) (hd : rd.toNat < 16) (ha : ra.toNat < 16) (hb : rb.toNat < 16)
    (hg : ∀ j, SameLane (fmtBits fmt.toNat) (op fmt.toNat (lane (fmtBits fmt.toNat) ((u.task c i).rV rd.toNat) j)
      (lane (fmtBits fmt.toNat) ((u.task c i).rV ra.toNat) j) (lane (fmtBits fmt.toNat) ((u.task c i).rV rb.toNat) j)) (g j)) :
    ∃ v fl, LaneWise (fmtBits fmt.toNat) (512 / fmtBits fmt.toNat) ((u.task c i).rM mask.toNat) ((u.task c i).rV rd.toNat) g v fl ∧
      Completes x s (u.updTask c i (fun t => (t.wV rd.toNat v).raise fl)) c i (fun t => t.advance 4) :=
  ⟨_, _, laneWise_eachLane le_rfl hg, completes_wV h hx (vecBad_eq_none hfmt rfl (by simp [hd, ha, hb]) rfl) rfl rfl⟩

end Lanes

/-- The greater of two integers, by the bits of a lane. -/
theorem pickInt_true_mod (w x y : Nat) : pickInt true w x y % 2 ^ w = (if sgn w x ≤ sgn w y then y else x) % 2 ^ w := by
  rw [pickInt, apply_ite (· % 2 ^ w), apply_ite (· % 2 ^ w)]
  simp only [decide_eq_true_eq]
  exact ite_lt_eq_ite_le fun e => (sgn_inj e).symm

/-- The smaller. -/
theorem pickInt_false_mod (w x y : Nat) : pickInt false w x y % 2 ^ w = (if sgn w x ≤ sgn w y then x else y) % 2 ^ w := by
  rw [pickInt, apply_ite (· % 2 ^ w), apply_ite (· % 2 ^ w)]
  simp only [decide_eq_false_iff_not, ite_not]
  exact ite_lt_eq_ite_le fun e => sgn_inj e

/-- Settles O12: each lane-by-lane instruction is `eachLane` of its lane function. -/
theorem vectorLaneInstructionsWriteTheirMaskedLanes : Obligations.VectorLaneInstructionsWriteTheirMaskedLanes := by
  unfold Obligations.VectorLaneInstructionsWriteTheirMaskedLanes
  intro s u c i rd ra rb mask fmt h hfmt hd ha k w n m d a b writes op2
  have byKind_same : ∀ (ff : FFmt → Nat → Nat → Nat × Nat) (fi : Nat → Nat → Nat → Nat) (fi' : Nat → Nat → Nat),
      (∀ x y, fi w x y % 2 ^ w = fi' x y % 2 ^ w) → ∀ j, SameLane w (byKind ff fi fmt.toNat (a j) (b j)) (op2 ff fi' j) := by
    intro ff fi fi' hfi j
    simp only [byKind, op2]
    cases fmtOf fmt.toNat with
    | none => exact ⟨(Nat.mod_mod _ _).trans (hfi _ _), rfl⟩
    | some f => exact SameLane.refl ..
  refine ⟨fun hb => ⟨?vadd, ?vsub, ?vmul, ?vfma, ?vmax, ?vmin, ?vsel⟩, ?vbcast, fun hb => ?vcvt⟩
  case vadd => exact completes_vecLanes h (exec_vadd ..) hfmt hd ha hb (byKind_same _ _ _ fun _ _ => rfl)
  case vsub => exact completes_vecLanes h (exec_vsub ..) hfmt hd ha hb (byKind_same _ _ _ fun _ _ => rfl)
  case vmul => exact completes_vecLanes h (exec_vmul ..) hfmt hd ha hb (byKind_same _ _ _ fun _ _ => rfl)
  case vfma =>
    refine completes_vecLanes h (exec_vfma ..) hfmt hd ha hb fun j => ?_
    simp only [byKind]
    cases fmtOf fmt.toNat with
    | none => exact ⟨Nat.mod_mod _ _, rfl⟩
    | some f => exact SameLane.refl ..
  case vmax =>
    exact completes_vecLanes h (exec_vmax ..) hfmt hd ha hb (byKind_same _ _ (fun x y => if sgn w x ≤ sgn w y then y else x) (pickInt_true_mod w))
  case vmin =>
    exact completes_vecLanes h (exec_vmin ..) hfmt hd ha hb (byKind_same _ _ (fun x y => if sgn w x ≤ sgn w y then x else y) (pickInt_false_mod w))
  case vsel =>
    refine ⟨(eachLane w n m (k.rV rb.toNat) (fun j => (a j, 0))).1, 0, ?_, ?_⟩
    · exact laneWise_eachLane_zero le_rfl fun _ => rfl
    · refine completes_wV h (exec_vsel ..) (vecBad_eq_none hfmt rfl (by simp [hd, ha, hb]) rfl) ?_ rfl
      simp only [Task.raise_zero]
      rfl
  case vbcast =>
    refine ⟨(eachLane w n m d (fun _ => ((k.rg ra).toNat, 0))).1, 0, ?_, ?_⟩
    · exact laneWise_eachLane_zero le_rfl fun _ => rfl
    · refine completes_wV h (exec_vbcast ..) (vecBad_eq_none hfmt rfl (by simp [hd]) rfl) ?_ rfl
      simp only [Task.raise_zero]
      rfl
  case vcvt =>
    have hcode : rb.toNat % 16 = rb.toNat := Nat.mod_eq_of_lt (by omega)
    refine ⟨_, _, laneWise_eachLane (min_le_right _ _) fun _ => SameLane.refl .., ?_⟩
    refine completes_wV h (exec_vcvt ..) (vecBad_eq_none hfmt (by simp [hcode, hb]) (by simp [hd, ha]; omega) rfl) ?_ rfl
    simp only [hcode]
    rfl

end Sys2Proof.Machine

/-! PROOFS. The vector compares, approximations and reductions (R59, R60): mask bits, the order of floating-point values, and the maximum of a list by
its order. Settles O13. -/

namespace Sys2Proof.Machine

/-! ### Compares -/

/-- The fold of a compare: bit `j` of a mask takes the bit of `f` where the mask has it, and the flags are joined. -/
def eachBit (n : Nat) (m : M64) (d : Nat) (f : Nat → Bool × Nat) : Nat × Nat :=
  (List.range n).foldl (fun (st : Nat × Nat) j => if m.getLsbD j then (setBits st.1 j 1 (b2n (f j).1), st.2 ||| (f j).2) else st) (d, 0)

theorem eachBit_succ (n : Nat) (m : M64) (d : Nat) (f : Nat → Bool × Nat) :
    eachBit (n + 1) m d f = if m.getLsbD n then (setBits (eachBit n m d f).1 n 1 (b2n (f n).1), (eachBit n m d f).2 ||| (f n).2)
      else eachBit n m d f := by
  simp [eachBit, List.range_succ]

/-- Each bit of a number with one bit replaced. -/
theorem testBit_setBit (x i : Nat) (b : Bool) (k : Nat) : (setBits x i 1 (b2n b)).testBit k = if k = i then b else x.testBit k := by
  rw [testBit_setBits]
  by_cases hk : k = i
  · subst hk
    cases b <;> simp [b2n]
  · rw [if_neg hk, if_neg (by omega)]

theorem testBit_eachBit (n : Nat) (m : M64) (d : Nat) (f : Nat → Bool × Nat) (k : Nat) :
    (eachBit n m d f).1.testBit k = if k < n ∧ m.getLsbD k = true then (f k).1 else d.testBit k := by
  induction n with
  | zero => simp [eachBit]
  | succ n ih =>
    rw [eachBit_succ]
    by_cases hm : m.getLsbD n = true
    · rw [if_pos hm, testBit_setBit, ih]
      rcases Nat.lt_trichotomy k n with hlt | rfl | hgt
      · simp [hlt, hlt.ne, Nat.lt_succ_of_lt hlt]
      · simp [hm]
      · simp [hgt.ne', hgt.not_gt, show ¬ k < n + 1 by omega]
    · rw [if_neg hm, ih]
      by_cases hkn : k = n
      · subst hkn
        simp [hm]
      · simp only [show k < n + 1 ↔ k < n by omega]

theorem testBit_eachBit_flags (n : Nat) (m : M64) (d : Nat) (f : Nat → Bool × Nat) (b : Nat) :
    (eachBit n m d f).2.testBit b = true ↔ ∃ j, j < n ∧ m.getLsbD j = true ∧ (f j).2.testBit b = true := by
  induction n with
  | zero => simp [eachBit]
  | succ n ih =>
    rw [eachBit_succ, exists_lt_succ_iff, ← ih]
    by_cases hm : m.getLsbD n = true <;> simp [hm]

/-- `eachBit` is what MaskWise says. -/
theorem maskWise_eachBit (n : Nat) (m d : M64) (f : Nat → Bool × Nat) :
    MaskWise n m d f (BitVec.ofNat 64 (eachBit n m d.toNat f).1) (eachBit n m d.toNat f).2 := by
  refine ⟨fun j hj => ?_, fun b => testBit_eachBit_flags ..⟩
  rw [BitVec.getLsbD_ofNat, testBit_eachBit, decide_eq_true hj, Bool.true_and]
  rfl

section Compares

variable {x : Instr} {s u : State} {c i : Nat} {rd ra rb : BitVec 5} {mask : BitVec 3} {fmt : BitVec 4}

/-- A compare writes the bits of its function. -/
theorem completes_vecCompare {op : Nat → Nat → Nat → Bool × Nat} {g : Nat → Bool × Nat} (h : s.Issues c i 4 u)
    (hx : exec x s = vecCompare c rd ra rb mask fmt op s) (hfmt : fmt.toNat < 7) (hd : rd.toNat < 8) (ha : ra.toNat < 16) (hb : rb.toNat < 16)
    (hg : ∀ j, op fmt.toNat (lane (fmtBits fmt.toNat) ((u.task c i).rV ra.toNat) j) (lane (fmtBits fmt.toNat) ((u.task c i).rV rb.toNat) j) = g j) :
    ∃ v fl, MaskWise (512 / fmtBits fmt.toNat) ((u.task c i).rM mask.toNat) ((u.task c i).rM rd.toNat) g v fl ∧
      Completes x s (u.updTask c i (fun t => (t.wM rd.toNat v).raise fl)) c i (fun t => t.advance 4) := by
  obtain rfl := funext hg
  refine ⟨_, _, maskWise_eachBit .., completes_go h hx (vecBad_eq_none hfmt rfl (by simp [hd, ha, hb]) rfl) rfl ?_⟩
  rw [State.task_updTask_same, Task.raise_st, Task.wM_st, h.st]

/-- An approximation writes the lanes of its function, each with its free choice. -/
theorem completes_vecApprox {f : Nat → Nat → Nat × Nat} (h : s.Issues c i 4 u) (hx : exec x s = vecApprox c rd ra rb mask fmt f s)
    (hfmt : fmt = 0) (hd : rd.toNat < 16) (ha : ra.toNat < 16) :
    ∃ (v : V512) (fl : Nat), LaneWise 32 16 ((u.task c i).rM mask.toNat) ((u.task c i).rV rd.toNat)
        (fun j => f (lane (fmtBits fmt.toNat) ((u.task c i).rV ra.toNat) j) (u.drawMany.1 j)) v fl ∧
      Completes x s (u.drawMany.2.updTask c i (fun t => (t.wV rd.toNat v).raise fl)) c i (fun t => t.advance 4) := by
  subst hfmt
  exact ⟨_, _, laneWise_eachLane le_rfl fun _ => SameLane.refl .., completes_wV h hx (vecBad_eq_none (by decide) rfl (by simp [hd, ha]) rfl) rfl rfl⟩

end Compares

/-! ### The order of floating-point values (R60, R204) -/

/-- The rational number that a finite value is. -/
def finVal (neg : Bool) (m : Nat) (e : Int) : ℚ := (if neg then -(m : ℚ) else m) * 2 ^ e

theorem scaled_eq {neg : Bool} {m : Nat} {e e0 : Int} (h : e0 ≤ e) : (scaled neg m e e0 : ℚ) * 2 ^ e0 = finVal neg m e := by
  have hpow : (2 : ℚ) ^ (e - e0).toNat * 2 ^ e0 = 2 ^ e := by
    rw [← zpow_natCast, ← zpow_add₀ (by norm_num), Int.toNat_of_nonneg (by omega), Int.sub_add_cancel]
  rw [scaled, finVal, ← hpow]
  cases neg <;> simp only [if_true, Bool.false_eq_true, if_false] <;> push_cast <;> ring

/-- Where a value stands in the order that has −0 below +0: by its infinity, then by its number, then by the sign of a zero. -/
def FV.key : FV → ℤ ×ₗ ℚ ×ₗ ℕ
  | .nan => toLex (0, toLex (0, 0))
  | .inf neg => toLex (if neg then -1 else 1, toLex (0, 0))
  | .fin neg m e => toLex (0, toLex (finVal neg m e, if finVal neg m e = 0 ∧ neg = false then 1 else 0))

/-- The model's `<` with −0 below +0 is the order of the keys. -/
theorem FV.lt_true_iff {a b : FV} (ha : a.isNan = false) (hb : b.isNan = false) : FV.lt true a b = true ↔ a.key < b.key := by
  cases a with
  | nan => simp [FV.isNan] at ha
  | inf na =>
    cases b with
    | nan => simp [FV.isNan] at hb
    | inf nb => cases na <;> cases nb <;> simp [FV.lt, FV.key, Prod.Lex.toLex_lt_toLex]
    | fin nb n k => cases na <;> simp [FV.lt, FV.key, Prod.Lex.toLex_lt_toLex]
  | fin na m e =>
    cases b with
    | nan => simp [FV.isNan] at hb
    | inf nb => cases nb <;> simp [FV.lt, FV.key, Prod.Lex.toLex_lt_toLex]
    | fin nb n k =>
      have hpos : (0 : ℚ) < 2 ^ (if e < k then e else k) := zpow_pos (by norm_num) _
      have hx := scaled_eq (neg := na) (m := m) (show (if e < k then e else k) ≤ e by split <;> omega)
      have hy := scaled_eq (neg := nb) (m := n) (show (if e < k then e else k) ≤ k by split <;> omega)
      have hlt : scaled na m e (if e < k then e else k) < scaled nb n k (if e < k then e else k) ↔ finVal na m e < finVal nb n k := by
        rw [← hx, ← hy, mul_lt_mul_iff_left₀ hpos, Int.cast_lt]
      have hx0 : scaled na m e (if e < k then e else k) = 0 ↔ finVal na m e = 0 := by
        rw [← hx, mul_eq_zero_iff_right hpos.ne', Int.cast_eq_zero]
      have hy0 : scaled nb n k (if e < k then e else k) = 0 ↔ finVal nb n k = 0 := by
        rw [← hy, mul_eq_zero_iff_right hpos.ne', Int.cast_eq_zero]
      simp only [FV.lt, FV.key, Prod.Lex.toLex_lt_toLex, Bool.or_eq_true, Bool.and_eq_true, decide_eq_true_eq, hlt, hx0, hy0, lt_irrefl, false_or, true_and]
      refine or_congr_right ?_
      by_cases h0 : finVal na m e = 0
      · by_cases h1 : finVal nb n k = 0
        · cases na <;> cases nb <;> simp [h0, h1]
        · simp [h0, h1, Ne.symm h1]
      · simp [h0]
        intro heq
        simp [← heq, h0]

/-! ### The maximum of a list -/

/-- A fold that keeps the element with the greater key ends with one that no other exceeds. -/
theorem foldl_pick_max {α β : Type} [LinearOrder β] {key : α → β} {pick : α → α → α} {good : α → Prop}
    (hpick : ∀ b y, good b → good y → pick b y = if key b < key y then y else b) (l : List α) (x : α) (hx : good x) (hl : ∀ y ∈ l, good y) :
    l.foldl pick x ∈ x :: l ∧ ∀ y ∈ x :: l, key y ≤ key (l.foldl pick x) := by
  induction l generalizing x with
  | nil => simp
  | cons y l ih =>
    have hy := hl y List.mem_cons_self
    have hrest : ∀ z ∈ l, good z := fun z hz => hl z (List.mem_cons_of_mem y hz)
    rw [List.foldl_cons, hpick x y hx hy]
    by_cases hlt : key x < key y
    · rw [if_pos hlt]
      obtain ⟨hmem, hmax⟩ := ih y hy hrest
      refine ⟨List.mem_cons_of_mem x hmem, fun z hz => ?_⟩
      rcases List.mem_cons.mp hz with rfl | hz
      · exact hlt.le.trans (hmax y List.mem_cons_self)
      · exact hmax z hz
    · rw [if_neg hlt]
      obtain ⟨hmem, hmax⟩ := ih x hx hrest
      refine ⟨?_, fun z hz => ?_⟩
      · rcases List.mem_cons.mp hmem with hmem | hmem
        · exact List.mem_cons.mpr (.inl hmem)
        · exact List.mem_cons_of_mem x (List.mem_cons_of_mem y hmem)
      · rcases List.mem_cons.mp hz with rfl | hz
        · exact hmax z List.mem_cons_self
        · rcases List.mem_cons.mp hz with rfl | hz
          · exact (not_lt.mp hlt).trans (hmax x List.mem_cons_self)
          · exact hmax z (List.mem_cons_of_mem x hz)

/-! ### Reductions -/

/-- The masked lanes of a register, in order. -/
def maskedLanes (k : Nat) (m : M64) (a : V512) : List Nat := ((List.range (laneCount k)).filter (fun j => m.getLsbD j)).map (lane (fmtBits k) a)

theorem mem_maskedLanes {k : Nat} {m : M64} {a : V512} {r : Nat} :
    r ∈ maskedLanes k m a ↔ ∃ j, j < 512 / fmtBits k ∧ m.getLsbD j = true ∧ r = lane (fmtBits k) a j := by
  simp only [maskedLanes, laneCount, List.mem_map, List.mem_filter, List.mem_range, and_assoc, eq_comm]

theorem fmtOf_eq_none {k : Nat} (hlo : 5 ≤ k) (hhi : k < 7) : fmtOf k = none := by
  obtain rfl | rfl : k = 5 ∨ k = 6 := by omega
  · rfl
  · rfl

/-- VRMAX of an integer format: a masked lane that no other exceeds. -/
theorem vrmax_int {k : Nat} {m : M64} {a : V512} (u : Nat) (hk : fmtOf k = none) :
    (vrmax k m a u).2 = 0 ∧ ∀ y ∈ maskedLanes k m a,
      sgn (fmtBits k) y ≤ sgn (fmtBits k) (vrmax k m a u).1 ∧ (vrmax k m a u).1 ∈ maskedLanes k m a := by
  have hdef : vrmax k m a u = match maskedLanes k m a with
      | [] => (u % 2 ^ fmtBits k, 0)
      | x :: t => (t.foldl (pickInt true (fmtBits k)) x, 0) := by
    rw [vrmax, hk]
    rfl
  rw [hdef]
  cases maskedLanes k m a with
  | nil => simp
  | cons x t =>
    have hpick : ∀ b y, True → True → pickInt true (fmtBits k) b y = if sgn (fmtBits k) b < sgn (fmtBits k) y then y else b := by
      intro b y _ _
      simp [pickInt]
    obtain ⟨hmem, hmax⟩ := foldl_pick_max (good := fun _ => True) hpick t x trivial (fun _ _ => trivial)
    exact ⟨rfl, fun y hy => ⟨hmax y hy, hmem⟩⟩

/-- VRMAX of a floating format where a masked lane is NaN. -/
theorem vrmax_nan {k : Nat} {m : M64} {a : V512} {f : FFmt} (u : Nat) (hk : fmtOf k = some f) {y : Nat} (hy : y ∈ maskedLanes k m a)
    (hnan : (f.decode y).isNan = true) : vrmax k m a u = (f.canon.1, 16) := by
  have hany : (maskedLanes k m a).any (fun x => (f.decode x).isNan) = true := List.any_eq_true.mpr ⟨y, hy, hnan⟩
  rw [vrmax, hk]
  exact if_pos hany

/-- VRMAX of a floating format where none is: the most negative value where no lane is masked, else a masked lane that no other exceeds. -/
theorem vrmax_float {k : Nat} {m : M64} {a : V512} {f : FFmt} (u : Nat) (hk : fmtOf k = some f)
    (hnan : ∀ y ∈ maskedLanes k m a, (f.decode y).isNan = false) :
    (vrmax k m a u).2 = 0 ∧ (maskedLanes k m a = [] → (vrmax k m a u).1 = (f.infBits true).1) ∧
      ∀ y ∈ maskedLanes k m a, FV.lt true (f.decode (vrmax k m a u).1) (f.decode y) = false ∧ (vrmax k m a u).1 ∈ maskedLanes k m a := by
  have hany : ¬ (maskedLanes k m a).any (fun x => (f.decode x).isNan) = true := by
    rw [List.any_eq_true]
    rintro ⟨y, hy, hbad⟩
    simp [hnan y hy] at hbad
  have hdef : vrmax k m a u = match maskedLanes k m a with
      | [] => ((f.infBits true).1, 0)
      | x :: t => (t.foldl (fun b y => (f.pick true b y).1) x, 0) := by
    rw [vrmax, hk]
    exact if_neg hany
  rw [hdef]
  cases hl : maskedLanes k m a with
  | nil => simp
  | cons x t =>
    rw [hl] at hnan
    have hpick : ∀ b y, (f.decode b).isNan = false → (f.decode y).isNan = false →
        (f.pick true b y).1 = if (f.decode b).key < (f.decode y).key then y else b := by
      intro b y hb hy
      simp only [FFmt.pick, hb, hy, Bool.or_self, Bool.false_eq_true, if_false, ← FV.lt_true_iff hb hy]
      split <;> rfl
    obtain ⟨hmem, hmax⟩ := foldl_pick_max (good := fun y => (f.decode y).isNan = false) hpick t x (hnan x List.mem_cons_self)
      (fun y hy => hnan y (List.mem_cons_of_mem x hy))
    refine ⟨rfl, by simp, fun y hy => ⟨?_, hmem⟩⟩
    rw [Bool.eq_false_iff]
    intro hlt
    exact absurd ((FV.lt_true_iff (hnan _ hmem) (hnan y hy)).mp hlt) (not_lt.mpr (hmax y hy))

/-- A fold that adds where a condition holds is a sum over what satisfies it. -/
theorem foldl_add_if (p : Nat → Bool) (g : Nat → Int) (l : List Nat) (z : Int) :
    l.foldl (fun (n : Int) j => if p j then n + g j else n) z = z + ((l.filter p).map g).sum := by
  induction l generalizing z with
  | nil => simp
  | cons j l ih =>
    rw [List.foldl_cons, ih]
    cases hp : p j <;> simp [hp, add_assoc]

/-- VRSUM of an integer format: the sum of the masked lanes, modulo 2^32. -/
theorem vrsum_int {k : Nat} {m : M64} {a : V512} (hk : fmtOf k = none) : vrsum k m a =
    (((((List.range (laneCount k)).filter (fun j => m.getLsbD j)).map (fun j => sgn (fmtBits k) (lane (fmtBits k) a j))).sum % 2 ^ 32).toNat, 0) := by
  rw [vrsum, hk]
  dsimp only
  rw [foldl_add_if, zero_add, unsgn]
  rfl

section Arms

variable (c : Nat) (rd ra rb : BitVec 5) (mask : BitVec 3) (fmt : BitVec 4) (s : State)

theorem exec_vcmplt : exec (.vcmplt c rd ra rb mask fmt) s = execVcmplt c rd ra rb mask fmt s := rfl
theorem exec_vcmpeq : exec (.vcmpeq c rd ra rb mask fmt) s = execVcmpeq c rd ra rb mask fmt s := rfl
theorem exec_vrcp : exec (.vrcp c rd ra rb mask fmt) s = execVrcp c rd ra rb mask fmt s := rfl
theorem exec_vrsq : exec (.vrsq c rd ra rb mask fmt) s = execVrsq c rd ra rb mask fmt s := rfl
theorem exec_vexp2 : exec (.vexp2 c rd ra rb mask fmt) s = execVexp2 c rd ra rb mask fmt s := rfl
theorem exec_vrsum : exec (.vrsum c rd ra rb mask fmt) s = execVrsum c rd ra rb mask fmt s := rfl
theorem exec_vrmax : exec (.vrmax c rd ra rb mask fmt) s = execVrmax c rd ra rb mask fmt s := rfl

end Arms

/-- Settles O13: the compares by `eachBit`, the approximations by `eachLane`, VRSUM and VRMAX by what they are in each kind of format. -/
theorem vectorComparesApproximationsAndReductions : Obligations.VectorComparesApproximationsAndReductions := by
  unfold Obligations.VectorComparesApproximationsAndReductions
  intro s u c i rd ra rb mask fmt h hfmt ha k w n m a b compares approximates
  refine ⟨fun hd hb => ⟨?vcmplt, ?vcmpeq⟩, fun hd h0 => ⟨?vrcp, ?vrsq, ?vexp2⟩, fun hd => ⟨?vrsum, ?vrmax⟩⟩
  case vcmplt =>
    refine completes_vecCompare h (exec_vcmplt ..) hfmt hd ha hb fun j => ?_
    cases fmtOf fmt.toNat with
    | none => rfl
    | some f => exact if_congr Bool.or_eq_true_iff rfl rfl
  case vcmpeq =>
    refine completes_vecCompare h (exec_vcmpeq ..) hfmt hd ha hb fun j => ?_
    cases fmtOf fmt.toNat <;> rfl
  case vrcp => exact completes_vecApprox h (exec_vrcp ..) h0 hd ha
  case vrsq => exact completes_vecApprox h (exec_vrsq ..) h0 hd ha
  case vexp2 => exact completes_vecApprox h (exec_vexp2 ..) h0 hd ha
  case vrsum =>
    refine ⟨_, _, completes_wV h (exec_vrsum ..) (vecBad_eq_none hfmt rfl (by simp [hd, ha]) rfl) rfl rfl, fun hint => ?_, fun f hf => ?_⟩
    · rw [vrsum_int (fmtOf_eq_none hint hfmt)]
      exact ⟨rfl, rfl⟩
    · rw [vrsum, hf]
      rfl
  case vrmax =>
    refine ⟨_, _, completes_wV (v := u.draw.2) h (exec_vrmax ..) (vecBad_eq_none hfmt rfl (by simp [hd, ha]) rfl) rfl rfl,
      fun hint => ?_, fun f hf => ⟨?_, fun hnone => ?_⟩⟩
    · obtain ⟨hflags, hmax⟩ := vrmax_int (m := m) (a := k.rV ra.toNat) u.draw.1 (fmtOf_eq_none hint hfmt)
      refine ⟨hflags, fun j hj hm => ?_⟩
      obtain ⟨hle, hmem⟩ := hmax _ (mem_maskedLanes.mpr ⟨j, hj, hm, rfl⟩)
      exact ⟨hle, mem_maskedLanes.mp hmem⟩
    · rintro ⟨j, hj, hm, hnan⟩
      exact Prod.mk.inj (vrmax_nan u.draw.1 hf (mem_maskedLanes.mpr ⟨j, hj, hm, rfl⟩) hnan)
    · have hclean : ∀ y ∈ maskedLanes fmt.toNat m (k.rV ra.toNat), (f.decode y).isNan = false := by
        intro y hy
        obtain ⟨j, hj, hm, rfl⟩ := mem_maskedLanes.mp hy
        exact hnone j hj hm
      obtain ⟨hflags, hempty, hmax⟩ := vrmax_float u.draw.1 hf hclean
      refine ⟨hflags, fun hoff => hempty ?_, fun j hj hm => ?_⟩
      · refine List.eq_nil_iff_forall_not_mem.mpr fun y hy => ?_
        obtain ⟨j, hj, hm, -⟩ := mem_maskedLanes.mp hy
        simp [hoff j hj] at hm
      · obtain ⟨hlt, hmem⟩ := hmax _ (mem_maskedLanes.mpr ⟨j, hj, hm, rfl⟩)
        exact ⟨hlt, mem_maskedLanes.mp hmem⟩

end Sys2Proof.Machine

/-! PROOFS. Instructions that may make their task WAITING (R34): what scheduling leaves of the slots, counters (R61, R62), barriers (R74), streams (R65 to
R67) and messages (R70). Settles O7, O8, O9 and O11. -/

namespace Sys2Proof.Machine

/-! ### Scheduling -/

/-- Whether a wait is over depends on what is waited for, not on the slots. -/
theorem Core.waitOver_congr {k k' : Core} (h : { k' with tasks := [] } = { k with tasks := [] }) (t : Task) : k'.waitOver t = k.waitOver t := by
  have hcounters : k'.counters = k.counters := (congrArg Core.counters h :)
  have hstreams : k'.streams = k.streams := (congrArg Core.streams h :)
  have hmsgs : k'.msgs = k.msgs := (congrArg Core.msgs h :)
  unfold Core.waitOver
  rw [hcounters, hstreams, hmsgs]

/-- A slot that does not wait, or whose wait is not over, does not wake. -/
theorem wakeOne_keeps {k : Core} {j : Nat} (hj : (k.task j).st = .waiting → k.waitOver (k.task j) = false) (st : Core × List (Option WaitCond)) (i : Nat)
    (hst : st.1.task j = k.task j ∧ { st.1 with tasks := [] } = { k with tasks := [] }) :
    (wakeOne st i).1.task j = k.task j ∧ { (wakeOne st i).1 with tasks := [] } = { k with tasks := [] } := by
  obtain ⟨htask, hrest⟩ := hst
  unfold wakeOne
  dsimp only
  split
  · next hwake =>
    refine ⟨?_, hrest⟩
    by_cases hij : j = i
    · subst hij
      simp only [htask, Core.waitOver_congr hrest, Bool.and_eq_true, decide_eq_true_eq] at hwake
      obtain ⟨⟨hwaits, hover⟩, -⟩ := hwake
      simp [hj hwaits] at hover
    · rw [Core.task_setTask_ne _ _ hij, htask]
  · exact ⟨htask, hrest⟩

theorem Core.wake_keeps {k : Core} {j : Nat} (hj : (k.task j).st = .waiting → k.waitOver (k.task j) = false) : k.wake.task j = k.task j := by
  have hfold : ∀ (l : List Nat) (st : Core × List (Option WaitCond)), (st.1.task j = k.task j ∧ { st.1 with tasks := [] } = { k with tasks := [] }) →
      (l.foldl wakeOne st).1.task j = k.task j ∧ { (l.foldl wakeOne st).1 with tasks := [] } = { k with tasks := [] } := by
    intro l
    induction l with
    | nil => exact fun st h => h
    | cons i l ih => exact fun st h => ih _ (wakeOne_keeps hj st i h)
  exact (hfold (slotsAfter k.last) (k, []) ⟨rfl, rfl⟩).1

/-- Only a READY slot is selected (R35). -/
theorem Core.select_keeps {k : Core} {j : Nat} (hj : (k.task j).st ≠ .ready) : k.select.1.task j = k.task j := by
  unfold Core.select
  split
  · rfl
  · split
    · next i hfind =>
      have hready : (k.task i).st = .ready := by simpa using List.find?_some hfind
      have hij : j ≠ i := fun e => hj (e ▸ hready)
      exact (Core.task_setTask_ne k { k.task i with st := .running } hij :)
    · rfl

/-- What scheduling a core does to the state: its slots, and where a task switch is counted, its counter. -/
theorem State.resched_cases (s : State) (c : Nat) :
    s.resched c = s.setCore c (s.core c).wake.select.1 ∨ s.resched c = (s.setCore c (s.core c).wake.select.1).perf c 12 1 := by
  unfold State.resched
  dsimp only
  split
  · exact .inr rfl
  · exact .inl rfl

theorem State.resched_core (s : State) (c : Nat) : (s.resched c).core c = (s.core c).wake.select.1 := by
  rcases s.resched_cases c with h | h
  · rw [h, State.core_setCore_same]
  · rw [h, State.perf_core, State.core_setCore_same]

theorem State.perf_mem (s : State) (c i n : Nat) : (s.perf c i n).mem = s.mem :=
  (congrArg State.mem (s.pcount_frame (coreDie c) (CD_PERF.COUNT (coreDie c) (coreN c) i) (CD_PERF_WRAP.WRAP (coreDie c) (coreN c)) i n).1 :)

theorem State.resched_mem (s : State) (c : Nat) : (s.resched c).mem = s.mem := by
  rcases s.resched_cases c with h | h
  · rw [h, State.setCore_mem]
  · rw [h, State.perf_mem, State.setCore_mem]

/-- A slot that is not READY and whose wait is not over is left by scheduling. -/
theorem State.resched_task {s : State} {c j : Nat} (hready : (s.task c j).st ≠ .ready)
    (hwait : (s.task c j).st = .waiting → (s.core c).waitOver (s.task c j) = false) : (s.resched c).task c j = s.task c j := by
  have hwake : (s.core c).wake.task j = s.task c j := Core.wake_keeps hwait
  rw [State.task_of_core (s.resched_core c), Core.select_keeps (by rwa [hwake]), hwake]

/-- An instruction that finds what it waits for not there makes its task WAITING for it, and changes no byte (R34). -/
theorem waits_of_wait {x : Instr} {s u : State} {c i size : Nat} {check : Task → Option TrapReq} {body : Nat → State → Done} {w : WaitCond}
    (h : s.Issues c i size u) (hx : exec x s = .next (s.runInstr c size check body)) (hc : check (u.task c i) = none) (hb : body i u = .wait u w)
    (hover : (u.core c).waitOver { u.task c i with st := .waiting, wait := some w } = false) :
    ∃ t, exec x s = .next t ∧ t.task c i = { u.task c i with st := .waiting, wait := some w } ∧ t.mem = u.mem := by
  have hexec : exec x s = .next ((u.updTask c i (fun t => { t with st := .waiting, wait := some w })).resched c) := by
    rw [hx, State.runInstr_issues h check body hc, hb]
    rfl
  have hcore : { (u.updTask c i (fun t => { t with st := .waiting, wait := some w })).core c with tasks := [] } = { u.core c with tasks := [] } := by
    rw [State.updTask, State.setTask, State.core_setCore_same]
    rfl
  refine ⟨_, hexec, ?_, State.resched_mem ..⟩
  rw [State.resched_task]
  · exact State.task_updTask_same ..
  · rw [State.task_updTask_same]
    exact TaskSt.noConfusion
  · intro _
    rw [Core.waitOver_congr hcore, State.task_updTask_same]
    exact hover

/-- An instruction that must wait for earlier work of its task is issued again (R58, R144). -/
theorem stalls_of_stall {x : Instr} {s u : State} {c i size : Nat} {check : Task → Option TrapReq} {body : Nat → State → Done}
    (h : s.Issues c i size u) (hx : exec x s = .next (s.runInstr c size check body)) (hc : check (u.task c i) = none) (hb : body i u = .stall u) :
    exec x s = .next u := by
  rw [hx, State.runInstr_issues h check body hc, hb]
  rfl

/-- A change of a core that keeps its slots keeps its tasks. -/
theorem State.task_updCore {s : State} {c : Nat} {f : Core → Core} (hf : (f (s.core c)).tasks = (s.core c).tasks) (i : Nat) :
    (s.updCore c f).task c i = s.task c i := by
  rw [State.task_of_core (State.core_updCore_same ..), State.task, Core.task, Core.task, hf]

/-! ### Counters (O7) -/

section Arms

variable (c : Nat) (cidx : BitVec 6) (sf : BitVec 1) (imm : BitVec 16) (ch : BitVec 3) (rsv : BitVec 20) (eng rsv2 : BitVec 2) (da : BitVec 3)
  (doff : BitVec 16) (rd ra rb : BitVec 5) (func : BitVec 11) (s : State)

theorem exec_waitGe : exec (.waitGe c cidx sf imm) s = execWaitGe c cidx sf imm s := rfl
theorem exec_cntAdd : exec (.cntAdd c cidx sf imm) s = execCntAdd c cidx sf imm s := rfl
theorem exec_cntSet : exec (.cntSet c cidx sf imm) s = execCntSet c cidx sf imm s := rfl
theorem exec_cntRd : exec (.cntRd c cidx sf imm) s = execCntRd c cidx sf imm s := rfl
theorem exec_syncArrive : exec (.syncArrive c ch rsv) s = execSyncArrive c ch rsv s := rfl
theorem exec_syncWait : exec (.syncWait c ch rsv) s = execSyncWait c ch rsv s := rfl
theorem exec_streamGather : exec (.streamGather c eng rsv2 da doff) s = execStreamGather c eng rsv2 da doff s := rfl
theorem exec_streamSend : exec (.streamSend c eng rsv2 da doff) s = execStreamSend c eng rsv2 da doff s := rfl
theorem exec_streamMcast : exec (.streamMcast c eng rsv2 da doff) s = execStreamMcast c eng rsv2 da doff s := rfl
theorem exec_streamRsend : exec (.streamRsend c eng rsv2 da doff) s = execStreamRsend c eng rsv2 da doff s := rfl
theorem exec_msgSend : exec (.msgSend c rd ra rb func) s = execMsgSend c rd ra rb func s := rfl

end Arms

theorem Task.wOperand_eq (t : Task) (sf : BitVec 1) (imm : BitVec 16) :
    t.wOperand sf imm = if sf = 0 then BitVec.ofNat 32 imm.toNat else t.rg (imm.extractLsb' 11 5) := by
  rw [Task.wOperand, BitVec.ofNat_toNat]

/-- The checks of a counter instruction (R54, R43) pass. -/
theorem counter_checks {t : Task} {cidx : BitVec 6} {sf : BitVec 1} {imm : BitVec 16} (hrsv : sf = 1 → imm.toNat % 2 ^ 11 = 0)
    (hidx : cidx.toNat < t.tccount) :
    firstBad [wBad sf imm, t.counterBad cidx.toNat] = none := by
  simpa [firstBad_eq_none, wBad, Task.counterBad, hidx] using hrsv

/-- CNT.ADD adds to its counter modulo 2^32; where the sum wraps, the counter's wrap flag is set, and no other register changes (R62, R154). -/
theorem State.cntAdd_spec (s : State) (c n : Nat) (v : W32) : let w := s.cntAdd c n v.toNat
    let held : W32 := Tab.get 0 (s.core c).counters n
    w.core c = { s.core c with counters := Tab.set 0 (s.core c).counters n (held + v) } ∧ { w with regs := s.regs, cores := s.cores } = s ∧
    (held.toNat + v.toNat < 2 ^ 32 → w.regs = s.regs) ∧
    (2 ^ 32 ≤ held.toNat + v.toNat → n < 32 → bitOf (w.rd (CD_CNT_WRAP_LO.WRAP (coreDie c) (coreN c))) n = true) := by
  unfold State.cntAdd
  dsimp only
  split
  · next hlt => exact ⟨State.core_setCore_same .., rfl, fun _ => rfl, fun hge _ => absurd hlt (by omega)⟩
  · next hge =>
    split
    · next hn =>
      refine ⟨State.core_setCore_same .., rfl, fun hlt => absurd hlt hge, fun _ _ => ?_⟩
      rw [State.wrBit, State.rd_wr_same, bitOf_eq_testBit, Nat.testBit_mod_two_pow, testBit_setBit, if_pos rfl]
      exact Bool.and_eq_true_iff.mpr ⟨decide_eq_true hn, rfl⟩
    · next hn => exact ⟨State.core_setCore_same .., rfl, fun hlt => absurd hlt hge, fun _ hlt => absurd hlt hn⟩

/-- Settles O7. -/
theorem counterInstructionsActOnTheirCounter : Obligations.CounterInstructionsActOnTheirCounter := by
  unfold Obligations.CounterInstructionsActOnTheirCounter
  intro s u c i cidx sf imm h k gs n held v hrsv hidx
  have hc : firstBad [wBad sf imm, k.counterBad cidx.toNat] = none := counter_checks hrsv hidx
  have hv : k.wOperand sf imm = v := k.wOperand_eq sf imm
  refine ⟨fun hle => ?_, fun hlt => ?_, fun hw => ⟨?_, ?_⟩, fun hw => ⟨?_, ?_⟩, fun hsf => ?_⟩
  · exact completes_go h (exec_waitGe ..) hc (if_pos (hv ▸ hle)) h.st
  · refine waits_of_wait h (exec_waitGe ..) hc ?_ (decide_eq_false (not_le.mpr hlt))
    exact hv ▸ if_neg (hv ▸ not_le.mpr hlt)
  · exact stalls_of_stall h (exec_cntAdd ..) hc (if_pos hw)
  · exact stalls_of_stall h (exec_cntSet ..) hc (if_pos hw)
  · refine completes_go h (exec_cntSet ..) hc ((if_neg (by simp [hw])).trans ?_) ?_
    · rw [← hv]
      rfl
    · exact (congrArg Task.st (State.task_updCore rfl i)).trans h.st
  · obtain ⟨hcore, hrest, hregs, hwrap⟩ := u.cntAdd_spec c n v
    refine ⟨_, completes_go h (exec_cntAdd ..) hc ((if_neg (by simp [hw])).trans ?_) ?_, hcore, hrest, hregs, hwrap⟩
    · rw [← hv]
      rfl
    · rw [State.task_of_core hcore]
      exact h.st
  · have hc' : firstBad [wBad sf imm, (decide (sf = 0), illegal 7), k.counterBad cidx.toNat] = none := by
      simpa [firstBad_eq_none, wBad, Task.counterBad, hidx, hsf] using hrsv hsf
    refine completes_go h (exec_cntRd ..) hc' rfl ?_
    rw [State.task_updTask_same, Task.wg_st, h.st]

/-! ### Barriers (O8) -/

/-- `t` is `s` but for the networks and what the panel has sent. -/
def NetOnly (s t : State) : Prop := { t with net := s.net, out := s.out } = s

theorem NetOnly.cores {s t : State} (h : NetOnly s t) : t.cores = s.cores := (congrArg State.cores h :)
theorem NetOnly.mem {s t : State} (h : NetOnly s t) : t.mem = s.mem := (congrArg State.mem h :)
theorem NetOnly.core {s t : State} (h : NetOnly s t) (c : Nat) : t.core c = s.core c := by rw [State.core, h.cores, State.core]

theorem SyncOnly.netOnly {s t : State} (h : SyncOnly s t) : NetOnly s t :=
  (congrArg (fun z : State => { z with net := s.net, out := s.out }) h :)

theorem NetOnly.trans {s t v : State} (h : NetOnly s t) (k : NetOnly t v) : NetOnly s v :=
  (congrArg (fun z : State => { z with net := s.net, out := s.out }) k :).trans h

/-- An arrival at a die's node, or at the root on a channel that is not the commit barrier's, changes the networks alone (R193). -/
theorem State.syncCount_netOnly {n b : Nat} (h : isDie n = true ∨ b ≠ 7) (s : State) (ph : Nat) : NetOnly s (s.syncCount n b ph) := by
  have hsend : ∀ (t : State) (m q ty arg : Nat), NetOnly s t → NetOnly s (t.syncSend m q ty 0 arg []) := fun t m q ty arg ht =>
    ht.trans (t.syncSend_syncOnly m q ty 0 arg []).netOnly
  unfold State.syncCount
  dsimp only
  split
  · split
    · split
      · rfl
      · split
        · exact hsend _ _ _ _ _ rfl
        · rfl
    · rfl
  · next hroot =>
    split
    · rw [if_neg (h.resolve_left hroot)]
      split
      · exact hsend _ _ _ _ _ rfl
      · rfl
    · rfl

/-- The core after it arrives on a channel, awaiting the release. -/
theorem State.arriveCore_core {c b : Nat} (h : isDie (coreDie c) = true ∨ b ≠ 7) (s : State) :
    (s.arriveCore c b).core c = { s.core c with barPend := setBits (s.core c).barPend b 1 1 } := by
  rw [State.arriveCore, (State.syncCount_netOnly h _ _).core, State.core_updCore_same]

theorem State.arriveCore_mem {c b : Nat} (h : isDie (coreDie c) = true ∨ b ≠ 7) (s : State) : (s.arriveCore c b).mem = s.mem :=
  (State.syncCount_netOnly h _ _).mem

/-- Whether or not a core arrives, its tasks and the memory are as they were. -/
theorem State.tryArrive_frame {b : Nat} (hb : b ≠ 7) (s : State) (c i : Nat) : (s.tryArrive c b).task c i = s.task c i ∧ (s.tryArrive c b).mem = s.mem := by
  unfold State.tryArrive
  dsimp only
  split
  · exact ⟨rfl, rfl⟩
  · exact ⟨(State.task_of_core (State.arriveCore_core (.inr hb) s)).trans rfl, State.arriveCore_mem (.inr hb) s⟩

/-- A core does not arrive before each of its tasks that takes part has arrived or is DONE (R74, R214). -/
theorem State.tryArrive_of_missing {s : State} {c b : Nat}
    (h : ∃ e ∈ (s.core c).tasks, e.2.loaded = true ∧ bitOf e.2.barmask b = true ∧ bitOf e.2.arrived b = false ∧ e.2.st ≠ .done) :
    s.tryArrive c b = s := by
  obtain ⟨e, he, hloaded, hmask, harrived, hdone⟩ := h
  have hmem : e ∈ (s.core c).inBarrier b := List.mem_filter.mpr ⟨he, by simp [hloaded, hmask]⟩
  have hall : ((s.core c).inBarrier b).all (fun e => bitOf e.2.arrived b || decide (e.2.st = .done)) = false :=
    List.all_eq_false.mpr ⟨e, hmem, by simp [harrived, hdone]⟩
  exact if_pos (by simp [hall])

/-- Settles O8. -/
theorem barrierInstructionsArriveAndWait : Obligations.BarrierInstructionsArriveAndWait := by
  unfold Obligations.BarrierInstructionsArriveAndWait
  intro s u c i ch h hch hmask k b mark waits
  have hc : k.syncBad ch 0 = none := by simpa [Task.syncBad, firstBad_eq_none, hmask, k] using hch
  have hb : b ≠ 7 := fun e => hch (BitVec.eq_of_toNat_eq e)
  refine ⟨fun harr => ?_, fun harr hw => ?_, fun harr hw => ⟨?_, State.tryArrive_of_missing⟩, fun hsince harr => ?_, fun hfree => ?_⟩
  · exact waits_of_wait h (exec_syncArrive ..) hc (if_pos harr) (by simpa [Core.waitOver] using harr)
  · exact stalls_of_stall h (exec_syncArrive ..) hc ((if_neg (by simp [b, k] at harr; simp [harr])).trans (if_pos hw))
  · refine completes_go h (exec_syncArrive ..) hc ((if_neg (by simp [b, k] at harr; simp [harr])).trans (if_neg (by simp [hw]))) ?_
    rw [(State.tryArrive_frame hb mark c i).1, State.task_updTask_same]
    exact h.st
  · exact waits_of_wait h (exec_syncWait ..) hc (if_pos (Bool.and_eq_true_iff.mpr ⟨hsince, harr⟩)) (by simpa [Core.waitOver] using harr)
  · have hgo : ¬ (bitOf k.since b && bitOf k.arrived b) = true := by
      rcases hfree with hno | hno <;> simp [hno]
    refine completes_go h (exec_syncWait ..) hc (if_neg hgo) ?_
    rw [State.task_updTask_same]
    exact h.st

/-! ### Streams (O9) -/

/-- A STREAM instruction whose descriptor lies aligned in the window behind no write: it waits for a full engine, or takes an entry. -/
theorem stream_takes_or_waits {x : Instr} {s u : State} {c i kind : Nat} {eng : BitVec 2} {da : BitVec 3} {doff : BitVec 16} (h : s.Issues c i 4 u)
    (hx : exec x s = streamInstr c kind eng 0 da doff s) :
    let k := u.task c i
    let o := (((k.rA da.toNat).toNat + doff.toInt) % 2 ^ 48).toNat
    o % 32 = 0 → o + 32 ≤ k.tbound - k.tbase → (u.core c).toWrite i o 32 = false →
    (4 ≤ ((u.core c).streams.filter (fun x => decide (x.eng = eng.toNat))).length → ∃ t, exec x s = .next t ∧
      t.task c i = { k with st := .waiting, wait := some (.engine eng.toNat) } ∧ t.mem = u.mem) ∧
    ∀ v l, ((u.core c).streams.filter (fun x => decide (x.eng = eng.toNat))).length < 4 → u.spRead c (k.tbase + o) 32 = (v, .ok l) →
      v.descChecks c k kind eng.toNat o (parseDesc l) = none →
      let entry : Machine.Stream := ⟨(v.core c).nextTag, eng.toNat, i, k.pc.toNat, kind, parseDesc l, false, false, [], false⟩
      let taken := (v.takeTag c).2.updCore c (fun q => { q with streams := q.streams ++ [entry] })
      ((taken.startStreams c).task c i).st = .running → Completes x s (taken.startStreams c) c i (fun t => t.advance 4) := by
  intro k o hal hin hw
  have ho : (k.rA da.toNat + doff.signExtend 48).toNat = o := by
    rw [add_signExtend_toNat, BitVec.toNat_ofInt]
    rfl
  have hc : firstBad [(decide ((0 : BitVec 2) ≠ 0), illegal 2), (decide ((k.rA da.toNat + doff.signExtend 48).toNat % 32 ≠ 0),
      descBad 0 eng.toNat (k.rA da.toNat + doff.signExtend 48).toNat),
      (!k.inWindow (k.rA da.toNat + doff.signExtend 48).toNat 32, bound 2 (k.rA da.toNat + doff.signExtend 48).toNat)] = none := by
    rw [ho]
    simp [firstBad_eq_none, Task.inWindow, Task.window, hal, hin]
  have hw' : ¬ (u.core c).toWrite i (k.rA da.toNat + doff.signExtend 48).toNat 32 = true := by simp [ho, hw]
  refine ⟨fun hfull => ?_, fun v l hfree hread hdesc => ?_⟩
  · exact waits_of_wait h hx hc ((if_neg hw').trans (if_pos hfull)) (decide_eq_false (not_lt.mpr hfull))
  · intro entry taken hrun
    refine completes_go h hx hc ((if_neg hw').trans ((if_neg (not_le.mpr hfree)).trans ?_)) hrun
    simp only [ho, k] at hread hdesc ⊢
    simp only [hread, hdesc]
    rfl

/-- Settles O9: the four STREAM instructions are `streamInstr` of their kind. -/
theorem streamInstructionsTakeAnEngineEntry : Obligations.StreamInstructionsTakeAnEngineEntry := by
  unfold Obligations.StreamInstructionsTakeAnEngineEntry
  intro s u c i kind eng da doff op h hop
  have hx : exec op s = streamInstr c kind eng 0 da doff s := by
    rcases hop with ⟨rfl, rfl⟩ | ⟨rfl, rfl⟩ | ⟨rfl, rfl⟩ | ⟨rfl, rfl⟩
    · exact exec_streamGather ..
    · exact exec_streamSend ..
    · exact exec_streamMcast ..
    · exact exec_streamRsend ..
  exact stream_takes_or_waits h hx

/-! ### Messages (O11) -/

/-- Settles O11. -/
theorem msgSendSendsTwoFlits : Obligations.MsgSendSendsTwoFlits := by
  unfold Obligations.MsgSendSendsTwoFlits
  intro s u c i target rd ra rb func h k g vx vy m hx hy hw hplace
  have hc : firstBad [(decide (s.rd (CD_PMAP_GRID.GX (coreDie c)) ≤ vx) || decide (s.rd (CD_PMAP_GRID.GY (coreDie c)) ≤ vy), (⟨2, 4, 4, none⟩ : TrapReq))] =
      none := by simp [firstBad_eq_none, hx, hy]
  have hw' : ¬ (u.core c).writing i = true := by simp [hw]
  refine ⟨fun hfull => ?_, fun hfree => ?_⟩
  · exact waits_of_wait h (exec_msgSend ..) hc ((if_neg hw').trans (if_pos hfull)) (decide_eq_false (not_lt.mpr hfull))
  · intro vc flits
    refine completes_go h (exec_msgSend ..) hc ((if_neg hw').trans ((if_neg (not_le.mpr hfree)).trans ?_)) ?_
    · simp only [vx, vy, g, k] at hplace
      simp only [hplace]
      rfl
    · rw [State.task, State.perf_core, State.core, (State.ctlOut_ctlOnly ..).cores]
      exact (congrArg Task.st (State.task_updCore rfl i)).trans h.st

end Sys2Proof.Machine

/-! PROOFS. The start of a stream of one short row (R65, R163, R67): one row is one packet, and what GATHER and SEND send. Settles O10. -/

namespace Sys2Proof.Machine

/-! ### One row, one packet -/

/-- A row of at most 1,024 bytes that may cross pages is one packet (R163). -/
theorem cutRow_short {n : Nat} (hpos : 0 < n) (hle : n ≤ 1024) (a : Nat) : cutRow false a n = [(0, n)] := by
  have hone : ceilDiv n 1024 = 1 := by unfold ceilDiv; omega
  simp [cutRow, hpos.ne', hone, hle]

theorem localRows_one {d : StreamDesc} (h : d.rowCount = 1) (base : Nat) : localRows d base = [(0, base + d.localOff)] := by
  simp [localRows, h]

theorem dataPackets_short {d : StreamDesc} (h : d.rowCount = 1) (hpos : 0 < d.rowBytes) (hle : d.rowBytes ≤ 1024) (base : Nat) :
    dataPackets d base = [(0, base + d.localOff, d.rowBytes)] := by
  simp [dataPackets, localRows_one h, cutRow_short hpos hle]

/-- A read of words none of which holds an error changes nothing (R131). -/
theorem spCheck_clean {s : State} {c a n : Nat} (h : ∀ e ∈ s.ecc, e.1 < (winBase c + a) / 8 ∨ (winBase c + a + n - 1) / 8 < e.1) :
    s.spCheck c a n = (s, none) := by
  have hhits : (if n = 0 then [] else s.ecc.filter (fun e => inRange e.1 ((winBase c + a) / 8) ((winBase c + a + n - 1) / 8 - (winBase c + a) / 8 + 1))) = [] := by
    split
    · rfl
    · refine List.filter_eq_nil_iff.mpr fun e he => ?_
      have hout := h e he
      have hle : (winBase c + a) / 8 ≤ (winBase c + a + n - 1) / 8 := Nat.div_le_div_right (by omega)
      simp only [inRange, Bool.and_eq_true, decide_eq_true_eq]
      omega
  unfold State.spCheck
  dsimp only
  rw [hhits]
  rfl

/-! ### A core with one stream -/

/-- The state with the one stream of core `c` replaced. -/
theorem State.updStream_single {s : State} {c : Nat} {x : Machine.Stream} (h : (s.core c).streams = [x]) (f : Machine.Stream → Machine.Stream) :
    s.updStream c x.id f = s.updCore c (fun k => { k with streams := [f x] }) := by
  simp [State.updStream, State.updCore, h, updFirst]

/-- The one READ_REQ of a GATHER of one row from a core, and what the core then holds. -/
theorem State.gatherRead_single {s : State} {c : Nat} {x : Machine.Stream} (h : (s.core c).streams = [x]) (hspace : x.d.space = 1) (target sp n : Nat) :
    let tag := (s.core c).nextTag
    (s.gatherRead c x.id x.d target 0 sp (0, n)).out =
        .bulk c 14 ((({ hdr0 with type := 4, plen := n, tag := tag, slot := x.d.slot, toff := x.d.roff }).dst target).src c) [] :: s.out ∧
      (s.gatherRead c x.id x.d target 0 sp (0, n)).core c = { s.core c with
        nextTag := (tag + 1) % 0xFFF0, streams := [{ x with xfers := x.xfers ++ [.read tag target sp n] }] } := by
  have hstreams : ((s.takeTag c).2.core c).streams = [x] := by
    rw [State.takeTag, State.core_updCore_same]
    exact h
  have hspace0 : ¬ x.d.space = 0 := by omega
  simp only [State.gatherRead, State.updStream_single hstreams, hspace0, if_false, Nat.zero_mul, Nat.add_zero]
  refine ⟨rfl, ?_⟩
  rw [State.inject, State.core, State.emit_cores, ← State.core, State.core_updCore_same, State.takeTag, State.core_updCore_same]

/-- The one packet of the data of a stream with one short row, to one core. -/
theorem State.sendTo_short {s : State} {c : Nat} {d : StreamDesc} (h : d.rowCount = 1) (hpos : 0 < d.rowBytes) (hle : d.rowBytes ≤ 1024) (id base target : Nat) :
    (s.sendTo c id d base target).out =
      .bulk c 14 ((((dataHdr d 0 2 (s.core c).nextTag 0 d.rowBytes)).dst target).src c) (s.bytes (winBase c + (base + d.localOff)) d.rowBytes) :: s.out := by
  rw [State.sendTo, dataPackets_short h hpos hle]
  rfl

/-! ### The start of a stream -/

/-- A stream as it starts: one that is no multicast has then sent what it sends. -/
def Stream.begun (x : Machine.Stream) : Machine.Stream := { x with started := true, sent := decide (x.kind ≠ 2) }

section Start

variable {s : State} {c target : Nat} {x : Machine.Stream}

/-- A GATHER of one short row starts with its READ_REQ. -/
theorem State.startStream_gather (hslot : x.slot < 4) (hkind : x.kind = 0) (hspace : x.d.space = 1) (hrows : x.d.rowCount = 1) (hpos : 0 < x.d.rowBytes)
    (hle : x.d.rowBytes ≤ 1024) (hplace : (s.pmap (coreDie c)).locate x.d.vx x.d.vy = some target) :
    s.startStream c x = (s.updStream c x.id Stream.begun).gatherRead c x.id x.d target 0
      ((s.task c x.slot).tbase + x.d.localOff) (0, x.d.rowBytes) := by
  have hplace' : ((s.updStream c x.id Stream.begun).pmap (coreDie c)).locate x.d.vx x.d.vy = some target := hplace
  have hspace0 : decide (x.d.space = 0) = false := by simp [hspace]
  have hbegun : (fun y : Machine.Stream => { y with started := true, sent := decide (y.kind ≠ 2) }) = Stream.begun := rfl
  simp only [State.startStream, hbegun, hkind, hslot, if_true, localRows_one hrows, hspace0, cutRow_short hpos hle, hplace', Option.getD_some]
  rfl

/-- A SEND of one short row to a core, whose words hold no error, starts with its WRITE. -/
theorem State.startStream_send (hslot : x.slot < 4) (hkind : x.kind = 1) (hspace : x.d.space = 1) (hrows : x.d.rowCount = 1) (hlcnt : x.d.lcntEn = 0)
    (hplace : (s.pmap (coreDie c)).locate x.d.vx x.d.vy = some target)
    (hecc : ∀ e ∈ s.ecc, e.1 < (winBase c + ((s.task c x.slot).tbase + x.d.localOff)) / 8 ∨
      (winBase c + ((s.task c x.slot).tbase + x.d.localOff) + x.d.rowBytes - 1) / 8 < e.1) :
    s.startStream c x = ((s.updStream c x.id Stream.begun).perf c 9 x.d.rowBytes).sendTo c x.id x.d
      (s.task c x.slot).tbase target := by
  have hplace' : ((s.updStream c x.id Stream.begun).pmap (coreDie c)).locate x.d.vx x.d.vy = some target := hplace
  have hclean : (s.updStream c x.id Stream.begun).spCheck c ((s.task c x.slot).tbase + x.d.localOff)
      x.d.rowBytes = (_, none) := spCheck_clean hecc
  have hbegun : (fun y : Machine.Stream => { y with started := true, sent := decide (y.kind ≠ 2) }) = Stream.begun := rfl
  simp only [State.startStream, hbegun, hkind, hslot, if_true, localRows_one hrows, hplace', Option.getD_some, List.foldl_cons, List.foldl_nil, hclean, hspace, hrows,
    Nat.one_mul, State.localInc, hlcnt, Nat.one_ne_zero, Nat.zero_ne_one, if_false, show ¬ (1 : Nat) = 2 by decide, show ¬ (1 : Nat) = 3 by decide]

end Start

/-- Counting an event of a core sends nothing and leaves the bytes. -/
theorem State.perf_frame (s : State) (c i n : Nat) : { s.perf c i n with regs := [], tel := Tel.reset } = { s with regs := [], tel := Tel.reset } :=
  (s.pcount_frame _ _ _ _ _).1

theorem State.perf_out (s : State) (c i n : Nat) : (s.perf c i n).out = s.out := (congrArg State.out (s.perf_frame c i n) :)

theorem State.perf_bytes (s : State) (c i n a m : Nat) : (s.perf c i n).bytes a m = s.bytes a m :=
  (congrArg (fun t : State => t.bytes a m) (s.perf_frame c i n) :)

/-- Settles O10. -/
theorem aNewStreamSendsItsPackets : Obligations.ANewStreamSendsItsPackets := by
  unfold Obligations.ANewStreamSendsItsPackets
  intro s c target x hslot hstarted hxfers hstreams hspace hrows hpos hle hplace at_ tag
  have hupd : s.updStream c x.id Stream.begun = s.updCore c (fun k => { k with streams := [x.begun] }) := State.updStream_single hstreams _
  refine ⟨fun hkind => ?_, fun hkind hlcnt hecc => ?_⟩
  · rw [State.startStream_gather hslot hkind hspace hrows hpos hle hplace, hupd]
    have hcore := State.core_updCore_same s c (fun k => { k with streams := [x.begun] })
    obtain ⟨hout, hafter⟩ := State.gatherRead_single (x := x.begun) (congrArg Core.streams hcore) hspace target at_ x.d.rowBytes
    rw [hcore] at hout hafter
    refine ⟨hout, hafter.trans ?_⟩
    simp [Stream.begun, hkind, hxfers, tag]
  · rw [State.startStream_send hslot hkind hspace hrows hlcnt hplace hecc, hupd, State.sendTo_short hrows hpos hle, State.perf_out, State.perf_bytes,
      State.perf_core, State.core_updCore_same]
    rfl

end Sys2Proof.Machine

/-! PROOFS. The matrix queue (R71 to R73, R107, R122): how its operations start and end, and an instruction that O15 lets enter it though it must wait.
Settles O16 and O15. -/

namespace Sys2Proof.Machine

theorem exec_matrixQueueStart (c : Nat) (mover : Bool) (s : State) : exec (.matrixQueueStart c mover) s = execMatrixQueueStart c mover s := rfl
theorem exec_matrixOpEnd (c : Nat) (mover : Bool) (ces : Nat) (ue : Bool) (s : State) :
    exec (.matrixOpEnd c mover ces ue) s = execMatrixOpEnd c mover ces ue s := rfl
theorem exec_tileSt (c : Nat) (w : FmtM) (s : State) : exec (.tileSt c w) s = execTileSt c w s := rfl

/-- A tile move at the head of the queue may start where it does not conflict with the running MMA (R73). -/
theorem firstMove_head {run : Option MEnt} {e : MEnt} {rest : List MEnt} (hmove : e.op.isMove = true)
    (hclear : ∀ p, run = some p → p.op.conflicts e.op = false) : firstMove run [] (e :: rest) = some (e, rest) := by
  have hany : ¬ (run.toList ++ []).any (fun p => p.op.conflicts e.op) = true := by
    cases run with
    | none => exact Bool.false_ne_true
    | some p => simp [hclear p rfl]
  rw [firstMove, if_pos hmove, if_neg hany]
  rfl

/-- Settles O16. -/
theorem matrixQueueStartsAndEndsItsOperations : Obligations.MatrixQueueStartsAndEndsItsOperations := by
  unfold Obligations.MatrixQueueStartsAndEndsItsOperations
  intro s c e rest
  dsimp only
  refine ⟨fun hq => ⟨fun w v hop harray hmover => ?mma, fun en hop => ?zmask, fun hmove hmover harray => ?move⟩, fun harray => ?array, fun hmover => ?mover⟩
  case mma =>
    have hfree : ((s.core c).array.isSome || (s.core c).mover.toList.any (fun p => p.op.conflicts e.op)) = false := by
      rw [harray, Option.isSome_none, Bool.false_or]
      cases hm : (s.core c).mover with
      | none => rfl
      | some p => simp [hmover p hm]
    rw [exec_matrixQueueStart]
    rw [hop] at hfree
    simp only [execMatrixQueueStart, hq, hop, hfree, Bool.false_eq_true, if_false]
  case zmask =>
    rw [exec_matrixQueueStart]
    simp only [execMatrixQueueStart, hq, hop, Bool.false_eq_true, if_false]
  case move =>
    have hfirst := firstMove_head (rest := rest) hmove harray
    rw [exec_matrixQueueStart]
    simp only [execMatrixQueueStart, hq, hmover, hfirst, Option.isSome_none, Bool.false_eq_true, if_false, if_true]
  case array =>
    rw [exec_matrixOpEnd]
    simp only [execMatrixOpEnd, harray, Bool.false_eq_true, if_false, if_true]
  case mover =>
    rw [exec_matrixOpEnd]
    simp only [execMatrixOpEnd, hmover, Bool.false_eq_true, if_false, if_true]

/-! ### A row that a multicast is still to read (O15) -/

/-- A running matrix task in slot 0 of core 0, with a window of 4,096 bytes. Its MCAST of the 16 bytes at offset 0 has started and has not sent its packets. -/
def multicasting : State :=
  ((State.reset.wr (RGN_PWR_STAT.STATE 0) 0).updTask 0 0 (fun t => { t with st := .running, loaded := true, tbound := 0x1000, mx := true })).updCore 0
    (fun k => { k with streams := [⟨0, 0, 0, 0, 2, { parseDesc [] with rowCount := 1, rowBytes := 16 }, true, false, [], false⟩] })

/-- That core after the fetch of an instruction of 8 bytes. -/
def multicastingFetched : State := (multicasting.fetch 0 0 8).1

/-- TILE.ST of tile 0, its rows at offset 0. -/
def storeTile0 : FmtM := { immB := 0, immA := 0, sub := 0, t := 0, fmt := 0, aa := 0, ab := 0, shape := 2, flags := 0 }

theorem multicasting_issues : multicasting.Issues 0 0 8 multicastingFetched :=
  ⟨by decide, by decide, by decide, Prod.ext rfl (by decide)⟩

/-- The TILE.ST would write bytes that the MCAST is still to read, so it is issued again (R58, R73). -/
theorem multicasting_stalls : exec (.tileSt 0 storeTile0) multicasting = .next multicastingFetched :=
  stalls_of_stall multicasting_issues (exec_tileSt ..) (by decide) (if_pos (by decide))

/-- Refutes O15: its condition on the streams of the task leaves out those that have started and still read their rows, a multicast whose packets are not sent
or that is pulled (`Stream.reading`). Such a stream holds up a TILE.ST onto its rows, so the TILE.ST does not complete. -/
theorem not_matrixInstructionsEnterTheQueue : ¬ Obligations.MatrixInstructionsEnterTheQueue := by
  unfold Obligations.MatrixInstructionsEnterTheQueue
  intro hall
  have hrows : ∀ r, r < 16 → (0 + r * 0) % 2 ^ 48 % 16 = 0 ∧ (0 + r * 0) % 2 ^ 48 + 64 ≤ 0x1000 - 0 := by decide
  have hfree : ∀ x ∈ (multicastingFetched.core 0).streams, x.kind = 2 ∧ x.started = true := by decide
  obtain ⟨t, hexec, hran⟩ := ((hall multicasting multicastingFetched 0 0 storeTile0 multicasting_issues (by decide) (by decide)).1
    (by decide) rfl rfl rfl rfl hrows).2 rfl (fun x hx _ => ⟨fun hk => by simp [(hfree x hx).1] at hk, fun hs => by simp [(hfree x hx).2] at hs⟩)
  obtain rfl : multicastingFetched = t := by
    rw [multicasting_stalls] at hexec
    exact Host.Outcome.next.inj hexec
  obtain ⟨htask, -⟩ := hran
  exact absurd (congrArg Task.pc htask) (by decide)

end Sys2Proof.Machine

/-! PROOFS. The system instructions (R48, R76, R46, R58, R116). Settles O18. -/

namespace Sys2Proof.Machine

section Arms

variable (c : Nat) (rd ra rb : BitVec 5) (s : State)

theorem exec_nop : exec (.nop c rd ra rb) s = execNop c rd ra rb s := rfl
theorem exec_sysRd : exec (.sysRd c rd ra rb) s = execSysRd c rd ra rb s := rfl
theorem exec_sysWr : exec (.sysWr c rd ra rb) s = execSysWr c rd ra rb s := rfl
theorem exec_fenceI : exec (.fenceI c rd ra rb) s = execFenceI c rd ra rb s := rfl

end Arms

/-- SYS.RD of a TSR that does not count time completes with its value (R48). -/
theorem completes_sysRd {s u : State} {c i n : Nat} {rd ra rb : BitVec 5} {v : W32} (h : s.Issues c i 4 u) (hn : n < 0x0E) (hcycle : n ≠ 0x09)
    (hptime : n ≠ 0x0B) (hv : (u.task c i).tsr i n = v) (hra : ra.toNat = n) :
    Completes (.sysRd c rd ra rb) s (u.updTask c i (fun t => t.wg rd v)) c i (fun t => t.advance 4) := by
  subst hra hv
  refine completes_go h (exec_sysRd ..) (by simpa [firstBad_eq_none] using hn) ((if_neg hcycle).trans ((if_neg hptime).trans ?_)) ?_
  · exact congrArg Done.go (State.updTask_congr rfl)
  · rw [State.task_updTask_same, Task.wg_st, h.st]

/-- SYS.WR of FFLAGS or SEED completes, and the TSR takes the register's value (R48). -/
theorem completes_sysWr {s u : State} {c i n : Nat} {rd ra rb : BitVec 5} {f : Task → Task} (h : s.Issues c i 4 u) (hlo : 6 ≤ n) (hhi : n ≤ 8)
    (hf : (u.task c i).wTsr n ((u.task c i).rg ra) = f (u.task c i)) (hst : (f (u.task c i)).st = (u.task c i).st) (hrd : rd.toNat = n) :
    Completes (.sysWr c rd ra rb) s (u.updTask c i f) c i (fun t => t.advance 4) := by
  subst hrd
  exact completes_onTask h (exec_sysWr ..) (by simp [firstBad_eq_none]; omega) hf hst

/-- Settles O18. -/
theorem systemInstructionsReadAndWriteTaskRegisters : Obligations.SystemInstructionsReadAndWriteTaskRegisters := by
  unfold Obligations.SystemInstructionsReadAndWriteTaskRegisters
  intro s u c i rd ra rb h k reads time puts
  have reads_of : ∀ (n : Nat) (v : W32), n < 0x0E → n ≠ 0x09 → n ≠ 0x0B → k.tsr i n = v → reads n v := fun n v hn hcycle hptime hv =>
    completes_sysRd h hn hcycle hptime hv
  refine ⟨?nop, ?stall, ?fence, ?id, reads_of _ _ (by decide) (by decide) (by decide) rfl, reads_of _ _ (by decide) (by decide) (by decide) rfl,
    reads_of _ _ (by decide) (by decide) (by decide) rfl, reads_of _ _ (by decide) (by decide) (by decide) rfl, ?mode, ?fflags,
    reads_of _ _ (by decide) (by decide) (by decide) rfl, reads_of _ _ (by decide) (by decide) (by decide) rfl,
    reads_of _ _ (by decide) (by decide) (by decide) rfl, reads_of _ _ (by decide) (by decide) (by decide) rfl,
    reads_of _ _ (by decide) (by decide) (by decide) rfl, ?cycle, ?ptime,
    completes_sysWr h (by decide) (by decide) ?putFflags rfl, completes_sysWr h (by decide) (by decide) rfl rfl,
    completes_sysWr h (by decide) (by decide) rfl rfl⟩
  case nop => exact completes_go h (exec_nop ..) rfl rfl h.st
  case stall => exact fun hw => stalls_of_stall h (exec_fenceI ..) rfl (if_pos hw)
  case fence =>
    intro hw
    refine completes_go h (exec_fenceI ..) rfl (if_neg (by simp [hw])) ?_
    exact (congrArg Task.st (State.task_updCore rfl i)).trans h.st
  case id => exact reads_of _ _ (by decide) (by decide) (by decide) (congrArg (BitVec.ofNat 32) (by ring))
  case mode => exact reads_of _ _ (by decide) (by decide) (by decide) (congrArg (BitVec.ofNat 32) (by ring))
  case fflags => exact reads_of _ _ (by decide) (by decide) (by decide) (BitVec.ofNat_toNat ..).symm
  case cycle =>
    intro hra
    have hc : firstBad [(decide (0x0E ≤ ra.toNat), illegal 1)] = none := by simp [firstBad_eq_none, hra]
    refine ⟨u.draw.1, ?_⟩
    intro cycle
    have hcy : (u.core c).cycle + BitVec.ofNat 64 u.draw.1 = BitVec.ofNat 64 cycle := by
      rw [BitVec.ofNat_add, BitVec.ofNat_toNat, BitVec.setWidth_eq]
    have hhi : ((BitVec.ofNat 64 cycle) >>> 32).setWidth 32 = BitVec.ofNat 32 (cycle / 2 ^ 32) := by
      rw [high_eq_ofNat, BitVec.toNat_ofNat]
      apply BitVec.eq_of_toNat_eq
      simp only [BitVec.toNat_ofNat]
      omega
    have hlo : (BitVec.ofNat 64 cycle).setWidth 32 = BitVec.ofNat 32 cycle := BitVec.setWidth_ofNat_of_le (by decide) cycle
    refine completes_go h (exec_sysRd ..) hc ((if_pos hra).trans ?_) ?_
    · rw [← hcy] at hhi hlo ⊢
      rw [← hhi, ← hlo]
      rfl
    · rw [State.task_updTask_same, Task.wg_st]
      exact (congrArg Task.st (State.task_updCore rfl i)).trans h.st
  case ptime =>
    intro hra
    have hc : firstBad [(decide (0x0E ≤ ra.toNat), illegal 1)] = none := by simp [firstBad_eq_none, hra]
    refine completes_go h (exec_sysRd ..) hc ((if_neg (by omega)).trans ((if_pos hra).trans rfl)) ?_
    rw [State.task_updTask_same, Task.wg_st]
    exact h.st
  case putFflags => exact congrArg (fun v => { k with fflags := v }) (BitVec.ofNat_toNat ..).symm

end Sys2Proof.Machine

/-! PROOFS. How a task ends (R77) and how it traps (R79, R86): the record that is shown, and what is left as it was. Settles O19. -/

namespace Sys2Proof.Machine

section Arms

variable (c : Nat) (ra : BitVec 5) (imm : BitVec 16) (w : BitVec 64) (s : State)

theorem exec_taskEnd : exec (.taskEnd c ra imm) s = execTaskEnd c ra imm s := rfl
theorem exec_trap : exec (.trap c ra imm) s = execTrap c ra imm s := rfl
theorem exec_reservedOpcode : exec (.reservedOpcode c w) s = execReservedOpcode c w s := rfl

end Arms

/-! ### END -/

/-- Arrivals of a core on channels below the commit barrier's leave its tasks and the memory. -/
theorem tryArrive_all_frame {s : State} (c i : Nat) {l : List Nat} (hl : ∀ b ∈ l, b ≠ 7) :
    (forL l (fun b s => s.tryArrive c b) s).task c i = s.task c i ∧ (forL l (fun b s => s.tryArrive c b) s).mem = s.mem := by
  induction l generalizing s with
  | nil => exact ⟨rfl, rfl⟩
  | cons b l ih =>
    obtain ⟨htask, hmem⟩ := State.tryArrive_frame (hl b List.mem_cons_self) s c i
    obtain ⟨htasks, hmems⟩ := ih (s := s.tryArrive c b) fun x hx => hl x (List.mem_cons_of_mem _ hx)
    exact ⟨htasks.trans htask, hmems.trans hmem⟩

/-- A task that ends is DONE, its instruction completed; no byte changes (R77). -/
theorem finish_stop (s : State) (c i size : Nat) :
    (finish c i size (.stop s)).task c i = { (s.task c i).advance size with st := .done } ∧ (finish c i size (.stop s)).mem = s.mem := by
  obtain ⟨htask, hmem⟩ := tryArrive_all_frame (l := List.range 7)
    (s := ((s.updTask c i (fun t => { t.advance size with st := .done })).perf c 1 1).resched c) c i
    fun b hb => (List.mem_range.mp hb).ne
  have hdone : ((s.updTask c i (fun t => { t.advance size with st := .done })).perf c 1 1).task c i = { (s.task c i).advance size with st := .done } := by
    rw [State.task_of_core (State.perf_core ..)]
    exact State.task_updTask_same ..
  refine ⟨htask.trans ?_, hmem.trans ?_⟩
  · rw [State.resched_task, hdone]
    · rw [hdone]
      exact TaskSt.noConfusion
    · rw [hdone]
      exact TaskSt.noConfusion
  · rw [State.resched_mem, State.perf_mem]
    rfl

/-! ### The record of a trap -/

/-- A trap record, once shown, is read back (R86). -/
theorem State.showTrap_rd (s : State) (c i : Nat) (r : TrapRec) : let t := s.showTrap c i r
    let d := coreDie c
    let n := coreN c
    t.rd (CD_CORE_TRAP.CAUSE d n) = r.cause % 2 ^ 4 ∧ t.rd (CD_CORE_TRAP.DETAIL d n) = r.detail % 2 ^ 8 ∧
      t.rd (CD_CORE_TRAP.CODE d n) = r.code % 2 ^ 16 ∧ t.rd (CD_CORE_TRAP.TASK d n) = i % 2 ^ 2 ∧ t.rd (CD_CORE_TRAP.VALID d n) = 1 ∧
      t.rd (CD_CORE_TRAPPC.PC d n) = r.pc % 2 ^ 18 := by
  dsimp only
  simp (disch := (dsimp only [CD_CORE_TRAP.CAUSE, CD_CORE_TRAP.TASK, CD_CORE_TRAP.VALID, CD_CORE_TRAP.DETAIL, CD_CORE_TRAP.CODE, CD_CORE_TRAPPC.PC,
    CD_CORE_TRAPADDR.ADDR]; omega)) only [State.showTrap, State.rd_wr_ne, State.rd_wr_same]
  exact ⟨rfl, rfl, rfl, rfl, rfl, rfl⟩

theorem State.showTrap_mem (s : State) (c i : Nat) (r : TrapRec) : (s.showTrap c i r).mem = s.mem := by
  simp only [State.showTrap, State.wr_mem]

theorem State.showTrap_cores (s : State) (c i : Nat) (r : TrapRec) : (s.showTrap c i r).cores = s.cores := by
  simp only [State.showTrap, State.wr_cores]

/-- The panel's registers below those of the dies, by address. -/
def belowDies (f : Field) : Prop := f.key < 8 * 0x1000000

/-- A shown record leaves the registers below those of the dies. -/
theorem State.showTrap_rd_below (s : State) (c i : Nat) (r : TrapRec) {f : Field} (hf : belowDies f) : (s.showTrap c i r).rd f = s.rd f := by
  unfold belowDies at hf
  simp (disch := (dsimp only [CD_CORE_TRAP.CAUSE, CD_CORE_TRAP.TASK, CD_CORE_TRAP.VALID, CD_CORE_TRAP.DETAIL, CD_CORE_TRAP.CODE, CD_CORE_TRAPPC.PC,
    CD_CORE_TRAPADDR.ADDR]; omega)) only [State.showTrap, State.rd_wr_ne]

/-- The partition of a core is read from registers below those of the dies (R301). -/
theorem State.partOfCore_congr {s t : State} (h : ∀ f, belowDies f → t.rd f = s.rd f) (c : Nat) : t.partOfCore c = s.partOfCore c := by
  have hfind : ∀ l : List Nat, (∀ p ∈ l, p < 16) →
      l.find? (fun p => t.bit (HID_PART.EN p) && bitOf (t.rd (HID_PART.REGIONS p)) (regionOf (coreDie c))) =
        l.find? (fun p => s.bit (HID_PART.EN p) && bitOf (s.rd (HID_PART.REGIONS p)) (regionOf (coreDie c))) := by
    intro l hl
    refine List.find?_congr fun p hp => ?_
    have hlt := hl p hp
    have hen : t.rd (HID_PART.EN p) = s.rd (HID_PART.EN p) := h _ (by dsimp only [belowDies, HID_PART.EN]; omega)
    have hregions : t.rd (HID_PART.REGIONS p) = s.rd (HID_PART.REGIONS p) := h _ (by dsimp only [belowDies, HID_PART.REGIONS]; omega)
    rw [State.bit, State.bit, hen, hregions]
  exact hfind _ fun p hp => List.mem_range.mp hp

/-- A core without streams starts none. -/
theorem State.startStreams_of_nil {s : State} {c : Nat} (h : (s.core c).streams = []) : s.startStreams c = s := by
  unfold State.startStreams
  rw [h]
  simp [forN, h, Core.nextStart]

/-- Scheduling leaves the registers but for the counter of task switches and its wrap bit. -/
theorem State.resched_rd {f : Field} {c : Nat} (hcount : f.key ≠ (CD_PERF.COUNT (coreDie c) (coreN c) 12).key)
    (hwrap : f.key ≠ (CD_PERF_WRAP.WRAP (coreDie c) (coreN c)).key) (s : State) : (s.resched c).rd f = s.rd f := by
  rcases s.resched_cases c with h | h
  · rw [h, State.rd_setCore]
  · rw [h, State.perf, (State.pcount_frame ..).2.2 f hcount hwrap, State.rd_setCore]

/-- The words of a core's trap record, by address (R86). -/
def inTrapRecord (c : Nat) (f : Field) : Prop :=
  8 * (0x1008004 + coreDie c * 0x10000 + coreN c * 0x10) ≤ f.key ∧ f.key < 8 * (0x1008010 + coreDie c * 0x10000 + coreN c * 0x10)

/-- Scheduling counts in no register of the trap records. -/
theorem State.resched_rd_trap {c : Nat} {f : Field} (hf : inTrapRecord c f) (s : State) : (s.resched c).rd f = s.rd f := by
  obtain ⟨hlo, hhi⟩ := hf
  have hn : coreN c < 256 := Nat.mod_lt _ (by decide)
  refine State.resched_rd ?_ ?_ s
  · dsimp only [CD_PERF.COUNT]
    omega
  · dsimp only [CD_PERF_WRAP.WRAP]
    omega

/-! ### A trap of a core that runs no layer -/

/-- The core's slots and its queue after slot `i` traps. -/
def State.trapped (s : State) (c i : Nat) : State :=
  (s.updCore c (fun k => { k with mq := k.mq.filter (fun e => decide (e.slot ≠ i)) })).updTask c i (fun t => { t with st := .trapped, wait := none })

theorem State.trapped_task (s : State) (c i : Nat) : (s.trapped c i).task c i = { s.task c i with st := .trapped, wait := none } := by
  rw [State.trapped, State.task_updTask_same, State.task_updCore (f := fun k => { k with mq := k.mq.filter (fun e => decide (e.slot ≠ i)) }) rfl]

theorem State.trapped_streams (s : State) (c i : Nat) : ((s.trapped c i).core c).streams = (s.core c).streams := by
  rw [State.trapped, State.updTask, State.setTask, State.core_setCore_same, State.core_updCore_same]
  rfl

theorem State.trapped_mem (s : State) (c i : Nat) : (s.trapped c i).mem = s.mem := by
  rw [State.trapped, State.updTask_mem, State.updCore_mem]

/-- A program fault of a core outside the partitions shows its record and is reported, and that is all (R79, R80). -/
theorem State.trapAs_unplaced {s : State} {c i : Nat} {r : TrapRec} (hcause : r.cause = 1 ∨ r.cause = 2 ∨ r.cause = 3 ∨ r.cause = 7)
    (hpart : s.partOfCore c = none) (hvalid : s.bit (CD_CORE_TRAP.VALID (coreDie c) (coreN c)) = false) :
    s.trapAs c i r = ((s.trapped c i).showTrap c i r).emit (.trapReport c i r.cause r.detail r.code r.pc r.addr) := by
  have hpart' : (((s.trapped c i).showTrap c i r).emit (.trapReport c i r.cause r.detail r.code r.pc r.addr)).partOfCore c = none :=
    (State.partOfCore_congr (fun f hf => State.showTrap_rd_below _ c i r hf) c).trans hpart
  have hshow : s.trapAs c i r = ((s.trapped c i).showTrap c i r).trapAction c i r :=
    congrArg (fun v : State => v.trapAction c i r) (if_neg (by rw [State.bit, State.rd_updCore, ← State.bit, hvalid]; exact Bool.false_ne_true))
  rw [hshow, State.trapAction, if_pos hcause]
  simp only [hpart']

/-- An instruction that a core issues and whose checks pass leaves as its body says. -/
theorem exec_eq_finish {x : Instr} {s u : State} {c i size : Nat} {check : Task → Option TrapReq} {body : Nat → State → Done} {o : Done}
    (h : s.Issues c i size u) (hx : exec x s = .next (s.runInstr c size check body)) (hc : check (u.task c i) = none) (hb : body i u = o) :
    exec x s = .next (finish c i size o) := by
  rw [hx, State.runInstr_issues h check body hc, hb]

/-- One whose checks fail traps. -/
theorem State.runInstr_traps {s u : State} {c i size : Nat} (h : s.Issues c i size u) {check : Task → Option TrapReq} {r : TrapReq}
    (body : Nat → State → Done) (hc : check (u.task c i) = some r) : s.runInstr c size check body = finish c i size (.trap u r) := by
  obtain ⟨hcan, hrun, hasync, hfetch⟩ := h
  simp only [State.runInstr, hcan, hrun, hasync, hfetch, hc, if_true]

/-- A program fault that names no address, of a core without streams outside the partitions: the task is TRAPPED with its registers, the record is shown
with the task's PC, and no byte changes. -/
theorem finish_trap_shows {u : State} {c i : Nat} {r : TrapReq} (size : Nat) (hi : i < 4) (hcause : r.cause = 3 ∨ r.cause = 7) (haddr : r.addr = none)
    (hdetail : r.detail < 2 ^ 8) (hcode : r.code < 2 ^ 16) (hpart : u.partOfCore c = none)
    (hvalid : u.bit (CD_CORE_TRAP.VALID (coreDie c) (coreN c)) = false) (hstreams : (u.core c).streams = []) :
    let t := finish c i size (.trap u r)
    let d := coreDie c
    let n := coreN c
    (t.task c i).st = .trapped ∧ (t.task c i).g = (u.task c i).g ∧ t.mem = u.mem ∧
      t.rd (CD_CORE_TRAP.CAUSE d n) = r.cause ∧ t.rd (CD_CORE_TRAP.DETAIL d n) = r.detail ∧ t.rd (CD_CORE_TRAP.CODE d n) = r.code ∧
      t.rd (CD_CORE_TRAP.TASK d n) = i ∧ t.bit (CD_CORE_TRAP.VALID d n) = true ∧ t.rd (CD_CORE_TRAPPC.PC d n) = (u.task c i).pc.toNat := by
  intro t d n
  let rec_ : TrapRec := ⟨r.cause, r.detail, r.code, (u.task c i).pc.toNat, u.draw.1 % 2 ^ 18⟩
  let v : State := ((u.draw.2.trapped c i).showTrap c i rec_).emit (.trapReport c i r.cause r.detail r.code (u.task c i).pc.toNat (u.draw.1 % 2 ^ 18))
  have htrap : u.trapTask c i (u.task c i).pc.toNat r = v := by
    rw [State.trapTask, haddr]
    exact State.trapAs_unplaced (r := rec_) (.inr (.inr hcause)) hpart hvalid
  have hcore : v.core c = (u.draw.2.trapped c i).core c := by rw [State.core, State.emit_cores, State.showTrap_cores, ← State.core]
  have ht : t = v.resched c := by
    have hv : (v.core c).streams = [] := by rw [hcore, State.trapped_streams]; exact hstreams
    rw [← State.startStreams_of_nil hv, ← htrap]
    rfl
  have htask : v.task c i = { u.task c i with st := .trapped, wait := none } :=
    (State.task_of_core hcore).trans (u.draw.2.trapped_task c i)
  have hsched : t.task c i = v.task c i := by
    rw [ht, State.resched_task] <;> rw [htask] <;> exact TaskSt.noConfusion
  obtain ⟨hrcause, hrdetail, hrcode, hrtask, hrvalid, hrpc⟩ := (u.draw.2.trapped c i).showTrap_rd c i rec_
  have hrd : ∀ f, inTrapRecord c f → t.rd f = ((u.draw.2.trapped c i).showTrap c i rec_).rd f := fun f hf => by
    rw [ht, State.resched_rd_trap hf, State.rd_emit]
  have hmem : t.mem = u.mem := by rw [ht, State.resched_mem, State.emit_mem, State.showTrap_mem, State.trapped_mem, State.draw_mem]
  refine ⟨by rw [hsched, htask], by rw [hsched, htask], hmem, ?_, ?_, ?_, ?_, ?_, ?_⟩
  · rw [hrd (CD_CORE_TRAP.CAUSE d n) (by dsimp only [inTrapRecord, CD_CORE_TRAP.CAUSE, d, n]; omega), hrcause]
    rcases hcause with e | e <;> simp only [rec_, e] <;> decide
  · rw [hrd (CD_CORE_TRAP.DETAIL d n) (by dsimp only [inTrapRecord, CD_CORE_TRAP.DETAIL, d, n]; omega), hrdetail]
    exact Nat.mod_eq_of_lt hdetail
  · rw [hrd (CD_CORE_TRAP.CODE d n) (by dsimp only [inTrapRecord, CD_CORE_TRAP.CODE, d, n]; omega), hrcode]
    exact Nat.mod_eq_of_lt hcode
  · rw [hrd (CD_CORE_TRAP.TASK d n) (by dsimp only [inTrapRecord, CD_CORE_TRAP.TASK, d, n]; omega), hrtask]
    exact Nat.mod_eq_of_lt hi
  · rw [State.bit, hrd (CD_CORE_TRAP.VALID d n) (by dsimp only [inTrapRecord, CD_CORE_TRAP.VALID, d, n]; omega), hrvalid]
    exact decide_eq_true rfl
  · rw [hrd (CD_CORE_TRAPPC.PC d n) (by dsimp only [inTrapRecord, CD_CORE_TRAPPC.PC, d, n]; omega), hrpc]
    exact Nat.mod_eq_of_lt (u.task c i).pc.isLt

theorem reservedDetail_le_one {w : BitVec 64} {detail : Nat} (h : reservedDetail w = some detail) : detail ≤ 1 := by
  unfold reservedDetail at h
  grind

/-- Settles O19. -/
theorem endAndTrapsLeaveTheTask : Obligations.EndAndTrapsLeaveTheTask := by
  unfold Obligations.EndAndTrapsLeaveTheTask
  intro s u c i size h k d n shows
  refine ⟨fun hsize imm => ⟨?stop, fun _ hpart hvalid hstreams => ?trap⟩, fun w detail hdetail hsize _ hpart hvalid hstreams => ?reserved⟩
  case stop =>
    subst hsize
    have hexec : exec (.taskEnd c 0 imm) s = .next (finish c i 4 (.stop u)) :=
      exec_eq_finish h (exec_taskEnd ..) rfl rfl
    exact ⟨_, hexec, finish_stop u c i 4⟩
  case trap =>
    subst hsize
    have hexec : exec (.trap c 0 imm) s = .next (finish c i 4 (.trap u ⟨7, 0, imm.toNat, none⟩)) :=
      exec_eq_finish h (exec_trap ..) rfl rfl
    exact ⟨_, hexec, finish_trap_shows 4 h.lt (.inr rfl) rfl (Nat.two_pow_pos 8) imm.isLt hpart hvalid hstreams⟩
  case reserved =>
    have hsize' : size = if longForm w = true then 8 else 4 := hsize.trans (if_congr (by simp [longForm]) rfl rfl)
    subst hsize'
    have hexec : exec (.reservedOpcode c w) s = .next (finish c i (if longForm w = true then 8 else 4) (.trap u (illegal detail))) := by
      rw [exec_reservedOpcode, execReservedOpcode, hdetail]
      exact congrArg _ (State.runInstr_traps h _ rfl)
    have hle := reservedDetail_le_one hdetail
    exact ⟨_, hexec, finish_trap_shows _ h.lt (.inl rfl) rfl (by simp only [illegal]; omega) (Nat.two_pow_pos 16) hpart hvalid hstreams⟩

end Sys2Proof.Machine

/-! PROOFS. The events of a core (R69, R37, R38, R86, R127, R133, R153). Settles O20. -/

namespace Sys2Proof.Machine

section Arms

variable (c slot k : Nat) (v : W32) (upsets : List Upset) (s : State)

theorem exec_asyncTrap : exec (.asyncTrap c slot) s = execAsyncTrap c slot s := rfl
theorem exec_coreDone : exec (.coreDone c) s = execCoreDone c s := rfl
theorem exec_stuckTask : exec (.stuckTask c slot) s = execStuckTask c slot s := rfl
theorem exec_trapValidClear : exec (.trapValidClear c) s = execTrapValidClear c s := rfl
theorem exec_scrubTick : exec (.scrubTick c upsets) s = execScrubTick c upsets s := rfl
theorem exec_spLinmapWrite : exec (.spLinmapWrite c k v) s = execSpLinmapWrite c k v s := rfl
theorem exec_spCeClr : exec (.spCeClr c) s = execSpCeClr c s := rfl

end Arms

/-! ### Asynchronous traps and the commit barrier -/

/-- A posted failure that is the core's only one is taken by its task where the task is neither EMPTY nor TRAPPED (R69). -/
theorem execAsyncTrap_single {s : State} {c slot : Nat} {a : AsyncTrap} (hasync : (s.core c).async = [a]) (hslot : a.slot = slot)
    (hempty : (s.task c slot).st ≠ .empty) (htrapped : (s.task c slot).st ≠ .trapped) : execAsyncTrap c slot s =
      .next ((((s.updCore c (fun q => { q with async := [] })).trapAs c slot a.tr).startStreams c).resched c) := by
  have hfind : (s.core c).async.find? (fun a => decide (a.slot = slot)) = some a := by simp [hasync, hslot]
  have hremove : removeFirst (fun x : AsyncTrap => decide (x.slot = slot)) (s.core c).async = [] := by simp [hasync, hslot, removeFirst]
  have hupd : s.updCore c (fun k => { k with async := removeFirst (fun x => decide (x.slot = slot)) k.async }) =
      s.updCore c (fun q => { q with async := [] }) := by
    rw [State.updCore, State.updCore, hremove]
  have htask : (s.updCore c (fun q => { q with async := [] })).task c slot = s.task c slot := State.task_updCore rfl slot
  unfold execAsyncTrap
  rw [hfind]
  simp only [hupd, htask, hempty, htrapped, if_false]

theorem bitOf_setBits_one (x i : Nat) : bitOf (setBits x i 1 1) i = true := by
  rw [bitOf_eq_testBit]
  exact (testBit_setBit x i true i).trans (if_pos rfl)

/-- A core that is done arrives on the commit barrier, once (R37). -/
theorem execCoreDone_arrives {s : State} {c : Nat} (hc : c < 36864) (hdone : s.coreIsDone c = true) (harr : (s.core c).doneArr = false)
    (hfenced : (s.core c).fenced = false) :
    ∃ t, execCoreDone c s = .next t ∧ (t.core c).doneArr = true ∧ bitOf (t.core c).barPend 7 = true := by
  have hdie : isDie (coreDie c) = true := decide_eq_true (Nat.div_lt_of_lt_mul hc)
  have hcore := State.arriveCore_core (b := 7) (.inl hdie) (s.updCore c (fun k => { k with doneArr := true }))
  refine ⟨_, if_pos (by simp [hdone, harr, hfenced]), ?_, ?_⟩
  · rw [hcore, State.core_updCore_same]
  · rw [hcore]
    exact bitOf_setBits_one _ 7

/-! ### Trap records -/

/-- Where no slot has an unread record, clearing VALID loads none (R86). -/
theorem execTrapValidClear_of_read {s : State} {c : Nat} (h : ∀ j, j < 4 → (s.task c j).trap = none) : execTrapValidClear c s =
    .next ((s.wr (CD_CORE_TRAP.VALID (coreDie c) (coreN c)) 0).wr (CD_CORE_TRAP.MULTI (coreDie c) (coreN c)) 0) := by
  have hunread : (List.range 4).filter (fun i => decide ((s.task c i).st = .trapped) && (s.task c i).trap.isSome) = [] :=
    List.filter_eq_nil_iff.mpr fun i hi => by simp [h i (List.mem_range.mp hi)]
  have htask : ∀ i, ((s.wr (CD_CORE_TRAP.VALID (coreDie c) (coreN c)) 0).wr (CD_CORE_TRAP.MULTI (coreDie c) (coreN c)) 0).task c i = s.task c i :=
    fun _ => rfl
  unfold execTrapValidClear
  simp only [htask, hunread]

/-! ### The scratchpad -/

/-- The scrubber takes its next line while the region's clock runs, and changes no byte (R131, R133). -/
theorem execScrubTick_running {s : State} {c : Nat} (hstate : s.rgnState (regionOf (coreDie c)) ≤ 1)
    (hclamp : s.bit (RGN_PWR_STAT.CLAMPED (regionOf (coreDie c))) = false) :
    ∃ t, execScrubTick c [] s = .next t ∧ (t.core c).scrub = ((s.core c).scrub + 1) % 3072 ∧ t.mem = s.mem :=
  ⟨_, if_pos ⟨hstate, hclamp⟩, by rw [State.core_updCore_same]; rfl, (State.updCore_mem ..).trans (spCheck_errOnly ..).mem⟩

/-- What makes bytes unspecified leaves the registers and the cores. -/
theorem scramble_frame (s : State) (c b : Nat) : (s.scramble c b).regs = s.regs ∧ (s.scramble c b).cores = s.cores := ⟨rfl, rfl⟩

/-- A write of CD_SP_LINMAPk writes the register and scrambles the blocks whose mode changes (R127). -/
theorem State.linmap_frame (s : State) (c k v : Nat) :
    (s.linmap c k v).regs = (s.wr (CD_SP_LINMAP.LINEAR (coreDie c) (coreN c) k) v).regs ∧ (s.linmap c k v).cores = s.cores := by
  have hfold : ∀ (o : Nat) (l : List Nat) (t : State),
      (l.foldl (fun s j => if bitOf o j = bitOf v j then s else s.scramble c (32 * k + j)) t).regs = t.regs ∧
      (l.foldl (fun s j => if bitOf o j = bitOf v j then s else s.scramble c (32 * k + j)) t).cores = t.cores := by
    intro o l
    induction l with
    | nil => exact fun t => ⟨rfl, rfl⟩
    | cons j l ih =>
      intro t
      rw [List.foldl_cons]
      split
      · exact ih t
      · exact ih (t.scramble c (32 * k + j))
  exact hfold _ _ _

/-- A write of the value that the register holds scrambles nothing. -/
theorem State.linmap_same {s : State} {c k v : Nat} (h : s.rd (CD_SP_LINMAP.LINEAR (coreDie c) (coreN c) k) = v) :
    s.linmap c k v = s.wr (CD_SP_LINMAP.LINEAR (coreDie c) (coreN c) k) v := by
  unfold State.linmap forN
  simp only [h, if_true]
  exact List.foldl_fixed _

/-- Settles O20. -/
theorem coreEventsActOnTheCore : Obligations.CoreEventsActOnTheCore := by
  unfold Obligations.CoreEventsActOnTheCore
  intro s c slot hc d n k
  refine ⟨fun a hasync hslot hempty htrapped => ?asyncTrap, fun hdone harr hfenced => ?coreDone, fun hstuck hfenced => ?stuck, fun hwaits hover => ?waits,
    fun hread => ?clear, fun hstate hclamp => ?scrub, fun r v hactive hpresent => ?linmap, fun hpresent => ?ceClr⟩
  case asyncTrap => exact (exec_asyncTrap ..).trans (execAsyncTrap_single hasync hslot hempty htrapped)
  case coreDone => exact execCoreDone_arrives hc hdone harr hfenced
  case stuck => exact (exec_stuckTask ..).trans (if_pos ⟨hstuck, hfenced⟩)
  case waits =>
    refine (exec_stuckTask ..).trans (if_neg ?_)
    rintro ⟨hrun | ⟨-, hend⟩, -⟩
    · rw [hwaits] at hrun
      exact TaskSt.noConfusion hrun
    · rw [hover] at hend
      exact Bool.false_ne_true hend
  case clear => exact (exec_trapValidClear ..).trans (execTrapValidClear_of_read hread)
  case scrub => exact execScrubTick_running hstate hclamp
  case linmap =>
    obtain ⟨hregs, hcores⟩ := s.linmap_frame c r v.toNat
    refine ⟨_, (exec_spLinmapWrite ..).trans (if_neg (by simp [hactive, hpresent, k, d])), ?_, hcores, State.linmap_same⟩
    rw [State.rd_congr hregs, State.rd_wr_same]
    exact Nat.mod_eq_of_lt v.isLt
  case ceClr => exact (exec_spCeClr ..).trans (if_neg (by simp [hpresent, d]))

end Sys2Proof.Machine

/-! PROOFS. What the ends of matrix operations write (R71, R72, R89, R112): rows into the weight and side buffers, elements into a tile. Settles O17. -/

namespace Sys2Proof.Machine

/-! ### Rows -/

/-- A tile move reads one number for each row. -/
theorem State.readRows_length {s v : State} {c i rb base stride n : Nat} {rows : List Nat} (h : s.readRows c i rb base stride n = (v, .ok rows)) :
    rows.length = n := by
  induction n generalizing v rows with
  | zero =>
    cases h
    rfl
  | succ n ih =>
    rw [State.readRows] at h
    split at h
    · cases h
    · next l hrows =>
      split at h
      · cases h
      · cases h
        rw [List.length_append, ih hrows, List.length_singleton]

/-- The bytes of rows of `n` bytes each, laid one behind the other. -/
def bytesOfRows (n : Nat) (rows : List Nat) : List Byte := rows.flatMap (leBytes n)

theorem bytesOfRows_cons (n x : Nat) (rows : List Nat) : bytesOfRows n (x :: rows) = leBytes n x ++ bytesOfRows n rows := rfl

theorem bytesOfRows_length (n : Nat) (rows : List Nat) : (bytesOfRows n rows).length = rows.length * n := by
  simp [bytesOfRows, List.length_flatMap]

theorem getD_bytesOfRows {n j : Nat} {rows : List Nat} (hj : j < rows.length * n) :
    (bytesOfRows n rows).getD j 0 = BitVec.ofNat 8 (rows.getD (j / n) 0 / 256 ^ (j % n)) := by
  induction rows generalizing j with
  | nil => simp at hj
  | cons x rows ih =>
    rw [bytesOfRows_cons]
    rcases Nat.lt_or_ge j n with hrow | hrow
    · rw [List.getD_append _ _ _ _ (by simpa using hrow), getD_leBytes hrow, Nat.div_eq_of_lt hrow, Nat.mod_eq_of_lt hrow, List.getD_cons_zero]
    · obtain ⟨k, rfl⟩ := Nat.exists_eq_add_of_le hrow
      have hk : k < rows.length * n := by
        rw [List.length_cons, Nat.succ_mul] at hj
        omega
      have hn : 0 < n := Nat.pos_of_mul_pos_left (Nat.zero_lt_of_lt hk)
      rw [List.getD_append_right _ _ _ _ (by simp), leBytes_length, Nat.add_sub_cancel_left, ih hk, Nat.add_div_left _ hn, Nat.add_mod_left,
        List.getD_cons_succ]

/-! ### Buffers of bytes -/

theorem bufPut_append (tab : Tab Byte) (b : Nat) (l m : List Byte) : bufPut tab b (l ++ m) = bufPut (bufPut tab b l) (b + l.length) m := by
  induction l generalizing tab b with
  | nil => rfl
  | cons x l ih => rw [List.cons_append, bufPut, bufPut, ih, List.length_cons, Nat.add_assoc, Nat.add_comm 1]

/-- Bytes go into a buffer as they go into a memory whose unlisted bytes read 0. -/
theorem bufPut_eq_memWrite (tab : Tab Byte) (b : Nat) (l : List Byte) : bufPut tab b l = memWrite (fun _ => 0#8) tab b l := by
  induction l generalizing tab b with
  | nil => rfl
  | cons x l ih => rw [bufPut, memWrite, BitVec.xor_zero, ih]

theorem get_bufPut {l : List Byte} {j : Nat} (hj : j < l.length) (tab : Tab Byte) (b : Nat) : Tab.get 0 (bufPut tab b l) (b + j) = l.getD j 0 := by
  rw [bufPut_eq_memWrite, get_memWrite, if_pos (by omega), Nat.add_sub_cancel_left, BitVec.xor_zero]

/-- Rows written one by one, each behind the one before, are their bytes written in one piece. -/
theorem foldl_bufPut_rows (tab : Tab Byte) (b n : Nat) (rows : List Nat) (k : Nat) :
    (rows.zipIdx k).foldl (fun tab q => bufPut tab (b + n * q.2) (leBytes n q.1)) tab = bufPut tab (b + n * k) (bytesOfRows n rows) := by
  induction rows generalizing tab k with
  | nil => rfl
  | cons x rows ih => rw [List.zipIdx_cons, List.foldl_cons, ih, bytesOfRows_cons, bufPut_append, leBytes_length, Nat.mul_succ, Nat.add_assoc]

/-- A byte of a buffer that 16 rows have been written into. -/
theorem get_bufPut_bytesOfRows {n j : Nat} {rows : List Nat} (hrows : rows.length = 16) (hj : j < 16 * n) (tab : Tab Byte) (b : Nat) :
    Tab.get 0 (bufPut tab b (bytesOfRows n rows)) (b + j) = BitVec.ofNat 8 (rows.getD (j / n) 0 / 256 ^ (j % n)) := by
  have hj : j < rows.length * n := by rwa [hrows]
  rw [get_bufPut (by rwa [bytesOfRows_length]), getD_bytesOfRows hj]

/-! ### Tiles -/

/-- One element of `tileMap`. -/
def tileSet (t : Nat) (g : Nat → Nat → Nat × Nat) (st : Tab W32 × Nat) (e : Nat) : Tab W32 × Nat :=
  (Tab.set 0 st.1 (256 * t + e) (BitVec.ofNat 32 (g (e / 16) (e % 16)).1), st.2 ||| (g (e / 16) (e % 16)).2)

theorem tileMap_eq_foldl (t : Nat) (g : Nat → Nat → Nat × Nat) (tiles : Tab W32) :
    tileMap t g tiles = (List.range 256).foldl (tileSet t g) (tiles, 0) := rfl

theorem get_foldl_tileSet (t : Nat) (g : Nat → Nat → Nat × Nat) (st : Tab W32 × Nat) (n k : Nat) :
    Tab.get 0 ((List.range n).foldl (tileSet t g) st).1 k =
      if 256 * t ≤ k ∧ k < 256 * t + n then BitVec.ofNat 32 (g ((k - 256 * t) / 16) ((k - 256 * t) % 16)).1 else Tab.get 0 st.1 k := by
  induction n with
  | zero => rw [if_neg (by omega)]; rfl
  | succ n ih =>
    rw [List.range_succ, List.foldl_append, List.foldl_cons, List.foldl_nil, tileSet, Tab.get_set]
    by_cases hk : k = 256 * t + n
    · subst hk
      rw [if_pos rfl, if_pos (by omega), Nat.add_sub_cancel_left]
    · have hrange : (256 * t ≤ k ∧ k < 256 * t + (n + 1)) ↔ (256 * t ≤ k ∧ k < 256 * t + n) := by omega
      rw [if_neg hk, ih]
      simp only [hrange]

/-- What `tileMap` leaves in an element of its tile. -/
theorem get_tileMap_elem {r col : Nat} (hr : r < 16) (hcol : col < 16) (t : Nat) (g : Nat → Nat → Nat × Nat) (tiles : Tab W32) :
    Tab.get 0 (tileMap t g tiles).1 (256 * t + 16 * r + col) = BitVec.ofNat 32 (g r col).1 := by
  have hplace : 256 * t + 16 * r + col - 256 * t = 16 * r + col := by omega
  have hrow : (16 * r + col) / 16 = r := by omega
  have hcolumn : (16 * r + col) % 16 = col := by omega
  rw [tileMap_eq_foldl, get_foldl_tileSet, if_pos (by omega), hplace, hrow, hcolumn]

/-- `tileMap` leaves the other tiles. -/
theorem get_tileMap_ne {t k : Nat} (hk : k / 256 ≠ t) (g : Nat → Nat → Nat × Nat) (tiles : Tab W32) :
    Tab.get 0 (tileMap t g tiles).1 k = Tab.get 0 tiles k := by
  rw [tileMap_eq_foldl, get_foldl_tileSet, if_neg (by omega)]

theorem ofNat_bitsOf (x lo w : Nat) : BitVec.ofNat w (bitsOf x lo w) = BitVec.ofNat w (x / 2 ^ lo) :=
  BitVec.eq_of_toNat_eq (by simp [bitsOf])

/-! ### The cores after the ends -/

theorem State.raiseIn_tiles (s : State) (c i f : Nat) : ((s.raiseIn c i f).core c).tiles = (s.core c).tiles := by
  unfold State.raiseIn
  split
  · rfl
  · rw [State.updTask, State.setTask, State.core_setCore_same]
    rfl

section Moves

variable {s v : State} {c i base stride rb : Nat} {rows : List Nat} (h : s.readRows c i rb base stride 16 = (v, .ok rows))
include h

/-- The end of a TILE.LD of a tile (R71, R72). -/
theorem matrixEnd_tileLd_tile_core (t fmt unit : Nat) (z : Bool) : (s.matrixEnd c ⟨i, .tileLd 0 t fmt rb unit base stride z⟩).core c =
    { v.core c with tiles := (tileMap t (fun r col => (bitsOf (rows.getD r 0) (32 * col) 32, 0)) (v.core c).tiles).1 } := by
  simp only [State.matrixEnd, h, State.perf_core, State.core_updCore_same, if_true]

/-- The end of a TILE.LD of weights (R71, R72). -/
theorem matrixEnd_tileLd_weights_core (t fmt unit : Nat) (z : Bool) : (s.matrixEnd c ⟨i, .tileLd 1 t fmt rb unit base stride z⟩).core c =
    { v.core c with wbuf := bufPut (v.core c).wbuf (256 * unit) (bytesOfRows rb rows) } := by
  simp only [State.matrixEnd, h, State.perf_core, State.core_updCore_same, foldl_bufPut_rows, Nat.mul_zero, Nat.add_zero, Nat.mul_comm unit,
    Nat.one_ne_zero, if_true, if_false]

/-- The end of a SPARSE.LD (R112). -/
theorem matrixEnd_sparse_core (unit : Nat) : (s.matrixEnd c ⟨i, .sparse unit rb base stride⟩).core c =
    { v.core c with side := bufPut (v.core c).side (256 * unit) (bytesOfRows rb rows) } := by
  simp only [State.matrixEnd, h, State.perf_core, State.core_updCore_same, foldl_bufPut_rows, Nat.mul_zero, Nat.add_zero, Nat.mul_comm unit]

end Moves

/-- The end of an MMA leaves the tiles as they are, where every group is skipped, or rewrites its own (R89, R113). -/
theorem matrixEnd_mma_tiles (s : State) (c i : Nat) (w : FmtM) (v : V512) :
    ((s.matrixEnd c ⟨i, .mma w v⟩).core c).tiles = (s.core c).tiles ∨
    ∃ g, ((s.matrixEnd c ⟨i, .mma w v⟩).core c).tiles = (tileMap w.t.toNat g (s.core c).tiles).1 := by
  simp only [State.matrixEnd, State.mmaEnd, State.raiseIn_tiles, State.perf_core, State.core_setCore_same]
  split
  · exact .inl rfl
  · exact .inr ⟨_, rfl⟩

/-- An MMA writes no tile but its own (R89). -/
theorem get_matrixEnd_mma_tiles_ne {w : FmtM} {e : Nat} (he : e / 256 ≠ w.t.toNat) (s : State) (c i : Nat) (v : V512) :
    Tab.get 0 ((s.matrixEnd c ⟨i, .mma w v⟩).core c).tiles e = Tab.get 0 (s.core c).tiles e := by
  obtain hkept | ⟨g, hmapped⟩ := matrixEnd_mma_tiles s c i w v
  · rw [hkept]
  · rw [hmapped, get_tileMap_ne he]

/-- Settles O17. -/
theorem matrixOperationsWriteTheirResults : Obligations.MatrixOperationsWriteTheirResults := by
  unfold Obligations.MatrixOperationsWriteTheirResults
  intro s c i t base stride
  refine ⟨fun v rows h r col hr hcol => ?tile, fun v rows f rb unit h j hj => ?weights, fun v rows unit rb h j hj => ?sparse,
    fun w v e he => ?mma, fun en => ?zmask⟩
  case tile => rw [matrixEnd_tileLd_tile_core h, get_tileMap_elem hr hcol, ofNat_bitsOf]
  case weights => rw [matrixEnd_tileLd_weights_core h, get_bufPut_bytesOfRows (State.readRows_length h) hj]
  case sparse => rw [matrixEnd_sparse_core h, get_bufPut_bytesOfRows (State.readRows_length h) hj]
  case mma => exact get_matrixEnd_mma_tiles_ne he s c i v
  case zmask => exact State.core_updCore_same ..

end Sys2Proof.Machine

/-! PROOFS. What an access of the scratchpad changes beyond its bytes (R123, R130 to R132), and what a fetch changes beyond the loop buffer (R46). Settles O6. -/

namespace Sys2Proof.Machine

/-! ### Reads and writes -/

theorem ErrOnly.bytes {s t : State} (h : ErrOnly s t) (a n : Nat) : t.bytes a n = s.bytes a n := by
  simp only [State.bytes, h.byte]

/-- A read that meets no uncorrectable error gives the bytes as they stand, and changes only records of errors (R131). -/
theorem spRead_eq_ok {s t : State} {c a n : Nat} {l : List Byte} (h : s.spRead c a n = (t, .ok l)) :
    l = s.bytes (winBase c + a) n ∧ ErrOnly s t := by
  have hcheck := spCheck_errOnly s c a n
  unfold State.spRead at h
  split at h
  · cases h
  · next u hclean =>
    rw [hclean] at hcheck
    cases h
    exact ⟨hcheck.bytes _ n, hcheck⟩

/-- A read of words none of which holds an error changes nothing (R130). -/
theorem spRead_clean {s : State} {c a n : Nat} (h : ∀ e ∈ s.ecc, e.1 < (winBase c + a) / 8 ∨ (winBase c + a + n - 1) / 8 < e.1) :
    s.spRead c a n = (s, .ok (s.bytes (winBase c + a) n)) := by
  rw [State.spRead, spCheck_clean h]
  rfl

/-- Beyond its bytes, a write that meets no uncorrectable error changes only records of errors (R130 to R132). -/
theorem spWrite_errOnly {s t : State} {c a : Nat} {l : List Byte} (h : s.spWrite c a l = (t, none)) : ErrOnly s { t with mem := s.mem } := by
  obtain ⟨u, herr, rfl⟩ := spWrite_eq_ok h
  have hrest : { u.write (winBase c + a) l with mem := s.mem } = u := by
    rw [← herr.mem]
    rfl
  rwa [hrest]

/-! ### Fetches -/

/-- `t` is `s` but for the loop buffers and records of errors. -/
def FetchOnly (s t : State) : Prop :=
  { t with regs := [], ecc := [], cores := [], net := Net.reset, out := [], tel := Tel.reset } =
    { s with regs := [], ecc := [], cores := [], net := Net.reset, out := [], tel := Tel.reset } ∧
  (∀ d, { t.core d with lbuf := [], ceTimes := [] } = { s.core d with lbuf := [], ceTimes := [] }) ∧ { t.tel with day := [] } = { s.tel with day := [] }

theorem FetchOnly.trans {s t v : State} (h : FetchOnly s t) (k : FetchOnly t v) : FetchOnly s v :=
  ⟨k.1.trans h.1, fun d => (k.2.1 d).trans (h.2.1 d), k.2.2.trans h.2.2⟩

theorem FetchOnly.mem {s t : State} (h : FetchOnly s t) : t.mem = s.mem := (congrArg State.mem h.1 :)

theorem ErrOnly.fetchOnly {s t : State} (h : ErrOnly s t) : FetchOnly s t :=
  ⟨h.1, fun d => (congrArg (fun k : Core => { k with lbuf := [] }) (h.2.1 d) :), h.2.2⟩

theorem setLbuf_fetchOnly (s : State) (c : Nat) (l : List (Nat × V512)) : FetchOnly s (s.setCore c { s.core c with lbuf := l }) := by
  refine ⟨rfl, fun d => ?_, rfl⟩
  by_cases hd : d = c
  · subst hd
    rw [State.core_setCore_same]
  · rw [State.core_setCore_ne _ _ hd]

/-- A line that is found moves to the front of the loop buffer; one that is read enters it (R46). -/
theorem fetchLine_fetchOnly (s : State) (c a : Nat) : FetchOnly s (s.fetchLine c a).1 := by
  unfold State.fetchLine
  dsimp only
  split
  · exact setLbuf_fetchOnly s c _
  · have hread := spRead_errOnly s c (a / 64 * 64) 64
    split
    · next herror =>
      rw [herror] at hread
      exact hread.fetchOnly
    · next hline =>
      rw [hline] at hread
      exact hread.fetchOnly.trans (setLbuf_fetchOnly _ c _)

theorem fetchLine_eq_fetchOnly {s t : State} {c a : Nat} {b : Option Nat} (h : s.fetchLine c a = (t, b)) : FetchOnly s t := by
  have hfetch := fetchLine_fetchOnly s c a
  rwa [h] at hfetch

/-- A fetch that takes no trap has fetched a line, and for 8 bytes the line of their last word (R45, R46). -/
theorem fetch_eq_none {s t : State} {c i size : Nat} (h : s.fetch c i size = (t, none)) :
    ∃ a, s.fetchLine c a = (t, none) ∨ ∃ u b, s.fetchLine c a = (u, none) ∧ u.fetchLine c b = (t, none) := by
  unfold State.fetch at h
  dsimp only at h
  split at h
  · cases h
  · split at h
    · cases h
    · split at h
      · cases h
      · next u hfirst =>
        split at h
        · cases h
          exact ⟨_, .inl hfirst⟩
        · split at h
          · cases h
          · next v hlast =>
            cases h
            exact ⟨_, .inr ⟨u, _, hfirst, hlast⟩⟩

theorem fetch_fetchOnly {s t : State} {c i size : Nat} (h : s.fetch c i size = (t, none)) : FetchOnly s t := by
  obtain ⟨a, hone | ⟨u, b, hfirst, hlast⟩⟩ := fetch_eq_none h
  · exact fetchLine_eq_fetchOnly hone
  · exact (fetchLine_eq_fetchOnly hfirst).trans (fetchLine_eq_fetchOnly hlast)

/-- Settles O6: reads and writes by `ErrOnly`, a fetch by `FetchOnly`. -/
theorem scratchpadAccessesChangeOnlyErrorRecords : Obligations.ScratchpadAccessesChangeOnlyErrorRecords := by
  unfold Obligations.ScratchpadAccessesChangeOnlyErrorRecords
  refine ⟨fun s t c a n l hread => ?read, fun s c a n hclean => spRead_clean hclean, fun s t c a l hwrite => spWrite_errOnly hwrite,
    fun s t c i size hfetch => ?fetch⟩
  case read =>
    obtain ⟨hbytes, herr⟩ := spRead_eq_ok hread
    exact ⟨hbytes, herr.mem, herr⟩
  case fetch =>
    have hmem := (fetch_fetchOnly hfetch).mem
    obtain ⟨hrest, hcores, hday⟩ := fetch_fetchOnly hfetch
    exact ⟨hmem, hcores, hday, hrest⟩

end Sys2Proof.Machine

/-! PROOFS. A whole WRITE at its core (R135 to R139, R163 to R167): taking a packet, what the increment at a target and the tracker leave, and the delivery
of a transfer that one packet brings whole. Settles O21. -/

namespace Sys2Proof.Machine

theorem exec_bulkWrite (c : Nat) (cr : List Nat) (h : BulkHdr) (data : List Byte) (s : State) :
    exec (.bulkWrite c cr h data) s = execBulkWrite c cr h data s := rfl

/-! ### A packet at its core -/

/-- At the core that it is for, a packet has arrived (R169). -/
theorem State.routeTo_core_self {c : Nat} (hc : c < 36864) (s : State) (cr : List Nat) (lane : Option Nat) : s.routeTo c cr c lane = .here c :=
  (if_neg (Nat.not_le.mpr hc)).trans (if_pos ⟨hc, rfl⟩)

/-- No WRITE to a core waits for a hub's write-merge pool. (`State.writeWaits` is unfolded as a function, before it is applied: comparing it applied with its body
would have the kernel count `c - 36864` down in unary.) -/
theorem State.writeWaits_core {c : Nat} (hc : c < 36864) (s : State) (h : BulkHdr) (n : Nat) : s.writeWaits c h n = false := by
  have hcore : decide (36864 ≤ c) = false := decide_eq_false (Nat.not_le.mpr hc)
  conv in State.writeWaits => delta State.writeWaits
  split
  · simp only [hcore, Bool.false_and]
  · rfl

theorem TxOnly.core {s t : State} (h : TxOnly s t) (c : Nat) : t.core c = s.core c := by rw [State.core, h.cores, State.core]

theorem TxOnly.task {s t : State} (h : TxOnly s t) (c i : Nat) : t.task c i = s.task c i := State.task_of_core (h.core c)

/-- Taking a packet and sending count only in registers of the dies: every register below those keeps its value. -/
theorem TxOnly.rd_low {s t : State} (h : TxOnly s t) {f : Field} (hf : f.key < 8 * 0x1000000) : t.rd f = s.rd f := by
  obtain ⟨-, -, hrd⟩ := h
  refine hrd f (fun d i => ?_) (fun d => ?_)
  · dsimp only [CD_NET_TX.COUNT]
    omega
  · dsimp only [CD_PERF_DWRAP.NET_WRAP]
    omega

/-- So a core's region is as awake as it was. -/
theorem TxOnly.asleep {s t : State} (h : TxOnly s t) {c : Nat} (hc : c < 36864) : t.asleep c = s.asleep c := by
  have hregion : regionOf (coreDie c) < 16 := by
    unfold regionOf coreDie
    omega
  have hstate := h.rd_low (f := RGN_PWR_STAT.STATE (regionOf (coreDie c))) (by dsimp only [RGN_PWR_STAT.STATE]; omega)
  have hclamp := h.rd_low (f := RGN_PWR_STAT.CLAMPED (regionOf (coreDie c))) (by dsimp only [RGN_PWR_STAT.CLAMPED]; omega)
  unfold State.asleep State.rgnState State.bit
  dsimp only
  rw [hstate, hclamp]

/-- A transfer's first packet waits at an awake core only for the tracker (R136, R172). -/
theorem State.deliverWaits_idle {s : State} {c : Nat} (hawake : s.asleep c = false) (htracker : (s.core c).tracker = []) (hpulls : (s.core c).pulls = [])
    (h : BulkHdr) : s.deliverWaits c h = false := by
  simp [State.deliverWaits, hawake, Core.trkUsed, htracker, hpulls]

/-! ### The increment -/

theorem WokeFrom.tracker {k k' : Core} (h : WokeFrom k k') : k'.tracker = k.tracker := (congrArg Core.tracker h.2 :)
theorem WokeFrom.counters {k k' : Core} (h : WokeFrom k k') : k'.counters = k.counters := (congrArg Core.counters h.2 :)

/-- Selection changes the slots and the place of the next selection, no more (R35). -/
theorem Core.select_tracker_counters (k : Core) : k.select.1.tracker = k.tracker ∧ k.select.1.counters = k.counters := by
  unfold Core.select
  split
  · exact ⟨rfl, rfl⟩
  · split <;> exact ⟨rfl, rfl⟩

/-- Scheduling a core leaves its tracker and its counters. -/
theorem State.resched_tracker_counters (s : State) (c : Nat) :
    ((s.resched c).core c).tracker = (s.core c).tracker ∧ ((s.resched c).core c).counters = (s.core c).counters := by
  have hwake := (s.core c).wake_spec
  obtain ⟨htracker, hcounters⟩ := (s.core c).wake.select_tracker_counters
  rw [State.resched_core]
  exact ⟨htracker.trans hwake.tracker, hcounters.trans hwake.counters⟩

theorem State.resched_out (s : State) (c : Nat) : (s.resched c).out = s.out := by
  rcases s.resched_cases c with h | h
  · rw [h, State.setCore_out]
  · rw [h, State.perf_out, State.setCore_out]

theorem State.wrBit_core (s : State) (f : Field) (i : Nat) (b : Bool) (c : Nat) : (s.wrBit f i b).core c = s.core c := rfl

/-- An arrival counter after an increment, modulo 2^32 (R142). -/
theorem State.cntAdd_frame (s : State) (c n v : Nat) :
    (s.cntAdd c n v).core c = { s.core c with counters := Tab.set 0 (s.core c).counters n (Tab.get 0 (s.core c).counters n + BitVec.ofNat 32 v) } ∧
      (s.cntAdd c n v).mem = s.mem ∧ (s.cntAdd c n v).out = s.out := by
  have hsum : BitVec.ofNat 32 ((Tab.get (0 : W32) (s.core c).counters n).toNat + v) = Tab.get 0 (s.core c).counters n + BitVec.ofNat 32 v := by
    rw [BitVec.ofNat_add, BitVec.ofNat_toNat, BitVec.setWidth_eq]
  unfold State.cntAdd
  dsimp only
  rw [hsum]
  split
  · exact ⟨State.core_updCore_same .., rfl, rfl⟩
  · split
    · exact ⟨(State.wrBit_core ..).trans (State.core_updCore_same ..), rfl, rfl⟩
    · exact ⟨(State.wrBit_core ..).trans (State.core_updCore_same ..), rfl, rfl⟩

/-- The counters of a core after the increment of a transfer, where it names a counter of its task (R135, R142). -/
def Core.incremented (k : Core) (h : BulkHdr) : Tab W32 :=
  let n := (k.task h.slot).tcbase + h.cnt
  if h.cntEn then Tab.set 0 k.counters n (Tab.get 0 k.counters n + BitVec.ofNat 32 h.inc) else k.counters

/-- The increment of a transfer at its target changes its counter and which tasks run, no byte, and sends nothing (R135, R137). -/
theorem State.remoteInc_frame {h : BulkHdr} (habs : h.abs_ = false) (s : State) (c : Nat) :
    ((s.remoteInc c h h.inc).core c).tracker = (s.core c).tracker ∧ ((s.remoteInc c h h.inc).core c).counters = (s.core c).incremented h ∧
      (s.remoteInc c h h.inc).mem = s.mem ∧ (s.remoteInc c h h.inc).out = s.out := by
  unfold State.remoteInc Core.incremented
  simp only [habs, Bool.false_eq_true, if_false]
  split
  · obtain ⟨hcore, hmem, hout⟩ := s.cntAdd_frame c ((s.task c h.slot).tcbase + h.cnt) h.inc
    obtain ⟨htracker, hcounters⟩ := (s.cntAdd c ((s.task c h.slot).tcbase + h.cnt) h.inc).resched_tracker_counters c
    rw [hcore] at htracker hcounters
    exact ⟨htracker, hcounters, (State.resched_mem ..).trans hmem, (State.resched_out ..).trans hout⟩
  · exact ⟨rfl, rfl, rfl, rfl⟩

/-! ### The delivery of a whole transfer -/

/-- The tracker entry of a transfer whose first `n` bytes have come (R136). -/
def firstTrk (h : BulkHdr) (n : Nat) : TrkEnt := { src := h.srcCode, tag := h.tag, got := n, cnt := h.cntEn, bad := false, acked := false }

/-- The state that `n` bytes of a transfer's first packet leave once they are counted and tracked (R136, R581). -/
def State.tracked (s : State) (c : Nat) (h : BulkHdr) (n : Nat) : State := (s.perf c 10 n).putTrk c (firstTrk h n) h.addr

/-- Where they are the whole transfer, no entry is kept. -/
theorem State.tracked_whole {s : State} {c n : Nat} {h : BulkHdr} (htracker : (s.core c).tracker = []) (hlen : h.addr ≤ n) :
    (s.tracked c h n).core c = s.core c ∧ (s.tracked c h n).mem = s.mem ∧ (s.tracked c h n).out = s.out := by
  refine ⟨?_, State.perf_mem .., State.perf_out ..⟩
  have hnone : ({ s.core c with tracker := [] } : Core) = s.core c := by rw [← htracker]
  simpa [State.tracked, State.putTrk, State.perf_core, firstTrk, htracker, hlen] using hnone

section Whole

variable {s v : State} {c : Nat} {h : BulkHdr} {data : List Byte} (habs : h.abs_ = false) (hfence : (s.core c).fenced = false)
  (hst : (s.task c h.slot).st ≠ .empty)
include habs hfence hst

/-- A target accepts bytes in its task's window whose counter, if there is one, is the task's (R135, R150). -/
theorem State.targetStatus_ok {o n : Nat} (hin : o + n ≤ (s.task c h.slot).window) (hcnt : h.cntEn = true → h.cnt < (s.task c h.slot).tccount) :
    s.targetStatus c h o n = 0 := by
  have hcounter : (h.cntEn && decide ((s.task c h.slot).tccount ≤ h.cnt)) = false := by
    cases hen : h.cntEn
    · rfl
    · simp [hcnt hen]
  simp only [State.targetStatus, State.reachOf, hfence, habs, hst, Nat.not_lt.mpr hin, Bool.not_false, Bool.and_true, hcounter, Bool.false_eq_true, if_false]

/-- The packet that brings a whole transfer is written, counted and acknowledged at once (R135 to R139). -/
theorem State.deliver_whole (hawake : s.asleep c = false) (htracker : (s.core c).tracker = []) (hpulls : (s.core c).pulls = []) (hlen : h.addr ≤ data.length)
    (hin : h.toff + s.extentOf h data.length ≤ (s.task c h.slot).window) (hcnt : h.cntEn = true → h.cnt < (s.task c h.slot).tccount)
    (hwrite : s.spWrite c ((s.task c h.slot).tbase + h.toff + h.soff) data = (v, none)) (ack : Nat → State → State) :
    s.deliver c h data ack = ack 0 ((v.tracked c h data.length).remoteInc c h h.inc) := by
  have hstatus := State.targetStatus_ok habs hfence hst hin hcnt
  have hbase : (s.reachOf c h).1 = (s.task c h.slot).tbase := by simp [State.reachOf, habs, hst]
  have hnone : (s.core c).trk h.srcCode h.tag = none := by simp [Core.trk, htracker]
  simp only [State.deliver, State.deliverWaits_idle hawake htracker hpulls, hnone, Option.getD_none, hstatus, hbase, hwrite]
  simp [State.tracked, firstTrk, hlen]

end Whole

/-- Delivered whole, a transfer leaves no tracker entry, its counter incremented, and the bytes and packets sent that its write left (R136, R137). -/
theorem State.delivered_frame {s v : State} {c n : Nat} {h : BulkHdr} (herr : ErrOnly s { v with mem := s.mem }) (habs : h.abs_ = false)
    (htracker : (s.core c).tracker = []) (hlen : h.addr ≤ n) : let w := (v.tracked c h n).remoteInc c h h.inc
    w.mem = v.mem ∧ w.out = v.out ∧ (w.core c).tracker = [] ∧ (w.core c).counters = (s.core c).incremented h := by
  obtain ⟨-, hcores, -⟩ := herr
  have hheld : (v.core c).tracker = [] := (congrArg Core.tracker (hcores c) :).trans htracker
  have hincremented : (v.core c).incremented h = (s.core c).incremented h := (congrArg (fun k : Core => k.incremented h) (hcores c) :)
  obtain ⟨hcore, hmem, hout⟩ := State.tracked_whole hheld hlen
  obtain ⟨hwtracker, hwcounters, hwmem, hwout⟩ := (v.tracked c h n).remoteInc_frame habs c
  rw [hcore] at hwtracker hwcounters
  exact ⟨hwmem.trans hmem, hwout.trans hout, hwtracker.trans hheld, hwcounters.trans hincremented⟩

/-- Settles O21: the packet is taken at its core, delivered whole, and answered. -/
theorem aWholeWriteIsStoredCountedAndAcknowledged : Obligations.AWholeWriteIsStoredCountedAndAcknowledged := by
  unfold Obligations.AWholeWriteIsStoredCountedAndAcknowledged
  intro s v c cr h data g hc hkind hat htakes hvc hawake hfence habs htracker hpulls hlen k n hst hin hcnt hwrite
  have hdest : g.dest = c := by simp [BulkHdr.dest, g, hkind, hat]
  have hroute : s.routeTo c cr g.dest (laneOf g) = .here c := hdest ▸ State.routeTo_core_self hc s cr _
  have hwait : (s.writeWaits c g data.length || (decide (c < 36864) && decide (g.vc ≠ 5) && s.deliverWaits c g)) = false := by
    rw [State.writeWaits_core hc, State.deliverWaits_idle hawake htracker hpulls, Bool.and_false, Bool.or_false]
  have htx := s.took_txOnly c g
  have hcore := htx.core c
  have htask : (s.took c g).task c g.slot = k := htx.task c g.slot
  have hdeliver := State.deliver_whole (s := s.took c g) (h := g) habs (hcore ▸ hfence) (htask ▸ hst) ((htx.asleep hc).trans hawake) (hcore ▸ htracker)
    (hcore ▸ hpulls) hlen (htask ▸ hin) (htask ▸ hcnt) (htask ▸ hwrite) (ackUnicast c g)
  obtain ⟨hmem, hout, hwtracker, hwcounters⟩ := State.delivered_frame (h := g) (spWrite_errOnly hwrite) habs (hcore ▸ htracker) hlen
  refine ⟨ackUnicast c g 0 ((v.tracked c g data.length).remoteInc c g g.inc),
    (exec_bulkWrite ..).trans (congrArg Host.Outcome.next ((unicast_here hroute ?_ htakes _ _).trans ?_)), hmem, congrArg (_ :: ·) hout, hwtracker,
    hwcounters.trans ?_⟩
  · exact hwait
  · exact (if_neg (fun hboth => hvc hboth.2)).trans ((if_pos hc).trans hdeliver)
  · rw [hcore]
    rfl

end Sys2Proof.Machine

/-! PROOFS. Multicast trees at a router (R175 to R177) and the reduction of RSEND packets (R202 to R207): the entry that MC_OPEN takes, what merges into it, and
the combination into a target's window. Settles O23. -/

namespace Sys2Proof.Machine

section Arms

variable (r : Nat) (cr : List Nat) (h : BulkHdr) (data : List Byte) (s : State)

theorem exec_mcOpen : exec (.mcOpen r cr h) s = execMcOpen r cr h s := rfl
theorem exec_mcOpenRsp : exec (.mcOpenRsp r cr h) s = execMcOpenRsp r cr h s := rfl
theorem exec_mcClose : exec (.mcClose r cr h) s = execMcClose r cr h s := rfl
theorem exec_mcWrite : exec (.mcWrite r cr h data) s = execMcWrite r cr h data s := rfl
theorem exec_rsendPacket : exec (.rsendPacket r cr h data) s = execRsendPacket r cr h data s := rfl
theorem exec_rsendHoldExpiry (i : Nat) : exec (.rsendHoldExpiry r i) s = execRsendHoldExpiry r i s := rfl

end Arms

/-! ### A packet at a router of its rectangle -/

/-- A multicast packet that a router of its rectangle takes is handled there (R175). -/
theorem multicast_here {s : State} {r : Nat} {cr : List Nat} {h : BulkHdr} {data : List Byte} {waits : State → Nat → Bool} (hr : r < 36864)
    (hin : inRect h r = true) (hwait : waits s r = false) (ht : s.Takes r h) (f : Nat → State → State) :
    multicast r cr h data waits f s = f r (s.took r h) := by
  have hat : s.treeAt r cr h = .here r := if_pos ⟨hr, hin⟩
  simp only [multicast, hat, hwait, Bool.false_eq_true, if_false]
  exact State.receive_of_takes ht _

theorem TxOnly.router {s t : State} (h : TxOnly s t) (r : Nat) : t.router r = s.router r := by rw [State.router, h.routers, State.router]

@[simp] theorem State.router_updRouter_same (s : State) (r : Nat) (f : Router → Router) : (s.updRouter r f).router r = f (s.router r) :=
  State.router_setRouter_same ..

@[simp] theorem State.router_emit (s : State) (o : Out) (r : Nat) : (s.emit o).router r = s.router r := rfl

/-- A router's update counts by what it makes of the router as it stands. -/
theorem State.updRouter_congr {s : State} {r : Nat} {f g : Router → Router} (h : f (s.router r) = g (s.router r)) : s.updRouter r f = s.updRouter r g :=
  congrArg (s.setRouter r) h

/-- An answer leaves the tree at its entry core (R176). -/
theorem State.sendUp_entry {e : TreeEnt} (hup : e.up = 4) (s : State) (r type status : Nat) : s.sendUp r e type status =
    s.emit (.bulk r 14 ((({ hdr0 with type := type, vc := 3, status := status, tag := e.tag }).dst (codeLoc e.src)).src r) []) :=
  if_pos hup

/-- A router with one tree entry finds it under its source and TAG. -/
theorem Router.treeEnt_single {x : Router} {e : TreeEnt} {src tag : Nat} (h : x.tree = [e]) (hsrc : e.src = src) (htag : e.tag = tag) :
    x.treeEnt src tag = some e := by
  simp [Router.treeEnt, h, hsrc, htag]

/-! ### MC_OPEN -/

/-- The tree entry that MC_OPEN takes at a router (R176). -/
def treeEntFor (h : BulkHdr) (r : Nat) : TreeEnt :=
  ⟨h.srcCode, h.tag, treeDirs h r, (treeUp h r).getD 4, (treeDirs h r).length, (treeDirs h r).length + 1, 0⟩

/-- MC_OPEN takes a free entry (R176). -/
theorem exec_mcOpen_free {s : State} {r : Nat} {cr : List Nat} {h : BulkHdr} (hr : r < 36864) (hin : inRect h r = true)
    (ht : s.Takes r { h with type := 2 }) (hfree : (s.router r).tree.length < 32) :
    let u := (s.took r { h with type := 2 }).updRouter r (fun x => { x with tree := x.tree ++ [treeEntFor h r] })
    exec (.mcOpen r cr h) s =
      .next (if (treeDirs h r).isEmpty then u.sendUp r (treeEntFor h r) 3 0 else u.copies r (treeDirs h r) { h with type := 2 } []) := by
  have hroom : ¬32 ≤ ((s.took r { h with type := 2 }).router r).tree.length := by
    rw [(s.took_txOnly r _).router]
    omega
  rw [exec_mcOpen]
  exact congrArg Host.Outcome.next ((multicast_here (h := { h with type := 2 }) hr hin rfl ht _).trans (if_neg hroom))

/-! ### The answers that a tree merges -/

/-- The last answer to MC_OPEN at the entry core goes to the source (R176). -/
theorem State.treeOpen_last {s : State} {r : Nat} {e : TreeEnt} (htree : (s.router r).tree = [e]) (hopens : e.opens = 1) (hup : e.up = 4) (status : Nat) :
    (s.treeOpen r e status).out =
      .bulk r 14 ((({ hdr0 with type := 3, vc := 3, status := mergeStatus e.status status, tag := e.tag }).dst (codeLoc e.src)).src r) [] :: s.out ∧
    ((s.treeOpen r e status).router r).tree = [{ e with opens := 0, status := 0 }] := by
  simp only [State.treeOpen, hopens, Nat.le_refl, if_true, State.sendUp_entry hup]
  refine ⟨rfl, ?_⟩
  rw [State.router_emit, State.router_updRouter_same]
  simp [updFirst, htree, hopens]

/-- The last ACK at the entry core goes to the source, and the entry is free (R176). -/
theorem State.treeAck_last {s : State} {r : Nat} {e : TreeEnt} (htree : (s.router r).tree = [e]) (hacks : e.acks = 1) (hup : e.up = 4) (status : Nat) :
    (s.treeAck r e status).out =
      .bulk r 14 ((({ hdr0 with type := 8, vc := 3, status := mergeStatus e.status status, tag := e.tag }).dst (codeLoc e.src)).src r) [] :: s.out ∧
    ((s.treeAck r e status).router r).tree = [] ∧ (s.treeAck r e status).mem = s.mem := by
  simp only [State.treeAck, hacks, Nat.le_refl, if_true, State.sendUp_entry hup]
  refine ⟨rfl, ?_, rfl⟩
  rw [State.router_emit, State.dropTree, State.router_updRouter_same]
  simp [removeFirst, htree]

/-- MC_OPEN_RSP at a router whose tree entry awaits it is merged there (R176). -/
theorem exec_mcOpenRsp_merges {s : State} {r : Nat} {cr : List Nat} {h : BulkHdr} {e : TreeEnt} (hr : r < 36864) (ht : s.Takes r { h with type := 3 })
    (htree : (s.router r).tree = [e]) (hkind : h.dkind = 0) (hsrc : e.src = h.x0 + 256 * h.y0) (htag : e.tag = h.tag) (hopens : 0 < e.opens) :
    exec (.mcOpenRsp r cr h) s = .next ((s.took r { h with type := 3 }).treeOpen r e h.status) := by
  have hent : (if r < 36864 then ((s.router r).treeEnt (if h.dkind = 1 then h.x0 + 65536 else h.x0 + 256 * h.y0) h.tag).filter
      (fun e => decide (0 < e.opens)) else none) = some e := by
    simp [hr, hkind, Router.treeEnt_single htree hsrc htag, hopens]
  rw [exec_mcOpenRsp]
  unfold execMcOpenRsp
  dsimp only
  rw [hent]
  exact congrArg Host.Outcome.next (State.receive_of_takes ht _)

/-! ### MC_CLOSE and MC_WRITE -/

/-- MC_CLOSE frees the entry and goes on down its branches (R176). -/
theorem exec_mcClose_single {s : State} {r : Nat} {cr : List Nat} {h : BulkHdr} {e : TreeEnt} (hr : r < 36864) (hin : inRect h r = true)
    (ht : s.Takes r { h with type := 0xC }) (htree : (s.router r).tree = [e]) (hsrc : e.src = h.srcCode) (htag : e.tag = h.tag) :
    exec (.mcClose r cr h) s =
      .next (((s.took r { h with type := 0xC }).updRouter r (fun x => { x with tree := [] })).copies r e.branches { h with type := 0xC } []) := by
  have htree' : ((s.took r { h with type := 0xC }).router r).tree = [e] := ((s.took_txOnly r _).router r).symm ▸ htree
  have hent : ((s.took r { h with type := 0xC }).router r).treeEnt h.srcCode h.tag = some e := Router.treeEnt_single htree' hsrc htag
  have hdrop : (s.took r { h with type := 0xC }).dropTree r e.src e.tag = (s.took r { h with type := 0xC }).updRouter r (fun x => { x with tree := [] }) :=
    State.updRouter_congr (by simp [removeFirst, htree'])
  rw [exec_mcClose]
  refine congrArg Host.Outcome.next ((multicast_here (h := { h with type := 0xC }) hr hin rfl ht _).trans ?_)
  dsimp only
  rw [show ({ h with type := 0xC } : BulkHdr).srcCode = h.srcCode from rfl, hent]
  dsimp only
  rw [hdrop]

/-! ### MC_WRITE -/

theorem State.remoteInc_of_no_counter {h : BulkHdr} (hcnt : h.cntEn = false) (s : State) (c inc : Nat) : s.remoteInc c h inc = s := by
  simp [State.remoteInc, hcnt]

/-- A transfer without a counter waits at no awake core (R136, R172). -/
theorem State.deliverWaits_of_no_counter {s : State} {c : Nat} {h : BulkHdr} (hawake : s.asleep c = false) (hcnt : h.cntEn = false) :
    s.deliverWaits c h = false := by
  simp [State.deliverWaits, hawake, hcnt]

/-- The packet that brings a whole transfer without a counter is written and acknowledged at once, whatever pulls are under way (R135 to R139). -/
theorem State.deliver_whole_of_no_counter {s v : State} {c : Nat} {h : BulkHdr} {data : List Byte} (habs : h.abs_ = false) (hcnt : h.cntEn = false)
    (hfence : (s.core c).fenced = false) (hst : (s.task c h.slot).st ≠ .empty) (hawake : s.asleep c = false) (htracker : (s.core c).tracker = [])
    (hlen : h.addr ≤ data.length) (hin : h.toff + s.extentOf h data.length ≤ (s.task c h.slot).window)
    (hwrite : s.spWrite c ((s.task c h.slot).tbase + h.toff + h.soff) data = (v, none)) (ack : Nat → State → State) :
    s.deliver c h data ack = ack 0 (v.tracked c h data.length) := by
  have hstatus := State.targetStatus_ok habs hfence hst hin (fun hen => absurd hen (by simp [hcnt]))
  have hbase : (s.reachOf c h).1 = (s.task c h.slot).tbase := by simp [State.reachOf, habs, hst]
  have hnone : (s.core c).trk h.srcCode h.tag = none := by simp [Core.trk, htracker]
  simp only [State.deliver, State.deliverWaits_of_no_counter hawake hcnt, hnone, Option.getD_none, hstatus, hbase, hwrite]
  simp [State.tracked, firstTrk, hlen, State.remoteInc_of_no_counter hcnt]

theorem ErrOnly.routers {s t : State} (h : ErrOnly s t) : t.routers = s.routers := (congrArg State.routers h.1 :)

theorem State.perf_routers (s : State) (c i n : Nat) : (s.perf c i n).routers = s.routers :=
  (congrArg State.routers (s.pcount_frame (coreDie c) (CD_PERF.COUNT (coreDie c) (coreN c) i) (CD_PERF_WRAP.WRAP (coreDie c) (coreN c)) i n).1 :)

theorem State.router_congr {s t : State} (h : t.routers = s.routers) (r : Nat) : t.router r = s.router r := by rw [State.router, h, State.router]

/-- A write into the scratchpad, counted and tracked, leaves the routers. -/
theorem State.tracked_router {s v : State} {c a : Nat} {data : List Byte} (hwrite : s.spWrite c a data = (v, none)) (h : BulkHdr) (n r : Nat) :
    (v.tracked c h n).router r = s.router r :=
  State.router_congr ((State.perf_routers v ..).trans (spWrite_errOnly hwrite).routers) r

/-- At a router without branches, MC_WRITE goes into the core, whose ACK the tree entry merges (R175 to R177). -/
theorem exec_mcWrite_leaf {s v : State} {r : Nat} {cr : List Nat} {h : BulkHdr} {data : List Byte} {e : TreeEnt} (hr : r < 36864) (hin : inRect h r = true)
    (htree : (s.router r).tree = [e]) (hsrc : e.src = h.srcCode) (htag : e.tag = h.tag) (ht : s.Takes r { h with type := 1 }) (hleaf : e.branches = [])
    (hawake : s.asleep r = false) (hfence : (s.core r).fenced = false) (habs : h.abs_ = false) (hcnt : h.cntEn = false) (htracker : (s.core r).tracker = [])
    (hlen : h.addr ≤ data.length) (hst : (s.task r h.slot).st ≠ .empty)
    (hwin : h.toff + (s.took r { h with type := 1 }).extentOf { h with type := 1 } data.length ≤ (s.task r h.slot).window)
    (hwrite : (s.took r { h with type := 1 }).spWrite r ((s.task r h.slot).tbase + h.toff + h.soff) data = (v, none)) :
    exec (.mcWrite r cr h data) s = .next ((v.tracked r { h with type := 1 } data.length).treeAck r e 0) := by
  have htx := s.took_txOnly r { h with type := 1 }
  have hcore := htx.core r
  have htask := htx.task r h.slot
  have hent {x : State} (hx : x.router r = s.router r) : (x.router r).treeEnt h.srcCode h.tag = some e :=
    Router.treeEnt_single (hx ▸ htree) hsrc htag
  have hwait : (((s.router r).treeEnt h.srcCode h.tag).isSome && s.deliverWaits r { h with type := 1 }) = false := by
    rw [State.deliverWaits_of_no_counter (h := { h with type := 1 }) hawake hcnt, Bool.and_false]
  have hdeliver := State.deliver_whole_of_no_counter (s := s.took r { h with type := 1 }) (h := { h with type := 1 }) habs hcnt (hcore ▸ hfence) (htask ▸ hst)
    ((htx.asleep hr).trans hawake) (hcore ▸ htracker) hlen (htask ▸ hwin) (htask ▸ hwrite)
  have hafter := (State.tracked_router hwrite { h with type := 1 } data.length r).trans (htx.router r)
  rw [exec_mcWrite]
  refine congrArg Host.Outcome.next ((multicast_here (h := { h with type := 1 }) hr hin hwait ht _).trans ?_)
  dsimp only
  rw [show ({ h with type := 1 } : BulkHdr).srcCode = h.srcCode from rfl, hent (htx.router r)]
  dsimp only
  rw [hleaf]
  refine (hdeliver _).trans ?_
  rw [hent hafter]

/-! ### RSEND -/

/-- An RSEND packet in its target's window is combined there and acknowledged (R202, R203). -/
theorem State.reduceInto_ok {s v w : State} {c : Nat} {h : BulkHdr} {data old : List Byte} (habs : h.abs_ = false) (hcnt : h.cntEn = false)
    (hfence : (s.core c).fenced = false) (hst : (s.task c h.slot).st ≠ .empty) (hin : h.toff + h.soff + data.length ≤ (s.task c h.slot).window)
    (hread : s.spRead c ((s.task c h.slot).tbase + h.toff + h.soff) data.length = (w, .ok old))
    (hwrite : w.spWrite c ((s.task c h.slot).tbase + h.toff + h.soff) (redCombine h.op data.length old data) = (v, none)) :
    s.reduceInto c h data = (v.perf c 10 data.length).answer c h 8 0 0 := by
  have hstatus := State.targetStatus_ok habs hfence hst hin (fun hen => absurd hen (by simp [hcnt]))
  have hbase : (s.reachOf c h).1 = (s.task c h.slot).tbase := by simp [State.reachOf, habs, hst]
  simp only [State.reduceInto, hstatus, hbase, hread, hwrite, ne_eq, not_true_eq_false, if_false, State.remoteInc_of_no_counter hcnt]

/-- Where a die's hold points are off, an RSEND packet goes on unheld (R205). -/
theorem State.laneIn_of_dis {s : State} {r : Nat} (hdis : s.bit (CD_RED_CTL.DIS (coreDie r)) = true) (way : Nat) (h : BulkHdr) (data : List Byte) :
    s.laneIn r way h data = s.reduceOut r way h data := if_pos hdis

theorem TxOnly.bit_redDis {s t : State} (h : TxOnly s t) (d : Nat) : t.bit (CD_RED_CTL.DIS d) = s.bit (CD_RED_CTL.DIS d) := by
  obtain ⟨-, -, hrd⟩ := h
  rw [State.bit, State.bit, hrd]
  · intro e i
    dsimp only [CD_RED_CTL.DIS, CD_NET_TX.COUNT]
    omega
  · intro e
    dsimp only [CD_RED_CTL.DIS, CD_PERF_DWRAP.NET_WRAP]
    omega

/-- An RSEND packet at the router of its target goes into it where the die's hold points are off (R202, R203). -/
theorem exec_rsendPacket_unheld {s : State} {r : Nat} {cr : List Nat} {h : BulkHdr} {data : List Byte} (hr : r < 36864) (hkind : h.dkind = 0)
    (hat : coreAt h.x0 h.y0 = r) (ht : s.Takes r { h with type := 9 }) (hawake : s.asleep r = false) (hdis : s.bit (CD_RED_CTL.DIS (coreDie r)) = true) :
    exec (.rsendPacket r cr h data) s = .next ((s.took r { h with type := 9 }).reduceInto r { h with type := 9 } data) := by
  have hdest : ({ h with type := 9 } : BulkHdr).dest = r := by simp [BulkHdr.dest, hkind, hat]
  have hroute (lane : Option Nat) : s.routeTo r cr ({ h with type := 9 } : BulkHdr).dest lane = .here r := hdest ▸ State.routeTo_core_self hr s cr lane
  have hwait : sleeps s r = false := by rw [sleeps, hawake, Bool.and_false]
  have hdis' := ((s.took_txOnly r { h with type := 9 }).bit_redDis (coreDie r)).trans hdis
  rw [exec_rsendPacket]
  unfold execRsendPacket
  dsimp only
  rw [hroute]
  refine congrArg Host.Outcome.next ((unicast_here (hroute _) hwait ht _ _).trans ((if_neg (Nat.not_le.mpr hr)).trans ?_))
  exact (State.laneIn_of_dis hdis' 9 _ data).trans (if_pos rfl)

/-- A lane entry with one contributor is freed, and its packet leaves by its way (R207). -/
theorem State.laneOut_single {s : State} {r : Nat} {e : LaneEnt} {h : BulkHdr} {data : List Byte} (hlanes : (s.router r).lanes = [e])
    (hheld : e.held = some (h, data)) (hby : e.by_.length = 1) (hway : e.way ≠ 9) :
    s.laneOut r e = (s.updRouter r (fun x => { x with lanes := [] })).leave r e.way h data := by
  have hfree : (s.updRouter r (fun x => { x with lanes := x.lanes.filter (fun y => decide (y.idx ≠ e.idx)) })) = s.updRouter r (fun x => { x with lanes := [] }) :=
    State.updRouter_congr (by simp [hlanes])
  simp only [State.laneOut, hheld, hby, Nat.lt_irrefl, if_false, State.reduceOut, hway, hfree]

/-- A held RSEND packet with one contributor leaves when its hold ends (R206, R207). -/
theorem exec_rsendHoldExpiry_single {s : State} {r : Nat} {e : LaneEnt} {h : BulkHdr} {data : List Byte} (hlanes : (s.router r).lanes = [e])
    (hheld : e.held = some (h, data)) (hby : e.by_.length = 1) (hway : e.way < 9) :
    exec (.rsendHoldExpiry r e.idx) s = .next ((s.updRouter r (fun x => { x with lanes := [] })).leave r e.way h data) := by
  have hne : e.way ≠ 9 := Nat.ne_of_lt hway
  have hfind : (s.router r).lanes.find? (fun x => decide (x.idx = e.idx) && x.held.isSome) = some e := by simp [hlanes, hheld]
  rw [exec_rsendHoldExpiry]
  unfold execRsendHoldExpiry
  rw [hfind]
  dsimp only
  rw [if_neg (fun hboth => hne hboth.1), State.laneOut_single hlanes hheld hby hne]

/-- Settles O23: MC_OPEN, its answer, MC_CLOSE and MC_WRITE at a router of the rectangle, an RSEND packet at its target and one whose hold ends. -/
theorem multicastTreesAndReductions : Obligations.MulticastTreesAndReductions := by
  unfold Obligations.MulticastTreesAndReductions
  intro s v r cr h data e hr hin dirs g answer
  refine ⟨fun ht hfree hdirs => ?branches, fun ht hfree hdirs hup => ?leaf, fun ht htree hkind hsrc htag hopens hup => ?answered,
    fun htree hsrc htag => ⟨fun ht => exec_mcClose_single hr hin ht htree hsrc htag,
      fun ht hleaf hacks hup hawake hfence habs hcnt htracker hlen hst hwin hwrite => ?written⟩,
    fun w old hkind hat ht hawake hfence habs hcnt hdis hst hwin hread hwrite => ?combined,
    fun e hlanes hheld hby hway => exec_rsendHoldExpiry_single hlanes hheld hby hway⟩
  case branches =>
    exact (exec_mcOpen_free hr hin ht hfree).trans (congrArg Host.Outcome.next (if_neg (by simpa using hdirs)))
  case leaf =>
    have hent : treeEntFor h r = ⟨h.srcCode, h.tag, [], 4, 0, 1, 0⟩ := by
      rw [treeEntFor, hup, show treeDirs h r = [] from hdirs]
      rfl
    refine ⟨_, (exec_mcOpen_free hr hin ht hfree).trans (congrArg Host.Outcome.next
      ((if_pos (by simpa using hdirs)).trans (State.sendUp_entry (congrArg TreeEnt.up hent) ..))), ?_, ?_⟩
    · rw [State.router_emit, State.router_updRouter_same, hent, (s.took_txOnly r _).router]
    · rfl
  case answered =>
    obtain ⟨hout, htree'⟩ := State.treeOpen_last (((s.took_txOnly r (g 3)).router r).symm ▸ htree) hopens hup h.status
    exact ⟨_, exec_mcOpenRsp_merges hr ht htree hkind hsrc htag (by omega), hout, htree'⟩
  case written =>
    have hrouter := (State.tracked_router hwrite (g 1) data.length r).trans ((s.took_txOnly r (g 1)).router r)
    obtain ⟨hout, hfreed, hmem⟩ := State.treeAck_last (hrouter.symm ▸ htree) hacks hup 0
    exact ⟨_, exec_mcWrite_leaf hr hin htree hsrc htag ht hleaf hawake hfence habs hcnt htracker hlen hst hwin hwrite,
      hmem.trans (State.perf_mem ..), hfreed, hout.trans (congrArg (_ :: ·) (State.perf_out ..))⟩
  case combined =>
    have htx := s.took_txOnly r (g 9)
    have hcore := htx.core r
    have htask := htx.task r h.slot
    have hcombined := State.reduceInto_ok (s := s.took r (g 9)) (h := g 9) habs hcnt (hcore ▸ hfence) (htask ▸ hst) (htask ▸ hwin) (htask ▸ hread)
      (htask ▸ hwrite)
    exact ⟨_, (exec_rsendPacket_unheld hr hkind hat ht hawake hdis).trans (congrArg Host.Outcome.next hcombined), State.perf_mem ..,
      congrArg (_ :: ·) (State.perf_out ..)⟩

end Sys2Proof.Machine

/-! PROOFS. Control packets at their node (R156, R157, R171), and the set-up accesses that they carry (R185). Settles O30. -/

namespace Sys2Proof.Machine

/-! ### A packet at its node -/

/-- A packet for one node that arrives, and that nothing holds back, is taken and handled there. -/
theorem atCtl_arrives {s : State} {h : CtlHdr} {wait : CtlHdr → State → Bool} (harr : s.CtlArrives h) (hwait : wait h s = false)
    (f : CtlHdr → State → Res) : atCtl h wait f s = f h (s.ctlTook h) := by
  obtain ⟨hone, hroute⟩ := harr
  simp only [atCtl, hone, hroute, hwait, Bool.not_true, Bool.false_eq_true, if_false]

theorem State.dieAbsent_congr {s t : State} (h : t.regs = s.regs) (d : Nat) : t.dieAbsent d = s.dieAbsent d := by
  unfold State.dieAbsent State.dieHole State.rgnState
  rw [State.rd_congr h, State.rd_congr h, State.rd_congr h]

theorem State.nodeOn_congr {s t : State} (h : t.regs = s.regs) (n : Nat) : t.nodeOn n = s.nodeOn n := by
  rw [State.nodeOn, State.dieAbsent_congr h, State.nodeOn]

theorem State.ctlTook_regs (s : State) (h : CtlHdr) : (s.ctlTook h).regs = s.regs := (s.ctlTook_ctlOnly h).regs

/-- The router of the node that a packet arrives at is on (R157). -/
theorem State.CtlArrives.nodeOn {s : State} {h : CtlHdr} (harr : s.CtlArrives h) : s.nodeOn h.dnode = true := by
  obtain ⟨-, hroute⟩ := harr
  simp only [State.ctlRoute, Bool.and_eq_true] at hroute
  exact hroute.1.2

/-! ### Set-up accesses (R185) -/

theorem exec_setup (h : CtlHdr) (off : Nat) (wr size8 : Bool) (data : Nat) (rsv : Bool) (s : State) :
    exec (.setup h off wr size8 data rsv) s = execSetup h off wr size8 data rsv s := rfl

theorem exec_setupRsp (h : CtlHdr) (st data : Nat) (s : State) : exec (.setupRsp h st data) s = execSetupRsp h st data s := rfl

/-- The state in which a request is outstanding at its agent. -/
def State.setupSent (s : State) (h : CtlHdr) : State := s.updNode h.snode (fun x => { x with setups := x.setups ++ [h.slocal * 256 + h.msgid] })

/-- The answer to a request goes to its agent. -/
def State.setupAnswer (s : State) (h : CtlHdr) (flits : List Nat) : State :=
  s.ctlOut (ctlHdr 6 5 h.snode h.slocal h.dnode h.dlocal flits.length h.msgid) flits

/-- A request that arrives is judged at its node. -/
theorem exec_setup_arrives {s : State} {h : CtlHdr} (harr : s.CtlArrives h) (off : Nat) (wr size8 : Bool) (data : Nat) (rsv : Bool) :
    exec (.setup h off wr size8 data rsv) s = atSetup off wr size8 data rsv h (s.ctlTook h) := by
  rw [exec_setup, execSetup, harr.nodeOn, Bool.not_true, Bool.and_false]
  exact (if_neg Bool.false_ne_true).trans (atCtl_arrives harr rfl _)

/-- One for a node that is off is judged where it is answered in its place. -/
theorem exec_setup_off {s : State} {h : CtlHdr} (hone : h.bcast = false) (hoff : s.nodeOn h.dnode = false) (off : Nat) (wr size8 : Bool) (data : Nat)
    (rsv : Bool) : exec (.setup h off wr size8 data rsv) s = atSetup off wr size8 data rsv h (s.ctlTook h) := by
  rw [exec_setup, execSetup, hone, hoff]
  exact if_pos rfl

section Judged

variable {s : State} {h : CtlHdr} {off data : Nat} {wr size8 rsv : Bool} (hmay : s.maySetup h = true)
include hmay

theorem atSetup_malformed
    (hbad : (rsv || decide (off % (if size8 then 8 else 4) ≠ 0) || decide (0x4000000 ≤ off) || (wr && !size8 && decide (2 ^ 32 ≤ data))) = true) :
    atSetup off wr size8 data rsv h s = .next ((s.setupSent h).setupAnswer h [2]) := by
  simp only [atSetup, hmay, Bool.not_true, Bool.false_eq_true, if_false, hbad, if_true]
  rfl

variable (hoff : off < 2 ^ 26) (halign : off % (if size8 then 8 else 4) = 0) (hdata : (wr && !size8 && decide (2 ^ 32 ≤ data)) = false)
include hoff halign hdata

/-- A request that is not malformed is answered ABSENT or performed. -/
theorem atSetup_wellFormed : atSetup off wr size8 data false h s =
    let u := s.setupSent h
    let n := if size8 then 8 else 4
    if u.ownerAbsent off || !u.nodeOn h.dnode then .next (u.setupAnswer h [1])
    else if wr then .next ((u.regWrite .fw off n data).setupAnswer h [0])
    else .next ((u.regRead off n).2.setupAnswer h [0, (u.regRead off n).1]) := by
  have hlow : decide (0x4000000 ≤ off) = false := decide_eq_false (by omega)
  simp only [atSetup, hmay, Bool.not_true, Bool.false_eq_true, if_false, halign, hlow, hdata, ne_eq, not_true_eq_false, decide_false, Bool.or_false]
  rfl

theorem atSetup_absent (habsent : (s.setupSent h).ownerAbsent off = true ∨ s.nodeOn h.dnode = false) :
    atSetup off wr size8 data false h s = .next ((s.setupSent h).setupAnswer h [1]) := by
  have hnode : (s.setupSent h).nodeOn h.dnode = s.nodeOn h.dnode := State.nodeOn_congr rfl _
  refine (atSetup_wellFormed hmay hoff halign hdata).trans (if_pos ?_)
  rcases habsent with habsent | hnone
  · rw [habsent, Bool.true_or]
  · rw [hnode, hnone, Bool.not_false, Bool.or_true]

variable (hthere : (s.setupSent h).ownerAbsent off = false) (hon : s.nodeOn h.dnode = true)
include hthere hon

theorem atSetup_there : atSetup off wr size8 data false h s =
    let u := s.setupSent h
    let n := if size8 then 8 else 4
    if wr then .next ((u.regWrite .fw off n data).setupAnswer h [0]) else .next ((u.regRead off n).2.setupAnswer h [0, (u.regRead off n).1]) := by
  have hnode : (s.setupSent h).nodeOn h.dnode = true := (State.nodeOn_congr rfl _).trans hon
  refine (atSetup_wellFormed hmay hoff halign hdata).trans (if_neg ?_)
  simp only [hthere, hnode, Bool.not_true, Bool.or_false, Bool.false_eq_true, not_false_eq_true]

end Judged

/-- Settles O30: a request is judged at its node or in its place, and answered by what `atSetup` finds. -/
theorem setupRequestsAreAnswered : Obligations.SetupRequestsAreAnswered := by
  unfold Obligations.SetupRequestsAreAnswered
  intro s h off data hmay u rsp
  have hnode : (s.ctlTook h).nodeOn h.dnode = s.nodeOn h.dnode := State.nodeOn_congr (s.ctlTook_regs h) _
  refine ⟨fun harr => ?arrives, fun hone hdown halign hoff => (exec_setup_off hone hdown ..).trans
      (atSetup_absent hmay hoff halign rfl (.inr (hnode.trans hdown))), fun harr st => atCtl_arrives harr rfl _⟩
  case arrives =>
    have hon := hnode.trans harr.nodeOn
    refine ⟨fun hodd => (exec_setup_arrives harr ..).trans (atSetup_malformed hmay ?_), (exec_setup_arrives harr ..).trans (atSetup_malformed hmay rfl),
      fun halign hoff habsent => (exec_setup_arrives harr ..).trans (atSetup_absent hmay hoff halign rfl (.inl habsent)),
      fun halign hoff hthere => ⟨(exec_setup_arrives harr ..).trans (atSetup_there hmay hoff halign rfl hthere hon),
        fun hdata => (exec_setup_arrives harr ..).trans (atSetup_there hmay hoff halign ?_ hthere hon)⟩,
      fun halign hoff hthere => (exec_setup_arrives harr ..).trans (atSetup_there hmay hoff halign rfl hthere hon)⟩
    · simp [hodd]
    · simpa using hdata

end Sys2Proof.Machine

/-! PROOFS. Task messages at their core and their acknowledgements at the sender (R184, R135, R137, R70, R166). Settles O25. -/

namespace Sys2Proof.Machine

theorem exec_ctlMsg (h : CtlHdr) (lo hi : W32) (slot cidx off : Nat) (s : State) :
    exec (.ctlMsg h lo hi slot cidx off) s = execCtlMsg h lo hi slot cidx off s := rfl

theorem exec_msgAck (h : CtlHdr) (status : Nat) (s : State) : exec (.msgAck h status) s = execMsgAck h status s := rfl

/-! ### What taking a control packet leaves -/

theorem State.ctlTook_core (s : State) (h : CtlHdr) (c : Nat) : (s.ctlTook h).core c = s.core c := by
  rw [State.core, (s.ctlTook_ctlOnly h).cores, State.core]

theorem State.ctlTook_task (s : State) (h : CtlHdr) (c i : Nat) : (s.ctlTook h).task c i = s.task c i := State.task_of_core (s.ctlTook_core h c)

theorem WokeFrom.eq_with_tasks {k k' : Core} (h : WokeFrom k k') : k' = { k with tasks := k'.tasks } :=
  (congrArg (fun x : Core => ({ x with tasks := k'.tasks } : Core)) h.2 :)

theorem Core.select_eq (k : Core) : ∃ tasks last, k.select.1 = { k with tasks := tasks, last := last } := by
  unfold Core.select
  split
  · exact ⟨k.tasks, k.last, rfl⟩
  · split
    · exact ⟨_, _, rfl⟩
    · exact ⟨k.tasks, k.last, rfl⟩

/-- Scheduling a core changes its slots and the place of the next selection, no more (R35, R36). -/
theorem State.resched_core_eq (s : State) (c : Nat) : ∃ tasks last, (s.resched c).core c = { s.core c with tasks := tasks, last := last } := by
  rw [s.resched_core c]
  have hwake := (s.core c).wake_spec.eq_with_tasks
  generalize (s.core c).wake = k at hwake ⊢
  obtain ⟨tasks, last, hselect⟩ := k.select_eq
  exact ⟨tasks, last, hselect.trans (hwake ▸ rfl)⟩

/-! ### A message at its core -/

/-- What a message asks of its target: 8 bytes in a slot's window, and 1 more in a counter (R184). -/
def msgHdr (slot cidx : Nat) : BulkHdr := { hdr0 with slot := slot, cnt := cidx, cntEn := true, inc := 1 }

/-- The acknowledgement of a message, with its status (R184). -/
def State.msgReply (s : State) (h : CtlHdr) (status : Nat) : State := s.ctlOut (ctlHdr 1 h.vc h.snode h.slocal h.dnode h.dlocal 1 h.msgid) [status]

theorem CtlHdr.core_of_local {h : CtlHdr} (hlocal : h.dlocal < 256) : h.core = h.dnode * 256 + h.dlocal := by rw [CtlHdr.core, Nat.mod_eq_of_lt hlocal]

section Message

variable {s : State} {h : CtlHdr} {slot cidx : Nat} (hlocal : h.dlocal < 256)
include hlocal


/-- A message for an idle core is taken at once (R136, R172, R530). -/
theorem exec_ctlMsg_taken (harr : s.CtlArrives h) (hawake : s.asleep (h.dnode * 256 + h.dlocal) = false) (hidle : s.idling (h.dnode * 256 + h.dlocal) = false)
    (htracker : (s.core (h.dnode * 256 + h.dlocal)).tracker = []) (hpulls : (s.core (h.dnode * 256 + h.dlocal)).pulls = []) (lo hi : W32) (off : Nat) :
    exec (.ctlMsg h lo hi slot cidx off) s = takeMsg lo hi slot cidx off h (s.ctlTook h) := by
  have hwait : msgWaits h s = false := by
    simp [msgWaits, CtlHdr.core_of_local hlocal, hawake, hidle, Core.trkUsed, htracker, hpulls]
  rw [exec_ctlMsg]
  exact atCtl_arrives harr hwait _

variable (hnode : h.dnode < 144) (hslot : slot < 4) (hcidx : cidx < 64)
include hnode hslot hcidx

/-- A message that its target does not accept is answered with why not. -/
theorem takeMsg_refused {off status : Nat} (hstatus : s.targetStatus (h.dnode * 256 + h.dlocal) (msgHdr slot cidx) (8 * off) 8 = status) (hbad : status ≠ 0)
    (lo hi : W32) : takeMsg lo hi slot cidx off h s = .next (s.msgReply h status) := by
  have hwhere : (!isDie h.dnode || decide (256 ≤ h.dlocal)) = false := by simp [isDie, hnode, hlocal]
  unfold takeMsg
  dsimp only
  rw [hwhere, CtlHdr.core_of_local hlocal, Nat.mod_eq_of_lt hslot, Nat.mod_eq_of_lt hcidx,
    show s.targetStatus _ { hdr0 with slot := slot, cnt := cidx, cntEn := true, inc := 1 } _ _ = status from hstatus]
  exact (if_neg Bool.false_ne_true).trans (if_pos hbad)

/-- A message that it accepts is written, counted and acknowledged (R135, R137, R184). -/
theorem takeMsg_accepted {v : State} {off : Nat} {lo hi : W32} (hst : (s.task (h.dnode * 256 + h.dlocal) slot).st ≠ .empty)
    (hstatus : s.targetStatus (h.dnode * 256 + h.dlocal) (msgHdr slot cidx) (8 * off) 8 = 0)
    (hwrite : s.spWrite (h.dnode * 256 + h.dlocal) ((s.task (h.dnode * 256 + h.dlocal) slot).tbase + 8 * off) (leBytes 8 (lo.toNat + hi.toNat * 2 ^ 32)) = (v, none)) :
    takeMsg lo hi slot cidx off h s =
      .next (((v.perf (h.dnode * 256 + h.dlocal) 10 8).remoteInc (h.dnode * 256 + h.dlocal) (msgHdr slot cidx) (msgHdr slot cidx).inc).msgReply h 0) := by
  have hwhere : (!isDie h.dnode || decide (256 ≤ h.dlocal)) = false := by simp [isDie, hnode, hlocal]
  have hbase : (s.reachOf (h.dnode * 256 + h.dlocal) { hdr0 with slot := slot, cnt := cidx, cntEn := true, inc := 1 }).1 =
      (s.task (h.dnode * 256 + h.dlocal) slot).tbase := by simp [State.reachOf, hdr0, hst]
  unfold takeMsg
  dsimp only
  rw [hwhere, CtlHdr.core_of_local hlocal, Nat.mod_eq_of_lt hslot, Nat.mod_eq_of_lt hcidx, hbase, hwrite,
    show s.targetStatus _ { hdr0 with slot := slot, cnt := cidx, cntEn := true, inc := 1 } _ _ = 0 from hstatus]
  rfl

end Message

/-- The status of a message that its target refuses (R135, R184): FOLDED, EXTENT or COUNTER. -/
theorem State.targetStatus_message (s : State) (c slot cidx off : Nat) :
    ((s.core c).fenced = true → s.targetStatus c (msgHdr slot cidx) off 8 = 1) ∧
    ((s.core c).fenced = false →
      ((s.task c slot).st = .empty → s.targetStatus c (msgHdr slot cidx) off 8 = 2) ∧
      ((s.task c slot).st ≠ .empty →
        ((s.task c slot).window < off + 8 → s.targetStatus c (msgHdr slot cidx) off 8 = 2) ∧
        (off + 8 ≤ (s.task c slot).window → (s.task c slot).tccount ≤ cidx → s.targetStatus c (msgHdr slot cidx) off 8 = 3))) := by
  refine ⟨fun hfence => if_pos hfence, fun hfence => ⟨fun hst => ?_, fun hst => ⟨fun hout => ?_, fun hin hcnt => ?_⟩⟩⟩
  · simp [State.targetStatus, State.reachOf, msgHdr, hdr0, hfence, hst]
  · simp [State.targetStatus, State.reachOf, msgHdr, hdr0, hfence, hst, hout]
  · simp [State.targetStatus, State.reachOf, msgHdr, hdr0, hfence, hst, Nat.not_lt.mpr hin, hcnt]

/-- The increment of an accepted message raises its counter by 1, and changes no byte more than the write did (R137, R184). -/
theorem State.messageInc_frame {s v : State} {c slot : Nat} (herr : ErrOnly s { v with mem := s.mem }) (cidx : Nat) :
    let w := (v.perf c 10 8).remoteInc c (msgHdr slot cidx) (msgHdr slot cidx).inc
    let n := (s.task c slot).tcbase + cidx
    w.mem = v.mem ∧ (w.core c).counters = Tab.set 0 (s.core c).counters n (Tab.get 0 (s.core c).counters n + 1) ∧ w.out = v.out := by
  obtain ⟨-, hcores, -⟩ := herr
  have hincremented : (v.core c).incremented (msgHdr slot cidx) = (s.core c).incremented (msgHdr slot cidx) :=
    (congrArg (fun k : Core => k.incremented (msgHdr slot cidx)) (hcores c) :)
  obtain ⟨-, hcounters, hmem, hout⟩ := (v.perf c 10 8).remoteInc_frame (h := msgHdr slot cidx) rfl c
  rw [State.perf_core] at hcounters
  exact ⟨hmem.trans (State.perf_mem ..), hcounters.trans hincremented, hout.trans (State.perf_out ..)⟩

/-! ### A message's acknowledgement -/

/-- The record of a failure that is posted to a task (R68). -/
def TrapReq.posted (r : TrapReq) (slot pc a : Nat) : AsyncTrap := ⟨slot, ⟨r.cause, r.detail, r.code, pc, a⟩⟩

/-- `t` differs from `s` in registers only. -/
def RegsOnly (s t : State) : Prop := ∃ regs, t = { s with regs := regs }

theorem RegsOnly.refl (s : State) : RegsOnly s s := ⟨s.regs, rfl⟩

theorem RegsOnly.trans {s t u : State} (h : RegsOnly s t) (k : RegsOnly t u) : RegsOnly s u := by
  obtain ⟨r, rfl⟩ := h
  obtain ⟨q, rfl⟩ := k
  exact ⟨q, rfl⟩

theorem RegsOnly.core {s t : State} (h : RegsOnly s t) (c : Nat) : t.core c = s.core c := by
  obtain ⟨r, rfl⟩ := h
  rfl

theorem RegsOnly.mem {s t : State} (h : RegsOnly s t) : t.mem = s.mem := by
  obtain ⟨r, rfl⟩ := h
  rfl

theorem State.hcount_regsOnly (s : State) (f sat : Field) (n : Nat) : RegsOnly s (s.hcount f sat n) := by
  unfold State.hcount
  dsimp only
  split
  · exact ⟨_, rfl⟩
  · exact ⟨_, rfl⟩

/-- Posting a failure changes the core's posted failures, and no byte. -/
theorem State.postAsync_frame (s : State) (c i pc : Nat) (r : TrapReq) :
    (∃ l, (s.postAsync c i pc r).core c = { s.core c with async := l }) ∧ (s.postAsync c i pc r).mem = s.mem := by
  unfold State.postAsync
  dsimp only
  split
  · exact ⟨⟨(s.core c).async, (State.hcount_regsOnly ..).core c⟩, (State.hcount_regsOnly ..).mem⟩
  · split
    · exact ⟨⟨(s.core c).async, rfl⟩, rfl⟩
    · exact ⟨⟨_, State.core_updCore_same ..⟩, rfl⟩

/-- It is the only one, where none was posted at the core and the task has not trapped. -/
theorem State.postAsync_first {s : State} {c i : Nat} (hnone : (s.core c).async = []) (htrapped : (s.task c i).st ≠ .trapped) (hempty : (s.task c i).st ≠ .empty)
    (pc : Nat) (r : TrapReq) : ∃ a, ((s.postAsync c i pc r).core c).async = [r.posted i pc a] := by
  unfold State.postAsync
  dsimp only
  rw [hnone, List.any_nil, if_neg (by simpa using htrapped), if_neg hempty, State.core_updCore_same]
  exact ⟨_, congrArg (· ++ [_]) hnone⟩

/-- A core that a message's acknowledgement has reached (R184): the message is not awaited any more, and a failure is posted to its task. -/
def State.messageDone (s : State) (c msgid : Nat) (m : MsgOut) (status : Nat) : State :=
  let s := s.updCore c (fun k => { k with msgs := removeFirst (fun x => decide (x.msgid = msgid)) k.msgs })
  (if status = 0 then s else s.postAsync c m.slot m.pc (statusTrap status 0 4)).resched c

theorem State.messageDone_frame (s : State) (c msgid : Nat) (m : MsgOut) (status : Nat) :
    ((s.messageDone c msgid m status).core c).msgs = removeFirst (fun x => decide (x.msgid = msgid)) (s.core c).msgs ∧
      (s.messageDone c msgid m status).mem = s.mem ∧ (status = 0 → ((s.messageDone c msgid m status).core c).async = (s.core c).async) := by
  unfold State.messageDone
  dsimp only
  split
  · obtain ⟨tasks, last, hcore⟩ := State.resched_core_eq (s.updCore c _) c
    rw [hcore, State.core_updCore_same]
    exact ⟨rfl, State.resched_mem .., fun _ => rfl⟩
  · next hbad =>
    obtain ⟨tasks, last, hcore⟩ := State.resched_core_eq (State.postAsync (s.updCore c _) c m.slot m.pc (statusTrap status 0 4)) c
    obtain ⟨⟨l, hposted⟩, hmem⟩ := State.postAsync_frame (s.updCore c _) c m.slot m.pc (statusTrap status 0 4)
    rw [hcore, hposted, State.core_updCore_same]
    exact ⟨rfl, (State.resched_mem ..).trans hmem, fun hok => absurd hok hbad⟩

theorem State.messageDone_posts {s : State} {c : Nat} {m : MsgOut} {status : Nat} (hnone : (s.core c).async = []) (htrapped : (s.task c m.slot).st ≠ .trapped)
    (hempty : (s.task c m.slot).st ≠ .empty) (hbad : status ≠ 0) (msgid : Nat) :
    ∃ a, ((s.messageDone c msgid m status).core c).async = [(statusTrap status 0 4).posted m.slot m.pc a] := by
  unfold State.messageDone
  dsimp only
  rw [if_neg hbad]
  obtain ⟨tasks, last, hcore⟩ := State.resched_core_eq (State.postAsync (s.updCore c _) c m.slot m.pc (statusTrap status 0 4)) c
  rw [hcore]
  have hsame := State.core_updCore_same (s := s) c (fun k => { k with msgs := removeFirst (fun x => decide (x.msgid = msgid)) k.msgs })
  have htask := congrArg (fun k : Core => k.task m.slot) hsame
  exact State.postAsync_first (hsame ▸ hnone) (by rwa [State.task, hsame]) (by rwa [State.task, hsame]) ..

section Ack

variable {s : State} {h : CtlHdr} (hlocal : h.dlocal < 256)
include hlocal

/-- An acknowledgement is taken at once by a core that is awake. -/
theorem exec_msgAck_taken (harr : s.CtlArrives h) (hawake : s.asleep (h.dnode * 256 + h.dlocal) = false) (status : Nat) :
    exec (.msgAck h status) s = takeMsgAck status h (s.ctlTook h) := by
  rw [exec_msgAck]
  exact atCtl_arrives harr (by simp [coreSleeps, CtlHdr.core_of_local hlocal, hawake]) _

/-- A message that its core keeps is completed, and its failure posted to its sender. -/
theorem takeMsgAck_found (hnode : h.dnode < 144) {m : MsgOut}
    (hfind : (s.core (h.dnode * 256 + h.dlocal)).msgs.find? (fun x => decide (x.msgid = h.msgid)) = some m) (status : Nat) :
    takeMsgAck status h s = .next (s.messageDone (h.dnode * 256 + h.dlocal) h.msgid m status) := by
  have hwhere : (!isDie h.dnode || decide (256 ≤ h.dlocal)) = false := by simp [isDie, hnode, hlocal]
  unfold takeMsgAck
  dsimp only
  rw [hwhere, CtlHdr.core_of_local hlocal, hfind]
  rfl

end Ack

/-- Settles O25: what reaches its core is taken there, and each way it can end is one lemma's. -/
theorem taskMessagesArriveAndAreAcknowledged : Obligations.TaskMessagesArriveAndAreAcknowledged := by
  unfold Obligations.TaskMessagesArriveAndAreAcknowledged
  refine ⟨?accepted, ?refused, ?acknowledged⟩
  case accepted =>
    intro s v h lo hi slot cidx off hnode hlocal hslot hcidx c k n harr hawake hidle hfence htracker hpulls hst hcnt hin hwrite
    have hcore := s.ctlTook_core h c
    have htask : (s.ctlTook h).task c slot = k := s.ctlTook_task h c slot
    have hstatus : (s.ctlTook h).targetStatus c (msgHdr slot cidx) (8 * off) 8 = 0 :=
      State.targetStatus_ok rfl (hcore ▸ hfence) (htask ▸ hst) (htask ▸ hin) (fun _ => htask ▸ hcnt)
    obtain ⟨hmem, hcounters, hout⟩ := State.messageInc_frame (slot := slot) (spWrite_errOnly hwrite) cidx
    refine ⟨_, (exec_ctlMsg_taken hlocal harr hawake hidle htracker hpulls lo hi off).trans
      (takeMsg_accepted hlocal hnode hslot hcidx (htask ▸ hst) hstatus (htask ▸ hwrite)), hmem, ?_, hout⟩
    rw [hcounters, htask, hcore]
  case refused =>
    intro s h lo hi slot cidx off hnode hlocal hslot hcidx c k answers harr hawake hidle htracker hpulls
    have hcore := s.ctlTook_core h c
    have htask : (s.ctlTook h).task c slot = k := s.ctlTook_task h c slot
    have hanswers {status : Nat} (hstatus : (s.ctlTook h).targetStatus c (msgHdr slot cidx) (8 * off) 8 = status) (hbad : status ≠ 0) : answers status :=
      (exec_ctlMsg_taken hlocal harr hawake hidle htracker hpulls lo hi off).trans (takeMsg_refused hlocal hnode hslot hcidx hstatus hbad lo hi)
    obtain ⟨hfolded, hopen⟩ := (s.ctlTook h).targetStatus_message c slot cidx (8 * off)
    rw [hcore, htask] at hopen
    rw [hcore] at hfolded
    refine ⟨fun hf => hanswers (hfolded hf) (by decide), fun hf hst => hanswers ((hopen hf).1 hst) (by decide), fun hf hst hout => ?_, fun hf hst hin hcnt => ?_⟩
    · exact hanswers (((hopen hf).2 hst).1 hout) (by decide)
    · exact hanswers (((hopen hf).2 hst).2 hin hcnt) (by decide)
  case acknowledged =>
    intro s h status m hnode hlocal c this harr hawake hfind
    have hcore := s.ctlTook_core h c
    have htask := s.ctlTook_task h c m.slot
    obtain ⟨hmsgs, hmem, hasync⟩ := (s.ctlTook h).messageDone_frame c h.msgid m status
    rw [hcore] at hmsgs hasync
    refine ⟨_, (exec_msgAck_taken hlocal harr hawake status).trans (takeMsgAck_found hlocal hnode (hcore ▸ hfind) status), hmsgs,
      hmem.trans (s.ctlTook_ctlOnly h).mem, hasync, fun hnone htrapped hempty => ?_⟩
    by_cases hok : status = 0
    · exact ⟨0, by omega, by omega, by omega⟩
    · obtain ⟨a, hposted⟩ := State.messageDone_posts (hcore ▸ hnone) (htask ▸ htrapped) (htask ▸ hempty) hok h.msgid
      refine ⟨a, fun hstatus => ?_, fun hstatus => ?_, fun hstatus => ?_⟩
      · rcases hstatus with rfl | rfl <;> exact hposted
      · subst hstatus
        exact hposted
      · subst hstatus
        exact hposted

end Sys2Proof.Machine

/-! PROOFS. Reads at a serving core and their data at the requester, pulls at a target, and answers at the core that awaits them (R165 to R167, R180, R181,
R68). Settles O22. -/

namespace Sys2Proof.Machine

section Arms

variable (c : Nat) (cr : List Nat) (h : BulkHdr) (data : List Byte) (s : State)

theorem exec_bulkReadReq : exec (.bulkReadReq c cr h) s = execBulkReadReq c cr h s := rfl
theorem exec_bulkReadRsp : exec (.bulkReadRsp c cr h data) s = execBulkReadRsp c cr h data s := rfl
theorem exec_meldRsp (l : List MeldEnt) : exec (.meldRsp c cr h l data) s = execMeldRsp c cr h l data s := rfl
theorem exec_meldHoldExpiry (a n : Nat) : exec (.meldHoldExpiry c a n) s = execMeldHoldExpiry c a n s := rfl
theorem exec_pull (d : StreamDesc) : exec (.pull c cr h d) s = execPull c cr h d s := rfl
theorem exec_bulkAck : exec (.bulkAck c cr h) s = execBulkAck c cr h s := rfl
theorem exec_bulkError : exec (.bulkError c cr h) s = execBulkError c cr h s := rfl

end Arms

/-! ### A packet at its core -/

/-- A packet for a core that nothing there holds up is taken and delivered (R169). -/
theorem unicast_core {s : State} {c : Nat} {cr : List Nat} {h : BulkHdr} {waits : State → Nat → Bool} (hc : c < 36864) (hkind : h.dkind = 0)
    (hat : coreAt h.x0 h.y0 = c) (htakes : s.Takes c h) (hwait : waits s c = false) (body : BulkBody) (f : Nat → State → State) :
    unicast c cr h body waits f s = f c (s.took c h) := by
  have hdest : h.dest = c := by simp [BulkHdr.dest, hkind, hat]
  exact unicast_here (hdest ▸ State.routeTo_core_self hc s cr _) hwait htakes body f

theorem TxOnly.byte {s t : State} (h : TxOnly s t) (a : Nat) : t.byte a = s.byte a := by
  have hopens : t.opens = s.opens := (congrArg State.opens h.1 :)
  rw [State.byte, State.byte, h.mem, State.unlisted, State.unlisted, hopens]

theorem TxOnly.bytes {s t : State} (h : TxOnly s t) (a n : Nat) : t.bytes a n = s.bytes a n := by
  simp only [State.bytes, h.byte]

theorem State.length_bytes (s : State) (a n : Nat) : (s.bytes a n).length = n := by simp [State.bytes]

/-! ### Reads at a serving core -/

/-- A source code without the bit of ring stops is a core's. -/
theorem BulkHdr.srcCode_core {h : BulkHdr} (hperim : h.sperim = false) (hx : h.sx < 256) (hy : h.sy < 256) :
    h.srcCode < 65536 ∧ codeLoc h.srcCode = coreAt h.sx h.sy := by
  have hcode : h.srcCode = h.sx + 256 * h.sy := by simp [BulkHdr.srcCode, hperim, b2n]
  have hlow : h.srcCode < 65536 := by omega
  have hcol : h.srcCode % 256 = h.sx := by omega
  have hrow : h.srcCode / 256 = h.sy := by omega
  exact ⟨hlow, by rw [codeLoc, if_neg (Nat.not_le.mpr hlow), hcol, hrow]⟩

/-- Read data for one core is one READ_RSP (R181). -/
theorem State.readData_one {q : Requester} (hcore : q.src < 65536) (s : State) (c : Nat) (data : List Byte) : s.readData c [q] data =
    s.emit (.bulk c 14 ((({ hdr0 with type := 5, vc := 3, plen := data.length, tag := q.tag }).dst (codeLoc q.src)).src c) data) := by
  have hnone : [q].filter (fun q => decide (65536 ≤ q.src)) = [] := by simp [hcore]
  have hall : [q].filter (fun q => decide (q.src < 65536)) = [q] := by simp [hcore]
  unfold State.readData
  rw [hnone, hall]
  rfl

/-- A core that serves an entry of one reader, and meets no error, sends it the bytes (R130, R181). -/
theorem State.serveCore_clean {s : State} {c : Nat} {e : RdEnt} {q : Requester}
    (hclean : ∀ x ∈ s.ecc, x.1 < (winBase c + e.addr) / 8 ∨ (winBase c + e.addr + e.len - 1) / 8 < x.1) (hreq : e.reqs = [q]) (hcore : q.src < 65536) :
    s.serveCore c e = s.emit (.bulk c 14 ((({ hdr0 with type := 5, vc := 3, plen := e.len, tag := q.tag }).dst (codeLoc q.src)).src c)
      (s.bytes (winBase c + e.addr) e.len)) := by
  unfold State.serveCore
  rw [spRead_clean hclean]
  dsimp only
  rw [hreq, State.readData_one hcore, State.length_bytes]

/-- A read that cannot join an entry and is not held is served at once (R181). -/
theorem joinRead_empty (cap a n vc : Nat) (hcap : 0 < cap) (q : Requester) :
    joinRead [] cap a n vc false q = some ([], false, some ⟨a, n, vc, false, false, false, [q]⟩) := by
  simp [joinRead, Nat.not_le.mpr hcap]

section Reads

variable {s : State} {c : Nat} {h : BulkHdr} (hhold : h.hold = false) (hqueue : (s.router c).readQ = [])
include hhold hqueue

/-- Such a read waits only for a region that sleeps. -/
theorem State.readWaits_empty (hc : c < 36864) (hawake : s.asleep c = false) : s.readWaits c h = false := by
  unfold State.readWaits
  rw [if_pos hc, hqueue, hhold]
  simp [hawake, joinRead_empty]

theorem State.coreReadReq_empty (habs : h.abs_ = false) (hst : (s.task c h.slot).st ≠ .empty) (hstatus : s.targetStatus c h h.toff h.plen = 0) :
    s.coreReadReq c h =
    (s.updRouter c (fun x => { x with readQ := [] })).serveCore c
      ⟨(s.task c h.slot).tbase + h.toff, h.plen, h.vc, false, false, false, [⟨h.srcCode, h.tag⟩]⟩ := by
  have hbase : (s.reachOf c h).1 = (s.task c h.slot).tbase := by simp [State.reachOf, habs, hst]
  unfold State.coreReadReq
  simp only [habs, Bool.false_eq_true, if_false, hstatus, hbase, hqueue, hhold, joinRead_empty _ _ _ _ (by decide : 0 < 16)]
  rfl

end Reads

/-- The only entry of a core's read queue is served once its hold ends (R181). -/
theorem exec_meldHoldExpiry_one {s : State} {c : Nat} {e : RdEnt} (hc : c < 36864) (hawake : s.asleep c = false) (hqueue : (s.router c).readQ = [e])
    (hhold : e.hold = true) (hdead : e.dead = false) : exec (.meldHoldExpiry c e.addr e.len) s =
      .next ((s.updRouter c (fun x => { x with readQ := [] })).serveCore c e) := by
  have hfind : [e].find? (fun y => y.hold && !y.dead && decide (y.addr = e.addr) && decide (y.len = e.len)) = some e := by simp [hhold, hdead]
  have hrest : s.updRouter c (fun x => { x with readQ := removeFirst (fun y => y.hold && !y.dead && decide (y.addr = e.addr) && decide (y.len = e.len)) x.readQ }) =
      s.updRouter c (fun x => { x with readQ := [] }) := State.updRouter_congr (by simp [hqueue, removeFirst, hhold, hdead])
  rw [exec_meldHoldExpiry]
  unfold execMeldHoldExpiry
  refine (if_pos hc).trans ?_
  rw [hawake, if_neg Bool.false_ne_true, hqueue, hfind, hrest]

/-! ### A stream's last transfer -/

/-- A stream's local increment changes counters, no byte (R144). -/
theorem State.localInc_frame (s : State) (c : Nat) (x : Stream) :
    ((s.localInc c x).core c).streams = (s.core c).streams ∧ (s.localInc c x).mem = s.mem := by
  unfold State.localInc
  split
  · obtain ⟨hcore, hmem, -⟩ := s.cntAdd_frame c ((s.task c x.slot).tcbase + x.d.lcnt) x.d.linc
    rw [hcore]
    exact ⟨rfl, hmem⟩
  · exact ⟨rfl, rfl⟩

theorem State.startStreams_resched_frame {s : State} {c : Nat} (h : (s.core c).streams = []) :
    ((((s.startStreams c).resched c).core c).streams = [] ∧ (((s.startStreams c).resched c).core c).async = (s.core c).async) ∧
      ((s.startStreams c).resched c).mem = s.mem := by
  rw [State.startStreams_of_nil h]
  obtain ⟨tasks, last, hcore⟩ := s.resched_core_eq c
  rw [hcore]
  exact ⟨⟨h, rfl⟩, State.resched_mem ..⟩

/-- A task's stream that ends leaves its engine; its counter updates change no byte (R65, R37). -/
theorem State.endStream_frame {s : State} {c : Nat} {x : Stream} (hslot : x.slot < 4) (hone : (s.core c).streams = [x]) :
    ((s.endStream c x).core c).streams = [] ∧ (s.endStream c x).mem = s.mem := by
  have hdrop {t : State} (ht : (t.core c).streams = [x] ∧ t.mem = s.mem) : ((t.dropStream c x.id).core c).streams = [] ∧ (t.dropStream c x.id).mem = s.mem := by
    refine ⟨?_, ht.2⟩
    rw [State.dropStream, State.core_updCore_same, ht.1]
    simp [removeFirst]
  have hadd {t : State} (ht : (t.core c).streams = [x] ∧ t.mem = s.mem) (n v : Nat) :
      ((t.cntAdd c n v).core c).streams = [x] ∧ (t.cntAdd c n v).mem = s.mem := by
    obtain ⟨hcore, hmem, -⟩ := t.cntAdd_frame c n v
    rw [hcore]
    exact ⟨ht.1, hmem.trans ht.2⟩
  have hlocal : ((if decide (x.kind = 0) || x.pulled then s.localInc c x else s).core c).streams = [x] ∧
      (if decide (x.kind = 0) || x.pulled then s.localInc c x else s).mem = s.mem := by
    split
    · obtain ⟨hstreams, hmem⟩ := s.localInc_frame c x
      exact ⟨hstreams.trans hone, hmem⟩
    · exact ⟨hone, rfl⟩
  unfold State.endStream
  dsimp only
  rw [if_pos hslot]
  split
  · exact hdrop (hadd hlocal _ _)
  · exact hdrop hlocal

section Ends

variable {s : State} {c tag : Nat} {x : Stream} {f : Xfer} (hslot : x.slot < 4) (hone : (s.core c).streams = [x])
include hslot hone

/-- The last transfer of a core's only stream ends it (R37). -/
theorem State.xferDone_last (hsent : x.sent = true) (hxfers : x.xfers = [f]) (htag : f.tag = tag) :
    ((s.xferDone c x tag).core c).streams = [] ∧ (s.xferDone c x tag).mem = s.mem := by
  have hnone : x.xfers.filter (fun f => decide (f.tag ≠ tag)) = [] := by simp [hxfers, htag]
  have hupd : ((s.updStream c x.id (fun _ => { x with xfers := [] })).core c).streams = [{ x with xfers := [] }] := by
    rw [State.updStream, State.core_updCore_same, hone]
    simp [updFirst]
  obtain ⟨hstreams, hmem⟩ := State.endStream_frame (x := { x with xfers := [] }) hslot hupd
  obtain ⟨⟨hleft, -⟩, hkept⟩ := State.startStreams_resched_frame hstreams
  unfold State.xferDone
  dsimp only
  rw [hnone, if_pos (by simp [hsent])]
  exact ⟨hleft, hkept.trans hmem⟩

/-- A failure ends a core's only stream, and is posted to its task (R68). -/
theorem State.xferFail_last {status scode : Nat} (hnone : (s.core c).async = []) (htrapped : (s.task c x.slot).st ≠ .trapped)
    (hempty : (s.task c x.slot).st ≠ .empty) : ((s.xferFail c x status scode).core c).streams = [] ∧
      (∃ a, ((s.xferFail c x status scode).core c).async = [(statusTrap status scode x.eng).posted x.slot x.pc a]) ∧ (s.xferFail c x status scode).mem = s.mem := by
  have hdrop : (s.dropStream c x.id).core c = { s.core c with streams := [] } := by
    rw [State.dropStream, State.core_updCore_same, hone]
    simp [removeFirst]
  have htask : (s.dropStream c x.id).task c x.slot = s.task c x.slot := by
    rw [State.task, hdrop]
    rfl
  have hasync : ((s.dropStream c x.id).core c).async = [] := by rw [hdrop, hnone]
  obtain ⟨a, hposted⟩ := State.postAsync_first hasync (htask ▸ htrapped) (htask ▸ hempty) x.pc (statusTrap status scode x.eng)
  obtain ⟨⟨l, hcore⟩, hmem⟩ := (s.dropStream c x.id).postAsync_frame c x.slot x.pc (statusTrap status scode x.eng)
  have hgone : (((s.dropStream c x.id).postAsync c x.slot x.pc (statusTrap status scode x.eng)).core c).streams = [] := by
    rw [hcore, hdrop]
  obtain ⟨⟨hleft, hkeptAsync⟩, hkept⟩ := State.startStreams_resched_frame hgone
  unfold State.xferFail State.failStream
  dsimp only
  rw [if_pos hslot]
  exact ⟨hleft, ⟨a, hkeptAsync.trans hposted⟩, hkept.trans hmem⟩

omit hslot in
theorem State.streamOf_last (hxfers : x.xfers = [f]) (htag : f.tag = tag) : (s.core c).streamOf tag = some x := by
  simp [Core.streamOf, hone, hxfers, htag]

end Ends

/-- Read data that the last transfer of a core's only stream awaits is written, and ends the stream (R165, R37). -/
theorem State.gotData_last {s v : State} {c tag loc a n : Nat} {x : Stream} {data : List Byte} (hslot : x.slot < 4) (hone : (s.core c).streams = [x])
    (hsent : x.sent = true) (hxfers : x.xfers = [.read tag loc a n]) (hwrite : s.spWrite c a data = (v, none)) :
    ((s.gotData c tag data).core c).streams = [] ∧ (s.gotData c tag data).mem = v.mem := by
  obtain ⟨-, hcores, -⟩ := spWrite_errOnly hwrite
  have hwritten : ((v.perf c 10 data.length).core c).streams = [x] := by
    rw [State.perf_core]
    exact (congrArg Core.streams (hcores c) :).trans hone
  obtain ⟨hstreams, hmem⟩ := State.xferDone_last hslot hwritten hsent hxfers rfl
  unfold State.gotData
  have hstream : (s.core c).streamOf tag = some x := State.streamOf_last hone hxfers rfl
  simp only [hstream, hxfers, List.find?_cons, Xfer.tag, decide_true, Option.bind_some, hwrite]
  exact ⟨hstreams, hmem.trans (State.perf_mem ..)⟩

section Ack

variable {s : State} {c tag status : Nat} {x : Stream} (hstream : (s.core c).streamOf tag = some x)
include hstream

/-- An answer with OK ends its transfer well, and any other ends its stream (R68, R166). -/
theorem State.gotAck_ok (hok : status = 0) (scode : Nat) : s.gotAck c tag status scode = s.xferDone c x tag := by
  unfold State.gotAck
  dsimp only
  rw [hstream]
  exact if_pos hok

theorem State.gotAck_bad (hbad : status ≠ 0) (scode : Nat) : s.gotAck c tag status scode = s.xferFail c x status scode := by
  unfold State.gotAck
  dsimp only
  rw [hstream]
  exact if_neg hbad

end Ack

/-! ### What reaches a core -/

section AtCore

variable {s : State} {c : Nat} {cr : List Nat} {h : BulkHdr} (hc : c < 36864) (hkind : h.dkind = 0) (hat : coreAt h.x0 h.y0 = c) (hawake : s.asleep c = false)
include hc hat hawake

/-- MELD_RSP for one requester is its data at that core (R182). -/
theorem exec_meldRsp_one (htakes : s.Takes c { h with type := 6, dkind := 3 }) (data : List Byte) : exec (.meldRsp c cr h [⟨h.x0, h.y0, h.tag⟩] data) s =
    .next ((s.took c { h with type := 6, dkind := 3 }).gotData c h.tag data) := by
  have hroute : s.routeTo c cr (coreAt h.x0 h.y0) none = .here c := hat ▸ State.routeTo_core_self hc s cr none
  rw [exec_meldRsp]
  unfold execMeldRsp
  simp only [List.map_cons, List.map_nil, hroute, List.findSome?_cons, List.findSome?_nil, hawake, Bool.false_eq_true, if_false]
  exact congrArg Host.Outcome.next (State.receive_of_takes htakes _)

include hkind

theorem exec_bulkReadReq_core (hhold : h.hold = false) (hqueue : (s.router c).readQ = []) (htakes : s.Takes c { h with type := 4 }) :
    exec (.bulkReadReq c cr h) s = .next ((s.took c { h with type := 4 }).coreReadReq c { h with type := 4 }) := by
  refine (exec_bulkReadReq ..).trans (congrArg Host.Outcome.next ((unicast_core (h := { h with type := 4 }) hc hkind hat htakes ?_ _ _).trans (if_pos hc)))
  exact State.readWaits_empty (h := { h with type := 4 }) hhold hqueue hc hawake

theorem exec_bulkReadRsp_core (htakes : s.Takes c { h with type := 5 }) (data : List Byte) : exec (.bulkReadRsp c cr h data) s =
    .next ((s.took c { h with type := 5 }).gotData c h.tag data) := by
  refine (exec_bulkReadRsp ..).trans (congrArg Host.Outcome.next ((unicast_core (h := { h with type := 5 }) hc hkind hat htakes ?_ _ _).trans (if_neg (Nat.not_le.mpr hc))))
  simp [sleeps, hawake]

/-- A PULL that its target accepts starts there (R135, R180). -/
theorem exec_pull_core {d : StreamDesc} (hcnt : d.rcntEn = 0) (htakes : s.Takes c { h with type := 7 })
    (hstatus : (s.took c { h with type := 7 }).targetStatus c (PullEnt.hdr ⟨{ h with type := 7 }, d, []⟩) d.roff (span d.rowCount d.rstride d.rowBytes) = 0) :
    exec (.pull c cr h d) s = .next ((s.took c { h with type := 7 }).startPull c ⟨{ h with type := 7 }, d, []⟩) := by
  refine (exec_pull ..).trans (congrArg Host.Outcome.next ((unicast_core (h := { h with type := 7 }) hc hkind hat htakes ?_ _ _).trans ?_))
  · simp [hawake, hcnt]
  · exact (if_neg (Nat.not_le.mpr hc)).trans (if_neg (not_not_intro hstatus))

/-- An answer to a core's own transfer, at a router without tree entries, reaches that core (R166, R167). -/
theorem State.ackAt_core {type : Nat} (htag : h.tag < 0xFFF0) (htree : (s.router c).tree = []) (htakes : s.Takes c { h with type := type }) :
    s.ackAt c cr { h with type := type } = (s.took c { h with type := type }).gotAck c h.tag h.status h.scode := by
  have hent (src : Nat) : (if c < 36864 ∧ type = 8 then (s.router c).treeEnt src h.tag else none) = none := by
    split
    · simp [Router.treeEnt, htree]
    · rfl
  unfold State.ackAt
  dsimp only
  rw [hent]
  refine (unicast_core (h := { h with type := type }) hc hkind hat htakes ?_ _ _).trans
    ((if_neg (Nat.not_le.mpr hc)).trans (if_neg (Nat.not_le.mpr htag)))
  simp [sleeps, hawake]

end AtCore

/-- Settles O22: what each packet does at its core, on a state that taking it has left as it was but for the ports. -/
theorem readsPullsAndAnswersReachTheirStreams : Obligations.ReadsPullsAndAnswersReachTheirStreams := by
  unfold Obligations.ReadsPullsAndAnswersReachTheirStreams
  intro s v c cr h data x hc hkind hat k g rsp q clean
  have htx (g : BulkHdr) := s.took_txOnly c g
  refine ⟨?reads, ?held, ?data, ?pulls, ?answers⟩
  case reads =>
    intro htakes hawake hfence habs hcnt hhold hperim hqueue hst hin hclean hx hy
    obtain ⟨hlow, hloc⟩ := BulkHdr.srcCode_core hperim hx hy
    have htx := htx (g 4)
    have htask : (s.took c (g 4)).task c h.slot = k := htx.task c h.slot
    have hqueue' : ((s.took c (g 4)).router c).readQ = [] := by rw [htx.router, hqueue]
    have hstatus : (s.took c (g 4)).targetStatus c (g 4) h.toff h.plen = 0 :=
      State.targetStatus_ok (h := g 4) habs (htx.core c ▸ hfence) (htask ▸ hst) (htask ▸ hin) (fun hen => absurd (hcnt.symm.trans hen) (by decide))
    have hreq := State.coreReadReq_empty (h := g 4) hhold hqueue' habs (htask ▸ hst) hstatus
    rw [htask] at hreq
    have hserve := State.serveCore_clean (s := (s.took c (g 4)).updRouter c (fun x => { x with readQ := [] })) (c := c)
      (e := ⟨k.tbase + h.toff, h.plen, h.vc, false, false, false, [q]⟩) (htx.ecc ▸ hclean) rfl hlow
    refine ⟨_, (exec_bulkReadReq_core hc hkind hat hawake hhold hqueue htakes).trans (congrArg Host.Outcome.next (hreq.trans hserve)), htx.mem, ?_⟩
    rw [← htx.bytes, ← hloc]
    rfl
  case held =>
    intro hawake hqueue hclean hperim hx hy
    obtain ⟨hlow, hloc⟩ := BulkHdr.srcCode_core hperim hx hy
    have hserve := State.serveCore_clean (s := s.updRouter c (fun x => { x with readQ := [] })) (c := c) (e := ⟨h.addr, h.plen, h.vc, true, false, false, [q]⟩)
      hclean rfl hlow
    refine ⟨_, (exec_meldHoldExpiry_one hc hawake hqueue rfl rfl).trans (congrArg Host.Outcome.next hserve), ?_, rfl, ?_⟩
    · rw [State.router_emit, State.router_updRouter_same]
    · rw [← hloc]
      rfl
  case data =>
    intro a n hawake hone hkind' hlcnt hslot hsent hxfers
    refine ⟨fun htakes hwrite => ?_, fun htakes hwrite => ?_⟩
    · obtain ⟨hgone, hmem⟩ := State.gotData_last (s := s.took c (g 5)) hslot ((htx (g 5)).core c ▸ hone) hsent hxfers hwrite
      exact ⟨_, exec_bulkReadRsp_core hc hkind hat hawake htakes data, hmem, hgone⟩
    · obtain ⟨hgone, hmem⟩ := State.gotData_last (s := s.took c { g 6 with dkind := 3 }) hslot ((htx _).core c ▸ hone) hsent hxfers hwrite
      exact ⟨_, exec_meldRsp_one hc hat hawake htakes data, hmem, hgone⟩
  case pulls =>
    intro d htakes hawake hfence hcnt hst hin
    have htx := htx (g 7)
    have htask : (s.took c (g 7)).task c d.slot = s.task c d.slot := htx.task c d.slot
    exact exec_pull_core hc hkind hat hawake hcnt htakes (State.targetStatus_ok (h := PullEnt.hdr ⟨g 7, d, []⟩) rfl (htx.core c ▸ hfence) (htask ▸ hst)
      (htask ▸ hin) (fun hen => by simp [PullEnt.hdr, hcnt] at hen))
  case answers =>
    intro hawake hone hkind' hrcnt hpulled hslot hsent hxfers htag htree
    have hone' (type : Nat) : ((s.took c (g type)).core c).streams = [x] := (htx (g type)).core c ▸ hone
    have hstream (type : Nat) : ((s.took c (g type)).core c).streamOf h.tag = some x := State.streamOf_last (hone' type) hxfers rfl
    refine ⟨fun htakes hok => ?_, fun htakes hbad hnone hempty htrapped => ?_⟩
    · obtain ⟨hgone, hmem⟩ := State.xferDone_last hslot (hone' 8) hsent hxfers rfl
      refine ⟨_, (exec_bulkAck ..).trans (congrArg Host.Outcome.next ((State.ackAt_core hc hkind hat hawake htag htree htakes).trans ?_)), hgone,
        hmem.trans (htx _).mem⟩
      exact State.gotAck_ok (hstream 8) hok _
    · have htask := (htx (g 0xB)).task c x.slot
      obtain ⟨hgone, ⟨a, hposted⟩, hmem⟩ := State.xferFail_last (status := 4) (scode := h.scode) hslot (hone' 0xB) ((htx (g 0xB)).core c ▸ hnone)
        (htask ▸ htrapped) (htask ▸ hempty)
      refine ⟨_, a, (exec_bulkError ..).trans (congrArg Host.Outcome.next ((State.ackAt_core hc hkind hat hawake htag htree htakes).trans ?_)), hgone, hposted,
        hmem.trans (htx _).mem⟩
      exact (State.gotAck_bad (hstream 0xB) (by omega) _).trans (by rw [hbad])

end Sys2Proof.Machine

/-! PROOFS. Protected management messages that are accepted (R187, R483, R484, R509, R638), their acknowledgements and their repetition (R633). Settles O27. -/

namespace Sys2Proof.Machine

section Arms

variable (h : CtlHdr) (r x y : Nat) (chk : ChkFlit) (b : Bool) (s : State)

theorem exec_demand : exec (.demand h r x y b chk) s = execDemand h r x y b chk s := rfl
theorem exec_grant : exec (.grant h r x y chk) s = execGrant h r x y chk s := rfl
theorem exec_grantReq : exec (.grantReq h r chk) s = execGrantReq h r chk s := rfl
theorem exec_floor : exec (.floor h r x chk) s = execFloor h r x chk s := rfl
theorem exec_chunkCrc : exec (.chunkCrc h r x y chk) s = execChunkCrc h r x y chk s := rfl
theorem exec_chunkResult : exec (.chunkResult h r x y b chk) s = execChunkResult h r x y b chk s := rfl
theorem exec_mgmtAck : exec (.mgmtAck h r x chk) s = execMgmtAck h r x chk s := rfl
theorem exec_protectedAckTimeout (n m : Nat) : exec (.protectedAckTimeout n m r x) s = execProtectedAckTimeout n m r x s := rfl

end Arms

/-! ### What taking a control packet leaves -/

/-- A state that differs in control ports and what was sent is the same state with those replaced. -/
theorem CtlOnly.eq {s t : State} (h : CtlOnly s t) : ∃ out cports, t = { s with out := out, net := { s.net with cports := cports } } := by
  refine ⟨t.out, t.net.cports, ?_⟩
  have hsame := congrArg (fun u : State => ({ u with out := t.out, net := { u.net with cports := t.net.cports } } : State)) h
  exact hsame

/-- So anything else that can be read of a state is what it was before the packet was taken. -/
theorem State.ctlTook_eq (s : State) (h : CtlHdr) : ∃ out cports, s.ctlTook h = { s with out := out, net := { s.net with cports := cports } } :=
  (s.ctlTook_ctlOnly h).eq

theorem State.ctlTook_key (s : State) (h : CtlHdr) : (s.ctlTook h).key = s.key := by
  obtain ⟨o, p, htook⟩ := s.ctlTook_eq h
  rw [htook]

theorem State.ctlTook_mgmt (s : State) (h : CtlHdr) : (s.ctlTook h).mgmt = s.mgmt := by
  obtain ⟨o, p, htook⟩ := s.ctlTook_eq h
  rw [htook]

theorem State.ctlTook_markedImage (s : State) (h : CtlHdr) (t : Nat) : (s.ctlTook h).markedImage t = s.markedImage t := by
  obtain ⟨o, p, htook⟩ := s.ctlTook_eq h
  rw [htook]
  rfl

theorem State.ctlTook_hasUnit (s : State) (h : CtlHdr) (n : Nat) : (s.ctlTook h).hasUnit n = s.hasUnit n := by
  obtain ⟨o, p, htook⟩ := s.ctlTook_eq h
  rw [htook]
  rfl

/-! ### Budgets (R484) -/

section Budgets

variable {s u : State} {h : CtlHdr} {r x y : Nat} {chk : ChkFlit} (hr : r < 16)
include hr

theorem atDemand_accepted (hx : x < 2 ^ 16) (hy : y < 2 ^ 16) (hjudge : s.judge h 1 [1 + r * 2 ^ 8 + x * 2 ^ 16 + y * 2 ^ 32] chk = (u, true))
    (hat : h.dnode = u.stewardNode) : atDemand r x y false chk h s = .next ((u.wr (RGN_PWR_BUD.DEMAND r) y).wr (RGN_PWR_STAT.USED_W r) x) := by
  have hr8 : r % 256 = r := Nat.mod_eq_of_lt (by omega)
  have hfalse : b2n false = 0 := rfl
  unfold atDemand
  rw [hr8, Nat.mod_eq_of_lt hr, Nat.mod_eq_of_lt hx, Nat.mod_eq_of_lt hy, hfalse, Nat.zero_mul, Nat.add_zero, hjudge]
  simp [hat]

theorem atGrant_accepted (hx : x < 2 ^ 16) (hy : y < 2 ^ 16) (hjudge : s.judge h 2 [2 + r * 2 ^ 8 + x * 2 ^ 16 + y * 2 ^ 32] chk = (u, true))
    (hat : h.dnode = u.managerDie r) : atGrant r x y chk h s = .next ((u.wr (RGN_PWR_BUD.BUDGET r) x).wr (RGN_PWR_HARD.HARD r) y) := by
  have hr8 : r % 256 = r := Nat.mod_eq_of_lt (by omega)
  unfold atGrant
  rw [hr8, Nat.mod_eq_of_lt hr, Nat.mod_eq_of_lt hx, Nat.mod_eq_of_lt hy, hjudge]
  simp [hat]

theorem atGrantReq_accepted (hjudge : s.judge h 3 [3 + r * 2 ^ 8] chk = (u, true)) (hat : h.dnode = u.stewardNode) :
    atGrantReq r chk h s = .next (u.grant r (u.rd (RGN_PWR_BUD.BUDGET r))) := by
  have hr8 : r % 256 = r := Nat.mod_eq_of_lt (by omega)
  unfold atGrantReq
  rw [hr8, Nat.mod_eq_of_lt hr, hjudge]
  simp [hat]

theorem atFloor_accepted (hx : x ≤ 5) (hjudge : s.judge h 4 [4 + r * 2 ^ 8 + x * 2 ^ 16] chk = (u, true)) (hat : h.dnode = u.managerDie r) :
    atFloor r x chk h s = .next (State.setPfloors { u with therm := { u.therm with floor := Tab.set 0 u.therm.floor r x } } r) := by
  have hr8 : r % 256 = r := Nat.mod_eq_of_lt (by omega)
  have hx8 : x % 8 = x := Nat.mod_eq_of_lt (by omega)
  unfold atFloor
  rw [hr8, Nat.mod_eq_of_lt hr, hx8, Nat.min_eq_right hx, hjudge]
  simp [hat]

end Budgets

theorem State.relevel_therm (s : State) (d cl : Nat) : (s.relevel d cl).therm = s.therm := by
  unfold State.relevel
  dsimp only
  rw [State.wr_therm]
  generalize (if s.forcedDie d then 5 else _) = level
  split <;> rfl

theorem State.showP_therm (s : State) (r : Nat) : (s.showP r).therm = s.therm := by
  unfold State.showP
  split <;> rfl

/-- Writing the floors of a region's clusters leaves the thermal floors that they follow (R509). -/
theorem State.setPfloors_therm (s : State) (r : Nat) : (s.setPfloors r).therm = s.therm := by
  have hcluster (i : Nat) (s : State) : (forN 16 (fun cl s => s.setPfloor (regionDie r i) cl) s).therm = s.therm :=
    forL_keeps State.therm (fun cl s => s.setPfloor (regionDie r i) cl) (fun cl s => State.relevel_therm ..) _ s
  unfold State.setPfloors
  split
  · rfl
  · exact (State.showP_therm ..).trans (forL_keeps State.therm (fun i s => forN 16 (fun cl s => s.setPfloor (regionDie r i) cl) s) hcluster _ s)

/-! ### Firmware chunks (R638) -/

section Chunks

variable {s u : State} {h : CtlHdr} {x d tries : Nat} {chk : ChkFlit}

/-- CHUNK_CRC waits for the rest of the chunk that its die is being brought. -/
theorem chunkWaits_eq (hchunk : s.key.chunk = some (x, d, tries)) (hnode : h.dnode < 144) (hregion : regionOf d = regionOf h.dnode) :
    chunkWaits x h s = !(s.node d).hasChunk x := by
  simp [chunkWaits, hchunk, isDie, hnode, hregion]

variable (hx : x < 2 ^ 16)
include hx

theorem atChunkCrc_accepted {crc : Nat} (hcrc : crc < 2 ^ 32) (hchunk : u.key.chunk = some (x, d, tries)) (hnode : h.dnode < 144)
    (hregion : regionOf d = regionOf h.dnode) (hjudge : s.judge h 6 [6 + 1 * 2 ^ 8 + x * 2 ^ 16, crc] chk = (u, true)) : atChunkCrc 1 x crc chk h s =
      .next (u.toSteward (regionOf d) 7 [7 + 1 * 2 ^ 8 + x * 2 ^ 16 + d * 2 ^ 32 +
        (if (u.node d).hasChunk x = true ∧ crc = crc32c (u.node d).copied then 1 else 0) * 2 ^ 40]) := by
  have hone : 1 % 256 = 1 := rfl
  unfold atChunkCrc
  rw [hone, Nat.mod_eq_of_lt hx, Nat.mod_eq_of_lt hcrc, hjudge]
  simp [hchunk, hregion, isDie, hnode, b2n]

variable (hheld : s.key.chunk = some (x, d, tries)) (hd : d < 144)
include hheld hd

/-- A chunk that failed is sent again, and after one that is good comes the next (R638). -/
theorem atChunkResult_bad (htries : tries < 3) (hjudge : s.judge h 7 [7 + 1 * 2 ^ 8 + x * 2 ^ 16 + d * 2 ^ 32] chk = (u, true)) :
    atChunkResult 1 x d false chk h s = .next (u.sendChunk d x (tries + 1)) := by
  have hone : 1 % 256 = 1 := rfl
  have hd8 : d % 256 = d := Nat.mod_eq_of_lt (by omega)
  have hfalse : b2n false = 0 := rfl
  unfold atChunkResult
  rw [hone, Nat.mod_eq_of_lt hx, hd8, hheld, hfalse, Nat.zero_mul, Nat.add_zero (7 + 1 * 2 ^ 8 + x * 2 ^ 16 + d * 2 ^ 32), hjudge]
  simp [htries]

theorem atChunkResult_good (hmore : x + 1 < chunks (s.markedImage 1))
    (hjudge : s.judge h 7 [7 + 1 * 2 ^ 8 + x * 2 ^ 16 + d * 2 ^ 32 + 1 * 2 ^ 40] chk = (u, true)) :
    atChunkResult 1 x d true chk h s = .next (u.sendChunk d (x + 1) 0) := by
  have hone : 1 % 256 = 1 := rfl
  have hd8 : d % 256 = d := Nat.mod_eq_of_lt (by omega)
  have hlast : decide (chunks (s.markedImage 1) ≤ x + 1) = false := decide_eq_false (Nat.not_le.mpr hmore)
  have hb : b2n true = 1 := rfl
  unfold atChunkResult
  rw [hone, Nat.mod_eq_of_lt hx, hd8, hheld, hlast, hb, hjudge]
  simp

end Chunks

/-! ### Acknowledgements (R633) -/

theorem atMgmtAck_good {s : State} {h : CtlHdr} {r x : Nat} {chk : ChkFlit} (hr : r < 16) (hx : x < 256) (hunit : s.hasUnit h.dnode = true)
    (hcrc : chk.crc = checkCrc h [5 + r * 2 ^ 8 + x * 2 ^ 16] chk.alive) : atMgmtAck r x chk h s = .next { s with mgmt := { s.mgmt with
      sent := removeFirst (fun p => decide (p.snode = h.dnode) && decide (p.dnode = h.snode) && decide (p.mtype = r) && decide (p.alive = x)) s.mgmt.sent } } := by
  have hr8 : r % 256 = r := Nat.mod_eq_of_lt (by omega)
  unfold atMgmtAck
  dsimp only
  rw [hr8, Nat.mod_eq_of_lt hx, hunit]
  exact (if_neg Bool.false_ne_true).trans (if_neg (not_not_intro hcrc))

theorem execProtectedAckTimeout_again {s : State} {n m r x : Nat} {p : Prot}
    (hfind : s.mgmt.sent.find? (fun p => decide (p.snode = n) && decide (p.dnode = m) && decide (p.mtype = r) && decide (p.alive = x)) = some p)
    (htries : p.tries < 8) : execProtectedAckTimeout n m r x s =
      .next (State.sendMgmt { s with mgmt := { s.mgmt with
        sent := updFirst (fun p => decide (p.snode = n) && decide (p.dnode = m) && decide (p.mtype = r) && decide (p.alive = x))
          (fun p => { p with tries := p.tries + 1 }) s.mgmt.sent } } p.snode p.slocal p.dnode p.dlocal p.flits p.alive) := by
  unfold execProtectedAckTimeout
  dsimp only
  rw [hfind]
  exact if_pos htries

/-- Settles O27: a message that arrives is taken, judged, and does at its unit what its lemma says. -/
theorem acceptedManagementMessagesTakeEffect : Obligations.AcceptedManagementMessagesTakeEffect := by
  unfold Obligations.AcceptedManagementMessagesTakeEffect
  intro s u h r x y chk hr hx hy harr c
  have hkey := s.ctlTook_key h
  refine ⟨fun hjudge hat => ?demand, fun hjudge hat => ?grant, fun hjudge hat => ?grantReq, fun hfloor hjudge hat => ?floor,
    fun d tries crc hcrc hheld hkept hnode hregion hd => ?chunkCrc, fun d tries hheld hkept hd => ?chunkResult,
    fun hack hunit hcrc => ?mgmtAck, fun p hfind htries => ?timeout⟩
  case demand => exact (exec_demand ..).trans ((atCtl_arrives harr rfl _).trans (atDemand_accepted hr hx hy hjudge hat))
  case grant => exact (exec_grant ..).trans ((atCtl_arrives harr rfl _).trans (atGrant_accepted hr hx hy hjudge hat))
  case grantReq => exact (exec_grantReq ..).trans ((atCtl_arrives harr rfl _).trans (atGrantReq_accepted hr hjudge hat))
  case floor =>
    refine ⟨_, (exec_floor ..).trans ((atCtl_arrives harr rfl _).trans (atFloor_accepted hr hfloor hjudge hat)), ?_⟩
    rw [State.setPfloors_therm]
    exact Tab.get_set_same ..
  case chunkCrc =>
    have hwaits := chunkWaits_eq (h := h) hheld hnode hregion
    refine ⟨fun hpart => ?_, fun hwhole hjudge => ?_⟩
    · obtain ⟨hone, hroute⟩ := harr
      simp [exec_chunkCrc, execChunkCrc, atCtl, hone, hroute, hwaits, hpart]
    · exact (exec_chunkCrc ..).trans ((atCtl_arrives harr (by rw [hwaits, hwhole]; rfl) _).trans (atChunkCrc_accepted hx hcrc hkept hnode hregion hjudge))
  case chunkResult =>
    refine ⟨fun htries hjudge => ?_, fun hmore hjudge => ?_⟩
    · exact (exec_chunkResult ..).trans ((atCtl_arrives harr rfl _).trans (atChunkResult_bad hx (hkey ▸ hheld) hd htries hjudge))
    · exact (exec_chunkResult ..).trans ((atCtl_arrives harr rfl _).trans
        (atChunkResult_good hx (hkey ▸ hheld) hd (s.ctlTook_markedImage h 1 ▸ hmore) hjudge))
  case mgmtAck =>
    have hgood := atMgmtAck_good hr hack ((s.ctlTook_hasUnit h h.dnode).trans hunit) hcrc
    rw [s.ctlTook_mgmt h] at hgood
    exact (exec_mgmtAck ..).trans ((atCtl_arrives harr rfl _).trans hgood)
  case timeout => exact (exec_protectedAckTimeout ..).trans (execProtectedAckTimeout_again hfind htries)

end Sys2Proof.Machine

/-! PROOFS. The dealer's control messages (R188, R289, R302, R493, R553). Settles O28. -/

namespace Sys2Proof.Machine

section Arms

variable (h : CtlHdr) (p d n a : Nat) (b : Bool) (s : State)

theorem exec_prepare : exec (.prepare h p n a) s = execPrepare h p n a s := rfl
theorem exec_dealerReady : exec (.dealerReady h p d n b) s = execDealerReady h p d n b s := rfl
theorem exec_summary : exec (.summary h p d n a) s = execSummary h p d n a s := rfl
theorem exec_quiet : exec (.quiet h p d n) s = execQuiet h p d n s := rfl
theorem exec_dealerStop : exec (.dealerStop h p n) s = execDealerStop h p n s := rfl
theorem exec_dealerWake : exec (.dealerWake h p a) s = execDealerWake h p a s := rfl

end Arms

/-! ### What taking a control packet leaves -/

section Took

variable (s : State) (h : CtlHdr)

theorem State.ctlTook_part (p : Nat) : (s.ctlTook h).part p = s.part p := by
  obtain ⟨o, c, htook⟩ := s.ctlTook_eq h
  rw [htook]
  rfl

theorem State.ctlTook_asleep (c : Nat) : (s.ctlTook h).asleep c = s.asleep c := by
  obtain ⟨o, p, htook⟩ := s.ctlTook_eq h
  rw [htook]
  rfl

theorem State.ctlTook_heldBy (a n : Nat) : (s.ctlTook h).heldBy a n = s.heldBy a n := by
  obtain ⟨o, p, htook⟩ := s.ctlTook_eq h
  rw [htook]
  rfl

theorem State.ctlTook_stewardNode : (s.ctlTook h).stewardNode = s.stewardNode := by
  rw [State.stewardNode, State.bit_congr (s.ctlTook_regs h), State.stewardNode]

theorem State.ctlTook_managerDie (r : Nat) : (s.ctlTook h).managerDie r = s.managerDie r := by
  rw [State.managerDie, State.rd_congr (s.ctlTook_regs h), State.managerDie]

theorem State.ctlTook_placedDies (p : Nat) : (s.ctlTook h).placedDies p = s.placedDies p := by
  simp only [State.placedDies, State.placedCores, State.ctlTook_part]

theorem State.ctlTook_partOfRegion (r : Nat) : (s.ctlTook h).partOfRegion r = s.partOfRegion r := by
  simp only [State.partOfRegion, State.bit_congr (s.ctlTook_regs h), State.rd_congr (s.ctlTook_regs h)]

theorem State.ctlTook_coresOn (d : Nat) : (s.ctlTook h).coresOn d = s.coresOn d := by
  obtain ⟨o, p, htook⟩ := s.ctlTook_eq h
  rw [htook]
  rfl

theorem State.ctlTook_dieQuiet (d : Nat) : (s.ctlTook h).dieQuiet d = s.dieQuiet d := by
  obtain ⟨o, p, htook⟩ := s.ctlTook_eq h
  rw [htook]
  rfl

theorem State.ctlTook_rgnState (r : Nat) : (s.ctlTook h).rgnState r = s.rgnState r := by
  rw [State.rgnState, State.rd_congr (s.ctlTook_regs h), State.rgnState]

end Took

/-! ### PREPARE (R289) -/

/-- A core as PREPARE leaves it: its barriers open, its arrival not made, no matrix work. -/
def Core.Prepared (k : Core) : Prop := k.phase = 0 ∧ k.doneArr = false ∧ k.mq = []

theorem State.cntSet_prepared {s : State} {c : Nat} (h : (s.core c).Prepared) (b i : Nat) (v : W32) : ((s.cntSet b i v).core c).Prepared := by
  by_cases hc : c = b
  · subst hc
    rw [State.cntSet, State.core_updCore_same]
    exact h
  · rwa [State.cntSet, State.core_updCore_ne _ _ hc]

/-- A property that every element's step keeps holds after all of them. -/
theorem forL_preserves {σ α : Type} {P : σ → Prop} {f : α → σ → σ} (hf : ∀ a s, P s → P (f a s)) (l : List α) {s : σ} (h : P s) : P (forL l f s) := by
  induction l generalizing s with
  | nil => exact h
  | cons a l ih => exact ih (hf a s h)

/-- The slots, counters and phases that PREPARE gives a core, its block modes being set (R289). -/
theorem State.prepareCore_prepared {s : State} {c : Nat} (pl : Plan) (ts : List KTask) (layer : Nat) (e : Nat × Nat × Nat)
    (h : c = e.2.2 ∨ (s.core c).Prepared) : ((s.prepareCore pl ts layer e).core c).Prepared := by
  have hmodes : (forN 6 (fun k s => s.linmap e.2.2 k (linmapWord pl ts k)) s).cores = s.cores :=
    forL_keeps State.cores (fun k s => s.linmap e.2.2 k (linmapWord pl ts k)) (fun k t => (t.linmap_frame e.2.2 k _).2) _ s
  refine forL_preserves (P := fun t : State => (t.core c).Prepared) (fun r t ht => ?_) pl.cnts ?_
  · exact forL_preserves (P := fun t : State => (t.core c).Prepared) (fun i t ht => State.cntSet_prepared ht ..) _ ht
  · by_cases hc : c = e.2.2
    · subst hc
      rw [State.core_updCore_same]
      exact ⟨rfl, rfl, rfl⟩
    · rw [State.core_updCore_ne _ _ hc, State.core, hmodes]
      exact h.resolve_left hc

/-- Every core that it is done for stays prepared. -/
theorem prepareCores_prepared (pl : Plan) (ts : List KTask) (layer : Nat) (l : List (Nat × Nat × Nat)) (s : State) :
    ∀ e ∈ l, ((forL l (fun e x => x.prepareCore pl ts layer e) s).core e.2.2).Prepared := by
  induction l generalizing s with
  | nil => exact fun e he => absurd he List.not_mem_nil
  | cons a l ih =>
    intro e he
    rcases List.mem_cons.mp he with rfl | he
    · exact forL_preserves (P := fun t : State => (t.core e.2.2).Prepared) (fun b t ht => State.prepareCore_prepared pl ts layer b (.inr ht)) l
        (State.prepareCore_prepared pl ts layer e (.inl rfl))
    · exact ih _ e he

/-- The answer to PREPARE, READY (R188). -/
def State.readyReply (s : State) (p d layer bad : Nat) : State :=
  s.sendCtl 3 1 s.stewardNode 258 d 256 [2 + p * 2 ^ 8 + d * 2 ^ 16 + bad * 2 ^ 24 + layer % 2 ^ 32 * 2 ^ 32]

section Prepare

variable {s v : State} {h : CtlHdr} {p n a : Nat} (hp : p < 16) (hnode : h.dnode < 144) (hthere : s.dieAbsent h.dnode = false)
  (hawake : s.asleep (h.dnode * 256) = false) (hfree : s.heldBy a 128 = none)
include hp hnode hthere hawake hfree

theorem atPrepare_unread {e : Nat} (hread : s.dealerRead a 128 = (v, .error e)) : atPrepare p n a h s = .next (v.readyReply p h.dnode n 1) := by
  simp only [atPrepare, isDie, hnode, hthere, hawake, hfree, hread, Nat.mod_eq_of_lt hp, decide_true, Bool.not_true, Bool.or_false, Option.isSome_none,
    Bool.false_eq_true, if_false]
  rfl

theorem atPrepare_read {w : State} {hd body : List Byte} {ts : List KTask} {obj : Nat} (hread : s.dealerRead a 128 = (v, .ok hd))
    (hbody : v.dealerRead a (planLen hd) = (w, .ok body)) (hkernel : w.kernelOf p (parsePlan body).kernel = some (ts, obj)) : atPrepare p n a h s =
      .next ((forL ((w.pmap h.dnode).cells.filter (fun e => decide (coreDie e.2.2 = h.dnode) && !(w.core e.2.2).fenced))
        (fun e x => x.prepareCore (parsePlan body) ts n e) w).readyReply p h.dnode n 0) := by
  simp only [atPrepare, isDie, hnode, hthere, hawake, hfree, hread, hbody, hkernel, Nat.mod_eq_of_lt hp, decide_true, Bool.not_true, Bool.or_false,
    Option.isSome_none, Bool.false_eq_true, if_false]
  rfl

end Prepare

/-! ### What the dealer notes (R188, R302, R553) -/

section Notes

variable {s : State} {h : CtlHdr} {p d n : Nat} {l : LayerRun} (hp : p < 16) (hn : n < 2 ^ 32) (hrun : (s.part p).run = some l)
  (hat : h.dnode = s.stewardNode) (hnum : l.num = n) (hplaced : (s.placedDies p).contains d = true)
include hp hn hrun hat hnum hplaced

/-- READY of a die is noted while another has not answered (R289). -/
theorem atDealerReady_noted (hstep : l.step = 4) (hnew : l.ready.contains d = false)
    (hmore : ∃ e ∈ s.placedDies p, e ≠ d ∧ l.ready.contains e = false) :
    atDealerReady p d n false h s = .next (s.updPart p (fun x => { x with run := some { l with ready := l.ready ++ [d] } })) := by
  obtain ⟨e, he, hne, hunready⟩ := hmore
  have hwait : (s.placedDies p).all (fun d' => (l.ready ++ [d]).contains d') = false := by
    refine List.all_eq_false.mpr ⟨e, he, ?_⟩
    simp only [List.contains_eq_mem, List.mem_append, List.mem_singleton, decide_eq_true_eq, decide_eq_false_iff_not] at hunready ⊢
    exact fun hin => hin.elim hunready hne
  simp only [atDealerReady, Nat.mod_eq_of_lt hp, hrun, hat, hstep, hnum, Nat.mod_eq_of_lt hn, hplaced, hnew, hwait, ne_eq, not_true_eq_false, decide_false,
    Bool.not_true, Bool.or_false, Bool.false_eq_true, if_false]

theorem atSummary_noted {ff : Nat} (hff : ff < 64) :
    atSummary p d n ff h s = .next (s.updPart p (fun x => { x with run := some { l with fflags := Nat.lor l.fflags ff } })) := by
  simp only [atSummary, Nat.mod_eq_of_lt hp, hrun, hat, hnum, Nat.mod_eq_of_lt hn, hplaced, Nat.mod_eq_of_lt hff, ne_eq, not_true_eq_false, decide_false,
    Bool.not_true, Bool.or_false, Bool.false_eq_true, if_false]

theorem atQuiet_noted (hstep : l.step = 20) (hnew : l.quiet.contains d = false) (hquiet : s.dieQuiet d = true) :
    atQuiet p d n h s = .next ((s.updPart p (fun x => { x with run := some { l with quiet := l.quiet ++ [d] } })).whenQuiet p) := by
  simp only [atQuiet, Nat.mod_eq_of_lt hp, hrun, hat, hstep, hnum, Nat.mod_eq_of_lt hn, hplaced, hnew, hquiet, ne_eq, not_true_eq_false, decide_false,
    Bool.not_true, Bool.or_false, Bool.false_eq_true, if_false]

end Notes

/-! ### STOP (R553) -/

/-- A core whose slots STOP has discarded: only streams that had started go on (R33, R553). -/
def Core.stopped (k : Core) : Core :=
  let k := k.discard
  { k with streams := k.streams.filter (fun x => x.started), copies := (k.streams.filter (fun x => x.started && decide (4 ≤ x.slot))).length }

/-- What STOP leaves no core: a stream that has not started, matrix work, an arrival made. -/
def Core.Stopped (k : Core) : Prop := (∀ x ∈ k.streams, x.started = true) ∧ k.mq = [] ∧ k.doneArr = false

theorem Core.stopped_spec (k : Core) : k.stopped.Stopped :=
  ⟨fun _ hx => (List.mem_filter.mp hx).2, rfl, rfl⟩

/-- Cores that are updated in turn all have what the update gives. -/
theorem updCores_all {P : Core → Prop} {f : Core → Core} (hf : ∀ k, P (f k)) (l : List Nat) (s : State) :
    ∀ c ∈ l, P ((forL l (fun c s => s.updCore c f) s).core c) := by
  induction l generalizing s with
  | nil => exact fun c hc => absurd hc List.not_mem_nil
  | cons a l ih =>
    intro c hc
    rcases List.mem_cons.mp hc with rfl | hc
    · refine forL_preserves (P := fun t : State => P (t.core c)) (fun b t ht => ?_) l ?_
      · by_cases hb : c = b
        · subst hb
          rw [State.core_updCore_same]
          exact hf _
        · rwa [State.core_updCore_ne _ _ hb]
      · rw [State.core_updCore_same]
        exact hf _
    · exact ih _ c hc

/-- The state in which STOP has discarded a die's placed cores, and no earlier STOP of the die awaits its QUIET. -/
def State.dieStopped (s : State) (d : Nat) : State :=
  let s := forL (s.coresOn d) (fun c s => s.updCore c Core.stopped) s
  { s with rcv := { s.rcv with quietDue := s.rcv.quietDue.filter (fun x => decide (x.1 ≠ d)) } }

theorem State.dieStopped_spec (s : State) (d : Nat) : ∀ k ∈ s.coresOn d, ((s.dieStopped d).core k).Stopped :=
  updCores_all (P := Core.Stopped) (f := Core.stopped) Core.stopped_spec (s.coresOn d) s

theorem atDealerStop_taken {s : State} {h : CtlHdr} {p n : Nat} (hp : p < 16) (hnode : h.dnode < 144) (hthere : s.dieAbsent h.dnode = false)
    (hpart : s.partOfRegion (regionOf h.dnode) = some p) : let t := s.dieStopped h.dnode
    atDealerStop p n h s = .next (if t.dieQuiet h.dnode then t.sayQuiet h.dnode p n
      else { t with rcv := { t.rcv with quietDue := t.rcv.quietDue ++ [(h.dnode, p, n)] } }) := by
  have hgoes : (!isDie h.dnode || s.dieAbsent h.dnode || decide (s.partOfRegion (regionOf h.dnode) ≠ some p)) = false := by simp [isDie, hnode, hthere, hpart]
  unfold atDealerStop State.dieStopped Core.stopped
  rw [Nat.mod_eq_of_lt hp]
  dsimp only
  rw [hgoes]
  exact if_neg Bool.false_ne_true

theorem State.sayQuiet_core (s : State) (d p n c : Nat) : (s.sayQuiet d p n).core c = s.core c := by
  rw [State.core, State.sayQuiet, State.sendCtl, (State.ctlOut_ctlOnly ..).cores, State.core]
  rfl

/-! ### WAKE (R493) -/

theorem State.rgnState_wr (s : State) {r v : Nat} (hv : v < 8) : (s.wr (RGN_PWR_STAT.STATE r) v).rgnState r = v :=
  (s.rd_wr_same ..).trans (Nat.mod_eq_of_lt hv)

/-- A region that shows P0 or P1 shows one of them again. -/
theorem State.showP_rgnState (s : State) (r : Nat) :
    (2 ≤ s.rgnState r → (s.showP r).rgnState r = s.rgnState r) ∧ (s.rgnState r < 2 → (s.showP r).rgnState r < 2) := by
  refine ⟨fun hdeep => ?_, fun hawake => ?_⟩
  · rw [State.showP, if_pos hdeep]
  · have hbit (b : Bool) : b2n b < 2 := by cases b <;> decide
    rw [State.showP, if_neg (Nat.not_le.mpr hawake), State.rgnState_wr _ (lt_trans (hbit _) (by decide))]
    exact hbit _

theorem State.wakeRegion_rgnState {s : State} {r target : Nat} (hdeep : s.rgnState r = 2 ∨ s.rgnState r = 3) (htarget : target < 4) :
    (2 ≤ target → (s.wakeRegion r target).rgnState r = target) ∧ (target < 2 → (s.wakeRegion r target).rgnState r < 2) := by
  have hwakes : s.wakeRegion r target = (State.wr { s with power := { s.power with waking := s.power.waking.filter (fun x => decide (x ≠ r)) } }
      (RGN_PWR_STAT.STATE r) target).showP r := if_pos hdeep
  rw [hwakes]
  generalize ({ s with power := { s.power with waking := s.power.waking.filter (fun x => decide (x ≠ r)) } } : State) = t
  obtain ⟨hstays, hshows⟩ := (t.wr (RGN_PWR_STAT.STATE r) target).showP_rgnState r
  rw [t.rgnState_wr (by omega)] at hstays hshows
  exact ⟨hstays, hshows⟩

section Wake

variable {s : State} {h : CtlHdr} {p target : Nat} (hp : p < 16) (hat : h.dnode = s.managerDie p) (htarget : target < 4)
include hp hat htarget

theorem atDealerWake_taken (hdeep : 2 ≤ s.rgnState p) (hless : target < s.rgnState p) : atDealerWake p target h s = .next (s.wakeRegion p target) := by
  have hhere : (decide (h.dnode ≠ s.managerDie (p % 16)) || decide (4 ≤ target)) = false := by simp [Nat.mod_eq_of_lt hp, hat, Nat.not_le.mpr htarget]
  unfold atDealerWake
  dsimp only
  rw [hhere, Nat.mod_eq_of_lt hp]
  exact (if_neg Bool.false_ne_true).trans (if_pos ⟨hdeep, hless⟩)

/-- A region in C6 asks for an ante instead (R493; log entry 105). -/
theorem execDealerWake_off (hone : h.bcast = false) (hoff : s.rgnState p = 4) : execDealerWake h p target s = .next (s.wantAnte p 1) := by
  simp [execDealerWake, Nat.mod_eq_of_lt hp, hone, hat, htarget, hoff]

omit hat htarget in
theorem execDealerWake_on (hon : s.rgnState p ≠ 4) : execDealerWake h p target s = atCtl h noWait (atDealerWake p target) s := by
  simp [execDealerWake, Nat.mod_eq_of_lt hp, hon]

end Wake

/-- Settles O28: each message that arrives is taken, and does what its lemma says on a state that differs in the control ports. -/
theorem dealerMessagesDriveTheLayer : Obligations.DealerMessagesDriveTheLayer := by
  unfold Obligations.DealerMessagesDriveTheLayer
  intro s h p d n l hp hd hn c
  refine ⟨?prepare, ?notes, ?stop, ?wake⟩
  case prepare =>
    intro harr hat hthere hawake a hfree
    subst hat
    have htaken : exec (.prepare h p n a) s = atPrepare p n a h c := by
      refine (exec_prepare ..).trans (atCtl_arrives harr ?_ _)
      rw [hawake, Bool.and_false]
    have hthere' := (State.dieAbsent_congr (s.ctlTook_regs h) h.dnode).trans hthere
    have hawake' := (s.ctlTook_asleep h (h.dnode * 256)).trans hawake
    have hfree' := (s.ctlTook_heldBy h a 128).trans hfree
    have hlayer : n % 2 ^ 32 = n := Nat.mod_eq_of_lt hn
    refine ⟨fun v e hread => ?_, fun v hd w body ts obj hread hbody hkernel => ⟨?_, fun e he => prepareCores_prepared _ ts n _ w e he⟩⟩
    · refine htaken.trans ((atPrepare_unread hp hd hthere' hawake' hfree' hread).trans ?_)
      rw [State.readyReply, hlayer, Nat.one_mul]
    · refine htaken.trans ((atPrepare_read hp ‹_› hthere' hawake' hfree' hread hbody hkernel).trans ?_)
      rw [State.readyReply, hlayer, Nat.zero_mul, Nat.add_zero]
  case notes =>
    intro harr hrun hat hnum hplaced
    have hrun' : (c.part p).run = some l := (congrArg Part.run (s.ctlTook_part h p)).trans hrun
    have hat' : h.dnode = c.stewardNode := hat.trans (s.ctlTook_stewardNode h).symm
    have hplaced' : (c.placedDies p).contains d = true := by rwa [s.ctlTook_placedDies h p]
    refine ⟨fun hstep hnew hmore => ?_, fun ff hff => ?_, fun hstep hnew hquiet => ?_⟩
    · rw [← s.ctlTook_placedDies h p] at hmore
      exact (exec_dealerReady ..).trans ((atCtl_arrives harr rfl _).trans (atDealerReady_noted hp hn hrun' hat' hnum hplaced' hstep hnew hmore))
    · exact (exec_summary ..).trans ((atCtl_arrives harr rfl _).trans (atSummary_noted hp hn hrun' hat' hnum hplaced' hff))
    · exact (exec_quiet ..).trans ((atCtl_arrives harr rfl _).trans
        (atQuiet_noted hp hn hrun' hat' hnum hplaced' hstep hnew ((s.ctlTook_dieQuiet h d).trans hquiet)))
  case stop =>
    intro harr hat hthere hpart
    subst hat
    have hstopped := c.dieStopped_spec h.dnode
    rw [s.ctlTook_coresOn h h.dnode] at hstopped
    refine ⟨_, (exec_dealerStop ..).trans ((atCtl_arrives harr rfl _).trans (atDealerStop_taken hp hd
      ((State.dieAbsent_congr (s.ctlTook_regs h) h.dnode).trans hthere) ((s.ctlTook_partOfRegion h _).trans hpart))), ?_⟩
    generalize c.dieStopped h.dnode = t at hstopped ⊢
    split
    · next hquiet =>
      refine ⟨fun k hk => ?_, .inr ⟨_, hquiet, rfl⟩⟩
      rw [State.sayQuiet_core]
      exact hstopped k hk
    · exact ⟨hstopped, .inl (List.mem_append_right _ (List.mem_singleton_self _))⟩
  case wake =>
    intro hat target htarget
    refine ⟨fun harr hdeep hless => ?_, fun hone hoff => (exec_dealerWake ..).trans (execDealerWake_off hp hat htarget hone hoff)⟩
    have hstate := s.ctlTook_rgnState h p
    have hat' : h.dnode = c.managerDie p := hat.trans (s.ctlTook_managerDie h p).symm
    refine ⟨_, (exec_dealerWake ..).trans ((execDealerWake_on hp (by omega)).trans ((atCtl_arrives harr rfl _).trans
      (atDealerWake_taken hp hat' htarget (by rw [hstate]; omega) (by rwa [hstate])))), ?_⟩
    exact State.wakeRegion_rgnState (by rwa [hstate]) htarget

end Sys2Proof.Machine

/-! PROOFS. The change of the routing tables (R173), and flits in error with the links that fail (R196, R425 to R427). Settles O33. -/

namespace Sys2Proof.Machine

section Arms

variable (d w : Nat) (a b : Bool) (s : State)

theorem exec_tableChange (tabs : List (Nat × List Byte)) : exec (.tableChange tabs) s = execTableChange tabs s := rfl
theorem exec_tableBuffersDrained : exec .tableBuffersDrained s = execTableBuffersDrained s := rfl
theorem exec_rtFlipArm : exec (.rtFlipArm d) s = execRtFlipArm d s := rfl
theorem exec_linkFlitError : exec (.linkFlitError d w a b) s = execLinkFlitError d w a b s := rfl
theorem exec_linkResendLimit (near : Bool) : exec (.linkResendLimit d w a near b) s = execLinkResendLimit d w a near b s := rfl

end Arms

/-! ### Registers under a merged table -/

/-- Merging leaves what stands under a key that the winning table does not have. -/
theorem Tab.get_merge {α : Type} (z : α) {k n : Nat} {a b : Tab α} (hlen : a.length + b.length ≤ n) (hk : ∀ e ∈ a, e.1 ≠ k) :
    Tab.get z (Tab.merge n a b) k = Tab.get z b k := by
  induction n generalizing a b with
  | zero =>
    obtain ⟨ha, hb⟩ := Nat.add_eq_zero_iff.mp (Nat.le_zero.mp hlen)
    rw [List.length_eq_zero_iff.mp ha, List.length_eq_zero_iff.mp hb]
    rfl
  | succ n ih =>
    match a, b with
    | [], b => rfl
    | (i, v) :: a, [] =>
      have hnone (l : Tab α) (hl : ∀ e ∈ l, e.1 ≠ k) : Tab.get z l k = z := by
        induction l with
        | nil => rfl
        | cons e l ih => exact (if_neg (hl e List.mem_cons_self)).trans (ih fun x hx => hl x (List.mem_cons_of_mem _ hx))
      exact hnone _ hk
    | (i, v) :: a, (j, u) :: b =>
      have hi : i ≠ k := hk (i, v) List.mem_cons_self
      have hrest : ∀ e ∈ a, e.1 ≠ k := fun e he => hk e (List.mem_cons_of_mem _ he)
      simp only [List.length_cons] at hlen
      unfold Tab.merge
      split
      · rw [Tab.get, if_neg hi, ih (by simp only [List.length_cons]; omega) hrest]
      · split
        · next _ hij => rw [Tab.get, if_neg hi, ih (by omega) hrest, Tab.get, if_neg (hij ▸ hi)]
        · rw [Tab.get, ih (by simp only [List.length_cons]; omega) hk, ← Tab.get]

/-- Taking entries out of a table leaves what stands under a key whose entries stay. -/
theorem Tab.get_filter {α : Type} (z : α) {k : Nat} {p : Nat × α → Bool} (hk : ∀ v, p (k, v) = true) (t : Tab α) :
    Tab.get z (t.filter p) k = Tab.get z t k := by
  induction t with
  | nil => rfl
  | cons e t ih =>
    obtain ⟨j, v⟩ := e
    by_cases hj : j = k
    · subst hj
      rw [List.filter_cons_of_pos (hk v), Tab.get, Tab.get, if_pos rfl, if_pos rfl]
    · rw [List.filter_cons]
      split
      · rw [Tab.get, Tab.get, if_neg hj, if_neg hj, ih]
      · rw [ih, Tab.get, if_neg hj]

/-! ### Tables (R168, R173) -/

/-- Does a field lie outside the fault tables of every die? -/
def outsideTables (f : Field) : Prop := ∀ d < 144, f.key < 8 * (0x100D100 + d * 0x10000) ∨ 8 * (0x100D200 + d * 0x10000) + 1568 ≤ f.key

theorem State.idleBank_cases (s : State) (d : Nat) : s.idleBank d = 8 * (0x100D100 + d * 0x10000) ∨ s.idleBank d = 8 * (0x100D200 + d * 0x10000) := by
  unfold State.idleBank
  split
  · exact .inr rfl
  · exact .inl rfl

theorem Fabric.permits_length (f : Fabric) : f.permits.length = 196 := by simp [Fabric.permits]

/-- The tables that the steward makes are of compute dies, with 196 entries each (R168). -/
theorem makeTables_spec {s : State} {away : Nat → Bool} {asked : List (Nat × List Byte)} {t : Nat × List Nat} (ht : t ∈ s.makeTables away asked) :
    t.1 < 144 ∧ t.2.length = 196 := by
  unfold State.makeTables at ht
  obtain ⟨d, hd, rfl⟩ := List.mem_map.mp ht
  exact ⟨List.mem_range.mp (List.mem_filter.mp hd).1, by simp [Fabric.permits_length]⟩

/-- The steward's tables leave every register outside the fault tables (R173). -/
theorem State.rd_putTables {s : State} {l : List (Nat × List Nat)} {f : Field} (hf : outsideTables f) (hl : ∀ t ∈ l, t.1 < 144 ∧ t.2.length = 196) :
    (s.putTables l).rd f = s.rd f := by
  have hcells : ∀ e ∈ s.tableCells l, e.1 ≠ f.key := by
    intro e he
    obtain ⟨t, ht, he⟩ := List.mem_flatMap.mp he
    obtain ⟨v, hv, he⟩ := List.mem_filterMap.mp he
    obtain ⟨hdie, hlen⟩ := hl t ht
    have hidx : v.2 < 196 := by
      have := List.snd_lt_of_mem_zipIdx hv
      omega
    split at he
    · cases he
    · cases he
      have := hf t.1 hdie
      rcases s.idleBank_cases t.1 with hbank | hbank <;> rw [hbank] <;> dsimp only <;> omega
  have hstays : ∀ _ : Nat, (!l.any (fun t => inRange f.key (s.idleBank t.1) 1568)) = true := by
    intro v
    simp only [Bool.not_eq_true', List.any_eq_false, inRange, Bool.and_eq_true, decide_eq_true_eq]
    intro t ht hin
    have := hf t.1 (hl t ht).1
    rcases s.idleBank_cases t.1 with hbank | hbank <;> rw [hbank] at hin <;> omega
  unfold State.rd State.putTables
  dsimp only
  rw [Tab.get_merge 0 (Nat.add_le_add_left (List.length_filter_le ..) _) hcells, Tab.get_filter 0 (p := fun e => !l.any (fun t => inRange e.1 (s.idleBank t.1) 1568)) hstays]

/-- A die's switch armed with version `v` (R173). -/
def State.armTable (s : State) (d v : Nat) : State :=
  (if s.rd (CD_RT_CTL.ACTIVE d) = 0 then s.wr (CD_RT_VER.VER1 d) v else s.wr (CD_RT_VER.VER0 d) v).wr (CD_RT_CTL.PEND d) 1

theorem State.armTable_regsOnly (s : State) (d v : Nat) : RegsOnly s (s.armTable d v) := by
  unfold State.armTable
  split <;> exact ⟨_, rfl⟩

/-- Arming another die leaves this one's version and switch registers. -/
theorem State.rd_armTable_ne {d e : Nat} {f : Field} (hne : e ≠ d) (hf : f.key / 32 = 0x403400 + d * 0x4000 ∨ f.key / 32 = 0x403401 + d * 0x4000) (s : State) (v : Nat) :
    (s.armTable e v).rd f = s.rd f := by
  unfold State.armTable
  rw [State.rd_wr_ne]
  · split
    · exact s.rd_wr_ne _ (by dsimp only [CD_RT_VER.VER1]; omega)
    · exact s.rd_wr_ne _ (by dsimp only [CD_RT_VER.VER0]; omega)
  · dsimp only [CD_RT_CTL.PEND]
    omega

/-- A die whose switch is armed for `v`, its active version being `a`. -/
def State.Armed (s : State) (d v a : Nat) : Prop := s.rd (CD_RT_CTL.PEND d) = 1 ∧ s.inactiveVer d = v ∧ s.activeVer d = a

theorem State.armTable_versions_ne {d e : Nat} (hne : e ≠ d) (s : State) (v : Nat) : (s.armTable e v).rd (CD_RT_CTL.PEND d) = s.rd (CD_RT_CTL.PEND d) ∧
    (s.armTable e v).inactiveVer d = s.inactiveVer d ∧ (s.armTable e v).activeVer d = s.activeVer d := by
  have hactive : (s.armTable e v).rd (CD_RT_CTL.ACTIVE d) = s.rd (CD_RT_CTL.ACTIVE d) := State.rd_armTable_ne hne (by dsimp only [CD_RT_CTL.ACTIVE]; omega) s v
  have hver0 : (s.armTable e v).rd (CD_RT_VER.VER0 d) = s.rd (CD_RT_VER.VER0 d) := State.rd_armTable_ne hne (by dsimp only [CD_RT_VER.VER0]; omega) s v
  have hver1 : (s.armTable e v).rd (CD_RT_VER.VER1 d) = s.rd (CD_RT_VER.VER1 d) := State.rd_armTable_ne hne (by dsimp only [CD_RT_VER.VER1]; omega) s v
  exact ⟨State.rd_armTable_ne hne (by dsimp only [CD_RT_CTL.PEND]; omega) s v, by simp only [State.inactiveVer, hactive, hver0, hver1],
    by simp only [State.activeVer, hactive, hver0, hver1]⟩

theorem State.armTable_armed {v : Nat} (hv : v < 2 ^ 16) (s : State) (d : Nat) : (s.armTable d v).Armed d v (s.activeVer d) := by
  have hpend (f : Field) (hf : f.key ≠ (CD_RT_CTL.PEND d).key) (t : State) : (t.wr (CD_RT_CTL.PEND d) 1).rd f = t.rd f := t.rd_wr_ne _ hf
  have hactive (t : State) : (t.wr (CD_RT_CTL.PEND d) 1).rd (CD_RT_CTL.ACTIVE d) = t.rd (CD_RT_CTL.ACTIVE d) := hpend _ (by dsimp only [CD_RT_CTL.ACTIVE, CD_RT_CTL.PEND]; omega) t
  have hver0 (t : State) : (t.wr (CD_RT_CTL.PEND d) 1).rd (CD_RT_VER.VER0 d) = t.rd (CD_RT_VER.VER0 d) := hpend _ (by dsimp only [CD_RT_VER.VER0, CD_RT_CTL.PEND]; omega) t
  have hver1 (t : State) : (t.wr (CD_RT_CTL.PEND d) 1).rd (CD_RT_VER.VER1 d) = t.rd (CD_RT_VER.VER1 d) := hpend _ (by dsimp only [CD_RT_VER.VER1, CD_RT_CTL.PEND]; omega) t
  have hmod : v % 2 ^ 16 = v := Nat.mod_eq_of_lt hv
  refine ⟨State.rd_wr_same .., ?_, ?_⟩ <;> unfold State.armTable
  · by_cases hbank : s.rd (CD_RT_CTL.ACTIVE d) = 0
    · have hkeep : (s.wr (CD_RT_VER.VER1 d) v).rd (CD_RT_CTL.ACTIVE d) = 0 := by
        rw [s.rd_wr_ne _ (by dsimp only [CD_RT_CTL.ACTIVE, CD_RT_VER.VER1]; omega), hbank]
      rw [if_pos hbank, State.inactiveVer, hactive, hkeep, if_pos rfl, hver1, State.rd_wr_same]
      exact hmod
    · have hkeep : (s.wr (CD_RT_VER.VER0 d) v).rd (CD_RT_CTL.ACTIVE d) = s.rd (CD_RT_CTL.ACTIVE d) :=
        s.rd_wr_ne _ (by dsimp only [CD_RT_CTL.ACTIVE, CD_RT_VER.VER0]; omega)
      rw [if_neg hbank, State.inactiveVer, hactive, hkeep, if_neg hbank, hver0, State.rd_wr_same]
      exact hmod
  · by_cases hbank : s.rd (CD_RT_CTL.ACTIVE d) = 0
    · have hkeep : (s.wr (CD_RT_VER.VER1 d) v).rd (CD_RT_CTL.ACTIVE d) = 0 := by
        rw [s.rd_wr_ne _ (by dsimp only [CD_RT_CTL.ACTIVE, CD_RT_VER.VER1]; omega), hbank]
      rw [if_pos hbank, State.activeVer, hactive, hkeep, if_pos rfl, hver0, s.rd_wr_ne _ (by dsimp only [CD_RT_VER.VER0, CD_RT_VER.VER1]; omega),
        State.activeVer, if_pos hbank]
    · have hkeep : (s.wr (CD_RT_VER.VER0 d) v).rd (CD_RT_CTL.ACTIVE d) = s.rd (CD_RT_CTL.ACTIVE d) :=
        s.rd_wr_ne _ (by dsimp only [CD_RT_CTL.ACTIVE, CD_RT_VER.VER0]; omega)
      rw [if_neg hbank, State.activeVer, hactive, hkeep, if_neg hbank, hver1, s.rd_wr_ne _ (by dsimp only [CD_RT_VER.VER0, CD_RT_VER.VER1]; omega),
        State.activeVer, if_neg hbank]

/-- A property that one element's step establishes, from one that every step keeps, and that every step keeps too, holds at the end. -/
theorem forL_establishes {σ α : Type} {P Q : σ → Prop} {f : α → σ → σ} {a : α} (hP : ∀ b s, P s → P (f b s)) (hQ : ∀ b s, Q s → Q (f b s))
    (hmake : ∀ s, P s → Q (f a s)) {l : List α} (ha : a ∈ l) {s : σ} (h : P s) : Q (forL l f s) := by
  induction l generalizing s with
  | nil => exact absurd ha List.not_mem_nil
  | cons b l ih =>
    rcases List.mem_cons.mp ha with rfl | ha
    · exact forL_preserves hQ l (hmake s h)
    · exact ih ha (hP b s h)

/-- Every die of a list is armed, its active version as it was. -/
theorem armTables_armed {v d : Nat} (hv : v < 2 ^ 16) {l : List Nat} (hd : d ∈ l) (s : State) :
    (forL l (fun e s => s.armTable e v) s).Armed d v (s.activeVer d) := by
  refine forL_establishes (P := fun t : State => t.activeVer d = s.activeVer d) (Q := fun t : State => t.Armed d v (s.activeVer d)) (fun e t ht => ?_)
    (fun e t ht => ?_) (fun t ht => ?_) hd rfl
  · by_cases he : e = d
    · subst he
      exact (State.armTable_armed hv t e).2.2.trans ht
    · exact (State.armTable_versions_ne he t v).2.2.trans ht
  · by_cases he : e = d
    · subst he
      have harmed := State.armTable_armed hv t e
      rwa [ht.2.2] at harmed
    · obtain ⟨hpend, hinactive, hactive⟩ := State.armTable_versions_ne he t v
      exact ⟨hpend.trans ht.1, hinactive.trans ht.2.1, hactive.trans ht.2.2⟩
  · exact ht ▸ State.armTable_armed hv t d

/-- The registers that say whether a die is in service, and those of its switch, lie outside the fault tables. -/
theorem State.putTables_die {s : State} {l : List (Nat × List Nat)} (hl : ∀ t ∈ l, t.1 < 144 ∧ t.2.length = 196) {d : Nat} (hd : d < 144) :
    (s.putTables l).dieAbsent d = s.dieAbsent d ∧ (s.putTables l).activeVer d = s.activeVer d := by
  have hregion : regionOf d < 16 := by
    unfold regionOf
    omega
  have hrd {f : Field} (hf : outsideTables f) : (s.putTables l).rd f = s.rd f := State.rd_putTables hf hl
  have hhole := hrd (f := GLB_HOLE_DIE.HOLE (d / 32)) (fun e he => by dsimp only [GLB_HOLE_DIE.HOLE]; omega)
  have hrgnHole := hrd (f := GLB_HOLE_RGN.HOLE) (fun e he => by dsimp only [GLB_HOLE_RGN.HOLE]; omega)
  have hstate := hrd (f := RGN_PWR_STAT.STATE (regionOf d)) (fun e he => by dsimp only [RGN_PWR_STAT.STATE]; omega)
  have hactive := hrd (f := CD_RT_CTL.ACTIVE d) (fun e he => by dsimp only [CD_RT_CTL.ACTIVE]; omega)
  have hver0 := hrd (f := CD_RT_VER.VER0 d) (fun e he => by dsimp only [CD_RT_VER.VER0]; omega)
  have hver1 := hrd (f := CD_RT_VER.VER1 d) (fun e he => by dsimp only [CD_RT_VER.VER1]; omega)
  exact ⟨by rw [State.dieAbsent, State.dieHole, State.rgnState, hhole, hrgnHole, hstate]; rfl, by simp only [State.activeVer, hactive, hver0, hver1]⟩

/-- The state in which the tables of a change are written and every die in service is armed (R173). -/
def State.armed (s : State) (away : Nat → Bool) (tabs : List (Nat × List Byte)) : State :=
  let u := s.putTables (s.makeTables away tabs)
  forL u.diesIn (fun e t => t.armTable e (s.net.nextVer % 2 ^ 16)) u

theorem State.changeTables_eq (s : State) (away : Nat → Bool) (tabs : List (Nat × List Byte)) : s.changeTables away tabs =
    (s.armed away tabs).updNet (fun n =>
      { n with chg := some { ver := s.net.nextVer % 2 ^ 16, flipped := false }, nextVer := (s.net.nextVer % 2 ^ 16 + 1) % 2 ^ 16 }) := by
  unfold State.changeTables State.armed State.armTable
  rfl

theorem State.armed_regsOnly (s : State) (away : Nat → Bool) (tabs : List (Nat × List Byte)) : RegsOnly s (s.armed away tabs) := by
  have hput : RegsOnly s (s.putTables (s.makeTables away tabs)) := ⟨_, rfl⟩
  exact forL_preserves (P := RegsOnly s) (fun e t ht => ht.trans (t.armTable_regsOnly e _)) _ hput

theorem State.armed_die {s : State} {d : Nat} (hd : d < 144) (hin : s.dieAbsent d = false) (away : Nat → Bool) (tabs : List (Nat × List Byte)) :
    (s.armed away tabs).Armed d (s.net.nextVer % 2 ^ 16) (s.activeVer d) := by
  obtain ⟨habsent, hactive⟩ := State.putTables_die (s := s) (l := s.makeTables away tabs) (fun t ht => makeTables_spec ht) hd
  have hmem : d ∈ (s.putTables (s.makeTables away tabs)).diesIn :=
    List.mem_filter.mpr ⟨List.mem_range.mpr hd, by rw [habsent, hin]; rfl⟩
  have harmed := armTables_armed (v := s.net.nextVer % 2 ^ 16) (Nat.mod_lt _ (by decide)) hmem (s.putTables (s.makeTables away tabs))
  rwa [hactive] at harmed

/-- A change that nothing holds back begins at once (R173). -/
theorem execTableChange_armed {s : State} (hgoing : s.layerGoing = false) (hlost : s.bit GLB_STW_STAT.LOST_BOTH = false) (tabs : List (Nat × List Byte)) :
    execTableChange tabs s = .next (s.changeTables noDie tabs) := if_neg (by simp [hgoing, hlost])

/-! ### Counters -/

theorem satTo_lt (w x : Nat) : satTo (allOnes w) x < 2 ^ w := by
  have hpos : 0 < 2 ^ w := Nat.two_pow_pos w
  unfold satTo allOnes
  split <;> omega

theorem State.rd_sat_same (s : State) (f : Field) (n : Nat) : (s.sat f n).rd f = satTo (allOnes f.w) (s.rd f + n) :=
  (s.rd_wr_same ..).trans (Nat.mod_eq_of_lt (satTo_lt ..))

/-- A health count's value after it counts, and every field but it and its SAT bit (R582). -/
theorem State.rd_hcount_same {f sat : Field} (hne : f.key ≠ sat.key) (s : State) (n : Nat) : (s.hcount f sat n).rd f = satTo (allOnes f.w) (s.rd f + n) := by
  unfold State.hcount
  dsimp only
  split
  · rw [State.rd_wr_ne _ _ hne, State.rd_sat_same]
  · exact State.rd_sat_same ..

theorem State.rd_hcount_ne {f sat g : Field} (hf : g.key ≠ f.key) (hsat : g.key ≠ sat.key) (s : State) (n : Nat) : (s.hcount f sat n).rd g = s.rd g := by
  unfold State.hcount
  dsimp only
  split
  · rw [State.rd_wr_ne _ _ hsat]
    exact s.rd_wr_ne _ hf
  · exact s.rd_wr_ne _ hf

/-- An L counter below half its range counts without a report (R577). -/
theorem State.lcount_low {s : State} {f : Field} (hw : f.w = 16) (hlow : s.rd f < 0x7FFF) (unit off idx : Nat) :
    s.lcount unit off idx f 1 = s.wr f (s.rd f + 1) := by
  have hsat : s.sat f 1 = s.wr f (s.rd f + 1) := by
    rw [State.sat, hw, satTo, if_pos (by unfold allOnes; omega)]
  have hval : (s.wr f (s.rd f + 1)).rd f = s.rd f + 1 := by
    rw [State.rd_wr_same, hw]
    omega
  unfold State.lcount
  dsimp only
  rw [hsat, hval]
  have hhalf : (decide (s.rd f < 0x8000) && decide (0x8000 ≤ s.rd f + 1)) = false := by simp; omega
  have hfull : (decide (s.rd f < 0xFFFF) && decide (s.rd f + 1 = 0xFFFF)) = false := by simp; omega
  rw [hhalf, hfull]
  rfl

/-! ### A flit in error (R196) -/

section NetCe

variable (s : State) (d : Nat)

theorem State.netCe_regsOnly : RegsOnly s (s.netCe d) := by
  obtain ⟨r, hcount⟩ := (s.wr (CD_NET_ERR.CE d) 1).hcount_regsOnly (CD_NET_CE.COUNT d) (CD_DIE_HSTAT.NET_CE_SAT d) 1
  exact ⟨r, hcount⟩

theorem State.netCe_mark : (s.netCe d).rd (CD_NET_ERR.CE d) = 1 := by
  rw [State.netCe, State.rd_hcount_ne]
  · exact State.rd_wr_same ..
  · dsimp only [CD_NET_ERR.CE, CD_NET_CE.COUNT]; omega
  · dsimp only [CD_NET_ERR.CE, CD_DIE_HSTAT.NET_CE_SAT]; omega

theorem State.netCe_count : (s.netCe d).rd (CD_NET_CE.COUNT d) = satTo (allOnes (CD_NET_CE.COUNT d).w) (s.rd (CD_NET_CE.COUNT d) + 1) := by
  rw [State.netCe, State.rd_hcount_same, s.rd_wr_ne]
  · dsimp only [CD_NET_ERR.CE, CD_NET_CE.COUNT]; omega
  · dsimp only [CD_NET_CE.COUNT, CD_DIE_HSTAT.NET_CE_SAT]; omega

/-- Every register but those two and the count's SAT bit is as it was. -/
theorem State.rd_netCe_ne {f : Field} (hmark : f.key ≠ (CD_NET_ERR.CE d).key) (hcount : f.key ≠ (CD_NET_CE.COUNT d).key)
    (hsat : f.key ≠ (CD_DIE_HSTAT.NET_CE_SAT d).key) : (s.netCe d).rd f = s.rd f := by
  rw [State.netCe, State.rd_hcount_ne hcount hsat, s.rd_wr_ne _ hmark]

theorem State.netCe_node (n : Nat) : (s.netCe d).node n = s.node n := by
  obtain ⟨r, hnet⟩ := s.netCe_regsOnly d
  rw [hnet]
  rfl

theorem State.node_updNode_same (f : Node → Node) : (s.updNode d f).node d = f (s.node d) := State.node_setNode_same ..

end NetCe

section FlitError

variable {s : State} {d w : Nat} (hd : d < 144) (hw : w < 9) (hin : s.dieAbsent d = false)
include hd hw hin

/-- On a die it is counted, with how often this flit was resent. -/
theorem execLinkFlitError_onDie (same : Bool) : execLinkFlitError d w true same s =
    .next ((s.netCe d).updNode d (fun x => { x with resends := Tab.upd 0 x.resends 9 (fun n => if same then n + 1 else 1) })) := by
  have hgoes : (!isDie d || decide (9 ≤ w) || s.dieAbsent d) = false := by simp [isDie, hd, hin, hw]
  unfold execLinkFlitError
  rw [hgoes]
  rfl

end FlitError

/-- A flit of a seam that is resent once more, counted at its die and its link (R196, R425). -/
def State.resent (s : State) (d w : Nat) : State :=
  ((s.netCe d).updNode d (fun x => { x with resends := Tab.set 0 x.resends w (Tab.get 0 (s.node d).resends w + 1) })).wr (CD_LNK_ERR.RESENDS d w)
    (s.rd (CD_LNK_ERR.RESENDS d w) + 1)

/-- The first resend of a link's end in a millisecond opens its count for it (R426). -/
def State.openWindow (s : State) (d w : Nat) : State :=
  { s with links := { s.links with
    winMs := Tab.set 0 s.links.winMs (endKey d w) (s.ptime / 1000000 + 1), winCnt := Tab.set 0 s.links.winCnt (endKey d w) 1 } }

theorem State.resent_frame (s : State) (d w : Nat) : (s.resent d w).links = s.links ∧ (s.resent d w).ptime = s.ptime ∧ (s.resent d w).out = s.out := by
  obtain ⟨r, hnet⟩ := s.netCe_regsOnly d
  rw [State.resent, hnet]
  exact ⟨rfl, rfl, rfl⟩

theorem State.resent_resends (s : State) (d w : Nat) : Tab.get 0 ((s.resent d w).node d).resends w = Tab.get 0 (s.node d).resends w + 1 := by
  change Tab.get 0 (((s.netCe d).updNode d (fun x => { x with resends := Tab.set 0 x.resends w (Tab.get 0 (s.node d).resends w + 1) })).node d).resends w = _
  rw [State.node_updNode_same]
  dsimp only
  rw [Tab.get_set_same]

theorem State.rd_resent_ne {d w : Nat} {f : Field} (hcount : f.key ≠ (CD_LNK_ERR.RESENDS d w).key) (hmark : f.key ≠ (CD_NET_ERR.CE d).key)
    (hce : f.key ≠ (CD_NET_CE.COUNT d).key) (hsat : f.key ≠ (CD_DIE_HSTAT.NET_CE_SAT d).key) (s : State) : (s.resent d w).rd f = s.rd f :=
  (State.rd_wr_ne _ _ hcount).trans ((State.rd_updNode ..).trans (s.rd_netCe_ne d hmark hce hsat))

theorem execLinkFlitError_resent {s : State} {d w m : Nat} (hd : d < 144) (hin : s.dieAbsent d = false) (hw : w < 4) (hway : wayNode d w = some m)
    (hon : w ∉ (s.node d).stopped) (hn : Tab.get 0 (s.node d).resends w + 1 ≠ 8) (hlow : s.rd (CD_LNK_ERR.RESENDS d w) < 0x7FFF)
    (hms : Tab.get 0 s.links.winMs (endKey d w) ≠ s.ptime / 1000000 + 1) (hmax : 0 < s.rd GLB_LNK_CFG.RESEND_MAX) :
    execLinkFlitError d w false true s = .next ((s.resent d w).openWindow d w) := by
  have hgoes : (!isDie d || decide (9 ≤ w) || s.dieAbsent d) = false := by simp [isDie, hd, hin]; omega
  have hup : ((wayNode d w).isNone || ((s.netCe d).node d).stopped.contains w) = false := by simp [hway, s.netCe_node d, hon]
  have hcount : ((s.netCe d).updNode d (fun x => { x with resends := Tab.set 0 x.resends w (Tab.get 0 (s.node d).resends w + 1) })).rd (CD_LNK_ERR.RESENDS d w) =
      s.rd (CD_LNK_ERR.RESENDS d w) := by
    rw [State.rd_updNode, s.rd_netCe_ne d] <;> dsimp only [CD_LNK_ERR.RESENDS, CD_NET_ERR.CE, CD_NET_CE.COUNT, CD_DIE_HSTAT.NET_CE_SAT] <;> omega
  have hlcount := State.lcount_low (f := CD_LNK_ERR.RESENDS d w) rfl (hcount.symm ▸ hlow) d (0xD508 + 16 * w) w
  have hlimit : (s.resent d w).rd GLB_LNK_CFG.RESEND_MAX = s.rd GLB_LNK_CFG.RESEND_MAX := by
    refine State.rd_resent_ne ?_ ?_ ?_ ?_ s <;>
      dsimp only [GLB_LNK_CFG.RESEND_MAX, CD_LNK_ERR.RESENDS, CD_NET_ERR.CE, CD_NET_CE.COUNT, CD_DIE_HSTAT.NET_CE_SAT] <;> omega
  obtain ⟨hlinks, hptime, -⟩ := s.resent_frame d w
  unfold execLinkFlitError
  rw [hgoes, if_neg Bool.false_ne_true]
  dsimp only
  rw [if_neg Bool.false_ne_true, hup, if_neg Bool.false_ne_true, if_pos rfl, s.netCe_node d, if_pos hw, hlcount, hcount, ← State.resent]
  generalize s.resent d w = u at hlimit hlinks hptime ⊢
  rw [if_neg (show ¬Tab.get 0 u.links.winMs (endKey d w) = u.ptime / 1000000 + 1 by rwa [hlinks, hptime])]
  exact (if_neg (fun h : u.rd GLB_LNK_CFG.RESEND_MAX < 1 => by omega)).trans (if_neg hn)

/-! ### What an event leaves -/

/-- `t` is `s` but for registers below those of the dies, the telemetry, the host's side, and what the panel has sent. -/
def PostOnly (s t : State) : Prop :=
  (∃ regs tel host out, t = { s with regs := regs, tel := tel, host := host, out := out }) ∧ ∀ f : Field, 8 * 0x1000000 ≤ f.key → t.rd f = s.rd f

theorem PostOnly.refl (s : State) : PostOnly s s := ⟨⟨_, _, _, _, rfl⟩, fun _ _ => rfl⟩

theorem PostOnly.trans {s t u : State} (h : PostOnly s t) (k : PostOnly t u) : PostOnly s u := by
  obtain ⟨⟨r, e, o, x, rfl⟩, hrd⟩ := h
  obtain ⟨⟨r', e', o', x', rfl⟩, krd⟩ := k
  exact ⟨⟨_, _, _, _, rfl⟩, fun f hf => (krd f hf).trans (hrd f hf)⟩

theorem State.wr_postOnly {f : Field} (hf : f.key < 8 * 0x1000000) (s : State) (v : Nat) : PostOnly s (s.wr f v) :=
  ⟨⟨_, _, _, _, rfl⟩, fun g hg => s.rd_wr_ne v (by omega)⟩

theorem State.updHost_postOnly (s : State) (f : HostSide → HostSide) : PostOnly s (s.updHost f) := ⟨⟨_, _, _, _, rfl⟩, fun _ _ => rfl⟩

theorem State.emit_postOnly (s : State) (o : Out) : PostOnly s (s.emit o) := ⟨⟨_, _, _, _, rfl⟩, fun _ _ => rfl⟩

theorem State.pcount_postOnly {f wrap : Field} (hf : f.key < 8 * 0x1000000) (hwrap : wrap.key < 8 * 0x1000000) (s : State) (unit bit n : Nat) :
    PostOnly s (s.pcount unit f wrap bit n) := by
  obtain ⟨-, -, hrd⟩ := s.pcount_frame unit f wrap bit n
  refine ⟨?_, fun g hg => hrd g (by omega) (by omega)⟩
  unfold State.pcount
  dsimp only
  split
  · exact ⟨_, _, _, _, rfl⟩
  · split
    · exact ⟨_, _, _, _, rfl⟩
    · exact ⟨_, _, _, _, rfl⟩

theorem State.msix_postOnly (s : State) (fn v : Nat) : PostOnly s (s.msix fn v) := by
  unfold State.msix
  split
  · exact PostOnly.refl s
  · split
    · exact s.updHost_postOnly _
    · exact s.emit_postOnly _

section Function

variable {f : Nat} (hf : f < 16)
include hf

theorem State.hostWrite_postOnly (s : State) (a : Nat) (data : List Byte) : PostOnly s (s.hostWrite f a data) :=
  (s.pcount_postOnly (by dsimp only [HID_PERF_WRB.COUNT]; omega) (by dsimp only [HID_PERF_WRAP.WRAP]; omega) ..).trans (State.emit_postOnly ..)

theorem State.evtPut_postOnly (s : State) (ty part sev : Nat) (payload : List Byte) : PostOnly s (s.evtPut f ty part sev payload) := by
  have hphase (t : State) (v : Nat) : PostOnly t (t.wr (HID_EVT_TAIL.PHASE f) v) := t.wr_postOnly (by dsimp only [HID_EVT_TAIL.PHASE]; omega) v
  have htail (t : State) (v : Nat) : PostOnly t (t.wr (HID_EVT_TAIL.TAIL f) v) := t.wr_postOnly (by dsimp only [HID_EVT_TAIL.TAIL]; omega) v
  unfold State.evtPut
  dsimp only
  refine PostOnly.trans ?_ ((htail _ _).trans (State.msix_postOnly ..))
  split
  · exact ((s.hostWrite_postOnly hf ..).trans (State.updHost_postOnly ..)).trans (hphase _ _)
  · exact (s.hostWrite_postOnly hf ..).trans (State.updHost_postOnly ..)

theorem State.postEvent_postOnly (s : State) (ty part sev : Nat) (payload : List Byte) : PostOnly s (s.postEvent f ty part sev payload) := by
  have hflush (t : State) : PostOnly t (t.evtFlush f) := by
    unfold State.evtFlush
    dsimp only
    split
    · exact PostOnly.refl t
    · exact (t.evtPut_postOnly hf ..).trans (State.updHost_postOnly ..)
  have hlose (t : State) : PostOnly t (t.evtLose f) :=
    (t.wr_postOnly (f := HID_FN_ERR.EVLOST f) (by dsimp only [HID_FN_ERR.EVLOST]; omega) _).trans (State.updHost_postOnly ..)
  unfold State.postEvent
  dsimp only
  split
  · split
    · exact (hflush s).trans (hlose _)
    · exact (hflush s).trans (State.evtPut_postOnly hf ..)
  · exact PostOnly.refl s

end Function

/-- An event to every PF changes the host's side and its registers, no more (R345, R346). -/
theorem State.postPanel_postOnly (s : State) (ty part sev : Nat) (payload : List Byte) : PostOnly s (s.postPanel ty part sev payload) := by
  have hone {f : Nat} (hf : f < 16) (t : State) : PostOnly t (if t.bit (HID_FN_ID.EN f) then t.postEvent f ty part sev payload else t) := by
    split
    · exact t.postEvent_postOnly hf ..
    · exact PostOnly.refl t
  exact (hone (by decide : 0 < 16) s).trans (hone (by decide : 8 < 16) _)

/-! ### A link that has failed (R196, R427) -/

/-- `t` is `s` but for the networks and what the panel has sent, and the same links are stopped. -/
def KeepsStops (s t : State) : Prop := (∃ net out, t = { s with net := net, out := out }) ∧ ∀ d, (t.node d).stopped = (s.node d).stopped

theorem KeepsStops.trans {s t u : State} (h : KeepsStops s t) (k : KeepsStops t u) : KeepsStops s u := by
  obtain ⟨⟨n, o, ht⟩, hstop⟩ := h
  obtain ⟨⟨n', o', hu⟩, kstop⟩ := k
  refine ⟨⟨n', o', ?_⟩, fun d => (kstop d).trans (hstop d)⟩
  rw [hu, ht]

theorem State.updNode_keepsStops {f : Node → Node} (hf : ∀ x, (f x).stopped = x.stopped) (s : State) (n : Nat) : KeepsStops s (s.updNode n f) := by
  refine ⟨⟨_, _, rfl⟩, fun d => ?_⟩
  by_cases hd : d = n
  · subst hd
    rw [State.node_updNode_same, hf]
  · rw [State.updNode, State.node_setNode_ne _ _ hd]

theorem State.ctlOut_keepsStops (s : State) (h : CtlHdr) (flits : List Nat) : KeepsStops s (s.ctlOut h flits) := by
  obtain ⟨out, cports, hsent⟩ := (s.ctlOut_ctlOnly h flits).eq
  rw [hsent]
  exact ⟨⟨_, _, rfl⟩, fun _ => rfl⟩

/-- A report of a fault stops no link (R186). -/
theorem State.sendFault_keepsStops (s : State) (n sl code unit kind dir : Nat) : KeepsStops s (s.sendFault n sl code unit kind dir) := by
  unfold State.sendFault State.takeMsgid
  dsimp only
  refine KeepsStops.trans (KeepsStops.trans (State.updNode_keepsStops ?_ ..) (State.updNode_keepsStops ?_ ..)) (State.ctlOut_keepsStops ..)
  · exact fun _ => rfl
  · exact fun _ => rfl

theorem State.linkFault_keepsStops (s : State) (d w : Nat) : KeepsStops s (s.linkFault d w) := by
  unfold State.linkFault
  split
  · split
    · exact s.sendFault_keepsStops ..
    · exact s.sendFault_keepsStops ..
  · exact s.sendFault_keepsStops ..

/-- The register of a seam's state (R199). -/
def seamField (d : Nat) : Nat → Field
  | 0 => CD_RT_SEAM.E d
  | 1 => CD_RT_SEAM.N d
  | 2 => CD_RT_SEAM.W d
  | _ => CD_RT_SEAM.S d

theorem State.seam_eq (s : State) (d w : Nat) : s.seam d w = s.rd (seamField d w) := by
  match w with
  | 0 | 1 | 2 | _ + 3 => rfl

theorem State.setSeam_eq (s : State) (d w v : Nat) : s.setSeam d w v = s.wr (seamField d w) v := by
  match w with
  | 0 | 1 | 2 | _ + 3 => rfl

theorem seamField_shape (d w : Nat) : (seamField d w).w = 2 ∧ (seamField d w).reset = 2 ∧ (seamField d w).key / 32 = 0x403402 + d * 0x4000 := by
  unfold seamField
  split <;> dsimp only [CD_RT_SEAM.E, CD_RT_SEAM.N, CD_RT_SEAM.W, CD_RT_SEAM.S] <;> omega

/-- A write is read back through any field of the same place and shape. -/
theorem State.rd_wr_twin {f g : Field} (hkey : g.key = f.key) (hw : g.w = f.w) (hreset : g.reset = f.reset) (s : State) (v : Nat) : (s.wr f v).rd g = v % 2 ^ f.w := by
  have hsame := s.rd_wr_same f v
  unfold State.rd at hsame ⊢
  rwa [hkey, hw, hreset]

/-- A seam that is down stays so when another is taken down too. -/
theorem State.setSeam_down {s : State} {d w e x : Nat} (h : s.seam d w = 2 ∨ (e = d ∧ x = w)) : (s.setSeam e x 2).seam d w = 2 := by
  obtain ⟨hw, hreset, -⟩ := seamField_shape d w
  obtain ⟨hw', hreset', -⟩ := seamField_shape e x
  rw [State.setSeam_eq, State.seam_eq]
  by_cases hkey : (seamField d w).key = (seamField e x).key
  · rw [State.rd_wr_twin hkey (hw.trans hw'.symm) (hreset.trans hreset'.symm), hw']
    rfl
  · rw [s.rd_wr_ne _ hkey, ← State.seam_eq]
    refine h.resolve_right ?_
    rintro ⟨rfl, rfl⟩
    exact hkey rfl

/-- Registers of a link's state beside its seam's. -/
theorem State.seam_wr_lnkStat {f : Field} {e x : Nat} (_ : x < 4) (hf : f.key / 32 = 0x403540 + e * 0x4000 + x * 4) (s : State) (d w v : Nat) :
    (s.wr f v).seam d w = s.seam d w := by
  obtain ⟨-, -, hkey⟩ := seamField_shape d w
  rw [State.seam_eq, State.seam_eq, s.rd_wr_ne]
  omega

theorem linkEnds_way {d w : Nat} (hw : w < 4) : ∀ e ∈ linkEnds d w, e.2 < 4 := by
  intro e he
  unfold linkEnds farEnd at he
  rcases List.mem_cons.mp he with rfl | he
  · exact hw
  · split at he
    · split at he
      · obtain rfl := List.mem_singleton.mp he
        exact Nat.mod_lt _ (by decide)
      · cases he
    · cases he

theorem forL_preserves_mem {σ α : Type} {P : σ → Prop} {f : α → σ → σ} {l : List α} (hf : ∀ a ∈ l, ∀ s, P s → P (f a s)) {s : σ} (h : P s) : P (forL l f s) := by
  induction l generalizing s with
  | nil => exact h
  | cons a l ih => exact ih (fun b hb => hf b (List.mem_cons_of_mem _ hb)) (hf a List.mem_cons_self s h)

theorem State.linkMode_seam {w : Nat} (hw : w < 4) (s : State) (d : Nat) : s.linkMode d w = s.seam d w :=
  (if_neg (by omega)).trans (if_neg (by omega))

/-- Both ends of a link written down, the link is down (R427, R441). -/
theorem State.setMode_down (s : State) {d w : Nat} (hw : w < 9) : (s.setMode d w 2).linkMode d w = 2 := by
  rcases Nat.lt_or_ge w 4 with hseam | hrest
  · have hend (t : State) (e : Nat × Nat) (he : e.2 < 4) (h : t.seam d w = 2 ∨ (e.1 = d ∧ e.2 = w)) :
        ((t.setSeam e.1 e.2 2).wr (CD_LNK_STAT.MODE e.1 e.2) 2).seam d w = 2 := by
      rw [State.seam_wr_lnkStat (e := e.1) he (by dsimp only [CD_LNK_STAT.MODE]; omega)]
      exact State.setSeam_down h
    have hboth : s.setMode d w 2 = forL (linkEnds d w) (fun e s => (s.setSeam e.1 e.2 2).wr (CD_LNK_STAT.MODE e.1 e.2) 2) s :=
      (if_neg (by omega)).trans (if_neg (by omega))
    rw [State.linkMode_seam hseam, hboth]
    exact forL_preserves_mem (P := fun t : State => t.seam d w = 2)
      (fun e he t ht => hend t e (linkEnds_way hseam e (List.mem_cons_of_mem _ he)) (.inl ht)) (hend s (d, w) hseam (.inr ⟨rfl, rfl⟩))
  · unfold State.setMode State.linkMode
    by_cases hcorner : w = 8
    · simp only [if_pos hcorner]
      exact congrArg (fun x => Nat.xor x 2) (Tab.get_set_same ..)
    · simp only [if_neg hcorner, if_pos hrest]
      exact State.rd_wr_same ..

/-- The end of a training leaves the link's mode. -/
theorem State.setTraining_linkMode (s : State) (d w : Nat) (b : Bool) : (s.setTraining d w b).linkMode d w = s.linkMode d w := by
  unfold State.setTraining
  rcases Nat.lt_or_ge w 4 with hseam | hrest
  · rw [if_neg (Nat.not_le.mpr hseam), State.linkMode_seam hseam, State.linkMode_seam hseam]
    refine forL_preserves_mem (P := fun t : State => t.seam d w = s.seam d w) (fun e he t ht => ?_) rfl
    rw [State.seam_wr_lnkStat (e := e.1) (linkEnds_way hseam e he) (by dsimp only [CD_LNK_STAT.TRAINING]; omega)]
    exact ht
  · rw [if_pos hrest]

theorem PostOnly.linkMode {s t : State} (h : PostOnly s t) (d w : Nat) : t.linkMode d w = s.linkMode d w := by
  obtain ⟨⟨r, e, o, x, hform⟩, hrd⟩ := h
  have hlinks : t.links = s.links := by rw [hform]
  obtain ⟨-, -, hkey⟩ := seamField_shape d w
  unfold State.linkMode
  rw [hlinks, hrd (GLB_SKIP.STATE (skipIdx d w)) (by dsimp only [GLB_SKIP.STATE]; omega), State.seam_eq, State.seam_eq, hrd (seamField d w) (by omega)]

/-- A link's mode is no part of the nodes or of the partitions. -/
theorem State.setMode_frame (s : State) (d w v : Nat) : (s.setMode d w v).net = s.net ∧ (s.setMode d w v).parts = s.parts := by
  unfold State.setMode
  split
  · exact ⟨rfl, rfl⟩
  · split
    · exact ⟨rfl, rfl⟩
    · refine forL_preserves (P := fun t : State => t.net = s.net ∧ t.parts = s.parts) (fun e t ht => ?_) _ ⟨rfl, rfl⟩
      rw [State.setSeam_eq]
      exact ht

theorem State.setTraining_frame (s : State) (d w : Nat) (b : Bool) : (s.setTraining d w b).net = s.net ∧ (s.setTraining d w b).parts = s.parts := by
  unfold State.setTraining
  split
  · exact ⟨rfl, rfl⟩
  · refine forL_preserves (P := fun t : State => t.net = s.net ∧ t.parts = s.parts) (fun e t ht => ?_) _ ⟨rfl, rfl⟩
    exact ht

/-- A link lost while no layer runs is down, and the links that are stopped stay so (R427). -/
theorem State.linkLost_idle {s : State} (hidle : s.anyLayer = false) {d w : Nat} (hw : w < 9) :
    (s.linkLost d w).linkMode d w = 2 ∧ (s.linkLost d w).net = s.net := by
  have hposted := ((s.setMode d w 2).setTraining d w false).postPanel_postOnly 0x0501 31 2 (seamBody d w)
  have hmode := hposted.linkMode d w
  obtain ⟨⟨r, e, o, x, hform⟩, -⟩ := hposted
  have hidle' : (((s.setMode d w 2).setTraining d w false).postPanel 0x0501 31 2 (seamBody d w)).anyLayer = false := by
    refine Eq.trans ?_ hidle
    rw [hform]
    unfold State.anyLayer State.part
    rw [((s.setMode d w 2).setTraining_frame d w false).2, (s.setMode_frame d w 2).2]
  have hlost : s.linkLost d w = ((s.setMode d w 2).setTraining d w false).postPanel 0x0501 31 2 (seamBody d w) := by
    unfold State.linkLost
    dsimp only
    rw [hidle', Bool.not_false, Bool.or_true]
    exact if_pos rfl
  rw [hlost]
  refine ⟨hmode.trans ((State.setTraining_linkMode ..).trans (s.setMode_down hw)), ?_⟩
  rw [hform]
  exact ((s.setMode d w 2).setTraining_frame d w false).1.trans (s.setMode_frame d w 2).1

/-- A link at which a flit has failed its sixteenth resend is stopped at that end (R196). -/
def State.stopLink (s : State) (d w : Nat) : State :=
  s.updNode d (fun x => { x with stopped := if x.stopped.contains w then x.stopped else x.stopped ++ [w] })

theorem State.stopLink_stopped (s : State) (d w : Nat) : w ∈ ((s.stopLink d w).node d).stopped := by
  rw [State.stopLink, State.node_updNode_same]
  dsimp only
  split
  · next hin => simpa using hin
  · exact List.mem_append_right _ (List.mem_singleton_self w)

section ResendLimit

variable {s : State} {d w m : Nat} (hd : d < 144) (hin : s.dieAbsent d = false)
include hd hin

/-- On a die the sixteenth failed resend is a die fault (R196). -/
theorem execLinkResendLimit_onDie (near far : Bool) :
    execLinkResendLimit d w true near far s = .next (if Tab.get 0 (s.node d).resends 9 < 16 then s else s.dieFault d 0x10) := by
  have hgoes : (!isDie d || s.dieAbsent d) = false := by simp [isDie, hd, hin]
  unfold execLinkResendLimit
  rw [hgoes]
  rfl

variable (hway : wayNode d w = some m)
include hway

theorem execLinkResendLimit_early (hearly : Tab.get 0 (s.node d).resends w < 16) (near far : Bool) : execLinkResendLimit d w false near far s = .next s := by
  have hgoes : (!isDie d || s.dieAbsent d) = false := by simp [isDie, hd, hin]
  unfold execLinkResendLimit
  rw [hgoes, hway]
  exact if_pos hearly

variable (hlimit : 16 ≤ Tab.get 0 (s.node d).resends w)
include hlimit

/-- At the sixteenth the link is stopped; where its own end fails its test, the fault is that die's, and where neither does, the link's (R196, R427). -/
theorem execLinkResendLimit_near : execLinkResendLimit d w false false true s = .next ((s.stopLink d w).dieFault d 0x10) := by
  have hgoes : (!isDie d || s.dieAbsent d) = false := by simp [isDie, hd, hin]
  unfold execLinkResendLimit
  rw [hgoes, hway]
  exact if_neg (Nat.not_lt.mpr hlimit)

theorem execLinkResendLimit_link : execLinkResendLimit d w false true true s = .next (((s.stopLink d w).linkFault d w).linkLost d w) := by
  have hgoes : (!isDie d || s.dieAbsent d) = false := by simp [isDie, hd, hin]
  unfold execLinkResendLimit
  rw [hgoes, hway]
  exact if_neg (Nat.not_lt.mpr hlimit)

end ResendLimit

/-- Settles O33: the change of tables by what arming every die leaves, a flit in error by its counts, and a failed link by what reports and events leave. -/
theorem tablesChangeTogetherAndLinksResend : Obligations.TablesChangeTogetherAndLinksResend := by
  unfold Obligations.TablesChangeTogetherAndLinksResend
  intro s d w m tabs hd hw hway ver n
  refine ⟨fun hgoing => ?held, fun hgoing hlost => ?change, fun g hchg => ⟨fun hout hempty hfalling => ?flips, fun hout hfull => ?waits, fun hout => ?flipped⟩,
    fun hin => ?arm, fun hin same => ?onDie, fun hin hseam hon hn hlow hms hmax => ?seam, fun hin => ⟨fun near far => ?dieLimit, fun hearly near far => ?early,
      fun hlimit => ?near, fun hlimit hidle => ?link⟩⟩
  case held => exact (exec_tableChange ..).trans (if_pos (by rw [hgoing]; rfl))
  case change =>
    refine ⟨_, (exec_tableChange ..).trans ((execTableChange_armed hgoing hlost tabs).trans (congrArg _ (s.changeTables_eq ..))), rfl, rfl,
      fun hin => State.armed_die hd hin noDie tabs, ?_, ?_⟩
    · obtain ⟨r, hregs⟩ := s.armed_regsOnly noDie tabs
      rw [hregs]
      rfl
    · obtain ⟨r, hregs⟩ := s.armed_regsOnly noDie tabs
      rw [hregs]
      rfl
  case flips =>
    have hlanes : (s.routers.any (fun r => !r.2.lanes.isEmpty) || s.links.falling.any (fun e => decide (e.2 ≠ 0))) = false := by
      rw [hfalling, List.any_nil, Bool.or_false]
      exact List.any_eq_false.mpr fun r hr => by simp [hempty r hr]
    rw [exec_tableBuffersDrained, execTableBuffersDrained, hchg]
    dsimp only
    rw [hout, if_neg Bool.false_ne_true, hlanes]
    rfl
  case waits =>
    obtain ⟨r, hr, hlanes⟩ := hfull
    have hany : s.routers.any (fun r => !r.2.lanes.isEmpty) = true := List.any_eq_true.mpr ⟨r, hr, by simpa using hlanes⟩
    rw [exec_tableBuffersDrained, execTableBuffersDrained, hchg]
    dsimp only
    rw [hout, if_neg Bool.false_ne_true, hany]
    rfl
  case flipped =>
    rw [exec_tableBuffersDrained, execTableBuffersDrained, hchg]
    exact if_pos hout
  case arm => rw [exec_rtFlipArm, execRtFlipArm, hin, if_neg Bool.false_ne_true]
  case onDie =>
    obtain ⟨r, hnet⟩ := s.netCe_regsOnly d
    refine ⟨_, (exec_linkFlitError ..).trans (execLinkFlitError_onDie hd hw hin same), ?_, ?_, ?_, ?_, ?_⟩
    · rw [State.rd_updNode, State.netCe_mark]
    · rw [State.rd_updNode, State.netCe_count]
    · rw [State.node_updNode_same, s.netCe_node d, Tab.get_upd_same]
    · rw [hnet]
      rfl
    · rw [hnet]
      rfl
  case seam =>
    have hmark : (s.resent d w).rd (CD_NET_ERR.CE d) = 1 := by
      rw [State.resent, State.rd_wr_ne, State.rd_updNode, State.netCe_mark]
      dsimp only [CD_NET_ERR.CE, CD_LNK_ERR.RESENDS]
      omega
    refine ⟨_, (exec_linkFlitError ..).trans (execLinkFlitError_resent hd hin hseam hway hon hn hlow hms hmax), hmark, s.resent_resends d w, ?_,
      Tab.get_set_same 0 (s.resent d w).links.winCnt (endKey d w) 1, (s.resent_frame d w).2.2⟩
    refine Eq.trans (b := (s.resent d w).rd (CD_LNK_ERR.RESENDS d w)) rfl ?_
    rw [State.resent, State.rd_wr_same]
    exact Nat.mod_eq_of_lt (show _ < 2 ^ 16 by omega)
  case dieLimit => exact (exec_linkResendLimit ..).trans (execLinkResendLimit_onDie hd hin near far)
  case early => exact (exec_linkResendLimit ..).trans (execLinkResendLimit_early hd hin hway (by omega) near far)
  case near =>
    refine ⟨_, (exec_linkResendLimit ..).trans (execLinkResendLimit_near hd hin hway (by omega)), ?_⟩
    rw [State.dieFault, (State.sendFault_keepsStops ..).2 d]
    exact s.stopLink_stopped d w
  case link =>
    obtain ⟨⟨net, out, hfault⟩, hstops⟩ := (s.stopLink d w).linkFault_keepsStops d w
    have hidle' : ((s.stopLink d w).linkFault d w).anyLayer = false := by
      rw [hfault]
      exact hidle
    obtain ⟨hdown, hnet⟩ := State.linkLost_idle hidle' hw
    refine ⟨_, (exec_linkResendLimit ..).trans (execLinkResendLimit_link hd hin hway (by omega)), ?_, hdown⟩
    rw [State.node, hnet, ← State.node, hstops d]
    exact s.stopLink_stopped d w

end Sys2Proof.Machine

/-! PROOFS. The sync network: its frames and links, the counts of arrivals, the release of a phase, and the broadcasts with what they do at a node (R190 to
R193, R200, R216, R458, R584). Settles O31. -/

namespace Sys2Proof.Machine

section Arms

variable (n sender q a b : Nat) (adj : Int) (s : State)

theorem exec_syncArriveFrame : exec (.syncArriveFrame n a b) s = execSyncArriveFrame n a b s := rfl
theorem exec_syncReleaseFrame : exec (.syncReleaseFrame n a b) s = execSyncReleaseFrame n a b s := rfl
theorem exec_syncFrameCrcError : exec (.syncFrameCrcError n sender a) s = execSyncFrameCrcError n sender a s := rfl
theorem exec_syncGo : exec (.syncGo n sender q a) s = execSyncGo n sender q a s := rfl
theorem exec_clamp : exec (.clamp n sender q a) s = execClamp n sender q a s := rfl
theorem exec_trickFrame : exec (.trickFrame n sender q a b) s = execTrickFrame n sender q a b s := rfl
theorem exec_trickCopy : exec (.trickCopy n) s = execTrickCopy n s := rfl
theorem exec_syncFlip : exec (.syncFlip n sender q a) s = execSyncFlip n sender q a s := rfl
theorem exec_timeSlew : exec (.timeSlew n sender q a adj b) s = execTimeSlew n sender q a adj b s := rfl
theorem exec_timeStep : exec (.timeStep n sender q a adj) s = execTimeStep n sender q a adj s := rfl

end Arms

/-! ### Frames (R190) -/

theorem crcBit_lt {w poly : Nat} (run bit : Nat) : crcBit w poly run bit < 2 ^ w := by
  have hrun : run * 2 % 2 ^ w < 2 ^ w := Nat.mod_lt _ (Nat.two_pow_pos w)
  unfold crcBit
  dsimp only
  split
  · exact hrun
  · exact Nat.xor_lt_two_pow hrun (Nat.mod_lt _ (Nat.two_pow_pos w))

theorem crc4_lt (w : Nat) : crc4 w < 16 :=
  forL_preserves (P := fun r => r < 16) (f := fun i r => crcBit 4 3 r (bitsOf w (31 - i) 1)) (fun _ _ _ => crcBit_lt ..) (List.range 32) (by decide)

/-- A frame that is sent is received without an error. -/
theorem frameOk_syncFrame (w : Nat) : frameOk (syncFrame w) = true := by
  have hcrc := crc4_lt (w % 2 ^ 32)
  have hlow : syncFrame w % 2 ^ 32 = w % 2 ^ 32 := by
    unfold syncFrame
    omega
  unfold frameOk
  rw [hlow, decide_eq_true_eq, syncFrame, bitsOf]
  omega

theorem syncFrame_mod (w : Nat) : syncFrame w % 2 ^ 32 = w % 2 ^ 32 := by
  unfold syncFrame
  omega

/-- A field of a frame below its CRC is the field of what the frame carries. -/
theorem bitsOf_syncFrame {lo w : Nat} (h : lo + w ≤ 32) (x : Nat) : bitsOf (syncFrame x) lo w = bitsOf (x % 2 ^ 32) lo w := by
  have hsplit (y : Nat) : bitsOf y lo w = bitsOf (y % 2 ^ 32) lo w := by
    obtain ⟨k, hk⟩ := Nat.exists_eq_add_of_le h
    unfold bitsOf
    rw [hk, Nat.pow_add, Nat.pow_add, Nat.mul_assoc, Nat.mod_mul_right_div_self, Nat.mod_mul_right_mod]
  rw [hsplit (syncFrame x), syncFrame_mod]

/-- What the first frame of a message carries (R190). -/
def SyncMsg.head (m : SyncMsg) : Nat := m.type % 16 + m.data.length % 4 * 2 ^ 4 + m.seq % 16 * 2 ^ 8 + m.arg % 2 ^ 20 * 2 ^ 12

theorem SyncMsg.wire_eq (m : SyncMsg) : m.wire = syncFrame m.head :: m.data.map syncFrame := rfl

theorem SyncMsg.head_fields {m : SyncMsg} (htype : m.type < 16) (hseq : m.seq < 16) (harg : m.arg < 2 ^ 20) (hlen : m.data.length < 4) :
    m.head < 2 ^ 32 ∧ bitsOf m.head 0 4 = m.type ∧ bitsOf m.head 4 2 = m.data.length ∧ bitsOf m.head 8 4 = m.seq ∧ bitsOf m.head 12 20 = m.arg := by
  unfold SyncMsg.head bitsOf
  omega

/-- Frames without a CRC error, as many as the first one says, are a message. -/
theorem syncOf_cons {f : Nat} {l : List Nat} (hok : (f :: l).all frameOk = true) (hlen : l.length = bitsOf f 4 2) :
    syncOf (f :: l) = some { type := bitsOf f 0 4, seq := bitsOf f 8 4, arg := bitsOf f 12 20, data := l.map (fun x => x % 2 ^ 32) } :=
  if_pos (by rw [hok, decide_eq_true hlen]; rfl)

/-- The frames of a message read back as it (R190). -/
theorem syncOf_wire {m : SyncMsg} (htype : m.type < 16) (hseq : m.seq < 16) (harg : m.arg < 2 ^ 20) (hlen : m.data.length < 4)
    (hdata : ∀ x ∈ m.data, x < 2 ^ 32) : syncOf m.wire = some m := by
  obtain ⟨hhead, htypeBack, hlenBack, hseqBack, hargBack⟩ := SyncMsg.head_fields htype hseq harg hlen
  have hfield {lo w : Nat} (h : lo + w ≤ 32) : bitsOf (syncFrame m.head) lo w = bitsOf m.head lo w := by rw [bitsOf_syncFrame h, Nat.mod_eq_of_lt hhead]
  have hok : (syncFrame m.head :: m.data.map syncFrame).all frameOk = true := by
    rw [List.all_cons, List.all_map, frameOk_syncFrame, Bool.true_and, List.all_eq_true]
    intro x _
    rw [Function.comp_apply, frameOk_syncFrame]
  have hlength : (m.data.map syncFrame).length = bitsOf (syncFrame m.head) 4 2 := by rw [List.length_map, hfield (by decide), hlenBack]
  have hword : ∀ x ∈ m.data, ((fun x => x % 2 ^ 32) ∘ syncFrame) x = x := fun x hx => by
    rw [Function.comp_apply, syncFrame_mod, Nat.mod_eq_of_lt (hdata x hx)]
  have hback : (m.data.map syncFrame).map (fun x => x % 2 ^ 32) = m.data := by
    rw [List.map_map, List.map_congr_left hword, List.map_id']
  have hread := syncOf_cons hok hlength
  rw [hback, hfield (by decide), hfield (by decide), hfield (by decide), htypeBack, hseqBack, hargBack] at hread
  rw [SyncMsg.wire_eq, hread]

/-! ### Links (R191) -/

/-- Where a search over growing ranks ends, no lower rank has found anything. -/
theorem findSome?_range_spec {α : Type} {f : Nat → Option α} {n : Nat} {x : α} (h : (List.range n).findSome? f = some x) :
    ∃ r, f r = some x ∧ ∀ k < r, f k = none := by
  induction n with
  | zero => cases h
  | succ n ih =>
    rw [List.range_succ, List.findSome?_append, Option.or_eq_some_iff] at h
    rcases h with h | ⟨hnone, hlast⟩
    · exact ih h
    · refine ⟨n, by simpa using hlast, fun k hk => ?_⟩
      exact List.findSome?_eq_none_iff.mp hnone k (List.mem_range.mpr hk)

/-- The message that goes next waits, and none that waits is of a higher priority (R191). -/
theorem syncPick_spec {l : List SyncMsg} {x : SyncMsg} (h : syncPick l = some x) : x ∈ l ∧ ∀ y ∈ l, syncRank x.type ≤ syncRank y.type := by
  obtain ⟨r, hfind, hnone⟩ := findSome?_range_spec h
  have hrank : syncRank x.type = r := by simpa using List.find?_some hfind
  refine ⟨List.mem_of_find?_eq_some hfind, fun y hy => ?_⟩
  by_contra hlt
  have habsent := List.find?_eq_none.mp (hnone (syncRank y.type) (by omega)) y hy
  simp at habsent

/-- A message on an idle link goes at once; on a busy one it waits (R191). -/
theorem State.syncSend_idle {s : State} {n m : Nat} (hbusy : (s.syncLink n m).busy ≤ s.ptime) (hwait : (s.syncLink n m).wait = []) (type q arg : Nat) (data : List Nat) :
    s.syncSend n m type q arg data = s.syncGo n m ⟨type, q, arg, data⟩ := if_pos ⟨hbusy, hwait⟩

theorem State.syncSend_busy {s : State} {n m : Nat} (hbusy : s.ptime < (s.syncLink n m).busy) (type q arg : Nat) (data : List Nat) :
    s.syncSend n m type q arg data = s.setSync n m { s.syncLink n m with wait := (s.syncLink n m).wait ++ [⟨type, q, arg, data⟩] } :=
  if_neg fun h => Nat.not_le.mpr hbusy h.1

/-- Two states with the same sync links at the same time, which have sent the same. -/
def SameSync (s t : State) : Prop := t.net.syncs = s.net.syncs ∧ t.ptime = s.ptime ∧ t.out = s.out

/-- A message sent from either has the same effect there. -/
theorem SameSync.syncSend {s t : State} (h : SameSync s t) (n m type q arg : Nat) (data : List Nat) :
    SameSync (s.syncSend n m type q arg data) (t.syncSend n m type q arg data) := by
  obtain ⟨hsyncs, htime, hout⟩ := h
  have hlink : t.syncLink n m = s.syncLink n m := by rw [State.syncLink, State.syncLink, hsyncs]
  unfold State.syncSend State.syncGo
  dsimp only
  rw [hlink, htime]
  split
  · exact ⟨by simp only [State.setSync, State.emit, hsyncs], htime, by simp only [State.setSync, State.emit, hout]⟩
  · exact ⟨by simp only [State.setSync, hsyncs], htime, hout⟩

theorem SameSync.pass {α : Type} {f : α → State → State} (hf : ∀ a s t, SameSync s t → SameSync (f a s) (f a t)) (l : List α) {s t : State} (h : SameSync s t) :
    SameSync (forL l f s) (forL l f t) := by
  induction l generalizing s t with
  | nil => exact h
  | cons a l ih => exact ih (hf a s t h)

/-- A pass that sends to what `g` gives for each element is one over what it gives. -/
theorem forL_filterMap {α β σ : Type} (g : α → Option β) (f : β → σ → σ) (l : List α) (s : σ) :
    forL (l.filterMap g) f s = forL l (fun a s => match g a with
      | some b => f b s
      | none => s) s := by
  induction l generalizing s with
  | nil => rfl
  | cons a l ih =>
    cases hg : g a with
    | none =>
      rw [List.filterMap_cons_none hg, ih]
      simp only [forL, List.foldl_cons, hg]
    | some b =>
      rw [List.filterMap_cons_some hg]
      exact (ih (f b s)).trans (by simp only [forL, List.foldl_cons, hg])

/-- `t` is `s` but for the sync links, the nodes and what the panel has sent. -/
def FloodOnly (s t : State) : Prop := ∃ out syncs nodes, t = { s with out := out, net := { s.net with syncs := syncs, nodes := nodes } }

theorem FloodOnly.trans {s t u : State} (h : FloodOnly s t) (k : FloodOnly t u) : FloodOnly s u := by
  obtain ⟨_, _, _, rfl⟩ := h
  obtain ⟨out, syncs, nodes, rfl⟩ := k
  exact ⟨out, syncs, nodes, rfl⟩

theorem State.updNode_floodOnly (s : State) (n : Nat) (f : Node → Node) : FloodOnly s (s.updNode n f) := ⟨s.out, s.net.syncs, _, rfl⟩

theorem State.syncSend_floodOnly (s : State) (n m type q arg : Nat) (data : List Nat) : FloodOnly s (s.syncSend n m type q arg data) := by
  unfold State.syncSend
  dsimp only
  split
  · exact ⟨_, _, s.net.nodes, rfl⟩
  · exact ⟨s.out, _, s.net.nodes, rfl⟩

theorem State.syncSend_node (s : State) (n m type q arg : Nat) (data : List Nat) (k : Nat) : (s.syncSend n m type q arg data).node k = s.node k := by
  unfold State.syncSend
  dsimp only
  split <;> rfl

/-! ### Arrivals (R193, R216) -/

/-- The count of a channel and phase cleared. -/
def State.clearCount (s : State) (n b ph : Nat) : State := s.updNode n (fun x => { x with count := Tab.set 0 x.count (cntKey b ph) 0 })

theorem State.count_clearCount (s : State) (n b ph : Nat) : Tab.get 0 ((s.clearCount n b ph).node n).count (cntKey b ph) = 0 := by
  rw [State.clearCount, State.node_updNode_same]
  dsimp only
  rw [Tab.get_set_same]

section Arrive

variable {s : State} {n : Nat} (hn : n < 144) (b ph : Nat)
include hn

/-- An arrival that is not the last one expected is counted. -/
theorem State.syncCount_early (hearly : Tab.get 0 (s.node n).count (cntKey b ph) + 1 ≠ s.rd (CD_SYNC_EXP.EXP n b)) : s.syncCount n b ph =
    s.updNode n (fun x => { x with count := Tab.set 0 x.count (cntKey b ph) (Tab.get 0 (s.node n).count (cntKey b ph) + 1) }) :=
  (if_pos (decide_eq_true hn)).trans (if_neg fun h => hearly h.2)

/-- The last one clears the count and goes on to the parent; at the root of a tree there is none. -/
theorem State.syncCount_last (hlast : Tab.get 0 (s.node n).count (cntKey b ph) + 1 = s.rd (CD_SYNC_EXP.EXP n b)) : s.syncCount n b ph =
    if s.rd (CD_SYNC_TREE.PARENT n) = 0 then s.clearCount n b ph
    else match wayNode n (s.rd (CD_SYNC_TREE.PARENT n) - 1) with
      | some p => (s.clearCount n b ph).syncSend n p 1 0 (b + ph * 8) []
      | none => s.clearCount n b ph :=
  (if_pos (decide_eq_true hn)).trans (if_pos ⟨by omega, hlast⟩)

/-- Either way the count is clear after it, and only the node and its link have changed. -/
theorem State.syncCount_last_frame (hlast : Tab.get 0 (s.node n).count (cntKey b ph) + 1 = s.rd (CD_SYNC_EXP.EXP n b)) :
    Tab.get 0 ((s.syncCount n b ph).node n).count (cntKey b ph) = 0 ∧ FloodOnly s (s.syncCount n b ph) := by
  have hclear := s.count_clearCount n b ph
  have hframe : FloodOnly s (s.clearCount n b ph) := s.updNode_floodOnly ..
  rw [State.syncCount_last hn b ph hlast]
  split
  · exact ⟨hclear, hframe⟩
  · split
    · exact ⟨by rwa [State.syncSend_node], hframe.trans (State.syncSend_floodOnly ..)⟩
    · exact ⟨hclear, hframe⟩

theorem State.syncCount_last_root (hlast : Tab.get 0 (s.node n).count (cntKey b ph) + 1 = s.rd (CD_SYNC_EXP.EXP n b))
    (hroot : s.rd (CD_SYNC_TREE.PARENT n) = 0) : (s.syncCount n b ph).out = s.out := by
  rw [State.syncCount_last hn b ph hlast, if_pos hroot]
  rfl

theorem State.syncCount_last_parent (hlast : Tab.get 0 (s.node n).count (cntKey b ph) + 1 = s.rd (CD_SYNC_EXP.EXP n b)) {p : Nat}
    (hup : s.rd (CD_SYNC_TREE.PARENT n) ≠ 0) (hway : wayNode n (s.rd (CD_SYNC_TREE.PARENT n) - 1) = some p) :
    (s.syncCount n b ph).out = (s.syncSend n p 1 0 (b + ph * 8) []).out := by
  have hsame : SameSync s (s.clearCount n b ph) := ⟨rfl, rfl, rfl⟩
  rw [State.syncCount_last hn b ph hlast, if_neg hup, hway]
  exact (hsame.syncSend n p 1 0 (b + ph * 8) []).2.2

end Arrive

/-! ### The release of a phase (R193, R213) -/

/-- A bit of a byte after it is written. -/
theorem bitsOf_setBits {x b : Nat} (hx : x < 2 ^ 8) (hb : b < 8) (v : Nat) : bitsOf (setBits x b 1 v % 2 ^ 8) b 1 = v % 2 := by
  unfold setBits bitsOf
  interval_cases b <;> omega

/-- The children of a die's node in the tree of a channel, told of the release (R193). -/
def State.tellChildren (s : State) (n b ph : Nat) : State :=
  forL ((List.range 9).filter (fun i => bitOf (s.rd (CD_SYNC_TREE.CHILD n)) i)) (fun i s => match wayNode n i with
    | some m => s.syncSend n m 2 0 (b + ph * 8) []
    | none => s) s

/-- The cores of a die that take part in a channel and stand at the phase that is released; channel 7 has none. -/
def State.coresReleased (s : State) (n b ph : Nat) : List Nat :=
  if b = 7 then [] else ((List.range 256).map (fun k => n * 256 + k)).filter (fun c =>
    !((s.core c).inBarrier b).isEmpty && decide (bitsOf (s.core c).phase b 1 = ph))

theorem State.coresReleased_die {s : State} {n b ph c : Nat} (h : c ∈ s.coresReleased n b ph) : coreDie c = n ∧ b ≠ 7 := by
  unfold State.coresReleased at h
  split at h
  · exact absurd h List.not_mem_nil
  · next hb =>
    obtain ⟨k, hk, rfl⟩ := List.mem_map.mp (List.mem_filter.mp h).1
    have hlt := List.mem_range.mp hk
    exact ⟨by unfold coreDie; omega, hb⟩

/-- A die whose cores have no tasks releases none. -/
theorem State.coresReleased_idle {s : State} {n : Nat} (hidle : ∀ k, k < 256 → (s.core (n * 256 + k)).tasks = []) (b ph : Nat) : s.coresReleased n b ph = [] := by
  unfold State.coresReleased
  split
  · rfl
  · refine List.filter_eq_nil_iff.mpr fun c hc => ?_
    obtain ⟨k, hk, rfl⟩ := List.mem_map.mp hc
    rw [Core.inBarrier, hidle k (List.mem_range.mp hk)]
    simp

/-- The die's own part of a release: the phase bit, then the children. -/
def State.releaseDie (s : State) (n b ph : Nat) : State := (s.wrBit (CD_SYNC_PHASE.PHASE n) b (decide (ph = 0))).tellChildren n b ph

theorem execSyncReleaseFrame_stale {s : State} {n ch ph : Nat} (hch : ch < 8) (hph : ph < 2) (hstale : bitsOf (s.rd (CD_SYNC_PHASE.PHASE n)) ch 1 ≠ ph) :
    execSyncReleaseFrame n ch ph s = .next s := by
  unfold execSyncReleaseFrame
  rw [Nat.mod_eq_of_lt hch, Nat.mod_eq_of_lt hph]
  exact if_pos (by simp [hstale])

/-- The state after a release: the die's own part, then its cores. -/
def State.released (s : State) (n b ph : Nat) : State :=
  forL ((s.releaseDie n b ph).coresReleased n b ph) (fun c t => (t.releaseCore c b).resched c) (s.releaseDie n b ph)

theorem execSyncReleaseFrame_taken {s : State} {n ch ph : Nat} (hn : n < 144) (hch : ch < 8) (hph : ph < 2)
    (hphase : bitsOf (s.rd (CD_SYNC_PHASE.PHASE n)) ch 1 = ph) : execSyncReleaseFrame n ch ph s = .next (s.released n ch ph) := by
  unfold execSyncReleaseFrame
  rw [Nat.mod_eq_of_lt hch, Nat.mod_eq_of_lt hph]
  exact if_neg (by simp [hphase, isDie, hn])

theorem State.tellChildren_floodOnly (s : State) (n b ph : Nat) : FloodOnly s (s.tellChildren n b ph) := by
  refine forL_preserves (P := FloodOnly s) (fun i t ht => ?_) _ ⟨s.out, s.net.syncs, s.net.nodes, rfl⟩
  split
  · exact ht.trans (State.syncSend_floodOnly ..)
  · exact ht

/-- The children get one RELEASE each (R193). -/
theorem State.tellChildren_out (s : State) (n b ph : Nat) : (s.tellChildren n b ph).out =
    (forL (((List.range 9).filter (fun w => bitOf (s.rd (CD_SYNC_TREE.CHILD n)) w)).filterMap (wayNode n)) (fun m t => t.syncSend n m 2 0 (b + ph * 8) []) s).out := by
  rw [forL_filterMap, State.tellChildren]
  congr 2
  funext i t
  cases wayNode n i <;> rfl

section Release

variable (s : State) (n b ph : Nat)

theorem State.releaseDie_frame : (s.releaseDie n b ph).mem = s.mem ∧ (s.releaseDie n b ph).cores = s.cores ∧
    ∀ f, (s.releaseDie n b ph).rd f = (s.wrBit (CD_SYNC_PHASE.PHASE n) b (decide (ph = 0))).rd f := by
  unfold State.releaseDie
  obtain ⟨out, syncs, nodes, htold⟩ := (s.wrBit (CD_SYNC_PHASE.PHASE n) b (decide (ph = 0))).tellChildren_floodOnly n b ph
  rw [htold]
  exact ⟨rfl, rfl, fun f => rfl⟩

theorem State.releaseDie_out : (s.releaseDie n b ph).out =
    (forL (((List.range 9).filter (fun w => bitOf (s.rd (CD_SYNC_TREE.CHILD n)) w)).filterMap (wayNode n)) (fun m t => t.syncSend n m 2 0 (b + ph * 8) []) s).out := by
  have hchild : (s.wrBit (CD_SYNC_PHASE.PHASE n) b (decide (ph = 0))).rd (CD_SYNC_TREE.CHILD n) = s.rd (CD_SYNC_TREE.CHILD n) :=
    s.rd_wr_ne _ (by dsimp only [CD_SYNC_TREE.CHILD, CD_SYNC_PHASE.PHASE]; omega)
  have hsame : SameSync s (s.wrBit (CD_SYNC_PHASE.PHASE n) b (decide (ph = 0))) := ⟨rfl, rfl, rfl⟩
  rw [State.releaseDie, State.tellChildren_out, hchild]
  exact (SameSync.pass (fun m t u h => h.syncSend n m 2 0 (b + ph * 8) []) _ hsame).2.2

/-- The phase bit after a release is the other one. -/
theorem State.releaseDie_phase (hb : b < 8) (hph : ph < 2) : bitsOf ((s.releaseDie n b ph).rd (CD_SYNC_PHASE.PHASE n)) b 1 = 1 - ph := by
  have hbyte : s.rd (CD_SYNC_PHASE.PHASE n) < 2 ^ 8 := Nat.mod_lt _ (Nat.two_pow_pos 8)
  rw [(s.releaseDie_frame n b ph).2.2, State.wrBit, State.rd_wr_same]
  refine (bitsOf_setBits hbyte hb _).trans ?_
  interval_cases ph <;> rfl

end Release

/-- A core's release changes no register but the die's counter of task switches (R213, R581). -/
theorem State.releaseCore_phase {n b c : Nat} (hn : n < 144) (hc : coreDie c = n) (s : State) :
    ((s.releaseCore c b).resched c).rd (CD_SYNC_PHASE.PHASE n) = s.rd (CD_SYNC_PHASE.PHASE n) := by
  have hidx : coreN c < 256 := Nat.mod_lt _ (by decide)
  have harrive (t : State) : (t.tryArrive c b).regs = t.regs := by
    unfold State.tryArrive
    dsimp only
    split
    · rfl
    · have hdie : isDie (coreDie c) = true := decide_eq_true (hc.symm ▸ hn)
      exact (congrArg State.regs ((t.updCore c _).syncCount_netOnly (.inl hdie) _) :)
  rw [State.resched_rd (by dsimp only [CD_SYNC_PHASE.PHASE, CD_PERF.COUNT]; omega) (by dsimp only [CD_SYNC_PHASE.PHASE, CD_PERF_WRAP.WRAP]; omega),
    State.releaseCore]
  exact State.rd_congr (harrive _) _

/-- So the phase bit is the other one after the release. -/
theorem State.released_phase {n b ph : Nat} (hn : n < 144) (hb : b < 8) (hph : ph < 2) (s : State) :
    bitsOf ((s.released n b ph).rd (CD_SYNC_PHASE.PHASE n)) b 1 = 1 - ph := by
  refine forL_preserves_mem (P := fun t : State => bitsOf (t.rd (CD_SYNC_PHASE.PHASE n)) b 1 = 1 - ph) (fun c hc t ht => ?_) (s.releaseDie_phase n b ph hb hph)
  rwa [State.releaseCore_phase hn (State.coresReleased_die hc).1]

/-- A die whose cores have no tasks has only its own part in it. -/
theorem State.released_idle {s : State} {n : Nat} (hidle : ∀ k, k < 256 → (s.core (n * 256 + k)).tasks = []) (b ph : Nat) :
    s.released n b ph = s.releaseDie n b ph := by
  have hcores (c : Nat) : (s.releaseDie n b ph).core c = s.core c := by rw [State.core, (s.releaseDie_frame n b ph).2.1, State.core]
  have hnone : (s.releaseDie n b ph).coresReleased n b ph = [] :=
    State.coresReleased_idle (fun k hk => by rw [hcores]; exact hidle k hk) b ph
  unfold State.released
  generalize s.releaseDie n b ph = t at hnone ⊢
  rw [hnone, forL, List.foldl_nil]

/-! ### Broadcasts (R192) -/

theorem State.perimIn_congr {s t : State} (hregs : t.regs = s.regs) (m : Nat) : t.perimIn m = s.perimIn m := by
  unfold State.perimIn
  generalize stopHub (m - 144) = hub
  generalize stopEng (m - 144) = eng
  cases hub with
  | some k => exact State.bit_congr hregs _
  | none =>
    cases eng with
    | some k => exact State.bit_congr hregs _
    | none => rfl

/-- Whether a way carries traffic depends on the registers, the links and the ways that have stopped. -/
theorem State.wayOk_congr {s t : State} {d : Nat} (hregs : t.regs = s.regs) (hlinks : t.links = s.links) (hstopped : (t.node d).stopped = (s.node d).stopped)
    (w : Nat) : t.wayOk d w = s.wayOk d w := by
  have hrd (f : Field) : t.rd f = s.rd f := State.rd_congr hregs f
  have habsent (e : Nat) : t.dieAbsent e = s.dieAbsent e := State.dieAbsent_congr hregs e
  have hperim (m : Nat) : t.perimIn m = s.perimIn m := State.perimIn_congr hregs m
  have hseam : t.seam d w = s.seam d w := by simp only [State.seam, hrd]
  simp only [State.wayOk, hstopped, habsent, hperim, hseam, hrd, hlinks]

/-- A node's neighbours do not depend on what it has seen. -/
theorem State.nbrs_updNode_seq (s : State) {n : Nat} (hn : n < 144) (f : Node → Tab Nat) :
    (s.updNode n (fun x => { x with seq := f x })).nbrs n = s.nbrs n := by
  have hdie : isDie n = true := decide_eq_true hn
  have hway (w : Nat) : (s.updNode n (fun x => { x with seq := f x })).wayOk n w = s.wayOk n w :=
    State.wayOk_congr (s := s) (t := s.updNode n (fun x => { x with seq := f x })) rfl rfl (congrArg Node.stopped (s.node_updNode_same n (fun x => { x with seq := f x })) :) w
  rw [State.nbrs, State.nbrs, if_pos hdie, if_pos hdie]
  simp only [hway]

/-- The state at a node that has passed a fresh frame on: to every neighbour in service but its sender. -/
def State.passed (s : State) (n sender type q arg : Nat) (data : List Nat) : State :=
  forL ((s.nbrs n).filter (fun m => decide (m ≠ sender))) (fun m t => t.syncSend n m type q arg data)
    (s.updNode n (fun x => { x with seq := Tab.set 0 x.seq type (q + 1) }))

theorem State.passed_floodOnly (s : State) (n sender type q arg : Nat) (data : List Nat) : FloodOnly s (s.passed n sender type q arg data) :=
  forL_preserves (P := FloodOnly s) (fun m t ht => ht.trans (t.syncSend_floodOnly n m type q arg data)) _ (s.updNode_floodOnly ..)

theorem State.flood_repeat {s : State} {n type q : Nat} (hseen : Tab.get 0 (s.node n).seq type = q + 1) (sender arg : Nat) (data : List Nat) (f : State → State) :
    s.flood n sender type q arg data f = s := if_pos hseen

theorem State.flood_fresh {s : State} {n type q : Nat} (hn : n < 144) (hfresh : Tab.get 0 (s.node n).seq type ≠ q + 1) (sender arg : Nat) (data : List Nat)
    (f : State → State) : s.flood n sender type q arg data f = f (s.passed n sender type q arg data) := by
  unfold State.flood State.passed
  rw [if_neg hfresh]
  dsimp only
  rw [State.nbrs_updNode_seq s hn]

section Passed

variable (s : State) (n sender type q arg : Nat) (data : List Nat)

theorem State.passed_regs : (s.passed n sender type q arg data).regs = s.regs := by
  obtain ⟨_, _, _, hpassed⟩ := s.passed_floodOnly n sender type q arg data
  rw [hpassed]

theorem State.passed_mem : (s.passed n sender type q arg data).mem = s.mem := by
  obtain ⟨_, _, _, hpassed⟩ := s.passed_floodOnly n sender type q arg data
  rw [hpassed]

theorem State.passed_cores : (s.passed n sender type q arg data).cores = s.cores := by
  obtain ⟨_, _, _, hpassed⟩ := s.passed_floodOnly n sender type q arg data
  rw [hpassed]

theorem State.passed_tel : (s.passed n sender type q arg data).tel = s.tel := by
  obtain ⟨_, _, _, hpassed⟩ := s.passed_floodOnly n sender type q arg data
  rw [hpassed]

theorem State.passed_clk : (s.passed n sender type q arg data).clk = s.clk := by
  obtain ⟨_, _, _, hpassed⟩ := s.passed_floodOnly n sender type q arg data
  rw [hpassed]

theorem State.passed_chg : (s.passed n sender type q arg data).net.chg = s.net.chg := by
  obtain ⟨_, _, _, hpassed⟩ := s.passed_floodOnly n sender type q arg data
  rw [hpassed]

end Passed

/-! ### GO (R32) -/

/-- A slot that holds a task which GO of the layer starts, in a core that is not fenced. -/
def Core.Loaded (k : Core) (i layer : Nat) : Prop :=
  k.fenced = false ∧ (k.task i).loaded = true ∧ (k.task i).st = .empty ∧ (k.task i).layer = BitVec.ofNat 32 layer

/-- A task that has been started and has not waited. -/
def Core.Started (k : Core) (i : Nat) : Prop := (k.task i).st = .ready ∨ (k.task i).st = .running

/-- Selection leaves a started task started (R35, R36). -/
theorem Core.started_select {k : Core} {i : Nat} (h : k.Started i) : k.wake.select.1.Started i := by
  have hwake : k.wake.Started i := by
    rcases k.wake_spec.1 i with heq | ⟨hwaits, -⟩
    · rwa [Core.Started, heq]
    · rcases h with h | h <;> rw [h] at hwaits <;> cases hwaits
  generalize k.wake = k at hwake ⊢
  unfold Core.select
  split
  · exact hwake
  · split
    · next j _ =>
      by_cases hij : i = j
      · subst hij
        exact .inr (congrArg Task.st (Core.task_setTask_same k i { k.task i with st := .running }) :)
      · have hkeep := k.task_setTask_ne { k.task j with st := .running } hij
        exact Eq.mpr (congrArg (fun t : Task => t.st = .ready ∨ t.st = .running) hkeep :) hwake
    · exact hwake

/-- Scheduling one core leaves the others. -/
theorem State.resched_core_ne {c d : Nat} (h : d ≠ c) (s : State) : (s.resched c).core d = s.core d := by
  rcases s.resched_cases c with hs | hs
  · rw [hs, State.core_setCore_ne _ _ h]
  · rw [hs, State.perf_core, State.core_setCore_ne _ _ h]

/-- The slots of a table that goes through `f`, entry by entry. -/
theorem Tab.get_map {α : Type} {z : α} {f : α → α} (hz : f z = z) (k : Nat) (t : Tab α) :
    Tab.get z (t.map (fun e => (e.1, f e.2))) k = f (Tab.get z t k) := by
  induction t with
  | nil => exact hz.symm
  | cons e t ih =>
    by_cases hk : e.1 = k
    · exact (if_pos hk).trans (congrArg f (if_pos hk).symm)
    · exact (if_neg hk).trans (ih.trans (congrArg f (if_neg hk).symm))

/-- What a table holds under a key, where it is not the default, is one of its entries. -/
theorem Tab.exists_of_get_ne {α : Type} {z : α} {k : Nat} {t : Tab α} (h : Tab.get z t k ≠ z) : ∃ e ∈ t, e.2 = Tab.get z t k := by
  induction t with
  | nil => exact absurd rfl h
  | cons e t ih =>
    by_cases hk : e.1 = k
    · exact ⟨e, List.mem_cons_self, (if_pos hk).symm⟩
    · have hrest : Tab.get z (e :: t) k = Tab.get z t k := if_neg hk
      rw [hrest] at h ⊢
      obtain ⟨x, hx, hval⟩ := ih h
      exact ⟨x, List.mem_cons_of_mem _ hx, hval⟩

/-- Does GO of a layer start what a slot holds? -/
def Task.goes (t : Task) (layer : Nat) : Bool := t.loaded && decide (t.st = .empty) && decide (t.layer = BitVec.ofNat 32 layer)

/-- A core after GO: the tasks of the layer started. -/
def Core.go (k : Core) (layer : Nat) : Core :=
  { k with tasks := k.tasks.map (fun e => (e.1, if e.2.goes layer then e.2.start else e.2)), z := [], zen := false }

theorem State.startCore_eq (s : State) (c layer : Nat) : s.startCore c layer =
    if (s.core c).tasks.any (fun e => e.2.goes layer) && !(s.core c).fenced then (s.setCore c ((s.core c).go layer)).resched c else s := rfl

theorem Core.task_go (k : Core) (i layer : Nat) : (k.go layer).task i = if (k.task i).goes layer then (k.task i).start else k.task i :=
  Tab.get_map (z := Task.reset) (f := fun t : Task => if t.goes layer then t.start else t) rfl i k.tasks

theorem State.startCore_frame (s : State) (c layer : Nat) : (s.startCore c layer).mem = s.mem ∧ (s.startCore c layer).out = s.out := by
  rw [State.startCore_eq]
  split
  · exact ⟨State.resched_mem .., State.resched_out ..⟩
  · exact ⟨rfl, rfl⟩

theorem State.startCore_core_ne {c d : Nat} (h : d ≠ c) (s : State) (layer : Nat) : (s.startCore c layer).core d = s.core d := by
  rw [State.startCore_eq]
  split
  · rw [State.resched_core_ne h, State.core_setCore_ne _ _ h]
  · rfl

/-- A started task stays started at another GO. -/
theorem State.startCore_keeps {s : State} {c i : Nat} (h : (s.core c).Started i) (layer : Nat) : ((s.startCore c layer).core c).Started i := by
  rw [State.startCore_eq]
  split
  · rw [State.resched_core, State.core_setCore_same]
    refine Core.started_select ?_
    rw [Core.Started, Core.task_go]
    split
    · exact .inl rfl
    · exact h
  · exact h

/-- A loaded task of the layer is started by it (R32). -/
theorem State.startCore_starts {s : State} {c i layer : Nat} (h : (s.core c).Loaded i layer) : ((s.startCore c layer).core c).Started i := by
  obtain ⟨hfenced, hloaded, hempty, hlayer⟩ := h
  have hgoes : ((s.core c).task i).goes layer = true := by simp [Task.goes, hloaded, hempty, hlayer]
  have hheld : (s.core c).task i ≠ Task.reset := fun hreset => by
    rw [hreset] at hloaded
    cases hloaded
  have hany : ((s.core c).tasks.any (fun e => e.2.goes layer) && !(s.core c).fenced) = true := by
    obtain ⟨e, he, hval⟩ := Tab.exists_of_get_ne hheld
    rw [hfenced, Bool.not_false, Bool.and_true]
    exact List.any_eq_true.mpr ⟨e, he, by rw [hval]; exact hgoes⟩
  rw [State.startCore_eq, if_pos hany, State.resched_core, State.core_setCore_same]
  refine Core.started_select (.inl ?_)
  rw [Core.task_go, if_pos hgoes]
  rfl

/-- GO at a die: each of its cores starts. -/
def State.goDie (s : State) (n layer : Nat) : State := forN 256 (fun k t => t.startCore (n * 256 + k) layer) s

theorem State.goDie_frame (s : State) (n layer : Nat) : (s.goDie n layer).mem = s.mem ∧ (s.goDie n layer).out = s.out :=
  ⟨forL_keeps State.mem _ (fun k t => (t.startCore_frame (n * 256 + k) layer).1) (List.range 256) s,
    forL_keeps State.out _ (fun k t => (t.startCore_frame (n * 256 + k) layer).2) (List.range 256) s⟩

/-- Every loaded task of the layer is started. -/
theorem State.goDie_starts {s : State} {n k i layer : Nat} (hk : k < 256) (h : (s.core (n * 256 + k)).Loaded i layer) :
    ((s.goDie n layer).core (n * 256 + k)).Started i := by
  have hkeep (j : Nat) (t : State) (ht : (t.core (n * 256 + k)).Started i) : ((t.startCore (n * 256 + j) layer).core (n * 256 + k)).Started i := by
    by_cases hj : n * 256 + k = n * 256 + j
    · rw [← hj]
      exact State.startCore_keeps ht layer
    · rwa [State.startCore_core_ne hj]
  have hstart (j : Nat) (t : State) (ht : (t.core (n * 256 + k)).Loaded i layer ∨ (t.core (n * 256 + k)).Started i) :
      ((t.startCore (n * 256 + j) layer).core (n * 256 + k)).Loaded i layer ∨ ((t.startCore (n * 256 + j) layer).core (n * 256 + k)).Started i := by
    rcases ht with ht | ht
    · by_cases hj : n * 256 + k = n * 256 + j
      · rw [← hj]
        exact .inr (State.startCore_starts ht)
      · rw [State.startCore_core_ne hj]
        exact .inl ht
    · exact .inr (hkeep j t ht)
  exact forL_establishes (P := fun t : State => (t.core (n * 256 + k)).Loaded i layer ∨ (t.core (n * 256 + k)).Started i)
    (Q := fun t : State => (t.core (n * 256 + k)).Started i) hstart hkeep
    (fun t ht => ht.elim State.startCore_starts fun hstarted => State.startCore_keeps hstarted layer) (List.mem_range.mpr hk) (.inl h)

theorem execSyncGo_fresh {s : State} {n q : Nat} (hn : n < 144) (hfresh : Tab.get 0 (s.node n).seq 3 ≠ q + 1) {layer : Nat} (hlayer : layer < 2 ^ 32) (sender : Nat) :
    execSyncGo n sender q layer s = .next ((s.passed n sender 3 q 0 [layer]).goDie n layer) := by
  unfold execSyncGo
  rw [State.flood_fresh hn hfresh, Nat.mod_eq_of_lt hlayer]
  exact congrArg Host.Outcome.next (if_pos (decide_eq_true hn))

/-! ### CLAMP, TRICK, SLEW and STEP (R190, R458, R584) -/

theorem State.clampDie_frame (s : State) (d level : Nat) : (s.clampDie d level).out = s.out ∧ (s.clampDie d level).mem = s.mem ∧
    (s.clampDie d level).cores = s.cores ∧ (s.clampDie d level).net.clamp = level ∧
    (s.clampDie d level).rd (RGN_PWR_STAT.CLAMPED (regionOf d)) = if level = 0 then 0 else 1 := by
  have hmark (t : State) : (t.wr (RGN_PWR_STAT.CLAMPED (regionOf d)) (b2n (decide (level ≠ 0)))).rd (RGN_PWR_STAT.CLAMPED (regionOf d)) =
      if level = 0 then 0 else 1 := by
    rw [State.rd_wr_same]
    by_cases h : level = 0 <;> simp [h, b2n, RGN_PWR_STAT.CLAMPED]
  unfold State.clampDie
  dsimp only
  rw [State.rd_updNet]
  refine ⟨?_, ?_, ?_, rfl, hmark _⟩ <;> split <;> rfl

theorem execClamp_fresh {s : State} {n q : Nat} (hn : n < 144) (hfresh : Tab.get 0 (s.node n).seq 4 ≠ q + 1) {level : Nat} (hlevel : level < 4) (sender : Nat) :
    execClamp n sender q level s = .next ((s.passed n sender 4 q level []).clampDie n level) := by
  unfold execClamp
  rw [State.flood_fresh hn hfresh, Nat.mod_eq_of_lt hlevel]
  exact congrArg Host.Outcome.next (if_pos (decide_eq_true hn))

/-- A unit's trick armed at a node. -/
def State.armTrick (s : State) (n : Nat) (tr : Trick) : State := { s with tel := { s.tel with trick := some { tr with armed := tr.armed ++ [n] } } }

theorem execTrickFrame_fresh {s : State} {n q : Nat} (hn : n < 144) (hfresh : Tab.get 0 (s.node n).seq 5 ≠ q + 1) {tr : Trick} (htrick : s.tel.trick = some tr)
    (sender tm : Nat) : execTrickFrame n sender q tm tr.n s = .next ((s.passed n sender 5 q 0 [tm % 2 ^ 32, tm / 2 ^ 32, tr.n]).armTrick n tr) := by
  unfold execTrickFrame
  rw [State.flood_fresh hn hfresh]
  have hpassed : (s.passed n sender 5 q 0 [tm % 2 ^ 32, tm / 2 ^ 32, tr.n]).tel.trick = some tr := by rw [State.passed_tel, htrick]
  generalize s.passed n sender 5 q 0 [tm % 2 ^ 32, tm / 2 ^ 32, tr.n] = t at hpassed ⊢
  rw [hpassed]
  dsimp only
  rw [if_pos rfl, State.armTrick]

/-- An adjustment that waits for its time, received by one node more. -/
def State.noteAdj (s : State) (n : Nat) (a : PtAdj) : State := { s with clk := { s.clk with adj := some { a with got := a.got ++ [n] } } }

theorem State.gotAdj_new {s : State} {n : Nat} {a : PtAdj} (hadj : s.clk.adj = some a) (hnew : n ∉ a.got) : s.gotAdj n = s.noteAdj n a := by
  have hgot : (if a.got.contains n then a.got else a.got ++ [n]) = a.got ++ [n] := if_neg (by simpa using hnew)
  unfold State.gotAdj
  rw [hadj]
  dsimp only
  rw [hgot]
  rfl

section Adjust

variable {s : State} {n q : Nat} (hn : n < 144) (hfresh : Tab.get 0 (s.node n).seq 6 ≠ q + 1) {a : PtAdj} (hadj : s.clk.adj = some a) (hnew : n ∉ a.got)
  (sender start : Nat) (adj : Int)
include hn hfresh hadj hnew

theorem execTimeSlew_fresh (ticks : Nat) : execTimeSlew n sender q start adj ticks s =
    .next ((s.passed n sender 6 q 3 [start % 2 ^ 32, unsgn 32 adj, ticks % 2 ^ 32]).noteAdj n a) := by
  unfold execTimeSlew
  rw [State.flood_fresh hn hfresh, State.gotAdj_new (by rw [State.passed_clk, hadj]) hnew]

theorem execTimeStep_fresh : execTimeStep n sender q start adj s =
    .next ((s.passed n sender 6 q 4 [start % 2 ^ 32, unsgn 64 adj % 2 ^ 32, unsgn 64 adj / 2 ^ 32]).noteAdj n a) := by
  unfold execTimeStep
  rw [State.flood_fresh hn hfresh, State.gotAdj_new (by rw [State.passed_clk, hadj]) hnew]

end Adjust

/-- A unit's shadow filled. -/
def State.keepShadow (s : State) (u : Nat) (l : List Byte) : State := { s with tel := { s.tel with shadow := Tab.set [] s.tel.shadow u l } }

/-- An armed unit in service copies its counters once panel time has reached T (R584). -/
theorem execTrickCopy_due {s : State} {n : Nat} (hn : n < 144) {tr : Trick} (htrick : s.tel.trick = some tr) (htime : tr.t ≤ s.ptime) (harmed : n ∈ tr.armed)
    (hempty : Tab.get [] s.tel.shadow n = []) (hthere : s.unitGone n = none) : execTrickCopy n s = .next (s.keepShadow n (s.unitShadow n)) := by
  have hgoes : (decide (198 ≤ n) || decide (s.ptime < tr.t) || !(Tab.get [] s.tel.shadow n).isEmpty) = false := by
    rw [hempty, decide_eq_false (Nat.not_le.mpr (by omega)), decide_eq_false (Nat.not_lt.mpr htime)]
    rfl
  have hunit : trickNode n = n := by
    unfold trickNode
    split
    · omega
    · split <;> omega
  unfold execTrickCopy
  rw [htrick]
  dsimp only
  rw [hgoes, hthere, hunit, List.contains_iff_mem.mpr harmed]
  rfl

/-! ### FLIP (R173, R200) -/

/-- `t` is `s` but for the traffic that moves in it: its cores and its memory are the same, and every register of a die's last page but the counters of its links. -/
def TrafficOnly (s t : State) : Prop := t.cores = s.cores ∧ t.mem = s.mem ∧ ∀ f : Field, 8 * 0xD000 ≤ f.key % 0x80000 → t.rd f = s.rd f

theorem TrafficOnly.refl (s : State) : TrafficOnly s s := ⟨rfl, rfl, fun _ _ => rfl⟩

theorem TrafficOnly.trans {s t u : State} (h : TrafficOnly s t) (k : TrafficOnly t u) : TrafficOnly s u :=
  ⟨k.1.trans h.1, k.2.1.trans h.2.1, fun f hf => (k.2.2 f hf).trans (h.2.2 f hf)⟩

/-- What changes the networks' own state and what the panel has sent moves traffic, no more. -/
theorem NetOnly.trafficOnly {s t : State} (h : NetOnly s t) : TrafficOnly s t := ⟨h.cores, h.mem, fun f _ => State.rd_congr (congrArg State.regs h :) f⟩

theorem State.setBport_trafficOnly (s : State) (k : Nat) (p : Port BulkPkt) : TrafficOnly s (s.setBport k p) := ⟨rfl, rfl, fun _ _ => rfl⟩

theorem State.sendOff_trafficOnly (s : State) (k : Nat) (p : BulkPkt) : TrafficOnly s (s.sendOff k p) := by
  have hcount (t : State) (loc w : Nat) (h : BulkHdr) : TrafficOnly t (t.txCount loc w h) := by
    have hframe := txCount_txOnly t loc w h
    refine ⟨hframe.cores, hframe.mem, fun f hf => ?_⟩
    unfold State.txCount
    split
    · have hlane : w % 4 < 4 := Nat.mod_lt _ (by decide)
      refine (t.pcount_frame ..).2.2 f ?_ ?_
      · dsimp only [CD_NET_TX.COUNT]
        omega
      · dsimp only [CD_PERF_DWRAP.NET_WRAP]
        omega
    · rfl
  unfold State.sendOff
  dsimp only
  refine TrafficOnly.trans ?_ ((hcount _ _ _ _).trans ⟨rfl, rfl, fun _ _ => rfl⟩)
  split
  · exact State.setBport_trafficOnly ..
  · exact TrafficOnly.refl _

theorem bpump_trafficOnly (n : Nat) (ks : List Nat) (s : State) : TrafficOnly s (State.bpump n ks s) := by
  induction n generalizing ks s with
  | zero => cases ks <;> exact TrafficOnly.refl s
  | succ n ih =>
    cases ks with
    | nil => exact TrafficOnly.refl s
    | cons k ks =>
      unfold State.bpump
      split
      · exact ih ..
      · exact (State.setBport_trafficOnly ..).trans (ih ..)
      · exact ((State.setBport_trafficOnly ..).trans (State.sendOff_trafficOnly ..)).trans (ih ..)

theorem State.leaveBy_trafficOnly (s : State) (loc way : Nat) (p : BulkPkt) : TrafficOnly s (s.leaveBy loc way p) :=
  (State.setBport_trafficOnly ..).trans (bpump_trafficOnly ..)

theorem State.rerouteWaiting_trafficOnly (s : State) : TrafficOnly s s.rerouteWaiting := by
  unfold State.rerouteWaiting
  dsimp only
  refine forL_preserves (P := TrafficOnly s) (fun e t ht => ?_) _ (TrafficOnly.refl s)
  refine forL_preserves (P := TrafficOnly s) (fun p u hu => ?_) _ (ht.trans (State.setBport_trafficOnly ..))
  split <;> exact hu.trans (State.leaveBy_trafficOnly ..)

theorem State.ringOn_netOnly (s : State) (a : Nat) (p : RingPkt) : NetOnly s (s.ringOn a p) := by
  unfold State.ringOn
  split
  · rfl
  · split <;> rfl

/-- Traffic that resumes after a change moves, and changes nothing else (R173). -/
theorem State.resumeTraffic_trafficOnly (s : State) : TrafficOnly s s.resumeTraffic := by
  unfold State.resumeTraffic
  split
  · split
    · refine forL_preserves (P := TrafficOnly s) (fun e t ht => ht.trans (t.ringOn_netOnly ..).trafficOnly) _ (TrafficOnly.trans ?_ (State.rerouteWaiting_trafficOnly _))
      exact ⟨rfl, rfl, fun _ _ => rfl⟩
    · exact TrafficOnly.refl s
  · exact TrafficOnly.refl s

theorem State.resumeTraffic_idle {s : State} (h : s.net.chg = none) : s.resumeTraffic = s := by
  unfold State.resumeTraffic
  rw [h]

/-- A die's banks switched, its switch no longer armed. -/
def State.switchBanks (s : State) (d : Nat) : State := (s.wr (CD_RT_CTL.ACTIVE d) (1 - s.rd (CD_RT_CTL.ACTIVE d))).wr (CD_RT_CTL.PEND d) 0

theorem State.switchBanks_spec (s : State) (d : Nat) : (s.switchBanks d).rd (CD_RT_CTL.ACTIVE d) = 1 - s.rd (CD_RT_CTL.ACTIVE d) ∧
    (s.switchBanks d).rd (CD_RT_CTL.PEND d) = 0 := by
  refine ⟨?_, State.rd_wr_same ..⟩
  have hbit : 1 - s.rd (CD_RT_CTL.ACTIVE d) < 2 ^ 1 := by omega
  rw [State.switchBanks, State.rd_wr_ne _ _ (by dsimp only [CD_RT_CTL.ACTIVE, CD_RT_CTL.PEND]; omega), State.rd_wr_same]
  exact Nat.mod_eq_of_lt hbit

theorem State.inactiveVer_congr {s t : State} (h : t.regs = s.regs) (d : Nat) : t.inactiveVer d = s.inactiveVer d := by
  rw [State.inactiveVer, State.inactiveVer, State.rd_congr h, State.rd_congr h, State.rd_congr h]

theorem execSyncFlip_armed {s : State} {n q ver : Nat} (hn : n < 144) (hver : ver < 2 ^ 16) (hfresh : Tab.get 0 (s.node n).seq 7 ≠ q + 1)
    (hpend : s.bit (CD_RT_CTL.PEND n) = true) (hbank : s.inactiveVer n = ver) (sender : Nat) :
    execSyncFlip n sender q ver s = .next ((s.passed n sender 7 q (ver * 16) []).switchBanks n).resumeTraffic := by
  have hregs := s.passed_regs n sender 7 q (ver * 16) []
  unfold execSyncFlip
  rw [State.flood_fresh hn hfresh, Nat.mod_eq_of_lt hver]
  refine congrArg Host.Outcome.next (if_pos ?_)
  rw [State.bit_congr hregs, hpend, State.inactiveVer_congr hregs, hbank, isDie, decide_eq_true hn, decide_eq_true rfl]
  rfl

/-! ### The obligation -/

/-- Settles O31: an ARRIVE by what the count makes of it; a RELEASE by the phase it finds, its cores' part leaving the phase register; a link by whether it is
idle; a message's frames field by field; and each broadcast by what passing it on leaves, then by what it does at the node. -/
theorem syncFramesCountReleaseAndFlood : Obligations.SyncFramesCountReleaseAndFlood := by
  unfold Obligations.SyncFramesCountReleaseAndFlood
  intro s n ch ph q hn hch hph hq got up kids pass fresh
  have hchannel : ch % 8 = ch := Nat.mod_eq_of_lt hch
  have hparity : ph % 2 = ph := Nat.mod_eq_of_lt hph
  refine ⟨fun hearly => ?_, fun hlast => ?_, fun hstale => ?_, fun hphase => ?_, fun m type arg data => ⟨fun hbusy hwait => ?_, fun hbusy => ⟨?_, ?_⟩⟩,
    fun l x h => syncPick_spec h, fun m htype hseq harg hlen hdata => syncOf_wire htype hseq harg hlen hdata, fun sender type => ⟨fun m hfind => ?_, fun hnone => ?_⟩,
    fun sender layer hlayer => ⟨fun hseen => ?_, fun hfresh => ?_⟩, fun sender level hlevel hfresh => ?_, fun sender tm m tr htrick hm hfresh => ?_,
    fun tr htrick htime harmed hempty hthere => ?_, fun sender ver hver hfresh hpend hbank => ?_, fun sender start adj ticks a hadj hnew hfresh => ⟨?_, ?_⟩⟩
  -- an ARRIVE before the last, and the last
  · rw [exec_syncArriveFrame, execSyncArriveFrame, hchannel, hparity, State.syncCount_early hn ch ph hearly]
    refine ⟨_, rfl, ?_, rfl, rfl, rfl⟩
    rw [State.node_updNode_same]
    dsimp only
    rw [Tab.get_set_same]
  · obtain ⟨hclear, _, _, _, hframe⟩ := State.syncCount_last_frame hn ch ph hlast
    rw [exec_syncArriveFrame, execSyncArriveFrame, hchannel, hparity]
    exact ⟨_, rfl, hclear, by rw [hframe], by rw [hframe], State.syncCount_last_root hn ch ph hlast, fun p => State.syncCount_last_parent hn ch ph hlast⟩
  -- a RELEASE of another phase, and one that is taken
  · rw [exec_syncReleaseFrame, execSyncReleaseFrame_stale hch hph hstale]
  · obtain ⟨hmem, hcores, -⟩ := s.releaseDie_frame n ch ph
    rw [exec_syncReleaseFrame, execSyncReleaseFrame_taken hn hch hph hphase]
    refine ⟨_, rfl, State.released_phase hn hch hph s, fun hidle => ?_⟩
    rw [State.released_idle hidle]
    exact ⟨s.releaseDie_out n ch ph, hmem, hcores⟩
  -- a link that is idle, and a busy one
  · rw [State.syncSend_idle hbusy hwait]
    rfl
  · rw [State.syncSend_busy hbusy]
    rfl
  · rw [State.syncSend_busy hbusy, State.syncLink_setSync_same]
  -- a frame in error
  · rw [exec_syncFrameCrcError, execSyncFrameCrcError, hfind]
  · have hfind : (s.syncLink sender n).store.find? (fun m => decide (m.type = type)) = none :=
      List.find?_eq_none.mpr fun m hm => by simpa using hnone m hm
    rw [exec_syncFrameCrcError, execSyncFrameCrcError, hfind]
  -- GO that is a repeat, and a fresh one
  · rw [exec_syncGo, execSyncGo, State.flood_repeat (not_not.mp hseen)]
  · obtain ⟨hmem, hout⟩ := (s.passed n sender 3 q 0 [layer]).goDie_frame n layer
    rw [exec_syncGo, execSyncGo_fresh hn hfresh hlayer]
    refine ⟨_, rfl, hout, hmem.trans (State.passed_mem ..), fun k i hk _ hfenced hloaded hempty hlayer => ?_⟩
    refine State.goDie_starts hk ?_
    rw [State.core, State.passed_cores]
    exact ⟨hfenced, hloaded, hempty, hlayer⟩
  -- CLAMP, TRICK and the copy of a unit's counters
  · obtain ⟨hout, hmem, hcores, hclamp, hmark⟩ := (s.passed n sender 4 q level []).clampDie_frame n level
    rw [exec_clamp, execClamp_fresh hn hfresh hlevel]
    exact ⟨_, rfl, hout, hclamp, hmark, hmem.trans (State.passed_mem ..), hcores.trans (State.passed_cores ..)⟩
  · subst hm
    rw [exec_trickFrame, execTrickFrame_fresh hn hfresh htrick]
    exact ⟨_, rfl, rfl, rfl, State.passed_regs .., State.passed_mem ..⟩
  · rw [exec_trickCopy, execTrickCopy_due hn htrick htime harmed hempty hthere]
    exact ⟨_, rfl, Tab.get_set_same .., rfl, rfl, rfl⟩
  -- FLIP
  · have hregs := s.passed_regs n sender 7 q (ver * 16) []
    obtain ⟨hactive, hcleared⟩ := (s.passed n sender 7 q (ver * 16) []).switchBanks_spec n
    obtain ⟨hcores, hmem, hrd⟩ := ((s.passed n sender 7 q (ver * 16) []).switchBanks n).resumeTraffic_trafficOnly
    rw [exec_syncFlip, execSyncFlip_armed hn hver hfresh hpend hbank]
    refine ⟨_, rfl, fun hchg => ?_, ?_, ?_, hmem.trans (State.passed_mem ..), hcores.trans (State.passed_cores ..)⟩
    · have hidle : ((s.passed n sender 7 q (ver * 16) []).switchBanks n).net.chg = none := (State.passed_chg ..).trans hchg
      rw [State.resumeTraffic_idle hidle]
      rfl
    · rw [hrd _ (by dsimp only [CD_RT_CTL.ACTIVE]; omega), hactive, State.rd_congr hregs]
    · rw [hrd _ (by dsimp only [CD_RT_CTL.PEND]; omega), hcleared]
  -- SLEW and STEP
  · rw [exec_timeSlew, execTimeSlew_fresh hn hfresh hadj hnew]
    exact ⟨_, rfl, rfl, rfl, State.passed_regs ..⟩
  · rw [exec_timeStep, execTimeStep_fresh hn hfresh hadj hnew]
    exact ⟨_, rfl, rfl, rfl, State.passed_regs ..⟩

end Sys2Proof.Machine

/-! PROOFS. Where the pages of the central store lie (R226, R232 to R234): the three placements one by one, the band of a segment, and that no two pages
share a place. Settles O59. -/

namespace Sys2Proof.Machine

/-! ### Interleaved pages (R232) -/

theorem interleaved_xor_lt (p : Nat) : (p / 3 % 16) ^^^ (p / 48 % 16) < 16 :=
  Nat.xor_lt_two_pow (n := 4) (Nat.mod_lt _ (by decide)) (Nat.mod_lt _ (by decide))

theorem interleaved_stack_lt (p : Nat) : (interleaved p).1 < 48 := by
  have hxor := interleaved_xor_lt p
  show p % 3 * 16 + ((p / 3 % 16) ^^^ (p / 48 % 16)) < 48
  omega

/-- A stack-local page holds 48 interleaved pages: the column gives `p % 3`, and the row within it, unmixed, gives `p / 3 % 16`. -/
theorem interleaved_injective {p q : Nat} (h : interleaved p = interleaved q) : p = q := by
  obtain ⟨hstack, hpage⟩ := Prod.mk.inj h
  replace hstack : p % 3 * 16 + ((p / 3 % 16) ^^^ (p / 48 % 16)) = q % 3 * 16 + ((q / 3 % 16) ^^^ (q / 48 % 16)) := hstack
  have hp := interleaved_xor_lt p
  have hq := interleaved_xor_lt q
  rw [hpage] at hstack hp
  have hrow : p / 3 % 16 = q / 3 % 16 := Nat.xor_left_injective (x := q / 48 % 16) (by dsimp only; omega)
  omega

/-! ### Edge-local pages (R233) -/

/-- The row of stacks that serves an address of edge-local segment `j`, and the number of its page among the row's. -/
def edgeRow (j a : Nat) : Nat := (a - j * (48 * 2 ^ 30)) / 2 ^ 32
def edgePage (j a : Nat) : Nat := (a - j * (48 * 2 ^ 30)) % 2 ^ 32 / 4096

/-- Bit 0 of the page's number chooses the half of the stacks, bit 1 the stack of the row's two there. -/
theorem edgeLocal_eq (j a : Nat) :
    edgeLocal j a = (24 * (edgePage j a % 2) + 2 * edgeRow j a + edgePage j a % 4 / 2, j * 262144 + edgePage j a / 4) := by
  unfold edgeLocal edgeRow edgePage
  dsimp only
  generalize (a - j * (48 * 2 ^ 30)) / 2 ^ 32 = r
  generalize (a - j * (48 * 2 ^ 30)) % 2 ^ 32 / 4096 = q
  have hcases : q % 4 = 0 ∨ q % 4 = 1 ∨ q % 4 = 2 ∨ q % 4 = 3 := by omega
  rcases hcases with h | h | h | h <;> simp only [h, Prod.mk.injEq, and_true]
  · show 2 * r = _; omega
  · show 24 + 2 * r = _; omega
  · show 2 * r + 1 = _; omega
  · show 25 + 2 * r = _; omega

theorem edge_bounds {j a : Nat} (h : a / (48 * 2 ^ 30) = j) : edgeRow j a < 12 ∧ edgePage j a < 1048576 := by
  unfold edgeRow edgePage
  omega

/-- Segment, row and number give the page back. -/
theorem page_of_edge {j a : Nat} (h : a / (48 * 2 ^ 30) = j) : a / 4096 = j * 12582912 + edgeRow j a * 1048576 + edgePage j a := by
  unfold edgeRow edgePage
  omega

/-- An address of segment `j` lies on one of the 48 stacks, in band `j`. -/
theorem edgeLocal_place {j a : Nat} (h : a / (48 * 2 ^ 30) = j) : (edgeLocal j a).1 < 48 ∧ (edgeLocal j a).2 / 262144 = j := by
  obtain ⟨hrow, hnum⟩ := edge_bounds h
  rw [edgeLocal_eq]
  dsimp only
  omega

/-- The stack tells the half, the row and the stack of the row's two apart. -/
theorem edge_digits {x x' r r' y y' : Nat} (hr : r < 12) (hr' : r' < 12) (hy : y < 2) (hy' : y' < 2) (h : 24 * x + 2 * r + y = 24 * x' + 2 * r' + y') :
    x = x' ∧ r = r' ∧ y = y' := by
  omega

theorem edgeLocal_page_injective {j a b : Nat} (ha : a / (48 * 2 ^ 30) = j) (hb : b / (48 * 2 ^ 30) = j) (h : edgeLocal j a = edgeLocal j b) :
    a / 4096 = b / 4096 := by
  rw [edgeLocal_eq, edgeLocal_eq] at h
  obtain ⟨hstack, hpage⟩ := Prod.mk.inj h
  have hlow (q : Nat) : q % 4 / 2 < 2 := by omega
  obtain ⟨hhalf, hrow, hcolumn⟩ := edge_digits (edge_bounds ha).1 (edge_bounds hb).1 (hlow _) (hlow _) hstack
  have hnum : edgePage j a = edgePage j b := by
    clear ha hb
    omega
  rw [page_of_edge ha, page_of_edge hb, hrow, hnum]

/-! ### Pages in parity mode (R234) -/

theorem parityPage_group (p : Nat) : (parityPage p).1 / 12 = p % 44 % 4 := by
  unfold parityPage
  dsimp only
  omega

theorem parityPage_injective {p q : Nat} (h : parityPage p = parityPage q) : p = q := by
  obtain ⟨hstack, hpage⟩ := Prod.mk.inj h
  omega

/-- The 11 data pages of a stripe take the positions after that of its parity. -/
theorem parityPage_ne_parityStack (p : Nat) : (parityPage p).1 ≠ parityStack ((parityPage p).1 / 12) (parityPage p).2 := by
  rw [parityPage_group]
  unfold parityPage parityStack
  dsimp only
  omega

/-! ### The placement in force -/

theorem State.segSize_of_pmode {s : State} (h : s.pmode = true) : s.segSize = 44 * 2 ^ 30 := if_pos h

theorem State.segSize_of_not_pmode {s : State} (h : s.pmode = false) : s.segSize = 48 * 2 ^ 30 := if_neg (by rw [h]; exact Bool.false_ne_true)

theorem State.inStore_iff (s : State) (a n : Nat) : s.inStore a n = true ↔ a + n ≤ 48 * s.segSize := decide_eq_true_iff

theorem State.place_parity {s : State} {a : Nat} (h : s.pmode = true) (ha : s.inStore a 1 = true) : s.place a = parityPage (a / 4096) := by
  rw [State.inStore_iff, State.segSize_of_pmode h] at ha
  exact (if_pos h).trans (if_pos (by unfold parityBase; omega))

theorem State.segOf_of_not_pmode {s : State} (h : s.pmode = false) (a : Nat) : s.segOf a = a / (48 * 2 ^ 30) := by
  rw [State.segOf, State.segSize_of_not_pmode h]

theorem State.place_edgeLocal {s : State} {a : Nat} (h : s.pmode = false) (hmode : s.bit (MH_SEG_MAP.MODE (a / (48 * 2 ^ 30))) = true) :
    s.place a = edgeLocal (a / (48 * 2 ^ 30)) a := by
  unfold State.place
  rw [h, State.segOf_of_not_pmode h, hmode]
  rfl

theorem State.place_interleaved {s : State} {a : Nat} (h : s.pmode = false) (hmode : s.bit (MH_SEG_MAP.MODE (a / (48 * 2 ^ 30))) = false) :
    s.place a = interleaved (a / 4096) := by
  unfold State.place
  rw [h, State.segOf_of_not_pmode h, hmode]
  rfl

/-- With parity mode off every page of segment `j` lies in band `j` of some stack, in either mode (R226). -/
theorem State.place_band {s : State} (h : s.pmode = false) (a : Nat) : (s.place a).1 < 48 ∧ (s.place a).2 / 262144 = a / (48 * 2 ^ 30) := by
  cases hmode : s.bit (MH_SEG_MAP.MODE (a / (48 * 2 ^ 30))) with
  | true => rw [State.place_edgeLocal h hmode]; exact edgeLocal_place rfl
  | false =>
    rw [State.place_interleaved h hmode]
    refine ⟨interleaved_stack_lt _, ?_⟩
    show a / 4096 / 48 / 262144 = a / (48 * 2 ^ 30)
    omega

theorem State.place_bounds {s : State} {a : Nat} (ha : s.inStore a 1 = true) : (s.place a).1 < 48 ∧ (s.place a).2 < 12582912 := by
  cases h : s.pmode with
  | true =>
    have hpage := State.place_parity h ha
    rw [State.inStore_iff, State.segSize_of_pmode h] at ha
    rw [hpage]
    unfold parityPage
    dsimp only
    omega
  | false =>
    obtain ⟨hstack, hband⟩ := State.place_band h a
    rw [State.inStore_iff, State.segSize_of_not_pmode h] at ha
    omega

/-- Two addresses of the store at one place are of one page. -/
theorem State.page_eq_of_place_eq {s : State} {a b : Nat} (ha : s.inStore a 1 = true) (hb : s.inStore b 1 = true) (h : s.place a = s.place b) :
    a / 4096 = b / 4096 := by
  cases hp : s.pmode with
  | true =>
    rw [State.place_parity hp ha, State.place_parity hp hb] at h
    exact parityPage_injective h
  | false =>
    have hseg : b / (48 * 2 ^ 30) = a / (48 * 2 ^ 30) := by rw [← (State.place_band hp a).2, ← (State.place_band hp b).2, h]
    cases hmode : s.bit (MH_SEG_MAP.MODE (a / (48 * 2 ^ 30))) with
    | true =>
      rw [State.place_edgeLocal hp hmode, State.place_edgeLocal hp (by rwa [hseg]), hseg] at h
      exact edgeLocal_page_injective rfl hseg h
    | false =>
      rw [State.place_interleaved hp hmode, State.place_interleaved hp (by rwa [hseg])] at h
      exact interleaved_injective h

/-! ### The obligation -/

/-- Settles O59: with parity mode off the bands keep the segments apart, and within one segment its placement is injective; in parity mode one placement
holds for the whole store. -/
theorem noTwoStorePagesShareAPlace : Obligations.NoTwoStorePagesShareAPlace := by
  unfold Obligations.NoTwoStorePagesShareAPlace
  intro s a b ha
  refine ⟨State.place_bounds ha, fun hb h => State.page_eq_of_place_eq ha hb h, fun p hp hpmode hmode => ?_, fun hpmode => ?_⟩
  · subst hp
    exact State.place_interleaved hpmode hmode
  · rw [State.place_parity hpmode ha]
    exact ⟨parityPage_group _, parityPage_ne_parityStack _⟩

end Sys2Proof.Machine

/-! PROOFS. What the shared operations of the store's hubs leave (R236, R251 to R261): a hub's registers, the masks of lost stacks, the held requests, the
groups of parity mode, and the errors of lines. -/

namespace Sys2Proof.Machine

/-! ### Registers, error marks and hidden state -/

/-- `t` is `s` but for registers, error marks, the store's hidden state and the telemetry: no byte of memory changes, and nothing is sent. -/
def HubOnly (s t : State) : Prop := ∃ regs ecc store tel, t = { s with regs := regs, ecc := ecc, store := store, tel := tel }

theorem HubOnly.refl (s : State) : HubOnly s s := ⟨_, _, _, _, rfl⟩

theorem HubOnly.trans {s t u : State} (h : HubOnly s t) (k : HubOnly t u) : HubOnly s u := by
  obtain ⟨r, e, x, y, rfl⟩ := h
  obtain ⟨r', e', x', y', rfl⟩ := k
  exact ⟨_, _, _, _, rfl⟩

theorem HubOnly.mem {s t : State} (h : HubOnly s t) : t.mem = s.mem := by
  obtain ⟨r, e, x, y, rfl⟩ := h
  rfl

theorem HubOnly.out {s t : State} (h : HubOnly s t) : t.out = s.out := by
  obtain ⟨r, e, x, y, rfl⟩ := h
  rfl

theorem HubOnly.byte {s t : State} (h : HubOnly s t) (a : Nat) : t.byte a = s.byte a := by
  obtain ⟨r, e, x, y, rfl⟩ := h
  rfl

theorem RegsOnly.hubOnly {s t : State} (h : RegsOnly s t) : HubOnly s t := by
  obtain ⟨r, rfl⟩ := h
  exact ⟨_, _, _, _, rfl⟩

theorem RegsOnly.store {s t : State} (h : RegsOnly s t) : t.store = s.store := by
  obtain ⟨r, rfl⟩ := h
  rfl

theorem State.wr_hubOnly (s : State) (f : Field) (v : Nat) : HubOnly s (s.wr f v) := ⟨_, _, _, _, rfl⟩

theorem State.wr_regsOnly (s : State) (f : Field) (v : Nat) : RegsOnly s (s.wr f v) := ⟨_, rfl⟩

theorem State.setStore_hubOnly (s : State) (x : Store) : HubOnly s { s with store := x } := ⟨_, _, _, _, rfl⟩

theorem State.setEcc_hubOnly (s : State) (x : Tab Nat) : HubOnly s { s with ecc := x } := ⟨_, _, _, _, rfl⟩

theorem State.dayCount_hubOnly (s : State) (key n : Nat) : HubOnly s (s.dayCount key n) := ⟨_, _, _, _, rfl⟩

theorem forN_preserves {σ : Type} {P : σ → Prop} {f : Nat → σ → σ} (hf : ∀ i s, P s → P (f i s)) (n : Nat) {s : σ} (h : P s) : P (forN n f s) :=
  forL_preserves hf (List.range n) h

theorem forN_preserves_lt {σ : Type} {P : σ → Prop} {f : Nat → σ → σ} {n : Nat} (hf : ∀ i < n, ∀ s, P s → P (f i s)) {s : σ} (h : P s) : P (forN n f s) :=
  forL_preserves_mem (fun i hi => hf i (List.mem_range.mp hi)) h

/-- What step `i` makes, from what every step keeps, and every step keeps too. -/
theorem forN_establishes {σ : Type} {P Q : σ → Prop} {f : Nat → σ → σ} {i n : Nat} (hi : i < n) (hP : ∀ j s, P s → P (f j s)) (hQ : ∀ j s, Q s → Q (f j s))
    (hmake : ∀ s, P s → Q (f i s)) {s : σ} (h : P s) : Q (forN n f s) :=
  forL_establishes hP hQ hmake (List.mem_range.mpr hi) h

theorem State.bit_eq_of_rd {s t : State} {f : Field} (h : t.rd f = s.rd f) : t.bit f = s.bit f := by rw [State.bit, State.bit, h]

/-- A one-bit field after it is written with a truth value. -/
theorem State.bit_wr_b2n {f : Field} (hw : f.w = 1) (s : State) (b : Bool) : (s.wr f (b2n b)).bit f = b := by
  rw [s.bit_wr_same f _ hw]
  cases b <;> rfl

/-! ### Lost stacks (R236, R257 to R261) -/

/-- Where a group's progress is written it stands over the state, and a group with a stripe to rebuild keeps its state (R260). -/
theorem State.progress_cases (s : State) (g : Nat) :
    s.progress g = (s.wr (MH_PGRP_PROG.STRIPE g) (12 * stripesPerPos)).wr (MH_PGRP_STATE.STATE g) 4 ∨ ∃ x, s.progress g = s.wr (MH_PGRP_PROG.STRIPE g) x := by
  unfold State.progress
  dsimp only
  split
  · exact .inl rfl
  · exact .inr ⟨_, rfl⟩

theorem State.progress_of_todo {s : State} {g n : Nat} (hmem : n ∈ s.survivors g) (htodo : s.nextStripe n < stripesPerPos) :
    ∃ x, s.progress g = s.wr (MH_PGRP_PROG.STRIPE g) x := by
  have hn : n ∈ (s.survivors g).filter (fun n => decide (s.nextStripe n < stripesPerPos)) := List.mem_filter.mpr ⟨hmem, decide_eq_true htodo⟩
  unfold State.progress
  dsimp only
  split
  · next h => rw [h] at hn; cases hn
  · exact ⟨_, rfl⟩

theorem State.progress_regsOnly (s : State) (g : Nat) : RegsOnly s (s.progress g) := by
  rcases s.progress_cases g with h | ⟨x, h⟩ <;> rw [h]
  · exact ⟨_, rfl⟩
  · exact ⟨_, rfl⟩

/-- Progress of a group is shown in its own two registers. -/
theorem State.rd_progress_ne {f : Field} {g : Nat} (hprog : f.key ≠ (MH_PGRP_PROG.STRIPE g).key) (hstate : f.key ≠ (MH_PGRP_STATE.STATE g).key) (s : State) :
    (s.progress g).rd f = s.rd f := by
  rcases s.progress_cases g with h | ⟨x, h⟩ <;> rw [h]
  · rw [State.rd_wr_ne _ _ hstate, s.rd_wr_ne _ hprog]
  · exact s.rd_wr_ne _ hprog

/-- The state in which a stack is marked lost, its group's records aside, and that in which they follow (R257, R259). -/
def State.markLost (s : State) (n : Nat) : State := s.wr (MH_STACK_STATE.STATE n) 2
def State.listLost (s : State) (n : Nat) : State :=
  { s.markLost n with store := { s.store with lost := Tab.set [] s.store.lost (n / 12) (Tab.get [] s.store.lost (n / 12) ++ [n]) } }

theorem State.stackLost_iff (s : State) (n : Nat) : s.stackLost n = true ↔ s.rd (MH_STACK_STATE.STATE n) = 2 := decide_eq_true_iff

theorem State.stackLost_eq_false {s : State} {n : Nat} (h : s.rd (MH_STACK_STATE.STATE n) ≠ 2) : s.stackLost n = false := decide_eq_false h

/-- How a stack is lost: with parity mode off alone, first of its group, or after another. -/
theorem State.loseStack_cases {s : State} {n : Nat} (h : s.stackLost n = false) :
    (s.pmode = false ∧ s.loseStack n = s.markLost n) ∨
    (s.pmode = true ∧ Tab.get [] s.store.lost (n / 12) = [] ∧ s.loseStack n =
      (((s.listLost n).wr (MH_PGRP_STATE.STATE (n / 12)) (if s.bit MH_RECON_CTL.AUTO then 3 else 2)).wr (MH_PGRP_STATE.LOST_STACK (n / 12)) n).progress (n / 12)) ∨
    (s.pmode = true ∧ Tab.get [] s.store.lost (n / 12) ≠ [] ∧ s.loseStack n = (s.listLost n).wr (MH_PGRP_STATE.STATE (n / 12)) 5) := by
  have hmode : (s.markLost n).pmode = s.pmode := s.bit_wr_ne _ (by dsimp only [MH_STORE_CFG.PMODE, MH_STACK_STATE.STATE]; omega)
  have hauto : (s.listLost n).bit MH_RECON_CTL.AUTO = s.bit MH_RECON_CTL.AUTO :=
    s.bit_wr_ne _ (by dsimp only [MH_RECON_CTL.AUTO, MH_STACK_STATE.STATE]; omega)
  unfold State.loseStack
  rw [h, ← State.markLost, if_neg Bool.false_ne_true]
  dsimp only
  rw [hmode]
  cases hp : s.pmode with
  | false => exact .inl ⟨rfl, rfl⟩
  | true =>
    rw [← hauto]
    have hlost : (s.markLost n).store.lost = s.store.lost := rfl
    cases hl : Tab.get [] s.store.lost (n / 12) with
    | nil => exact .inr (.inl ⟨rfl, rfl, (if_neg Bool.false_ne_true).trans (if_pos (by rw [hlost, hl]; rfl))⟩)
    | cons m l => exact .inr (.inr ⟨rfl, List.cons_ne_nil m l, (if_neg Bool.false_ne_true).trans (if_neg (by rw [hlost, hl]; exact Bool.false_ne_true))⟩)

theorem State.listLost_hubOnly (s : State) (n : Nat) : HubOnly s (s.listLost n) := ⟨_, _, _, _, rfl⟩

theorem State.rd_listLost_ne {f : Field} {n : Nat} (h : f.key ≠ (MH_STACK_STATE.STATE n).key) (s : State) : (s.listLost n).rd f = s.rd f := s.rd_wr_ne _ h

theorem State.loseStack_of_lost {s : State} {n : Nat} (h : s.stackLost n = true) : s.loseStack n = s := if_pos h

theorem State.loseStack_hubOnly (s : State) (n : Nat) : HubOnly s (s.loseStack n) := by
  cases h : s.stackLost n with
  | true => rw [State.loseStack_of_lost h]; exact HubOnly.refl s
  | false =>
    rcases State.loseStack_cases h with ⟨-, he⟩ | ⟨-, -, he⟩ | ⟨-, -, he⟩ <;> rw [he]
    · exact s.wr_hubOnly ..
    · exact (((s.listLost_hubOnly n).trans (State.wr_hubOnly ..)).trans (State.wr_hubOnly ..)).trans (State.progress_regsOnly ..).hubOnly
    · exact (s.listLost_hubOnly n).trans (State.wr_hubOnly ..)

/-- Losing a stack writes the stack's state and its group's registers (R257, R261). -/
theorem State.rd_loseStack_ne {f : Field} {n : Nat} (hstack : f.key ≠ (MH_STACK_STATE.STATE n).key) (hstate : f.key ≠ (MH_PGRP_STATE.STATE (n / 12)).key)
    (hlost : f.key ≠ (MH_PGRP_STATE.LOST_STACK (n / 12)).key) (hprog : f.key ≠ (MH_PGRP_PROG.STRIPE (n / 12)).key) (s : State) :
    (s.loseStack n).rd f = s.rd f := by
  cases h : s.stackLost n with
  | true => rw [State.loseStack_of_lost h]
  | false =>
    rcases State.loseStack_cases h with ⟨-, he⟩ | ⟨-, -, he⟩ | ⟨-, -, he⟩ <;> rw [he]
    · exact s.rd_wr_ne _ hstack
    · rw [State.rd_progress_ne hprog hstate, State.rd_wr_ne _ _ hlost, State.rd_wr_ne _ _ hstate, State.rd_listLost_ne hstack]
    · rw [State.rd_wr_ne _ _ hstate, State.rd_listLost_ne hstack]

theorem State.loseStack_state {n : Nat} (hn : n < 48) (s : State) : (s.loseStack n).rd (MH_STACK_STATE.STATE n) = 2 := by
  have hmark : (s.markLost n).rd (MH_STACK_STATE.STATE n) = 2 := State.rd_wr_same ..
  have hprog : (MH_STACK_STATE.STATE n).key ≠ (MH_PGRP_PROG.STRIPE (n / 12)).key := by dsimp only [MH_STACK_STATE.STATE, MH_PGRP_PROG.STRIPE]; omega
  have hstate : (MH_STACK_STATE.STATE n).key ≠ (MH_PGRP_STATE.STATE (n / 12)).key := by dsimp only [MH_STACK_STATE.STATE, MH_PGRP_STATE.STATE]; omega
  have hlost : (MH_STACK_STATE.STATE n).key ≠ (MH_PGRP_STATE.LOST_STACK (n / 12)).key := by dsimp only [MH_STACK_STATE.STATE, MH_PGRP_STATE.LOST_STACK]; omega
  cases h : s.stackLost n with
  | true => rw [State.loseStack_of_lost h]; exact (s.stackLost_iff n).mp h
  | false =>
    rcases State.loseStack_cases h with ⟨-, he⟩ | ⟨-, -, he⟩ | ⟨-, -, he⟩ <;> rw [he]
    · exact hmark
    · rw [State.rd_progress_ne hprog hstate, State.rd_wr_ne _ _ hlost, State.rd_wr_ne _ _ hstate]; exact hmark
    · rw [State.rd_wr_ne _ _ hstate]; exact hmark

/-- What waits at the hubs is as it was. -/
theorem State.loseStack_waiting (s : State) (n : Nat) : (s.loseStack n).store.held = s.store.held ∧ (s.loseStack n).store.ws = s.store.ws := by
  cases h : s.stackLost n with
  | true => rw [State.loseStack_of_lost h]; exact ⟨rfl, rfl⟩
  | false =>
    rcases State.loseStack_cases h with ⟨-, he⟩ | ⟨-, -, he⟩ | ⟨-, -, he⟩ <;> rw [he]
    · exact ⟨rfl, rfl⟩
    · rw [(State.progress_regsOnly ..).store]; exact ⟨rfl, rfl⟩
    · exact ⟨rfl, rfl⟩

/-- With no stripe rebuilt yet, the next one of a stack is its first. -/
theorem State.nextStripe_zero {s : State} (hbuilt : s.store.built = []) (hearly : s.store.early = []) (n : Nat) : s.nextStripe n = 0 := by
  unfold State.nextStripe
  rw [hbuilt, hearly]
  rfl

theorem State.mem_survivors {s : State} {g m : Nat} (hm : m / 12 = g) (hlost : s.stackLost m = false) : m ∈ s.survivors g := by
  refine List.mem_filter.mpr ⟨List.mem_map.mpr ⟨m % 12, List.mem_range.mpr (Nat.mod_lt _ (by decide)), by omega⟩, ?_⟩
  rw [hlost]
  rfl

/-- The first stack of a group to be lost degrades it, and rebuilding starts where it is automatic (R259). -/
theorem State.loseStack_first {s : State} {n m : Nat} (hn : n < 48) (hlost : s.stackLost n = false) (hp : s.pmode = true) (hfirst : Tab.get [] s.store.lost (n / 12) = [])
    (hbuilt : s.store.built = []) (hearly : s.store.early = []) (hm : m / 12 = n / 12) (hne : m ≠ n) (hlives : s.stackLost m = false) :
    (s.loseStack n).rd (MH_PGRP_STATE.LOST_STACK (n / 12)) = n ∧
    (s.loseStack n).rd (MH_PGRP_STATE.STATE (n / 12)) = if s.bit MH_RECON_CTL.AUTO then 3 else 2 := by
  rcases State.loseStack_cases hlost with ⟨hoff, -⟩ | ⟨-, -, he⟩ | ⟨-, hsecond, -⟩
  · rw [hp] at hoff; cases hoff
  · have hstays (t : State) (v w : Nat) : ((t.wr (MH_PGRP_STATE.STATE (n / 12)) v).wr (MH_PGRP_STATE.LOST_STACK (n / 12)) w).rd (MH_STACK_STATE.STATE m) =
        t.rd (MH_STACK_STATE.STATE m) := by
      rw [State.rd_wr_ne _ _ (by dsimp only [MH_STACK_STATE.STATE, MH_PGRP_STATE.LOST_STACK]; omega),
        State.rd_wr_ne _ _ (by dsimp only [MH_STACK_STATE.STATE, MH_PGRP_STATE.STATE]; omega)]
    have hsurvives : (((s.listLost n).wr (MH_PGRP_STATE.STATE (n / 12)) (if s.bit MH_RECON_CTL.AUTO then 3 else 2)).wr
        (MH_PGRP_STATE.LOST_STACK (n / 12)) n).stackLost m = false := by
      rw [State.stackLost, hstays, State.rd_listLost_ne (by dsimp only [MH_STACK_STATE.STATE]; omega)]
      exact hlives
    have hnext := State.nextStripe_zero (s := ((s.listLost n).wr (MH_PGRP_STATE.STATE (n / 12)) (if s.bit MH_RECON_CTL.AUTO then 3 else 2)).wr
        (MH_PGRP_STATE.LOST_STACK (n / 12)) n) hbuilt hearly m
    obtain ⟨x, hx⟩ := State.progress_of_todo (State.mem_survivors hm hsurvives) (by rw [hnext]; decide)
    rw [he, hx]
    have hprog (f : Field) (hf : f.key ≠ (MH_PGRP_PROG.STRIPE (n / 12)).key) (t : State) : (t.wr (MH_PGRP_PROG.STRIPE (n / 12)) x).rd f = t.rd f := t.rd_wr_ne _ hf
    refine ⟨?_, ?_⟩
    · rw [hprog _ (by dsimp only [MH_PGRP_STATE.LOST_STACK, MH_PGRP_PROG.STRIPE]; omega), State.rd_wr_same]
      exact Nat.mod_eq_of_lt (show n < 64 by omega)
    · rw [hprog _ (by dsimp only [MH_PGRP_STATE.STATE, MH_PGRP_PROG.STRIPE]; omega),
        State.rd_wr_ne _ _ (by dsimp only [MH_PGRP_STATE.STATE, MH_PGRP_STATE.LOST_STACK]; omega), State.rd_wr_same]
      split <;> rfl
  · exact absurd hfirst hsecond

/-- The mask of a die that holds stack `n`, and the stack's bit of it (R236). -/
def lostMask (d n : Nat) : Field := if n < 32 then CD_STORE_LOST_LO.LOST d else CD_STORE_LOST_HI.LOST d

/-- A die's mask with stack `n` marked. -/
def State.maskAt (s : State) (n d : Nat) : State := s.wrBit (lostMask d n) (n % 32) true

theorem State.maskStack_eq {n : Nat} (hn : n < 64) (s : State) : s.maskStack n = forN 144 (fun d t => t.maskAt n d) s := by
  unfold State.maskStack State.maskAt lostMask
  by_cases h : n < 32
  · simp only [if_pos h, Nat.mod_eq_of_lt h]
  · have hmod : n % 32 = n - 32 := by omega
    simp only [if_neg h, hmod]

theorem State.maskStack_regsOnly (s : State) (n : Nat) : RegsOnly s (s.maskStack n) := by
  refine forN_preserves (P := RegsOnly s) (fun d t ht => ht.trans ?_) 144 (RegsOnly.refl s)
  split
  · exact ⟨_, rfl⟩
  · exact ⟨_, rfl⟩

/-- The masks of lost stacks are registers of the dies. -/
theorem State.rd_maskStack_below {f : Field} (hf : belowDies f) (s : State) (n : Nat) : (s.maskStack n).rd f = s.rd f := by
  unfold belowDies at hf
  refine forN_preserves (P := fun t : State => t.rd f = s.rd f) (fun d t ht => Eq.trans ?_ ht) 144 rfl
  split
  · exact t.rd_wr_ne _ (by dsimp only [CD_STORE_LOST_LO.LOST]; omega)
  · exact t.rd_wr_ne _ (by dsimp only [CD_STORE_LOST_HI.LOST]; omega)

theorem bitOf_setBits_mod {x i w : Nat} (hi : i < w) : bitOf (setBits x i 1 (b2n true) % 2 ^ w) i = true := by
  rw [bitOf_eq_testBit, Nat.testBit_mod_two_pow, testBit_setBit, if_pos rfl, decide_eq_true hi]
  rfl

/-- Every die's mask shows a stack that the steward has marked (R236). -/
theorem State.maskStack_marks {n d : Nat} (hn : n < 48) (hd : d < 144) (s : State) : bitOf ((s.maskStack n).rd (lostMask d n)) (n % 32) = true := by
  have hbit : n % 32 < (lostMask d n).w := by
    unfold lostMask
    split
    · dsimp only [CD_STORE_LOST_LO.LOST]; omega
    · dsimp only [CD_STORE_LOST_HI.LOST]; omega
  have hmake (t : State) : bitOf ((t.maskAt n d).rd (lostMask d n)) (n % 32) = true := by
    rw [State.maskAt, State.wrBit, State.rd_wr_same]
    exact bitOf_setBits_mod hbit
  rw [State.maskStack_eq (by omega)]
  refine forN_establishes (P := fun _ => True) (Q := fun t : State => bitOf (t.rd (lostMask d n)) (n % 32) = true) hd (fun _ _ _ => trivial) (fun e t ht => ?_)
    (fun t _ => hmake t) trivial
  by_cases he : e = d
  · subst he; exact hmake t
  · rw [State.maskAt, State.wrBit, State.rd_wr_ne]
    · exact ht
    · unfold lostMask
      split
      · dsimp only [CD_STORE_LOST_LO.LOST]; omega
      · dsimp only [CD_STORE_LOST_HI.LOST]; omega

/-! ### Requests held at a hub (R241, R257, R266) -/

theorem State.notePools_hubOnly (s : State) (k : Nat) : HubOnly s (s.notePools k) := ⟨_, _, _, _, rfl⟩

/-- The pools of a hub that are full (R241). -/
def State.fullPools (s : State) (k : Nat) : List Nat := (List.range 3).filter (s.poolFull k)

/-- The registers of a hub's pools follow what is held (R266). -/
def State.showPools (s : State) (k : Nat) : State :=
  (s.sat (MH_STG_FULL.COUNT k) ((s.fullPools k).filter (fun i => !s.store.full.contains (k, i))).length).wr (MH_HUB_STAT.STG_BUSY k) (b2n (!(s.fullPools k).isEmpty))

theorem State.notePools_regs (s : State) (k : Nat) : (s.notePools k).regs = (s.showPools k).regs := rfl
theorem State.rd_notePools_ne {f : Field} {k : Nat} (hfull : f.key ≠ (MH_STG_FULL.COUNT k).key) (hbusy : f.key ≠ (MH_HUB_STAT.STG_BUSY k).key) (s : State) :
    (s.notePools k).rd f = s.rd f := by
  rw [State.rd_congr (s.notePools_regs k), State.showPools, State.rd_wr_ne _ _ hbusy, State.sat, s.rd_wr_ne _ hfull]

theorem State.wsRun_idle {s : State} (h : s.store.ws = []) : s.wsRun = s := by
  unfold State.wsRun
  rw [h]
  rfl

/-- Where no request is held for a stack and no weight stream waits, a release of the stack only shows the pools anew. -/
theorem State.release_idle {s : State} {n : Nat} (hheld : ∀ r ∈ s.store.held, r.stack ≠ n) (hws : s.store.ws = []) (f : HeldReq → State → State) :
    s.release n f = s.notePools (stackHub n) := by
  have hmine : s.store.held.filter (fun r => decide (r.stack = n)) = [] :=
    List.filter_eq_nil_iff.mpr fun r hr => by simpa using hheld r hr
  have hrest : s.store.held.filter (fun r => decide (r.stack ≠ n)) = s.store.held :=
    List.filter_eq_self.mpr fun r hr => decide_eq_true (hheld r hr)
  have hrun : (s.notePools (stackHub n)).wsRun = s.notePools (stackHub n) := State.wsRun_idle hws
  unfold State.release
  rw [hmine, hrest]
  exact hrun

/-! ### Errors of lines and due repairs (R251 to R254) -/

theorem State.pprBusy_regsOnly (s : State) (k : Nat) : RegsOnly s (s.pprBusy k) := ⟨_, rfl⟩

theorem State.rd_pprBusy_ne {f : Field} {k : Nat} (h : f.key ≠ (MH_PPR_STAT.BUSY k).key) (s : State) : (s.pprBusy k).rd f = s.rd f := s.rd_wr_ne _ h

theorem State.dueRepair_hubOnly (s : State) (n row : Nat) : HubOnly s (s.dueRepair n row) := by
  unfold State.dueRepair
  split
  · exact HubOnly.refl s
  · exact ⟨_, _, _, _, rfl⟩

theorem State.rd_dueRepair_ne {f : Field} {n : Nat} (h : f.key ≠ (MH_PPR_STAT.BUSY (stackHub n)).key) (s : State) (row : Nat) :
    (s.dueRepair n row).rd f = s.rd f := by
  unfold State.dueRepair
  split
  · rfl
  · exact State.rd_pprBusy_ne h _

/-- The SAT bit of a stack's count of corrected errors. -/
def ceSat (k n : Nat) : Field := if stackIdx n = 0 then MH_ERR_STAT.CE_SAT0 k else MH_ERR_STAT.CE_SAT1 k

/-- A corrected error in row `row` of stack `n` counted (R251), and the errors of the last 24 hours with it (R254). -/
def State.ceCounted (s : State) (n : Nat) : State := s.hcount (MH_CE_CNT.COUNT (stackHub n) (stackIdx n)) (ceSat (stackHub n) n) 1
def State.ceNoted (s : State) (n row : Nat) : State :=
  ({ s with store := { s.store with ceRows := s.store.ceRows.filter (fun (e : Nat × Nat × Nat) => decide (s.ptime < e.2.2 + 86400000000000)) ++ [(n, row, s.ptime)] } }).dayCount
    (40000 + n) 1

/-- The row of a corrected error may become due for repair (R254). -/
theorem State.hubCe_cases (s : State) (a : Nat) : ∃ row, let t := (s.ceCounted (s.serving a)).ceNoted (s.serving a) row
    s.hubCe a = t.dueRepair (s.serving a) row ∨ s.hubCe a = t := by
  refine ⟨Config.dramRow ((s.ceCounted (s.serving a)).localAddr a), ?_⟩
  unfold State.hubCe
  exact ite_eq_or_eq _ _ _

theorem State.ceNoted_hubOnly (s : State) (n row : Nat) : HubOnly s (s.ceNoted n row) := ⟨_, _, _, _, rfl⟩

theorem State.hubCe_hubOnly (s : State) (a : Nat) : HubOnly s (s.hubCe a) := by
  obtain ⟨row, h⟩ := s.hubCe_cases a
  have hnoted (n : Nat) : HubOnly s ((s.ceCounted n).ceNoted n row) := (s.hcount_regsOnly _ _ 1).hubOnly.trans (State.ceNoted_hubOnly ..)
  rcases h with h | h <;> rw [h]
  · exact (hnoted _).trans (State.dueRepair_hubOnly ..)
  · exact hnoted _

/-- The stack's count after a corrected error, below its end. -/
theorem State.hubCe_count {s : State} {a n : Nat} (hn : s.serving a = n) (h : s.rd (MH_CE_CNT.COUNT (stackHub n) (stackIdx n)) < 2 ^ 16 - 1) :
    (s.hubCe a).rd (MH_CE_CNT.COUNT (stackHub n) (stackIdx n)) = s.rd (MH_CE_CNT.COUNT (stackHub n) (stackIdx n)) + 1 := by
  obtain ⟨row, hcases⟩ := s.hubCe_cases a
  rw [hn] at hcases
  have hidx : stackIdx n < 2 := Nat.mod_lt _ (by decide)
  have hsat : (MH_CE_CNT.COUNT (stackHub n) (stackIdx n)).key ≠ (ceSat (stackHub n) n).key := by
    unfold ceSat
    split
    · dsimp only [MH_CE_CNT.COUNT, MH_ERR_STAT.CE_SAT0]; omega
    · dsimp only [MH_CE_CNT.COUNT, MH_ERR_STAT.CE_SAT1]; omega
  have hcount : ((s.ceCounted n).ceNoted n row).rd (MH_CE_CNT.COUNT (stackHub n) (stackIdx n)) = s.rd (MH_CE_CNT.COUNT (stackHub n) (stackIdx n)) + 1 := by
    refine (State.rd_hcount_same hsat s 1).trans (if_pos ?_)
    show _ ≤ 2 ^ 32 - 1
    omega
  rcases hcases with hcase | hcase <;> rw [hcase]
  · rw [State.rd_dueRepair_ne (by dsimp only [MH_CE_CNT.COUNT, MH_PPR_STAT.BUSY]; omega)]
    exact hcount
  · exact hcount

/-- The record of an uncorrectable error (R253). -/
def State.ueNoted (s : State) (n a : Nat) (fixed : Bool) : State :=
  (((s.wr (MH_UE_ADDR.ADDR (stackHub n) (stackIdx n)) (a / 64 * 64)).wr (MH_ERR_STAT.UE (stackHub n)) 1).wr (MH_ERR_STAT.UE_STACK (stackHub n)) (stackIdx n)).wr
    (MH_ERR_STAT.UE_FIXED (stackHub n)) (b2n fixed)

/-- The errors of the last hour with one more (R257). -/
def State.ueListed (s : State) (n row : Nat) : State :=
  { s with store := { s.store with ueRows := s.store.ueRows.filter (fun (e : Nat × Nat × Nat) => decide (s.ptime < e.2.2 + 3600000000000)) ++ [(n, row, s.ptime)] } }

/-- An uncorrectable error is recorded, its row due for repair, and perhaps its stack lost (R253, R254, R257). -/
theorem State.hubUe_cases (s : State) (a : Nat) (fixed : Bool) : ∃ row, let t := ((s.ueNoted (s.serving a) a fixed).ueListed (s.serving a) row).dueRepair (s.serving a) row
    s.hubUe a fixed = (t.loseStack (s.serving a)).maskStack (s.serving a) ∨ s.hubUe a fixed = t := by
  refine ⟨Config.dramRow ((s.ueNoted (s.serving a) a fixed).localAddr a), ?_⟩
  unfold State.hubUe
  exact ite_eq_or_eq _ _ _

theorem State.ueNoted_hubOnly (s : State) (n a : Nat) (fixed : Bool) : HubOnly s (s.ueNoted n a fixed) := ⟨_, _, _, _, rfl⟩

theorem State.ueListed_hubOnly (s : State) (n row : Nat) : HubOnly s (s.ueListed n row) := ⟨_, _, _, _, rfl⟩

theorem State.hubUe_hubOnly (s : State) (a : Nat) (fixed : Bool) : HubOnly s (s.hubUe a fixed) := by
  obtain ⟨row, h⟩ := s.hubUe_cases a fixed
  have hnoted (n : Nat) : HubOnly s (((s.ueNoted n a fixed).ueListed n row).dueRepair n row) :=
    ((s.ueNoted_hubOnly n a fixed).trans (State.ueListed_hubOnly ..)).trans (State.dueRepair_hubOnly ..)
  rcases h with h | h <;> rw [h]
  · exact ((hnoted _).trans (State.loseStack_hubOnly ..)).trans (State.maskStack_regsOnly ..).hubOnly
  · exact hnoted _

/-- Does a field lie among the registers of the hubs? -/
def ofHubs (f : Field) : Prop := f.key < 8 * 0x380000

theorem State.rd_loseStack_hub {f : Field} (hf : ofHubs f) (s : State) (n : Nat) : (s.loseStack n).rd f = s.rd f := by
  unfold ofHubs at hf
  refine State.rd_loseStack_ne ?_ ?_ ?_ ?_ s
  · dsimp only [MH_STACK_STATE.STATE]; omega
  · dsimp only [MH_PGRP_STATE.STATE]; omega
  · dsimp only [MH_PGRP_STATE.LOST_STACK]; omega
  · dsimp only [MH_PGRP_PROG.STRIPE]; omega

/-- The error is shown at the hub of the stack that serves the line, with whether it was rebuilt (R253). -/
theorem State.hubUe_shows {s : State} {a n : Nat} (hserving : s.serving a = n) (hn : n < 48) (fixed : Bool) :
    (s.hubUe a fixed).bit (MH_ERR_STAT.UE (stackHub n)) = true ∧ (s.hubUe a fixed).bit (MH_ERR_STAT.UE_FIXED (stackHub n)) = fixed := by
  obtain ⟨row, hcases⟩ := s.hubUe_cases a fixed
  rw [hserving] at hcases
  have hnoted : (s.ueNoted n a fixed).bit (MH_ERR_STAT.UE (stackHub n)) = true ∧ (s.ueNoted n a fixed).bit (MH_ERR_STAT.UE_FIXED (stackHub n)) = fixed := by
    refine ⟨?_, State.bit_wr_b2n rfl ..⟩
    rw [State.ueNoted, State.bit_wr_ne _ _ (by dsimp only [MH_ERR_STAT.UE, MH_ERR_STAT.UE_FIXED]; omega),
      State.bit_wr_ne _ _ (by dsimp only [MH_ERR_STAT.UE, MH_ERR_STAT.UE_STACK]; omega), State.bit_wr_same _ _ _ rfl]
    rfl
  have hkeep {f : Field} (hbusy : f.key ≠ (MH_PPR_STAT.BUSY (stackHub n)).key) (hf : ofHubs f) : (s.hubUe a fixed).bit f = (s.ueNoted n a fixed).bit f := by
    refine State.bit_eq_of_rd ?_
    rcases hcases with hcase | hcase <;> rw [hcase]
    · rw [State.rd_maskStack_below (Nat.lt_trans hf (by decide)), State.rd_loseStack_hub hf, State.rd_dueRepair_ne hbusy]
      rfl
    · exact State.rd_dueRepair_ne hbusy ..
  have hhub : stackHub n < 24 := by unfold stackHub; omega
  rw [hkeep (by dsimp only [MH_ERR_STAT.UE, MH_PPR_STAT.BUSY]; omega) (by dsimp only [ofHubs, MH_ERR_STAT.UE]; omega),
    hkeep (by dsimp only [MH_ERR_STAT.UE_FIXED, MH_PPR_STAT.BUSY]; omega) (by dsimp only [ofHubs, MH_ERR_STAT.UE_FIXED]; omega)]
  exact hnoted

/-! ### Reads of lines (R251, R253) -/

theorem State.lineErr_line (s : State) (a : Nat) : s.lineErr (a / 64 * 64) = s.lineErr a := by
  unfold State.lineErr
  rw [Nat.mul_div_cancel _ (by decide)]

/-- A line with fresh check bits is good. -/
theorem State.lineErr_lineFresh {a b : Nat} (h : a / 64 = b / 64) (s : State) : (s.lineFresh b).lineErr a = 0 := by
  have hnone : (s.lineFresh b).ecc.filter (fun e => decide (e.1 / 8 = a / 64)) = [] := by
    refine List.filter_eq_nil_iff.mpr fun e he => ?_
    have hout : e.1 / 8 ≠ b / 64 := of_decide_eq_true (List.mem_filter.mp he).2
    rw [h]
    exact fun hin => hout (of_decide_eq_true hin)
  unfold State.lineErr
  rw [hnone]
  rfl

theorem State.lineFresh_hubOnly (s : State) (a : Nat) : HubOnly s (s.lineFresh a) := ⟨_, _, _, _, rfl⟩

theorem State.lineOwn_clean {s : State} {a : Nat} (h : s.lineErr a = 0) : s.lineOwn a = (s, true) := by
  unfold State.lineOwn
  rw [h]
  rfl

theorem State.lineOwn_single {s : State} {a : Nat} (h : s.lineErr a = 1) : s.lineOwn a = ((s.hubCe a).lineFresh a, true) := by
  unfold State.lineOwn
  rw [h]
  rfl

theorem State.lineOwn_bad {s : State} {a : Nat} (h : 2 ≤ s.lineErr a) : s.lineOwn a = (s, false) := by
  unfold State.lineOwn
  obtain ⟨m, hm⟩ := Nat.exists_eq_add_of_le' h
  rw [hm]
  rfl

theorem State.lineOwn_hubOnly (s : State) (a : Nat) : HubOnly s (s.lineOwn a).1 := by
  unfold State.lineOwn
  split
  · exact HubOnly.refl s
  · exact (s.hubCe_hubOnly a).trans (State.lineFresh_hubOnly ..)
  · exact HubOnly.refl s

theorem State.matesRead_clean {s : State} {l : List Nat} (h : ∀ x ∈ l, s.lineErr x = 0) : s.matesRead l = (s, true) := by
  induction l with
  | nil => rfl
  | cons a l ih =>
    unfold State.matesRead
    rw [State.lineOwn_clean (h a List.mem_cons_self)]
    exact ih fun x hx => h x (List.mem_cons_of_mem a hx)

theorem State.matesRead_hubOnly (l : List Nat) (s : State) : HubOnly s (s.matesRead l).1 := by
  induction l generalizing s with
  | nil => exact HubOnly.refl s
  | cons a l ih =>
    have hown := s.lineOwn_hubOnly a
    unfold State.matesRead
    split
    · next t h => rw [h] at hown; exact hown.trans (t.hubUe_hubOnly ..)
    · next t h => rw [h] at hown; exact hown.trans (ih t)

theorem State.rebuildLine_hubOnly (s : State) (a : Nat) : HubOnly s (s.rebuildLine a).1 := by
  unfold State.rebuildLine
  split
  · exact s.matesRead_hubOnly _
  · exact HubOnly.refl s

section Own

variable {s : State} {a : Nat} (hlives : s.stackLost (s.place a).1 = false)
include hlives

theorem State.serving_own : s.serving a = (s.place a).1 := by
  unfold State.serving
  dsimp only
  rw [hlives, Bool.and_false]
  rfl

/-- A line of a stack in service is read there first. -/
theorem State.lineRead_good {t : State} (h : s.lineOwn a = (t, true)) : s.lineRead a = (t, true) := by
  unfold State.lineRead
  dsimp only
  rw [hlives, Bool.and_false, h]
  rfl

theorem State.lineRead_rebuilt {t : State} (hbad : 2 ≤ s.lineErr a) (h : s.rebuildLine a = (t, true)) :
    s.lineRead a = ((t.hubUe a true).lineFresh a, true) := by
  unfold State.lineRead
  dsimp only
  rw [hlives, Bool.and_false, State.lineOwn_bad hbad]
  dsimp only
  rw [h]
  rfl

theorem State.lineRead_failed {t : State} (hbad : 2 ≤ s.lineErr a) (h : s.rebuildLine a = (t, false)) : s.lineRead a = (t.hubUe a false, false) := by
  unfold State.lineRead
  dsimp only
  rw [hlives, Bool.and_false, State.lineOwn_bad hbad]
  dsimp only
  rw [h]
  rfl

end Own

/-- A line that its stripe allows to be rebuilt, the other lines of the stripe being good (R253). -/
theorem State.rebuildLine_clean {s : State} {a : Nat} (hpar : s.hasParity a = true) (hmates : ∀ x ∈ mates a, s.lineErr x = 0) : s.rebuildLine a = (s, true) := by
  unfold State.rebuildLine
  rw [hpar]
  exact State.matesRead_clean hmates

theorem State.rebuildLine_off {s : State} (h : s.pmode = false) (a : Nat) : s.rebuildLine a = (s, false) := by
  unfold State.rebuildLine State.hasParity
  rw [h]
  rfl

theorem State.rebuildPage_hubOnly (s : State) (g st : Nat) : HubOnly s (s.rebuildPage g st) := by
  refine forL_preserves (P := HubOnly s) (fun a t ht => ht.trans ?_) _ (HubOnly.refl s)
  have hline := t.rebuildLine_hubOnly a
  split
  · next u h => rw [h] at hline; exact hline.trans (State.lineFresh_hubOnly ..)
  · next u h => rw [h] at hline; exact hline.trans ⟨_, _, _, _, rfl⟩

end Sys2Proof.Machine

/-! PROOFS. The store's repairs, faults, losses, rebuilding and initialisation (R249 to R261, R264 to R266). Settles O34. -/

namespace Sys2Proof.Machine

section Arms

variable (n k : Nat) (src : Src) (s : State)

theorem exec_hubScrub (a : Nat) (upsets : List Upset) : exec (.hubScrub k a upsets) s = execHubScrub k a upsets s := rfl
theorem exec_pprRepair (spare : Bool) : exec (.pprRepair n spare) s = execPprRepair n spare s := rfl
theorem exec_stackFault : exec (.stackFault n) s = execStackFault n s := rfl
theorem exec_stackRetrained : exec (.stackRetrained n) s = execStackRetrained n s := rfl
theorem exec_stackRetrainTimeout : exec (.stackRetrainTimeout n) s = execStackRetrainTimeout n s := rfl
theorem exec_stackThermalTrip : exec (.stackThermalTrip n) s = execStackThermalTrip n s := rfl
theorem exec_rebuildStripe : exec (.rebuildStripe n) s = execRebuildStripe n s := rfl
theorem exec_storeInit : exec (.storeInit src) s = execStoreInit src s := rfl
theorem exec_storeInitComplete (failed noSpare : List Nat) : exec (.storeInitComplete failed noSpare) s = execStoreInitComplete failed noSpare s := rfl
theorem exec_reconStart : exec (.reconStart src) s = execReconStart src s := rfl
theorem exec_hubCeClr : exec (.hubCeClr src k) s = execHubCeClr src k s := rfl

end Arms

/-! ### What a record of the logbook leaves (R345, R590) -/

/-- Does a field lie above the registers of the host interface and of the telemetry? -/
def aboveTel (f : Field) : Prop := 8 * 0x200000 ≤ f.key

/-- `t` is `s` but for registers of the host interface and of the telemetry, the telemetry, the host's side, and what the panel has sent. -/
def LogOnly (s t : State) : Prop :=
  (∃ regs tel host out, t = { s with regs := regs, tel := tel, host := host, out := out }) ∧ ∀ f : Field, aboveTel f → t.rd f = s.rd f

theorem LogOnly.refl (s : State) : LogOnly s s := ⟨⟨_, _, _, _, rfl⟩, fun _ _ => rfl⟩

theorem LogOnly.trans {s t u : State} (h : LogOnly s t) (k : LogOnly t u) : LogOnly s u := by
  obtain ⟨⟨r, e, o, x, rfl⟩, hrd⟩ := h
  obtain ⟨⟨r', e', o', x', rfl⟩, krd⟩ := k
  exact ⟨⟨_, _, _, _, rfl⟩, fun f hf => (krd f hf).trans (hrd f hf)⟩

theorem LogOnly.mem {s t : State} (h : LogOnly s t) : t.mem = s.mem := by
  obtain ⟨⟨r, e, o, x, rfl⟩, -⟩ := h
  rfl

theorem LogOnly.store {s t : State} (h : LogOnly s t) : t.store = s.store := by
  obtain ⟨⟨r, e, o, x, rfl⟩, -⟩ := h
  rfl

theorem State.wr_logOnly {f : Field} (hf : f.key < 8 * 0x200000) (s : State) (v : Nat) : LogOnly s (s.wr f v) := by
  refine ⟨⟨_, _, _, _, rfl⟩, fun g hg => s.rd_wr_ne v ?_⟩
  unfold aboveTel at hg
  omega

theorem State.setTel_logOnly (s : State) (x : Tel) : LogOnly s { s with tel := x } := ⟨⟨_, _, _, _, rfl⟩, fun _ _ => rfl⟩

theorem State.rd_msix (s : State) (fn v : Nat) (g : Field) : (s.msix fn v).rd g = s.rd g := by
  unfold State.msix
  split
  · rfl
  · split
    · rfl
    · rfl

section Event

variable {f : Nat} {g : Field} (hf : f < 16) (hg : aboveTel g)
include hf hg

theorem State.rd_evtPut (s : State) (ty part sev : Nat) (payload : List Byte) : (s.evtPut f ty part sev payload).rd g = s.rd g := by
  unfold aboveTel at hg
  have hwritten (a : Nat) (data : List Byte) : (s.hostWrite f a data).rd g = s.rd g :=
    (s.pcount_frame ..).2.2 g (by dsimp only [HID_PERF_WRB.COUNT]; omega) (by dsimp only [HID_PERF_WRAP.WRAP]; omega)
  unfold State.evtPut
  dsimp only
  rw [State.rd_msix, State.rd_wr_ne _ _ (by dsimp only [HID_EVT_TAIL.TAIL]; omega)]
  split
  · rw [State.rd_wr_ne _ _ (by dsimp only [HID_EVT_TAIL.PHASE]; omega), State.rd_updHost, hwritten]
  · rw [State.rd_updHost, hwritten]

theorem State.rd_postEvent (s : State) (ty part sev : Nat) (payload : List Byte) : (s.postEvent f ty part sev payload).rd g = s.rd g := by
  have hflush : (s.evtFlush f).rd g = s.rd g := by
    unfold State.evtFlush
    dsimp only
    split
    · rfl
    · rw [State.rd_updHost, State.rd_evtPut hf hg]
  have hlose (t : State) : (t.evtLose f).rd g = t.rd g := by
    unfold aboveTel at hg
    exact t.rd_wr_ne _ (by dsimp only [HID_FN_ERR.EVLOST]; omega)
  unfold State.postEvent
  dsimp only
  split
  · split
    · rw [hlose, hflush]
    · rw [State.rd_evtPut hf hg, hflush]
  · rfl

end Event

theorem State.postPanel_logOnly (s : State) (ty part sev : Nat) (payload : List Byte) : LogOnly s (s.postPanel ty part sev payload) := by
  refine ⟨(s.postPanel_postOnly ty part sev payload).1, fun g hg => ?_⟩
  have hone {f : Nat} (hf : f < 16) (t : State) : (if t.bit (HID_FN_ID.EN f) then t.postEvent f ty part sev payload else t).rd g = t.rd g := by
    split
    · exact State.rd_postEvent hf hg ..
    · rfl
  exact (hone (by decide : 8 < 16) _).trans (hone (by decide : 0 < 16) s)

theorem State.logSpace_logOnly (s : State) : LogOnly s s.logSpace := by
  have hfill (t : State) (v : Nat) : LogOnly t (t.wr TEL_LOG_STAT.FILL v) := t.wr_logOnly (by dsimp only [TEL_LOG_STAT.FILL]; omega) v
  unfold State.logSpace
  dsimp only
  split
  · exact (((hfill s _).trans (State.setTel_logOnly ..)).trans (hfill _ _)).trans (State.postPanel_logOnly ..)
  · exact hfill s _

theorem State.logWrite_logOnly (s : State) (kind unit : Nat) (payload : List Byte) : LogOnly s (s.logWrite kind unit payload) := by
  have herase : LogOnly s s.logErase := by
    unfold State.logErase
    split
    · exact s.setTel_logOnly _
    · exact LogOnly.refl s
  unfold State.logWrite
  split
  · exact LogOnly.refl s
  · exact ((herase.trans (State.setTel_logOnly ..)).trans (State.wr_logOnly (by dsimp only [TEL_LOG_SEQ.SEQ]; omega) ..)).trans (State.logSpace_logOnly _)

/-! ### Repairs (R254, R255) -/

/-- The row is due no longer, and its corrected errors are forgotten. -/
def State.repairBegun (s : State) (n row : Nat) : State :=
  { s with store := { s.store with
    repairs := s.store.repairs.filter (fun (e : Nat × Nat) => decide (e ≠ (n, row)))
    ceRows := s.store.ceRows.filter (fun (e : Nat × Nat × Nat) => !(decide (e.1 = n) && decide (e.2.1 = row))) } }

/-- The row taken over by a spare one, counted and recorded. -/
def State.rowSpared (s : State) (n row : Nat) : State :=
  (((s.rowFresh n row).sat (MH_PPR_STAT.DONE (stackHub n)) 1).dayCount (40100 + n) 1).logRepair n row 0

/-- The soft repair noted, to be made permanent at start-up. -/
def State.noteSoft (s : State) (n row : Nat) : State := { s with store := { s.store with soft := s.store.soft ++ [(n, row)] } }

/-- The stack marked as one without a spare row. -/
def State.markNoSpare (s : State) (n : Nat) : State :=
  ((s.wr (MH_PPR_STAT.NOSPARE (stackHub n)) 1).wr (MH_STACK_STATE.NOSPARE n) 1).wr (MH_STACK_STATE.STATE n) 1

section Repair

variable {s : State} {n row : Nat} (hdue : s.store.repairs.find? (fun e => decide (e.1 = n)) = some (n, row)) (hen : s.bit (MH_PPR_CTL.EN (stackHub n)) = true)
  (hlost : s.stackLost n = false) (htraining : s.stackTraining n = false)
include hdue hen hlost htraining

theorem execPprRepair_spare : execPprRepair n true s = .next ((((s.repairBegun n row).rowSpared n row).noteSoft n row).pprBusy (stackHub n)) := by
  unfold execPprRepair
  dsimp only
  rw [hdue]
  dsimp only
  rw [hen, hlost, htraining]
  rfl

theorem execPprRepair_noSpare : execPprRepair n false s = .next (((s.repairBegun n row).markNoSpare n).pprBusy (stackHub n)) := by
  unfold execPprRepair
  dsimp only
  rw [hdue]
  dsimp only
  rw [hen, hlost, htraining]
  rfl

end Repair

theorem State.rowSpared_spec (s : State) (n row : Nat) : (s.rowSpared n row).mem = s.mem ∧ (s.rowSpared n row).store = s.store ∧
    ∀ f : Field, aboveTel f → f.key ≠ (MH_PPR_STAT.DONE (stackHub n)).key → (s.rowSpared n row).rd f = s.rd f := by
  have hlog := (((s.rowFresh n row).sat (MH_PPR_STAT.DONE (stackHub n)) 1).dayCount (40100 + n) 1).logWrite_logOnly 0x0C (0x0100 + n) (leBytes 8 row ++ leBytes 1 0)
  exact ⟨hlog.mem, hlog.store, fun f hf hne => (hlog.2 f hf).trans (State.rd_wr_ne (s.rowFresh n row) _ hne)⟩

/-- BUSY shows whether a repair goes on at a hub (R254, R266). -/
theorem State.bit_pprBusy (s : State) (k : Nat) : (s.pprBusy k).bit (MH_PPR_STAT.BUSY k) =
    (s.bit (MH_PPR_CTL.EN k) && s.store.repairs.any (fun e => decide (stackHub e.1 = k) && !s.stackLost e.1 && !s.stackTraining e.1)) :=
  State.bit_wr_b2n rfl ..

theorem repairable_congr {s t : State} {k : Nat} (hk : k < 24) (h : ∀ n < 48, t.rd (MH_STACK_STATE.STATE n) = s.rd (MH_STACK_STATE.STATE n)) :
    (fun e : Nat × Nat => decide (stackHub e.1 = k) && !t.stackLost e.1 && !t.stackTraining e.1) =
    (fun e : Nat × Nat => decide (stackHub e.1 = k) && !s.stackLost e.1 && !s.stackTraining e.1) := by
  funext e
  by_cases hhub : stackHub e.1 = k
  · have hstate := h e.1 (by unfold stackHub at hhub; omega)
    rw [State.stackLost, State.stackTraining, State.stackLost, State.stackTraining, hstate]
  · rw [decide_eq_false hhub]
    rfl

theorem State.spared_spec {s : State} {n row : Nat} (hn : n < 48) (hen : s.bit (MH_PPR_CTL.EN (stackHub n)) = true) :
    let rest := s.store.repairs.filter (fun e => decide (e ≠ (n, row)))
    let t := (((s.repairBegun n row).rowSpared n row).noteSoft n row).pprBusy (stackHub n)
    t.store.repairs = rest ∧ (n, row) ∈ t.store.soft ∧
      t.bit (MH_PPR_STAT.BUSY (stackHub n)) = rest.any (fun e => decide (stackHub e.1 = stackHub n) && !s.stackLost e.1 && !s.stackTraining e.1) ∧
      t.mem = s.mem ∧ t.rd (MH_STACK_STATE.STATE n) = s.rd (MH_STACK_STATE.STATE n) := by
  obtain ⟨hmem, hstore, hrd⟩ := (s.repairBegun n row).rowSpared_spec n row
  have hhub : stackHub n < 24 := by unfold stackHub; omega
  have hstate (m : Nat) : ((s.repairBegun n row).rowSpared n row).rd (MH_STACK_STATE.STATE m) = s.rd (MH_STACK_STATE.STATE m) :=
    hrd _ (by dsimp only [aboveTel, MH_STACK_STATE.STATE]; omega) (by dsimp only [MH_STACK_STATE.STATE, MH_PPR_STAT.DONE]; omega)
  have hable : (((s.repairBegun n row).rowSpared n row).noteSoft n row).bit (MH_PPR_CTL.EN (stackHub n)) = true :=
    (State.bit_eq_of_rd (hrd _ (by dsimp only [aboveTel, MH_PPR_CTL.EN]; omega) (by dsimp only [MH_PPR_CTL.EN, MH_PPR_STAT.DONE]; omega))).trans hen
  have hrepairs : (((s.repairBegun n row).rowSpared n row).noteSoft n row).store.repairs = s.store.repairs.filter (fun e => decide (e ≠ (n, row))) :=
    congrArg Store.repairs hstore
  refine ⟨hrepairs, List.mem_append_right _ (List.mem_singleton.mpr rfl), ?_, hmem, ?_⟩
  · rw [State.bit_pprBusy, hable, hrepairs, repairable_congr (s := s) (t := ((s.repairBegun n row).rowSpared n row).noteSoft n row) hhub fun m _ => hstate m]
    rfl
  · rw [State.rd_pprBusy_ne (by dsimp only [MH_STACK_STATE.STATE, MH_PPR_STAT.BUSY]; omega)]
    exact hstate n

theorem State.noSpare_spec {s : State} {n row : Nat} (hn : n < 48) : let t := ((s.repairBegun n row).markNoSpare n).pprBusy (stackHub n)
    t.store.repairs = s.store.repairs.filter (fun e => decide (e ≠ (n, row))) ∧ t.bit (MH_PPR_STAT.NOSPARE (stackHub n)) = true ∧
      t.rd (MH_STACK_STATE.NOSPARE n) = 1 ∧ t.rd (MH_STACK_STATE.STATE n) = 1 ∧ t.mem = s.mem := by
  have hhub : stackHub n < 24 := by unfold stackHub; omega
  refine ⟨rfl, ?_, ?_, ?_, rfl⟩
  · rw [State.bit_eq_of_rd (State.rd_pprBusy_ne (by dsimp only [MH_PPR_STAT.NOSPARE, MH_PPR_STAT.BUSY]; omega) _), State.markNoSpare,
      State.bit_wr_ne _ _ (by dsimp only [MH_PPR_STAT.NOSPARE, MH_STACK_STATE.STATE]; omega),
      State.bit_wr_ne _ _ (by dsimp only [MH_PPR_STAT.NOSPARE, MH_STACK_STATE.NOSPARE]; omega), State.bit_wr_same _ _ _ rfl]
    rfl
  · rw [State.rd_pprBusy_ne (by dsimp only [MH_STACK_STATE.NOSPARE, MH_PPR_STAT.BUSY]; omega), State.markNoSpare,
      State.rd_wr_ne _ _ (by dsimp only [MH_STACK_STATE.NOSPARE, MH_STACK_STATE.STATE]; omega), State.rd_wr_same]
    rfl
  · rw [State.rd_pprBusy_ne (by dsimp only [MH_STACK_STATE.STATE, MH_PPR_STAT.BUSY]; omega), State.markNoSpare, State.rd_wr_same]
    rfl

/-! ### Scrubbing (R251 to R253) -/

theorem edgeLocal_line (j a : Nat) : edgeLocal j (a / 64 * 64) = edgeLocal j a := by
  have hrow : edgeRow j (a / 64 * 64) = edgeRow j a := by unfold edgeRow; omega
  have hnum : edgePage j (a / 64 * 64) = edgePage j a := by unfold edgePage; omega
  rw [edgeLocal_eq, edgeLocal_eq, hrow, hnum]

/-- A line lies where each of its bytes lies. -/
theorem State.place_line (s : State) (a : Nat) : s.place (a / 64 * 64) = s.place a := by
  have hpage : a / 64 * 64 / 4096 = a / 4096 := by omega
  have hseg : s.segOf (a / 64 * 64) = s.segOf a := by
    unfold State.segOf State.segSize
    split <;> omega
  have hdata : a / 64 * 64 < parityBase ↔ a < parityBase := by unfold parityBase; omega
  have hstripe : stripeOf (a / 64 * 64) = stripeOf a := by
    have hparity : (a / 64 * 64 - parityBase) / 4096 = (a - parityBase) / 4096 := by unfold parityBase; omega
    unfold stripeOf
    simp only [hdata, hpage, hparity]
  unfold State.place
  simp only [hdata, hpage, hseg, hstripe, edgeLocal_line]

section Scrub

variable {s : State} {k a n : Nat} (hon : s.onHub k a = true) (hin : s.bit (MH_HUB_STAT.INSERVICE k) = true) (hplace : (s.place a).1 = n)
  (hst : s.rd (MH_STACK_STATE.STATE n) < 2)

include hon hin hplace hst in
theorem execHubScrub_reads : execHubScrub k a [] s = .next (s.lineRead (a / 64 * 64)).1 := by
  refine if_pos ?_
  show (s.onHub k a && s.bit (MH_HUB_STAT.INSERVICE k) && decide (s.rd (MH_STACK_STATE.STATE (s.place a).1) < 2)) = true
  rw [hon, hin, hplace, decide_eq_true hst]
  rfl

include hplace hst

theorem State.line_lives : s.stackLost (s.place (a / 64 * 64)).1 = false := by
  rw [s.place_line, hplace]
  exact State.stackLost_eq_false (by omega)

theorem State.line_serving : s.serving (a / 64 * 64) = n := by
  rw [State.serving_own (State.line_lives hplace hst), s.place_line, hplace]

/-- A line without an error is left as it is. -/
theorem State.scrub_clean (herr : s.lineErr a = 0) : (s.lineRead (a / 64 * 64)).1 = s := by
  rw [State.lineRead_good (State.line_lives hplace hst) (State.lineOwn_clean (s.lineErr_line a ▸ herr))]

/-- An error that the code corrects is counted, and the line is good again. -/
theorem State.scrub_single (herr : s.lineErr a = 1) (hcnt : s.rd (MH_CE_CNT.COUNT (stackHub n) (stackIdx n)) < 2 ^ 16 - 1) : let t := (s.lineRead (a / 64 * 64)).1
    t.rd (MH_CE_CNT.COUNT (stackHub n) (stackIdx n)) = s.rd (MH_CE_CNT.COUNT (stackHub n) (stackIdx n)) + 1 ∧ t.lineErr a = 0 ∧ t.mem = s.mem := by
  rw [State.lineRead_good (State.line_lives hplace hst) (State.lineOwn_single (s.lineErr_line a ▸ herr))]
  exact ⟨State.hubCe_count (State.line_serving hplace hst) hcnt, State.lineErr_lineFresh (by omega) _, (s.hubCe_hubOnly _).mem⟩

/-- One that it does not correct is recorded. -/
theorem State.scrub_failed (hn : n < 48) (herr : 2 ≤ s.lineErr a) (hp : s.pmode = false) : let t := (s.lineRead (a / 64 * 64)).1
    t.bit (MH_ERR_STAT.UE (stackHub n)) = true ∧ t.bit (MH_ERR_STAT.UE_FIXED (stackHub n)) = false ∧ t.mem = s.mem := by
  rw [State.lineRead_failed (State.line_lives hplace hst) (s.lineErr_line a ▸ herr) (State.rebuildLine_off hp _)]
  obtain ⟨hue, hfixed⟩ := State.hubUe_shows (State.line_serving hplace hst) hn false
  exact ⟨hue, hfixed, (s.hubUe_hubOnly ..).mem⟩

/-- In parity mode it is rebuilt from its stripe, and so recorded. -/
theorem State.scrub_rebuilt (hn : n < 48) (herr : 2 ≤ s.lineErr a) (hpar : s.hasParity (a / 64 * 64) = true)
    (hmates : ∀ x ∈ mates (a / 64 * 64), s.lineErr x = 0) : let t := (s.lineRead (a / 64 * 64)).1
    t.bit (MH_ERR_STAT.UE (stackHub n)) = true ∧ t.bit (MH_ERR_STAT.UE_FIXED (stackHub n)) = true ∧ t.lineErr a = 0 ∧ t.mem = s.mem := by
  rw [State.lineRead_rebuilt (State.line_lives hplace hst) (s.lineErr_line a ▸ herr) (State.rebuildLine_clean hpar hmates)]
  obtain ⟨hue, hfixed⟩ := State.hubUe_shows (State.line_serving hplace hst) hn true
  exact ⟨hue, hfixed, State.lineErr_lineFresh (by omega) _, (s.hubUe_hubOnly ..).mem⟩

end Scrub

/-! ### Faults and losses (R257 to R260) -/

section Training

variable {s : State} {n : Nat} (hst : s.rd (MH_STACK_STATE.STATE n) = 3) (hinit : s.store.initing = false)
include hst hinit

theorem State.training_idle : (s.stackTraining n && !s.store.initing) = true := by
  rw [State.stackTraining, hst, hinit]
  rfl

theorem execStackRetrained_serves : execStackRetrained n s =
    .next ((s.wr (MH_STACK_STATE.STATE n) (s.rd (MH_STACK_STATE.NOSPARE n))).release n heldServe) := if_pos (State.training_idle hst hinit)

theorem execStackRetrainTimeout_loses : execStackRetrainTimeout n s = .next (((s.release n (heldAnswer 7)).loseStack n).maskStack n) :=
  if_pos (State.training_idle hst hinit)

end Training

theorem execStackThermalTrip_loses {s : State} {n : Nat} (h : s.stackLost n = false) : execStackThermalTrip n s =
    .next (((s.loseStack n).maskStack n).release n (if s.pmode then heldServe else heldAnswer 8)) := if_neg (by rw [h]; exact Bool.false_ne_true)

/-- The state of a stack, and every register above those of the hubs, is left by a hub that shows its pools anew. -/
theorem State.rd_notePools_above {f : Field} (hf : ¬ofHubs f) {k : Nat} (hk : k < 24) (s : State) : (s.notePools k).rd f = s.rd f := by
  unfold ofHubs at hf
  exact State.rd_notePools_ne (by dsimp only [MH_STG_FULL.COUNT]; omega) (by dsimp only [MH_HUB_STAT.STG_BUSY]; omega) s

theorem stackHub_lt {n : Nat} (hn : n < 48) : stackHub n < 24 := by
  unfold stackHub
  omega

theorem state_not_ofHubs (n : Nat) : ¬ofHubs (MH_STACK_STATE.STATE n) := by
  dsimp only [ofHubs, MH_STACK_STATE.STATE]
  omega

/-- A stack lost and masked. -/
theorem State.lostMasked_state {n : Nat} (hn : n < 48) (s : State) : ((s.loseStack n).maskStack n).rd (MH_STACK_STATE.STATE n) = 2 := by
  rw [State.rd_maskStack_below (by dsimp only [belowDies, MH_STACK_STATE.STATE]; omega), State.loseStack_state hn]

theorem State.lostMasked_hubOnly (s : State) (n : Nat) : HubOnly s ((s.loseStack n).maskStack n) :=
  (s.loseStack_hubOnly n).trans (State.maskStack_regsOnly ..).hubOnly

theorem State.lostMasked_waiting (s : State) (n : Nat) : ((s.loseStack n).maskStack n).store.held = s.store.held ∧ ((s.loseStack n).maskStack n).store.ws = s.store.ws := by
  rw [(State.maskStack_regsOnly ..).store]
  exact s.loseStack_waiting n

theorem lostMask_low {n : Nat} (h : n < 32) (d : Nat) : lostMask d n = CD_STORE_LOST_LO.LOST d := if_pos h
theorem lostMask_high {n : Nat} (h : 32 ≤ n) (d : Nat) : lostMask d n = CD_STORE_LOST_HI.LOST d := if_neg (Nat.not_lt.mpr h)

section Idle

variable {s : State} {n : Nat} (hn : n < 48) (hheld : ∀ r ∈ s.store.held, r.stack ≠ n) (hws : s.store.ws = [])
include hn hheld hws

/-- A stack that trains again, nothing waiting for it. -/
theorem State.retrained_spec : let t := (s.wr (MH_STACK_STATE.STATE n) (s.rd (MH_STACK_STATE.NOSPARE n))).release n heldServe
    t.rd (MH_STACK_STATE.STATE n) = s.rd (MH_STACK_STATE.NOSPARE n) ∧ t.mem = s.mem ∧ t.out = s.out := by
  have hbit : s.rd (MH_STACK_STATE.NOSPARE n) < 2 := Nat.mod_lt _ (show 0 < 2 ^ 1 by decide)
  rw [State.release_idle (s := s.wr (MH_STACK_STATE.STATE n) (s.rd (MH_STACK_STATE.NOSPARE n))) hheld hws]
  refine ⟨?_, rfl, rfl⟩
  rw [State.rd_notePools_above (state_not_ofHubs n) (stackHub_lt hn), State.rd_wr_same]
  exact Nat.mod_eq_of_lt (show _ < 2 ^ 2 by omega)

/-- A stack that does not. -/
theorem State.retrainFailed_spec : let t := ((s.release n (heldAnswer 7)).loseStack n).maskStack n
    t.rd (MH_STACK_STATE.STATE n) = 2 ∧ t.mem = s.mem ∧ t.out = s.out ∧ ∀ d < 144, bitOf (t.rd (lostMask d n)) (n % 32) = true := by
  rw [State.release_idle hheld hws]
  have honly : HubOnly s (((s.notePools (stackHub n)).loseStack n).maskStack n) := (s.notePools_hubOnly _).trans (State.lostMasked_hubOnly ..)
  exact ⟨State.lostMasked_state hn _, honly.mem, honly.out, fun d hd => State.maskStack_marks hn hd _⟩

omit hn in
/-- After a trip only the hub's pools are shown anew. -/
theorem State.tripped_eq (f : HeldReq → State → State) : ((s.loseStack n).maskStack n).release n f = ((s.loseStack n).maskStack n).notePools (stackHub n) := by
  obtain ⟨hheld', hws'⟩ := s.lostMasked_waiting n
  exact State.release_idle (hheld' ▸ hheld) (hws'.trans hws) f

theorem State.tripped_spec (f : HeldReq → State → State) : let t := ((s.loseStack n).maskStack n).release n f
    t.rd (MH_STACK_STATE.STATE n) = 2 ∧ t.mem = s.mem ∧ t.out = s.out ∧ (∀ d < 144, bitOf (t.rd (lostMask d n)) (n % 32) = true) ∧
      ∀ g : Field, ¬ofHubs g → belowDies g → t.rd g = (s.loseStack n).rd g := by
  rw [State.tripped_eq hheld hws]
  have honly := (s.lostMasked_hubOnly n).trans (State.notePools_hubOnly _ (stackHub n))
  have hhub := stackHub_lt hn
  refine ⟨?_, honly.mem, honly.out, fun d hd => ?_, fun g hg hbelow => ?_⟩
  · rw [State.rd_notePools_above (state_not_ofHubs n) hhub, State.lostMasked_state hn]
  · rw [State.rd_notePools_above _ hhub]
    · exact State.maskStack_marks hn hd _
    · unfold lostMask
      split
      · dsimp only [ofHubs, CD_STORE_LOST_LO.LOST]; omega
      · dsimp only [ofHubs, CD_STORE_LOST_HI.LOST]; omega
  · rw [State.rd_notePools_above hg hhub, State.rd_maskStack_below hbelow]

end Idle

/-- The next stripe of a stack rebuilt (R260). -/
def State.stripeRebuilt (s : State) (n : Nat) : State :=
  let u := s.rebuildPage (n / 12) (stripeAt n (s.nextStripe n))
  { u with store := { u.store with
    built := Tab.set 0 u.store.built n (s.nextStripe n + 1)
    early := u.store.early.filter (fun (e : Nat × Nat) => !(decide (e.1 = n) && decide (e.2 ≤ stripeAt n (s.nextStripe n)))) } }

theorem execRebuildStripe_next {s : State} {n : Nat} (hp : s.pmode = true) (hgroup : s.rd (MH_PGRP_STATE.STATE (n / 12)) = 3) (hlives : s.stackLost n = false)
    (hrate : s.rd MH_RECON_CTL.RATE ≠ 0) (hnext : s.nextStripe n < stripesPerPos) : execRebuildStripe n s = .next ((s.stripeRebuilt n).progress (n / 12)) := by
  have hgoes : (s.pmode && decide (s.rd (MH_PGRP_STATE.STATE (n / 12)) = 3) && !s.stackLost n && decide (s.rd MH_RECON_CTL.RATE ≠ 0)) = true := by
    rw [hp, decide_eq_true hgroup, hlives, decide_eq_true hrate]
    rfl
  exact (if_pos hgoes).trans (if_neg (Nat.not_le.mpr hnext))

theorem State.stripeRebuilt_built (s : State) (n : Nat) : Tab.get 0 (s.stripeRebuilt n).store.built n = s.nextStripe n + 1 := by
  unfold State.stripeRebuilt
  dsimp only
  rw [Tab.get_set_same]

theorem State.stripeRebuilt_hubOnly (s : State) (n : Nat) : HubOnly s (s.stripeRebuilt n) := (s.rebuildPage_hubOnly ..).trans ⟨_, _, _, _, rfl⟩

/-! ### Memory that reads zero again (R249) -/

theorem Tab.get_filter_out {α : Type} (z : α) {k : Nat} {p : Nat × α → Bool} (hk : ∀ v, p (k, v) = false) (t : Tab α) : Tab.get z (t.filter p) k = z := by
  induction t with
  | nil => rfl
  | cons e t ih =>
    obtain ⟨j, v⟩ := e
    rw [List.filter_cons]
    split
    · next hp =>
      have hj : j ≠ k := by
        rintro rfl
        rw [hk v] at hp
        cases hp
      rw [Tab.get, if_neg hj, ih]
    · exact ih

/-- Bytes outside the range read as before. -/
theorem State.byte_zeroRange_outside {lo hi x : Nat} (hx : x < lo ∨ hi ≤ x) (s : State) : (s.zeroRange lo hi).byte x = s.byte x := by
  have hmem : Tab.get 0 (s.zeroRange lo hi).mem x = Tab.get 0 s.mem x :=
    Tab.get_filter (p := fun (e : Nat × Byte) => !(decide (lo ≤ e.1) && decide (e.1 < hi))) 0 (fun _ => by simp; omega) s.mem
  have hopens : (s.zeroRange lo hi).opens.find? (fun r => decide (r.lo ≤ x) && decide (x < r.hi)) = s.opens.find? (fun r => decide (r.lo ≤ x) && decide (x < r.hi)) := by
    refine (List.find?_filter ..).trans (congrArg (fun p => s.opens.find? p) (funext fun r => ?_))
    rw [Bool.eq_iff_iff]
    simp only [Bool.and_eq_true, Bool.not_eq_true', Bool.and_eq_false_iff, decide_eq_true_eq, decide_eq_false_iff_not]
    omega
  rw [State.byte, State.byte, hmem, State.unlisted, State.unlisted, hopens]

/-- Bytes inside it read zero, where no open range reaches past its end. -/
theorem State.byte_zeroRange_inside {hi x : Nat} {s : State} (hx : x < hi) (hopen : ∀ r ∈ s.opens, r.lo < hi → r.hi ≤ hi) : (s.zeroRange 0 hi).byte x = 0 := by
  have hmem : Tab.get 0 (s.zeroRange 0 hi).mem x = 0 :=
    Tab.get_filter_out (p := fun (e : Nat × Byte) => !(decide (0 ≤ e.1) && decide (e.1 < hi))) 0 (fun _ => by simp [hx]) s.mem
  have hopens : (s.zeroRange 0 hi).opens.find? (fun r => decide (r.lo ≤ x) && decide (x < r.hi)) = none := by
    refine List.find?_eq_none.mpr fun r hr hin => ?_
    obtain ⟨hmem, hstays⟩ := List.mem_filter.mp hr
    have hend := hopen r hmem
    simp only [Bool.and_eq_true, Bool.not_eq_true', Bool.and_eq_false_iff, decide_eq_true_eq, decide_eq_false_iff_not] at hstays hin
    omega
  rw [State.byte, hmem, State.unlisted, hopens]
  exact BitVec.xor_zero

/-! ### Initialisation (R249, R250) -/

/-- Every stack in training, the store not ready. -/
def State.trainAll (s : State) : State := forN 48 (fun m t => t.wr (MH_STACK_STATE.STATE m) 3) (s.wr MH_STORE_CFG.READY 0)
def State.initBegun (s : State) : State := { s.trainAll with store := { s.trainAll.store with initing := true } }

theorem execStoreInit_begins {s : State} (hfree : ∀ j, j < 48 → s.bit (MH_SEG_MAP.ASSIGNED j) = false) (hidle : s.storeTraffic = false) :
    execStoreInit .fw s = .next s.initBegun := by
  have hnone : (List.range 48).any (fun j => s.bit (MH_SEG_MAP.ASSIGNED j)) = false :=
    List.any_eq_false.mpr fun j hj => by rw [hfree j (List.mem_range.mp hj)]; exact Bool.false_ne_true
  refine if_neg ?_
  rw [hnone, hidle]
  exact Bool.false_ne_true

theorem execStoreInit_ignored {s : State} {src : Src} (h : src ≠ .fw ∨ s.storeTraffic = true) : execStoreInit src s = .next s := by
  refine if_pos ?_
  rcases h with h | h
  · rw [show fwOnly src = false from decide_eq_false h]
    rfl
  · rw [h, Bool.or_true]

theorem State.trainAll_regsOnly (s : State) : RegsOnly s s.trainAll :=
  forN_preserves (P := RegsOnly s) (fun _ _ ht => ht.trans (State.wr_regsOnly ..)) 48 (s.wr_regsOnly ..)

theorem State.trainAll_spec {n : Nat} (hn : n < 48) (s : State) : s.trainAll.bit MH_STORE_CFG.READY = false ∧ s.trainAll.rd (MH_STACK_STATE.STATE n) = 3 := by
  refine ⟨?_, ?_⟩
  · refine forN_preserves (P := fun t : State => t.bit MH_STORE_CFG.READY = false) (fun m t ht => ?_) 48 (State.bit_wr_same _ _ _ rfl)
    rw [State.bit_wr_ne _ _ (by dsimp only [MH_STORE_CFG.READY, MH_STACK_STATE.STATE]; omega), ht]
  · refine forN_establishes (P := fun _ => True) (Q := fun t : State => t.rd (MH_STACK_STATE.STATE n) = 3) hn (fun _ _ _ => trivial) (fun m t ht => ?_)
      (fun t _ => State.rd_wr_same ..) trivial
    by_cases hm : m = n
    · subst hm; exact State.rd_wr_same ..
    · rw [State.rd_wr_ne _ _ (by dsimp only [MH_STACK_STATE.STATE]; omega), ht]

theorem State.initBegun_spec {n : Nat} (hn : n < 48) (s : State) : s.initBegun.bit MH_STORE_CFG.READY = false ∧ s.initBegun.rd (MH_STACK_STATE.STATE n) = 3 ∧
    s.initBegun.store.initing = true ∧ s.initBegun.mem = s.mem := by
  obtain ⟨hready, hstate⟩ := s.trainAll_spec hn
  have hmem := s.trainAll_regsOnly.mem
  unfold State.initBegun
  generalize s.trainAll = t at hready hstate hmem ⊢
  exact ⟨hready, hstate, rfl, hmem⟩

/-- The store zeroed and forgotten, its mode and firmware area set. -/
def State.storeCleared (s : State) : State :=
  let t := s.zeroRange 0 0x024000000000
  (({ t with store := { t.store with initing := false, lost := [], built := [], early := [], ceRows := [], ueRows := [], repairs := [] } }).wr
    MH_STORE_CFG.PMODE (b2n (s.bit MH_STORE_CFG.PARITY))).wr MH_FW_AREA.BASE (if s.bit MH_STORE_CFG.PARITY then 0x020FC0000000 else 0x023FC0000000)

/-- A stack after its training. -/
def State.initStack (failed noSpare : List Nat) (n : Nat) (s : State) : State :=
  (s.wr (MH_STACK_STATE.NOSPARE n) (b2n (noSpare.contains n))).wr (MH_STACK_STATE.STATE n) (if failed.contains n then 2 else b2n (noSpare.contains n))

/-- A parity group after it, in parity mode and with it off. -/
def State.initParity (s : State) (g : Nat) : State :=
  let l := ((List.range 12).map (fun i => 12 * g + i)).filter s.stackLost
  let t := { s with store := { s.store with lost := Tab.set [] s.store.lost g l } }
  let u := ((t.wr (MH_PGRP_STATE.STATE g) (groupAfter t g)).wr (MH_PGRP_STATE.LOST_STACK g) (l.headD 0)).wr (MH_PGRP_PROG.STRIPE g) 0
  if l.length = 1 then u.progress g else u
def State.initGroup (par : Bool) (g : Nat) (s : State) : State :=
  if par then s.initParity g else ((s.wr (MH_PGRP_STATE.STATE g) 0).wr (MH_PGRP_STATE.LOST_STACK g) 0).wr (MH_PGRP_PROG.STRIPE g) 0

/-- No segment is assigned. -/
def State.freeSegs (s : State) : State := forN 48 (fun j t => t.wr (MH_SEG_MAP.ASSIGNED j) 0) s

theorem State.storeInited_eq (s : State) (failed noSpare : List Nat) : s.storeInited failed noSpare =
    (State.freeSegs (forN 4 (State.initGroup (s.bit MH_STORE_CFG.PARITY)) (forN 48 (State.initStack failed noSpare) s.storeCleared))).wr MH_STORE_CFG.READY 1 := rfl

/-! What each stage of it leaves. -/

theorem State.storeCleared_hubOnly (s : State) : HubOnly (s.zeroRange 0 0x024000000000) s.storeCleared := ⟨_, _, _, _, rfl⟩

theorem State.storeCleared_base (s : State) : s.storeCleared.rd MH_FW_AREA.BASE = if s.bit MH_STORE_CFG.PARITY then 0x020FC0000000 else 0x023FC0000000 := by
  rw [State.storeCleared, State.rd_wr_same]
  split <;> rfl

theorem State.initStack_regsOnly (s : State) (failed noSpare : List Nat) (n : Nat) : RegsOnly s (s.initStack failed noSpare n) :=
  (s.wr_regsOnly ..).trans (State.wr_regsOnly ..)

theorem State.rd_initStack_ne {f : Field} {n : Nat} (hstate : f.key ≠ (MH_STACK_STATE.STATE n).key) (hspare : f.key ≠ (MH_STACK_STATE.NOSPARE n).key) (s : State)
    (failed noSpare : List Nat) : (s.initStack failed noSpare n).rd f = s.rd f := by
  rw [State.initStack, State.rd_wr_ne _ _ hstate, s.rd_wr_ne _ hspare]

theorem State.initStack_state (s : State) (failed noSpare : List Nat) (n : Nat) :
    (s.initStack failed noSpare n).rd (MH_STACK_STATE.STATE n) = if n ∈ failed then 2 else if n ∈ noSpare then 1 else 0 := by
  rw [State.initStack, State.rd_wr_same]
  simp only [List.contains_iff_mem, b2n]
  split
  · rfl
  · split <;> rfl

theorem initStacks_state {n : Nat} (hn : n < 48) (failed noSpare : List Nat) (s : State) :
    (forN 48 (State.initStack failed noSpare) s).rd (MH_STACK_STATE.STATE n) = if n ∈ failed then 2 else if n ∈ noSpare then 1 else 0 := by
  refine forN_establishes (P := fun _ => True) (Q := fun t : State => t.rd (MH_STACK_STATE.STATE n) = if n ∈ failed then 2 else if n ∈ noSpare then 1 else 0)
    hn (fun _ _ _ => trivial) (fun m t ht => ?_) (fun t _ => t.initStack_state ..) trivial
  by_cases hm : m = n
  · subst hm; exact t.initStack_state ..
  · refine Eq.trans ?_ ht
    exact State.rd_initStack_ne (by dsimp only [MH_STACK_STATE.STATE]; omega) (by dsimp only [MH_STACK_STATE.STATE, MH_STACK_STATE.NOSPARE]; omega) ..

theorem State.initParity_spec (s : State) (g : Nat) : HubOnly s (s.initParity g) ∧ (s.initParity g).store.initing = s.store.initing ∧
    ∀ f : Field, f.key < 8 * 0x380300 → (s.initParity g).rd f = s.rd f := by
  unfold State.initParity
  dsimp only
  generalize hu : State.wr _ (MH_PGRP_PROG.STRIPE g) 0 = u
  have hshown : HubOnly s u ∧ u.store.initing = s.store.initing ∧ ∀ f : Field, f.key < 8 * 0x380300 → u.rd f = s.rd f := by
    subst hu
    refine ⟨⟨_, _, _, _, rfl⟩, rfl, fun f hf => ?_⟩
    rw [State.rd_wr_ne _ _ (by dsimp only [MH_PGRP_PROG.STRIPE]; omega), State.rd_wr_ne _ _ (by dsimp only [MH_PGRP_STATE.LOST_STACK]; omega),
      State.rd_wr_ne _ _ (by dsimp only [MH_PGRP_STATE.STATE]; omega)]
    rfl
  obtain ⟨honly, hinit, hrd⟩ := hshown
  split
  · refine ⟨honly.trans (u.progress_regsOnly g).hubOnly, ?_, fun f hf => ?_⟩
    · rw [(u.progress_regsOnly g).store, hinit]
    · rw [State.rd_progress_ne (by dsimp only [MH_PGRP_PROG.STRIPE]; omega) (by dsimp only [MH_PGRP_STATE.STATE]; omega), hrd f hf]
  · exact ⟨honly, hinit, hrd⟩

theorem State.initGroup_spec (s : State) (par : Bool) (g : Nat) : HubOnly s (s.initGroup par g) ∧ (s.initGroup par g).store.initing = s.store.initing ∧
    ∀ f : Field, f.key < 8 * 0x380300 → (s.initGroup par g).rd f = s.rd f := by
  cases par with
  | true => exact s.initParity_spec g
  | false =>
    refine ⟨⟨_, _, _, _, rfl⟩, rfl, fun f hf => ?_⟩
    show (((s.wr (MH_PGRP_STATE.STATE g) 0).wr (MH_PGRP_STATE.LOST_STACK g) 0).wr (MH_PGRP_PROG.STRIPE g) 0).rd f = s.rd f
    rw [State.rd_wr_ne _ _ (by dsimp only [MH_PGRP_PROG.STRIPE]; omega), State.rd_wr_ne _ _ (by dsimp only [MH_PGRP_STATE.LOST_STACK]; omega),
      State.rd_wr_ne _ _ (by dsimp only [MH_PGRP_STATE.STATE]; omega)]

theorem State.freeSegs_regsOnly (s : State) : RegsOnly s s.freeSegs :=
  forN_preserves (P := RegsOnly s) (fun _ _ ht => ht.trans (State.wr_regsOnly ..)) 48 (RegsOnly.refl s)

theorem State.rd_freeSegs_ne {f : Field} (hf : f.key < 8 * 0x380100 ∨ 8 * 0x3801C0 ≤ f.key) (s : State) : s.freeSegs.rd f = s.rd f :=
  forN_preserves_lt (P := fun t : State => t.rd f = s.rd f) (fun j hj t ht => (t.rd_wr_ne _ (by dsimp only [MH_SEG_MAP.ASSIGNED]; omega)).trans ht) rfl

theorem State.freeSegs_free {j : Nat} (hj : j < 48) (s : State) : s.freeSegs.bit (MH_SEG_MAP.ASSIGNED j) = false := by
  refine forN_establishes (P := fun _ => True) (Q := fun t : State => t.bit (MH_SEG_MAP.ASSIGNED j) = false) hj (fun _ _ _ => trivial) (fun i t ht => ?_)
    (fun t _ => State.bit_wr_same _ _ _ rfl) trivial
  by_cases hi : i = j
  · subst hi; exact State.bit_wr_same _ _ _ rfl
  · rw [State.bit_wr_ne _ _ (by dsimp only [MH_SEG_MAP.ASSIGNED]; omega), ht]

/-- A die's copies are registers of the die (R230, R236). -/
theorem State.storeCopies_regsOnly (s : State) (d : Nat) : RegsOnly s (s.storeCopies d) := by
  refine forN_preserves (P := RegsOnly s) (fun n t ht => ht.trans ?_) 48 ((forN_preserves (P := RegsOnly s) (fun _ _ ht => ht.trans ⟨_, rfl⟩) 48 (RegsOnly.refl s)).trans
    (State.wr_regsOnly ..))
  split
  · exact ⟨_, rfl⟩
  · exact ⟨_, rfl⟩

theorem State.rd_storeCopies_below {f : Field} (hf : belowDies f) (s : State) (d : Nat) : (s.storeCopies d).rd f = s.rd f := by
  unfold belowDies at hf
  refine forN_preserves (P := fun t : State => t.rd f = s.rd f) (fun n t ht => Eq.trans ?_ ht) 48 ?_
  · split
    · exact t.rd_wr_ne _ (by dsimp only [CD_STORE_LOST_LO.LOST]; omega)
    · exact t.rd_wr_ne _ (by dsimp only [CD_STORE_LOST_HI.LOST]; omega)
  · refine (State.rd_wr_ne _ _ (by dsimp only [CD_STORE_CFG.PMODE]; omega)).trans ?_
    refine forN_preserves (P := fun t : State => t.rd f = s.rd f) (fun j t ht => Eq.trans ?_ ht) 48 rfl
    rw [State.rd_wr_ne _ _ (by dsimp only [CD_SEG_MAP.OWNER]; omega), State.rd_wr_ne _ _ (by dsimp only [CD_SEG_MAP.MODE]; omega),
      State.rd_wr_ne _ _ (by dsimp only [CD_SEG_MAP.SHARED]; omega), State.rd_wr_ne _ _ (by dsimp only [CD_SEG_MAP.ASSIGNED]; omega)]

/-- Every die's copies made. -/
def State.copied (s : State) : State := forN 144 (fun d t => t.storeCopies d) s

theorem State.copied_regsOnly (s : State) : RegsOnly s s.copied :=
  forN_preserves (P := RegsOnly s) (fun d t ht => ht.trans (t.storeCopies_regsOnly d)) 144 (RegsOnly.refl s)

theorem State.rd_copied_below {f : Field} (hf : belowDies f) (s : State) : s.copied.rd f = s.rd f :=
  forN_preserves (P := fun t : State => t.rd f = s.rd f) (fun d t ht => (t.rd_storeCopies_below hf d).trans ht) 144 rfl

theorem execStoreInitComplete_ends {s : State} (h : s.store.initing = true) (failed noSpare : List Nat) :
    execStoreInitComplete failed noSpare s = .next (s.storeInited failed noSpare).copied := if_pos h

section Inited

variable (s : State) (failed noSpare : List Nat)

/-- The stacks and then the groups of the cleared store set. -/
def State.unitsInited : State := forN 4 (State.initGroup (s.bit MH_STORE_CFG.PARITY)) (forN 48 (State.initStack failed noSpare) s.storeCleared)

theorem State.unitsInited_spec : HubOnly s.storeCleared (s.unitsInited failed noSpare) ∧ (s.unitsInited failed noSpare).store.initing = false := by
  have hstacks : RegsOnly s.storeCleared (forN 48 (State.initStack failed noSpare) s.storeCleared) :=
    forN_preserves (P := RegsOnly s.storeCleared) (fun n t ht => ht.trans (t.initStack_regsOnly failed noSpare n)) 48 (RegsOnly.refl _)
  refine forN_preserves (P := fun t : State => HubOnly s.storeCleared t ∧ t.store.initing = false) (fun g t ht => ?_) 4 ⟨hstacks.hubOnly, ?_⟩
  · obtain ⟨honly, hinit, -⟩ := t.initGroup_spec (s.bit MH_STORE_CFG.PARITY) g
    exact ⟨ht.1.trans honly, hinit.trans ht.2⟩
  · rw [hstacks.store]
    rfl

theorem State.rd_unitsInited_low {f : Field} (hf : f.key < 8 * 0x380300) :
    (s.unitsInited failed noSpare).rd f = (forN 48 (State.initStack failed noSpare) s.storeCleared).rd f :=
  forN_preserves (P := fun t : State => t.rd f = (forN 48 (State.initStack failed noSpare) s.storeCleared).rd f)
    (fun g t ht => ((t.initGroup_spec (s.bit MH_STORE_CFG.PARITY) g).2.2 f hf).trans ht) 4 rfl

theorem State.storeInited_hubOnly : HubOnly (s.zeroRange 0 0x024000000000) (s.storeInited failed noSpare).copied := by
  have hunits := s.storeCleared_hubOnly.trans (s.unitsInited_spec failed noSpare).1
  have hfreed := hunits.trans (State.freeSegs_regsOnly _).hubOnly
  exact (hfreed.trans (State.wr_hubOnly _ MH_STORE_CFG.READY 1)).trans (State.copied_regsOnly _).hubOnly

theorem State.storeInited_initing : (s.storeInited failed noSpare).copied.store.initing = false := by
  rw [(State.copied_regsOnly _).store, State.storeInited_eq, State.wr_store, (State.freeSegs_regsOnly _).store]
  exact (s.unitsInited_spec failed noSpare).2

theorem State.storeInited_ready : (s.storeInited failed noSpare).copied.bit MH_STORE_CFG.READY = true := by
  rw [State.bit_eq_of_rd (State.rd_copied_below (by dsimp only [belowDies, MH_STORE_CFG.READY]; omega) _), State.storeInited_eq, State.bit_wr_same _ _ _ rfl]
  rfl

theorem State.storeInited_free {j : Nat} (hj : j < 48) : (s.storeInited failed noSpare).copied.bit (MH_SEG_MAP.ASSIGNED j) = false := by
  rw [State.bit_eq_of_rd (State.rd_copied_below (by dsimp only [belowDies, MH_SEG_MAP.ASSIGNED]; omega) _), State.storeInited_eq,
    State.bit_wr_ne _ _ (by dsimp only [MH_SEG_MAP.ASSIGNED, MH_STORE_CFG.READY]; omega)]
  exact State.freeSegs_free hj _

/-- A register below those of the groups, of the store's map apart, is left by all that follows the stacks. -/
theorem State.rd_storeInited {f : Field} (hf : f.key < 8 * 0x380300) (hmap : f.key < 8 * 0x380100 ∨ 8 * 0x3801C0 ≤ f.key) (hready : f.key ≠ MH_STORE_CFG.READY.key) :
    (s.storeInited failed noSpare).copied.rd f = (forN 48 (State.initStack failed noSpare) s.storeCleared).rd f := by
  rw [State.rd_copied_below (by unfold belowDies; omega), State.storeInited_eq, State.rd_wr_ne _ _ hready, State.rd_freeSegs_ne hmap]
  exact s.rd_unitsInited_low failed noSpare hf

theorem State.storeInited_state {n : Nat} (hn : n < 48) :
    (s.storeInited failed noSpare).copied.rd (MH_STACK_STATE.STATE n) = if n ∈ failed then 2 else if n ∈ noSpare then 1 else 0 := by
  rw [State.rd_storeInited s failed noSpare (by dsimp only [MH_STACK_STATE.STATE]; omega) (by dsimp only [MH_STACK_STATE.STATE]; omega)
    (by dsimp only [MH_STACK_STATE.STATE, MH_STORE_CFG.READY]; omega)]
  exact initStacks_state hn failed noSpare _

theorem State.storeInited_base :
    (s.storeInited failed noSpare).copied.rd MH_FW_AREA.BASE = if s.bit MH_STORE_CFG.PARITY then 0x020FC0000000 else 0x023FC0000000 := by
  rw [State.rd_storeInited s failed noSpare (by dsimp only [MH_FW_AREA.BASE]; omega) (by dsimp only [MH_FW_AREA.BASE]; omega)
    (by dsimp only [MH_FW_AREA.BASE, MH_STORE_CFG.READY]; omega), ← s.storeCleared_base]
  refine forN_preserves (P := fun t : State => t.rd MH_FW_AREA.BASE = s.storeCleared.rd MH_FW_AREA.BASE) (fun n t ht => Eq.trans ?_ ht) 48 rfl
  exact State.rd_initStack_ne (by dsimp only [MH_FW_AREA.BASE, MH_STACK_STATE.STATE]; omega) (by dsimp only [MH_FW_AREA.BASE, MH_STACK_STATE.NOSPARE]; omega) ..

end Inited

/-! ### Registers of rebuilding and of counts (R259, R264 to R266) -/

/-- A DEGRADED group rebuilds, every other is left. -/
def State.startGroup (g : Nat) (s : State) : State := if s.rd (MH_PGRP_STATE.STATE g) = 2 then s.wr (MH_PGRP_STATE.STATE g) 3 else s

theorem execReconStart_starts (s : State) : execReconStart .fw s = .next (forN 4 State.startGroup s) := rfl

theorem State.startGroup_regsOnly (s : State) (g : Nat) : RegsOnly s (s.startGroup g) := by
  unfold State.startGroup
  split
  · exact ⟨_, rfl⟩
  · exact RegsOnly.refl s

/-- What START makes of a group's state. -/
def afterStart (st : Nat) : Nat := if st = 2 then 3 else st

theorem State.startGroup_state (s : State) (g : Nat) : (s.startGroup g).rd (MH_PGRP_STATE.STATE g) = afterStart (s.rd (MH_PGRP_STATE.STATE g)) := by
  unfold State.startGroup afterStart
  split
  · exact State.rd_wr_same ..
  · rfl

theorem State.startGroup_state_ne {g h : Nat} (hne : h ≠ g) (s : State) : (s.startGroup h).rd (MH_PGRP_STATE.STATE g) = s.rd (MH_PGRP_STATE.STATE g) := by
  unfold State.startGroup
  split
  · exact s.rd_wr_ne _ (by dsimp only [MH_PGRP_STATE.STATE]; omega)
  · rfl

theorem afterStart_idem (st : Nat) : afterStart (afterStart st) = afterStart st := by
  unfold afterStart
  split
  · rfl
  · rfl

theorem startGroups_state {g : Nat} (hg : g < 4) (s : State) :
    (forN 4 State.startGroup s).rd (MH_PGRP_STATE.STATE g) = afterStart (s.rd (MH_PGRP_STATE.STATE g)) := by
  generalize hx : s.rd (MH_PGRP_STATE.STATE g) = x
  have hstep (h : Nat) (t : State) (ht : afterStart (t.rd (MH_PGRP_STATE.STATE g)) = afterStart x) :
      afterStart ((t.startGroup h).rd (MH_PGRP_STATE.STATE g)) = afterStart x := by
    by_cases hh : h = g
    · subst hh; rw [State.startGroup_state, afterStart_idem, ht]
    · rw [State.startGroup_state_ne hh, ht]
  refine forN_establishes (P := fun t : State => afterStart (t.rd (MH_PGRP_STATE.STATE g)) = afterStart x)
    (Q := fun t : State => t.rd (MH_PGRP_STATE.STATE g) = afterStart x) hg hstep (fun h t ht => ?_) (fun t ht => (t.startGroup_state g).trans ht) (by rw [hx])
  by_cases hh : h = g
  · subst hh; rw [State.startGroup_state, ht, afterStart_idem]
  · rw [State.startGroup_state_ne hh, ht]

/-- A hub's counts of corrected errors cleared. -/
def State.ceCleared (s : State) (k : Nat) : State :=
  (((s.wr (MH_CE_CNT.COUNT k 0) 0).wr (MH_CE_CNT.COUNT k 1) 0).wr (MH_ERR_STAT.CE_SAT0 k) 0).wr (MH_ERR_STAT.CE_SAT1 k) 0

theorem execHubCeClr_clears (s : State) (k : Nat) : execHubCeClr .fw k s = .next (s.ceCleared k) := rfl

theorem State.ceCleared_count (s : State) (k : Nat) : (s.ceCleared k).rd (MH_CE_CNT.COUNT k 0) = 0 ∧ (s.ceCleared k).rd (MH_CE_CNT.COUNT k 1) = 0 := by
  have hsat (t : State) {i : Nat} (hi : i < 2) : ((t.wr (MH_ERR_STAT.CE_SAT0 k) 0).wr (MH_ERR_STAT.CE_SAT1 k) 0).rd (MH_CE_CNT.COUNT k i) = t.rd (MH_CE_CNT.COUNT k i) := by
    rw [State.rd_wr_ne _ _ (by dsimp only [MH_CE_CNT.COUNT, MH_ERR_STAT.CE_SAT1]; omega),
      State.rd_wr_ne _ _ (by dsimp only [MH_CE_CNT.COUNT, MH_ERR_STAT.CE_SAT0]; omega)]
  refine ⟨?_, ?_⟩
  · rw [State.ceCleared, hsat _ (by decide), State.rd_wr_ne _ _ (by dsimp only [MH_CE_CNT.COUNT]; omega), State.rd_wr_same]
    rfl
  · rw [State.ceCleared, hsat _ (by decide), State.rd_wr_same]
    rfl

/-! ### The obligation -/

/-- Settles O34: a scrubbed line by its error; a due row by whether a spare is left; a stack's fault, end of training or trip by what is released, marked and
masked; a stripe by the pages that are read to rebuild it; and the initialisation stage by stage. -/
theorem storeStacksTrainFailRepairAndRebuild : Obligations.StoreStacksTrainFailRepairAndRebuild := by
  unfold Obligations.StoreStacksTrainFailRepairAndRebuild
  intro s n row a hn k g st
  refine ⟨fun hon hin hplace hst => ?_, fun hdue hen hlost htraining => ?_, fun hst => ?_, fun hst hinit => ⟨?_, ?_⟩, fun hlost => ?_,
    fun hst hinit hheld hws => ⟨?_, ?_⟩, fun hst hheld hws => ?_, fun hp hgroup hst hrate hnext => ?_, fun hfree hidle => ?_, fun htraffic => ?_, fun f => ?_,
    fun hinit hopen failed noSpare => ?_, ?_, ?_, fun f => ?_⟩
  -- a scrubbed line
  · rw [exec_hubScrub, execHubScrub_reads hon hin hplace hst]
    dsimp only
    refine ⟨fun herr => ?_, fun herr hcnt => ?_, fun herr hp => ?_, fun herr hpar hmates => ?_⟩
    · rw [State.scrub_clean hplace hst herr]
    · exact ⟨_, rfl, State.scrub_single hplace hst herr hcnt⟩
    · exact ⟨_, rfl, State.scrub_failed hplace hst hn herr hp⟩
    · exact ⟨_, rfl, State.scrub_rebuilt hplace hst hn herr hpar hmates⟩
  -- a due row, with a spare and without
  · rw [exec_pprRepair, exec_pprRepair, execPprRepair_spare hdue hen hlost htraining, execPprRepair_noSpare hdue hen hlost htraining]
    exact ⟨⟨_, rfl, State.spared_spec hn hen⟩, ⟨_, rfl, State.noSpare_spec hn⟩⟩
  -- faults, retraining and trips
  · rw [exec_stackFault, execStackFault, if_neg (by rw [State.stackLost_eq_false hst]; exact Bool.false_ne_true)]
  · rw [exec_stackRetrained, execStackRetrained_serves hst hinit]
  · rw [exec_stackRetrainTimeout, execStackRetrainTimeout_loses hst hinit]
  · rw [exec_stackThermalTrip, execStackThermalTrip_loses hlost]
  · rw [exec_stackRetrained, execStackRetrained_serves hst hinit]
    exact ⟨_, rfl, State.retrained_spec hn hheld hws⟩
  · obtain ⟨hstate, hmem, hout, hmask⟩ := State.retrainFailed_spec hn hheld hws
    rw [exec_stackRetrainTimeout, execStackRetrainTimeout_loses hst hinit]
    refine ⟨_, rfl, hstate, hmem, hout, fun hlow d hd => ?_⟩
    have hd := hmask d hd
    rwa [lostMask_low hlow, Nat.mod_eq_of_lt hlow] at hd
  · have hlost := State.stackLost_eq_false hst
    obtain ⟨hstate, hmem, hout, hmask, hrd⟩ := State.tripped_spec hn hheld hws (if s.pmode then heldServe else heldAnswer 8)
    rw [exec_stackThermalTrip, execStackThermalTrip_loses hlost]
    refine ⟨_, rfl, hstate, hmem, hout, fun hhigh d hd => ?_, fun hp hfirst hbuilt hearly hother => ?_⟩
    · have hd := hmask d hd
      rwa [lostMask_high hhigh, show n % 32 = n - 32 by omega] at hd
    · obtain ⟨m, hm, hne, hlives⟩ := hother
      have hgroup := State.loseStack_first hn hlost hp hfirst hbuilt hearly hm hne hlives
      rw [hrd (MH_PGRP_STATE.LOST_STACK g) (by dsimp only [ofHubs, MH_PGRP_STATE.LOST_STACK]; omega) (by dsimp only [belowDies, MH_PGRP_STATE.LOST_STACK]; omega),
        hrd (MH_PGRP_STATE.STATE g) (by dsimp only [ofHubs, MH_PGRP_STATE.STATE]; omega) (by dsimp only [belowDies, MH_PGRP_STATE.STATE]; omega)]
      exact hgroup
  -- a stripe rebuilt
  · have honly := (s.stripeRebuilt_hubOnly n).trans (State.progress_regsOnly _ (n / 12)).hubOnly
    rw [exec_rebuildStripe, execRebuildStripe_next hp hgroup (State.stackLost_eq_false hst) hrate hnext]
    refine ⟨_, rfl, ?_, honly.mem, honly.out⟩
    rw [(State.progress_regsOnly ..).store]
    exact s.stripeRebuilt_built n
  -- initialisation: its start, when it is ignored, and its end
  · rw [exec_storeInit, execStoreInit_begins hfree hidle]
    exact ⟨_, rfl, s.initBegun_spec hn⟩
  · rw [exec_storeInit, execStoreInit_ignored (.inr htraffic)]
  · rw [exec_storeInit, execStoreInit_ignored (.inl (by simp))]
  · have honly := s.storeInited_hubOnly failed noSpare
    rw [exec_storeInitComplete, execStoreInitComplete_ends hinit]
    refine ⟨_, rfl, s.storeInited_ready failed noSpare, s.storeInited_initing failed noSpare, fun x hx => ?_, fun x hx => ?_, s.storeInited_state failed noSpare hn,
      fun j hj => s.storeInited_free failed noSpare hj, s.storeInited_base failed noSpare⟩
    · rw [honly.byte, State.byte_zeroRange_inside hx hopen]
    · rw [honly.byte, State.byte_zeroRange_outside (.inr hx)]
  -- START, and the counts of corrected errors
  · have hstate := startGroups_state (show g < 4 by omega) s
    rw [exec_reconStart, execReconStart_starts]
    refine ⟨_, rfl, fun h => ?_, fun h => ?_, ?_⟩
    · rw [hstate, h]
      rfl
    · rw [hstate]
      exact if_neg h
    · exact (forN_preserves (P := RegsOnly s) (fun i t ht => ht.trans (t.startGroup_regsOnly i)) 4 (RegsOnly.refl s)).mem
  · obtain ⟨hlow, hhigh⟩ := s.ceCleared_count k
    rw [exec_hubCeClr, execHubCeClr_clears]
    exact ⟨_, rfl, hlow, hhigh, rfl⟩
  · rfl

end Sys2Proof.Machine

/-! PROOFS. The segment map and its copies in the dies (R230, R231), the arrays of the receive areas (R243 to R248, R264, R268) and REDUCE_REMOTE (R217). Settles
O35. -/

namespace Sys2Proof.Machine

/-! ### The segment map (R230, R231) -/

/-- Die `d`'s copy of segment `j` made. -/
def State.copySegTo (s : State) (j d : Nat) : State :=
  (((s.wr (CD_SEG_MAP.ASSIGNED d j) (s.rd (MH_SEG_MAP.ASSIGNED j))).wr (CD_SEG_MAP.SHARED d j) (s.rd (MH_SEG_MAP.SHARED j))).wr
    (CD_SEG_MAP.MODE d j) (s.rd (MH_SEG_MAP.MODE j))).wr (CD_SEG_MAP.OWNER d j) (s.rd (MH_SEG_MAP.OWNER j))

theorem State.copySeg_eq (s : State) (j : Nat) : s.copySeg j = forN 144 (fun d t => t.copySegTo j d) s := rfl

theorem State.copySegTo_regsOnly (s : State) (j d : Nat) : RegsOnly s (s.copySegTo j d) := ⟨_, rfl⟩

theorem State.copySeg_regsOnly (s : State) (j : Nat) : RegsOnly s (s.copySeg j) :=
  forN_preserves (P := RegsOnly s) (fun d t ht => ht.trans (t.copySegTo_regsOnly j d)) 144 (RegsOnly.refl s)

/-- A die's copy has other keys than field `f`. -/
theorem State.rd_copySegTo_ne {f : Field} {j d : Nat} (ha : f.key ≠ (CD_SEG_MAP.ASSIGNED d j).key) (hs : f.key ≠ (CD_SEG_MAP.SHARED d j).key)
    (hm : f.key ≠ (CD_SEG_MAP.MODE d j).key) (ho : f.key ≠ (CD_SEG_MAP.OWNER d j).key) (s : State) : (s.copySegTo j d).rd f = s.rd f := by
  rw [State.copySegTo, State.rd_wr_ne _ _ ho, State.rd_wr_ne _ _ hm, State.rd_wr_ne _ _ hs, State.rd_wr_ne _ _ ha]

theorem State.rd_copySegTo_below {f : Field} (hf : belowDies f) (s : State) (j d : Nat) : (s.copySegTo j d).rd f = s.rd f := by
  unfold belowDies at hf
  exact s.rd_copySegTo_ne (by dsimp only [CD_SEG_MAP.ASSIGNED]; omega) (by dsimp only [CD_SEG_MAP.SHARED]; omega) (by dsimp only [CD_SEG_MAP.MODE]; omega)
    (by dsimp only [CD_SEG_MAP.OWNER]; omega)

theorem State.rd_copySeg_below {f : Field} (hf : belowDies f) (s : State) (j : Nat) : (s.copySeg j).rd f = s.rd f :=
  forN_preserves (P := fun t : State => t.rd f = s.rd f) (fun d t ht => (t.rd_copySegTo_below hf j d).trans ht) 144 rfl

/-- What a register reads fits its width. -/
theorem State.rd_lt (s : State) (f : Field) : s.rd f < 2 ^ f.w := Nat.mod_lt _ (Nat.two_pow_pos f.w)

/-- Die `x`'s copy of segment `j` says owner `o` and mode `m`. -/
def copySays (j x o m : Nat) (t : State) : Prop := t.rd (CD_SEG_MAP.OWNER x j) = o ∧ t.rd (CD_SEG_MAP.MODE x j) = m

theorem State.copySegTo_says (s : State) (j x : Nat) : copySays j x (s.rd (MH_SEG_MAP.OWNER j)) (s.rd (MH_SEG_MAP.MODE j)) (s.copySegTo j x) := by
  refine ⟨(State.rd_wr_same _ _ _).trans (Nat.mod_eq_of_lt (s.rd_lt _)), ?_⟩
  rw [State.copySegTo, State.rd_wr_ne _ _ (by dsimp only [CD_SEG_MAP.MODE, CD_SEG_MAP.OWNER]; omega), State.rd_wr_same]
  exact Nat.mod_eq_of_lt (s.rd_lt _)

/-- Another die's copy being made leaves it. -/
theorem copySays_copySegTo {j x d o m : Nat} {t : State} (_hj : j < 48) (hd : d ≠ x) (h : copySays j x o m t) : copySays j x o m (t.copySegTo j d) := by
  obtain ⟨ho, hm⟩ := h
  constructor
  · rw [State.rd_copySegTo_ne (by dsimp only [CD_SEG_MAP.ASSIGNED, CD_SEG_MAP.OWNER]; omega) (by dsimp only [CD_SEG_MAP.SHARED, CD_SEG_MAP.OWNER]; omega)
      (by dsimp only [CD_SEG_MAP.MODE, CD_SEG_MAP.OWNER]; omega) (by dsimp only [CD_SEG_MAP.OWNER]; omega), ho]
  · rw [State.rd_copySegTo_ne (by dsimp only [CD_SEG_MAP.ASSIGNED, CD_SEG_MAP.MODE]; omega) (by dsimp only [CD_SEG_MAP.SHARED, CD_SEG_MAP.MODE]; omega)
      (by dsimp only [CD_SEG_MAP.MODE]; omega) (by dsimp only [CD_SEG_MAP.OWNER, CD_SEG_MAP.MODE]; omega), hm]

theorem belowDies_segMap {j : Nat} (hj : j < 48) :
    belowDies (MH_SEG_MAP.ASSIGNED j) ∧ belowDies (MH_SEG_MAP.SHARED j) ∧ belowDies (MH_SEG_MAP.MODE j) ∧ belowDies (MH_SEG_MAP.OWNER j) := by
  refine ⟨?_, ?_, ?_, ?_⟩
  · dsimp only [belowDies, MH_SEG_MAP.ASSIGNED]; omega
  · dsimp only [belowDies, MH_SEG_MAP.SHARED]; omega
  · dsimp only [belowDies, MH_SEG_MAP.MODE]; omega
  · dsimp only [belowDies, MH_SEG_MAP.OWNER]; omega

/-- The map of segment `j` says owner `o` and mode `m`. -/
def mapSays (j o m : Nat) (t : State) : Prop := t.rd (MH_SEG_MAP.OWNER j) = o ∧ t.rd (MH_SEG_MAP.MODE j) = m

theorem mapSays_copySegTo {j o m : Nat} {t : State} (hj : j < 48) (d : Nat) (h : mapSays j o m t) : mapSays j o m (t.copySegTo j d) := by
  obtain ⟨_, _, hmode, howner⟩ := belowDies_segMap hj
  exact ⟨(t.rd_copySegTo_below howner j d).trans h.1, (t.rd_copySegTo_below hmode j d).trans h.2⟩

theorem copySays_of_mapSays {j o m : Nat} {t : State} (x : Nat) (h : mapSays j o m t) : copySays j x o m (t.copySegTo j x) := by
  obtain ⟨rfl, rfl⟩ := h
  exact t.copySegTo_says j x

/-- Every die's copy says what the map says (R230, R267). -/
theorem State.copySeg_says {j x : Nat} (hj : j < 48) (hx : x < 144) (s : State) :
    copySays j x (s.rd (MH_SEG_MAP.OWNER j)) (s.rd (MH_SEG_MAP.MODE j)) (s.copySeg j) := by
  refine (forN_establishes (P := mapSays j _ _) (Q := fun t => mapSays j _ _ t ∧ copySays j x _ _ t) hx (fun d t h => mapSays_copySegTo hj d h)
    (fun d t h => ⟨mapSays_copySegTo hj d h.1, ?_⟩) (fun t h => ⟨mapSays_copySegTo hj x h, copySays_of_mapSays x h⟩) ⟨rfl, rfl⟩).2
  by_cases hd : d = x
  · subst hd
    exact copySays_of_mapSays d h.1
  · exact copySays_copySegTo hj hd h.2

/-- The state once a write of segment `j`'s MODE is taken, refused (R231) or is no change. -/
def State.segModed (s : State) (j mode : Nat) : State :=
  let old := s.rd (MH_SEG_MAP.MODE j)
  let bad := (decide (mode ≠ old) && s.bit (MH_SEG_MAP.ASSIGNED j)) || (decide (mode = 1) && s.pmode)
  let s := if bad then s.wr MH_STORE_CFG.MODE_ERR 1 else s
  if !bad && decide (mode ≠ old) then (s.openRange (j * s.segSize) ((j + 1) * s.segSize)).wr (MH_SEG_MAP.MODE j) mode else s

/-- The map written over it, before the copies. -/
def State.segMapped (s : State) (j assigned shared owner : Nat) : State :=
  ((s.wr (MH_SEG_MAP.ASSIGNED j) assigned).wr (MH_SEG_MAP.SHARED j) shared).wr (MH_SEG_MAP.OWNER j) owner

theorem State.setSeg_eq (s : State) (j assigned shared mode owner : Nat) :
    s.setSeg j assigned shared mode owner = ((s.segModed j mode).segMapped j assigned shared owner).copySeg j := rfl

theorem State.segModed_refused {s : State} {j mode : Nat} (ha : s.bit (MH_SEG_MAP.ASSIGNED j) = true) (hm : mode ≠ s.rd (MH_SEG_MAP.MODE j)) :
    s.segModed j mode = s.wr MH_STORE_CFG.MODE_ERR 1 := by
  simp [State.segModed, ha, hm]

theorem State.segModed_same {s : State} {j : Nat} (hp : s.pmode = false) : s.segModed j (s.rd (MH_SEG_MAP.MODE j)) = s := by
  simp [State.segModed, hp]

theorem State.segModed_changed {s : State} {j mode : Nat} (ha : s.bit (MH_SEG_MAP.ASSIGNED j) = false) (hp : s.pmode = false) (hm : mode ≠ s.rd (MH_SEG_MAP.MODE j)) :
    s.segModed j mode = (s.openRange (j * s.segSize) ((j + 1) * s.segSize)).wr (MH_SEG_MAP.MODE j) mode := by
  simp [State.segModed, ha, hp, hm]

/-- Bytes outside a range that is opened read as before. -/
theorem State.byte_openRange_outside {lo hi x : Nat} (hx : x < lo ∨ hi ≤ x) (s : State) : (s.openRange lo hi).byte x = s.byte x := by
  refine Eq.trans ?_ (State.byte_zeroRange_outside hx s)
  have hout : (decide (lo ≤ x) && decide (x < hi)) = false := by
    rw [Bool.and_eq_false_iff, decide_eq_false_iff_not, decide_eq_false_iff_not]
    omega
  have hopens : (s.openRange lo hi).opens.find? (fun r => decide (r.lo ≤ x) && decide (x < r.hi)) =
      (s.zeroRange lo hi).opens.find? (fun r => decide (r.lo ≤ x) && decide (x < r.hi)) := List.find?_cons_of_neg (by simp only [hout]; decide)
  rw [State.byte, State.byte, State.unlisted, State.unlisted, hopens]
  rfl

section Mapped
variable {j : Nat} (s : State) (assigned shared mode owner : Nat)

theorem State.segMapped_regsOnly : RegsOnly s (s.segMapped j assigned shared owner) := ⟨_, rfl⟩

/-- The map's fields stand beside MODE and the store's registers. -/
theorem State.rd_segMapped_ne {f : Field} (ha : f.key ≠ (MH_SEG_MAP.ASSIGNED j).key) (hs : f.key ≠ (MH_SEG_MAP.SHARED j).key) (ho : f.key ≠ (MH_SEG_MAP.OWNER j).key) :
    (s.segMapped j assigned shared owner).rd f = s.rd f := by
  rw [State.segMapped, State.rd_wr_ne _ _ ho, State.rd_wr_ne _ _ hs, State.rd_wr_ne _ _ ha]

theorem State.rd_segMapped_map : (s.segMapped j assigned shared owner).rd (MH_SEG_MAP.ASSIGNED j) = assigned % 2 ∧
    (s.segMapped j assigned shared owner).rd (MH_SEG_MAP.SHARED j) = shared % 2 ∧ (s.segMapped j assigned shared owner).rd (MH_SEG_MAP.OWNER j) = owner % 16 := by
  refine ⟨?_, ?_, State.rd_wr_same _ _ _⟩
  · rw [State.segMapped, State.rd_wr_ne _ _ (by dsimp only [MH_SEG_MAP.ASSIGNED, MH_SEG_MAP.OWNER]; omega),
      State.rd_wr_ne _ _ (by dsimp only [MH_SEG_MAP.ASSIGNED, MH_SEG_MAP.SHARED]; omega)]
    exact State.rd_wr_same _ _ _
  · rw [State.segMapped, State.rd_wr_ne _ _ (by dsimp only [MH_SEG_MAP.SHARED, MH_SEG_MAP.OWNER]; omega)]
    exact State.rd_wr_same _ _ _

theorem State.rd_segMapped_mode : (s.segMapped j assigned shared owner).rd (MH_SEG_MAP.MODE j) = s.rd (MH_SEG_MAP.MODE j) :=
  s.rd_segMapped_ne _ _ _ (by dsimp only [MH_SEG_MAP.ASSIGNED, MH_SEG_MAP.MODE]; omega) (by dsimp only [MH_SEG_MAP.SHARED, MH_SEG_MAP.MODE]; omega)
    (by dsimp only [MH_SEG_MAP.OWNER, MH_SEG_MAP.MODE]; omega)

theorem State.rd_segMapped_modeErr : (s.segMapped j assigned shared owner).rd MH_STORE_CFG.MODE_ERR = s.rd MH_STORE_CFG.MODE_ERR :=
  s.rd_segMapped_ne _ _ _ (by dsimp only [MH_SEG_MAP.ASSIGNED, MH_STORE_CFG.MODE_ERR]; omega) (by dsimp only [MH_SEG_MAP.SHARED, MH_STORE_CFG.MODE_ERR]; omega)
    (by dsimp only [MH_SEG_MAP.OWNER, MH_STORE_CFG.MODE_ERR]; omega)

/-- Behind the mode, the rest of a map write is registers. -/
theorem State.setSeg_regsOnly : RegsOnly (s.segModed j mode) (s.setSeg j assigned shared mode owner) := by
  rw [State.setSeg_eq]
  exact (State.segMapped_regsOnly ..).trans (State.copySeg_regsOnly ..)

/-- The map reads what was written, the mode what was taken, and the copies follow (R230). -/
theorem State.setSeg_map (hj : j < 48) : let t := s.setSeg j assigned shared mode owner
    t.rd (MH_SEG_MAP.ASSIGNED j) = assigned % 2 ∧ t.rd (MH_SEG_MAP.SHARED j) = shared % 2 ∧ t.rd (MH_SEG_MAP.OWNER j) = owner % 16 ∧
      t.rd (MH_SEG_MAP.MODE j) = (s.segModed j mode).rd (MH_SEG_MAP.MODE j) ∧ t.rd MH_STORE_CFG.MODE_ERR = (s.segModed j mode).rd MH_STORE_CFG.MODE_ERR := by
  obtain ⟨hassigned, hshared, hmode, howner⟩ := belowDies_segMap hj
  obtain ⟨ha, hs, ho⟩ := (s.segModed j mode).rd_segMapped_map (j := j) assigned shared owner
  rw [State.setSeg_eq]
  exact ⟨(State.rd_copySeg_below hassigned _ j).trans ha, (State.rd_copySeg_below hshared _ j).trans hs, (State.rd_copySeg_below howner _ j).trans ho,
    (State.rd_copySeg_below hmode _ j).trans (State.rd_segMapped_mode ..),
    (State.rd_copySeg_below (by dsimp only [belowDies, MH_STORE_CFG.MODE_ERR]; decide) _ j).trans (State.rd_segMapped_modeErr ..)⟩

theorem State.setSeg_copies (hj : j < 48) {x : Nat} (hx : x < 144) : let t := s.setSeg j assigned shared mode owner
    copySays j x (t.rd (MH_SEG_MAP.OWNER j)) (t.rd (MH_SEG_MAP.MODE j)) t := by
  obtain ⟨_, _, hmode, howner⟩ := belowDies_segMap hj
  rw [State.setSeg_eq]
  dsimp only
  rw [State.rd_copySeg_below hmode, State.rd_copySeg_below howner]
  exact State.copySeg_says hj hx _

end Mapped

theorem bitsOf_mod (x lo w : Nat) : bitsOf x lo w % 2 ^ w = bitsOf x lo w := Nat.mod_mod _ _

theorem execSegMapWrite_fw {j : Nat} (hj : j < 48) (v : W32) (s : State) : execSegMapWrite .fw j v s =
    .next (s.setSeg j (bitsOf v.toNat 0 1) (bitsOf v.toNat 1 1) (bitsOf v.toNat 2 1) (bitsOf v.toNat 4 4)) :=
  if_pos (by rw [decide_eq_true hj]; rfl)

/-- A write of segment `j`'s map by firmware (R230, R231). -/
def SegMapWritten (s : State) (j : Nat) (v : W32) (t : State) : Prop :=
  let b := fun (i w : Nat) => bitsOf v.toNat i w
  t.rd (MH_SEG_MAP.ASSIGNED j) = b 0 1 ∧ t.rd (MH_SEG_MAP.SHARED j) = b 1 1 ∧
  t.rd (MH_SEG_MAP.OWNER j) = b 4 4 ∧ (∀ x, x < 144 → t.rd (CD_SEG_MAP.OWNER x j) = b 4 4 ∧ t.rd (CD_SEG_MAP.MODE x j) = t.rd (MH_SEG_MAP.MODE j)) ∧
  (s.bit (MH_SEG_MAP.ASSIGNED j) = true → b 2 1 ≠ s.rd (MH_SEG_MAP.MODE j) → t.rd (MH_SEG_MAP.MODE j) = s.rd (MH_SEG_MAP.MODE j) ∧
    t.rd MH_STORE_CFG.MODE_ERR = 1 ∧ t.mem = s.mem) ∧
  (s.bit (MH_SEG_MAP.ASSIGNED j) = false → s.pmode = false → t.rd (MH_SEG_MAP.MODE j) = b 2 1 ∧
    (b 2 1 = s.rd (MH_SEG_MAP.MODE j) → t.mem = s.mem) ∧
    ∀ x, x < j * s.segSize ∨ (j + 1) * s.segSize ≤ x → (∀ r ∈ s.opens, ¬(r.lo ≤ x ∧ x < r.hi)) → t.byte x = s.byte x)

theorem segMapWritten {j : Nat} (hj : j < 48) (v : W32) (s : State) : ∃ t, execSegMapWrite .fw j v s = .next t ∧ SegMapWritten s j v t := by
  refine ⟨_, execSegMapWrite_fw hj v s, ?_⟩
  have hregs := s.setSeg_regsOnly (j := j) (bitsOf v.toNat 0 1) (bitsOf v.toNat 1 1) (bitsOf v.toNat 2 1) (bitsOf v.toNat 4 4)
  have hcopies (x : Nat) (hx : x < 144) := s.setSeg_copies (bitsOf v.toNat 0 1) (bitsOf v.toNat 1 1) (bitsOf v.toNat 2 1) (bitsOf v.toNat 4 4) hj hx
  obtain ⟨hassigned, hshared, howner, hmode, herr⟩ := s.setSeg_map (bitsOf v.toNat 0 1) (bitsOf v.toNat 1 1) (bitsOf v.toNat 2 1) (bitsOf v.toNat 4 4) hj
  replace howner := howner.trans (bitsOf_mod v.toNat 4 4)
  refine ⟨hassigned.trans (bitsOf_mod v.toNat 0 1), hshared.trans (bitsOf_mod v.toNat 1 1), howner, fun x hx => ?_, fun ha hm => ?_, fun ha hp => ?_⟩
  · obtain ⟨ho, hm⟩ := hcopies x hx
    exact ⟨ho.trans howner, hm⟩
  · rw [State.segModed_refused ha hm] at hregs hmode herr
    refine ⟨hmode.trans (State.rd_wr_ne _ _ (by dsimp only [MH_SEG_MAP.MODE, MH_STORE_CFG.MODE_ERR]; omega)), herr.trans (State.rd_wr_same _ _ _), hregs.mem⟩
  · by_cases hm : bitsOf v.toNat 2 1 = s.rd (MH_SEG_MAP.MODE j)
    · have hsame : s.segModed j (bitsOf v.toNat 2 1) = s := hm ▸ State.segModed_same hp
      rw [hsame] at hregs hmode
      exact ⟨hmode.trans hm.symm, fun _ => hregs.mem, fun x _ _ => hregs.hubOnly.byte x⟩
    · rw [State.segModed_changed ha hp hm] at hregs hmode
      refine ⟨hmode.trans ((State.rd_wr_same _ _ _).trans (bitsOf_mod v.toNat 2 1)), fun h => absurd h hm, fun x hx _ => ?_⟩
      exact (((State.wr_regsOnly ..).trans hregs).hubOnly.byte x).trans (State.byte_openRange_outside hx s)

/-! ### The receive areas (R243 to R248, R264, R268) -/

/-- Fields that stand below the receive areas' registers: the store's and the segments' are. -/
def belowAreas (f : Field) : Prop := f.key < 8 * 0x381000

/-- Whether an array may be enabled rests on the mode of the store, the firmware area and the segments that are shared (R244). -/
theorem State.rxaArrayOk_congr {s t : State} (h : ∀ f, belowAreas f → t.rd f = s.rd f) (a n : Nat) : t.rxaArrayOk a n = s.rxaArrayOk a n := by
  have hpmode : t.pmode = s.pmode := State.bit_eq_of_rd (h _ (by dsimp only [belowAreas, MH_STORE_CFG.PMODE]; decide))
  have hsize : t.segSize = s.segSize := by rw [State.segSize, State.segSize, hpmode]
  have hin : t.inStore a n = s.inStore a n := by rw [State.inStore, State.inStore, State.storeSize, State.storeSize, hsize]
  have hbase : t.rd MH_FW_AREA.BASE = s.rd MH_FW_AREA.BASE := h _ (by dsimp only [belowAreas, MH_FW_AREA.BASE]; decide)
  unfold State.rxaArrayOk
  rw [State.segOf, State.segOf, hsize, hin, hbase]
  by_cases hplace : s.inStore a n = true ∧ 0 < n
  · obtain ⟨hstore, hn⟩ := hplace
    rw [State.inStore_iff] at hstore
    have hseg : s.segOf a < 48 := Nat.div_lt_of_lt_mul (by rw [Nat.mul_comm]; omega)
    rw [State.segOf] at hseg
    have hshared : t.bit (MH_SEG_MAP.SHARED (a / s.segSize)) = s.bit (MH_SEG_MAP.SHARED (a / s.segSize)) :=
      State.bit_eq_of_rd (h _ (by dsimp only [belowAreas, MH_SEG_MAP.SHARED]; omega))
    rw [hshared]
    rfl
  · have hno : (s.inStore a n && decide (0 < n)) = false := by
      rw [Bool.eq_false_iff, Ne, Bool.and_eq_true, decide_eq_true_eq]
      exact hplace
    rw [hno]
    rfl

/-- May both arrays of area `n` be enabled (R244)? -/
def State.rxaOk (s : State) (n : Nat) : Bool :=
  s.rxaArrayOk (s.rd (MH_RXA_HDR.BASE n)) (64 * s.rxaSlots n) && s.rxaArrayOk (s.rd (MH_RXA_DATA.BASE n)) (4096 * s.rxaSlots n)

section Full
variable {n : Nat} (s : State)

/-- FULL says whether as many slots are taken as there are (R247). -/
theorem State.bit_rxaFull : (s.rxaFull n).bit (MH_RXA_STAT.FULL n) =
    decide ((s.rd (MH_RXA_WR.WR_IDX n) + 2 ^ 32 - s.rd (MH_RXA_RD.RD_IDX n)) % 2 ^ 32 = s.rxaSlots n) := State.bit_wr_b2n rfl _ _

/-- Only FULL and its count follow. -/
theorem State.rd_rxaFull_ne {f : Field} (hfull : f.key ≠ (MH_RXA_STAT.FULL n).key) (hcnt : f.key ≠ (MH_RXA_STAT.FULLCNT n).key) : (s.rxaFull n).rd f = s.rd f := by
  unfold State.rxaFull
  rw [State.rd_wr_ne _ _ hfull]
  split
  · exact s.rd_wr_ne _ hcnt
  · rfl

theorem State.rxaFull_regsOnly : RegsOnly s (s.rxaFull n) := by
  refine RegsOnly.trans ?_ (State.wr_regsOnly ..)
  split
  · exact State.wr_regsOnly ..
  · exact RegsOnly.refl s

end Full

theorem RegsOnly.host {s t : State} (h : RegsOnly s t) : t.host = s.host := by
  obtain ⟨r, rfl⟩ := h
  rfl

/-- LOG2N as it is taken from a written word (R243). -/
def rxaLog (v : W32) : Nat := if 8 ≤ bitsOf v.toNat 4 5 ∧ bitsOf v.toNat 4 5 ≤ 16 then bitsOf v.toNat 4 5 else 8

theorem rxaLog_mod (v : W32) : rxaLog v % 2 ^ 5 = rxaLog v := by
  unfold rxaLog
  split
  · exact bitsOf_mod v.toNat 4 5
  · rfl

/-- NOTIFY, LOG2N and FUNC of area `n` written. -/
def State.rxaSet (s : State) (n : Nat) (v : W32) : State :=
  ((s.wr (MH_RXA_CTL.NOTIFY n) (bitsOf v.toNat 1 1)).wr (MH_RXA_CTL.LOG2N n) (rxaLog v)).wr (MH_RXA_CTL.FUNC n) (bitsOf v.toNat 12 4)

/-- WR_IDX and the notice that is due cleared. -/
def State.rxaCleared (s : State) (n : Nat) : State := (s.wr (MH_RXA_WR.WR_IDX n) 0).updHost (fun h => { h with rxaDue := Tab.set 0 h.rxaDue n 0 })

/-- EN kept 0 and the error shown (R244). -/
def State.rxaRefused (s : State) (n : Nat) : State := (s.wr (MH_RXA_CTL.EN n) 0).wr (MH_RXA_STAT.CFG_ERR n) 1

section Enable
variable {n : Nat} {v : W32} {s : State}

theorem execRxaEnable_off (hn : n < 72) (h : bitsOf v.toNat 0 1 = 0) :
    execRxaEnable .fw n v s = .next (((s.rxaSet n v).wr (MH_RXA_CTL.EN n) 0).rxaFull n) :=
  (if_neg (by rw [decide_eq_false (Nat.not_le.mpr hn)]; exact Bool.false_ne_true)).trans (if_pos h)

theorem execRxaEnable_on (hn : n < 72) (h : bitsOf v.toNat 0 1 = 1) (hok : ((s.rxaSet n v).rxaCleared n).rxaOk n = true) :
    execRxaEnable .fw n v s = .next ((((s.rxaSet n v).rxaCleared n).wr (MH_RXA_CTL.EN n) 1).rxaFull n) :=
  (if_neg (by rw [decide_eq_false (Nat.not_le.mpr hn)]; exact Bool.false_ne_true)).trans ((if_neg (by rw [h]; decide)).trans (if_pos hok))

theorem execRxaEnable_refused (hn : n < 72) (h : bitsOf v.toNat 0 1 = 1) (hok : ((s.rxaSet n v).rxaCleared n).rxaOk n = false) :
    execRxaEnable .fw n v s = .next ((((s.rxaSet n v).rxaCleared n).rxaRefused n).rxaFull n) :=
  (if_neg (by rw [decide_eq_false (Nat.not_le.mpr hn)]; exact Bool.false_ne_true)).trans
    ((if_neg (by rw [h]; decide)).trans (if_neg (fun hon => Bool.false_ne_true (hok.symm.trans hon))))

end Enable

/-- The control word's fields beside EN as a write of it leaves them, memory kept (R243, R248). -/
structure RxaCtlReads (s : State) (n : Nat) (v : W32) (t : State) : Prop where
  notify : t.rd (MH_RXA_CTL.NOTIFY n) = bitsOf v.toNat 1 1
  log : t.rd (MH_RXA_CTL.LOG2N n) = rxaLog v
  func : t.rd (MH_RXA_CTL.FUNC n) = bitsOf v.toNat 12 4
  mem : t.mem = s.mem

theorem State.rxaSet_reads (s : State) (n : Nat) (v : W32) : RxaCtlReads s n v (s.rxaSet n v) where
  notify := by
    rw [State.rxaSet, State.rd_wr_ne _ _ (by dsimp only [MH_RXA_CTL.NOTIFY, MH_RXA_CTL.FUNC]; omega),
      State.rd_wr_ne _ _ (by dsimp only [MH_RXA_CTL.NOTIFY, MH_RXA_CTL.LOG2N]; omega), State.rd_wr_same]
    exact bitsOf_mod v.toNat 1 1
  log := by
    rw [State.rxaSet, State.rd_wr_ne _ _ (by dsimp only [MH_RXA_CTL.LOG2N, MH_RXA_CTL.FUNC]; omega), State.rd_wr_same]
    exact rxaLog_mod v
  func := (State.rd_wr_same _ _ _).trans (bitsOf_mod v.toNat 12 4)
  mem := rfl

/-- The three fields keep their values where their keys are not written. -/
theorem RxaCtlReads.of_rd {s t u : State} {n : Nat} {v : W32} (h : RxaCtlReads s n v t) (hmem : u.mem = t.mem)
    (hrd : ∀ f, f.key = (MH_RXA_CTL.NOTIFY n).key ∨ f.key = (MH_RXA_CTL.LOG2N n).key ∨ f.key = (MH_RXA_CTL.FUNC n).key → u.rd f = t.rd f) : RxaCtlReads s n v u where
  notify := (hrd _ (.inl rfl)).trans h.notify
  log := (hrd _ (.inr (.inl rfl))).trans h.log
  func := (hrd _ (.inr (.inr rfl))).trans h.func
  mem := hmem.trans h.mem

/-- A field that stands below area `n`'s control word. -/
def belowCtl (n : Nat) (f : Field) : Prop := f.key < 8 * (0x381010 + n * 0x20)

theorem State.rd_cleared_belowCtl {n : Nat} {f : Field} (hf : belowCtl n f) (s : State) (v : W32) : ((s.rxaSet n v).rxaCleared n).rd f = s.rd f := by
  unfold belowCtl at hf
  rw [State.rxaCleared, State.rd_updHost, State.rd_wr_ne _ _ (by dsimp only [MH_RXA_WR.WR_IDX]; omega), State.rxaSet,
    State.rd_wr_ne _ _ (by dsimp only [MH_RXA_CTL.FUNC]; omega), State.rd_wr_ne _ _ (by dsimp only [MH_RXA_CTL.LOG2N]; omega),
    State.rd_wr_ne _ _ (by dsimp only [MH_RXA_CTL.NOTIFY]; omega)]

section Written
variable {n : Nat} (s : State) (v : W32)

theorem State.cleared_reads : RxaCtlReads s n v ((s.rxaSet n v).rxaCleared n) :=
  (s.rxaSet_reads n v).of_rd rfl fun f hf => State.rd_wr_ne _ _ (by dsimp only [MH_RXA_CTL.NOTIFY, MH_RXA_CTL.LOG2N, MH_RXA_CTL.FUNC, MH_RXA_WR.WR_IDX] at hf ⊢; omega)

/-- R244's condition on the written area is that on the area as it stood, with the slots that are written. -/
theorem State.rxaOk_cleared : ((s.rxaSet n v).rxaCleared n).rxaOk n =
    (s.rxaArrayOk (s.rd (MH_RXA_HDR.BASE n)) (64 * 2 ^ rxaLog v) && s.rxaArrayOk (s.rd (MH_RXA_DATA.BASE n)) (4096 * 2 ^ rxaLog v)) := by
  have hbelow (f : Field) (hf : belowAreas f) : ((s.rxaSet n v).rxaCleared n).rd f = s.rd f :=
    State.rd_cleared_belowCtl (by unfold belowAreas at hf; unfold belowCtl; omega) s v
  rw [State.rxaOk, State.rxaSlots, (s.cleared_reads v).log, State.rxaArrayOk_congr hbelow, State.rxaArrayOk_congr hbelow,
    State.rd_cleared_belowCtl (by dsimp only [belowCtl, MH_RXA_HDR.BASE]; omega), State.rd_cleared_belowCtl (by dsimp only [belowCtl, MH_RXA_DATA.BASE]; omega)]

end Written

section Reads
variable {n : Nat} {s t : State} {v : W32}

/-- The control word's other fields and memory stand behind a write of EN and what follows it in the status word. -/
theorem RxaCtlReads.enWritten (h : RxaCtlReads s n v t) (x : Nat) : RxaCtlReads s n v (t.wr (MH_RXA_CTL.EN n) x) :=
  h.of_rd rfl fun f hf => State.rd_wr_ne _ _ (by dsimp only [MH_RXA_CTL.NOTIFY, MH_RXA_CTL.LOG2N, MH_RXA_CTL.FUNC, MH_RXA_CTL.EN] at hf ⊢; omega)

theorem RxaCtlReads.refused (h : RxaCtlReads s n v t) : RxaCtlReads s n v (t.rxaRefused n) :=
  (h.enWritten 0).of_rd rfl fun f hf => State.rd_wr_ne _ _ (by dsimp only [MH_RXA_CTL.NOTIFY, MH_RXA_CTL.LOG2N, MH_RXA_CTL.FUNC, MH_RXA_STAT.CFG_ERR] at hf ⊢; omega)

theorem RxaCtlReads.full (h : RxaCtlReads s n v t) : RxaCtlReads s n v (t.rxaFull n) :=
  h.of_rd t.rxaFull_regsOnly.mem fun f hf => t.rd_rxaFull_ne (by dsimp only [MH_RXA_CTL.NOTIFY, MH_RXA_CTL.LOG2N, MH_RXA_CTL.FUNC, MH_RXA_STAT.FULL] at hf ⊢; omega)
    (by dsimp only [MH_RXA_CTL.NOTIFY, MH_RXA_CTL.LOG2N, MH_RXA_CTL.FUNC, MH_RXA_STAT.FULLCNT] at hf ⊢; omega)

end Reads

section EnRead
variable {n : Nat} (s : State)

theorem State.bit_rxaFull_en : (s.rxaFull n).bit (MH_RXA_CTL.EN n) = s.bit (MH_RXA_CTL.EN n) :=
  State.bit_eq_of_rd (s.rd_rxaFull_ne (by dsimp only [MH_RXA_CTL.EN, MH_RXA_STAT.FULL]; omega) (by dsimp only [MH_RXA_CTL.EN, MH_RXA_STAT.FULLCNT]; omega))

theorem State.bit_rxaFull_cfgErr : (s.rxaFull n).bit (MH_RXA_STAT.CFG_ERR n) = s.bit (MH_RXA_STAT.CFG_ERR n) :=
  State.bit_eq_of_rd (s.rd_rxaFull_ne (by dsimp only [MH_RXA_STAT.CFG_ERR, MH_RXA_STAT.FULL]; omega) (by dsimp only [MH_RXA_STAT.CFG_ERR, MH_RXA_STAT.FULLCNT]; omega))

theorem State.rd_rxaFull_wrIdx : (s.rxaFull n).rd (MH_RXA_WR.WR_IDX n) = s.rd (MH_RXA_WR.WR_IDX n) :=
  s.rd_rxaFull_ne (by dsimp only [MH_RXA_WR.WR_IDX, MH_RXA_STAT.FULL]; omega) (by dsimp only [MH_RXA_WR.WR_IDX, MH_RXA_STAT.FULLCNT]; omega)

theorem State.bit_rxaRefused : (s.rxaRefused n).bit (MH_RXA_CTL.EN n) = false ∧ (s.rxaRefused n).bit (MH_RXA_STAT.CFG_ERR n) = true := by
  refine ⟨?_, State.bit_wr_same _ _ _ rfl⟩
  rw [State.rxaRefused, State.bit_wr_ne _ _ (by dsimp only [MH_RXA_CTL.EN, MH_RXA_STAT.CFG_ERR]; omega)]
  exact State.bit_wr_same _ _ _ rfl

/-- Nothing is counted and nothing due. -/
def rxaEmpty (n : Nat) (t : State) : Prop := t.rd (MH_RXA_WR.WR_IDX n) = 0 ∧ Tab.get 0 t.host.rxaDue n = 0

theorem State.rxaCleared_empty : rxaEmpty n (s.rxaCleared n) := ⟨State.rd_wr_same _ _ _, Tab.get_set_same 0 s.host.rxaDue n 0⟩

theorem rxaEmpty.full {t : State} (h : rxaEmpty n t) : rxaEmpty n (t.rxaFull n) := by
  obtain ⟨hidx, hdue⟩ := h
  exact ⟨t.rd_rxaFull_wrIdx.trans hidx, by rw [t.rxaFull_regsOnly.host, hdue]⟩

theorem rxaEmpty.enWritten {t : State} (h : rxaEmpty n t) (x : Nat) : rxaEmpty n (t.wr (MH_RXA_CTL.EN n) x) :=
  ⟨(State.rd_wr_ne _ _ (by dsimp only [MH_RXA_WR.WR_IDX, MH_RXA_CTL.EN]; omega)).trans h.1, h.2⟩

theorem rxaEmpty.refused {t : State} (h : rxaEmpty n t) : rxaEmpty n (t.rxaRefused n) :=
  ⟨(State.rd_wr_ne _ _ (by dsimp only [MH_RXA_WR.WR_IDX, MH_RXA_STAT.CFG_ERR]; omega)).trans (h.enWritten 0).1, h.2⟩

end EnRead

/-- A write of MH_RXA_CTL by firmware, where `ok` says whether R244 lets the area be enabled. -/
structure RxaCtlWritten (s : State) (n : Nat) (v : W32) (ok : Bool) (t : State) : Prop where
  reads : RxaCtlReads s n v t
  off : bitsOf v.toNat 0 1 = 0 → t.bit (MH_RXA_CTL.EN n) = false
  on : bitsOf v.toNat 0 1 = 1 → rxaEmpty n t
  taken : bitsOf v.toNat 0 1 = 1 → ok = true → t.bit (MH_RXA_CTL.EN n) = true
  refused : bitsOf v.toNat 0 1 = 1 → ok = false → t.bit (MH_RXA_CTL.EN n) = false ∧ t.bit (MH_RXA_STAT.CFG_ERR n) = true

/-- EN takes 0, or 1 where both arrays may stand (R244). -/
theorem rxaCtlWritten {n : Nat} (hn : n < 72) (v : W32) (s : State) : ∃ t, execRxaEnable .fw n v s = .next t ∧
    RxaCtlWritten s n v (((s.rxaSet n v).rxaCleared n).rxaOk n) t := by
  have hset := s.rxaSet_reads n v
  have hcleared := s.cleared_reads (n := n) v
  have hempty := (s.rxaSet n v).rxaCleared_empty (n := n)
  have hbit : bitsOf v.toNat 0 1 = 0 ∨ bitsOf v.toNat 0 1 = 1 := Nat.mod_two_eq_zero_or_one _
  obtain hoff | hon := hbit
  · have hno : bitsOf v.toNat 0 1 ≠ 1 := by rw [hoff]; decide
    exact ⟨_, execRxaEnable_off hn hoff, (hset.enWritten 0).full, fun _ => (State.bit_rxaFull_en _).trans (State.bit_wr_same _ _ _ rfl), fun h => absurd h hno,
      fun h => absurd h hno, fun h => absurd h hno⟩
  · have hno : bitsOf v.toNat 0 1 ≠ 0 := by rw [hon]; decide
    cases hok : ((s.rxaSet n v).rxaCleared n).rxaOk n with
    | true =>
      exact ⟨_, execRxaEnable_on hn hon hok, (hcleared.enWritten 1).full, fun h => absurd h hno, fun _ => (hempty.enWritten 1).full,
        fun _ _ => (State.bit_rxaFull_en _).trans (State.bit_wr_same _ _ _ rfl), fun _ h => absurd h.symm Bool.false_ne_true⟩
    | false =>
      obtain ⟨hen, herr⟩ := State.bit_rxaRefused ((s.rxaSet n v).rxaCleared n) (n := n)
      exact ⟨_, execRxaEnable_refused hn hon hok, hcleared.refused.full, fun h => absurd h hno, fun _ => hempty.refused.full, fun _ h => absurd h Bool.false_ne_true,
        fun _ _ => ⟨(State.bit_rxaFull_en _).trans hen, (State.bit_rxaFull_cfgErr _).trans herr⟩⟩

/-! ### The slots that are freed (R247, R268) and the sources that are refused (R263) -/

theorem ownsPort_other {f n : Nat} {s : State} (h : f ≠ s.portOwner n) : (!s.ownsPort (.fn f) n || decide (72 ≤ n)) = true := by
  rw [show s.ownsPort (.fn f) n = false from decide_eq_false h]
  rfl

section RdIdx
variable {n : Nat} {v : W32} {s : State}

theorem execRxaRdWrite_taken (hn : n < 72) (h : (s.rd (MH_RXA_WR.WR_IDX n) + 2 ^ 32 - v.toNat) % 2 ^ 32 ≤ s.rxaSlots n) :
    execRxaRdWrite .fw n v s = .next ((s.wr (MH_RXA_RD.RD_IDX n) v.toNat).rxaFull n) :=
  (if_neg (by rw [decide_eq_false (Nat.not_le.mpr hn)]; exact Bool.false_ne_true)).trans (if_neg (Nat.not_lt.mpr h))

theorem execRxaRdWrite_ignored (hn : n < 72) (h : s.rxaSlots n < (s.rd (MH_RXA_WR.WR_IDX n) + 2 ^ 32 - v.toNat) % 2 ^ 32) :
    execRxaRdWrite .fw n v s = .next (s.wr (MH_RXA_STAT.CFG_ERR n) 1) :=
  (if_neg (by rw [decide_eq_false (Nat.not_le.mpr hn)]; exact Bool.false_ne_true)).trans (if_pos h)

theorem State.rd_wr_rdIdx : (s.wr (MH_RXA_RD.RD_IDX n) v.toNat).rd (MH_RXA_RD.RD_IDX n) = v.toNat :=
  (State.rd_wr_same _ _ _).trans (Nat.mod_eq_of_lt v.isLt)

/-- The area is full where as many slots are taken as there are. -/
theorem State.rdIdx_full : ((s.wr (MH_RXA_RD.RD_IDX n) v.toNat).rxaFull n).bit (MH_RXA_STAT.FULL n) = true ↔
    (s.rd (MH_RXA_WR.WR_IDX n) + 2 ^ 32 - v.toNat) % 2 ^ 32 = s.rxaSlots n := by
  rw [State.bit_rxaFull, decide_eq_true_iff, State.rd_wr_rdIdx, State.rxaSlots, State.rd_wr_ne _ _ (by dsimp only [MH_RXA_WR.WR_IDX, MH_RXA_RD.RD_IDX]; omega),
    State.rd_wr_ne _ _ (by dsimp only [MH_RXA_CTL.LOG2N, MH_RXA_RD.RD_IDX]; omega)]
  rfl

theorem State.rdIdx_reads : ((s.wr (MH_RXA_RD.RD_IDX n) v.toNat).rxaFull n).rd (MH_RXA_RD.RD_IDX n) = v.toNat :=
  (State.rd_rxaFull_ne _ (by dsimp only [MH_RXA_RD.RD_IDX, MH_RXA_STAT.FULL]; omega) (by dsimp only [MH_RXA_RD.RD_IDX, MH_RXA_STAT.FULLCNT]; omega)).trans
    State.rd_wr_rdIdx

end RdIdx

/-! ### Notices (R248) and REDUCE_REMOTE (R217) -/

/-- The first notice goes at once. -/
theorem execRxaNotify_first {n : Nat} {s : State} (hnotify : s.bit (MH_RXA_CTL.NOTIFY n) = true) (hdue : Tab.get 0 s.host.rxaDue n = 1)
    (hlast : Tab.get 0 s.host.rxaLast n = 0) : execRxaNotify n s =
      .next (({ s with host := { s.host with rxaLast := Tab.set 0 s.host.rxaLast n (s.ptime + 1), rxaDue := Tab.set 0 s.host.rxaDue n 0 } }).postEvent
        (s.rd (MH_RXA_CTL.FUNC n)) 0x0020 31 0 (leBytes 1 n ++ leBytes 3 0 ++ leBytes 4 (s.rd (MH_RXA_WR.WR_IDX n)))) :=
  if_pos (by rw [hnotify, hdue, hlast]; rfl)

/-- A descriptor that begins has its opcode's effect (R301, R334 to R336). -/
theorem State.runDesc_of_begins {s t : State} {k op : Nat} {d : Desc} {body : Desc → State → Option State} (h : s.Begins k op d)
    (hbody : body d (s.beginDesc k) = some t) : s.runDesc k op body = t := by
  obtain ⟨hdesc, hst, hop, hmay, hfault, hrec, hstw⟩ := h
  unfold State.runDesc
  simp [hdesc, hst, hop, hmay, hfault, hrec, hstw, hbody]

/-- REDUCE_REMOTE's bytes leave as a reducing transfer (R217, R404). -/
theorem execReduceRemote_sends {s u : State} {k : Nat} {d : Desc} {l : List Byte} (h : s.Begins k 0x21 d)
    (hwait : (s.beginDesc k).mustWait (d.f 64 48) (d.f 192 32) = false) (hplace : (s.beginDesc k).placeOf (d.f 64 48) (d.f 192 32) = .store)
    (hread : (s.beginDesc k).localRead (d.f 64 48) (d.f 192 32) = (u, .ok l)) : execReduceRemote k s =
      .next (u.jxTransfer k { jxHdr0 with vc := 6, ptype := 0x03, dst := d.f 176 16, addr := d.f 128 48, op := d.f 256 4 } l) := by
  refine congrArg Host.Outcome.next (State.runDesc_of_begins h ?_)
  dsimp only
  rw [if_neg (not_not_intro hplace), hwait, hread]
  rfl

/-- Settles O35: each clause is the lemma about its command. -/
theorem segmentsAndReceiveArraysAreConfigured : Obligations.SegmentsAndReceiveArraysAreConfigured := by
  unfold Obligations.SegmentsAndReceiveArraysAreConfigured
  intro s j n k v d hj hn
  refine ⟨segMapWritten hj v s, fun _ => rfl, ?_, fun f hf => ⟨if_pos (ownsPort_other hf), if_pos (ownsPort_other hf)⟩, fun h => ?_,
    fun h => execRxaRdWrite_ignored hn h, fun hnotify hdue hlast => execRxaNotify_first hnotify hdue hlast,
    fun u l hbegins hwait hplace hread => execReduceRemote_sends hbegins hwait hplace hread⟩
  · obtain ⟨t, ht, hreads, hoff, hon, htaken, hrefused⟩ := rxaCtlWritten hn v s
    rw [s.rxaOk_cleared v] at htaken hrefused
    exact ⟨t, ht, hreads.notify, hreads.log, hreads.func, hreads.mem, hoff, hon, htaken, hrefused⟩
  · exact ⟨_, execRxaRdWrite_taken hn h, State.rdIdx_reads, State.rdIdx_full⟩

end Sys2Proof.Machine

/-! PROOFS. The dealer's descriptors (R269 to R281, R288 to R299): how a descriptor that begins ends or waits, what a placement and the events that it posts
leave, the start of a layer, and what happens while one runs. Settles O36. -/

namespace Sys2Proof.Machine

section Arms

variable (k n i : Nat) (s : State)

theorem exec_loadKernel : exec (.loadKernel k) s = execLoadKernel k s := rfl
theorem exec_place : exec (.place k) s = execPlace k s := rfl
theorem exec_runLayer (temps : List (Nat × Nat)) : exec (.runLayer k temps) s = execRunLayer k temps s := rfl
theorem exec_commit : exec (.commit k) s = execCommit k s := rfl
theorem exec_release : exec (.release k) s = execRelease k s := rfl
theorem exec_weightStreamComplete : exec (.weightStreamComplete n i) s = execWeightStreamComplete n i s := rfl
theorem exec_commitCopyStart : exec (.commitCopyStart n) s = execCommitCopyStart n s := rfl
theorem exec_layerTimeLimit : exec (.layerTimeLimit n) s = execLayerTimeLimit n s := rfl

end Arms

/-! ### How a descriptor that begins ends (R342, R343) -/

/-- The first element that satisfies `p`, replaced as the first that satisfies the narrower `q`, is still the first that satisfies `p`. -/
theorem find?_updFirst {α : Type} {p q : α → Bool} {f : α → α} {l : List α} {a : α} (hfind : l.find? p = some a) (hq : q a = true)
    (hnarrow : ∀ b, q b = true → p b = true) (hf : p (f a) = true) : (updFirst q f l).find? p = some (f a) := by
  induction l with
  | nil => exact absurd hfind (by simp)
  | cons b l ih =>
    by_cases hb : p b = true
    · obtain rfl : b = a := by simpa [hb] using hfind
      simp [updFirst, hq, hf]
    · have hqb : ¬q b = true := fun h => hb (hnarrow b h)
      rw [List.find?_cons_of_neg hb] at hfind
      rw [updFirst, if_neg hqb, List.find?_cons_of_neg hb]
      exact ih hfind

/-- The descriptor of number `k` has finished with status `st`. -/
def State.Finished (t : State) (k st : Nat) : Prop := ∃ e, t.descOf k = some e ∧ e.st = .finished ∧ e.status = st

theorem State.key_of_descOf {s : State} {k : Nat} {d : Desc} (h : s.descOf k = some d) : d.key = k := of_decide_eq_true (List.find?_some h :)

section Begun

variable {s t : State} {k op : Nat} {d : Desc} (h : s.Begins k op d)
include h

theorem State.Begins.descOf_beginDesc : (s.beginDesc k).descOf k = some { d with st := .running } := by
  obtain ⟨hdesc, -⟩ := h
  have hkey := decide_eq_true (State.key_of_descOf hdesc)
  exact find?_updFirst (f := fun d : Desc => { d with st := .running }) hdesc hkey (fun _ hb => hb) hkey

/-- A descriptor that has begun finishes, whatever its effect was, as long as that left the descriptors alone. -/
theorem State.Begins.finished (hdescs : t.host.descs = (s.beginDesc k).host.descs) (st det r0 r1 : Nat) : (t.finishDesc k st det r0 r1).Finished k st := by
  have hrunning : t.descOf k = some { d with st := .running } := by
    rw [State.descOf, hdescs]
    exact h.descOf_beginDesc
  have hkey : d.key = k := (State.key_of_descOf hrunning :)
  exact ⟨_, find?_updFirst (f := fun d : Desc => { d with st := .finished, status := st, detail := det, r0 := r0, r1 := r1 }) hrunning
    (by simp [hkey]) (fun b hb => (Bool.and_eq_true_iff.mp hb).1) (by simp [hkey]), rfl, rfl⟩

/-- A descriptor that begins has its opcode's effect; one whose effect must wait is held, and issued again (R257, R280, R301, R334 to R336). -/
theorem State.Begins.effect {body : Desc → State → Option State} {r : Option State} (hbody : body d (s.beginDesc k) = r) :
    s.runDesc k op body = r.getD (s.holdDesc d) := by
  obtain ⟨hdesc, hst, hop, hmay, hfault, hrec, hstw⟩ := h
  unfold State.runDesc
  cases r <;> simp [hdesc, hst, hop, hmay, hfault, hrec, hstw, hbody]

end Begun

/-! ### Kernel handles and the demand for a copy (R270, R274, R297) -/

section Handles

variable {s u w : State} {k : Nat} {d : Desc}

theorem execLoadKernel_binds {hd bytes : List Byte} {x : List KTask} (h : s.Begins k 0x10 d) (hwait : (s.beginDesc k).mustWait (d.f 64 48) 64 = false)
    (hfree : (s.beginDesc k).handleBusy d.tag (d.f 128 6) = false) (hread : (s.beginDesc k).dealerRead (d.f 64 48) 64 = (u, .ok hd))
    (hhdr : kernelHdrOk hd = true) (hreach : u.descReach d.fn d.tag (d.f 64 48) (fieldAt hd 8 4) = true)
    (hwaits : u.mustWait (d.f 64 48) (fieldAt hd 8 4) = false) (hbody : u.dealerRead (d.f 64 48) (fieldAt hd 8 4) = (w, .ok bytes))
    (hparse : parseKernel bytes = .ok x) : execLoadKernel k s =
      .next ((w.updPart d.tag (fun y => { y with kernels := Tab.set 0 y.kernels (d.f 128 6) (d.f 64 48 + 1) })).finishDesc k 0 0 0 0) := by
  refine congrArg Host.Outcome.next (State.runDesc_of_begins h ?_)
  simp [hwait, hfree, hread, hhdr, hreach, hwaits, hbody, hparse]

theorem execLoadKernel_busy (h : s.Begins k 0x10 d) (hwait : (s.beginDesc k).mustWait (d.f 64 48) 64 = false)
    (hbusy : (s.beginDesc k).handleBusy d.tag (d.f 128 6) = true) : execLoadKernel k s = .next ((s.beginDesc k).finishDesc k 1 0 0 0) := by
  refine congrArg Host.Outcome.next (State.runDesc_of_begins h ?_)
  simp [hwait, hbusy]

theorem execRelease_frees (h : s.Begins k 0x14 d) (hfree : (s.beginDesc k).handleBusy d.tag (d.f 64 6) = false) : execRelease k s =
    .next (((s.beginDesc k).updPart d.tag (fun x => { x with kernels := Tab.set 0 x.kernels (d.f 64 6) 0 })).finishDesc k 0 0 0 0) := by
  refine congrArg Host.Outcome.next (State.runDesc_of_begins h ?_)
  simp [hfree]

theorem execRelease_busy (h : s.Begins k 0x14 d) (hbusy : (s.beginDesc k).handleBusy d.tag (d.f 64 6) = true) :
    execRelease k s = .next ((s.beginDesc k).finishDesc k 1 0 0 0) := by
  refine congrArg Host.Outcome.next (State.runDesc_of_begins h ?_)
  simp [hbusy]

theorem execCommit_asks (h : s.Begins k 0x13 d) :
    execCommit k s = .next (((s.beginDesc k).updPart d.tag (fun x => { x with commitNext := true })).finishDesc k 0 0 0 0) :=
  congrArg Host.Outcome.next (State.runDesc_of_begins h rfl)

end Handles

theorem State.finishDesc_mem (s : State) (k st det r0 r1 : Nat) : (s.finishDesc k st det r0 r1).mem = s.mem := rfl

theorem State.finishDesc_part (s : State) (k st det r0 r1 p : Nat) : (s.finishDesc k st det r0 r1).part p = s.part p := rfl

theorem State.part_updPart_same (s : State) (p : Nat) (f : Part → Part) : (s.updPart p f).part p = f (s.part p) := State.part_setPart_same ..

/-! ### What a placement leaves (R277, R280, R301, R345, R548) -/

/-- What the dealer keeps outside the registers: the partitions and the descriptors. -/
def State.dealt (s : State) : Tab Part × List Desc := (s.parts, s.host.descs)

/-- These and the bytes of memory. -/
def State.stored (s : State) : List Host.Cell × Tab Part × List Desc := (s.mem, s.dealt)

theorem State.wr_stored (s : State) (f : Field) (v : Nat) : (s.wr f v).stored = s.stored := rfl

theorem State.updHost_stored {g : HostSide → HostSide} (hg : ∀ x, (g x).descs = x.descs) (s : State) : (s.updHost g).stored = s.stored := by
  simp [State.stored, State.dealt, State.updHost, hg]

theorem State.ite_stored {c : Prop} [Decidable c] {a b s : State} (ha : a.stored = s.stored) (hb : b.stored = s.stored) :
    (if c then a else b).stored = s.stored := by
  split
  · exact ha
  · exact hb

theorem forN_keeps {σ β : Type} (g : σ → β) (f : Nat → σ → σ) (hf : ∀ i s, g (f i s) = g s) (n : Nat) (s : σ) : g (forN n f s) = g s :=
  forL_keeps g f hf (List.range n) s

section Posted

variable (s : State) (f ty part sev : Nat) (payload : List Byte)

theorem State.pcount_stored (g wrap : Field) (unit bit n : Nat) : (s.pcount unit g wrap bit n).stored = s.stored :=
  State.ite_stored rfl (State.ite_stored rfl rfl)

theorem State.msix_stored (v : Nat) : (s.msix f v).stored = s.stored := State.ite_stored rfl (State.ite_stored rfl rfl)

theorem State.hostWrite_stored (a : Nat) (data : List Byte) : (s.hostWrite f a data).stored = s.stored := s.pcount_stored ..

theorem State.evtPut_stored : (s.evtPut f ty part sev payload).stored = s.stored := by
  unfold State.evtPut
  refine (State.msix_stored ..).trans ((State.wr_stored ..).trans (State.ite_stored ((State.wr_stored ..).trans ?_) ?_)) <;>
    refine (State.updHost_stored ?_ _).trans (s.hostWrite_stored ..) <;>
    exact fun _ => rfl

theorem State.evtFlush_stored : (s.evtFlush f).stored = s.stored := by
  unfold State.evtFlush
  refine State.ite_stored rfl ((State.updHost_stored ?_ _).trans (s.evtPut_stored ..))
  exact fun _ => rfl

theorem State.evtLose_stored : (s.evtLose f).stored = s.stored := rfl

theorem State.postEvent_stored : (s.postEvent f ty part sev payload).stored = s.stored :=
  State.ite_stored (State.ite_stored ((State.evtLose_stored ..).trans (s.evtFlush_stored f)) ((State.evtPut_stored ..).trans (s.evtFlush_stored f))) rfl

theorem State.postPanel_stored : (s.postPanel ty part sev payload).stored = s.stored :=
  forL_keeps State.stored _ (fun _ t => State.ite_stored (t.postEvent_stored ..) rfl) [0, 8] s

theorem State.postBoth_stored (p : Nat) : (s.postBoth p ty sev payload).stored = s.stored :=
  (forL_keeps State.stored _ (fun _ t => State.ite_stored (t.postEvent_stored ..) rfl) [0, 8] _).trans (State.ite_stored (s.postEvent_stored ..) rfl)

end Posted

/-- The accounts are registers, and their warnings events. (The counted numbers are made opaque, so that the kernel does not compute them.) -/
theorem State.account_stored (s : State) : s.account.stored = s.stored := by
  unfold State.account
  extract_lets folded holes holeCores v low u w
  clear_value folded holes holeCores low
  have hv : v.stored = s.stored := (State.wr_stored ..).trans ((State.wr_stored ..).trans (State.wr_stored ..))
  clear_value v
  have hu : u.stored = s.stored := State.ite_stored ((State.postPanel_stored ..).trans hv) hv
  refine (forN_keeps State.stored _ (fun p t => ?_) 16 w).trans ((State.wr_stored ..).trans hu)
  refine State.ite_stored (State.ite_stored ((State.postBoth_stored ..).trans ?_) ?_) ?_ <;> simp only [State.wr_stored]

theorem putPmap_stored (pl : Option Placement) (d : Nat) (s : State) : (putPmap pl d s).stored = s.stored := by
  cases pl with
  | none => rfl
  | some pl => exact (forL_keeps State.stored (putStray d) (fun _ _ => rfl) _ _).trans (forL_keeps State.stored (putBlock d) (fun _ _ => rfl) _ _)

theorem State.cntSet_dealt (s : State) (c i : Nat) (v : W32) : (s.cntSet c i v).dealt = s.dealt := rfl

theorem State.setRcv_dealt (s : State) (x : Rcv) : ({ s with rcv := x } : State).dealt = s.dealt := rfl

theorem State.drawMany_dealt (s : State) : s.drawMany.2.dealt = s.dealt := rfl

theorem State.openRange_dealt (s : State) (lo hi : Nat) : (s.openRange lo hi).dealt = s.dealt := rfl

/-- A self-test changes its core, no partition and no descriptor (R548). (The number of counters is generalised, so that none of them is set one by one.) -/
theorem State.selfTested_dealt (s : State) (c : Nat) : (s.selfTested c).dealt = s.dealt := by
  unfold State.selfTested
  generalize 64 = n
  exact (State.setRcv_dealt ..).trans ((forN_keeps State.dealt _ (fun _ _ => State.cntSet_dealt ..) n _).trans
    ((State.drawMany_dealt _).trans (State.openRange_dealt ..)))

/-- The state once the cores that are to host strays have been tested. -/
def State.hostsTested (s : State) (p : Nat) (pl : Placement) : State :=
  forL ((strayCores (some pl)).filter (fun c => !(strayCores (s.part p).place).contains c)) (fun c s => s.selfTested c) s

theorem State.hostsTested_dealt (s : State) (p : Nat) (pl : Placement) : (s.hostsTested p pl).dealt = s.dealt :=
  forL_keeps State.dealt _ (fun c t => t.selfTested_dealt c) _ _

theorem State.hostsTested_none {pl : Placement} (h : pl.strays = []) (s : State) (p : Nat) : s.hostsTested p pl = s := by
  simp [State.hostsTested, strayCores, h, forL]

theorem State.part_congr {s t : State} (h : t.parts = s.parts) (p : Nat) : t.part p = s.part p := by rw [State.part, State.part, h]

/-- A new placement changes the partition's own record, and registers; bytes only where strays come to cores that did not host one (R277, R280, R548). -/
theorem State.setPlacement_stored (s : State) (p : Nat) (pl : Placement) :
    (s.setPlacement p pl).stored = ((s.hostsTested p pl).updPart p (fun x => { x with place := some pl, noRes := false })).stored := by
  unfold State.setPlacement
  dsimp only
  exact (State.account_stored _).trans (forL_keeps State.stored _ (fun d t => putPmap_stored ..) _ _)

/-! ### PLACE (R275 to R281) -/

/-- Does a placement map every virtual core as the partition's present one does (R281)? -/
def State.keepsMap (s : State) (p : Nat) (pl : Placement) : Bool :=
  match (s.part p).place with
  | some o => sameMap o pl
  | none => false

/-- A placement becomes the partition's, its folds are dealt with, and its scratchpads are stale unless the map is the old one (R281). -/
def State.placedAs (s : State) (p : Nat) (pl : Placement) : State :=
  ((if s.keepsMap p pl then s else s.wr (GLB_DLR_PART3.STALE p) 1).setPlacement p pl).updPart p (fun x => { x with foldsDue := [] })

theorem State.placedAs_frame (s : State) (p : Nat) (pl : Placement) : let t := s.placedAs p pl
    t.host.descs = s.host.descs ∧ (t.part p).place = some pl ∧ (t.part p).noRes = false ∧ (pl.strays = [] → t.mem = s.mem) := by
  obtain ⟨v, hstale, hstored⟩ : ∃ v : State, v = (if s.keepsMap p pl then s else s.wr (GLB_DLR_PART3.STALE p) 1) ∧ v.stored = s.stored :=
    ⟨_, rfl, State.ite_stored rfl (State.wr_stored ..)⟩
  obtain ⟨hmem, hdealt⟩ := Prod.mk.inj (v.setPlacement_stored p pl)
  obtain ⟨hparts, hdescs⟩ := Prod.mk.inj hdealt
  obtain ⟨-, htested⟩ := Prod.mk.inj (v.hostsTested_dealt p pl)
  obtain ⟨hvmem, hvdealt⟩ := Prod.mk.inj hstored
  obtain ⟨-, hvdescs⟩ := Prod.mk.inj hvdealt
  have hpart : (v.setPlacement p pl).part p = { (v.hostsTested p pl).part p with place := some pl, noRes := false } :=
    (State.part_congr hparts p).trans (State.part_updPart_same ..)
  unfold State.placedAs
  rw [← hstale]
  dsimp only
  rw [State.updPart_host, State.updPart_mem, State.part_updPart_same, hpart]
  refine ⟨hdescs.trans (htested.trans hvdescs), rfl, rfl, fun hnone => hmem.trans ?_⟩
  rw [State.hostsTested_none hnone]
  exact hvmem

section Place

variable {s : State} {k : Nat} {d : Desc} (h : s.Begins k 0x11 d)
include h

theorem execPlace_held (hbusy : (s.beginDesc k).partDrained d.tag = false) : execPlace k s = .next (s.holdDesc d) := by
  refine congrArg Host.Outcome.next (h.effect (r := none) ?_)
  simp [hbusy]

variable (hdrained : (s.beginDesc k).partDrained d.tag = true)
include hdrained

theorem execPlace_placed {pl : Placement}
    (hembed : ((s.beginDesc k).wr (GLB_RCV_PART.LOSS_PENDING d.tag) 0).embed d.tag (d.f 64 9) (d.f 80 8) (d.f 88 1) = some pl) :
    let t := ((s.beginDesc k).wr (GLB_RCV_PART.LOSS_PENDING d.tag) 0).placedAs d.tag pl
    execPlace k s = .next (t.finishDesc k 0 0 (pl.blocks.length + pl.strays.length * 2 ^ 16 + t.rd (GLB_DLR_PART1.KITTY d.tag) % 2 ^ 16 * 2 ^ 32) 0) := by
  refine congrArg Host.Outcome.next (State.runDesc_of_begins h ?_)
  dsimp only
  rw [hdrained, hembed]
  rfl

theorem execPlace_noRoom
    (hembed : ((s.beginDesc k).wr (GLB_RCV_PART.LOSS_PENDING d.tag) 0).embed d.tag (d.f 64 9) (d.f 80 8) (d.f 88 1) = none) :
      execPlace k s = .next (((s.beginDesc k).wr (GLB_RCV_PART.LOSS_PENDING d.tag) 0).finishDesc k 3 0 0 0) := by
  refine congrArg Host.Outcome.next (State.runDesc_of_begins h ?_)
  dsimp only
  rw [hdrained, hembed]
  rfl

/-- PLACE with a placement that fits ends OK, and the placement is the partition's (R275). -/
theorem execPlace_fits {pl : Placement}
    (hembed : ((s.beginDesc k).wr (GLB_RCV_PART.LOSS_PENDING d.tag) 0).embed d.tag (d.f 64 9) (d.f 80 8) (d.f 88 1) = some pl) : ∃ t,
      execPlace k s = .next t ∧ t.Finished k 0 ∧ (t.part d.tag).place = some pl ∧ (t.part d.tag).noRes = false ∧ (pl.strays = [] → t.mem = s.mem) := by
  obtain ⟨hdescs, hplace, hres, hmem⟩ := ((s.beginDesc k).wr (GLB_RCV_PART.LOSS_PENDING d.tag) 0).placedAs_frame d.tag pl
  refine ⟨_, execPlace_placed h hdrained hembed, h.finished hdescs .., ?_⟩
  rw [State.finishDesc_part, State.finishDesc_mem]
  exact ⟨hplace, hres, hmem⟩

end Place

/-! ### RUN_LAYER (R288, R289, R515, R555) -/

/-- What RUN_LAYER makes of the plan that the store holds: none where a shuffle would write maps and the partition's traffic has not drained (R280, R288). -/
def State.planned (s : State) (k : Nat) (d : Desc) (temps : List (Nat × Nat)) : Option State :=
  match (s.wr (GLB_RCV_PART.LOSS_PENDING d.tag) 0).readPlan d.fn d.tag (d.f 64 48) with
  | (u, .error e) => some (u.endUnstarted k d.tag e.1 e.2)
  | (u, .ok pl) =>
    if !(u.shufPairs d.tag (s.part d.tag).seq pl temps).isEmpty && !u.partDrained d.tag then none else some (u.startLayer k d.tag (d.f 64 48) pl temps)

theorem State.endUnstarted_finished {s : State} {k op : Nat} {d : Desc} (h : s.Begins k op d) (p st det : Nat) :
    ((s.beginDesc k).endUnstarted k p st det).Finished k st ∧ ((s.beginDesc k).endUnstarted k p st det).parts = s.parts :=
  ⟨h.finished (t := (s.beginDesc k).draw.2) rfl .., rfl⟩

section Planned

variable {s u : State} {k : Nat} {d : Desc} {temps : List (Nat × Nat)}

theorem State.planned_bad {st det : Nat} (hplan : (s.wr (GLB_RCV_PART.LOSS_PENDING d.tag) 0).readPlan d.fn d.tag (d.f 64 48) = (u, .error (st, det))) :
    s.planned k d temps = some (u.endUnstarted k d.tag st det) := by
  rw [State.planned, hplan]

variable {pl : Plan} (hplan : (s.wr (GLB_RCV_PART.LOSS_PENDING d.tag) 0).readPlan d.fn d.tag (d.f 64 48) = (u, .ok pl))
include hplan

theorem State.planned_starts (h : u.shufPairs d.tag (s.part d.tag).seq pl temps = [] ∨ u.partDrained d.tag = true) :
    s.planned k d temps = some (u.startLayer k d.tag (d.f 64 48) pl temps) := by
  rw [State.planned, hplan]
  refine if_neg ?_
  rcases h with h | h <;> simp [h]

theorem State.planned_waits (hmoves : u.shufPairs d.tag (s.part d.tag).seq pl temps ≠ []) (hbusy : u.partDrained d.tag = false) :
    s.planned k d temps = none := by
  rw [State.planned, hplan]
  exact if_pos (by simp [hmoves, hbusy])

end Planned

section RunLayer

variable {s u : State} {k : Nat} {d : Desc} (h : s.Begins k 0x12 d) (temps : List (Nat × Nat))
include h

theorem execRunLayer_noFlow (hflow : s.rd THM_STAT.FLOW_STATE = 2) : execRunLayer k temps s = .next ((s.beginDesc k).endUnstarted k d.tag 9 0) :=
  congrArg Host.Outcome.next (State.runDesc_of_begins h (if_pos hflow))

variable (hflow : s.rd THM_STAT.FLOW_STATE ≠ 2)
include hflow

theorem execRunLayer_noRes (hres : (s.part d.tag).noRes = true) : execRunLayer k temps s = .next ((s.beginDesc k).endUnstarted k d.tag 3 0) :=
  congrArg Host.Outcome.next (State.runDesc_of_begins h ((if_neg hflow).trans (if_pos hres)))

/-- Past the checks that come before the plan is read, RUN_LAYER does what the plan makes of it. -/
theorem execRunLayer_planned (hres : (s.part d.tag).noRes = false) (hfolds : (s.part d.tag).foldsDue = []) (hstarts : (s.beginDesc k).startsHeld = false)
    (hwait : (s.beginDesc k).mustWait (d.f 64 48) 128 = false) (hloss : s.bit (GLB_RCV_PART.LOSS_PENDING d.tag) = false) :
    execRunLayer k temps s = .next (((s.beginDesc k).planned k d temps).getD (s.holdDesc d)) := by
  have hearly : (!((s.beginDesc k).part d.tag).foldsDue.isEmpty || (s.beginDesc k).startsHeld || (s.beginDesc k).mustWait (d.f 64 48) 128) = false := by
    simp [hstarts, hwait, show ((s.beginDesc k).part d.tag).foldsDue = [] from hfolds]
  have hkept : (s.beginDesc k).bit (GLB_RCV_PART.LOSS_PENDING d.tag) = false := hloss
  refine congrArg Host.Outcome.next (h.effect ((if_neg hflow).trans ((if_neg (Bool.eq_false_iff.mp hres)).trans ?_)))
  rw [hearly, hkept]
  rfl

end RunLayer

/-! ### Weight streams while a layer runs (R290) -/

section Weights

variable {s : State} {q i : Nat} {l : LayerRun} (hq : q < 16) (hrun : (s.part q).run = some l)
include hq hrun

theorem execWeightStreamComplete_done (hgoing : l.going = true) (hon : i ∈ l.wsOn) (hnew : i ∉ l.wsDone)
    (hdone : ∀ x ∈ s.store.ws, x.part = q → x.idx = i → x.live = false) : execWeightStreamComplete q i s =
      .next ((s.updPart q (fun x => { x with run := some { l with wsDone := l.wsDone ++ [i] } })).startWeights q i) := by
  have hacked : s.store.ws.any (fun x => decide (x.part = q) && decide (x.idx = i) && x.live) = false := by
    simpa [List.any_eq_false] using fun x hx hpart hidx => by simp [hdone x hx hpart hidx]
  unfold execWeightStreamComplete
  simp [Nat.mod_eq_of_lt hq, hrun, hgoing, hon, hnew, hacked, State.updPart]

theorem execWeightStreamComplete_waits (hwait : ∃ x ∈ s.store.ws, x.part = q ∧ x.idx = i ∧ x.live = true) : execWeightStreamComplete q i s = .next s := by
  have hopen : s.store.ws.any (fun x => decide (x.part = q) && decide (x.idx = i) && x.live) = true := by
    simpa [List.any_eq_true, and_assoc] using hwait
  unfold execWeightStreamComplete
  simp [Nat.mod_eq_of_lt hq, hrun, hopen]

end Weights

theorem TxOnly.store {s t : State} (h : TxOnly s t) : t.store = s.store := by have := congrArg State.store h.1; exact this
theorem TxOnly.parts {s t : State} (h : TxOnly s t) : t.parts = s.parts := by have := congrArg State.parts h.1; exact this

/-- The stop of a hub is the hub's, and no guest site's (R16, R20). -/
theorem hubStop_spec {k : Nat} (hk : k < 24) : stopHub (hubStop k) = some k ∧ stopGuest (hubStop k) = none := by
  have hstop : hubStop k = if k < 12 then 51 - k else k + 2 := by
    unfold hubStop hubNode
    split <;> omega
  rw [hstop]
  split
  · exact ⟨(if_neg (by omega)).trans ((if_pos (by omega)).trans (congrArg some (by omega))), (if_neg (by omega)).trans (if_neg (by omega))⟩
  · exact ⟨(if_pos (by omega)).trans (congrArg some (by omega)), (if_neg (by omega)).trans (if_neg (by omega))⟩

/-- No piece of a weight stream is left at any hub, and hub `k` shows its pools. -/
def State.poolsCleared (s : State) (k : Nat) : State := { s with store := { s.store with ws := [] } }.notePools k

theorem State.poolsCleared_frame (s : State) (k : Nat) :
    (s.poolsCleared k).store.ws = [] ∧ (s.poolsCleared k).parts = s.parts ∧ (s.poolsCleared k).mem = s.mem := ⟨rfl, rfl, rfl⟩

/-- The last acknowledgement of a piece that has been sent takes the piece from its hub's pool (R242, R290). -/
theorem State.hubAnswer_last {s : State} {x : WsPiece} {c : Nat} {h : BulkHdr} (hws : s.store.ws = [x]) (hsent : x.sent = true)
    (hxfers : x.xfers = [.ack h.tag c]) (htype : h.type = 8) (hstatus : h.status = 0) :
    s.hubAnswer x.loc h = s.poolsCleared x.hub := by
  have hidle : (s.poolsCleared x.hub).wsRun = s.poolsCleared x.hub := State.wsRun_idle rfl
  unfold State.hubAnswer
  simpa [hws, hxfers, htype, hstatus, Xfer.tag, State.updWs, updFirst, State.wsEnd, State.wsPiece, hsent, removeFirst, State.poolsCleared] using hidle

/-- An answer at a hub's stop is the hub's. (`State.atStop` is unfolded as a function, before it is applied: comparing it applied with its body would have the
kernel count `l - 36864` down in unary.) -/
theorem State.atStop_hub {l : Nat} (hguest : stopGuest (l - 36864) = none) (hhub : (stopHub (l - 36864)).isSome = true) (s : State) (h : BulkHdr) (data : List Byte) :
    s.atStop l h data = s.hubAnswer l h := by
  conv in State.atStop => delta State.atStop
  split
  next hg => exact absurd (hguest.symm.trans hg) (by simp)
  next => exact if_pos hhub

/-- An acknowledgement that a hub takes is the hub's to answer (R167, R178). -/
theorem State.ackAt_hub {s : State} {k loc : Nat} {cr : List Nat} {h : BulkHdr} (hk : k < 24) (hloc : loc = stopAt (hubStop k)) (hdest : h.dest = loc)
    (htakes : s.Takes loc h) : s.ackAt loc cr h = (s.took loc h).hubAnswer loc h := by
  obtain ⟨hstop, hguest⟩ := hubStop_spec hk
  have hroute : s.routeTo loc cr h.dest (laneOf h) = .here loc := by
    rw [hdest, hloc]
    exact s.routeTo_stop_self ..
  have hhigh : 36864 ≤ loc := hloc ▸ Nat.le_add_right ..
  have hat : loc - 36864 = hubStop k := by rw [hloc, stopAt, Nat.add_sub_cancel_left]
  have hawake : (decide (h.tag < 0xFFF0) && sleeps s loc) = false := by simp [sleeps, Nat.not_lt.mpr hhigh]
  unfold State.ackAt
  dsimp only
  rw [if_neg (fun hc => Nat.not_lt.mpr hhigh hc.1)]
  refine (unicast_here hroute hawake htakes _ _).trans ((if_pos hhigh).trans (State.atStop_hub ?_ ?_ ..))
  · rw [hat, hguest]
  · rw [hat, hstop]
    rfl

theorem execBulkAck_lastPiece {s : State} {x : WsPiece} {c : Nat} {cr : List Nat} {h : BulkHdr} (hws : s.store.ws = [x]) (hhub : x.hub < 24) (hsent : x.sent = true)
    (hxfers : x.xfers = [.ack h.tag c]) (hdest : h.dest = x.loc) (hstatus : h.status = 0) (htakes : s.Takes x.loc { h with type := 8 }) : ∃ t,
      execBulkAck x.loc cr h s = .next t ∧ t.store.ws = [] ∧ t.parts = s.parts ∧ t.mem = s.mem := by
  have hgdest : { h with type := 8 }.dest = x.loc := hdest
  unfold execBulkAck
  generalize hg : ({ h with type := 8 } : BulkHdr) = g at htakes hgdest ⊢
  have htook := s.took_txOnly x.loc g
  have hheld : (s.took x.loc g).store.ws = [x] := (congrArg Store.ws htook.store).trans hws
  have hack : s.ackAt x.loc cr g = (s.took x.loc g).poolsCleared x.hub := by
    have hloc : x.loc = stopAt (hubStop x.hub) := rfl
    rw [State.ackAt_hub hhub hloc hgdest htakes]
    subst hg
    exact State.hubAnswer_last hheld hsent hxfers rfl hstatus
  obtain ⟨hnone, hparts, hmem⟩ := (s.took x.loc g).poolsCleared_frame x.hub
  exact ⟨_, congrArg Host.Outcome.next hack, hnone, hparts.trans htook.parts, hmem.trans htook.mem⟩

/-! ### The copy of a core, and the time limit (R291, R292, R293) -/

theorem execCommitCopyStart_single {s : State} {q c vx vy : Nat} {l : LayerRun} {pl : Placement} {o : Extent} (hrun : (s.part q).run = some l)
    (hplace : (s.part q).place = some pl) (hpart : s.partOfCore c = some q) (hgoing : l.going = true) (hdue : l.copyDue = true) (hnew : c ∉ l.copied)
    (hfence : (s.core c).fenced = false) (hwork : (s.core c).work = []) (hloaded : ∃ i, (s.task c i).loaded = true)
    (hdone : ∀ e ∈ (s.core c).tasks, e.2.loaded = true → e.2.st = .done) (hat : pl.virtualOf c = some (vx, vy)) (houts : l.plan.outs = [o]) :
    execCommitCopyStart c s =
      let x : StreamDesc := { parseDesc [] with localOff := o.sp, rowBytes := o.len, rowCount := 1, addr := l.copyBase + (vy * l.plan.gx + vx) * o.len }
      .next (((s.updCore c (fun y => { y with streams := y.streams ++ [⟨y.nextTag, 4, 4, 0, 1, x, false, false, [], false⟩], nextTag := (y.nextTag + 1) % 0xFFF0, copies := y.copies + 1 })).updPart q
          (fun x => { x with run := some { l with copied := l.copied ++ [c], copyStarted := true } })).startStreams c) := by
  have hheld : ((s.core c).tasks.filter (fun e => e.2.loaded)).isEmpty = false := by
    obtain ⟨i, hi⟩ := hloaded
    obtain ⟨e, he, hval⟩ := Tab.exists_of_get_ne (z := Task.reset) (k := i) (t := (s.core c).tasks) (fun hreset =>
      Bool.false_ne_true ((congrArg Task.loaded hreset :).symm.trans hi))
    have hmem : e ∈ (s.core c).tasks.filter (fun e => e.2.loaded) := List.mem_filter.mpr ⟨he, (congrArg Task.loaded hval).trans hi⟩
    exact List.isEmpty_eq_false_iff.mpr (List.ne_nil_of_mem hmem)
  have hall : ((s.core c).tasks.filter (fun e => e.2.loaded)).all (fun e => decide (e.2.st = .done)) = true :=
    List.all_eq_true.mpr fun e he => decide_eq_true (hdone e (List.mem_of_mem_filter he) (List.mem_filter.mp he).2)
  unfold execCommitCopyStart
  simp [hpart, hrun, hplace, hgoing, hdue, hnew, hfence, hwork, hheld, hall, hat, houts, forL]

/-- Discarding the slots of a partition changes neither bytes nor what has been sent (R293). -/
theorem State.discardPart_shown (s : State) (p : Nat) : ((s.discardPart p).mem, (s.discardPart p).out) = (s.mem, s.out) :=
  forL_keeps (fun t : State => (t.mem, t.out)) (fun c t => t.updCore c Core.discard) (fun _ _ => rfl) _ (s.cutWeights p)

/-- The partition runs no layer any more, and its scratchpads are stale (R293). -/
def State.layerDropped (s : State) (p : Nat) : State :=
  (((s.wr (GLB_DLR_PART3.STALE p) 1).wr (GLB_DLR_PART3.RUNNING p) 0).wr (GLB_RCV_PART.REPLAYING p) 0).updPart p (fun x => { x with run := none, replay := [] })

theorem State.layerDropped_frame (s : State) {p : Nat} (hp : p < 16) : let t := s.layerDropped p
    (t.part p).run = none ∧ t.bit (GLB_DLR_PART3.STALE p) = true ∧ t.bit (GLB_DLR_PART3.RUNNING p) = false ∧ t.mem = s.mem ∧ t.out = s.out := by
  have hreplay : (GLB_DLR_PART3.RUNNING p).key ≠ (GLB_RCV_PART.REPLAYING p).key := by dsimp only [GLB_DLR_PART3.RUNNING, GLB_RCV_PART.REPLAYING]; omega
  have hreplay' : (GLB_DLR_PART3.STALE p).key ≠ (GLB_RCV_PART.REPLAYING p).key := by dsimp only [GLB_DLR_PART3.STALE, GLB_RCV_PART.REPLAYING]; omega
  have hrun : (GLB_DLR_PART3.STALE p).key ≠ (GLB_DLR_PART3.RUNNING p).key := by dsimp only [GLB_DLR_PART3.STALE, GLB_DLR_PART3.RUNNING]; omega
  refine ⟨congrArg Part.run (State.part_updPart_same ..), ?_, ?_, rfl, rfl⟩
  · exact (State.bit_wr_ne _ _ hreplay').trans ((State.bit_wr_ne _ _ hrun).trans (State.bit_wr_same _ _ _ rfl))
  · exact (State.bit_wr_ne _ _ hreplay).trans (State.bit_wr_same _ _ _ rfl)

section Limit

variable {s : State} {q : Nat} {l : LayerRun} (hq : q < 16) (hrun : (s.part q).run = some l)
include hrun

theorem State.endLayer_eq (status : Nat) : ∃ r0, s.endLayer q status = ((s.draw.2.discardPart q).layerDropped q).finishDesc l.key status 0 r0 0 := by
  unfold State.endLayer
  rw [hrun]
  exact ⟨_, rfl⟩

include hq

theorem execLayerTimeLimit_held (hclamp : ∃ r ∈ s.placedRegions q, s.bit (RGN_PWR_STAT.CLAMPED r) = true) : execLayerTimeLimit q s = .next s := by
  have hany : (s.placedRegions q).any (fun r => s.bit (RGN_PWR_STAT.CLAMPED r)) = true := List.any_eq_true.mpr hclamp
  unfold execLayerTimeLimit
  simp [Nat.mod_eq_of_lt hq, hrun, hany]

theorem execLayerTimeLimit_ends (hgoing : l.going = true) (hon : l.limitOn = true)
    (hfree : ∀ r ∈ s.placedRegions q, s.bit (RGN_PWR_STAT.CLAMPED r) = false) : execLayerTimeLimit q s = .next (s.endLayer q 7) := by
  have hnone : (s.placedRegions q).any (fun r => s.bit (RGN_PWR_STAT.CLAMPED r)) = false := by simpa [List.any_eq_false] using hfree
  unfold execLayerTimeLimit
  simp [Nat.mod_eq_of_lt hq, hrun, hgoing, hon, hnone]

end Limit

/-- The time limit ends a layer that no CLAMP holds with TIMEOUT (R292, R293). -/
theorem execLayerTimeLimit_frame {s : State} {q : Nat} {l : LayerRun} (hq : q < 16) (hrun : (s.part q).run = some l) (hgoing : l.going = true)
    (hon : l.limitOn = true) (hfree : ∀ r ∈ s.placedRegions q, s.bit (RGN_PWR_STAT.CLAMPED r) = false) : ∃ t, execLayerTimeLimit q s = .next t ∧
      (t.part q).run = none ∧ t.bit (GLB_DLR_PART3.STALE q) = true ∧ t.bit (GLB_DLR_PART3.RUNNING q) = false ∧ t.mem = s.mem ∧ t.out = s.out := by
  obtain ⟨r0, hend⟩ := State.endLayer_eq hrun 7
  obtain ⟨hnone, hstale, hidle, hmem, hout⟩ := (s.draw.2.discardPart q).layerDropped_frame hq
  obtain ⟨hmem', hout'⟩ := Prod.mk.inj (s.draw.2.discardPart_shown q)
  exact ⟨_, (execLayerTimeLimit_ends hq hrun hgoing hon hfree).trans (congrArg Host.Outcome.next hend), hnone, hstale, hidle, hmem.trans hmem', hout.trans hout'⟩

/-- Settles O36: each clause is the lemma about its command, on the descriptor that has begun or on the layer that runs. -/
theorem dealerDescriptorsBindPlaceRunAndCommit : Obligations.DealerDescriptorsBindPlaceRunAndCommit := by
  unfold Obligations.DealerDescriptorsBindPlaceRunAndCommit
  intro s u w k d l pl b p a done
  refine ⟨?loads, ?loadsBusy, ?placeWaits, ?places, ?placeFails, ?runs, ?runsManaged, ?runsNoRes, ?commits, ?releases, ?running⟩
  case loads =>
    intro hd bytes x h hwait hfree hread hhdr hreach hwaits hbody hparse
    exact (exec_loadKernel ..).trans (execLoadKernel_binds h hwait hfree hread hhdr hreach hwaits hbody hparse)
  case loadsBusy =>
    intro h hwait hbusy
    exact ⟨_, (exec_loadKernel ..).trans (execLoadKernel_busy h hwait hbusy), h.finished rfl .., rfl, rfl⟩
  case placeWaits => exact fun h hbusy => (exec_place ..).trans (execPlace_held h hbusy)
  case places => exact fun h hdrained hembed => execPlace_fits h hdrained hembed
  case placeFails => exact fun h hdrained hembed => ⟨_, (exec_place ..).trans (execPlace_noRoom h hdrained hembed), h.finished rfl .., rfl, rfl⟩
  case runs =>
    intro temps q h hflow hres hfolds hstarts hwait hloss
    have hplanned := (exec_runLayer k s temps).trans (execRunLayer_planned h temps hflow hres hfolds hstarts hwait hloss)
    refine ⟨fun hplan => ⟨fun hgo => ?_, fun hmoves hbusy => ?_⟩, fun st det hplan => ?_⟩
    · rw [hplanned, State.planned_starts hplan hgo, Option.getD_some]
    · rw [hplanned, State.planned_waits hplan hmoves hbusy, Option.getD_none]
    · rw [hplanned, State.planned_bad hplan, Option.getD_some]
  case runsManaged =>
    intro temps h hflow
    exact ⟨_, (exec_runLayer ..).trans (execRunLayer_noFlow h temps hflow), State.endUnstarted_finished h ..⟩
  case runsNoRes =>
    intro temps h hflow hres
    exact ⟨_, (exec_runLayer ..).trans (execRunLayer_noRes h temps hflow hres), State.endUnstarted_finished h ..⟩
  case commits =>
    exact fun h => ⟨_, (exec_commit ..).trans (execCommit_asks h), h.finished rfl .., (State.finishDesc_part ..).trans (State.part_updPart_same ..), rfl, rfl⟩
  case releases =>
    intro h
    refine ⟨fun hfree => ⟨_, (exec_release ..).trans (execRelease_frees h hfree), h.finished rfl .., ?_, rfl, rfl⟩,
      fun hbusy => ⟨_, (exec_release ..).trans (execRelease_busy h hbusy), h.finished rfl .., rfl⟩⟩
    simp only [State.finishDesc_part, State.part_updPart_same, Tab.get_set_same, p]
  case running =>
    intro q hq hrun hplace
    refine ⟨fun i hgoing hon hnew => ⟨fun hdone => ?_, fun hwait => ?_⟩, ?_, ?_, fun hgoing hon => ⟨fun hclamp => ?_, fun hfree => ?_⟩⟩
    · exact (exec_weightStreamComplete ..).trans (execWeightStreamComplete_done hq hrun hgoing hon hnew hdone)
    · exact (exec_weightStreamComplete ..).trans (execWeightStreamComplete_waits hq hrun hwait)
    · intro x tag c h cr hws hhub hsent hxfers hdest htag hstatus htakes
      exact execBulkAck_lastPiece hws hhub hsent (htag ▸ hxfers) hdest hstatus htakes
    · intro c vx vy o hpart hgoing hdue hnew hfence hwork hloaded hdone hat houts
      obtain ⟨i, hi, -⟩ := hloaded
      exact (exec_commitCopyStart ..).trans (execCommitCopyStart_single hrun hplace hpart hgoing hdue hnew hfence hwork ⟨i, hi⟩ hdone hat houts)
    · exact (exec_layerTimeLimit ..).trans (execLayerTimeLimit_held hq hrun hclamp)
    · exact execLayerTimeLimit_frame hq hrun hgoing hon hfree

end Sys2Proof.Machine

/-! PROOFS. READ_LOG is served from the logbook's mirror (R590, R594), and O38 names the records of the log whether the mirror is in service or not. Refutes
O38. -/

namespace Sys2Proof.Machine

theorem exec_readLog (k : Nat) (s : State) : exec (.readLog k) s = execReadLog k s := rfl

theorem State.mirror_broken {s : State} (h : s.bit TEL_LOG_STAT.MIRROR_OK = false) : s.mirror = [] := by rw [State.mirror, h]; rfl

/-- With the mirror out of service READ_LOG finds no record (R590). -/
theorem execReadLog_noMirror {s : State} {k : Nat} {d : Desc} (h : s.Begins k 0x31 d) (hpf : isPf d.fn = true)
    (hmirror : s.bit TEL_LOG_STAT.MIRROR_OK = false) : execReadLog k s = .next ((s.beginDesc k).finishDesc k 0 0 0 0) := by
  have hnone : (s.beginDesc k).mirror = [] := State.mirror_broken hmirror
  refine congrArg Host.Outcome.next (State.runDesc_of_begins h ?_)
  simp [hpf, hnone, takeRecords]

/-- READ_LOG of PF 0 for records of unit 0 and kind 0, at most 64 bytes of them. -/
def readLogDesc : Desc := ⟨0, 0, 0, slotBytes [0x31, 0, 0xFF, 0xFF, 0, 0, 0, 0, 0, 0, 0, 0, 0, 0, 0, 0, 64], .fetched, 0, 0, 0, 0, false⟩

/-- The panel with one such record, of 32 bytes, in its logbook, and the mirror out of service. -/
def mirrorLost : State :=
  { State.reset with
    host := { HostSide.reset with nextKey := 1, descs := [readLogDesc] }
    tel := { Tel.reset with log := [⟨0, false, 0, 1, 0, []⟩] } }

theorem mirrorLost_begins : mirrorLost.Begins 0 0x31 readLogDesc := by
  refine ⟨rfl, rfl, ?_, ?_, ?_, ?_, ?_⟩ <;> decide +kernel

/-- Refutes O38: with the mirror out of service (`mirrorLost`) READ_LOG returns no byte, where O38 asks for the 32 bytes of the record in the log. -/
theorem not_descriptorsHaveTheirEffects : ¬ Obligations.DescriptorsHaveTheirEffects := by
  unfold Obligations.DescriptorsHaveTheirEffects
  intro h
  obtain ⟨-, -, -, -, -, -, -, -, -, hreadLog, -⟩ := h mirrorLost mirrorLost mirrorLost 0 readLogDesc
  obtain ⟨t, ht, ⟨e, hdesc, -, -, hr0⟩, -⟩ := hreadLog mirrorLost_begins rfl
  rw [exec_readLog, execReadLog_noMirror mirrorLost_begins rfl (by decide)] at ht
  obtain rfl := Host.Outcome.next.inj ht
  have hend : ((mirrorLost.beginDesc 0).finishDesc 0 0 0 0 0).descOf 0 = some { readLogDesc with st := .finished } := by decide +kernel
  obtain rfl := Option.some.inj (hdesc.symm.trans hend)
  exact absurd hr0 (by decide +kernel)

end Sys2Proof.Machine

/-! PROOFS. The host's rings (R320 to R329, R332, R342, R345, R347, R348, R352): doorbells, the entries held for a completion ring, fetching, completion, the
enabling and draining of a ring, and event rings. Settles O37. -/

namespace Sys2Proof.Machine

section Arms

variable (f r k : Nat) (v : W32) (src : Src) (s : State)

theorem exec_sqDoorbell : exec (.sqDoorbell f r v) s = execSqDoorbell f r v s := rfl
theorem exec_cqDoorbell : exec (.cqDoorbell f r v) s = execCqDoorbell f r v s := rfl
theorem exec_descriptorFetch (die : Nat) (slots : List (List Byte)) : exec (.descriptorFetch die slots) s = execDescriptorFetch die slots s := rfl
theorem exec_descriptorComplete : exec (.descriptorComplete k) s = execDescriptorComplete k s := rfl
theorem exec_coalesceTimeout : exec (.coalesceTimeout r) s = execCoalesceTimeout r s := rfl
theorem exec_ringEnable : exec (.ringEnable src r v) s = execRingEnable src r v s := rfl
theorem exec_ringDisable : exec (.ringDisable src r v) s = execRingDisable src r v s := rfl
theorem exec_ringDrained : exec (.ringDrained r) s = execRingDrained r s := rfl
theorem exec_evtHeadWrite : exec (.evtHeadWrite src f v) s = execEvtHeadWrite src f v s := rfl
theorem exec_evtEnable : exec (.evtEnable src f v) s = execEvtEnable src f v s := rfl
theorem exec_hostRequestRejected (q : HostReq) : exec (.hostRequestRejected q) s = execHostRequestRejected q s := rfl

end Arms

/-! ### Doorbells (R323) -/

section Doorbell

variable {s : State} {f r x : Nat}

theorem State.doorbell_foreign (hfunc : s.rd (RING_CFG.FUNC r) ≠ f) : s.doorbell f r x = s.wr (HID_FN_ERR.DB_FOREIGN f) 1 := if_pos (Ne.symm hfunc)

variable (hfunc : s.rd (RING_CFG.FUNC r) = f) (hok : s.ringOk r = true)
include hfunc hok

theorem State.doorbell_tail (hkind : s.rd (RING_CFG.KIND r) = 0) (hx : x < s.ringSize r)
    (hspace : (x + s.ringSize r - s.rd (RING_TAIL.TAIL r)) % s.ringSize r ≤
      (s.rd (RING_HEAD.HEAD r) + s.ringSize r - 1 + s.ringSize r - s.rd (RING_TAIL.TAIL r)) % s.ringSize r) :
    s.doorbell f r x = s.wr (RING_TAIL.TAIL r) x := by
  simp [State.doorbell, hfunc, hok, hkind, Nat.not_le.mpr hx, Nat.not_lt.mpr hspace]

theorem State.doorbell_badTail (hkind : s.rd (RING_CFG.KIND r) = 0) (hbad : s.ringSize r ≤ x ∨
      (s.rd (RING_HEAD.HEAD r) + s.ringSize r - 1 + s.ringSize r - s.rd (RING_TAIL.TAIL r)) % s.ringSize r <
        (x + s.ringSize r - s.rd (RING_TAIL.TAIL r)) % s.ringSize r) : s.doorbell f r x = s.ringError r 1 := by
  simp [State.doorbell, hfunc, hok, hkind, hbad]

theorem State.doorbell_head (hkind : s.rd (RING_CFG.KIND r) = 1) (hx : x < s.ringSize r)
    (hfilled : (x + s.ringSize r - s.rd (RING_HEAD.HEAD r)) % s.ringSize r ≤
      (s.rd (RING_TAIL.TAIL r) + s.ringSize r - s.rd (RING_HEAD.HEAD r)) % s.ringSize r) :
    s.doorbell f r x = ((s.wr (RING_HEAD.HEAD r) x).showFull r).flushHeld r := by
  simp [State.doorbell, hfunc, hok, hkind, Nat.not_le.mpr hx, Nat.not_lt.mpr hfilled]

end Doorbell

section Live

variable {s : State} {f r : Nat} (v : W32) (hlive : s.fnLive f = true) (hr : r < 4096)
include hlive hr

theorem execSqDoorbell_live : execSqDoorbell f r v s = .next (s.doorbell f r v.toNat) := by simp [execSqDoorbell, hlive, hr]

theorem execCqDoorbell_live : execCqDoorbell f r v s = .next (s.doorbell f r v.toNat) := by simp [execCqDoorbell, hlive, hr]

end Live

theorem State.rd_showFull_ne {r : Nat} {g : Field} (hg : g.key ≠ (RING_STAT.FULL r).key) (s : State) : (s.showFull r).rd g = s.rd g := s.rd_wr_ne _ hg

/-- The head that a completion ring's doorbell writes. -/
theorem State.rd_head_showFull (s : State) (r x : Nat) : ((s.wr (RING_HEAD.HEAD r) x).showFull r).rd (RING_HEAD.HEAD r) = x % 2 ^ 16 := by
  rw [State.rd_showFull_ne (by dsimp only [RING_HEAD.HEAD, RING_STAT.FULL]; omega), State.rd_wr_same]
  rfl

/-! ### Held entries (R325, R327) -/

theorem State.flushHeld_none {s : State} (h : s.host.held = []) (r : Nat) : s.flushHeld r = s := by rw [State.flushHeld, h]; rfl

/-- One entry is held, for completion ring `r`, which takes entries. -/
def State.HoldsOne (s : State) (r : Nat) (e : HeldEnt) : Prop := s.host.held = [e] ∧ e.cq = r ∧ s.cqTakes r = true

section HoldsOne

variable {s : State} {r : Nat} {e : HeldEnt} (hone : s.HoldsOne r e)
include hone

theorem State.flushHeld_rejected (hrej : r ∈ s.host.rejects) :
    s.flushHeld r = (s.updHost (fun y => { y with rejects := y.rejects.filter (fun z => decide (z ≠ r)) })).ringError r 3 := by
  obtain ⟨hheld, hcq, htakes⟩ := hone
  simp [State.flushHeld, hheld, forN, htakes, hcq, hrej]

theorem State.flushHeld_written (hrej : r ∉ s.host.rejects) : s.flushHeld r = (s.updHost (fun y => { y with held := [] })).writeEntry e := by
  obtain ⟨hheld, hcq, htakes⟩ := hone
  simp [State.flushHeld, hheld, forN, htakes, hcq, hrej, removeFirst, State.updHost]

end HoldsOne

/-! ### Fetching (R324, R328) -/

theorem map_zipIdx_take {α β : Type} (F : Nat → α → β) (z : α) {l : List α} {m : Nat} (hm : m ≤ l.length) :
    ((l.take m).zipIdx).map (fun e => F e.2 e.1) = (List.range m).map (fun j => F j (l.getD j z)) := by
  refine List.ext_getElem (by simp [hm]) fun i h1 h2 => ?_
  have hi : i < l.length := by simp at h2; omega
  simp [hi]

/-- A read of host memory is counted and sent (R582). -/
theorem State.hostRead_frame (s : State) (f a n : Nat) : (s.hostRead f a n).host = s.host ∧ (s.hostRead f a n).out = .hostRead f a n :: s.out := by
  obtain ⟨hframe, -⟩ := s.pcount_frame 0xFFFE (HID_PERF_RDB.COUNT f) (HID_PERF_WRAP.WRAP f) 1 n
  exact ⟨(congrArg State.host hframe :), congrArg (Out.hostRead f a n :: ·) (congrArg State.out hframe :)⟩

/-- How many descriptors die `die` fetches from ring `r`, with `left` of its turn and `avail` slots read (R324, R328). -/
def State.fetchCount (s : State) (die r left avail : Nat) : Nat :=
  min (min (min 8 left) ((s.rd (RING_TAIL.TAIL r) + s.ringSize r - s.rd (RING_HEAD.HEAD r)) % s.ringSize r))
    (min (s.ringSize r - s.rd (RING_HEAD.HEAD r)) (min (2048 - (s.host.descs.filter (fun d => decide (ringDie d.ring = die))).length) avail))

theorem State.fetchCount_le (s : State) (die r left avail : Nat) : s.fetchCount die r left avail ≤ avail :=
  (Nat.min_le_right ..).trans ((Nat.min_le_right ..).trans (Nat.min_le_right ..))

/-- Descriptor `j` of those that a fetch from ring `r` of function `f` numbers from `k` on. -/
def fetchedDesc (k f r j : Nat) (raw : List Byte) : Desc := ⟨k + j, r, f, slotBytes raw, .fetched, 0, 0, 0, 0, false⟩

/-- `n` descriptors fetched from ring `r` by die `die`, in its turn of `left`: the read, the descriptors, the turn and the ring's head. -/
def State.withFetched (s : State) (die r : Nat) (trump : Bool) (left n : Nat) (slots : List (List Byte)) : State :=
  let h := s.rd (RING_HEAD.HEAD r)
  let f := s.rd (RING_CFG.FUNC r)
  let t := s.hostRead f (s.rd (RING_BASE.BASE r) * 4096 + 64 * h) (64 * n)
  let t := t.updHost (fun x =>
    { x with descs := x.descs ++ ((slots.take n).zipIdx).map (fun e => fetchedDesc t.host.nextKey f r e.2 e.1), nextKey := t.host.nextKey + n })
  let t := t.updHost (fun x =>
    if trump then { x with rrTrump := Tab.set 0 x.rrTrump die (r % 2048) }
    else { x with rrRing := Tab.set 0 x.rrRing die (r % 2048), rrLeft := Tab.set 0 x.rrLeft die (left - n) })
  t.wr (RING_HEAD.HEAD r) ((h + n) % s.ringSize r)

theorem execDescriptorFetch_takes {s : State} {die r left : Nat} {trump : Bool} {slots : List (List Byte)} (hdie : die < 2) (hchg : s.net.chg = none)
    (hring : s.nextRing die = some (r, trump, left)) (hm : 0 < s.fetchCount die r left slots.length) :
    execDescriptorFetch die slots s = .next (s.withFetched die r trump left (s.fetchCount die r left slots.length) slots) := by
  unfold execDescriptorFetch
  simp only [hchg, Option.isSome_none, Nat.not_le.mpr hdie, decide_false, Bool.or_self, Bool.false_eq_true, if_false, hring]
  exact if_neg hm.ne'

theorem State.withFetched_frame (s : State) (die r : Nat) (trump : Bool) (left : Nat) {n : Nat} {slots : List (List Byte)} (hn : n ≤ slots.length) :
    let t := s.withFetched die r trump left n slots
    let h := s.rd (RING_HEAD.HEAD r)
    let f := s.rd (RING_CFG.FUNC r)
    t.rd (RING_HEAD.HEAD r) = (h + n) % s.ringSize r % 2 ^ 16 ∧ t.host.nextKey = s.host.nextKey + n ∧
      t.out = .hostRead f (s.rd (RING_BASE.BASE r) * 4096 + 64 * h) (64 * n) :: s.out ∧
      t.host.descs = s.host.descs ++ (List.range n).map (fun j => fetchedDesc s.host.nextKey f r j (slots.getD j [])) := by
  intro t h f
  obtain ⟨hhost, hout⟩ := s.hostRead_frame f (s.rd (RING_BASE.BASE r) * 4096 + 64 * h) (64 * n)
  have hnew := map_zipIdx_take (fetchedDesc s.host.nextKey f r) [] hn
  refine ⟨State.rd_wr_same .., ?_, hout, ?_⟩
  · cases trump <;> exact congrArg (HostSide.nextKey · + n) hhost
  · rw [← hnew, ← hhost]
    cases trump <;> rfl

/-! ### Completion (R325, R342, R348) -/

section Completion

variable {s : State} {k : Nat} {d : Desc} (hdesc : s.descOf k = some d) (hst : d.st = .finished)
include hdesc hst

theorem execDescriptorComplete_finished :
    execDescriptorComplete k s = .next (if d.wantsEntry then (s.dropDesc k).report (s.entryOf d) else s.dropDesc k) := by
  simp [execDescriptorComplete, hdesc, hst]

theorem execHostRequestRejected_completion (hwants : d.wantsEntry = true) (hok : s.ringOk (s.entryOf d).cq = true) :
    execHostRequestRejected (.completion k) s =
      .next (((s.dropDesc k).updHost (fun y => { y with held := y.held ++ [s.entryOf d] })).ringError (s.entryOf d).cq 3) := by
  have hok' : ((s.dropDesc k).updHost (fun y => { y with held := y.held ++ [s.entryOf d] })).ringOk (s.entryOf d).cq = true := hok
  simp [execHostRequestRejected, hdesc, hst, hwants, hok']

end Completion

theorem execCoalesceTimeout_due {s : State} {r : Nat} (h : Tab.get 0 s.host.coal r ≠ 0) : execCoalesceTimeout r s =
    .next (({ s with host := { s.host with coal := Tab.set 0 s.host.coal r 0 } }).msix (s.rd (RING_CFG.FUNC r)) (s.rd (RING_LINK.VEC r))) := if_neg h

theorem execHostRequestRejected_fetch {s : State} {r : Nat} (hok : s.ringOk r = true) (hkind : s.rd (RING_CFG.KIND r) = 0) :
    execHostRequestRejected (.fetch r) s = .next (s.ringError r 2) := by
  simp [execHostRequestRejected, hok, hkind]

theorem execHostRequestRejected_held {s : State} {r : Nat} (h : r ∉ s.host.rejects) :
    execHostRequestRejected (.held r) s = .next (s.updHost (fun y => { y with rejects := y.rejects ++ [r] })) := by
  simp [execHostRequestRejected, h]

/-! ### Enabling, disabling and draining (R320 to R322, R326) -/

theorem RegsOnly.out {s t : State} (h : RegsOnly s t) : t.out = s.out := by
  obtain ⟨r, rfl⟩ := h
  rfl

/-- The fields of a disabled ring that its write takes: its kind, whether it is a trump ring, and its size. -/
def State.ringShaped (s : State) (r kind trump lg : Nat) : State :=
  ((s.wr (RING_CFG.KIND r) kind).wr (RING_CFG.TRUMP r) trump).wr (RING_CFG.LOG2SIZE r) lg

/-- What a write of the fields beside EN can do: shape the ring where it is disabled, then give it a function (R320, R326). -/
theorem State.ringFields_cases (s : State) (src : Src) (r v : Nat) : ∃ t : State,
    (t = s ∨ s.bit (RING_CFG.EN r) = false ∧ ∃ kind trump lg, t = s.ringShaped r kind trump lg) ∧
      (s.ringFields src r v = t ∨ ∃ f, s.ringFields src r v = t.wr (RING_CFG.FUNC r) f) := by
  refine ⟨if s.bit (RING_CFG.EN r) then s else
    s.ringShaped r (bitsOf v 1 1) (bitsOf v 2 1) (if 6 ≤ bitsOf v 8 5 ∧ bitsOf v 8 5 ≤ 16 then bitsOf v 8 5 else 6), ?_, ?_⟩
  · split
    next => exact .inl rfl
    next hen => exact .inr ⟨Bool.eq_false_iff.mpr hen, _, _, _, rfl⟩
  · unfold State.ringFields
    dsimp only
    split
    · exact (ite_eq_or_eq ..).elim (fun h => .inr ⟨_, h⟩) .inl
    · exact (ite_eq_or_eq ..).elim (fun h => .inr ⟨_, h⟩) .inl

theorem State.ringFields_regsOnly (s : State) (src : Src) (r v : Nat) : RegsOnly s (s.ringFields src r v) := by
  obtain ⟨t, ht, hfunc⟩ := s.ringFields_cases src r v
  have hshape : RegsOnly s t := by
    rcases ht with rfl | ⟨-, kind, trump, lg, rfl⟩
    · exact RegsOnly.refl t
    · exact ⟨_, rfl⟩
  rcases hfunc with h | ⟨f, h⟩ <;> rw [h]
  · exact hshape
  · exact hshape.trans ⟨_, rfl⟩

/-- They leave the ring's state. -/
theorem State.rd_ringFields_state (s : State) (src : Src) (r v : Nat) : (s.ringFields src r v).rd (RING_STAT.STATE r) = s.rd (RING_STAT.STATE r) := by
  obtain ⟨t, ht, hfunc⟩ := s.ringFields_cases src r v
  have hshape : t.rd (RING_STAT.STATE r) = s.rd (RING_STAT.STATE r) := by
    rcases ht with rfl | ⟨-, kind, trump, lg, rfl⟩
    · rfl
    · rw [State.ringShaped, State.rd_wr_ne _ _ (by dsimp only [RING_STAT.STATE, RING_CFG.LOG2SIZE]; omega),
        State.rd_wr_ne _ _ (by dsimp only [RING_STAT.STATE, RING_CFG.TRUMP]; omega), State.rd_wr_ne _ _ (by dsimp only [RING_STAT.STATE, RING_CFG.KIND]; omega)]
  rcases hfunc with h | ⟨f, h⟩ <;> rw [h]
  · exact hshape
  · rw [State.rd_wr_ne _ _ (by dsimp only [RING_STAT.STATE, RING_CFG.FUNC]; omega), hshape]

/-- Of an enabled ring they leave EN and the kind. -/
theorem State.ringFields_enabled {s : State} {r : Nat} (hen : s.bit (RING_CFG.EN r) = true) (src : Src) (v : Nat) :
    (s.ringFields src r v).bit (RING_CFG.EN r) = true ∧ (s.ringFields src r v).rd (RING_CFG.KIND r) = s.rd (RING_CFG.KIND r) := by
  obtain ⟨t, rfl | ⟨hoff, -⟩, hfunc⟩ := s.ringFields_cases src r v
  · rcases hfunc with h | ⟨f, h⟩ <;> rw [h]
    · exact ⟨hen, rfl⟩
    · exact ⟨(State.bit_wr_ne _ _ (by dsimp only [RING_CFG.EN, RING_CFG.FUNC]; omega)).trans hen,
        State.rd_wr_ne _ _ (by dsimp only [RING_CFG.KIND, RING_CFG.FUNC]; omega)⟩
  · rw [hen] at hoff
    cases hoff

/-- The state in which an enabled ring is checked (R321). -/
def State.ringChecked (s : State) (r v : Nat) : State := (s.ringFields .fw r v).wr (RING_STAT.ERR r) 0

/-- A ring that is enabled (R322): its entry, its state and its indexes. -/
def State.ringUp (s : State) (r : Nat) : State :=
  (((((s.wr (RING_CFG.EN r) 1).wr (RING_STAT.STATE r) 1).wr (RING_HEAD.HEAD r) 0).wr (RING_TAIL.TAIL r) 0).wr (RING_TAIL.PHASE r) 1).wr (RING_STAT.FULL r) 0

theorem State.ringChecked_regsOnly (s : State) (r v : Nat) : RegsOnly s (s.ringChecked r v) := (s.ringFields_regsOnly .fw r v).trans (State.wr_regsOnly ..)

theorem State.ringUp_regsOnly (s : State) (r : Nat) : RegsOnly s (s.ringUp r) := ⟨_, rfl⟩

theorem State.ringUp_reads (s : State) (r : Nat) : (s.ringUp r).bit (RING_CFG.EN r) = true ∧ (s.ringUp r).rd (RING_STAT.STATE r) = 1 ∧
    (s.ringUp r).rd (RING_HEAD.HEAD r) = 0 ∧ (s.ringUp r).rd (RING_TAIL.TAIL r) = 0 ∧ (s.ringUp r).rd (RING_TAIL.PHASE r) = 1 := by
  unfold State.ringUp State.bit
  refine ⟨?_, ?_, ?_, ?_, ?_⟩
  · rw [State.rd_wr_ne _ _ (by dsimp only [RING_CFG.EN, RING_STAT.FULL]; omega), State.rd_wr_ne _ _ (by dsimp only [RING_CFG.EN, RING_TAIL.PHASE]; omega),
      State.rd_wr_ne _ _ (by dsimp only [RING_CFG.EN, RING_TAIL.TAIL]; omega), State.rd_wr_ne _ _ (by dsimp only [RING_CFG.EN, RING_HEAD.HEAD]; omega),
      State.rd_wr_ne _ _ (by dsimp only [RING_CFG.EN, RING_STAT.STATE]; omega), State.rd_wr_same]
    rfl
  · rw [State.rd_wr_ne _ _ (by dsimp only [RING_STAT.STATE, RING_STAT.FULL]; omega), State.rd_wr_ne _ _ (by dsimp only [RING_STAT.STATE, RING_TAIL.PHASE]; omega),
      State.rd_wr_ne _ _ (by dsimp only [RING_STAT.STATE, RING_TAIL.TAIL]; omega), State.rd_wr_ne _ _ (by dsimp only [RING_STAT.STATE, RING_HEAD.HEAD]; omega),
      State.rd_wr_same]
    rfl
  · rw [State.rd_wr_ne _ _ (by dsimp only [RING_HEAD.HEAD, RING_STAT.FULL]; omega), State.rd_wr_ne _ _ (by dsimp only [RING_HEAD.HEAD, RING_TAIL.PHASE]; omega),
      State.rd_wr_ne _ _ (by dsimp only [RING_HEAD.HEAD, RING_TAIL.TAIL]; omega), State.rd_wr_same]
    rfl
  · rw [State.rd_wr_ne _ _ (by dsimp only [RING_TAIL.TAIL, RING_STAT.FULL]; omega), State.rd_wr_ne _ _ (by dsimp only [RING_TAIL.TAIL, RING_TAIL.PHASE]; omega),
      State.rd_wr_same]
    rfl
  · rw [State.rd_wr_ne _ _ (by dsimp only [RING_TAIL.PHASE, RING_STAT.FULL]; omega), State.rd_wr_same]
    rfl

section Enable

variable {s : State} {r : Nat} (hr : r < 4096) (hst : s.rd (RING_STAT.STATE r) = 0) (v : W32)
include hst

theorem State.rd_ringChecked_state : (s.ringChecked r v.toNat).rd (RING_STAT.STATE r) = 0 := by
  rw [State.ringChecked, State.rd_wr_ne _ _ (by dsimp only [RING_STAT.STATE, RING_STAT.ERR]; omega), State.rd_ringFields_state, hst]

include hr

theorem execRingEnable_disabled : execRingEnable .fw r v s = .next (((s.ringChecked r v.toNat).enableBad r).elim
    (((s.ringChecked r v.toNat).ringUp r).flushHeld r) (fun e => (s.ringChecked r v.toNat).wr (RING_STAT.ERR r) e)) := by
  have hfields : ¬ (s.ringFields .fw r v.toNat).rd (RING_STAT.STATE r) = 3 := by rw [State.rd_ringFields_state, hst]; decide
  unfold execRingEnable
  rw [if_neg (by simp [State.ownRing, hr])]
  dsimp only
  rw [if_neg hfields]
  refine (if_neg (not_not_intro (State.rd_ringChecked_state hst v))).trans ?_
  change (match (s.ringChecked r v.toNat).enableBad r with | some e => _ | none => _) = _
  cases (s.ringChecked r v.toNat).enableBad r <;> rfl

theorem execRingEnable_starts (hgood : (s.ringChecked r v.toNat).enableBad r = none) :
    execRingEnable .fw r v s = .next (((s.ringChecked r v.toNat).ringUp r).flushHeld r) := by
  rw [execRingEnable_disabled hr hst, hgood, Option.elim_none]

theorem execRingEnable_refused {e : Nat} (hbad : (s.ringChecked r v.toNat).enableBad r = some e) :
    execRingEnable .fw r v s = .next ((s.ringChecked r v.toNat).wr (RING_STAT.ERR r) e) := by
  rw [execRingEnable_disabled hr hst, hbad, Option.elim_some]

end Enable

/-- A ring that is disabled drains (R326). -/
def State.ringDown (s : State) (r : Nat) : State := (s.wr (RING_CFG.EN r) 0).wr (RING_STAT.STATE r) 3

theorem State.ringDown_regsOnly (s : State) (r : Nat) : RegsOnly s (s.ringDown r) := ⟨_, rfl⟩

theorem State.ringDown_reads (s : State) (r : Nat) : (s.ringDown r).bit (RING_CFG.EN r) = false ∧ (s.ringDown r).rd (RING_STAT.STATE r) = 3 := by
  refine ⟨?_, State.rd_wr_same ..⟩
  rw [State.ringDown, State.bit_wr_ne _ _ (by dsimp only [RING_CFG.EN, RING_STAT.STATE]; omega), State.bit_wr_same _ _ _ rfl]
  rfl

theorem execRingDisable_submission {s : State} {r : Nat} (hr : r < 4096) (hen : s.bit (RING_CFG.EN r) = true) (hkind : s.rd (RING_CFG.KIND r) = 0) (v : W32) :
    execRingDisable .fw r v s = .next ((s.ringFields .fw r v.toNat).ringDown r) := by
  obtain ⟨hen', hkind'⟩ := State.ringFields_enabled hen .fw v.toNat
  rw [hkind] at hkind'
  unfold execRingDisable
  rw [if_neg (by simp [State.ownRing, hr])]
  dsimp only
  rw [if_neg (by simp [hen']), if_neg (by simp [hkind'])]
  rfl

theorem execRingDrained_empty {s : State} {r : Nat} (hst : s.rd (RING_STAT.STATE r) = 3) (hdescs : ∀ d ∈ s.host.descs, d.ring ≠ r)
    (hheld : ∀ e ∈ s.host.held, e.sq ≠ r) : execRingDrained r s = .next (s.wr (RING_STAT.STATE r) 0) := by
  have hout : (s.host.descs.any (fun d => decide (d.ring = r)) || s.host.held.any (fun e => decide (e.sq = r))) = false := by
    simpa [List.any_eq_false] using ⟨hdescs, hheld⟩
  unfold execRingDrained
  rw [if_neg (not_not_intro hst), hout]
  rfl

/-! ### Event rings (R329, R332, R345) -/

section EvtHead

variable {s : State} {f : Nat} {v : W32} (hf : f < 16)

theorem execEvtHeadWrite_ignored (hbad : 2 ^ s.rd (HID_EVT_CFG.LOG2SIZE f) ≤ bitsOf v.toNat 0 12) : execEvtHeadWrite (.fn f) f v s = .next s :=
  if_pos (by simp [hbad])

include hf

theorem execEvtHeadWrite_frees (hgood : bitsOf v.toNat 0 12 < 2 ^ s.rd (HID_EVT_CFG.LOG2SIZE f))
    (hfilled : (bitsOf v.toNat 0 12 + 2 ^ s.rd (HID_EVT_CFG.LOG2SIZE f) - s.rd (HID_EVT_HEAD.HEAD f)) % 2 ^ s.rd (HID_EVT_CFG.LOG2SIZE f) ≤
      (s.rd (HID_EVT_TAIL.TAIL f) + 2 ^ s.rd (HID_EVT_CFG.LOG2SIZE f) - s.rd (HID_EVT_HEAD.HEAD f)) % 2 ^ s.rd (HID_EVT_CFG.LOG2SIZE f)) :
    execEvtHeadWrite (.fn f) f v s = .next ((s.wr (HID_EVT_HEAD.HEAD f) (bitsOf v.toNat 0 12)).evtFlush f) :=
  if_neg (by simp [ownFn, hf, hgood, hfilled])

end EvtHead

/-- The fields of HID_EVT_CFG written. -/
def State.evtShaped (s : State) (f v : Nat) : State :=
  ((s.wr (HID_EVT_CFG.EN f) (bitsOf v 0 1)).wr (HID_EVT_CFG.LOG2SIZE f) (if 6 ≤ bitsOf v 8 4 ∧ bitsOf v 8 4 ≤ 12 then bitsOf v 8 4 else 6)).wr
    (HID_EVT_CFG.VEC f) (bitsOf v 16 11)

/-- An event ring that is enabled begins anew (R332). -/
def State.evtAnew (s : State) (f : Nat) : State :=
  ((((s.wr (HID_EVT_HEAD.HEAD f) 0).wr (HID_EVT_TAIL.TAIL f) 0).wr (HID_EVT_TAIL.PHASE f) 1).wr (HID_FN_ERR.EVLOST f) 0).updHost
    (fun h => { h with evtSeq := Tab.set 0 h.evtSeq f 0, evtLost := Tab.set 0 h.evtLost f 0 })

theorem execEvtEnable_own {f : Nat} (hf : f < 16) (v : W32) (s : State) : execEvtEnable (.fn f) f v s =
    .next (if bitsOf v.toNat 0 1 = 0 then s.evtShaped f v.toNat else (s.evtShaped f v.toNat).evtAnew f) := by
  unfold execEvtEnable
  rw [if_neg (by simp [ownFn, hf]), apply_ite Host.Outcome.next]
  rfl

/-- What the fields of HID_EVT_CFG say. -/
def EvtConfigured (f v : Nat) (t : State) : Prop :=
  t.rd (HID_EVT_CFG.EN f) = bitsOf v 0 1 ∧ t.rd (HID_EVT_CFG.VEC f) = bitsOf v 16 11 ∧
    t.rd (HID_EVT_CFG.LOG2SIZE f) = if 6 ≤ bitsOf v 8 4 ∧ bitsOf v 8 4 ≤ 12 then bitsOf v 8 4 else 6

theorem State.evtShaped_configured (s : State) (f v : Nat) : EvtConfigured f v (s.evtShaped f v) := by
  have hsize : (if 6 ≤ bitsOf v 8 4 ∧ bitsOf v 8 4 ≤ 12 then bitsOf v 8 4 else 6) < 2 ^ 4 := by split <;> omega
  refine ⟨?_, ?_, ?_⟩
  · rw [State.evtShaped, State.rd_wr_ne _ _ (by dsimp only [HID_EVT_CFG.EN, HID_EVT_CFG.VEC]; omega),
      State.rd_wr_ne _ _ (by dsimp only [HID_EVT_CFG.EN, HID_EVT_CFG.LOG2SIZE]; omega), State.rd_wr_same]
    exact bitsOf_mod ..
  · rw [State.evtShaped, State.rd_wr_same]
    exact bitsOf_mod ..
  · rw [State.evtShaped, State.rd_wr_ne _ _ (by dsimp only [HID_EVT_CFG.LOG2SIZE, HID_EVT_CFG.VEC]; omega), State.rd_wr_same]
    exact Nat.mod_eq_of_lt hsize

/-- The indexes stand beside HID_EVT_CFG. -/
theorem State.rd_evtAnew_ne {f : Nat} {g : Field} (hhead : g.key ≠ (HID_EVT_HEAD.HEAD f).key) (htail : g.key ≠ (HID_EVT_TAIL.TAIL f).key)
    (hphase : g.key ≠ (HID_EVT_TAIL.PHASE f).key) (hlost : g.key ≠ (HID_FN_ERR.EVLOST f).key) (s : State) : (s.evtAnew f).rd g = s.rd g := by
  rw [State.evtAnew, State.rd_updHost, State.rd_wr_ne _ _ hlost, State.rd_wr_ne _ _ hphase, State.rd_wr_ne _ _ htail, State.rd_wr_ne _ _ hhead]

theorem EvtConfigured.anew {f v : Nat} {t : State} (h : EvtConfigured f v t) : EvtConfigured f v (t.evtAnew f) := by
  obtain ⟨hen, hvec, hsize⟩ := h
  refine ⟨?_, ?_, ?_⟩
  · rw [State.rd_evtAnew_ne (by dsimp only [HID_EVT_CFG.EN, HID_EVT_HEAD.HEAD]; omega) (by dsimp only [HID_EVT_CFG.EN, HID_EVT_TAIL.TAIL]; omega)
      (by dsimp only [HID_EVT_CFG.EN, HID_EVT_TAIL.PHASE]; omega) (by dsimp only [HID_EVT_CFG.EN, HID_FN_ERR.EVLOST]; omega), hen]
  · rw [State.rd_evtAnew_ne (by dsimp only [HID_EVT_CFG.VEC, HID_EVT_HEAD.HEAD]; omega) (by dsimp only [HID_EVT_CFG.VEC, HID_EVT_TAIL.TAIL]; omega)
      (by dsimp only [HID_EVT_CFG.VEC, HID_EVT_TAIL.PHASE]; omega) (by dsimp only [HID_EVT_CFG.VEC, HID_FN_ERR.EVLOST]; omega), hvec]
  · rw [State.rd_evtAnew_ne (by dsimp only [HID_EVT_CFG.LOG2SIZE, HID_EVT_HEAD.HEAD]; omega) (by dsimp only [HID_EVT_CFG.LOG2SIZE, HID_EVT_TAIL.TAIL]; omega)
      (by dsimp only [HID_EVT_CFG.LOG2SIZE, HID_EVT_TAIL.PHASE]; omega) (by dsimp only [HID_EVT_CFG.LOG2SIZE, HID_FN_ERR.EVLOST]; omega), hsize]

theorem State.evtAnew_reads (s : State) (f : Nat) : let t := s.evtAnew f
    t.rd (HID_EVT_HEAD.HEAD f) = 0 ∧ t.rd (HID_EVT_TAIL.TAIL f) = 0 ∧ t.rd (HID_EVT_TAIL.PHASE f) = 1 ∧ t.rd (HID_FN_ERR.EVLOST f) = 0 ∧
      Tab.get 0 t.host.evtSeq f = 0 := by
  dsimp only
  rw [State.evtAnew]
  simp only [State.rd_updHost]
  refine ⟨?_, ?_, ?_, State.rd_wr_same .., Tab.get_set_same 0 s.host.evtSeq f 0⟩
  · rw [State.rd_wr_ne _ _ (by dsimp only [HID_EVT_HEAD.HEAD, HID_FN_ERR.EVLOST]; omega), State.rd_wr_ne _ _ (by dsimp only [HID_EVT_HEAD.HEAD, HID_EVT_TAIL.PHASE]; omega),
      State.rd_wr_ne _ _ (by dsimp only [HID_EVT_HEAD.HEAD, HID_EVT_TAIL.TAIL]; omega), State.rd_wr_same]
    rfl
  · rw [State.rd_wr_ne _ _ (by dsimp only [HID_EVT_TAIL.TAIL, HID_FN_ERR.EVLOST]; omega), State.rd_wr_ne _ _ (by dsimp only [HID_EVT_TAIL.TAIL, HID_EVT_TAIL.PHASE]; omega),
      State.rd_wr_same]
    rfl
  · rw [State.rd_wr_ne _ _ (by dsimp only [HID_EVT_TAIL.PHASE, HID_FN_ERR.EVLOST]; omega), State.rd_wr_same]
    rfl

theorem execEvtEnable_frame {f : Nat} (hf : f < 16) (v : W32) (s : State) : ∃ t, execEvtEnable (.fn f) f v s = .next t ∧ EvtConfigured f v.toNat t ∧
    (bitsOf v.toNat 0 1 = 1 → t.rd (HID_EVT_HEAD.HEAD f) = 0 ∧ t.rd (HID_EVT_TAIL.TAIL f) = 0 ∧ t.rd (HID_EVT_TAIL.PHASE f) = 1 ∧
      t.rd (HID_FN_ERR.EVLOST f) = 0 ∧ Tab.get 0 t.host.evtSeq f = 0) ∧ t.out = s.out ∧ t.mem = s.mem := by
  refine ⟨_, execEvtEnable_own hf v s, ?_⟩
  split
  next hoff => exact ⟨s.evtShaped_configured f _, fun hon => absurd (hoff.symm.trans hon) (by decide), rfl, rfl⟩
  next => exact ⟨(s.evtShaped_configured f _).anew, fun _ => State.evtAnew_reads _ f, rfl, rfl⟩

/-- Settles O37: each clause is the lemma about its command. -/
theorem ringsFetchReportAndFail : Obligations.RingsFetchReportAndFail := by
  unfold Obligations.RingsFetchReportAndFail
  intro s f r v hr hf n h tl x
  refine ⟨?foreign, ?doorbells, ?fetch, ?complete, ?coalesce, ?enable, ?disable, ?drained, ?evtHead, ?evtEnable, ?rejectFetch, ?rejectCompletion, ?rejectHeld,
    ?flushRejected, ?flushWritten⟩
  case foreign =>
    intro hlive hfunc
    exact ⟨(exec_sqDoorbell ..).trans ((execSqDoorbell_live v hlive hr).trans (congrArg _ (State.doorbell_foreign hfunc))),
      (exec_cqDoorbell ..).trans ((execCqDoorbell_live v hlive hr).trans (congrArg _ (State.doorbell_foreign hfunc)))⟩
  case doorbells =>
    intro hlive hfunc hok
    have hsq := (exec_sqDoorbell f r v s).trans (execSqDoorbell_live v hlive hr)
    have hcq := (exec_cqDoorbell f r v s).trans (execCqDoorbell_live v hlive hr)
    refine ⟨fun hkind hx hspace => ?_, fun hkind hbad => ?_, fun hkind hx hfilled => ?_⟩
    · rw [hsq, State.doorbell_tail hfunc hok hkind hx hspace]
    · rw [hsq, State.doorbell_badTail hfunc hok hkind hbad]
    · rw [hcq, State.doorbell_head hfunc hok hkind hx hfilled]
      exact ⟨rfl, s.rd_head_showFull r x, rfl, rfl, fun hheld => State.flushHeld_none (s := (s.wr (RING_HEAD.HEAD r) x).showFull r) hheld r⟩
  case fetch =>
    intro die trump left slots hdie hchg hring m hm hfunc
    have hcount : m = s.fetchCount die r left slots.length := rfl
    clear_value m
    subst hcount
    exact ⟨_, (exec_descriptorFetch ..).trans (execDescriptorFetch_takes hdie hchg hring hm),
      s.withFetched_frame die r trump left (s.fetchCount_le die r left slots.length)⟩
  case complete =>
    intro k d hdesc hst
    have hdone := (exec_descriptorComplete k s).trans (execDescriptorComplete_finished hdesc hst)
    exact ⟨fun hwants => hdone.trans (by rw [hwants]; rfl), fun hwants => hdone.trans (by rw [hwants]; rfl)⟩
  case coalesce => exact fun hdue => (exec_coalesceTimeout ..).trans (execCoalesceTimeout_due hdue)
  case enable =>
    intro hst
    have hchecked := s.ringChecked_regsOnly r x
    refine ⟨fun hgood => ⟨_, (exec_ringEnable ..).trans (execRingEnable_starts hr hst v hgood), ?_⟩, fun e he hbad =>
      ⟨_, (exec_ringEnable ..).trans (execRingEnable_refused hr hst v hbad), ?_, ?_, ?_⟩⟩
    · obtain ⟨hen, hstate, hhead, htail, hphase⟩ := (s.ringChecked r v.toNat).ringUp_reads r
      have hup := hchecked.trans ((s.ringChecked r x).ringUp_regsOnly r)
      exact ⟨hen, hstate, hhead, htail, hphase, hup.out, hup.host, fun hheld => State.flushHeld_none ((congrArg HostSide.held hup.host).trans hheld) r⟩
    · rw [State.rd_wr_ne _ _ (by dsimp only [RING_STAT.STATE, RING_STAT.ERR]; omega), State.rd_ringChecked_state hst]
    · exact (State.rd_wr_same ..).trans (Nat.mod_eq_of_lt (by dsimp only [RING_STAT.ERR]; omega))
    · exact (hchecked.trans (State.wr_regsOnly ..)).out
  case disable =>
    intro hen hkind
    have hdown := (s.ringFields_regsOnly .fw r x).trans ((s.ringFields .fw r x).ringDown_regsOnly r)
    obtain ⟨hoff, hstate⟩ := (s.ringFields .fw r x).ringDown_reads r
    exact ⟨_, (exec_ringDisable ..).trans (execRingDisable_submission hr hen hkind v), hoff, hstate, hdown.host, hdown.out⟩
  case drained => exact fun hst hdescs hheld => (exec_ringDrained ..).trans (execRingDrained_empty hst hdescs hheld)
  case evtHead =>
    exact ⟨fun hgood hfilled => (exec_evtHeadWrite ..).trans (execEvtHeadWrite_frees hf hgood hfilled),
      fun hbad => (exec_evtHeadWrite ..).trans (execEvtHeadWrite_ignored hbad)⟩
  case evtEnable =>
    obtain ⟨t, ht, ⟨hen, hvec, hsize⟩, hanew, hout, hmem⟩ := execEvtEnable_frame hf v s
    exact ⟨t, (exec_evtEnable ..).trans ht, hen, hvec, hsize, hanew, hout, hmem⟩
  case rejectFetch => exact fun hok hkind => (exec_hostRequestRejected ..).trans (execHostRequestRejected_fetch hok hkind)
  case rejectCompletion => exact fun k d hdesc hst hwants hok => (exec_hostRequestRejected ..).trans (execHostRequestRejected_completion hdesc hst hwants hok)
  case rejectHeld => exact fun hrej => (exec_hostRequestRejected ..).trans (execHostRequestRejected_held hrej)
  case flushRejected => exact fun e hrej hheld hcq htakes => State.flushHeld_rejected ⟨hheld, hcq, htakes⟩ hrej
  case flushWritten => exact fun e hrej hheld hcq htakes => State.flushHeld_written ⟨hheld, hcq, htakes⟩ hrej

end Sys2Proof.Machine

/-! PROOFS. What an event of the host's functions and a record of the logbook leave: quiet registers, and all beside the functions' event state (R329, R345, R346,
R590, R591); the reset of a scope noted (R526, R530). -/

namespace Sys2Proof.Machine

/-! ### Registers that no event and no record of the logbook touches -/

/-- A register outside the functions' own records (R332) and outside the logbook's registers (R597). -/
def quiet (f : Field) : Prop := (f.key < 8 * 0x10000 ∨ 8 * 0x11000 ≤ f.key) ∧ (f.key < 8 * 0x140020 ∨ 8 * 0x140030 ≤ f.key)

/-- `t` is `s` after events and records of the logbook: registers that are not quiet, the telemetry, the functions' event state and what was sent differ. -/
def Announced (s t : State) : Prop :=
  (∃ regs tel out evtSeq evtLost pba,
    t = { s with regs := regs, tel := tel, out := out, host := { s.host with evtSeq := evtSeq, evtLost := evtLost, pba := pba } }) ∧
  ∀ f : Field, quiet f → t.rd f = s.rd f

theorem Announced.refl (s : State) : Announced s s := ⟨⟨_, _, _, _, _, _, rfl⟩, fun _ _ => rfl⟩

theorem Announced.trans {s t u : State} (h : Announced s t) (k : Announced t u) : Announced s u := by
  obtain ⟨⟨_, _, _, _, _, _, rfl⟩, hrd⟩ := h
  obtain ⟨⟨_, _, _, _, _, _, rfl⟩, krd⟩ := k
  exact ⟨⟨_, _, _, _, _, _, rfl⟩, fun f hf => (krd f hf).trans (hrd f hf)⟩

theorem Announced.rd {s t : State} (h : Announced s t) {f : Field} (hf : quiet f) : t.rd f = s.rd f := h.2 f hf

theorem Announced.bit {s t : State} (h : Announced s t) {f : Field} (hf : quiet f) : t.bit f = s.bit f := State.bit_eq_of_rd (h.2 f hf)

theorem Announced.ite {c : Prop} [Decidable c] {s t u : State} (ht : Announced s t) (hu : Announced s u) : Announced s (if c then t else u) := by
  split
  · exact ht
  · exact hu

/-- What events and records leave beside the registers. -/
theorem Announced.frame {s t : State} (h : Announced s t) : t.mem = s.mem ∧ t.mgmt = s.mgmt ∧ t.rcv = s.rcv ∧ t.parts = s.parts ∧ t.boot = s.boot := by
  obtain ⟨⟨_, _, _, _, _, _, rfl⟩, -⟩ := h
  exact ⟨rfl, rfl, rfl, rfl, rfl⟩

theorem Announced.mem {s t : State} (h : Announced s t) : t.mem = s.mem := h.frame.1

/-- What they leave of the host's side: the descriptors, and the state of the endpoints' links. -/
theorem Announced.host {s t : State} (h : Announced s t) : t.host.descs = s.host.descs ∧ t.host.stwLost = s.host.stwLost ∧ t.host.inReset = s.host.inReset ∧
    t.host.linkDown = s.host.linkDown := by
  obtain ⟨⟨_, _, _, _, _, _, rfl⟩, -⟩ := h
  exact ⟨rfl, rfl, rfl, rfl⟩

theorem State.wr_announced {f : Field} (hf : ¬ quiet f) (s : State) (v : Nat) : Announced s (s.wr f v) :=
  ⟨⟨_, _, _, _, _, _, rfl⟩, fun g hg => s.rd_wr_ne v fun hkey => hf (by rw [quiet, hkey] at hg; exact hg)⟩

theorem State.pcount_announced {f wrap : Field} (hf : ¬ quiet f) (hwrap : ¬ quiet wrap) (s : State) (unit bit n : Nat) :
    Announced s (s.pcount unit f wrap bit n) := by
  have hcount := s.wr_announced hf (s.rd f + n)
  unfold State.pcount
  dsimp only
  split
  · exact hcount
  · split
    · exact hcount
    · exact (hcount.trans (State.wr_announced hwrap ..)).trans ⟨⟨_, _, _, _, _, _, rfl⟩, fun _ _ => rfl⟩

theorem State.msix_announced (s : State) (fn v : Nat) : Announced s (s.msix fn v) := by
  unfold State.msix
  split
  · exact Announced.refl s
  · split
    · exact ⟨⟨_, _, _, _, _, _, rfl⟩, fun _ _ => rfl⟩
    · exact ⟨⟨_, _, _, _, _, _, rfl⟩, fun _ _ => rfl⟩

section Event

variable {f : Nat} (hf : f < 16)
include hf

/-- The registers of an event ring are those of its function's record. -/
theorem not_quiet_evt : ¬ quiet (HID_EVT_TAIL.TAIL f) ∧ ¬ quiet (HID_EVT_TAIL.PHASE f) ∧ ¬ quiet (HID_FN_ERR.EVLOST f) ∧ ¬ quiet (HID_PERF_WRB.COUNT f) ∧
    ¬ quiet (HID_PERF_WRAP.WRAP f) := by
  refine ⟨?_, ?_, ?_, ?_, ?_⟩
  · dsimp only [quiet, HID_EVT_TAIL.TAIL]; omega
  · dsimp only [quiet, HID_EVT_TAIL.PHASE]; omega
  · dsimp only [quiet, HID_FN_ERR.EVLOST]; omega
  · dsimp only [quiet, HID_PERF_WRB.COUNT]; omega
  · dsimp only [quiet, HID_PERF_WRAP.WRAP]; omega

theorem State.hostWrite_announced (s : State) (a : Nat) (data : List Byte) : Announced s (s.hostWrite f a data) := by
  obtain ⟨-, -, -, hcount, hwrap⟩ := not_quiet_evt hf
  exact (s.pcount_announced hcount hwrap ..).trans ⟨⟨_, _, _, _, _, _, rfl⟩, fun _ _ => rfl⟩

theorem State.evtPut_announced (s : State) (ty part sev : Nat) (payload : List Byte) : Announced s (s.evtPut f ty part sev payload) := by
  obtain ⟨htail, hphase, -⟩ := not_quiet_evt hf
  have hseq (t : State) (q : Tab Nat) : Announced t (t.updHost (fun h => { h with evtSeq := q })) := ⟨⟨_, _, _, _, _, _, rfl⟩, fun _ _ => rfl⟩
  unfold State.evtPut
  dsimp only
  refine Announced.trans ?_ ((State.wr_announced htail ..).trans (State.msix_announced ..))
  split
  · exact ((s.hostWrite_announced hf ..).trans (hseq _ _)).trans (State.wr_announced hphase ..)
  · exact (s.hostWrite_announced hf ..).trans (hseq _ _)

theorem State.evtFlush_announced (s : State) : Announced s (s.evtFlush f) := by
  unfold State.evtFlush
  dsimp only
  split
  · exact Announced.refl s
  · exact (s.evtPut_announced hf ..).trans ⟨⟨_, _, _, _, _, _, rfl⟩, fun _ _ => rfl⟩

theorem State.postEvent_announced (s : State) (ty part sev : Nat) (payload : List Byte) : Announced s (s.postEvent f ty part sev payload) := by
  obtain ⟨-, -, hlost, -⟩ := not_quiet_evt hf
  have hlose (t : State) : Announced t (t.evtLose f) := (t.wr_announced hlost _).trans ⟨⟨_, _, _, _, _, _, rfl⟩, fun _ _ => rfl⟩
  unfold State.postEvent
  dsimp only
  split
  · split
    · exact (s.evtFlush_announced hf).trans (hlose _)
    · exact (s.evtFlush_announced hf).trans (State.evtPut_announced hf ..)
  · exact Announced.refl s

theorem State.postEvent_if_announced (s : State) (c : Bool) (ty part sev : Nat) (payload : List Byte) :
    Announced s (if c then s.postEvent f ty part sev payload else s) := (s.postEvent_announced hf ..).ite (Announced.refl s)

end Event

theorem forN_announced {f : Nat → State → State} {n : Nat} (hf : ∀ i < n, ∀ t, Announced t (f i t)) (s : State) : Announced s (forN n f s) :=
  forN_preserves_lt (P := Announced s) (fun i hi t ht => ht.trans (hf i hi t)) (Announced.refl s)

theorem forL_announced {α : Type} {f : α → State → State} {l : List α} (hf : ∀ a ∈ l, ∀ t, Announced t (f a t)) (s : State) : Announced s (forL l f s) :=
  forL_preserves_mem (P := Announced s) (fun a ha t ht => ht.trans (hf a ha t)) (Announced.refl s)

theorem pf_lt {f : Nat} (h : f ∈ [0, 8]) : f < 16 := by
  rcases List.mem_cons.mp h with rfl | h
  · decide
  · rw [List.mem_singleton.mp h]
    decide

theorem State.postPanel_announced (s : State) (ty part sev : Nat) (payload : List Byte) : Announced s (s.postPanel ty part sev payload) :=
  forL_announced (fun _ hf t => t.postEvent_if_announced (pf_lt hf) ..) s

theorem State.postOwner_announced (s : State) (p ty sev : Nat) (payload : List Byte) : Announced s (s.postOwner p ty sev payload) :=
  s.postEvent_if_announced (s.rd_lt (HID_PART.OWNER p)) ..

theorem State.postBoth_announced (s : State) (p ty sev : Nat) (payload : List Byte) : Announced s (s.postBoth p ty sev payload) :=
  (s.postOwner_announced p ty sev payload).trans (forL_announced (fun _ hf t => t.postEvent_if_announced (pf_lt hf) ..) _)

/-! ### Records of the logbook (R590, R591) -/

theorem not_quiet_log : ¬ quiet TEL_LOG_STAT.FILL ∧ ¬ quiet TEL_LOG_SEQ.SEQ := by
  constructor
  · dsimp only [quiet, TEL_LOG_STAT.FILL]; omega
  · dsimp only [quiet, TEL_LOG_SEQ.SEQ]; omega

theorem State.setTel_announced (s : State) (x : Tel) : Announced s { s with tel := x } := ⟨⟨_, _, _, _, _, _, rfl⟩, fun _ _ => rfl⟩

theorem State.logSpace_announced (s : State) : Announced s s.logSpace := by
  obtain ⟨hfill, -⟩ := not_quiet_log
  unfold State.logSpace
  dsimp only
  split
  · exact ((((s.wr_announced hfill _).trans (State.setTel_announced ..)).trans (State.wr_announced hfill ..))).trans (State.postPanel_announced ..)
  · exact s.wr_announced hfill _

theorem State.logErase_announced (s : State) : Announced s s.logErase := by
  unfold State.logErase
  exact (s.setTel_announced _).ite (Announced.refl s)

theorem State.logWrite_announced (s : State) (kind unit : Nat) (payload : List Byte) : Announced s (s.logWrite kind unit payload) := by
  obtain ⟨-, hseq⟩ := not_quiet_log
  unfold State.logWrite
  split
  · exact Announced.refl s
  · exact ((s.logErase_announced.trans (State.setTel_announced ..)).trans (State.wr_announced hseq ..)).trans (State.logSpace_announced _)

/-! ### A reset noted (R526, R530) -/

/-- The cause and time of a scope's reset, and no idle request within it. -/
def State.resetNoted (s : State) (scope cause : Nat) (forced : Bool) : State :=
  ({ s with boot := { s.boot with idle := s.boot.idle.filter (fun e => !within e.1 scope) } }).noteOne scope cause forced

theorem State.noteReset_announced (s : State) (scope cause : Nat) (forced : Bool) :
    Announced (s.resetNoted scope cause forced) (s.noteReset scope cause forced) := by
  unfold State.noteReset
  dsimp only
  split
  · exact State.logWrite_announced ..
  · exact (State.logWrite_announced ..).trans (State.postPanel_announced ..)

theorem State.resetNoted_cause (s : State) (scope : Nat) {cause : Nat} (hcause : cause < 256) (forced : Bool) :
    (s.resetNoted scope cause forced).rd (RST_LAST_CAUSE.CAUSE scope) = cause := by
  rw [State.resetNoted, State.noteOne, State.rd_wr_ne _ _ (by dsimp only [RST_LAST_CAUSE.CAUSE, RST_LAST_TIME.TIME]; omega),
    State.rd_wr_ne _ _ (by dsimp only [RST_LAST_CAUSE.CAUSE, RST_LAST_CAUSE.FORCED]; omega), State.rd_wr_same]
  exact Nat.mod_eq_of_lt hcause

theorem State.noteReset_frame (s : State) {scope cause : Nat} (hscope : scope < 215) (hcause : cause < 256) (forced : Bool) :
    let t := s.noteReset scope cause forced
    t.rd (RST_LAST_CAUSE.CAUSE scope) = cause ∧ t.mem = s.mem ∧ t.mgmt = s.mgmt ∧ t.rcv = s.rcv ∧ t.host.descs = s.host.descs ∧
      t.host.inReset = s.host.inReset := by
  have hann := s.noteReset_announced scope cause forced
  obtain ⟨hmem, hmgmt, hrcv, -⟩ := hann.frame
  obtain ⟨hdescs, -, hreset, -⟩ := hann.host
  exact ⟨(hann.rd (by dsimp only [quiet, RST_LAST_CAUSE.CAUSE]; omega)).trans (s.resetNoted_cause scope hcause forced), hmem, hmgmt, hrcv, hdescs, hreset⟩

end Sys2Proof.Machine

/-! PROOFS. The stewards and the region managers (R352, R562 to R568, R600, R609, R682): heartbeats, takeovers, the standby's failure and return, and a host
interface die that has lost both stewards. Settles O53. -/

namespace Sys2Proof.Machine

section Arms

variable (r us hid : Nat) (s : State)

theorem exec_stewardHeartbeatTimer (wire : Bool) : exec (.stewardHeartbeatTimer wire) s = execStewardHeartbeatTimer wire s := rfl
theorem exec_stewardTakeover : exec (.stewardTakeover us) s = execStewardTakeover us s := rfl
theorem exec_handoverWaitExpiry : exec .handoverWaitExpiry s = execHandoverWaitExpiry s := rfl
theorem exec_standbyFailure : exec .standbyFailure s = execStandbyFailure s := rfl
theorem exec_standbyMirrorComplete : exec .standbyMirrorComplete s = execStandbyMirrorComplete s := rfl
theorem exec_stewardLost : exec (.stewardLost hid) s = execStewardLost hid s := rfl
theorem exec_managerHeartbeatTimer (sent : Bool) : exec (.managerHeartbeatTimer r sent) s = execManagerHeartbeatTimer r sent s := rfl
theorem exec_managerTakeover : exec (.managerTakeover r) s = execManagerTakeover r s := rfl

end Arms

/-! ### Packets of the control network (R156, R161) -/

theorem NetOnly.mgmt {s t : State} (h : NetOnly s t) : t.mgmt = s.mgmt := (congrArg State.mgmt h :)
theorem NetOnly.regs {s t : State} (h : NetOnly s t) : t.regs = s.regs := (congrArg State.regs h :)

theorem State.ctlOut_netOnly (s : State) (h : CtlHdr) (flits : List Nat) : NetOnly s (s.ctlOut h flits) := by
  obtain ⟨out, cports, hsent⟩ := (s.ctlOut_ctlOnly h flits).eq
  rw [hsent]
  rfl

theorem State.updNode_netOnly (s : State) (n : Nat) (f : Node → Node) : NetOnly s (s.updNode n f) := rfl

theorem State.sendCtl_netOnly (s : State) (ty vc dn dl sn sl : Nat) (flits : List Nat) : NetOnly s (s.sendCtl ty vc dn dl sn sl flits) :=
  (s.updNode_netOnly ..).trans (State.ctlOut_netOnly ..)

theorem State.sendFault_netOnly (s : State) (n sl code unit kind dir : Nat) : NetOnly s (s.sendFault n sl code unit kind dir) :=
  ((s.updNode_netOnly ..).trans (State.updNode_netOnly ..)).trans (State.ctlOut_netOnly ..)

/-! ### Heartbeats of the stewards (R562, R563, R682) -/

/-- The counts of missed heartbeats after one more has been sent: the control network's answer is yet to come, the wires' is there or missed. -/
def beatMissed (wire : Bool) (l : Tab Nat) : Tab Nat := Tab.set 0 (Tab.upd 0 l 0 (· + 1)) 1 (if wire then 0 else Tab.get 0 l 1 + 1)

theorem beatMissed_paths (wire : Bool) (l : Tab Nat) :
    Tab.get 0 (beatMissed wire l) 0 = Tab.get 0 l 0 + 1 ∧ Tab.get 0 (beatMissed wire l) 1 = if wire then 0 else Tab.get 0 l 1 + 1 := by
  refine ⟨?_, Tab.get_set_same ..⟩
  rw [beatMissed, Tab.get_set_ne _ _ _ (by decide), Tab.get_upd_same]

/-- The state after a heartbeat has been sent, before the loss of one path is told. -/
def State.beat (s : State) (wire : Bool) : State :=
  (s.sendCtl 2 5 s.standbyNode 258 s.stewardNode 258 [0x10 + Tab.get 0 s.mgmt.beats 16 % 2 ^ 32 * 2 ^ 16]).updMgmt (fun m =>
    { m with beats := Tab.set 0 m.beats 16 ((Tab.get 0 s.mgmt.beats 16 + 1) % 2 ^ 32), stwMissed := beatMissed wire m.stwMissed, sbyMissed := beatMissed wire m.sbyMissed })

theorem execStewardHeartbeatTimer_sends {s : State} (hlost : s.bit GLB_STW_STAT.LOST_BOTH = false) (hok : s.bit GLB_STW_STAT.STANDBY_OK = true) (wire : Bool) :
    ∃ t, execStewardHeartbeatTimer wire s = .next t ∧ Announced (s.beat wire) t := by
  unfold execStewardHeartbeatTimer
  rw [if_neg (by simp [hlost, hok])]
  exact ⟨_, rfl, (State.postPanel_announced ..).ite (Announced.refl _)⟩

theorem State.beat_frame (s : State) (wire : Bool) : (s.beat wire).mem = s.mem ∧
    (s.beat wire).mgmt.stwMissed = beatMissed wire s.mgmt.stwMissed ∧ (s.beat wire).mgmt.sbyMissed = beatMissed wire s.mgmt.sbyMissed ∧
    Tab.get 0 (s.beat wire).mgmt.beats 16 = (Tab.get 0 s.mgmt.beats 16 + 1) % 2 ^ 32 := by
  have hsent := s.sendCtl_netOnly 2 5 s.standbyNode 258 s.stewardNode 258 [0x10 + Tab.get 0 s.mgmt.beats 16 % 2 ^ 32 * 2 ^ 16]
  exact ⟨hsent.mem, congrArg (fun m : Mgmt => beatMissed wire m.stwMissed) hsent.mgmt,
    congrArg (fun m : Mgmt => beatMissed wire m.sbyMissed) hsent.mgmt, Tab.get_set_same ..⟩

/-! ### Takeover and handover (R563, R568) -/

section Takeover

variable {s : State} (hlost : s.bit GLB_STW_STAT.LOST_BOTH = false)
include hlost

theorem execStewardTakeover_missed (h0 : 5 ≤ Tab.get 0 s.mgmt.stwMissed 0) (h1 : 5 ≤ Tab.get 0 s.mgmt.stwMissed 1) (us : Nat) :
    execStewardTakeover us s = .next (s.takeover 0 us) := by
  simp [execStewardTakeover, hlost, h0, h1]

theorem execStewardTakeover_none (hheard : Tab.get 0 s.mgmt.stwMissed 0 < 5 ∨ Tab.get 0 s.mgmt.stwMissed 1 < 5) (hupd : s.rcv.update = none) (us : Nat) :
    execStewardTakeover us s = .next s := by
  unfold execStewardTakeover
  rw [if_neg (by simp [hlost]), if_neg (by simp; omega), hupd]

theorem execHandoverWaitExpiry_none (hupd : s.rcv.update = none) : execHandoverWaitExpiry s = .next s := by
  unfold execHandoverWaitExpiry
  rw [if_neg (by simp [hlost]), hupd]

variable {u : Update} (hupd : s.rcv.update = some u) (himage : u.image = 0) (hstep : u.step = 2) (hidle : s.anyLayer = false)
include hupd himage hstep hidle

theorem execStewardTakeover_planned (hheard : Tab.get 0 s.mgmt.stwMissed 0 < 5 ∨ Tab.get 0 s.mgmt.stwMissed 1 < 5) (us : Nat) :
    execStewardTakeover us s = .next (s.handover u.key us) := by
  unfold execStewardTakeover
  rw [if_neg (by simp [hlost]), if_neg (by simp; omega), hupd]
  exact if_pos (by simp [himage, hstep, hidle])

theorem execHandoverWaitExpiry_idle : execHandoverWaitExpiry s = .next (s.handover u.key 0) := by
  have hnone : ∀ p < 16, (s.part p).run.isSome = false := by simpa [State.anyLayer, List.any_eq_false] using hidle
  have hstopped : forN 16 (fun p t => if (t.part p).run.isSome then t.faultLayer p false else t) s = s := by
    refine forN_preserves_lt (P := (· = s)) (fun p hp t ht => ?_) rfl
    subst ht
    exact if_neg (by simp [hnone p hp])
  unfold execHandoverWaitExpiry
  rw [if_neg (by simp [hlost]), hupd]
  refine (if_pos ⟨himage, hstep⟩).trans ?_
  dsimp only
  rw [hstopped]

end Takeover

/-! ### The standby (R563, R609, R682) -/

section Standby

variable {s : State} (hlost : s.bit GLB_STW_STAT.LOST_BOTH = false)

/-- The standby with its mirror complete, its keyring measured anew (R609). -/
def State.mirrored (s : State) : State :=
  let t := ((s.updRcv (fun r => { r with booting := false })).wr GLB_STW_STAT.STANDBY_OK 1).updKey (fun k => { k with sbyState := 1, sbyMeas := [] })
  t.measureBoot t.sbySd false

theorem State.mirrored_ok (s : State) : s.mirrored.bit GLB_STW_STAT.STANDBY_OK = true :=
  (s.updRcv (fun r => { r with booting := false })).bit_wr_same GLB_STW_STAT.STANDBY_OK 1 rfl

theorem State.mirrored_frame (s : State) : s.mirrored.rcv.booting = false ∧ s.mirrored.mem = s.mem := ⟨rfl, rfl⟩

theorem quiet_standbyOk : quiet GLB_STW_STAT.STANDBY_OK := by
  dsimp only [quiet, GLB_STW_STAT.STANDBY_OK]
  omega

theorem State.fwUpdate_announced (s : State) (image step : Nat) : Announced s (s.fwUpdate image step) := s.postPanel_announced ..

/-- The standby steward reset: its cause noted, the counts of heartbeats begun anew, and its die booting as the standby. -/
def State.standbyReset (s : State) : State :=
  ((s.noteReset (1 + s.sbySd) 0x0F true).updMgmt (fun m => { m with stwMissed := [], sbyMissed := [] })).bootStandby

theorem State.bootStandby_notOk (s : State) : s.bootStandby.bit GLB_STW_STAT.STANDBY_OK = false := s.bit_wr_same GLB_STW_STAT.STANDBY_OK 0 rfl

theorem State.rd_bootStandby_ne {g : Field} (hg : g.key ≠ GLB_STW_STAT.STANDBY_OK.key) (s : State) : s.bootStandby.rd g = s.rd g := s.rd_wr_ne 0 hg

theorem State.standbyReset_frame (s : State) : let t := s.standbyReset
    t.bit GLB_STW_STAT.STANDBY_OK = false ∧ t.rcv.booting = true ∧ t.mgmt.sbyMissed = [] ∧ t.rd (RST_LAST_CAUSE.CAUSE (1 + s.sbySd)) = 0x0F ∧ t.mem = s.mem := by
  have hsd : s.sbySd ≤ 1 := Nat.sub_le ..
  obtain ⟨hcause, hmem, -⟩ := s.noteReset_frame (scope := 1 + s.sbySd) (cause := 0x0F) (by omega) (by decide) true
  refine ⟨State.bootStandby_notOk _, rfl, rfl, ?_, hmem⟩
  rw [State.standbyReset, State.rd_bootStandby_ne (by dsimp only [RST_LAST_CAUSE.CAUSE, GLB_STW_STAT.STANDBY_OK]; omega), State.rd_updMgmt, hcause]

include hlost

theorem execStandbyFailure_heard (hupd : s.rcv.update = none) (hheard : Tab.get 0 s.mgmt.sbyMissed 0 < 5 ∨ Tab.get 0 s.mgmt.sbyMissed 1 < 5) :
    execStandbyFailure s = .next s := by
  unfold execStandbyFailure
  rw [if_neg (by simp [hlost]), hupd]
  exact if_neg (by simp; omega)

theorem execStandbyFailure_missed (hupd : s.rcv.update = none) (h0 : 5 ≤ Tab.get 0 s.mgmt.sbyMissed 0) (h1 : 5 ≤ Tab.get 0 s.mgmt.sbyMissed 1) :
    execStandbyFailure s = .next s.standbyReset := by
  unfold execStandbyFailure
  rw [if_neg (by simp [hlost]), hupd]
  exact if_pos (by simp [h0, h1])

/-- The standby's return is the state with its mirror complete, and in a planned update its step and event. -/
theorem execStandbyMirrorComplete_cases (hboot : s.rcv.booting = true) : execStandbyMirrorComplete s = .next s.mirrored ∨
    ∃ u, execStandbyMirrorComplete s = .next ((s.mirrored.updRcv (fun r => { r with update := some u })).fwUpdate 0 2) := by
  unfold execStandbyMirrorComplete
  rw [if_neg (by simp [hboot, hlost])]
  dsimp only
  split
  next u _ =>
    by_cases hu : u.image = 0 ∧ u.step = 1
    · exact .inr ⟨_, if_pos hu⟩
    · exact .inl (if_neg hu)
  next => exact .inl rfl

theorem execStandbyMirrorComplete_frame (hboot : s.rcv.booting = true) : ∃ t, execStandbyMirrorComplete s = .next t ∧
    t.bit GLB_STW_STAT.STANDBY_OK = true ∧ t.rcv.booting = false ∧ t.mem = s.mem := by
  have hcases := execStandbyMirrorComplete_cases hlost hboot
  have hok := s.mirrored_ok
  obtain ⟨hbooting, hmirror⟩ := s.mirrored_frame
  generalize s.mirrored = m at hcases hok hbooting hmirror
  rcases hcases with h | ⟨u, h⟩
  · exact ⟨_, h, hok, hbooting, hmirror⟩
  · have hann := (m.updRcv (fun r => { r with update := some u })).fwUpdate_announced 0 2
    obtain ⟨hmem, -, hrcv, -⟩ := hann.frame
    exact ⟨_, h, (hann.bit quiet_standbyOk).trans hok, (congrArg Rcv.booting hrcv).trans hbooting, hmem.trans hmirror⟩

end Standby

/-! ### Both stewards lost (R352, R564) -/

theorem map_updFirst {α β : Type} {g : α → β} {p : α → Bool} {f : α → α} (hf : ∀ a, g (f a) = g a) (l : List α) : (updFirst p f l).map g = l.map g := by
  induction l with
  | nil => rfl
  | cons a l ih =>
    rw [updFirst]
    split
    · simp [hf]
    · simp [ih]

theorem mem_updFirst {α : Type} {p : α → Bool} {f : α → α} {l : List α} {a : α} (h : a ∈ updFirst p f l) : a ∈ l ∨ ∃ b ∈ l, a = f b := by
  induction l with
  | nil => exact absurd h List.not_mem_nil
  | cons b l ih =>
    rw [updFirst] at h
    split at h
    · rcases List.mem_cons.mp h with rfl | h
      · exact .inr ⟨b, List.mem_cons_self, rfl⟩
      · exact .inl (List.mem_cons_of_mem _ h)
    · rcases List.mem_cons.mp h with rfl | h
      · exact .inl List.mem_cons_self
      · rcases ih h with h | ⟨c, hc, rfl⟩
        · exact .inl (List.mem_cons_of_mem _ h)
        · exact .inr ⟨c, List.mem_cons_of_mem _ hc, rfl⟩

/-- Descriptor `d` ended with a status. -/
def Desc.ended (d : Desc) (status : Nat) : Desc := { d with st := .finished, status := status, detail := 0, r0 := 0, r1 := 0 }

/-- The list of descriptors once the one of number `k` has ended. -/
def endsOne (k status : Nat) (l : List Desc) : List Desc := updFirst (fun d => decide (d.key = k) && decide (d.st ≠ .finished)) (·.ended status) l

theorem State.abortDesc_descs (s : State) (k status : Nat) : (s.abortDesc k status).host.descs = endsOne k status s.host.descs := rfl

theorem endsOne_keys (k status : Nat) (l : List Desc) : (endsOne k status l).map Desc.key = l.map Desc.key :=
  map_updFirst (f := (·.ended status)) (fun _ => rfl) l

theorem endsOne_finished {k status : Nat} {l : List Desc} (hkeys : (l.map Desc.key).Nodup) {d : Desc} (hd : d ∈ endsOne k status l) (hkey : d.key = k) :
    d.st = .finished := by
  induction l with
  | nil => exact absurd hd List.not_mem_nil
  | cons b l ih =>
    obtain ⟨hnew, hrest⟩ := List.nodup_cons.mp hkeys
    by_cases hb : (decide (b.key = k) && decide (b.st ≠ .finished)) = true
    · rw [endsOne, updFirst, if_pos hb] at hd
      rcases List.mem_cons.mp hd with rfl | hd
      · rfl
      · simp only [Bool.and_eq_true, decide_eq_true_eq] at hb
        exact absurd (List.mem_map.mpr ⟨d, hd, hkey.trans hb.1.symm⟩) hnew
    · rw [endsOne, updFirst, if_neg hb] at hd
      rcases List.mem_cons.mp hd with rfl | hd
      · simpa [hkey] using hb
      · exact ih hrest hd

/-- Descriptors that die `hid` serves and that wait for a steward (R352). -/
def orphan (hid : Nat) (d : Desc) : Bool := decide (ringDie d.ring = hid) && decide (d.st = .running) && needsSteward d

/-- The state once all of these have ended. -/
def State.orphansEnded (s : State) (hid : Nat) : State := forL (s.host.descs.filter (orphan hid)) (fun (d : Desc) t => t.abortDesc d.key 1) s

theorem State.orphansEnded_length (s : State) (hid : Nat) : (s.orphansEnded hid).host.descs.length = s.host.descs.length := by
  have hkeys : (s.orphansEnded hid).host.descs.map Desc.key = s.host.descs.map Desc.key :=
    forL_keeps (fun t : State => t.host.descs.map Desc.key) (fun (d : Desc) t => t.abortDesc d.key 1) (fun d t => endsOne_keys d.key 1 t.host.descs) _ s
  simpa using congrArg List.length hkeys

/-- With numbers of their own, none of them runs any more. -/
theorem State.orphansEnded_none {s : State} (hkeys : (s.host.descs.map Desc.key).Nodup) {hid : Nat} {d : Desc} (hd : d ∈ (s.orphansEnded hid).host.descs) :
    orphan hid d = false := by
  by_contra horphan
  rw [Bool.not_eq_false] at horphan
  have hrunning : d.st = .running := by simp only [orphan, Bool.and_eq_true, decide_eq_true_eq] at horphan; exact horphan.1.2
  have hold : d ∈ s.host.descs := by
    refine forL_preserves (P := fun t : State => ∀ e ∈ t.host.descs, e.st = .running → e ∈ s.host.descs) (fun a t ht e he hst => ?_) _ (fun _ he _ => he) d hd hrunning
    rcases mem_updFirst he with he | ⟨c, -, rfl⟩
    · exact ht e he hst
    · cases hst
  have hended : ∀ e ∈ (s.orphansEnded hid).host.descs, e.key = d.key → e.st = .finished := by
    refine forL_establishes (P := fun t : State => (t.host.descs.map Desc.key).Nodup) (Q := fun t : State => ∀ e ∈ t.host.descs, e.key = d.key → e.st = .finished)
      (fun a t ht => ?_) (fun a t ht e he hkey => ?_) (fun t ht e he hkey => endsOne_finished ht he hkey) (List.mem_filter.mpr ⟨hold, horphan⟩) hkeys
    · rw [State.abortDesc_descs, endsOne_keys]
      exact ht
    · rcases mem_updFirst he with he | ⟨c, -, rfl⟩
      · exact ht e he hkey
      · rfl
  exact absurd (hrunning.symm.trans (hended d hd rfl)) (by decide)

/-- Die `hid` has lost the stewards and told its functions. -/
def State.stewardsGone (s : State) (hid : Nat) : State :=
  forN 8 (fun i t => if t.bit (HID_FN_ID.EN (8 * hid + i)) then t.postEvent (8 * hid + i) 0x0030 31 2 [] else t)
    (s.updHost (fun h => { h with stwLost := Tab.set 0 h.stwLost hid 1 }))

theorem State.stewardsGone_announced {hid : Nat} (hhid : hid < 2) (s : State) :
    Announced (s.updHost (fun h => { h with stwLost := Tab.set 0 h.stwLost hid 1 })) (s.stewardsGone hid) :=
  forN_announced (fun _ hi t => t.postEvent_if_announced (by omega) ..) _

/-- A die that has lost the stewards ends its descriptors that need one; the trick and the barriers of these end with them (R600). -/
theorem execStewardLost_ends {s : State} {hid : Nat} (hhid : hid < 2) (hlost : s.bit GLB_STW_STAT.LOST_BOTH = true) (hnew : Tab.get 0 s.host.stwLost hid = 0) :
    ∃ t, execStewardLost hid s = .next t ∧ t.host = ((s.stewardsGone hid).orphansEnded hid).host ∧ t.mem = ((s.stewardsGone hid).orphansEnded hid).mem := by
  unfold execStewardLost
  rw [if_neg (by simp [hlost, hhid, hnew])]
  refine ⟨_, rfl, ?_⟩
  exact iteInduction (motive := fun t : State => t.host = ((s.stewardsGone hid).orphansEnded hid).host ∧ t.mem = ((s.stewardsGone hid).orphansEnded hid).mem)
    (fun _ => ⟨rfl, rfl⟩) (fun _ => ⟨rfl, rfl⟩)

theorem execStewardLost_frame {s : State} {hid : Nat} (hhid : hid < 2) (hlost : s.bit GLB_STW_STAT.LOST_BOTH = true) (hnew : Tab.get 0 s.host.stwLost hid = 0)
    (hkeys : (s.host.descs.map Desc.key).Nodup) : ∃ t, execStewardLost hid s = .next t ∧ Tab.get 0 t.host.stwLost hid = 1 ∧ t.mem = s.mem ∧
      t.host.descs.length = s.host.descs.length ∧ ∀ d ∈ t.host.descs, orphan hid d = false := by
  obtain ⟨t, ht, hhost, hmem⟩ := execStewardLost_ends hhid hlost hnew
  have hgone := s.stewardsGone_announced hhid
  obtain ⟨hdescs, htold, -⟩ := hgone.host
  have hkept := forL_keeps (fun t : State => (t.mem, t.host.stwLost)) (fun (d : Desc) t => t.abortDesc d.key 1) (fun _ _ => rfl)
    ((s.stewardsGone hid).host.descs.filter (orphan hid)) (s.stewardsGone hid)
  obtain ⟨hkmem, hklost⟩ := Prod.mk.inj hkept
  refine ⟨t, ht, ?_, ?_, ?_, fun d hd => ?_⟩
  · rw [hhost]
    exact (congrArg (Tab.get 0 · hid) (hklost.trans htold)).trans (Tab.get_set_same 0 s.host.stwLost hid 1)
  · exact hmem.trans (hkmem.trans hgone.mem)
  · rw [hhost, State.orphansEnded_length, hdescs]
    rfl
  · rw [hhost] at hd
    exact State.orphansEnded_none (by rw [hdescs]; exact hkeys) hd

/-! ### The managers' heartbeats (R566, R567) -/

theorem forN_succ {σ : Type} (n : Nat) (f : Nat → σ → σ) (s : σ) : forN (n + 1) f s = f n (forN n f s) := by
  rw [forN, List.range_succ, List.foldl_append]
  rfl

/-- What one step makes of a value that no other step changes. -/
theorem forN_once {σ β : Type} {P : σ → Prop} {g : σ → β} {F : β → β} {f : Nat → σ → σ} {i n : Nat} (hi : i < n) (hP : ∀ j < n, ∀ s, P s → P (f j s))
    (hother : ∀ j < n, j ≠ i → ∀ s, P s → g (f j s) = g s) (hmake : ∀ s, P s → g (f i s) = F (g s)) {s : σ} (h : P s) : g (forN n f s) = F (g s) := by
  induction n with
  | zero => exact absurd hi (Nat.not_lt_zero i)
  | succ n ih =>
    have hPn : P (forN n f s) := forN_preserves_lt (fun j hj => hP j (by omega)) h
    rw [forN_succ]
    by_cases hin : i = n
    · subst hin
      have hkept : g (forN i f s) = g s := (forN_preserves_lt (P := fun t => P t ∧ g t = g s)
        (fun j hj t ht => ⟨hP j (by omega) t ht.1, (hother j (by omega) (by omega) t ht.1).trans ht.2⟩) ⟨h, rfl⟩).2
      rw [hmake _ hPn, hkept]
    · rw [hother n (by omega) (fun hn => hin hn.symm) _ hPn]
      exact ih (by omega) (fun j hj => hP j (by omega)) (fun j hj => hother j (by omega))

/-- The dies of a region are told apart by their place in it (R566). -/
theorem regionDie_inj {r i j : Nat} (h : regionDie r i = regionDie r j) : i = j := by
  unfold regionDie at h
  omega

/-- Region `r`'s manager `m` sends heartbeat `n` to die `d`, which has one more to answer; at the fourth the die is reported (R567). -/
def State.beatDie (s : State) (m n d : Nat) : State :=
  let k := Tab.get 0 s.mgmt.unanswered d
  let t := (s.sendCtl 2 5 d 256 m 257 [0x10 + 2 ^ 8 + n % 2 ^ 32 * 2 ^ 16]).updMgmt (fun m => { m with unanswered := Tab.set 0 m.unanswered d (min 4 (k + 1)) })
  if k = 3 then t.sendFault m 257 0x14 d 1 0 else t

/-- The die of place `i` is sent a heartbeat, unless it is the manager's own or absent. -/
def State.beatPlace (m n r i : Nat) (s : State) : State :=
  if regionDie r i = m || s.dieAbsent (regionDie r i) then s else s.beatDie m n (regionDie r i)

/-- `t` is `s` but for the networks, what was sent, and the heartbeats that dies have not answered. -/
def BeatOnly (s t : State) : Prop := t.regs = s.regs ∧ t.mem = s.mem ∧ t.mgmt.beats = s.mgmt.beats

theorem NetOnly.beatOnly {s t : State} (h : NetOnly s t) : BeatOnly s t := ⟨h.regs, h.mem, congrArg Mgmt.beats h.mgmt⟩

theorem BeatOnly.trans {s t u : State} (h : BeatOnly s t) (k : BeatOnly t u) : BeatOnly s u :=
  ⟨k.1.trans h.1, k.2.1.trans h.2.1, k.2.2.trans h.2.2⟩

theorem State.beatDie_frame (s : State) (m n d : Nat) : BeatOnly s (s.beatDie m n d) ∧
    (s.beatDie m n d).mgmt.unanswered = Tab.set 0 s.mgmt.unanswered d (min 4 (Tab.get 0 s.mgmt.unanswered d + 1)) := by
  have hsent := s.sendCtl_netOnly 2 5 d 256 m 257 [0x10 + 2 ^ 8 + n % 2 ^ 32 * 2 ^ 16]
  have hun := congrArg (fun x : Mgmt => Tab.set 0 x.unanswered d (min 4 (Tab.get 0 s.mgmt.unanswered d + 1))) hsent.mgmt
  unfold State.beatDie
  dsimp only
  split
  · have hfault := State.sendFault_netOnly ((s.sendCtl 2 5 d 256 m 257 [0x10 + 2 ^ 8 + n % 2 ^ 32 * 2 ^ 16]).updMgmt
      (fun x => { x with unanswered := Tab.set 0 x.unanswered d (min 4 (Tab.get 0 s.mgmt.unanswered d + 1)) })) m 257 0x14 d 1 0
    exact ⟨BeatOnly.trans hsent.beatOnly hfault.beatOnly, (congrArg Mgmt.unanswered hfault.mgmt).trans hun⟩
  · exact ⟨hsent.beatOnly, hun⟩

theorem State.beatPlace_beatOnly (m n r i : Nat) (s : State) : BeatOnly s (s.beatPlace m n r i) := by
  unfold State.beatPlace
  split
  · exact ⟨rfl, rfl, rfl⟩
  · exact (s.beatDie_frame m n _).1

theorem State.beatPlace_other {m n r i d : Nat} (hd : regionDie r i ≠ d) (s : State) :
    Tab.get 0 (s.beatPlace m n r i).mgmt.unanswered d = Tab.get 0 s.mgmt.unanswered d := by
  unfold State.beatPlace
  split
  · rfl
  · rw [(s.beatDie_frame m n _).2, Tab.get_set_ne _ _ _ (Ne.symm hd)]

theorem State.beatPlace_own {m n r i : Nat} {s : State} (hm : regionDie r i ≠ m) (hin : s.dieAbsent (regionDie r i) = false) :
    Tab.get 0 (s.beatPlace m n r i).mgmt.unanswered (regionDie r i) = min 4 (Tab.get 0 s.mgmt.unanswered (regionDie r i) + 1) := by
  unfold State.beatPlace
  rw [if_neg (by simp [hm, hin]), (s.beatDie_frame m n _).2, Tab.get_set_same]

section Manager

variable {s : State} {r : Nat} (hr : r < 16) (hon : s.rgnState r < 4)
include hr hon

theorem execManagerHeartbeatTimer_missed : execManagerHeartbeatTimer r false s =
    .next { s with mgmt := { s.mgmt with mgrMissed := Tab.upd 0 s.mgmt.mgrMissed r (· + 1) } } := by
  unfold execManagerHeartbeatTimer
  rw [if_neg (by simp; omega)]
  rfl

theorem execManagerHeartbeatTimer_sent : execManagerHeartbeatTimer r true s =
    .next (forN 9 (State.beatPlace (s.managerDie r) (Tab.get 0 s.mgmt.beats r) r)
      (s.updMgmt (fun m => { m with beats := Tab.set 0 m.beats r ((Tab.get 0 s.mgmt.beats r + 1) % 2 ^ 32) }))) := by
  unfold execManagerHeartbeatTimer
  rw [if_neg (by simp; omega)]
  rfl

theorem execManagerHeartbeatTimer_frame : ∃ t, execManagerHeartbeatTimer r true s = .next t ∧ t.mem = s.mem ∧ t.regs = s.regs ∧
    Tab.get 0 t.mgmt.beats r = (Tab.get 0 s.mgmt.beats r + 1) % 2 ^ 32 ∧ ∀ i, i < 9 → regionDie r i ≠ s.managerDie r → s.dieAbsent (regionDie r i) = false →
      Tab.get 0 t.mgmt.unanswered (regionDie r i) = min 4 (Tab.get 0 s.mgmt.unanswered (regionDie r i) + 1) := by
  refine ⟨_, execManagerHeartbeatTimer_sent hr hon, ?_⟩
  obtain ⟨u, hu⟩ : ∃ u, u = s.updMgmt (fun m => { m with beats := Tab.set 0 m.beats r ((Tab.get 0 s.mgmt.beats r + 1) % 2 ^ 32) }) := ⟨_, rfl⟩
  rw [← hu]
  obtain ⟨hregs, hmem, hbeats⟩ := forN_preserves (P := BeatOnly u) (f := State.beatPlace (s.managerDie r) (Tab.get 0 s.mgmt.beats r) r)
    (fun i t ht => ht.trans (t.beatPlace_beatOnly ..)) 9 ⟨rfl, rfl, rfl⟩
  have hself : u.mem = s.mem ∧ u.regs = s.regs ∧ u.mgmt.unanswered = s.mgmt.unanswered ∧
      Tab.get 0 u.mgmt.beats r = (Tab.get 0 s.mgmt.beats r + 1) % 2 ^ 32 := by subst hu; exact ⟨rfl, rfl, rfl, Tab.get_set_same ..⟩
  obtain ⟨humem, huregs, hun, hub⟩ := hself
  refine ⟨hmem.trans humem, hregs.trans huregs, by rw [hbeats, hub], fun i hi hm hin => ?_⟩
  rw [← hun]
  refine forN_once (P := BeatOnly u) (g := fun t : State => Tab.get 0 t.mgmt.unanswered (regionDie r i)) (F := fun k => min 4 (k + 1)) hi
    (fun j _ t ht => ht.trans (t.beatPlace_beatOnly ..)) (fun j _ hij t _ => t.beatPlace_other fun h => hij (regionDie_inj h)) (fun t ht => ?_) ⟨rfl, rfl, rfl⟩
  exact State.beatPlace_own hm ((State.dieAbsent_congr (ht.1.trans huregs) _).trans hin)

end Manager

/-! ### A manager that is silent (R567) -/

/-- `t` is `s` but for the networks, what was sent, and the protected messages. -/
def MsgOnly (s t : State) : Prop := ∃ net out alive sent, t = { s with net := net, out := out, mgmt := { s.mgmt with alive := alive, sent := sent } }

theorem MsgOnly.trans {s t u : State} (h : MsgOnly s t) (k : MsgOnly t u) : MsgOnly s u := by
  obtain ⟨_, _, _, _, rfl⟩ := h
  obtain ⟨_, _, _, _, rfl⟩ := k
  exact ⟨_, _, _, _, rfl⟩

theorem NetOnly.msgOnly {s t : State} (h : NetOnly s t) : MsgOnly s t :=
  ⟨t.net, t.out, s.mgmt.alive, s.mgmt.sent, (congrArg (fun z : State => { z with net := t.net, out := t.out }) h :)⟩

theorem State.setMsgs_msgOnly (s : State) (alive : Tab Nat) (sent : List Prot) : MsgOnly s { s with mgmt := { s.mgmt with alive := alive, sent := sent } } :=
  ⟨_, _, _, _, rfl⟩

theorem State.sendProt_msgOnly (s : State) (n sl dn dl ty : Nat) (flits : List Nat) : MsgOnly s (s.sendProt n sl dn dl ty flits) :=
  (s.setMsgs_msgOnly ..).trans (((State.updNode_netOnly ..).trans (State.ctlOut_netOnly ..)).msgOnly)

/-- The pair of a region and the steward with no valid value of the other (R635). -/
def State.pairCleared (s : State) (r : Nat) : State := ((s.wr (CKU_ALIVE.VALID r 16) 0).wr (CKU_ALIVE.VALID 18 r) 0).wr (CKU_ALIVE.VALID 19 r) 0

theorem State.newPair_msgOnly (s : State) (r : Nat) : MsgOnly (s.pairCleared r) (s.newPair r) := by
  unfold State.newPair
  dsimp only
  refine forL_preserves (P := MsgOnly (s.pairCleared r)) (fun p t ht => ?_) _ ((s.pairCleared r).setMsgs_msgOnly ..)
  split
  · exact ht.trans (t.sendProt_msgOnly ..)
  · exact ht.trans (t.sendProt_msgOnly ..)

theorem State.pairCleared_manager {r : Nat} (hr : r < 16) (s : State) : (s.pairCleared r).rd (RGN_PWR_STAT.MANAGER r) = s.rd (RGN_PWR_STAT.MANAGER r) := by
  rw [State.pairCleared, State.rd_wr_ne _ _ (by dsimp only [RGN_PWR_STAT.MANAGER, CKU_ALIVE.VALID]; omega),
    State.rd_wr_ne _ _ (by dsimp only [RGN_PWR_STAT.MANAGER, CKU_ALIVE.VALID]; omega), State.rd_wr_ne _ _ (by dsimp only [RGN_PWR_STAT.MANAGER, CKU_ALIVE.VALID]; omega)]

theorem MsgOnly.frame {s t : State} (h : MsgOnly s t) : t.regs = s.regs ∧ t.mgmt.mgrMissed = s.mgmt.mgrMissed ∧ t.mem = s.mem := by
  obtain ⟨_, _, _, _, rfl⟩ := h
  exact ⟨rfl, rfl, rfl⟩

/-- A region's check unit begun anew, under its manager of place `i`. -/
def State.managedBy (s : State) (r i : Nat) : State := (s.resetRegs (0x120000 + r * 0x100) (0x120000 + (r + 1) * 0x100)).wr (RGN_PWR_STAT.MANAGER r) i

theorem State.setManager_msgOnly (s : State) (r i : Nat) : MsgOnly ((s.managedBy r i).pairCleared r) (s.setManager r i) :=
  (State.newPair_msgOnly ..).trans (State.sendProt_msgOnly ..)

theorem State.setManager_frame {r i : Nat} (hr : r < 16) (hi : i < 16) (s : State) :
    (s.setManager r i).rd (RGN_PWR_STAT.MANAGER r) = i ∧ (s.setManager r i).mgmt.mgrMissed = s.mgmt.mgrMissed ∧ (s.setManager r i).mem = s.mem := by
  obtain ⟨hregs, hmissed, hmem⟩ := (s.setManager_msgOnly r i).frame
  refine ⟨?_, hmissed, hmem⟩
  rw [State.rd_congr hregs, State.pairCleared_manager hr, State.managedBy, State.rd_wr_same]
  exact Nat.mod_eq_of_lt hi

theorem State.nextManager_lt {s : State} {r m i : Nat} (h : s.nextManager r m = some i) : i < 9 := by
  have hmem : i ∈ (List.range 9).filter (fun j => decide (j ≠ m) && !s.dieAbsent (regionDie r j)) := by
    unfold State.nextManager at h
    dsimp only at h
    split at h
    · next j hfind =>
      obtain rfl := Option.some.inj h
      exact List.mem_of_find?_eq_some hfind
    · exact List.mem_of_head? h
  exact List.mem_range.mp (List.mem_of_mem_filter hmem)

/-- The state in which place `i` has taken a region over and the PFs have been told (R567). -/
def State.managerTaken (s : State) (r i : Nat) : State :=
  ((s.updMgmt (fun m => { m with mgrMissed := Tab.set 0 m.mgrMissed r 0 })).setManager r i).postPanel 0x0805 31 1 (leBytes 1 r ++ leBytes 1 i)

theorem State.managerTaken_frame {r i : Nat} (hr : r < 16) (hi : i < 16) (s : State) : (s.managerTaken r i).rd (RGN_PWR_STAT.MANAGER r) = i ∧
    Tab.get 0 (s.managerTaken r i).mgmt.mgrMissed r = 0 ∧ (s.managerTaken r i).mem = s.mem := by
  obtain ⟨hmgr, hcount, hmem⟩ := (s.updMgmt (fun m => { m with mgrMissed := Tab.set 0 m.mgrMissed r 0 })).setManager_frame hr hi
  have hpost : Announced _ (s.managerTaken r i) := State.postPanel_announced ..
  obtain ⟨hpmem, hpmgmt, -⟩ := hpost.frame
  have hquiet : quiet (RGN_PWR_STAT.MANAGER r) := by dsimp only [quiet, RGN_PWR_STAT.MANAGER]; omega
  refine ⟨(hpost.rd hquiet).trans hmgr, ?_, hpmem.trans hmem⟩
  rw [hpmgmt, hcount]
  exact Tab.get_set_same 0 s.mgmt.mgrMissed r 0

theorem execManagerTakeover_takes {s : State} {r i : Nat} (hr : r < 16) (hon : s.rgnState r < 4) (hmissed : 3 ≤ Tab.get 0 s.mgmt.mgrMissed r)
    (hnext : s.nextManager r (s.rd (RGN_PWR_STAT.MANAGER r)) = some i) :
    execManagerTakeover r s = .next ((s.managerTaken r i).sendFault (regionDie r i) 257 0x14 (regionDie r (s.rd (RGN_PWR_STAT.MANAGER r))) 1 0) := by
  unfold execManagerTakeover
  rw [if_neg (by simp; omega)]
  dsimp only
  rw [hnext]
  rfl

theorem execManagerTakeover_frame {s : State} {r i : Nat} (hr : r < 16) (hon : s.rgnState r < 4) (hmissed : 3 ≤ Tab.get 0 s.mgmt.mgrMissed r)
    (hnext : s.nextManager r (s.rd (RGN_PWR_STAT.MANAGER r)) = some i) : ∃ t, execManagerTakeover r s = .next t ∧
      t.rd (RGN_PWR_STAT.MANAGER r) = i ∧ Tab.get 0 t.mgmt.mgrMissed r = 0 ∧ t.mem = s.mem := by
  have hi := State.nextManager_lt hnext
  obtain ⟨hmgr, hcount, hmem⟩ := s.managerTaken_frame hr (i := i) (by omega)
  have hfault := (s.managerTaken r i).sendFault_netOnly (regionDie r i) 257 0x14 (regionDie r (s.rd (RGN_PWR_STAT.MANAGER r))) 1 0
  refine ⟨_, execManagerTakeover_takes hr hon hmissed hnext, ?_, ?_, hfault.mem.trans hmem⟩
  · rw [State.rd_congr hfault.regs, hmgr]
  · rw [hfault.mgmt, hcount]

/-- Settles O53: each clause is the lemma about its command. -/
theorem stewardsAndManagersAreWatched : Obligations.StewardsAndManagersAreWatched := by
  unfold Obligations.StewardsAndManagersAreWatched
  intro s r us hid u hr hhid lost stw sby
  refine ⟨?beats, ?takeover, ?heard, ?planned, ?standby, ?lostBoth, ?managerBeats, ?managerTakeover, ?mirror⟩
  case beats =>
    intro wire hlost hok
    obtain ⟨t, ht, hann⟩ := execStewardHeartbeatTimer_sends hlost hok wire
    obtain ⟨hmem, hmgmt, -⟩ := hann.frame
    obtain ⟨hbmem, hstw, hsby, hbeats⟩ := s.beat_frame wire
    obtain ⟨hstw0, hstw1⟩ := beatMissed_paths wire s.mgmt.stwMissed
    obtain ⟨hsby0, hsby1⟩ := beatMissed_paths wire s.mgmt.sbyMissed
    rw [← hstw, ← hmgmt] at hstw0 hstw1
    rw [← hsby, ← hmgmt] at hsby0 hsby1
    rw [← hmgmt] at hbeats
    exact ⟨t, (exec_stewardHeartbeatTimer ..).trans ht, hstw0, hstw1, hsby0, hsby1, hbeats, hmem.trans hbmem⟩
  case takeover => exact fun hlost h0 h1 => (exec_stewardTakeover ..).trans (execStewardTakeover_missed hlost h0 h1 us)
  case heard => exact fun hlost hheard hupd => (exec_stewardTakeover ..).trans (execStewardTakeover_none hlost hheard hupd us)
  case planned =>
    exact fun hlost hheard hupd himage hstep hidle => ⟨(exec_stewardTakeover ..).trans (execStewardTakeover_planned hlost hupd himage hstep hidle hheard us),
      (exec_handoverWaitExpiry ..).trans (execHandoverWaitExpiry_idle hlost hupd himage hstep hidle)⟩
  case standby =>
    intro hlost hupd
    exact ⟨(exec_handoverWaitExpiry ..).trans (execHandoverWaitExpiry_none hlost hupd),
      fun hheard => (exec_standbyFailure ..).trans (execStandbyFailure_heard hlost hupd hheard),
      fun h0 h1 => ⟨_, (exec_standbyFailure ..).trans (execStandbyFailure_missed hlost hupd h0 h1), s.standbyReset_frame⟩⟩
  case lostBoth =>
    intro hlost hnew hkeys
    obtain ⟨t, ht, htold, hmem, hlen, hnone⟩ := execStewardLost_frame hhid hlost hnew hkeys
    refine ⟨t, (exec_stewardLost ..).trans ht, htold, hmem, hlen, fun d hd hdie hst => ?_⟩
    simpa [orphan, hdie, hst] using hnone d hd
  case managerBeats =>
    exact fun hon => ⟨(exec_managerHeartbeatTimer ..).trans (execManagerHeartbeatTimer_missed hr hon), execManagerHeartbeatTimer_frame hr hon⟩
  case managerTakeover => exact fun i hon hmissed hnext => execManagerTakeover_frame hr hon hmissed hnext
  case mirror => exact fun hboot hlost => execStandbyMirrorComplete_frame hlost hboot

end Sys2Proof.Machine

/-! PROOFS. Virtual functions appear, and a physical function writes a partition's record (R311, R316, R318, R332). -/

namespace Sys2Proof.Machine

section Arms

variable (f p ep : Nat) (v : W32) (src : Src) (s : State)

theorem exec_vfEnable (en : Bool) (num : Nat) : exec (.vfEnable ep en num) s = execVfEnable ep en num s := rfl
theorem exec_partWrite : exec (.partWrite src p v) s = execPartWrite src p v s := rfl
theorem exec_segApply : exec (.segApply src v) s = execSegApply src v s := rfl
theorem exec_segApplyDone : exec .segApplyDone s = execSegApplyDone s := rfl
theorem exec_bar0Access (off n : Nat) (data : Option Nat) : exec (.bar0Access f off n data) s = execBar0Access f off n data s := rfl
theorem exec_bar2Read (off n : Nat) : exec (.bar2Read f off n) s = execBar2Read f off n s := rfl
theorem exec_bar4Access (wr poison : Bool) (off n : Nat) (data : List Byte) :
    exec (.bar4Access f wr poison off n data) s = execBar4Access f wr poison off n data s := rfl
theorem exec_flr : exec (.flr f) s = execFlr f s := rfl
theorem exec_d3hotEntry : exec (.d3hotEntry f) s = execD3hotEntry f s := rfl
theorem exec_perst : exec (.perst ep) s = execPerst ep s := rfl
theorem exec_pcieLinkDown : exec (.pcieLinkDown ep) s = execPcieLinkDown ep s := rfl
theorem exec_perstDeassertion : exec (.perstDeassertion ep) s = execPerstDeassertion ep s := rfl
theorem exec_pcieLinkChange (rate width : Nat) : exec (.pcieLinkChange ep rate width) s = execPcieLinkChange ep rate width s := rfl

end Arms

/-! ### Virtual functions appear (R311) -/

/-- Fields of distinct keys, each written once: each reads its own value. -/
theorem State.rd_forN_wr {F : Nat → Field} {i n : Nat} (hi : i < n) (hinj : ∀ j, j ≠ i → (F i).key ≠ (F j).key) (v : Nat → Nat) (s : State) :
    (forN n (fun j t => t.wr (F j) (v j)) s).rd (F i) = v i % 2 ^ (F i).w := by
  refine forN_establishes (P := fun _ => True) (Q := fun t : State => t.rd (F i) = v i % 2 ^ (F i).w) hi (fun _ _ h => h) (fun j t ht => ?_)
    (fun t _ => t.rd_wr_same _ _) trivial
  by_cases hj : j = i
  · subst hj
    exact t.rd_wr_same _ _
  · exact (t.rd_wr_ne _ (hinj j hj)).trans ht

theorem State.forN_wr_regsOnly (F : Nat → Field) (v : Nat → Nat) (n : Nat) (s : State) : RegsOnly s (forN n (fun j t => t.wr (F j) (v j)) s) :=
  forN_preserves (P := RegsOnly s) (fun _ _ ht => ht.trans (State.wr_regsOnly ..)) n (RegsOnly.refl s)

/-- VF Enable and NumVFs as they are kept, before the functions appear. -/
def State.vfSet (s : State) (ep : Nat) (en : Bool) (num : Nat) : State :=
  s.updHost (fun h => { h with vfEn := Tab.set 0 h.vfEn ep (b2n en), numVfs := Tab.set 0 h.numVfs ep (min 7 num) })

theorem execVfEnable_eq {ep : Nat} (hep : ep < 2) (en : Bool) (num : Nat) (s : State) : execVfEnable ep en num s =
    .next (forN 7 (fun i t => t.wr (HID_FN_ID.EN (8 * ep + i + 1)) (b2n (en && decide (i + 1 ≤ min 7 num)))) (s.vfSet ep en num)) :=
  if_neg (Nat.not_le.mpr hep)

theorem execVfEnable_frame {ep : Nat} (hep : ep < 2) (en : Bool) (num : Nat) (s : State) : ∃ t, execVfEnable ep en num s = .next t ∧
    Tab.get 0 t.host.vfEn ep = (if en then 1 else 0) ∧ Tab.get 0 t.host.numVfs ep = min 7 num ∧
    (∀ i, i < 7 → (t.bit (HID_FN_ID.EN (8 * ep + i + 1)) = true ↔ en = true ∧ i < num)) ∧ t.bit (HID_FN_ID.EN (8 * ep)) = s.bit (HID_FN_ID.EN (8 * ep)) ∧
    t.mem = s.mem ∧ t.out = s.out := by
  have hregs := State.forN_wr_regsOnly (fun i => HID_FN_ID.EN (8 * ep + i + 1)) (fun i => b2n (en && decide (i + 1 ≤ min 7 num))) 7 (s.vfSet ep en num)
  refine ⟨_, execVfEnable_eq hep en num s, ?_, ?_, fun i hi => ?_, ?_, hregs.mem, hregs.out⟩
  · rw [hregs.host]
    exact Tab.get_set_same ..
  · rw [hregs.host]
    exact Tab.get_set_same ..
  · have hval := (s.vfSet ep en num).rd_forN_wr (F := fun i => HID_FN_ID.EN (8 * ep + i + 1)) hi (fun j hj => by dsimp only [HID_FN_ID.EN]; omega)
      (fun i => b2n (en && decide (i + 1 ≤ min 7 num)))
    have hnum : i + 1 ≤ min 7 num ↔ i < num := by omega
    rw [State.bit, hval]
    cases en <;> simp [b2n, hnum, HID_FN_ID.EN]
    split <;> simp_all
  · exact forN_preserves (P := fun t : State => t.bit (HID_FN_ID.EN (8 * ep)) = s.bit (HID_FN_ID.EN (8 * ep)))
      (fun j t ht => (t.bit_wr_ne _ (by dsimp only [HID_FN_ID.EN]; omega)).trans ht) 7 rfl

/-! ### A partition's record (R316, R318) -/

/-- A register that no account of the cores writes (R301, R308) and no event. -/
def unaccounted (f : Field) : Prop := quiet f ∧ (f.key < 8 * 0x3002000 ∨ 64 ≤ f.key % 128)

section Account

variable {f : Field} (hf : unaccounted f)
include hf

theorem unaccounted.ne_counts (p : Nat) : f.key ≠ GLB_DLR_STAT.FOLDED.key ∧ f.key ≠ GLB_DLR_STAT.AVAIL.key ∧ f.key ≠ GLB_DLR_HOLE.HOLECORES.key ∧
    f.key ≠ GLB_DLR_HOLE.GUAR.key ∧ f.key ≠ (GLB_DLR_PART0.AVAIL p).key ∧ f.key ≠ (GLB_DLR_PART0.PLACED p).key ∧ f.key ≠ (GLB_DLR_PART1.KITTY p).key ∧
    f.key ≠ (GLB_DLR_PART1.NSTRAY p).key := by
  obtain ⟨-, hkey⟩ := hf
  dsimp only [GLB_DLR_STAT.FOLDED, GLB_DLR_STAT.AVAIL, GLB_DLR_HOLE.HOLECORES, GLB_DLR_HOLE.GUAR, GLB_DLR_PART0.AVAIL, GLB_DLR_PART0.PLACED, GLB_DLR_PART1.KITTY,
    GLB_DLR_PART1.NSTRAY]
  omega

/-- The four counts of a partition. -/
theorem State.rd_partCounts (p avail placed kitty strays : Nat) (s : State) : ((((s.wr (GLB_DLR_PART0.AVAIL p) avail).wr (GLB_DLR_PART0.PLACED p) placed).wr
    (GLB_DLR_PART1.KITTY p) kitty).wr (GLB_DLR_PART1.NSTRAY p) strays).rd f = s.rd f := by
  obtain ⟨-, -, -, -, havail, hplaced, hkitty, hstrays⟩ := unaccounted.ne_counts hf p
  rw [State.rd_wr_ne _ _ hstrays, State.rd_wr_ne _ _ hkitty, State.rd_wr_ne _ _ hplaced, State.rd_wr_ne _ _ havail]

theorem State.rd_account (s : State) : s.account.rd f = s.rd f := by
  obtain ⟨hfolded, havail, hholes, hguar, -⟩ := unaccounted.ne_counts hf 0
  unfold State.account
  extract_lets folded holes holeCores v low u w
  clear_value folded holes holeCores low
  have hv : v.rd f = s.rd f := by rw [State.rd_wr_ne _ _ havail, State.rd_wr_ne _ _ hholes, State.rd_wr_ne _ _ hfolded]
  clear_value v
  have hu : u.rd f = s.rd f := ((Announced.ite (State.postPanel_announced ..) (Announced.refl v)).rd hf.1).trans hv
  have hw : w.rd f = s.rd f := (State.rd_wr_ne _ _ hguar).trans hu
  refine (forN_keeps (fun t : State => t.rd f) _ (fun p t => ?_) 16 w).trans hw
  dsimp only
  split
  · exact ((Announced.ite (State.postBoth_announced ..) (Announced.refl _)).rd hf.1).trans (State.rd_partCounts hf ..)
  · exact State.rd_partCounts hf ..

end Account

/-- A record changed: no placement, no kernels, a stale scratchpad state (R318). -/
def State.partCleared (s : State) (p : Nat) : State :=
  ((s.unplace p).updPart p (fun y => { y with kernels := [] })).wr (GLB_DLR_PART3.STALE p) 1

/-- The record itself. -/
def State.partSet (s : State) (p regions owner en : Nat) : State :=
  ((s.wr (HID_PART.REGIONS p) regions).wr (HID_PART.OWNER p) owner).wr (HID_PART.EN p) en

theorem State.partCleared_part (s : State) (p : Nat) : ((s.partCleared p).part p).place = none ∧ ((s.partCleared p).part p).kernels = [] ∧
    (s.partCleared p).mem = s.mem := by
  have hmaps : (s.unplace p).stored = (s.updPart p (fun x => { x with place := none })).stored :=
    forL_keeps State.stored _ (fun d t => putPmap_stored none d t) _ _
  have hparts : (s.unplace p).parts = (s.updPart p (fun x => { x with place := none })).parts := congrArg (fun x => x.2.1) hmaps
  have hpart := State.part_congr hparts p
  rw [State.part_updPart_same] at hpart
  have hcleared : (s.partCleared p).part p = { (s.unplace p).part p with kernels := [] } :=
    (s.unplace p).part_updPart_same p (fun y => { y with kernels := [] })
  rw [hcleared, hpart]
  exact ⟨rfl, rfl, (congrArg Prod.fst hmaps :)⟩

theorem State.partSet_regsOnly (s : State) (p regions owner en : Nat) : RegsOnly s (s.partSet p regions owner en) := ⟨_, rfl⟩

theorem State.partSet_reads (s : State) (p regions owner en : Nat) : let t := s.partSet p regions owner en
    t.rd (HID_PART.REGIONS p) = regions % 2 ^ 16 ∧ t.rd (HID_PART.OWNER p) = owner % 2 ^ 4 ∧ t.rd (HID_PART.EN p) = en % 2 ^ 1 ∧
      t.bit (GLB_DLR_PART3.STALE p) = s.bit (GLB_DLR_PART3.STALE p) := by
  refine ⟨?_, ?_, State.rd_wr_same .., ?_⟩
  · rw [State.partSet, State.rd_wr_ne _ _ (by dsimp only [HID_PART.REGIONS, HID_PART.EN]; omega),
      State.rd_wr_ne _ _ (by dsimp only [HID_PART.REGIONS, HID_PART.OWNER]; omega)]
    exact State.rd_wr_same ..
  · rw [State.partSet, State.rd_wr_ne _ _ (by dsimp only [HID_PART.OWNER, HID_PART.EN]; omega)]
    exact State.rd_wr_same ..
  · rw [State.partSet, State.bit_wr_ne _ _ (by dsimp only [GLB_DLR_PART3.STALE, HID_PART.EN]; omega),
      State.bit_wr_ne _ _ (by dsimp only [GLB_DLR_PART3.STALE, HID_PART.OWNER]; omega),
      State.bit_wr_ne _ _ (by dsimp only [GLB_DLR_PART3.STALE, HID_PART.REGIONS]; omega)]

/-- The fields of a partition's record lie apart from its accounts. -/
theorem unaccounted_part {p : Nat} (hp : p < 16) : unaccounted (HID_PART.REGIONS p) ∧ unaccounted (HID_PART.OWNER p) ∧ unaccounted (HID_PART.EN p) ∧
    unaccounted (GLB_DLR_PART3.STALE p) := by
  dsimp only [unaccounted, quiet, HID_PART.REGIONS, HID_PART.OWNER, HID_PART.EN, GLB_DLR_PART3.STALE]
  omega

/-- The state a changed record leaves (R318). -/
def State.partAnew (s : State) (p regions owner en : Nat) : State := ((s.partCleared p).partSet p regions owner en).account

theorem State.partAnew_frame {p : Nat} (hp : p < 16) (s : State) {regions owner en : Nat} (hregions : regions % 2 ^ 16 = regions) (howner : owner % 2 ^ 4 = owner)
    (hen : en % 2 ^ 1 = en) : let t := s.partAnew p regions owner en
    t.rd (HID_PART.REGIONS p) = regions ∧ t.rd (HID_PART.OWNER p) = owner ∧ t.rd (HID_PART.EN p) = en ∧
      t.bit (GLB_DLR_PART3.STALE p) = true ∧ (t.part p).place = none ∧ (t.part p).kernels = [] ∧ t.mem = s.mem := by
  obtain ⟨uregions, uowner, uen, ustale⟩ := unaccounted_part hp
  obtain ⟨rregions, rowner, ren, rstale⟩ := (s.partCleared p).partSet_reads p regions owner en
  obtain ⟨hplace, hkernels, hmem⟩ := s.partCleared_part p
  have hstored := ((s.partCleared p).partSet p regions owner en).account_stored
  have hpart : (s.partAnew p regions owner en).part p = (s.partCleared p).part p := State.part_congr (congrArg (fun x => x.2.1) hstored :) p
  have hset : (s.partCleared p).bit (GLB_DLR_PART3.STALE p) = true := State.bit_wr_same _ _ 1 rfl
  refine ⟨?_, ?_, ?_, ?_, (congrArg Part.place hpart).trans hplace, (congrArg Part.kernels hpart).trans hkernels, (congrArg Prod.fst hstored).trans hmem⟩
  · exact (State.rd_account uregions _).trans (rregions.trans hregions)
  · exact (State.rd_account uowner _).trans (rowner.trans howner)
  · exact (State.rd_account uen _).trans (ren.trans hen)
  · exact (State.bit_eq_of_rd (State.rd_account ustale _)).trans (rstale.trans hset)

section PartWrite

variable {s : State} {f p : Nat} {v : W32} (hpf : isPf f = true) (hp : p < 16) (hlock : s.locked = false) (hkeep : bitsOf v.toNat 21 1 = 0)
include hpf hp hlock hkeep

/-- Does another enabled partition hold one of the regions? -/
def State.regionsHeld (s : State) (p regions : Nat) : Prop :=
  ∃ q, q < 16 ∧ q ≠ p ∧ s.bit (HID_PART.EN q) = true ∧ Nat.land (s.rd (HID_PART.REGIONS q)) regions ≠ 0

omit hpf hp hlock hkeep in
theorem State.regionsHeld_any (s : State) (p regions : Nat) : (List.range 16).any (fun q => decide (q ≠ p) && s.bit (HID_PART.EN q) &&
    decide (Nat.land (s.rd (HID_PART.REGIONS q)) regions ≠ 0)) = true ↔ s.regionsHeld p regions := by
  simp only [List.any_eq_true, List.mem_range, Bool.and_eq_true, decide_eq_true_eq, and_assoc, State.regionsHeld]

theorem execPartWrite_refused (hbusy : s.bit (GLB_DLR_PART3.RUNNING p) = true ∨ s.regionsHeld p (bitsOf v.toNat 0 16)) :
    execPartWrite (.fn f) p v s = .next (s.wr (HID_PART.CFG_ERR p) 1) := by
  rw [← State.regionsHeld_any] at hbusy
  have hclear : ¬ bitsOf v.toNat 21 1 = 1 := by omega
  have hopen : ¬ s.locked = true := Bool.not_eq_true _ ▸ hlock
  unfold execPartWrite
  rw [if_neg (by simp [pfOrFw, hpf, hp])]
  dsimp only
  rw [if_neg hclear, if_neg hopen, if_pos (by rw [Bool.or_eq_true]; exact hbusy)]

theorem execPartWrite_changes (hidle : s.bit (GLB_DLR_PART3.RUNNING p) = false) (hfree : ¬ s.regionsHeld p (bitsOf v.toNat 0 16))
    (hchange : bitsOf v.toNat 0 16 ≠ s.rd (HID_PART.REGIONS p) ∨ bitsOf v.toNat 20 1 ≠ s.rd (HID_PART.EN p)) :
    execPartWrite (.fn f) p v s = .next (s.partAnew p (bitsOf v.toNat 0 16) (bitsOf v.toNat 16 4) (bitsOf v.toNat 20 1)) := by
  rw [← State.regionsHeld_any, Bool.not_eq_true] at hfree
  have hsame : ¬ (bitsOf v.toNat 0 16 = s.rd (HID_PART.REGIONS p) ∧ bitsOf v.toNat 20 1 = s.rd (HID_PART.EN p)) := not_and_or.mpr hchange
  have hclear : ¬ bitsOf v.toNat 21 1 = 1 := by omega
  have hopen : ¬ s.locked = true := Bool.not_eq_true _ ▸ hlock
  unfold execPartWrite
  rw [if_neg (by simp [pfOrFw, hpf, hp])]
  dsimp only
  rw [if_neg hclear, if_neg hopen, if_neg (by simp only [hidle, hfree]; decide), if_neg (by
    simp only [Bool.and_eq_true, decide_eq_true_eq]
    exact fun h => hsame ⟨h.1.1, h.2⟩)]
  rfl

end PartWrite

/-- A virtual function writes neither a partition's record nor the apply register (R332). -/
theorem execPartWrite_vf {f : Nat} (hvf : isPf f = false) (p : Nat) (v : W32) (s : State) : execPartWrite (.fn f) p v s = .next s := by
  rw [execPartWrite, if_pos (by simp [pfOrFw, hvf])]

theorem execSegApply_vf {f : Nat} (hvf : isPf f = false) (v : W32) (s : State) : execSegApply (.fn f) v s = .next s := by
  rw [execSegApply, if_pos (by simp [pfOrFw, hvf])]

theorem execSegApply_go {f : Nat} (hpf : isPf f = true) {v : W32} (hgo : bitsOf v.toNat 0 1 = 1) (hdone : bitsOf v.toNat 2 1 = 0) (herr : bitsOf v.toNat 3 1 = 0)
    (s : State) : execSegApply (.fn f) v s = .next (s.wr HID_SEG_APPLY.BUSY 1) := by
  have hkeepDone : ¬ bitsOf v.toNat 2 1 = 1 := by omega
  have hkeepErr : ¬ bitsOf v.toNat 3 1 = 1 := by omega
  rw [execSegApply, if_neg (by simp [pfOrFw, hpf])]
  dsimp only
  rw [if_pos hgo, if_neg hkeepDone, if_neg hkeepErr]

end Sys2Proof.Machine

/-! PROOFS. Segment requests are applied together, or refused together (R230, R231, R319). -/

namespace Sys2Proof.Machine

/-! ### Segment requests (R230, R231, R319) -/

/-- A register below the dies' that a write of segment `j`'s map does not reach. -/
def offSegMap (j : Nat) (f : Field) : Prop :=
  belowDies f ∧ f.key ≠ MH_STORE_CFG.MODE_ERR.key ∧ (f.key < 8 * (0x380100 + j * 4) ∨ 8 * (0x380104 + j * 4) ≤ f.key)

theorem offSegMap_pmode (j : Nat) : offSegMap j MH_STORE_CFG.PMODE := by
  dsimp only [offSegMap, belowDies, MH_STORE_CFG.PMODE, MH_STORE_CFG.MODE_ERR]
  omega

theorem offSegMap_req (j : Nat) {i : Nat} (hi : i < 48) : offSegMap j (HID_SEG_REQ.ASSIGNED i) ∧ offSegMap j (HID_SEG_REQ.SHARED i) ∧
    offSegMap j (HID_SEG_REQ.MODE i) ∧ offSegMap j (HID_SEG_REQ.OWNER i) := by
  dsimp only [offSegMap, belowDies, HID_SEG_REQ.ASSIGNED, HID_SEG_REQ.SHARED, HID_SEG_REQ.MODE, HID_SEG_REQ.OWNER, MH_STORE_CFG.MODE_ERR]
  omega

theorem offSegMap_map {i j : Nat} (hi : i < 48) (hij : i ≠ j) : offSegMap j (MH_SEG_MAP.ASSIGNED i) ∧ offSegMap j (MH_SEG_MAP.SHARED i) ∧
    offSegMap j (MH_SEG_MAP.MODE i) ∧ offSegMap j (MH_SEG_MAP.OWNER i) := by
  dsimp only [offSegMap, belowDies, MH_SEG_MAP.ASSIGNED, MH_SEG_MAP.SHARED, MH_SEG_MAP.MODE, MH_SEG_MAP.OWNER, MH_STORE_CFG.MODE_ERR]
  omega

section SetSeg

variable {f : Field} {j : Nat} (hf : offSegMap j f)
include hf

theorem State.rd_segModed_off (mode : Nat) (s : State) : (s.segModed j mode).rd f = s.rd f := by
  obtain ⟨-, herr, hkey⟩ := hf
  have hmode : f.key ≠ (MH_SEG_MAP.MODE j).key := by dsimp only [MH_SEG_MAP.MODE]; omega
  have hopened (t : State) (lo hi : Nat) : ((t.openRange lo hi).wr (MH_SEG_MAP.MODE j) mode).rd f = t.rd f :=
    (State.rd_wr_ne _ _ hmode).trans (State.rd_congr (State.openRange_regs ..) f)
  unfold State.segModed
  extract_lets old bad t
  have ht : t.rd f = s.rd f := by
    dsimp only [t]
    split
    · exact s.rd_wr_ne 1 herr
    · rfl
  split
  · exact (hopened ..).trans ht
  · exact ht

theorem State.rd_setSeg_off (assigned shared mode owner : Nat) (s : State) : (s.setSeg j assigned shared mode owner).rd f = s.rd f := by
  have hkey := hf.2.2
  rw [State.setSeg_eq, State.rd_copySeg_below hf.1, State.rd_segMapped_ne _ _ _ _ (by dsimp only [MH_SEG_MAP.ASSIGNED]; omega)
    (by dsimp only [MH_SEG_MAP.SHARED]; omega) (by dsimp only [MH_SEG_MAP.OWNER]; omega)]
  exact State.rd_segModed_off hf mode s

end SetSeg

theorem State.setSeg_boot (s : State) (j assigned shared mode owner : Nat) : (s.setSeg j assigned shared mode owner).boot = s.boot := by
  have hmoded : (s.segModed j mode).boot = s.boot := by
    unfold State.segModed
    dsimp only
    split <;> split <;> rfl
  obtain ⟨_, h⟩ := State.setSeg_regsOnly (s := s) (j := j) (assigned := assigned) (shared := shared) (mode := mode) (owner := owner)
  rw [h]
  exact hmoded

/-- The segment is released for a change of its mode. -/
def State.segReleased (s : State) (j mode : Nat) : State :=
  if mode ≠ s.rd (MH_SEG_MAP.MODE j) ∧ s.bit (MH_SEG_MAP.ASSIGNED j) = true then
    s.setSeg j 0 (s.rd (MH_SEG_MAP.SHARED j)) (s.rd (MH_SEG_MAP.MODE j)) (s.rd (MH_SEG_MAP.OWNER j)) else s

/-- The released segment takes its mode; `old` is the one it had. -/
def State.segRemoded (s : State) (j mode old : Nat) : State :=
  if mode ≠ old then s.setSeg j 0 (s.rd (MH_SEG_MAP.SHARED j)) mode (s.rd (MH_SEG_MAP.OWNER j)) else s

theorem State.applySeg_eq (s : State) (j : Nat) : s.applySeg j =
    ((s.segReleased j (s.rd (HID_SEG_REQ.MODE j))).segRemoded j (s.rd (HID_SEG_REQ.MODE j)) (s.rd (MH_SEG_MAP.MODE j))).setSeg j (s.rd (HID_SEG_REQ.ASSIGNED j))
      (s.rd (HID_SEG_REQ.SHARED j)) (s.rd (HID_SEG_REQ.MODE j)) (s.rd (HID_SEG_REQ.OWNER j)) := rfl

/-- What every write of segment `j`'s map keeps, applying its request keeps. -/
theorem State.applySeg_keeps {β : Type} {g : State → β} {j : Nat} (hg : ∀ a sh m o (t : State), g (t.setSeg j a sh m o) = g t) (s : State) :
    g (s.applySeg j) = g s := by
  have hreleased (t : State) (m : Nat) : g (t.segReleased j m) = g t := by
    unfold State.segReleased
    split
    · exact hg ..
    · rfl
  have hremoded (t : State) (m old : Nat) : g (t.segRemoded j m old) = g t := by
    unfold State.segRemoded
    split
    · exact hg ..
    · rfl
  rw [State.applySeg_eq, hg, hremoded, hreleased]

theorem State.rd_applySeg_off {f : Field} {i : Nat} (hf : offSegMap i f) (s : State) : (s.applySeg i).rd f = s.rd f :=
  State.applySeg_keeps (g := fun t : State => t.rd f) (fun a sh m o t => State.rd_setSeg_off hf a sh m o t) s

section ApplySeg

variable {s : State} {j : Nat} (hj : j < 48) (hp : s.pmode = false)
include hj hp

theorem State.segReleased_mode (m : Nat) : (s.segReleased j m).rd (MH_SEG_MAP.MODE j) = s.rd (MH_SEG_MAP.MODE j) := by
  unfold State.segReleased
  split
  · obtain ⟨-, -, -, hmode, -⟩ := State.setSeg_map (s := s) (assigned := 0) (shared := s.rd (MH_SEG_MAP.SHARED j)) (mode := s.rd (MH_SEG_MAP.MODE j))
      (owner := s.rd (MH_SEG_MAP.OWNER j)) hj
    rw [hmode, State.segModed_same hp]
  · rfl

omit hp in
theorem State.segReleased_free {m : Nat} (hm : m ≠ s.rd (MH_SEG_MAP.MODE j)) : (s.segReleased j m).bit (MH_SEG_MAP.ASSIGNED j) = false := by
  unfold State.segReleased
  split
  · obtain ⟨hassigned, -⟩ := State.setSeg_map (s := s) (assigned := 0) (shared := s.rd (MH_SEG_MAP.SHARED j)) (mode := s.rd (MH_SEG_MAP.MODE j))
      (owner := s.rd (MH_SEG_MAP.OWNER j)) hj
    rw [State.bit, hassigned]
    rfl
  · rename_i hnot
    exact Bool.not_eq_true _ ▸ fun ha => hnot ⟨hm, ha⟩

omit hj hp in
theorem State.segReleased_pmode (s : State) (j m : Nat) : (s.segReleased j m).pmode = s.pmode := by
  unfold State.segReleased
  split
  · exact State.bit_eq_of_rd (State.rd_setSeg_off (offSegMap_pmode j) ..)
  · rfl

/-- The mode asked for is in effect before the rest of the request is written. -/
theorem State.segRemoded_mode {m : Nat} (hm : m < 2) :
    ((s.segReleased j m).segRemoded j m (s.rd (MH_SEG_MAP.MODE j))).rd (MH_SEG_MAP.MODE j) = m := by
  have hmode := State.segReleased_mode hj hp m
  have hfree := State.segReleased_free hj (s := s) (m := m)
  have hp' := (s.segReleased_pmode j m).trans hp
  generalize s.segReleased j m = t at hmode hfree hp'
  rw [← hmode] at hfree ⊢
  unfold State.segRemoded
  split
  · rename_i hne
    obtain ⟨-, -, -, hset, -⟩ := State.setSeg_map (s := t) (assigned := 0) (shared := t.rd (MH_SEG_MAP.SHARED j)) (mode := m)
      (owner := t.rd (MH_SEG_MAP.OWNER j)) hj
    rw [hset, State.segModed_changed (hfree hne) hp' hne, State.rd_wr_same]
    exact Nat.mod_eq_of_lt hm
  · rename_i heq
    exact (not_ne_iff.mp heq).symm

omit hj hp in
theorem State.segRemoded_pmode (s : State) (j m old : Nat) : (s.segRemoded j m old).pmode = s.pmode := by
  unfold State.segRemoded
  split
  · exact State.bit_eq_of_rd (State.rd_setSeg_off (offSegMap_pmode j) ..)
  · rfl

theorem State.applySeg_map : let t := s.applySeg j
    t.rd (MH_SEG_MAP.ASSIGNED j) = s.rd (HID_SEG_REQ.ASSIGNED j) ∧ t.rd (MH_SEG_MAP.SHARED j) = s.rd (HID_SEG_REQ.SHARED j) ∧
      t.rd (MH_SEG_MAP.MODE j) = s.rd (HID_SEG_REQ.MODE j) ∧ t.rd (MH_SEG_MAP.OWNER j) = s.rd (HID_SEG_REQ.OWNER j) := by
  have hmoded := State.segRemoded_mode hj hp (s.rd_lt (HID_SEG_REQ.MODE j))
  have hp' := (State.segRemoded_pmode _ j (s.rd (HID_SEG_REQ.MODE j)) (s.rd (MH_SEG_MAP.MODE j))).trans
    ((s.segReleased_pmode j (s.rd (HID_SEG_REQ.MODE j))).trans hp)
  rw [State.applySeg_eq]
  generalize (s.segReleased j _).segRemoded j _ _ = t at hmoded hp'
  obtain ⟨hassigned, hshared, howner, hmode, -⟩ := State.setSeg_map (s := t) (assigned := s.rd (HID_SEG_REQ.ASSIGNED j))
    (shared := s.rd (HID_SEG_REQ.SHARED j)) (mode := s.rd (HID_SEG_REQ.MODE j)) (owner := s.rd (HID_SEG_REQ.OWNER j)) hj
  have hsame : (t.segModed j (s.rd (HID_SEG_REQ.MODE j))).rd (MH_SEG_MAP.MODE j) = s.rd (HID_SEG_REQ.MODE j) := by
    rw [← hmoded, State.segModed_same hp']
  exact ⟨hassigned.trans (Nat.mod_eq_of_lt (s.rd_lt _)), hshared.trans (Nat.mod_eq_of_lt (s.rd_lt _)), hmode.trans hsame,
    howner.trans (Nat.mod_eq_of_lt (s.rd_lt _))⟩

end ApplySeg

/-- Segment `j` may be applied in `t` as `s` asks: its request stands, and the store is not in parity mode. -/
def SegAsked (s : State) (j : Nat) (t : State) : Prop := t.pmode = false ∧ t.segReq j = s.segReq j

/-- The map of segment `j` is what `s` asks for. -/
def SegApplied (s : State) (j : Nat) (t : State) : Prop :=
  t.rd (MH_SEG_MAP.ASSIGNED j) = s.rd (HID_SEG_REQ.ASSIGNED j) ∧ t.rd (MH_SEG_MAP.SHARED j) = s.rd (HID_SEG_REQ.SHARED j) ∧
    t.rd (MH_SEG_MAP.MODE j) = s.rd (HID_SEG_REQ.MODE j) ∧ t.rd (MH_SEG_MAP.OWNER j) = s.rd (HID_SEG_REQ.OWNER j)

section Requests

variable {s t : State} {j : Nat} (hj : j < 48)
include hj

theorem SegAsked.applySeg (h : SegAsked s j t) (i : Nat) : SegAsked s j (t.applySeg i) := by
  obtain ⟨hp, hreq⟩ := h
  obtain ⟨ha, hs, hm, ho⟩ := offSegMap_req i hj
  refine ⟨(State.bit_eq_of_rd (t.rd_applySeg_off (offSegMap_pmode i))).trans hp, Eq.trans ?_ hreq⟩
  rw [State.segReq, State.segReq, t.rd_applySeg_off ha, t.rd_applySeg_off hs, t.rd_applySeg_off hm, t.rd_applySeg_off ho]

theorem SegAsked.applied (h : SegAsked s j t) : SegApplied s j (t.applySeg j) := by
  obtain ⟨hp, hreq⟩ := h
  obtain ⟨ha, hs, hm, ho⟩ := State.applySeg_map hj hp
  simp only [State.segReq, Prod.mk.injEq] at hreq
  obtain ⟨hra, hrs, hrm, hro⟩ := hreq
  exact ⟨ha.trans hra, hs.trans hrs, hm.trans hrm, ho.trans hro⟩

theorem SegApplied.applySeg_ne (h : SegApplied s j t) {i : Nat} (hij : j ≠ i) : SegApplied s j (t.applySeg i) := by
  obtain ⟨ha, hs, hm, ho⟩ := offSegMap_map hj hij
  rw [SegApplied, t.rd_applySeg_off ha, t.rd_applySeg_off hs, t.rd_applySeg_off hm, t.rd_applySeg_off ho]
  exact h

/-- All requests applied, in order: each segment has what was asked. -/
theorem segs_applied (hp : s.pmode = false) : SegApplied s j (forN 48 (fun i t => t.applySeg i) s) := by
  refine (forN_establishes (P := SegAsked s j) (Q := fun t => SegAsked s j t ∧ SegApplied s j t) hj (fun i _ h => h.applySeg hj i)
    (fun i t h => ⟨h.1.applySeg hj i, ?_⟩) (fun t h => ⟨h.applySeg hj j, h.applied hj⟩) ⟨hp, rfl⟩).2
  by_cases hij : j = i
  · subst hij
    exact h.1.applied hj
  · exact h.2.applySeg_ne hj hij

end Requests

/-- Behind the requests, what firmware reports: applied, and no longer busy. -/
def State.segsReported (s : State) : State := (s.wr HID_SEG_APPLY.BUSY 0).wr HID_SEG_APPLY.APPLIED 1

theorem State.segsReported_reads (s : State) : s.segsReported.bit HID_SEG_APPLY.BUSY = false ∧ s.segsReported.bit HID_SEG_APPLY.APPLIED = true :=
  ⟨(State.bit_wr_ne _ 1 (by decide)).trans (State.bit_wr_same _ HID_SEG_APPLY.BUSY 0 rfl), State.bit_wr_same _ HID_SEG_APPLY.APPLIED 1 rfl⟩

theorem SegApplied.reported {s t : State} {j : Nat} (h : SegApplied s j t) : SegApplied s j t.segsReported := by
  have hrd {f : Field} (hf : 8 * 0x380100 ≤ f.key) : t.segsReported.rd f = t.rd f := by
    rw [State.segsReported, State.rd_wr_ne _ _ (by dsimp only [HID_SEG_APPLY.APPLIED]; omega), State.rd_wr_ne _ _ (by dsimp only [HID_SEG_APPLY.BUSY]; omega)]
  rw [SegApplied, hrd (by dsimp only [MH_SEG_MAP.ASSIGNED]; omega), hrd (by dsimp only [MH_SEG_MAP.SHARED]; omega),
    hrd (by dsimp only [MH_SEG_MAP.MODE]; omega), hrd (by dsimp only [MH_SEG_MAP.OWNER]; omega)]
  exact h

theorem State.segsReported_boot (s : State) : s.segsReported.boot = s.boot := rfl

theorem State.applySegs_boot (s : State) (n : Nat) : (forN n (fun i t => t.applySeg i) s).boot = s.boot :=
  forN_keeps State.boot (fun i t => t.applySeg i) (fun _ t => State.applySeg_keeps (fun a sh m o u => u.setSeg_boot _ a sh m o) t) n s

section Done

variable {s : State} (hsave : s.boot.saveDue = false) (hbusy : s.bit HID_SEG_APPLY.BUSY = true)
include hsave hbusy

theorem execSegApplyDone_applies (hp : s.pmode = false) (hidle : ∀ q, q < 16 → s.bit (GLB_DLR_PART3.RUNNING q) = false) :
    execSegApplyDone s = .next (forN 48 (fun i t => t.applySeg i) s).segsReported := by
  have hnone : (List.range 48).find? (fun j => decide (s.rd (HID_SEG_REQ.MODE j) = 1) && s.pmode) = none :=
    List.find?_eq_none.mpr fun j _ => by simp [hp]
  have hrun : (List.range 16).any (fun p => s.bit (GLB_DLR_PART3.RUNNING p) && (List.range 48).any (fun j => s.segChanges p j)) = false :=
    List.any_eq_false.mpr fun p hmem => by simp [hidle p (List.mem_range.mp hmem)]
  have hkept : ¬ (forN 48 (fun i t => t.applySeg i) s).segsReported.boot.saveDue = true := by
    rw [State.segsReported_boot, State.applySegs_boot, hsave]
    exact Bool.false_ne_true
  unfold execSegApplyDone
  rw [if_neg (by simp [hbusy]), hnone]
  dsimp only
  rw [hrun, if_neg Bool.false_ne_true]
  exact congrArg Host.Outcome.next (if_neg hkept)

theorem execSegApplyDone_refuses (hp : s.pmode = true) {j : Nat} (hj : j < 48) (hmode : s.rd (HID_SEG_REQ.MODE j) = 1)
    (hfirst : ∀ i, i < j → s.rd (HID_SEG_REQ.MODE i) ≠ 1) :
    execSegApplyDone s = .next (((s.wr HID_SEG_APPLY.BUSY 0).wr HID_SEG_APPLY.ERR 1).wr HID_SEG_APPLY.ERR_SEG j) := by
  have hfind : (List.range 48).find? (fun j => decide (s.rd (HID_SEG_REQ.MODE j) = 1) && s.pmode) = some j := by
    rw [List.find?_range_eq_some]
    exact ⟨by simp [hmode, hp], List.mem_range.mpr hj, fun i hi => by simp [hfirst i hi]⟩
  have hkept : ¬ (((s.wr HID_SEG_APPLY.BUSY 0).wr HID_SEG_APPLY.ERR 1).wr HID_SEG_APPLY.ERR_SEG j).boot.saveDue = true := by
    rw [show (((s.wr HID_SEG_APPLY.BUSY 0).wr HID_SEG_APPLY.ERR 1).wr HID_SEG_APPLY.ERR_SEG j).boot = s.boot from rfl, hsave]
    exact Bool.false_ne_true
  unfold execSegApplyDone
  rw [if_neg (by simp [hbusy]), hfind]
  exact congrArg Host.Outcome.next (if_neg hkept)

end Done

end Sys2Proof.Machine

/-! PROOFS. The windows answer by what their function may reach (R313, R315). -/

namespace Sys2Proof.Machine

/-! ### The windows of a function (R313, R315) -/

section Bar0

variable {s : State} {f off : Nat} (hup : s.bar0Up f = true) (hoff : off < 0x4000000) {n : Nat}
include hup hoff

theorem execBar0Access_write (hn : n = 4 ∨ n = 8) (halign : off % n = 0) (x : Nat) :
    execBar0Access f off n (some x) s = .next (s.bar0Write f off n x) := by
  rw [execBar0Access, if_neg (by simp [hup, hoff]), if_neg (by omega)]

theorem execBar0Access_read (hn : n = 4 ∨ n = 8) (halign : off % n = 0) :
    execBar0Access f off n none s = .next ((s.bar0Read f off n).2.emit (.readData (.fn f) (s.bar0Read f off n).1 n false)) := by
  unfold execBar0Access
  rw [if_neg (by simp [hup, hoff]), if_neg (by omega)]

theorem execBar0Access_oddSize (h4 : n ≠ 4) (h8 : n ≠ 8) (data : Option Nat) :
    execBar0Access f off n data s = .next (if data.isSome then s else s.emit (.readData (.fn f) (allOnes (8 * n)) n false)) := by
  unfold execBar0Access
  rw [if_neg (by simp [hup, hoff]), if_pos (Or.inl ⟨h4, h8⟩)]

end Bar0

theorem execBar2Read_live {s : State} {f off : Nat} (hlive : s.fnLive f = true) (hoff : off < 2 ^ 24) (n : Nat) :
    execBar2Read f off n s = .next (s.emit (.readData (.fn f) 0 n false)) := by
  rw [execBar2Read, if_pos (by simp only [hlive, hoff]; decide)]

/-- The address of an access through BAR4 (R315). -/
def State.apAddr (s : State) (f off : Nat) : Nat := s.rd (HID_FN_AP.BASE f) * 2 ^ 30 + off

section Bar4

variable {s : State} {f off n : Nat} (hlive : s.fnLive f = true) (hin : off + n ≤ 2 ^ 36) (hn : 0 < n)
include hlive hin hn

theorem bar4_answers : ¬ (!s.fnLive f || decide (2 ^ 36 < off + n) || decide (n = 0)) = true := by
  rw [hlive, decide_eq_false (Nat.not_lt.mpr hin), decide_eq_false (Nat.pos_iff_ne_zero.mp hn)]
  exact Bool.false_ne_true

theorem execBar4Access_outside (hreach : s.apReach f (s.apAddr f off) n = false) (wr poison : Bool) (data : List Byte) :
    execBar4Access f wr poison off n data s =
      .next (if wr then s.wr (HID_FN_ERR.AP_ERR f) 1 else (s.wr (HID_FN_ERR.AP_ERR f) 1).emit (.readData (.fn f) (allOnes (8 * n)) n false)) := by
  rw [State.apAddr] at hreach
  unfold execBar4Access
  dsimp only
  rw [if_neg (bar4_answers hlive hin hn), hreach]
  rfl

variable (hreach : s.apReach f (s.apAddr f off) n = true) (hwait : s.mustWait (s.apAddr f off) n = false)
include hreach hwait

theorem execBar4Access_poisoned (data : List Byte) : execBar4Access f true true off n data s =
    .next ((s.wr (HID_FN_ERR.AP_ERR f) 1).updHost (fun h => { h with aer := Tab.upd 0 h.aer f (Nat.lor 0x1000) })) := by
  rw [State.apAddr] at hreach hwait
  unfold execBar4Access
  dsimp only
  rw [if_neg (bar4_answers hlive hin hn), hreach, hwait]
  rfl

theorem execBar4Access_write {data : List Byte} {u : State} (hlen : data.length = n) (hdone : s.localWrite (s.apAddr f off) data = (u, none)) :
    execBar4Access f true false off n data s = .next u := by
  have hpad : data.take n ++ List.replicate (n - data.length) 0 = data := by simp [← hlen]
  rw [State.apAddr] at hreach hwait hdone
  unfold execBar4Access
  dsimp only
  rw [if_neg (bar4_answers hlive hin hn), hreach, hwait, hpad, hdone]
  rfl

theorem execBar4Access_read {l : List Byte} {u : State} (hdone : s.localRead (s.apAddr f off) n = (u, .ok l)) (data : List Byte) :
    execBar4Access f false false off n data s = .next (u.emit (.readData (.fn f) (leNat l) n false)) := by
  rw [State.apAddr] at hreach hwait hdone
  unfold execBar4Access
  dsimp only
  rw [if_neg (bar4_answers hlive hin hn), hreach, hwait, hdone]
  rfl

end Bar4

theorem execPcieLinkChange_eq {ep : Nat} (hep : ep < 2) (rate width : Nat) (s : State) : execPcieLinkChange ep rate width s =
    .next (({ s with host := { s.host with linkRate := Tab.set 0 s.host.linkRate ep rate, linkWidth := Tab.set 0 s.host.linkWidth ep width } }).postEvent
      (8 * ep) 0x0003 31 1 (leBytes 1 rate ++ leBytes 1 width)) :=
  if_neg (Nat.not_le.mpr hep)

end Sys2Proof.Machine

/-! PROOFS. Functions and endpoints are reset (R350, R351). Settles O39. -/

namespace Sys2Proof.Machine

/-! ### Functions and endpoints are reset (R350, R351) -/

/-- The functions whose descriptors the panel holds. -/
def State.descFns (s : State) : List Nat := s.host.descs.map Desc.fn

/-- `t` is `s` with layers ended: below the dies no register differs, nor do the bytes, the owners of the descriptors and the endpoints' resets. -/
def LayersEnded (s t : State) : Prop :=
  (∀ g, belowDies g → t.rd g = s.rd g) ∧ t.mem = s.mem ∧ t.descFns = s.descFns ∧ t.host.inReset = s.host.inReset

theorem LayersEnded.refl (s : State) : LayersEnded s s := ⟨fun _ _ => rfl, rfl, rfl, rfl⟩

theorem LayersEnded.trans {s t u : State} (h : LayersEnded s t) (k : LayersEnded t u) : LayersEnded s u := by
  obtain ⟨hrd, hmem, hfns, hreset⟩ := h
  obtain ⟨krd, kmem, kfns, kreset⟩ := k
  exact ⟨fun g hg => (krd g hg).trans (hrd g hg), kmem.trans hmem, kfns.trans hfns, kreset.trans hreset⟩

theorem State.discardPart_layersEnded (s : State) (p : Nat) : LayersEnded s (s.discardPart p) := by
  have hkeeps := forL_keeps (fun t : State => (t.regs, t.mem, t.host)) (fun c t => t.updCore c Core.discard) (fun _ _ => rfl) (s.placedCores p) (s.cutWeights p)
  simp only [Prod.mk.injEq] at hkeeps
  obtain ⟨hregs, hmem, hhost⟩ := hkeeps
  exact ⟨fun g _ => State.rd_congr hregs g, hmem, congrArg (fun h => h.descs.map Desc.fn) hhost, congrArg HostSide.inReset hhost⟩

theorem State.layerDropped_layersEnded (s : State) (p : Nat) : LayersEnded s (s.layerDropped p) := by
  refine ⟨fun g hg => ?_, rfl, rfl, rfl⟩
  unfold belowDies at hg
  have hwr : (((s.wr (GLB_DLR_PART3.STALE p) 1).wr (GLB_DLR_PART3.RUNNING p) 0).wr (GLB_RCV_PART.REPLAYING p) 0).rd g = s.rd g := by
    rw [State.rd_wr_ne _ _ (by dsimp only [GLB_RCV_PART.REPLAYING]; omega), State.rd_wr_ne _ _ (by dsimp only [GLB_DLR_PART3.RUNNING]; omega),
      State.rd_wr_ne _ _ (by dsimp only [GLB_DLR_PART3.STALE]; omega)]
  exact hwr

theorem State.finishDesc_layersEnded (s : State) (key status detail r0 r1 : Nat) : LayersEnded s (s.finishDesc key status detail r0 r1) :=
  ⟨fun _ _ => rfl, rfl, map_updFirst (g := Desc.fn) (f := fun d => { d with st := .finished, status := status, detail := detail, r0 := r0, r1 := r1 }) (fun _ => rfl) _, rfl⟩

/-- Ending a layer is `LayersEnded`. -/
theorem State.endLayer_layersEnded (s : State) (p status : Nat) : LayersEnded s (s.endLayer p status) := by
  cases hrun : (s.part p).run with
  | none =>
    rw [State.endLayer, hrun]
    exact LayersEnded.refl s
  | some l =>
    obtain ⟨r0, hend⟩ := State.endLayer_eq hrun status
    rw [hend]
    exact LayersEnded.trans (t := s.draw.2) ⟨fun _ _ => rfl, rfl, rfl, rfl⟩
      (((s.draw.2.discardPart_layersEnded p).trans (State.layerDropped_layersEnded ..)).trans (State.finishDesc_layersEnded ..))

/-- The layers of a function's partitions end. -/
def State.fnLayersEnded (s : State) (f : Nat) : State :=
  forN 16 (fun p s => if s.bit (HID_PART.EN p) && decide (s.rd (HID_PART.OWNER p) = f) && (s.part p).run.isSome then s.endLayer p 5 else s) s

theorem State.fnLayersEnded_layersEnded (s : State) (f : Nat) : LayersEnded s (s.fnLayersEnded f) := by
  refine forN_preserves (P := LayersEnded s) (fun p t ht => ht.trans ?_) 16 (LayersEnded.refl s)
  split
  · exact t.endLayer_layersEnded p 5
  · exact LayersEnded.refl t

/-- A function's descriptors and held entries are gone. -/
def State.fnDropped (s : State) (f : Nat) (rs : List Nat) : State :=
  s.updHost (fun h => { h with
    descs := h.descs.filter (fun d => decide (d.fn ≠ f))
    held := h.held.filter (fun e => !rs.contains e.cq && !rs.contains e.sq)
    evtLost := Tab.set 0 h.evtLost f 0, d3hot := Tab.set 0 h.d3hot f 0 })

theorem State.fnDropped_descFns (s : State) (f : Nat) (rs : List Nat) : (s.fnDropped f rs).descFns = s.descFns.filter (fun g => decide (g ≠ f)) := by
  rw [State.descFns, State.descFns, List.filter_map]
  rfl

/-- Rings go off. -/
def State.ringsOff (s : State) (rs : List Nat) : State := forL rs (fun r s => s.ringOff r) s

theorem State.ringsOff_keeps (s : State) (rs : List Nat) : (s.ringsOff rs).mem = s.mem ∧ (s.ringsOff rs).descFns = s.descFns ∧
    (s.ringsOff rs).host.inReset = s.host.inReset := by
  have h := forL_keeps (fun t : State => (t.mem, t.descFns, t.host.inReset)) (fun r t => t.ringOff r) (fun _ _ => rfl) rs s
  simp only [Prod.mk.injEq] at h
  exact h

/-- A ring that is off (R350). -/
def RingIsOff (r : Nat) (s : State) : Prop := s.bit (RING_CFG.EN r) = false ∧ s.rd (RING_STAT.STATE r) = 0

/-- The registers of a ring that goes off. -/
def State.ringCleared (s : State) (r : Nat) : State :=
  ((((s.wr (RING_CFG.EN r) 0).wr (RING_STAT.STATE r) 0).wr (RING_STAT.FULL r) 0).wr (RING_HEAD.HEAD r) 0).wr (RING_TAIL.TAIL r) 0

theorem State.rd_ringOff (s : State) (r : Nat) (g : Field) : (s.ringOff r).rd g = (s.ringCleared r).rd g := rfl

theorem State.rd_ringOff_ne {r : Nat} {g : Field} (hen : g.key ≠ (RING_CFG.EN r).key) (hstate : g.key ≠ (RING_STAT.STATE r).key)
    (hfull : g.key ≠ (RING_STAT.FULL r).key) (hhead : g.key ≠ (RING_HEAD.HEAD r).key) (htail : g.key ≠ (RING_TAIL.TAIL r).key) (s : State) :
    (s.ringOff r).rd g = s.rd g := by
  rw [State.rd_ringOff, State.ringCleared, State.rd_wr_ne _ _ htail, State.rd_wr_ne _ _ hhead, State.rd_wr_ne _ _ hfull, State.rd_wr_ne _ _ hstate,
    State.rd_wr_ne _ _ hen]

theorem State.ringOff_off (s : State) (r : Nat) : RingIsOff r (s.ringOff r) := by
  have hen : (s.ringOff r).rd (RING_CFG.EN r) = 0 := by
    rw [State.rd_ringOff, State.ringCleared, State.rd_wr_ne _ _ (by dsimp only [RING_CFG.EN, RING_TAIL.TAIL]; omega),
      State.rd_wr_ne _ _ (by dsimp only [RING_CFG.EN, RING_HEAD.HEAD]; omega), State.rd_wr_ne _ _ (by dsimp only [RING_CFG.EN, RING_STAT.FULL]; omega),
      State.rd_wr_ne _ _ (by dsimp only [RING_CFG.EN, RING_STAT.STATE]; omega)]
    exact State.rd_wr_same ..
  refine ⟨decide_eq_false (by rw [hen]; exact Nat.zero_ne_one), ?_⟩
  rw [State.rd_ringOff, State.ringCleared, State.rd_wr_ne _ _ (by dsimp only [RING_STAT.STATE, RING_TAIL.TAIL]; omega),
    State.rd_wr_ne _ _ (by dsimp only [RING_STAT.STATE, RING_HEAD.HEAD]; omega), State.rd_wr_ne _ _ (by dsimp only [RING_STAT.STATE, RING_STAT.FULL]; omega)]
  exact State.rd_wr_same ..

theorem RingIsOff.ringOff {r : Nat} {s : State} (h : RingIsOff r s) (r' : Nat) : RingIsOff r (s.ringOff r') := by
  by_cases hr : r' = r
  · subst hr
    exact s.ringOff_off r'
  · obtain ⟨hen, hstate⟩ := h
    have hen' := s.rd_ringOff_ne (r := r') (g := RING_CFG.EN r) (by dsimp only [RING_CFG.EN]; omega) (by dsimp only [RING_CFG.EN, RING_STAT.STATE]; omega)
      (by dsimp only [RING_CFG.EN, RING_STAT.FULL]; omega) (by dsimp only [RING_CFG.EN, RING_HEAD.HEAD]; omega)
      (by dsimp only [RING_CFG.EN, RING_TAIL.TAIL]; omega)
    have hstate' := s.rd_ringOff_ne (r := r') (g := RING_STAT.STATE r) (by dsimp only [RING_CFG.EN, RING_STAT.STATE]; omega)
      (by dsimp only [RING_STAT.STATE]; omega) (by dsimp only [RING_STAT.STATE, RING_STAT.FULL]; omega)
      (by dsimp only [RING_STAT.STATE, RING_HEAD.HEAD]; omega) (by dsimp only [RING_STAT.STATE, RING_TAIL.TAIL]; omega)
    exact ⟨(State.bit_eq_of_rd hen').trans hen, hstate'.trans hstate⟩

theorem State.ringsOff_off {rs : List Nat} {r : Nat} (hr : r ∈ rs) (s : State) : RingIsOff r (s.ringsOff rs) :=
  forL_establishes (P := fun _ => True) (fun _ _ h => h) (fun r' _ h => h.ringOff r') (fun t _ => t.ringOff_off r) hr trivial

/-- The event ring goes off. -/
def State.evtOff (s : State) (f : Nat) : State := ((s.wr (HID_EVT_CFG.EN f) 0).wr (HID_EVT_HEAD.HEAD f) 0).wr (HID_EVT_TAIL.TAIL f) 0

theorem State.evtOff_keeps (s : State) (f : Nat) : (s.evtOff f).mem = s.mem ∧ (s.evtOff f).descFns = s.descFns ∧ (s.evtOff f).host.inReset = s.host.inReset :=
  ⟨rfl, rfl, rfl⟩

/-- The aperture, and a PF's role, go. -/
def State.fnAccessOff (s : State) (f : Nat) : State := if isPf f then (s.wr (HID_FN_AP.BASE f) 0).dropRole (f / 8) else s.wr (HID_FN_AP.BASE f) 0

/-- A function-level reset in its four parts (R350). -/
theorem State.flr_eq (s : State) (f : Nat) : s.flr f = ((((s.fnDropped f (s.fnRings f)).ringsOff (s.fnRings f)).evtOff f).fnLayersEnded f).fnAccessOff f := rfl

theorem State.fnAccessOff_keeps (s : State) (f : Nat) : (s.fnAccessOff f).mem = s.mem ∧ (s.fnAccessOff f).descFns = s.descFns ∧
    (s.fnAccessOff f).host.inReset = s.host.inReset := by
  unfold State.fnAccessOff
  split <;> exact ⟨rfl, rfl, rfl⟩

theorem State.rd_dropRole_ne {q : Nat} {g : Field} (hg : g.key ≠ (KEY_MBOX_CTL.ROLE q).key) (s : State) : (s.dropRole q).rd g = s.rd g := s.rd_wr_ne 0 hg

theorem State.rd_fnAccessOff_ne {f : Nat} {g : Field} (hbase : g.key ≠ (HID_FN_AP.BASE f).key) (hrole : g.key ≠ (KEY_MBOX_CTL.ROLE (f / 8)).key) (s : State) :
    (s.fnAccessOff f).rd g = s.rd g := by
  unfold State.fnAccessOff
  split
  · exact (State.rd_dropRole_ne hrole _).trans (s.rd_wr_ne 0 hbase)
  · exact s.rd_wr_ne 0 hbase

theorem State.fnAccessOff_base (s : State) (f : Nat) : (s.fnAccessOff f).rd (HID_FN_AP.BASE f) = 0 := by
  unfold State.fnAccessOff
  split
  · exact (State.rd_dropRole_ne (by dsimp only [HID_FN_AP.BASE, KEY_MBOX_CTL.ROLE]; omega) _).trans (State.rd_wr_same ..)
  · exact State.rd_wr_same ..

theorem State.flr_keeps (s : State) (f : Nat) : (s.flr f).mem = s.mem ∧ (s.flr f).descFns = s.descFns.filter (fun g => decide (g ≠ f)) ∧
    (s.flr f).host.inReset = s.host.inReset := by
  obtain ⟨rmem, rfns, rreset⟩ := (s.fnDropped f (s.fnRings f)).ringsOff_keeps (s.fnRings f)
  obtain ⟨-, lmem, lfns, lreset⟩ := (((s.fnDropped f (s.fnRings f)).ringsOff (s.fnRings f)).evtOff f).fnLayersEnded_layersEnded f
  obtain ⟨amem, afns, areset⟩ := ((((s.fnDropped f (s.fnRings f)).ringsOff (s.fnRings f)).evtOff f).fnLayersEnded f).fnAccessOff_keeps f
  obtain ⟨emem, efns, ereset⟩ := ((s.fnDropped f (s.fnRings f)).ringsOff (s.fnRings f)).evtOff_keeps f
  rw [State.flr_eq]
  exact ⟨amem.trans (lmem.trans (emem.trans rmem)), afns.trans (lfns.trans (efns.trans (rfns.trans (s.fnDropped_descFns f _)))),
    areset.trans (lreset.trans (ereset.trans rreset))⟩

/-- Below the dies, what follows the rings of a function-level reset reaches the registers of its own record and its role. -/
theorem State.rd_flr {f : Nat} {g : Field} (hg : belowDies g) (hbase : g.key ≠ (HID_FN_AP.BASE f).key) (hrole : g.key ≠ (KEY_MBOX_CTL.ROLE (f / 8)).key) (s : State) :
    (s.flr f).rd g = (((s.fnDropped f (s.fnRings f)).ringsOff (s.fnRings f)).evtOff f).rd g := by
  obtain ⟨hrd, -⟩ := (((s.fnDropped f (s.fnRings f)).ringsOff (s.fnRings f)).evtOff f).fnLayersEnded_layersEnded f
  rw [State.flr_eq, State.rd_fnAccessOff_ne hbase hrole]
  exact hrd g hg

theorem State.flr_evtOff {f : Nat} (hf : f < 16) (s : State) : (s.flr f).bit (HID_EVT_CFG.EN f) = false := by
  have hoff (t : State) : (t.evtOff f).bit (HID_EVT_CFG.EN f) = false := by
    rw [State.evtOff, State.bit_wr_ne _ _ (by dsimp only [HID_EVT_CFG.EN, HID_EVT_TAIL.TAIL]; omega),
      State.bit_wr_ne _ _ (by dsimp only [HID_EVT_CFG.EN, HID_EVT_HEAD.HEAD]; omega)]
    exact State.bit_wr_same _ _ 0 rfl
  exact (State.bit_eq_of_rd (State.rd_flr (by dsimp only [belowDies, HID_EVT_CFG.EN]; omega) (by dsimp only [HID_EVT_CFG.EN, HID_FN_AP.BASE]; omega)
    (by dsimp only [HID_EVT_CFG.EN, KEY_MBOX_CTL.ROLE]; omega) s)).trans (hoff _)

theorem State.fnRings_lt {s : State} {f r : Nat} (hf : f < 16) (hr : r ∈ s.fnRings f) : r < 4096 := by
  obtain ⟨i, hi, rfl⟩ := List.mem_map.mp (List.mem_of_mem_filter hr)
  have := List.mem_range.mp hi
  dsimp only [epOf]
  omega

theorem State.flr_ringsOff {f r : Nat} (hf : f < 16) {s : State} (hr : r ∈ s.fnRings f) : RingIsOff r (s.flr f) := by
  have hlt := State.fnRings_lt hf hr
  have hkept {g : Field} (hlo : 8 * 0x20000 ≤ g.key) (hhi : g.key < 8 * 0x100000) :
      (s.flr f).rd g = ((s.fnDropped f (s.fnRings f)).ringsOff (s.fnRings f)).rd g := by
    rw [State.rd_flr (by dsimp only [belowDies]; omega) (by dsimp only [HID_FN_AP.BASE]; omega) (by dsimp only [KEY_MBOX_CTL.ROLE]; omega), State.evtOff,
      State.rd_wr_ne _ _ (by dsimp only [HID_EVT_TAIL.TAIL]; omega), State.rd_wr_ne _ _ (by dsimp only [HID_EVT_HEAD.HEAD]; omega),
      State.rd_wr_ne _ _ (by dsimp only [HID_EVT_CFG.EN]; omega)]
  obtain ⟨hen, hstate⟩ := (s.fnDropped f (s.fnRings f)).ringsOff_off hr
  exact ⟨(State.bit_eq_of_rd (hkept (by dsimp only [RING_CFG.EN]; omega) (by dsimp only [RING_CFG.EN]; omega))).trans hen,
    (hkept (by dsimp only [RING_STAT.STATE]; omega) (by dsimp only [RING_STAT.STATE]; omega)).trans hstate⟩

theorem State.flr_frame {f : Nat} (hf : f < 16) (s : State) : (∀ d ∈ (s.flr f).host.descs, d.fn ≠ f) ∧ (s.flr f).bit (HID_EVT_CFG.EN f) = false ∧
    (s.flr f).rd (HID_FN_AP.BASE f) = 0 ∧ (s.flr f).mem = s.mem ∧ ∀ r ∈ s.fnRings f, RingIsOff r (s.flr f) := by
  obtain ⟨hmem, hfns, -⟩ := s.flr_keeps f
  refine ⟨fun d hd => ?_, s.flr_evtOff hf, ?_, hmem, fun r hr => State.flr_ringsOff hf hr⟩
  · have hfn : d.fn ∈ (s.flr f).descFns := List.mem_map_of_mem hd
    rw [hfns] at hfn
    exact of_decide_eq_true (List.mem_filter.mp hfn).2
  · rw [State.flr_eq]
    exact State.fnAccessOff_base _ f

theorem execFlr_enabled {s : State} {f : Nat} (hf : f < 16) (hen : s.bit (HID_FN_ID.EN f) = true) : execFlr f s = .next (s.flr f) := by
  rw [execFlr, if_pos (by simp [hf, hen])]

theorem execD3hotEntry_enabled {s : State} {f : Nat} (hf : f < 16) (hen : s.bit (HID_FN_ID.EN f) = true) :
    execD3hotEntry f s = .next ((s.flr f).updHost (fun h => { h with d3hot := Tab.set 0 h.d3hot f 1 })) := by
  rw [execD3hotEntry, if_pos (by simp [hf, hen])]

/-! ### Conventional resets of an endpoint -/

/-- The functions of an endpoint. -/
def epFns (ep : Nat) : List Nat := (List.range 8).map (· + 8 * ep)

theorem mem_epFns {ep g : Nat} (hg : g / 8 = ep) : g ∈ epFns ep := List.mem_map.mpr ⟨g % 8, List.mem_range.mpr (by omega), by omega⟩

/-- Every function of an endpoint as by an FLR. -/
def State.epFlr (s : State) (ep : Nat) : State := forL (epFns ep) (fun f s => s.flr f) s

theorem State.epFlr_inReset (s : State) (ep : Nat) : (s.epFlr ep).host.inReset = s.host.inReset :=
  forL_keeps (fun t : State => t.host.inReset) (fun f t => t.flr f) (fun f t => (t.flr_keeps f).2.2) (epFns ep) s

theorem State.epFlr_descFns {s : State} {ep g : Nat} (hg : g ∈ (s.epFlr ep).descFns) : g / 8 ≠ ep := by
  intro hep
  refine forL_establishes (P := fun _ : State => True) (Q := fun t : State => g ∉ t.descFns) (f := fun f t => t.flr f) (fun _ _ h => h) (fun f t ht => ?_)
    (fun t _ => ?_) (mem_epFns hep) trivial hg
  · rw [(t.flr_keeps f).2.1]
    exact fun hmem => ht (List.mem_of_mem_filter hmem)
  · rw [(t.flr_keeps g).2.1]
    exact fun hmem => of_decide_eq_true (List.mem_filter.mp hmem).2 rfl

/-- Behind the functions' resets, a conventional reset leaves the descriptors and the endpoints' resets. -/
theorem State.endpointClear_host (s : State) (ep : Nat) : (s.endpointClear ep).descFns = (s.epFlr ep).descFns ∧
    (s.endpointClear ep).host.inReset = (s.epFlr ep).host.inReset := by
  have hoff := forL_keeps State.host (fun f t => t.wr (HID_FN_ID.EN f) 0) (fun _ _ => rfl) (epFns ep) (s.epFlr ep)
  exact ⟨(congrArg (fun h => h.descs.map Desc.fn) hoff :), (congrArg HostSide.inReset hoff :)⟩

theorem State.endpointReset_host {ep cause : Nat} (hep : ep < 2) (hcause : cause < 256) (s : State) :
    (∀ d ∈ (s.endpointReset ep cause).host.descs, d.fn / 8 ≠ ep) ∧ (s.endpointReset ep cause).host.inReset = s.host.inReset := by
  obtain ⟨hfns, hreset⟩ := s.endpointClear_host ep
  obtain ⟨-, -, -, -, hdescs, hreset'⟩ := (s.endpointClear ep).noteReset_frame (scope := 3 + ep) (by omega) hcause false
  refine ⟨fun d hd => ?_, hreset'.trans (hreset.trans (s.epFlr_inReset ep))⟩
  have hmem : d ∈ (s.endpointClear ep).host.descs := hdescs ▸ hd
  have hfn : d.fn ∈ (s.endpointClear ep).descFns := List.mem_map_of_mem hmem
  exact State.epFlr_descFns (hfns ▸ hfn)

/-- An endpoint's answer after its reset is registers. -/
theorem State.endpointUp_regsOnly (s : State) (ep : Nat) : RegsOnly s (s.endpointUp ep) := by
  unfold State.endpointUp
  split
  · exact State.wr_regsOnly ..
  · exact RegsOnly.refl s

theorem State.defaultRings_regsOnly (s : State) (ep : Nat) : RegsOnly s (s.defaultRings ep) := ⟨_, rfl⟩

theorem State.endpointBack_regsOnly (s : State) (ep : Nat) : RegsOnly s (s.endpointBack ep) := by
  unfold State.endpointBack
  split
  · exact RegsOnly.refl s
  · split
    · exact (s.endpointUp_regsOnly ep).trans (State.defaultRings_regsOnly ..)
    · exact s.endpointUp_regsOnly ep

/-- The default rings' registers are ring records'. -/
theorem State.rd_defaultRings_ne {g : Field} (hg : g.key < 8 * 0x20000) (s : State) (ep : Nat) : (s.defaultRings ep).rd g = s.rd g := by
  unfold State.defaultRings
  dsimp only
  rw [State.rd_wr_ne _ _ (by dsimp only [RING_LINK.CTIME]; omega), State.rd_wr_ne _ _ (by dsimp only [RING_LINK.CTHR]; omega),
    State.rd_wr_ne _ _ (by dsimp only [RING_LINK.VEC]; omega), State.rd_wr_ne _ _ (by dsimp only [RING_CFG.LOG2SIZE]; omega),
    State.rd_wr_ne _ _ (by dsimp only [RING_CFG.KIND]; omega), State.rd_wr_ne _ _ (by dsimp only [RING_LINK.ARB]; omega),
    State.rd_wr_ne _ _ (by dsimp only [RING_LINK.CQ]; omega), State.rd_wr_ne _ _ (by dsimp only [RING_CFG.LOG2SIZE]; omega),
    State.rd_wr_ne _ _ (by dsimp only [RING_CFG.TRUMP]; omega), State.rd_wr_ne _ _ (by dsimp only [RING_CFG.KIND]; omega)]

/-- In a panel that is READY, the PF of an endpoint out of reset answers (R532). -/
theorem State.endpointBack_ready {s : State} {ep : Nat} (hep : ep < 2) (hstate : s.rd RST_BOOT_STAT.STATE = 1) (hup : Tab.get 0 s.host.inReset ep = 1) :
    (s.endpointBack ep).bit (HID_FN_ID.EN (8 * ep)) = true := by
  have hen : (s.endpointUp ep).bit (HID_FN_ID.EN (8 * ep)) = true := by
    rw [State.endpointUp, if_pos hup]
    exact State.bit_wr_same _ _ 1 rfl
  rw [State.endpointBack, if_neg (by rw [hstate]; decide), if_pos hstate]
  exact (State.bit_eq_of_rd (State.rd_defaultRings_ne (by dsimp only [HID_FN_ID.EN]; omega) _ ep)).trans hen

/-- PERSTn_N low: the endpoint is in reset, its link down. -/
def State.perstHeld (s : State) (ep : Nat) : State :=
  s.updHost (fun h => { h with inReset := Tab.set 0 h.inReset ep 0, linkDown := Tab.set 0 h.linkDown ep 1 })

/-- PERSTn_N released: the endpoint is out of reset, its link up. -/
def State.perstReleased (s : State) (ep : Nat) : State :=
  s.updHost (fun h => { h with inReset := Tab.set 0 h.inReset ep 1, linkDown := Tab.set 0 h.linkDown ep 0 })

/-- The endpoint's link is down. -/
def State.pcieDown (s : State) (ep : Nat) : State := s.updHost (fun h => { h with linkDown := Tab.set 0 h.linkDown ep 1 })

section Endpoint

variable {s : State} {ep : Nat} (hep : ep < 2)
include hep

theorem execPerst_eq (hup : Tab.get 0 s.host.inReset ep = 1) : execPerst ep s = .next ((s.endpointReset ep 0x04).perstHeld ep) := by
  rw [execPerst, if_neg (by simp [hup, hep])]
  rfl

theorem execPcieLinkDown_eq (hup : Tab.get 0 s.host.inReset ep = 1) :
    execPcieLinkDown ep s = .next (((s.endpointReset ep 0x05).pcieDown ep).endpointBack ep) := by
  rw [execPcieLinkDown, if_neg (by simp [hup, hep])]
  rfl

theorem execPerstDeassertion_eq (hheld : Tab.get 0 s.host.inReset ep = 0) : execPerstDeassertion ep s = .next ((s.perstReleased ep).endpointBack ep) := by
  rw [execPerstDeassertion, if_neg (by simp [hheld, hep])]
  rfl

theorem execPerst_frame (hup : Tab.get 0 s.host.inReset ep = 1) : ∃ t, execPerst ep s = .next t ∧ Tab.get 0 t.host.inReset ep = 0 ∧
    Tab.get 0 t.host.linkDown ep = 1 ∧ ∀ d ∈ t.host.descs, d.fn / 8 ≠ ep := by
  obtain ⟨hdescs, -⟩ := s.endpointReset_host hep (cause := 0x04) (by decide)
  exact ⟨_, execPerst_eq hep hup, Tab.get_set_same 0 _ ep 0, Tab.get_set_same 0 _ ep 1, hdescs⟩

theorem execPcieLinkDown_frame (hup : Tab.get 0 s.host.inReset ep = 1) : ∃ t, execPcieLinkDown ep s = .next t ∧ Tab.get 0 t.host.inReset ep = 1 ∧
    Tab.get 0 t.host.linkDown ep = 1 ∧ ∀ d ∈ t.host.descs, d.fn / 8 ≠ ep := by
  obtain ⟨hdescs, hreset⟩ := s.endpointReset_host hep (cause := 0x05) (by decide)
  refine ⟨_, execPcieLinkDown_eq hep hup, ?_⟩
  rw [(State.endpointBack_regsOnly _ ep).host]
  exact ⟨(congrArg (fun x => Tab.get 0 x ep) hreset).trans hup, Tab.get_set_same 0 _ ep 1, hdescs⟩

theorem execPerstDeassertion_frame (hheld : Tab.get 0 s.host.inReset ep = 0) : ∃ t, execPerstDeassertion ep s = .next t ∧
    Tab.get 0 t.host.inReset ep = 1 ∧ Tab.get 0 t.host.linkDown ep = 0 ∧ (s.rd RST_BOOT_STAT.STATE = 1 → t.bit (HID_FN_ID.EN (8 * ep)) = true) ∧
    t.mem = s.mem := by
  have hregs := (s.perstReleased ep).endpointBack_regsOnly ep
  have hup : Tab.get 0 (s.perstReleased ep).host.inReset ep = 1 := Tab.get_set_same 0 _ ep 1
  refine ⟨_, execPerstDeassertion_eq hep hheld, ?_, ?_, fun hstate => State.endpointBack_ready hep hstate hup, hregs.mem⟩
  · rw [hregs.host]
    exact hup
  · rw [hregs.host]
    exact Tab.get_set_same 0 _ ep 0

end Endpoint

/-- Settles O39: each clause is the frame of its command; a function-level reset is its four parts, and a conventional reset eight of them. -/
theorem functionsPartitionsAndWindows : Obligations.FunctionsPartitionsAndWindows := by
  unfold Obligations.FunctionsPartitionsAndWindows
  intro s u ep f p v hep hf hp
  refine ⟨fun en num => execVfEnable_frame hep en num s, fun hvf => ⟨execPartWrite_vf hvf p v s, execSegApply_vf hvf v s⟩, fun hpf hlock hkeep => ⟨?refused, ?changes⟩,
    fun hpf hdone herr hgo => execSegApply_go hpf hgo hdone herr s, ?applies,
    fun j hsave hbusy hmode hj hone hfirst => execSegApplyDone_refuses hsave hbusy hmode hj hone hfirst, ?bar0,
    fun off n hlive hoff => execBar2Read_live hlive hoff n, ?bar4, ?flr, ?down, fun hheld => execPerstDeassertion_frame hep hheld,
    fun rate width => execPcieLinkChange_eq hep rate width s⟩
  case refused => exact fun hbusy => execPartWrite_refused hpf hp hlock hkeep hbusy
  case changes => exact fun hidle hfree hchange => ⟨_, execPartWrite_changes hpf hp hlock hkeep hidle hfree hchange,
    s.partAnew_frame hp (bitsOf_mod ..) (bitsOf_mod ..) (bitsOf_mod ..)⟩
  case applies =>
    intro hsave hbusy hmode hidle
    obtain ⟨hfree, happlied⟩ := (forN 48 (fun i t => t.applySeg i) s).segsReported_reads
    exact ⟨_, execSegApplyDone_applies hsave hbusy hmode hidle, hfree, happlied, fun j hj => (segs_applied hj hmode).reported⟩
  case bar0 => exact fun off n x hup hoff => ⟨fun hn halign => ⟨execBar0Access_write hup hoff hn halign x, execBar0Access_read hup hoff hn halign⟩,
      fun h4 h8 => ⟨execBar0Access_oddSize hup hoff h4 h8 (some x), execBar0Access_oddSize hup hoff h4 h8 none⟩⟩
  case bar4 => exact fun off n data l hlive hin hn => ⟨fun hreach => ⟨execBar4Access_outside hlive hin hn hreach true false data,
        execBar4Access_outside hlive hin hn hreach false false data⟩,
      fun hreach hwait => ⟨execBar4Access_poisoned hlive hin hn hreach hwait data, execBar4Access_write hlive hin hn hreach hwait,
        fun hread => execBar4Access_read hlive hin hn hreach hwait hread data⟩⟩
  case flr => exact fun hen => ⟨_, execFlr_enabled hf hen, execD3hotEntry_enabled hf hen, s.flr_frame hf⟩
  case down => exact fun hup => ⟨execPerst_frame hep hup, execPcieLinkDown_frame hep hup⟩

end Sys2Proof.Machine

/-! PROOFS. What the traffic of a Jexlink port, its going DOWN and the light of its engine leave: the registers that they do not write, and the swaps of the laser
modules (R358, R362, R371, R392, R395, R398, R400). -/

namespace Sys2Proof.Machine

/-! ### Registers by place -/

/-- Does a field lie at the places `lo` to `hi` of an engine's block of set-up space (R17, R377)? -/
def inEngine (lo hi : Nat) (f : Field) : Prop :=
  (8 * 0x400000 ≤ f.key ∧ f.key < 8 * 0x580000) ∧ lo ≤ f.key / 8 % 0x10000 ∧ f.key / 8 % 0x10000 < hi

/-- A register that packets sent, forwarded, dropped or answered do not write: no counter of a port's bytes and no count of dropped packets (R417, R582). -/
def offTraffic (f : Field) : Prop := quiet f ∧ (f.key < 8 * 0x5E0014 ∨ 8 * 0x5E0018 ≤ f.key) ∧ ¬ inEngine 0x800 0xC00 f

/-- One that a port's link going down, a lane operation and a change of width do not write either: no state of a link, no WIDTH, and no lane's LOGICAL (R377, R416). -/
def offWidth (f : Field) : Prop :=
  offTraffic f ∧ ¬ inEngine 0x4000 0x40C0 f ∧ ¬ (inEngine 0x10 0x1C f ∧ f.key % 32 = 2) ∧ ¬ (inEngine 0x100 0x400 f ∧ f.key / 8 % 16 = 1)

/-- One that a port going DOWN does not write either: no status of a port (R377). -/
def offPorts (f : Field) : Prop := offWidth f ∧ ¬ inEngine 0x10 0x1C f

/-- One that a port's training does not write either: no register of a lane (R362). -/
def offLanes (f : Field) : Prop := offPorts f ∧ ¬ inEngine 0x100 0x400 f

/-- One that the light of engine `k` does not change: that engine's own DARK and CAUSE no more (R371). -/
def offLight (k : Nat) (f : Field) : Prop := offLanes f ∧ f.key ≠ (OE_STAT.DARK k).key ∧ f.key ≠ (OE_STAT.CAUSE k).key

/-- The modules' registers, and all that stand above the engines' blocks. -/
def ofModules (f : Field) : Prop := 8 * 0x5C0000 ≤ f.key ∧ (f.key < 8 * 0x5E0014 ∨ 8 * 0x5E0018 ≤ f.key)

theorem ofModules.offLight {f : Field} (h : ofModules f) {k : Nat} (hk : k < 24) : offLight k f := by
  simp only [ofModules] at h
  simp only [Machine.offLight, offLanes, offPorts, offWidth, offTraffic, quiet, inEngine, OE_STAT.DARK, OE_STAT.CAUSE]
  omega

theorem ofModules.offLanes {f : Field} (h : ofModules f) : offLanes f := (h.offLight (Nat.zero_lt_succ 23)).1

theorem ofModules.offPorts {f : Field} (h : ofModules f) : offPorts f := h.offLanes.1

theorem ofModules.offTraffic {f : Field} (h : ofModules f) : offTraffic f := h.offPorts.1.1

/-! ### Traffic (R392, R398, R400, R403) -/

/-- `t` has the optical side of `s`, and every register off the traffic. -/
def Sent (s t : State) : Prop := t.opt = s.opt ∧ ∀ f, offTraffic f → t.rd f = s.rd f

theorem Sent.refl (s : State) : Sent s s := ⟨rfl, fun _ _ => rfl⟩

theorem Sent.trans {s t u : State} (h : Sent s t) (k : Sent t u) : Sent s u := ⟨k.1.trans h.1, fun f hf => (k.2 f hf).trans (h.2 f hf)⟩

theorem Sent.ite {c : Prop} [Decidable c] {s t u : State} (ht : Sent s t) (hu : Sent s u) : Sent s (if c then t else u) := by
  split
  · exact ht
  · exact hu

/-- A change beside the registers and the optical side. -/
theorem Sent.of_eq {s t : State} (hopt : t.opt = s.opt) (hregs : t.regs = s.regs) : Sent s t := ⟨hopt, fun f _ => State.rd_congr hregs f⟩

theorem Announced.sent {s t : State} (h : Announced s t) : Sent s t := by
  obtain ⟨⟨_, _, _, _, _, _, rfl⟩, hrd⟩ := h
  exact ⟨rfl, fun f hf => hrd f hf.1⟩

theorem forL_sent {α : Type} {f : α → State → State} {l : List α} (hf : ∀ a ∈ l, ∀ t, Sent t (f a t)) (s : State) : Sent s (forL l f s) :=
  forL_preserves_mem (P := Sent s) (fun a ha t ht => ht.trans (hf a ha t)) (Sent.refl s)

theorem portK_lt {n : Nat} (hn : n < 72) : portK n < 24 := by unfold portK; omega
theorem portP_lt (n : Nat) : portP n < 3 := Nat.mod_lt _ (by decide)

theorem State.portPerf_sent {n : Nat} (hn : n < 72) (s : State) (bytes : Nat) : Sent s (s.portPerf n false bytes) := by
  obtain ⟨hframe, -, hrd⟩ := s.pcount_frame (engNode (portK n)) (OE_PERF_TX.COUNT (portK n) (portP n)) (OE_PERF_WRAP.PORT_WRAP (portK n)) (2 * portP n) bytes
  have hk := portK_lt hn
  have hp := portP_lt n
  have hopt := congrArg State.opt hframe
  refine ⟨hopt, fun f hf => hrd f ?_ ?_⟩
  · intro hkey
    simp only [offTraffic, inEngine, hkey, OE_PERF_TX.COUNT] at hf
    omega
  · intro hkey
    simp only [offTraffic, inEngine, hkey, OE_PERF_WRAP.PORT_WRAP] at hf
    omega

theorem State.sendFlit_sent (s : State) (n : Nat) (cells : List (List Byte)) : Sent s (s.sendFlit n cells) := Sent.of_eq rfl rfl

/-- A port sends what it may (R392): its bytes are counted, and its flits leave. -/
theorem State.pump_sent {n : Nat} (hn : n < 72) (s : State) : Sent s (s.pump n) := by
  unfold State.pump
  split
  · exact Sent.refl s
  · dsimp only
    refine Sent.trans ?_ (forL_sent (fun f _ t => t.sendFlit_sent n f) _)
    exact (Sent.of_eq (t := s.setPort n _) rfl rfl).trans (forL_sent (fun p _ t => t.portPerf_sent hn _) _)

theorem State.leastQueued_mem {s : State} {l : List (Nat × Bool)} {e : Nat × Bool} (h : s.leastQueued l = some e) : e ∈ l := by
  induction l generalizing e with
  | nil => cases h
  | cons a l ih =>
    unfold State.leastQueued at h
    split at h
    · cases h
      exact List.mem_cons_self
    · next f hf =>
      split at h <;> cases h
      · exact List.mem_cons_of_mem a (ih hf)
      · exact List.mem_cons_self

theorem State.routeOut_sent {s t : State} {p : JxPkt} (h : s.routeOut p = some t) : Sent s t := by
  unfold State.routeOut at h
  split at h
  · cases h
  · split at h
    · cases h
    · next e he =>
      have hport : e.1 < 72 := by
        have hentry := List.mem_of_mem_filter (State.leastQueued_mem he)
        exact of_decide_eq_true (List.mem_filter.mp hentry).2
      cases h
      exact (Sent.of_eq (t := s.updPort e.1 _) rfl rfl).trans (State.pump_sent hport _)

theorem State.noteJxDrop_sent (s : State) (p : JxPkt) : Sent s (s.noteJxDrop p) := by
  have hdrop {g : Field} (hg : 8 * 0x5E0014 ≤ g.key ∧ g.key < 8 * 0x5E0018) (n : Nat) : Sent s (s.sat g n) :=
    ⟨rfl, fun f hf => s.rd_wr_ne _ fun hkey => by simp only [offTraffic] at hf; omega⟩
  exact (hdrop (by decide) 1).ite (hdrop (by decide) 1)

theorem State.jxCount_sent (s : State) (xid pidx status : Nat) : Sent s (s.jxCount xid pidx status) := by
  unfold State.jxCount
  split
  · exact Sent.refl s
  · dsimp only
    split
    · split
      · exact Sent.of_eq rfl rfl
      · exact Sent.of_eq rfl rfl
    · exact Sent.of_eq rfl rfl

theorem State.jxAnswered_sent (s : State) (h : JxHdr) : Sent s (s.jxAnswered h) := by
  unfold State.jxAnswered
  refine (s.jxCount_sent ..).ite (Sent.ite ?_ (Sent.refl s))
  split
  · exact Sent.refl s
  · exact Sent.of_eq rfl rfl

theorem State.jxReply_sent (s : State) (h : JxHdr) (data : List Byte) : Sent s (s.jxReply h data) := by
  unfold State.jxReply
  refine (s.jxAnswered_sent h).ite ?_
  dsimp only
  split
  · next ht => exact State.routeOut_sent ht
  · exact s.noteJxDrop_sent _

theorem State.jxForward_sent (s : State) (p : JxPkt) : Sent s (s.jxForward p) := by
  unfold State.jxForward
  split
  · next ht => exact State.routeOut_sent ht
  · refine (s.noteJxDrop_sent p).trans ?_
    unfold State.jxFail
    split
    · exact State.jxReply_sent ..
    · exact Sent.refl _

theorem State.moveQueue_sent (s : State) (n : Nat) : Sent s (s.moveQueue n) :=
  (Sent.of_eq (t := s.updPort n _) rfl rfl).trans (forL_sent (fun p _ t => t.jxForward_sent p) _)

theorem State.finishHalf_sent (s : State) (n : Nat) (o : JxOpen) : Sent s (s.finishHalf n o) := (Sent.refl s).ite (s.jxForward_sent _)

theorem State.sendLink_sent {n : Nat} (hn : n < 72) (s : State) (ptype : Nat) (data : List Byte) : Sent s (s.sendLink n ptype data) :=
  (Sent.of_eq (t := s.updPort n _) rfl rfl).trans (State.pump_sent hn _)

theorem State.linkInfo_sent {n : Nat} (hn : n < 72) (s : State) : Sent s (s.linkInfo n) := (s.sendLink_sent hn ..).ite (Sent.refl s)

/-! ### Ports that go DOWN, narrow or swap (R358, R363, R364) -/

/-- `t` has the modules' swaps of `s`, and every register that `P` names. -/
def Leaves (P : Field → Prop) (s t : State) : Prop := t.opt.swap = s.opt.swap ∧ ∀ f, P f → t.rd f = s.rd f

theorem Leaves.refl (P : Field → Prop) (s : State) : Leaves P s s := ⟨rfl, fun _ _ => rfl⟩

theorem Leaves.trans {P : Field → Prop} {s t u : State} (h : Leaves P s t) (k : Leaves P t u) : Leaves P s u :=
  ⟨k.1.trans h.1, fun f hf => (k.2 f hf).trans (h.2 f hf)⟩

theorem Leaves.mono {P Q : Field → Prop} (hPQ : ∀ f, Q f → P f) {s t : State} (h : Leaves P s t) : Leaves Q s t := ⟨h.1, fun f hf => h.2 f (hPQ f hf)⟩

theorem Leaves.bit {P : Field → Prop} {s t : State} (h : Leaves P s t) {f : Field} (hf : P f) : t.bit f = s.bit f := State.bit_eq_of_rd (h.2 f hf)

theorem Leaves.ite {P : Field → Prop} {c : Prop} [Decidable c] {s t u : State} (ht : Leaves P s t) (hu : Leaves P s u) : Leaves P s (if c then t else u) := by
  split
  · exact ht
  · exact hu

theorem Sent.leaves {P : Field → Prop} (hP : ∀ f, P f → offTraffic f) {s t : State} (h : Sent s t) : Leaves P s t :=
  ⟨congrArg Optics.swap h.1, fun f hf => h.2 f (hP f hf)⟩

theorem Announced.leaves {P : Field → Prop} (hP : ∀ f, P f → offTraffic f) {s t : State} (h : Announced s t) : Leaves P s t := h.sent.leaves hP

theorem State.wr_leaves {P : Field → Prop} {g : Field} (hg : ∀ f, P f → f.key ≠ g.key) (s : State) (v : Nat) : Leaves P s (s.wr g v) :=
  ⟨rfl, fun f hf => s.rd_wr_ne v (hg f hf)⟩

/-- A change beside the registers and the swaps. -/
theorem Leaves.of_eq {P : Field → Prop} {s t : State} (hswap : t.opt.swap = s.opt.swap) (hregs : t.regs = s.regs) : Leaves P s t :=
  ⟨hswap, fun f _ => State.rd_congr hregs f⟩

theorem forL_leaves {P : Field → Prop} {α : Type} {f : α → State → State} {l : List α} (hf : ∀ a ∈ l, ∀ t, Leaves P t (f a t)) (s : State) :
    Leaves P s (forL l f s) :=
  forL_preserves_mem (P := Leaves P s) (fun a ha t ht => ht.trans (hf a ha t)) (Leaves.refl P s)

theorem forN_leaves {P : Field → Prop} {f : Nat → State → State} {n : Nat} (hf : ∀ i < n, ∀ t, Leaves P t (f i t)) (s : State) : Leaves P s (forN n f s) :=
  forL_leaves (fun i hi => hf i (List.mem_range.mp hi)) s

/-- The sets of registers are sets of keys, so that a write of a register outside a set leaves all of the set. -/
def ofKeys (P : Field → Prop) : Prop := ∀ f g : Field, f.key = g.key → P f → P g

theorem offWidth_ofKeys : ofKeys offWidth := fun f g hkey hf => by
  simp only [offWidth, offTraffic, quiet, inEngine, hkey] at hf ⊢
  exact hf

theorem offPorts_ofKeys : ofKeys offPorts := fun f g hkey hf => ⟨offWidth_ofKeys f g hkey hf.1, by
  have hport := hf.2
  simp only [inEngine, hkey] at hport ⊢
  exact hport⟩

/-- A field of no lane's register (R361, R362). -/
def offLane (f : Field) : Prop := ¬ inEngine 0x100 0x400 f

theorem offLane_ofKeys : ofKeys offLane := fun f g hkey hf => by
  simp only [offLane, inEngine, hkey] at hf ⊢
  exact hf

theorem State.wr_leavesOff {P : Field → Prop} (hP : ofKeys P) {g : Field} (hg : ¬ P g) (s : State) (v : Nat) : Leaves P s (s.wr g v) :=
  s.wr_leaves (fun f hf hkey => hg (hP f g hkey hf)) v

/-- A change of the optical side beside the swaps. -/
theorem State.updOpt_leaves {P : Field → Prop} {f : Optics → Optics} (hf : ∀ o, (f o).swap = o.swap) (s : State) : Leaves P s (s.updOpt f) :=
  Leaves.of_eq (hf s.opt) rfl

theorem State.noteOpt_leaves (P : Field → Prop) (s : State) (kind unit old new : Nat) : Leaves P s (s.noteOpt kind unit old new)  :=
  State.updOpt_leaves (fun _ => rfl) s

theorem State.laneBad_leaves {P : Field → Prop} (hP : ∀ f, P f → offTraffic f) (s : State) (m i : Nat) (spare : Bool) : Leaves P s (s.laneBad m i spare) :=
  (s.postPanel_announced ..).leaves hP

theorem State.setTxLanes_leaves (P : Field → Prop) (s : State) (n code : Nat) (good : List Nat) : Leaves P s (s.setTxLanes n code good) :=
  State.updOpt_leaves (fun _ => rfl) s

/-- A port without lane operations, in a state. -/
def State.portEnded (s : State) (n v : Nat) : State :=
  (s.updOpt (fun o => { o with rxOp := Tab.set none o.rxOp n none, txOp := Tab.set none o.txOp n none })).setPstate n v

/-- A port without a width, its lanes carrying nothing. -/
def State.portBare (s : State) (n : Nat) : State := forN 16 (fun i t => t.setLogical n i 0xFF) ((s.setTxLanes n 3 []).setWidth n 3)

theorem State.portDown_eq (s : State) (n v : Nat) : s.portDown n v =
    (forL (s.carriers n) (fun i t => t.laneBad n i false) ((s.portEnded n v).portBare n)).jxDown n := rfl

section Port

variable {n : Nat} (hn : n < 72)
include hn

/-- A port's width and the state of its link are not off its width's changes, nor is its status off the port. -/
theorem not_off_port : ¬ offWidth (OE_PORT_STAT.WIDTH (portK n) (portP n)) ∧ ¬ offWidth (JX_PORT_STAT.LSTATE (portK n) (portP n)) ∧
    ¬ offWidth (JX_PORT_STAT.SSTATE (portK n) (portP n)) ∧ ¬ offPorts (OE_PORT_STAT.STATE (portK n) (portP n)) ∧ ¬ offPorts (OE_PORT_STAT.BAD (portK n) (portP n)) := by
  have hk := portK_lt hn
  have hp := portP_lt n
  refine ⟨?_, ?_, ?_, ?_, ?_⟩
  · simp only [offWidth, inEngine, OE_PORT_STAT.WIDTH]; omega
  · simp only [offWidth, inEngine, JX_PORT_STAT.LSTATE]; omega
  · simp only [offWidth, inEngine, JX_PORT_STAT.SSTATE]; omega
  · simp only [offPorts, inEngine, OE_PORT_STAT.STATE]; omega
  · simp only [offPorts, inEngine, OE_PORT_STAT.BAD]; omega

theorem offWidth_state : offWidth (OE_PORT_STAT.STATE (portK n) (portP n)) := by
  have hk := portK_lt hn
  have hp := portP_lt n
  simp only [offWidth, offTraffic, quiet, inEngine, OE_PORT_STAT.STATE]
  omega

/-- The registers of a port's lanes are lanes' registers, and LOGICAL is one of the width. -/
theorem not_off_lane {i : Nat} (hi : i < 16) : ¬ offLane (OE_LANE_STAT.HSTATE (portK n) (laneL n i)) ∧ ¬ offLane (OE_LANE_STAT.CROSS (portK n) (laneL n i)) ∧
    ¬ offLane (OE_LANE_STAT.LOCK (portK n) (laneL n i)) ∧ ¬ offLane (OE_LANE_STAT.LOGICAL (portK n) (laneL n i)) ∧
    ¬ offWidth (OE_LANE_STAT.LOGICAL (portK n) (laneL n i)) := by
  have hk := portK_lt hn
  have hp := portP_lt n
  refine ⟨?_, ?_, ?_, ?_, ?_⟩
  · simp only [offLane, inEngine, laneL, OE_LANE_STAT.HSTATE]; omega
  · simp only [offLane, inEngine, laneL, OE_LANE_STAT.CROSS]; omega
  · simp only [offLane, inEngine, laneL, OE_LANE_STAT.LOCK]; omega
  · simp only [offLane, inEngine, laneL, OE_LANE_STAT.LOGICAL]; omega
  · simp only [offWidth, inEngine, laneL, OE_LANE_STAT.LOGICAL]; omega

theorem State.setLogical_leaves {i : Nat} (hi : i < 16) (s : State) (v : Nat) : Leaves offWidth s (s.setLogical n i v) :=
  s.wr_leavesOff offWidth_ofKeys (not_off_lane hn hi).2.2.2.2 v

theorem State.setWidth_leaves (s : State) (code : Nat) : Leaves offWidth s (s.setWidth n code) := by
  have hwr := s.wr_leavesOff offWidth_ofKeys (not_off_port hn).1 code
  refine hwr.ite (hwr.trans ?_)
  exact (State.noteOpt_leaves offWidth _ 2 n _ code).trans ((State.postPanel_announced ..).leaves fun _ hf => hf.1)

theorem State.showBad_leaves (s : State) : Leaves offPorts s (s.showBad n) := s.wr_leavesOff offPorts_ofKeys (not_off_port hn).2.2.2.2 _

theorem State.jxDown_leaves (s : State) : Leaves offWidth s (s.jxDown n) := by
  obtain ⟨-, hl, hs, -⟩ := not_off_port hn
  unfold State.jxDown
  split
  · exact Leaves.refl _ s
  · dsimp only
    have hstate := (s.wr_leavesOff offWidth_ofKeys hl 0).trans (State.wr_leavesOff offWidth_ofKeys hs _ 0)
    have hoff (f : Field) (hf : offWidth f) : offTraffic f := hf.1
    refine Leaves.trans (Leaves.trans ?_ ((State.moveQueue_sent _ n).leaves hoff)) ((State.postPanel_announced ..).leaves hoff)
    split
    · exact (hstate.trans (Leaves.of_eq rfl rfl)).trans ((State.finishHalf_sent ..).leaves hoff)
    · exact hstate.trans (Leaves.of_eq rfl rfl)

/-- A port that goes DOWN has the state it is given, and leaves all beside the ports and their links. -/
theorem State.portDown_reads (s : State) (v : Nat) : (s.portDown n v).pstate n = v % 2 ^ 2 ∧ Leaves offPorts s (s.portDown n v) := by
  have hoff (f : Field) (hf : offWidth f) : offTraffic f := hf.1
  have hbare (t : State) : Leaves offWidth t (t.portBare n) :=
    ((t.setTxLanes_leaves offWidth n 3 []).trans (State.setWidth_leaves hn _ 3)).trans (forN_leaves (fun i hi t => t.setLogical_leaves hn hi _) _)
  have hrest : Leaves offWidth (s.portEnded n v) (s.portDown n v) :=
    s.portDown_eq n v ▸ ((hbare _).trans (forL_leaves (fun i _ t => t.laneBad_leaves hoff n i false) _)).trans (State.jxDown_leaves hn _)
  have hended : Leaves offPorts s (s.portEnded n v) :=
    (State.updOpt_leaves (fun _ => rfl) s).trans (State.wr_leavesOff offPorts_ofKeys (not_off_port hn).2.2.2.1 _ v)
  exact ⟨(hrest.2 _ (offWidth_state hn)).trans (State.rd_wr_same ..), hended.trans (hrest.mono fun _ hf => hf.1)⟩

theorem State.portDown_leaves (s : State) (v : Nat) : Leaves offPorts s (s.portDown n v) := (s.portDown_reads hn v).2

theorem State.narrow_leaves (s : State) (bad least : Nat) : Leaves offPorts s (s.narrow n bad least) := by
  unfold State.narrow
  exact Leaves.ite (Leaves.of_eq rfl rfl) (s.portDown_leaves hn 0)

theorem State.mend_leaves (s : State) : Leaves offPorts s (s.mend n) := by
  unfold State.mend
  refine (Leaves.refl _ s).ite ?_
  split
  · exact (s.narrow_leaves hn ..).ite (Leaves.refl _ s)
  · split
    · exact Leaves.of_eq rfl rfl
    · exact s.narrow_leaves hn ..

end Port

/-! ### Lanes in training, and the light of an engine (R362, R371) -/

theorem engPorts_lt {k n : Nat} (hk : k < 24) (hn : n ∈ engPorts k) : n < 72 := by
  simp only [engPorts, List.mem_cons, List.not_mem_nil, or_false] at hn
  omega

theorem portK_of_engPorts {k n : Nat} (hn : n ∈ engPorts k) : portK n = k := by
  simp only [engPorts, List.mem_cons, List.not_mem_nil, or_false] at hn
  unfold portK
  omega

theorem elsPorts_lt {k n : Nat} (hk : k < 12) (hn : n ∈ elsPorts k) : n < 72 := by
  rcases List.mem_append.mp hn with h | h
  · exact engPorts_lt (by omega) h
  · exact engPorts_lt (by omega) h

/-- The windows of a port's lanes cleared (R362). -/
theorem State.clearCross_leaves (P : Field → Prop) (s : State) (n : Nat) : Leaves P s
    (s.updOpt (fun o => { o with cross := forN 16 (fun i t => Tab.set [] t (48 * portK n + laneL n i) []) o.cross })) :=
  State.updOpt_leaves (fun _ => by dsimp only) s

section Port

variable {n : Nat} (hn : n < 72)
include hn

theorem State.setHstate_leaves {i : Nat} (hi : i < 16) (s : State) (v : Nat) : Leaves offLane s (s.setHstate n i v) := by
  have hwr := s.wr_leavesOff offLane_ofKeys (not_off_lane hn hi).1 v
  exact hwr.ite (hwr.trans (State.noteOpt_leaves ..))

/-- The state, LOGICAL, and one more register of a lane. -/
theorem State.laneSet_leaves {i : Nat} (hi : i < 16) (s : State) (h l : Nat) : Leaves offLane s ((s.setHstate n i h).setLogical n i l) :=
  (s.setHstate_leaves hn hi h).trans (State.wr_leavesOff offLane_ofKeys (not_off_lane hn hi).2.2.2.1 _ l)

theorem State.failLane_leaves {i : Nat} (hi : i < 16) (s : State) : Leaves offLanes s (s.failLane n i) := by
  have hbad : Leaves offLanes s ((s.setHstate n i 3).showBad n) :=
    ((s.setHstate_leaves hn hi 3).mono fun _ hf => hf.2).trans ((State.showBad_leaves hn _).mono fun _ hf => hf.1)
  unfold State.failLane
  exact hbad.ite (hbad.trans (State.laneBad_leaves (fun _ hf => hf.1.1.1) ..))

/-- A port in training is TRAINING, and leaves all beside the ports, their links and lanes. -/
theorem State.trainPort_reads (s : State) : (s.trainPort n).pstate n = 1 ∧ Leaves offLanes s (s.trainPort n) := by
  obtain ⟨hstate, hdown⟩ := s.portDown_reads hn 1
  have hlanes (t : State) : Leaves offLane t
      (forN 16 (fun i t => ((t.setHstate n i 0).setLogical n i 0xFF).wr (OE_LANE_STAT.CROSS (portK n) (laneL n i)) 0) t) :=
    forN_leaves (fun i hi t => (t.laneSet_leaves hn hi 0 0xFF).trans (State.wr_leavesOff offLane_ofKeys (not_off_lane hn hi).2.1 _ 0)) t
  have hrest := (hlanes (s.portDown n 1)).trans (State.clearCross_leaves offLane _ n)
  have hk := portK_lt hn
  have hp := portP_lt n
  constructor
  · refine (State.rd_wr_ne _ _ (by dsimp only [OE_PORT_STAT.STATE, OE_PORT_STAT.BAD]; omega)).trans ((hrest.2 _ ?_).trans hstate)
    simp only [offLane, inEngine, OE_PORT_STAT.STATE]
    omega
  · exact ((hdown.mono fun _ hf => hf.1).trans (hrest.mono fun _ hf => hf.2)).trans ((State.showBad_leaves hn _).mono fun _ hf => hf.1)

theorem State.trainPort_leaves (s : State) : Leaves offLanes s (s.trainPort n) := (s.trainPort_reads hn).2

end Port

/-- A port of an engine that has gone dark: DOWN, its lanes DARK. -/
def darkPort (k n : Nat) (s : State) : State :=
  (forN 16 (fun i s => ((s.setHstate n i 4).setLogical n i 0xFF).wr (OE_LANE_STAT.LOCK k (laneL n i)) 0) (s.portDown n (if s.pstate n = 3 then 3 else 0))).showBad n

/-- An engine without light: DARK for a cause, its transport key gone. -/
def State.lightGone (s : State) (k cause : Nat) : State :=
  let t := (s.wr (OE_STAT.DARK k) 1).wr (OE_STAT.CAUSE k) cause
  { t with key := { t.key with engKey := Tab.set 0 t.key.engKey k 0 } }

theorem State.darken_eq (s : State) (k cause : Nat) : s.darken k cause =
    forL (engPorts k) (darkPort k) (s.lightGone k (if !s.bit (OE_STAT.INSERVICE k) && decide (s.rd (OE_STAT.CAUSE k) = 4) then 4 else cause)) := rfl

section Engine

variable {k : Nat} (hk : k < 24)
include hk

theorem darkPort_leaves {n : Nat} (hn : n ∈ engPorts k) (s : State) : Leaves offLanes s (darkPort k n s) := by
  have hn72 := engPorts_lt hk hn
  have hlock (i : Nat) (hi : i < 16) : ¬ offLane (OE_LANE_STAT.LOCK k (laneL n i)) := portK_of_engPorts hn ▸ (not_off_lane hn72 hi).2.2.1
  exact (((s.portDown_leaves hn72 _).mono fun _ hf => hf.1).trans ((forN_leaves (fun i hi t => (t.laneSet_leaves hn72 hi 4 0xFF).trans
    (State.wr_leavesOff offLane_ofKeys (hlock i hi) _ 0)) _).mono fun _ hf => hf.2)).trans ((State.showBad_leaves hn72 _).mono fun _ hf => hf.1)

theorem darkPorts_leaves (s : State) : Leaves offLanes s (forL (engPorts k) (darkPort k) s) := forL_leaves (fun _ hn t => darkPort_leaves hk hn t) s

/-- An engine that goes dark changes the state of its ports and lanes, and its own light. -/
theorem State.darken_leaves (s : State) (cause : Nat) : Leaves (offLight k) s (s.darken k cause) := by
  rw [s.darken_eq]
  refine Leaves.trans ?_ ((darkPorts_leaves hk _).mono fun _ hf => hf.1)
  exact (s.wr_leaves (fun _ hf => hf.2.1) 1).trans ((State.wr_leaves (fun _ hf => hf.2.2) ..).trans (Leaves.of_eq rfl rfl))

theorem offLanes_dark : offLanes (OE_STAT.DARK k) := by
  simp only [offLanes, offPorts, offWidth, offTraffic, quiet, inEngine, OE_STAT.DARK]
  omega

theorem State.darken_dark (s : State) (cause : Nat) : (s.darken k cause).bit (OE_STAT.DARK k) = true := by
  rw [s.darken_eq, (darkPorts_leaves hk _).bit (offLanes_dark hk)]
  exact ((s.wr (OE_STAT.DARK k) 1).bit_wr_ne _ (by dsimp only [OE_STAT.DARK, OE_STAT.CAUSE]; omega)).trans (s.bit_wr_same _ 1 rfl)

theorem State.lighten_leaves (s : State) : Leaves (offLight k) s (s.lighten k) := by
  unfold State.lighten
  dsimp only
  refine Leaves.trans ?_ (forL_leaves (fun n hn t => Leaves.ite ((t.trainPort_leaves (engPorts_lt hk hn)).mono fun _ hf => hf.1) (Leaves.refl _ t)) _)
  refine Leaves.trans ?_ (State.wr_leaves (fun _ hf => hf.2.2) _ 0)
  exact (Leaves.of_eq (t := { s.draw.2 with key := _ }) rfl rfl).trans (State.wr_leaves (fun _ hf => hf.2.1) _ 0)

end Engine

/-- Both engines of a module go dark: DARK, and the modules' registers as they were (R371). -/
theorem State.darkBoth {k : Nat} (hk : k < 12) (s : State) (cause : Nat) : let t := (s.darken (2 * k) cause).darken (2 * k + 1) cause
    (t.bit (OE_STAT.DARK (2 * k)) = true ∧ t.bit (OE_STAT.DARK (2 * k + 1)) = true) ∧ Leaves ofModules s t := by
  have h0 : 2 * k < 24 := by omega
  have h1 : 2 * k + 1 < 24 := by omega
  have hkeep : offLight (2 * k + 1) (OE_STAT.DARK (2 * k)) := ⟨offLanes_dark h0, by dsimp only [OE_STAT.DARK]; omega, by dsimp only [OE_STAT.DARK, OE_STAT.CAUSE]; omega⟩
  refine ⟨⟨?_, State.darken_dark h1 ..⟩, ?_⟩
  · exact ((State.darken_leaves h1 _ cause).bit hkeep).trans (State.darken_dark h0 s cause)
  · exact ((s.darken_leaves h0 cause).mono fun _ hf => hf.offLight h0).trans ((State.darken_leaves h1 _ cause).mono fun _ hf => hf.offLight h1)

end Sys2Proof.Machine

/-! PROOFS. Jexlink flits (R360, R364, R384, R389 to R395). -/

namespace Sys2Proof.Machine

/-! ### Flits that arrive (R384, R394) -/

section Flit

variable {n : Nat} (hn : n < 72) {s : State} (hup : s.pstate n = 2) (hlink : 2 ≤ s.lstate n) (hgood : (s.port n).bad = false)
include hn hup hgood

/-- A flit that is no marker is judged by its cells: none where a codeword or the number of cells is wrong. -/
theorem execFlitReceive_scanned {good : Bool} {cells : List (List Byte)} (hmark : good = true → markerOf cells = none) : execFlitReceive n good cells s =
    match (if good && decide (cells.length = 4) then scanCells (s.port n).open_ cells else none) with
    | none => .next (if s.lstate n < 2 then s else (s.setPort n { s.port n with bad := true, nak := true }).reportLctl n)
    | some (items, o, numbered) =>
      if numbered && decide (s.lstate n < 2) then .next s
      else .next ((forL items (flitItem n) (if numbered then
        s.setPort n { s.port n with rxNext := ((s.port n).rxNext + 1) % 4096, open_ := o, unreported := (s.port n).unreported + 1 } else s)).reportDue n) := by
  have hnone : (if good then markerOf cells else none) = none := by
    cases good with
    | false => rfl
    | true => exact hmark rfl
  unfold execFlitReceive
  dsimp only
  rw [if_neg (by omega), hnone, hgood]
  rfl

/-- A flit of IDLE cells is not numbered and holds nothing. -/
theorem execFlitReceive_idle (hopen : (s.port n).open_ = none) : execFlitReceive n true (List.replicate 4 idleCell) s = .next (s.reportDue n) := by
  have hscan : scanCells none (List.replicate 4 idleCell) = some ([], none, false) := by decide
  rw [execFlitReceive_scanned hn hup hgood fun _ => (by decide : markerOf (List.replicate 4 idleCell) = none), hopen]
  dsimp only
  rw [show (if (true && decide ((List.replicate 4 idleCell).length = 4)) = true then scanCells none (List.replicate 4 idleCell) else none) = some ([], none, false)
    from hscan]
  rfl

include hlink

theorem execFlitReceive_failed (cells : List (List Byte)) :
    execFlitReceive n false cells s = .next ((s.setPort n { s.port n with bad := true, nak := true }).reportLctl n) := by
  rw [execFlitReceive_scanned hn hup hgood fun h => absurd h Bool.false_ne_true]
  exact congrArg Host.Outcome.next (if_neg (by omega))

/-- A good flit that ends one packet counts, and the packet is taken. -/
theorem execFlitReceive_packet {cells : List (List Byte)} {h : JxHdr} {l : List Byte} {o : Option JxOpen} (hmark : markerOf cells = none)
    (hlen : cells.length = 4) (hscan : scanCells (s.port n).open_ cells = some ([.packet h l], o, true)) : execFlitReceive n true cells s =
    .next (((s.setPort n { s.port n with rxNext := ((s.port n).rxNext + 1) % 4096, open_ := o, unreported := (s.port n).unreported + 1 }).packet n h l).reportDue n) := by
  have hlstate : decide (s.lstate n < 2) = false := decide_eq_false (by omega)
  rw [execFlitReceive_scanned hn hup hgood fun _ => hmark, hlen, hscan]
  dsimp only
  rw [hlstate]
  rfl

end Flit

/-! ### Acknowledgements and replay (R389, R391, R393, R395) -/

theorem JxPort.next_empty {x : JxPort} (hq : x.queue = []) (ok : JxPkt → Bool) : x.next ok = none := by
  have hready (vc : Nat) : x.ready ok vc = none := by rw [JxPort.ready, hq]; rfl
  simp only [JxPort.next, hready, List.any_cons, List.any_nil, Option.isSome_none, Bool.or_self, Bool.false_eq_true, if_false]

/-- A port with an empty queue sends nothing. -/
theorem State.pump_empty {s : State} {n : Nat} (hlink : 2 ≤ s.lstate n) (hq : (s.port n).queue = []) : s.pump n = s.setPort n (s.port n) := by
  have htake (ok : JxPkt → Bool) (room : Nat) : (s.port n).take ok room 1 = (s.port n, [], []) := by rw [JxPort.take, JxPort.next_empty hq]
  unfold State.pump
  rw [if_neg (by omega)]
  dsimp only
  rw [hq, List.length_nil, htake]
  rfl

/-- The far receiver's running totals, as a cell reports them (R391). -/
def farTotals (c : Lctl) (t : Tab Nat) : Tab Nat := forN 8 (fun v t => Tab.set 0 t v (c.creds.getD v 0)) t

/-- A cell without a lane operation that acknowledges flits. -/
theorem State.gotAck12_acked {s : State} {n : Nat} {c : Lctl} {l : List (Nat × List (List Byte))} (hlop : c.lop = 0)
    (hack : ackedAfter c.aseq (s.port n).unacked = some l) : s.gotAck12 n c =
    ((s.setPort n { s.port n with seen := farTotals c (s.port n).seen, unacked := l, stuck := 0 }).wr (JX_PORT_STAT.ASEQ (portK n) (portP n)) c.aseq).pump n := by
  unfold State.gotAck12 State.updPort
  dsimp only
  rw [hack, hlop]
  rfl

theorem execLctlAckCredit_up {n : Nat} (hn : n < 72) {s : State} (hlink : 2 ≤ s.lstate n) (c : Lctl) : execLctlAckCredit n c s = .next (s.gotAck12 n c) :=
  congrArg Host.Outcome.next (if_pos ⟨hn, hlink⟩)

/-- What was acknowledged leaves the retry buffer (R393). -/
theorem State.gotAck12_frame {s : State} {n : Nat} {c : Lctl} {l : List (Nat × List (List Byte))} (hlink : 2 ≤ s.lstate n) (hlop : c.lop = 0)
    (hack : ackedAfter c.aseq (s.port n).unacked = some l) (hq : (s.port n).queue = []) : let t := s.gotAck12 n c
    (t.port n).unacked = l ∧ (t.port n).stuck = 0 ∧ t.rd (JX_PORT_STAT.ASEQ (portK n) (portP n)) = c.aseq % 2 ^ 12 ∧ t.mem = s.mem := by
  rw [State.gotAck12_acked hlop hack]
  generalize hx : ({ s.port n with seen := farTotals c (s.port n).seen, unacked := l, stuck := 0 } : JxPort) = x
  have hport : ((s.setPort n x).wr (JX_PORT_STAT.ASEQ (portK n) (portP n)) c.aseq).port n = x := State.port_setPort_same s n x
  have hup : ((s.setPort n x).wr (JX_PORT_STAT.ASEQ (portK n) (portP n)) c.aseq).lstate n = s.lstate n :=
    State.rd_wr_ne _ _ (by dsimp only [JX_PORT_STAT.LSTATE, JX_PORT_STAT.ASEQ]; omega)
  have hqueue : x.queue = [] := hx ▸ hq
  rw [State.pump_empty (by omega) (by rw [hport, hqueue]), hport]
  dsimp only
  rw [State.port_setPort_same]
  refine ⟨by rw [← hx], by rw [← hx], State.rd_wr_same .., rfl⟩

theorem State.spoilTime_frame (s : State) (n : Nat) : let t := s.spoilTime n
    t.regs = s.regs ∧ t.mem = s.mem ∧ t.opt = s.opt ∧ t.out = s.out ∧ t.jx.ports = s.jx.ports := by
  unfold State.spoilTime
  split
  · split
    · exact ⟨rfl, rfl, rfl, rfl, rfl⟩
    · exact ⟨rfl, rfl, rfl, rfl, rfl⟩
  · exact ⟨rfl, rfl, rfl, rfl, rfl⟩

theorem forL_emit {α : Type} (g : α → Out) (l : List α) (s : State) : forL l (fun a t => t.emit (g a)) s = { s with out := (l.map g).reverse ++ s.out } := by
  induction l generalizing s with
  | nil => rfl
  | cons a l ih =>
    refine (ih (s.emit (g a))).trans ?_
    rw [List.map_cons, List.reverse_cons, List.append_assoc]
    rfl

/-- A replay counts, and once more without progress (R393, R395). -/
def State.replayCounted (s : State) (n : Nat) : State :=
  ((s.spoilTime n).sat (JX_PORT_RPL.COUNT (portK n) (portP n)) 1).setPort n { s.port n with stuck := (s.port n).stuck + 1 }

theorem State.replayCounted_frame (s : State) (n : Nat) : let t := s.replayCounted n
    t.port n = { s.port n with stuck := (s.port n).stuck + 1 } ∧ t.out = s.out ∧ t.mem = s.mem := by
  obtain ⟨-, hmem, -, hout, -⟩ := s.spoilTime_frame n
  exact ⟨State.port_setPort_same .., hout, hmem⟩

theorem State.replayCounted_count {s : State} {n : Nat} (h : s.rd (JX_PORT_RPL.COUNT (portK n) (portP n)) < 2 ^ 32 - 1) :
    (s.replayCounted n).rd (JX_PORT_RPL.COUNT (portK n) (portP n)) = s.rd (JX_PORT_RPL.COUNT (portK n) (portP n)) + 1 := by
  refine (State.rd_sat_same (s.spoilTime n) (JX_PORT_RPL.COUNT (portK n) (portP n)) 1).trans ?_
  rw [State.rd_congr (s.spoilTime_frame n).1]
  exact if_pos (show s.rd (JX_PORT_RPL.COUNT (portK n) (portP n)) + 1 ≤ 2 ^ 32 - 1 by omega)

/-- The marker of a replay from flit `q` (R393). -/
def State.marker (s : State) (n q : Nat) : Lctl := { (s.replayCounted n).lctlNow n with replay := true, rseq := q }

section Replay

variable {n : Nat} {s : State} {f : Nat × List (List Byte)} {r : List (Nat × List (List Byte))} (hout : (s.port n).unacked = f :: r)
include hout

theorem State.replay_cases : s.replay n = if 8 ≤ (s.port n).stuck then
    ((s.spoilTime n).trainPort n).postPanel 0x0401 31 1 (leBytes 1 n ++ leBytes 1 0 ++ leBytes 2 f.1)
    else forL (s.port n).unacked (fun e t => t.emit (.flit n (some e.1) e.2)) ((s.replayCounted n).sendLctl n (s.marker n f.1)) := by
  unfold State.replay
  dsimp only
  split
  · next hnone => cases hout.symm.trans hnone
  · next g t hsome =>
    obtain ⟨rfl, rfl⟩ := List.cons.inj (hout.symm.trans hsome)
    rfl

/-- A replay counts, and sends a marker and every flit that is not acknowledged, unchanged (R393). -/
theorem State.replay_again (hstuck : (s.port n).stuck < 8) (hcount : s.rd (JX_PORT_RPL.COUNT (portK n) (portP n)) < 2 ^ 32 - 1) : ∃ m, let t := s.replay n
    (t.port n).stuck = (s.port n).stuck + 1 ∧ (t.port n).unacked = (s.port n).unacked ∧
      t.rd (JX_PORT_RPL.COUNT (portK n) (portP n)) = s.rd (JX_PORT_RPL.COUNT (portK n) (portP n)) + 1 ∧
      t.out = ((s.port n).unacked.map (fun e => Out.flit n (some e.1) e.2)).reverse ++ .flit n none m :: s.out ∧ t.mem = s.mem := by
  obtain ⟨hport, hsent, hmem⟩ := s.replayCounted_frame n
  rw [State.replay_cases hout, if_neg (by omega), forL_emit]
  exact ⟨[lctlCell (s.marker n f.1), idleCell, idleCell, idleCell], (congrArg JxPort.stuck hport :), (congrArg JxPort.unacked hport :), State.replayCounted_count hcount,
    congrArg (fun l => _ ++ _ :: l) hsent, hmem⟩

/-- After eight replays without progress the port trains again (R395). -/
theorem State.replay_retrains (hn : n < 72) (hstuck : 8 ≤ (s.port n).stuck) : (s.replay n).pstate n = 1 := by
  rw [State.replay_cases hout, if_pos hstuck]
  exact ((State.postPanel_announced ..).rd (offWidth_state hn).1.1).trans ((State.trainPort_reads hn _).1)

theorem execReplayTimeout_up (hn : n < 72) (hlink : 2 ≤ s.lstate n) : execReplayTimeout n s = .next (s.replay n) :=
  congrArg Host.Outcome.next (if_pos ⟨hn, hlink, by rw [hout]; exact List.cons_ne_nil f r⟩)

end Replay

/-! ### Ports that start (R395, R407, R619) -/

theorem offTraffic_link {n : Nat} (hn : n < 72) : offTraffic (JX_PORT_STAT.LSTATE (portK n) (portP n)) := by
  have hk := portK_lt hn
  have hp := portP_lt n
  simp only [offTraffic, quiet, inEngine, JX_PORT_STAT.LSTATE]
  omega

section Start

variable {n : Nat} (hn : n < 72)
include hn

theorem Sent.lstate {s t : State} (h : Sent s t) : t.lstate n = s.lstate n := h.2 _ (offTraffic_link hn)

/-- An agreement leaves the state of the link, whether it starts or fails (R619, R620). -/
theorem State.startAgree_lstate (s : State) : (s.startAgree n).lstate n = s.lstate n := by
  have hseal (t : State) (v : Nat) : (t.setSstate n v).lstate n = t.lstate n :=
    t.rd_wr_ne v (by dsimp only [JX_PORT_STAT.LSTATE, JX_PORT_STAT.SSTATE]; omega)
  have hservice : (s.service false).lstate n = s.lstate n := s.rd_wr_ne _ (by dsimp only [JX_PORT_STAT.LSTATE, KEY_STAT.APPROVED]; omega)
  unfold State.startAgree
  split
  · rfl
  · dsimp only
    split
    · exact (Sent.lstate hn (State.postPanel_announced ..).sent).trans ((hseal _ 3).trans hservice)
    · refine (Sent.lstate hn (State.sendLink_sent hn ..)).trans ?_
      split
      · exact hservice
      · exact (hseal _ 1).trans hservice

theorem State.sendAdv_sent (s : State) (l : List (Nat × Bool × Nat)) : Sent s (s.sendAdv n l) :=
  forL_sent (fun _ _ t => t.sendLink_sent hn ..) s

/-- The far end's INIT brings the port UP for Jexlink (R395). -/
theorem State.gotInit_up {s : State} (hinit : s.lstate n = 1) : (s.gotInit n).lstate n = 2 := by
  unfold State.gotInit
  rw [if_neg (show ¬(s.pstate n = 2 ∧ s.lstate n = 0) by omega)]
  dsimp only
  rw [if_neg (show ¬s.lstate n ≠ 1 by omega)]
  have hup : (((s.wr (JX_PORT_STAT.LSTATE (portK n) (portP n)) 2).linkEvent n).startAgree n).lstate n = 2 :=
    (State.startAgree_lstate hn _).trans ((Sent.lstate hn (State.postPanel_announced ..).sent).trans (State.rd_wr_same ..))
  split
  · exact (Sent.lstate hn ((State.sendAdv_sent hn _ _).trans (State.pump_sent hn _))).trans hup
  · exact (Sent.lstate hn (State.pump_sent hn _)).trans hup

end Start

/-- A port that is initialised keeps its queue and nothing of its link (R395). -/
theorem State.jxInit_frame (s : State) (n : Nat) : let t := s.jxInit n
    t.lstate n = 1 ∧ (t.port n).unacked = [] ∧ (t.port n).queue = (s.port n).queue ∧ t.rd (JX_PORT_STAT.ASEQ (portK n) (portP n)) = 0 ∧ t.mem = s.mem := by
  have hreport (t : State) : (t.reportLctl n).port n = { t.port n with nak := false, unreported := 0 } := State.port_setPort_same ..
  have hport : (s.jxInit n).port n = { JxPort.reset with queue := (s.port n).queue, held := (s.port n).held, turn := (s.port n).turn, debt := (s.port n).debt } :=
    (hreport _).trans (congrArg (fun x : JxPort => { x with nak := false, unreported := 0 }) (State.port_setPort_same s n _))
  refine ⟨?_, (congrArg JxPort.unacked hport :), (congrArg JxPort.queue hport :), State.rd_wr_same .., rfl⟩
  exact (State.rd_wr_ne _ _ (by dsimp only [JX_PORT_STAT.LSTATE, JX_PORT_STAT.ASEQ]; omega)).trans (State.rd_wr_same ..)

/-! ### Lane operations of the far end (R364, R389) -/

/-- A request of the far receiver is confirmed at once, to take effect at the flit that goes next (R364). -/
theorem State.farAsks_confirmed {s : State} {n : Nat} (hlink : 1 ≤ s.lstate n) (hrx : Tab.get none s.opt.rxOp n = none) (htx : Tab.get none s.opt.txOp n = none)
    (c : Lctl) (narrow : Bool) : let t := s.farAsks n c narrow
    Tab.get none t.opt.txOp n = some ⟨narrow, c.llane, c.slane, c.neww, some (s.port n).txNext⟩ ∧ t.regs = s.regs := by
  unfold State.farAsks
  rw [if_neg (by omega), hrx, htx]
  dsimp only
  rw [if_neg Bool.false_ne_true]
  exact ⟨Tab.get_set_same none s.opt.txOp n (some ⟨narrow, c.llane, c.slane, c.neww, some (s.port n).txNext⟩), rfl⟩

section Confirm

variable {s : State} {n : Nat} {o : LaneOp} (hop : Tab.get none s.opt.rxOp n = some o) (hopen : o.fseq = none)
include hop hopen

/-- A confirmation of the operation asked for names its flit (R364). -/
theorem State.farConfirms_taken {c : Lctl} {narrow : Bool} (hkind : o.narrow = narrow) (hlanes : narrow = true ∨ o.llane = c.llane ∧ o.slane = c.slane) :
    let t := s.farConfirms n c narrow
    Tab.get none t.opt.rxOp n = some { o with fseq := some c.fseq } ∧ t.regs = s.regs ∧ t.out = s.out := by
  unfold State.farConfirms
  rw [hop]
  dsimp only
  rw [if_pos ⟨hkind, by rw [hopen]; rfl, hlanes⟩]
  exact ⟨Tab.get_set_same none s.opt.rxOp n (some { o with fseq := some c.fseq }), rfl, rfl⟩

/-- A swap that is given up narrows the port, its spare not counting (R364). -/
theorem State.giveUpSwap_narrows (hswap : o.narrow = false) : s.giveUpSwap n =
    ({ s with opt := { s.opt with rxOp := Tab.set none s.opt.rxOp n none } }).narrow n o.llane (s.width n + 1) := by
  unfold State.giveUpSwap
  rw [hop]
  dsimp only
  rw [hswap, hopen]
  rfl

theorem State.farRejects_narrows (hswap : o.narrow = false) {c : Lctl} (hlane : o.llane = c.llane) : s.farRejects n c =
    ({ s with opt := { s.opt with rxOp := Tab.set none s.opt.rxOp n none } }).narrow n o.llane (s.width n + 1) := by
  unfold State.farRejects
  rw [hop]
  dsimp only
  exact (if_pos (by rw [hswap, decide_eq_true hlane]; rfl)).trans (State.giveUpSwap_narrows hop hopen hswap)

end Confirm

/-- Settles O42: each clause is the lemma about its command. -/
theorem flitsAreAcknowledgedAndReplayed : Obligations.FlitsAreAcknowledgedAndReplayed := by
  unfold Obligations.FlitsAreAcknowledgedAndReplayed
  intro s n c hn
  refine ⟨fun cells hup hlink hgood => execFlitReceive_failed hn hup hlink hgood cells, fun hup _ hgood hopen => execFlitReceive_idle hn hup hgood hopen,
    fun cells h l o hup hlink hgood hmark hlen hscan => execFlitReceive_packet hn hup hlink hgood hmark hlen hscan, fun hlink => execLctlAckCredit_up hn hlink c,
    fun l hlink hlop hack hq => ⟨_, execLctlAckCredit_up hn hlink c, State.gotAck12_frame hlink hlop hack hq⟩,
    fun hlink => congrArg Host.Outcome.next (if_pos ⟨hn, hlink⟩), fun hlink => congrArg Host.Outcome.next (if_pos ⟨hn, hlink⟩),
    fun hinit => ⟨_, congrArg Host.Outcome.next (if_pos hn), State.gotInit_up hn hinit⟩,
    fun hup hdown => ⟨_, congrArg Host.Outcome.next (if_pos ⟨hn, hup, hdown⟩), s.jxInit_frame n⟩,
    fun hlink hrx htx => ⟨⟨_, rfl, State.farAsks_confirmed hlink hrx htx c false⟩, ⟨_, rfl, State.farAsks_confirmed hlink hrx htx c true⟩⟩,
    fun o hop hopen => ⟨fun hswap hl hsl => ⟨_, rfl, State.farConfirms_taken hop hopen hswap (.inr ⟨hl, hsl⟩)⟩,
      fun hnarrow => ⟨_, rfl, State.farConfirms_taken hop hopen hnarrow (.inl rfl)⟩,
      fun hswap hlane => congrArg Host.Outcome.next (State.farRejects_narrows hop hopen hswap hlane)⟩, ?replays,
    fun hnone => congrArg Host.Outcome.next (if_neg fun h => h.2.2 hnone),
    fun f r hlink hout hstuck => ⟨_, execReplayTimeout_up hout hn hlink, State.replay_retrains hout hn hstuck⟩,
    fun hlink => congrArg Host.Outcome.next (if_pos ⟨hn, hlink⟩)⟩
  case replays =>
    intro f r hlink hout hstuck hcount
    obtain ⟨m, hframe⟩ := State.replay_again hout hstuck hcount
    exact ⟨_, m, execReplayTimeout_up hout hn hlink, hframe⟩

end Sys2Proof.Machine

/-! PROOFS. The optical ports: lanes counted and judged, swapped and tested again; ports that train; fibres, feeds and the day's statistics (R358, R360 to R368, R375,
R381, R400, R418, R679). -/

namespace Sys2Proof.Machine

/-- What step `i` makes of what the steps before it keep, as the steps after it keep it. -/
theorem forN_at {σ : Type} {P Q : σ → Prop} {f : Nat → σ → σ} {i n : Nat} (hi : i < n) (hP : ∀ j < n, j ≠ i → ∀ s, P s → P (f j s))
    (hmake : ∀ s, P s → Q (f i s)) (hQ : ∀ j < n, j ≠ i → ∀ s, Q s → Q (f j s)) {s : σ} (h : P s) : Q (forN n f s) := by
  induction n with
  | zero => exact absurd hi (Nat.not_lt_zero i)
  | succ n ih =>
    rw [forN_succ]
    by_cases hin : i = n
    · subst hin
      exact hmake _ (forN_preserves_lt (fun j hj => hP j (by omega) (by omega)) h)
    · exact hQ n (by omega) (fun hn => hin hn.symm) _
        (ih (by omega) (fun j hj => hP j (by omega)) (fun j hj => hQ j (by omega)))

/-! ### The lanes of a port (R353, R358) -/

/-- Lane `l` of engine `k` is lane `l % 16` of a port. -/
theorem lane_place {k l : Nat} (hk : k < 24) (hl : l < 48) : let n := 3 * k + l / 16
    n < 72 ∧ portK n = k ∧ laneL n (l % 16) = l ∧ l % 16 < 16 := by
  simp only [portK, portP, laneL]
  omega

theorem laneL_lt (n : Nat) {i : Nat} (hi : i < 16) : laneL n i < 48 := by
  have := portP_lt n
  unfold laneL
  omega

section Lane

variable (s : State) (n i v x : Nat)

theorem State.hstate_setLogical : (s.setLogical n i v).hstate n x = s.hstate n x :=
  s.rd_wr_ne v (by dsimp only [OE_LANE_STAT.HSTATE, OE_LANE_STAT.LOGICAL]; omega)

theorem State.logical_setLogical {v : Nat} (hv : v < 2 ^ 8) : (s.setLogical n i v).logical n x = if x = i then v else s.logical n x := by
  split
  · next h =>
    subst h
    exact (s.rd_wr_same _ v).trans (Nat.mod_eq_of_lt hv)
  · next h => exact s.rd_wr_ne v (by dsimp only [OE_LANE_STAT.LOGICAL, laneL]; omega)

/-- A lane's state is written, whether the change is kept or there is none. -/
theorem State.rd_setHstate (f : Field) : (s.setHstate n i v).rd f = (s.wr (OE_LANE_STAT.HSTATE (portK n) (laneL n i)) v).rd f := by
  unfold State.setHstate
  dsimp only
  split
  · rfl
  · rfl

theorem State.hstate_setHstate {v : Nat} (hv : v < 2 ^ 3) : (s.setHstate n i v).hstate n x = if x = i then v else s.hstate n x := by
  refine (s.rd_setHstate ..).trans ?_
  split
  · next h =>
    subst h
    exact (s.rd_wr_same _ v).trans (Nat.mod_eq_of_lt hv)
  · next h => exact s.rd_wr_ne v (by dsimp only [OE_LANE_STAT.HSTATE, laneL]; omega)

theorem State.logical_setHstate : (s.setHstate n i v).logical n x = s.logical n x :=
  (s.rd_setHstate ..).trans (s.rd_wr_ne v (by dsimp only [OE_LANE_STAT.HSTATE, OE_LANE_STAT.LOGICAL]; omega))

/-- What a lane's state leaves beside the registers. -/
theorem State.setHstate_frame : let t := s.setHstate n i v
    t.mem = s.mem ∧ t.out = s.out ∧ t.ptime = s.ptime ∧ t.opt.rxOp = s.opt.rxOp ∧ t.opt.cross = s.opt.cross ∧ t.opt.switched = s.opt.switched := by
  unfold State.setHstate
  dsimp only
  split
  · exact ⟨rfl, rfl, rfl, rfl, rfl, rfl⟩
  · exact ⟨rfl, rfl, rfl, rfl, rfl, rfl⟩

end Lane

theorem Announced.opt {s t : State} (h : Announced s t) : t.opt = s.opt ∧ t.ptime = s.ptime ∧ t.mem = s.mem := by
  obtain ⟨⟨_, _, _, _, _, _, rfl⟩, -⟩ := h
  exact ⟨rfl, rfl, rfl⟩

theorem State.laneBad_announced (s : State) (n i : Nat) (spare : Bool) : Announced s (s.laneBad n i spare) := s.postPanel_announced ..

theorem quiet_lane {k l : Nat} (hk : k < 24) (hl : l < 48) : quiet (OE_LANE_STAT.HSTATE k l) ∧ quiet (OE_LANE_STAT.CROSS k l) ∧ quiet (OE_LANE_STAT.LOGICAL k l) ∧
    quiet (OE_LANE_SER.COUNT k l) ∧ quiet (OE_LH_CFG.THR k) := by
  simp only [quiet, OE_LANE_STAT.HSTATE, OE_LANE_STAT.CROSS, OE_LANE_STAT.LOGICAL, OE_LANE_SER.COUNT, OE_LH_CFG.THR]
  omega

/-- A lane that turns BAD: its state, its port's BAD, and the report of it (R362, R363). -/
theorem State.failLane_reads {n i : Nat} (hn : n < 72) (hi : i < 16) (s : State) : let t := s.failLane n i
    t.hstate n i = 3 ∧ t.opt.switched = s.opt.switched ∧ t.opt.cross = s.opt.cross ∧ t.ptime = s.ptime ∧
    ∀ f, quiet f → f.key ≠ (OE_LANE_STAT.HSTATE (portK n) (laneL n i)).key → f.key ≠ (OE_PORT_STAT.BAD (portK n) (portP n)).key → t.rd f = s.rd f := by
  have hann : Announced ((s.setHstate n i 3).showBad n) (s.failLane n i) := by
    unfold State.failLane
    exact (Announced.refl _).ite (State.laneBad_announced ..)
  obtain ⟨hopt, hptime, -⟩ := hann.opt
  obtain ⟨-, -, hpt, -, hcross, hswitched⟩ := s.setHstate_frame n i 3
  have hbad (f : Field) (hf : f.key ≠ (OE_PORT_STAT.BAD (portK n) (portP n)).key) : ((s.setHstate n i 3).showBad n).rd f =
      (s.wr (OE_LANE_STAT.HSTATE (portK n) (laneL n i)) 3).rd f := (State.rd_wr_ne _ _ hf).trans (s.rd_setHstate ..)
  refine ⟨?_, (congrArg Optics.switched hopt).trans hswitched, (congrArg Optics.cross hopt).trans hcross, hptime.trans hpt, fun f hq hh hb => ?_⟩
  · refine (hann.rd (quiet_lane (portK_lt hn) (laneL_lt n hi)).1).trans ((hbad _ ?_).trans (s.rd_wr_same _ 3))
    have := portP_lt n
    dsimp only [OE_LANE_STAT.HSTATE, OE_PORT_STAT.BAD]
    omega
  · exact (hann.rd hq).trans ((hbad f hb).trans (s.rd_wr_ne 3 hh))

/-! ### The end of a second (R361, R362) -/

/-- Lane `l` of engine `k` is counted: its symbols of the second, and their total. -/
def State.laneCounted (s : State) (k l c : Nat) : State :=
  (s.wr (OE_LANE_SER.COUNT k l) (satTo (allOnes 32) c)).pcount (engNode k) (OE_LANE_CSYM.COUNT k l) (OE_PERF_WRAP.LANE_WRAP k) l c

/-- Does the second make a crossing of lane `l`? -/
def State.laneHit (s : State) (k l : Nat) (counts : LaneCounts) : Bool :=
  (decide (s.rd (OE_LH_CFG.THR k) < counts.symbols.getD l 0) || s.opt.lostNow.contains (48 * k + l)) && !s.opt.switched.contains (8 * k + l % 8) &&
    !counts.farSwitched.contains l && (decide (s.hstate (3 * k + l / 16) (l % 16) = 1) || decide (s.hstate (3 * k + l / 16) (l % 16) = 2))

/-- The window of a lane as it now is. -/
def State.windowSet (s : State) (key : Nat) (now : List Nat) : State := s.updOpt (fun o => { o with cross := Tab.set [] o.cross key now })

/-- Lane `l` of engine `k` is counted and judged. -/
def laneJudged (k : Nat) (counts : LaneCounts) (l : Nat) (s : State) : State :=
  let u := s.laneCounted k l (counts.symbols.getD l 0)
  let old := u.window (48 * k + l)
  let now := if u.laneHit k l counts then old ++ [u.ptime] else old
  let v := u.windowSet (48 * k + l) now
  if u.laneHit k l counts && decide (2 ≤ old.length) then v.failLane (3 * k + l / 16) (l % 16) else v.wr (OE_LANE_STAT.CROSS k l) (min 2 now.length)

theorem execLaneHealthInterval_eq {k : Nat} (hk : k < 24) {s : State} (hin : s.bit (OE_STAT.INSERVICE k) = true) (counts : LaneCounts) :
    execLaneHealthInterval k counts s = .next (forL (engPorts k) (fun n t => t.mend n) ((forN 48 (laneJudged k counts) s).updOpt (fun o => { o with
      lostNow := o.lostNow.filter (fun x => decide (x / 48 ≠ k))
      switched := o.switched.filter (fun x => decide (x / 8 ≠ k)) }))) := by
  unfold execLaneHealthInterval
  rw [if_neg (by rw [hin]; simpa using hk)]
  rfl

/-- The registers by which lane `l` of engine `k` is judged, and where its judgement stands. -/
def laneField (k l : Nat) (f : Field) : Prop :=
  f.key = (OE_LANE_SER.COUNT k l).key ∨ f.key = (OE_LANE_STAT.HSTATE k l).key ∨ f.key = (OE_LANE_STAT.CROSS k l).key ∨ f.key = (OE_LH_CFG.THR k).key

/-- `t` is `s` for lane `l` of engine `k`. -/
structure LaneKept (k l : Nat) (s t : State) : Prop where
  rd : ∀ f, laneField k l f → t.rd f = s.rd f
  window : t.window (48 * k + l) = s.window (48 * k + l)
  ptime : t.ptime = s.ptime
  switched : t.opt.switched = s.opt.switched

theorem State.window_congr {s t : State} {key : Nat} (hcross : Tab.get [] t.opt.cross key = Tab.get [] s.opt.cross key) (hptime : t.ptime = s.ptime) :
    t.window key = s.window key := by
  rw [State.window, State.window, hcross, hptime]

theorem LaneKept.trans {k l : Nat} {s t u : State} (h : LaneKept k l s t) (g : LaneKept k l t u) : LaneKept k l s u :=
  ⟨fun f hf => (g.rd f hf).trans (h.rd f hf), g.window.trans h.window, g.ptime.trans h.ptime, g.switched.trans h.switched⟩

section Judged

variable {k l : Nat} (hk : k < 24) (hl : l < 48)
include hk hl

/-- The count of a lane's symbols, before it is judged. -/
theorem State.laneCounted_reads (s : State) (c : Nat) :
    let t := s.laneCounted k l c
    t.rd (OE_LANE_SER.COUNT k l) = satTo (allOnes 32) c ∧ t.opt = s.opt ∧ t.ptime = s.ptime ∧
      ∀ f, inEngine 0 0x800 f → f.key ≠ (OE_LANE_SER.COUNT k l).key → t.rd f = s.rd f := by
  obtain ⟨hframe, -, hrd⟩ := (s.wr (OE_LANE_SER.COUNT k l) (satTo (allOnes 32) c)).pcount_frame (engNode k) (OE_LANE_CSYM.COUNT k l) (OE_PERF_WRAP.LANE_WRAP k) l c
  have hopt := congrArg State.opt hframe
  have hptime := congrArg State.ptime hframe
  have hlow (f : Field) (hf : inEngine 0 0x800 f) : f.key ≠ (OE_LANE_CSYM.COUNT k l).key ∧ f.key ≠ (OE_PERF_WRAP.LANE_WRAP k).key := by
    simp only [inEngine] at hf
    dsimp only [OE_LANE_CSYM.COUNT, OE_PERF_WRAP.LANE_WRAP]
    omega
  have hser : inEngine 0 0x800 (OE_LANE_SER.COUNT k l) := by
    simp only [inEngine, OE_LANE_SER.COUNT]
    omega
  refine ⟨?_, hopt, hptime, fun f hf hne => (hrd f (hlow f hf).1 (hlow f hf).2).trans (s.rd_wr_ne _ hne)⟩
  refine (hrd _ (hlow _ hser).1 (hlow _ hser).2).trans ((s.rd_wr_same ..).trans (Nat.mod_eq_of_lt ?_))
  exact satTo_lt 32 c

/-- Judging another lane leaves this one. -/
theorem laneJudged_other {counts : LaneCounts} {x : Nat} (hx : x < 48) (hne : x ≠ l) (s : State) : LaneKept k l s (laneJudged k counts x s) := by
  obtain ⟨hn, hK, hL, hi⟩ := lane_place hk hx
  obtain ⟨-, hopt, hptime, hrd⟩ := s.laneCounted_reads hk hx (counts.symbols.getD x 0)
  have hlow (f : Field) (hf : laneField k l f) : inEngine 0 0x800 f := by
    simp only [laneField, OE_LANE_SER.COUNT, OE_LANE_STAT.HSTATE, OE_LANE_STAT.CROSS, OE_LH_CFG.THR] at hf
    simp only [inEngine]
    omega
  have hcounted : LaneKept k l s (s.laneCounted k x (counts.symbols.getD x 0)) := by
    refine ⟨fun f hf => hrd f (hlow f hf) ?_, State.window_congr (by rw [hopt]) hptime, hptime, by rw [hopt]⟩
    simp only [laneField, OE_LANE_SER.COUNT, OE_LANE_STAT.HSTATE, OE_LANE_STAT.CROSS, OE_LH_CFG.THR] at hf ⊢
    omega
  have hnoted (t : State) (now : List Nat) : LaneKept k l t (t.windowSet (48 * k + x) now) :=
    ⟨fun _ _ => rfl, State.window_congr (Tab.get_set_ne [] t.opt.cross now (by omega)) rfl, rfl, rfl⟩
  have hfailed (t : State) : LaneKept k l t (t.failLane (3 * k + x / 16) (x % 16)) := by
    obtain ⟨-, hs, hc, hp, hr⟩ := t.failLane_reads hn hi
    refine ⟨fun f hf => hr f ?_ ?_ ?_, State.window_congr (by rw [hc]) hp, hp, hs⟩
    · simp only [laneField, OE_LANE_SER.COUNT, OE_LANE_STAT.HSTATE, OE_LANE_STAT.CROSS, OE_LH_CFG.THR] at hf
      simp only [quiet]
      omega
    · rw [hK, hL]
      simp only [laneField, OE_LANE_SER.COUNT, OE_LANE_STAT.HSTATE, OE_LANE_STAT.CROSS, OE_LH_CFG.THR] at hf ⊢
      omega
    · have := portP_lt (3 * k + x / 16)
      rw [hK]
      simp only [laneField, OE_LANE_SER.COUNT, OE_LANE_STAT.HSTATE, OE_LANE_STAT.CROSS, OE_LH_CFG.THR, OE_PORT_STAT.BAD] at hf ⊢
      omega
  have hcrossed (t : State) (v : Nat) : LaneKept k l t (t.wr (OE_LANE_STAT.CROSS k x) v) := by
    refine ⟨fun f hf => t.rd_wr_ne v ?_, rfl, rfl, rfl⟩
    simp only [laneField, OE_LANE_SER.COUNT, OE_LANE_STAT.HSTATE, OE_LANE_STAT.CROSS, OE_LH_CFG.THR] at hf ⊢
    omega
  unfold laneJudged
  dsimp only
  split
  · exact (hcounted.trans (hnoted _ _)).trans (hfailed _)
  · exact (hcounted.trans (hnoted _ _)).trans (hcrossed _ _)

end Judged

/-- Does the interval count for lane `l`: more symbols than the threshold, no switched laser on either end, and the lane in use or spare (R362)? -/
def Crosses (s : State) (k l : Nat) (counts : LaneCounts) : Prop :=
  s.rd (OE_LH_CFG.THR k) < counts.symbols.getD l 0 ∧ 8 * k + l % 8 ∉ s.opt.switched ∧ l ∉ counts.farSwitched ∧
    (s.hstate (3 * k + l / 16) (l % 16) = 1 ∨ s.hstate (3 * k + l / 16) (l % 16) = 2)

theorem Crosses.laneHit {s : State} {k l : Nat} {counts : LaneCounts} (h : Crosses s k l counts) : s.laneHit k l counts = true := by
  obtain ⟨hcount, hown, hfar, hused⟩ := h
  have hor : (decide (s.hstate (3 * k + l / 16) (l % 16) = 1) || decide (s.hstate (3 * k + l / 16) (l % 16) = 2)) = true := by simpa using hused
  have hout {m : List Nat} {x : Nat} (hx : x ∉ m) : m.contains x = false := by simpa using hx
  rw [State.laneHit, decide_eq_true hcount, hout hown, hout hfar, hor]
  rfl

/-- What a lane judged in `s` leaves. -/
structure LaneResult (s : State) (k l : Nat) (counts : LaneCounts) (t : State) : Prop where
  count : t.rd (OE_LANE_SER.COUNT k l) = satTo (allOnes 32) (counts.symbols.getD l 0)
  crossed : Crosses s k l counts → (s.window (48 * k + l)).length < 2 → t.rd (OE_LANE_STAT.CROSS k l) = (s.window (48 * k + l)).length + 1
  failed : Crosses s k l counts → 2 ≤ (s.window (48 * k + l)).length → t.rd (OE_LANE_STAT.HSTATE k l) = 3

theorem LaneResult.of_rd {s t u : State} {k l : Nat} {counts : LaneCounts} (h : LaneResult s k l counts t) (hrd : ∀ f, laneField k l f → u.rd f = t.rd f) :
    LaneResult s k l counts u :=
  ⟨(hrd _ (.inl rfl)).trans h.count, fun hc hw => (hrd _ (.inr (.inr (.inl rfl)))).trans (h.crossed hc hw),
    fun hc hw => (hrd _ (.inr (.inl rfl))).trans (h.failed hc hw)⟩

section Own

variable {k l : Nat} (hk : k < 24) (hl : l < 48) {counts : LaneCounts} {s u : State} (hkept : LaneKept k l s u)
include hk hl hkept

/-- Counting a lane leaves what it is judged by. -/
theorem LaneKept.counted : let v := u.laneCounted k l (counts.symbols.getD l 0)
    v.window (48 * k + l) = s.window (48 * k + l) ∧ (Crosses s k l counts → Crosses v k l counts) := by
  obtain ⟨-, hK, hL, -⟩ := lane_place hk hl
  obtain ⟨-, hopt, hptime, hrd⟩ := u.laneCounted_reads hk hl (counts.symbols.getD l 0)
  have hthr := (hrd (OE_LH_CFG.THR k) (by simp only [inEngine, OE_LH_CFG.THR]; omega) (by dsimp only [OE_LH_CFG.THR, OE_LANE_SER.COUNT]; omega)).trans
    (hkept.rd _ (.inr (.inr (.inr rfl))))
  have hstate := (hrd (OE_LANE_STAT.HSTATE k l) (by simp only [inEngine, OE_LANE_STAT.HSTATE]; omega)
    (by dsimp only [OE_LANE_STAT.HSTATE, OE_LANE_SER.COUNT]; omega)).trans (hkept.rd _ (.inr (.inl rfl)))
  refine ⟨(State.window_congr (by rw [hopt]) hptime).trans hkept.window, fun h => ?_⟩
  unfold Crosses State.hstate at h ⊢
  rw [hK, hL] at h ⊢
  rwa [hthr, hstate, hopt, hkept.switched]

/-- A lane is judged by its count, its window and its state. -/
theorem laneJudged_own : LaneResult s k l counts (laneJudged k counts l u) := by
  obtain ⟨hn, hK, hL, hi⟩ := lane_place hk hl
  obtain ⟨hser, -, -, -⟩ := u.laneCounted_reads hk hl (counts.symbols.getD l 0)
  obtain ⟨hwindow, hcrosses⟩ := hkept.counted hk hl (counts := counts)
  have hp := portP_lt (3 * k + l / 16)
  generalize hv : u.laneCounted k l (counts.symbols.getD l 0) = v at hser hwindow hcrosses
  unfold laneJudged
  dsimp only
  rw [hv, hwindow]
  split
  · next hfails =>
    obtain ⟨hbad, -, -, -, hrd⟩ := (v.windowSet (48 * k + l) (if v.laneHit k l counts then s.window (48 * k + l) ++ [v.ptime] else s.window (48 * k + l))).failLane_reads hn hi
    have hlong : 2 ≤ (s.window (48 * k + l)).length := of_decide_eq_true (Bool.and_eq_true_iff.mp hfails).2
    refine ⟨(hrd _ (quiet_lane hk hl).2.2.2.1 ?_ ?_).trans hser, fun _ hshort => by omega, fun _ _ => ?_⟩
    · rw [hK, hL]
      dsimp only [OE_LANE_SER.COUNT, OE_LANE_STAT.HSTATE]
      omega
    · rw [hK]
      dsimp only [OE_LANE_SER.COUNT, OE_PORT_STAT.BAD]
      omega
    · rwa [State.hstate, hK, hL] at hbad
  · next hholds =>
    refine ⟨(State.rd_wr_ne _ _ (by dsimp only [OE_LANE_SER.COUNT, OE_LANE_STAT.CROSS]; omega)).trans hser, fun hc hshort => ?_, fun hc hlong => ?_⟩
    · refine (State.rd_wr_same ..).trans ?_
      rw [if_pos (hcrosses hc).laneHit, List.length_append, List.length_singleton]
      dsimp only [OE_LANE_STAT.CROSS]
      omega
    · exact absurd (by rw [(hcrosses hc).laneHit, decide_eq_true hlong]; rfl) hholds

end Own

/-- The fields of a lane's judgement are no business of a port's (R358, R364). -/
theorem laneField.offPorts {k l : Nat} (hk : k < 24) (hl : l < 48) {f : Field} (hf : laneField k l f) : offPorts f := by
  simp only [laneField, OE_LANE_SER.COUNT, OE_LANE_STAT.HSTATE, OE_LANE_STAT.CROSS, OE_LH_CFG.THR] at hf
  simp only [Machine.offPorts, offWidth, offTraffic, quiet, inEngine]
  omega

/-- An engine counts and judges its lanes, and mends its ports (R361 to R363). -/
theorem execLaneHealthInterval_reads {k l : Nat} (hk : k < 24) (hl : l < 48) {s : State} (hin : s.bit (OE_STAT.INSERVICE k) = true) (counts : LaneCounts) :
    ∃ t, execLaneHealthInterval k counts s = .next t ∧ LaneResult s k l counts t := by
  refine ⟨_, execLaneHealthInterval_eq hk hin counts, ?_⟩
  have hjudged : LaneResult s k l counts (forN 48 (laneJudged k counts) s) :=
    forN_at (P := LaneKept k l s) hl (fun x hx hne t ht => ht.trans (laneJudged_other hk hl hx hne t)) (fun t ht => laneJudged_own hk hl ht)
      (fun x hx hne t ht => ht.of_rd (laneJudged_other hk hl hx hne t).rd) ⟨fun _ _ => rfl, rfl, rfl, rfl⟩
  exact hjudged.of_rd fun f hf => (forL_leaves (fun n hn t => t.mend_leaves (engPorts_lt hk hn)) _).2 f (hf.offPorts hk hl)

/-! ### The swap of a lane (R363, R364) -/

/-- Of the numbers below `n` one alone has a value. -/
theorem filterMap_range_single {α : Type} {g : Nat → Option α} {a n : Nat} {b : α} (ha : a < n) (hval : g a = some b) (hother : ∀ j < n, j ≠ a → g j = none) :
    (List.range n).filterMap g = [b] := by
  induction n with
  | zero => exact absurd ha (Nat.not_lt_zero a)
  | succ n ih =>
    rw [List.range_succ, List.filterMap_append]
    by_cases han : a = n
    · subst han
      have hnone : (List.range a).filterMap g = [] :=
        List.filterMap_eq_nil_iff.mpr fun j hj => hother j (by have := List.mem_range.mp hj; omega) (by have := List.mem_range.mp hj; omega)
      rw [hnone]
      simp [hval]
    · rw [ih (by omega) fun j hj => hother j (by omega)]
      simp [hother n (by omega) fun h => han h.symm]

/-- A search over the numbers below `n` that one number alone passes finds it. -/
theorem find?_range_single {p : Nat → Bool} {a n : Nat} (ha : a < n) (hp : p a = true) (honly : ∀ x < n, p x = true → x = a) : (List.range n).find? p = some a := by
  cases hfind : (List.range n).find? p with
  | none => exact absurd hp (by simpa using List.find?_eq_none.mp hfind a (List.mem_range.mpr ha))
  | some x => rw [honly x (List.mem_range.mp (List.mem_of_find?_eq_some hfind)) (List.find?_some hfind)]

/-- Where no BAD lane carries a logical lane, the port has none to swap (R363). -/
theorem State.carriers_nil {s : State} {n : Nat} (h : ∀ x < 16, s.hstate n x = 3 → s.logical n x = 0xFF) : s.carriers n = [] := by
  refine List.filterMap_eq_nil_iff.mpr fun j hj => List.find?_eq_none.mpr fun x hx => ?_
  have hj := List.mem_range.mp hj
  have hx := h x (List.mem_range.mp hx)
  simp only [Bool.and_eq_true, decide_eq_true_eq, not_and]
  intro hlogical hbad
  have := hx hbad
  omega

theorem State.carriers_single {s : State} {n j : Nat} (hj : j < 16) (hbad : s.hstate n j = 3) (hcarries : s.logical n j < 15)
    (hothers : ∀ x, x < 16 → x ≠ j → s.hstate n x = 3 → s.logical n x = 0xFF) : s.carriers n = [j] := by
  refine filterMap_range_single hcarries (find?_range_single hj ?_ fun x hx hcarrier => ?_) fun m hm hne => List.find?_eq_none.mpr fun x hx => ?_
  · simp [hbad]
  · simp only [Bool.and_eq_true, decide_eq_true_eq] at hcarrier
    by_contra hne
    have := hothers x hx hne hcarrier.2
    omega
  · simp only [Bool.and_eq_true, decide_eq_true_eq, not_and]
    intro hlogical hxbad
    by_cases hxj : x = j
    · subst hxj
      exact hne hlogical.symm
    · have := hothers x (List.mem_range.mp hx) hxj hxbad
      omega

/-- A port with no BAD lane that carries, and lanes enough for its width, needs no mending (R363). -/
theorem State.mend_whole {s : State} {n : Nat} (hcarriers : s.carriers n = []) (hwidth : widthOf (s.width n) ≤ (s.goodLanes n).length) : s.mend n = s := by
  unfold State.mend
  split
  · rfl
  · rw [hcarriers]
    exact if_neg (by omega)

/-- The lanes after lane `j` has given its logical lane to the spare `sp`. -/
def State.laneSwapped (s : State) (n j sp ll : Nat) : State := (((s.setLogical n j 0xFF).noteOpt 1 n j sp).setHstate n sp 1).setLogical n sp ll

section Swapped

variable (s : State) (n j sp ll x : Nat)

theorem State.laneSwapped_hstate : (s.laneSwapped n j sp ll).hstate n x = if x = sp then 1 else s.hstate n x := by
  refine (State.hstate_setLogical ..).trans ((State.hstate_setHstate _ _ _ _ (by decide)).trans ?_)
  rw [show ((s.setLogical n j 0xFF).noteOpt 1 n j sp).hstate n x = s.hstate n x from s.hstate_setLogical n j 0xFF x]

theorem State.laneSwapped_logical {ll : Nat} (hll : ll < 2 ^ 8) : (s.laneSwapped n j sp ll).logical n x =
    if x = sp then ll else if x = j then 0xFF else s.logical n x := by
  refine (State.logical_setLogical _ _ _ _ hll).trans ?_
  rw [State.logical_setHstate, show ((s.setLogical n j 0xFF).noteOpt 1 n j sp).logical n x = if x = j then 0xFF else s.logical n x from
    s.logical_setLogical n j x (by decide)]

theorem State.laneSwapped_mem : (s.laneSwapped n j sp ll).mem = s.mem := (State.setHstate_frame _ n sp 1).1

theorem State.laneSwapped_width : (s.laneSwapped n j sp ll).width n = s.width n := by
  have hp := portP_lt n
  refine (State.rd_wr_ne _ _ ?_).trans ((State.rd_setHstate ..).trans ((State.rd_wr_ne _ _ ?_).trans (s.rd_wr_ne _ ?_)))
  · dsimp only [OE_PORT_STAT.WIDTH, OE_LANE_STAT.LOGICAL]; omega
  · dsimp only [OE_PORT_STAT.WIDTH, OE_LANE_STAT.HSTATE]; omega
  · dsimp only [OE_PORT_STAT.WIDTH, OE_LANE_STAT.LOGICAL]; omega

end Swapped

/-- What the receiver of a swap finds at flit F (R363, R364): the BAD lane `j` alone carries, the spare is STANDBY, and the port has good lanes enough. -/
structure SwapDue (s : State) (n : Nat) (o : LaneOp) (q j : Nat) : Prop where
  op : Tab.get none s.opt.rxOp n = some o
  swap : o.narrow = false
  flit : o.fseq = some q
  spare : o.slane < 16
  lane : o.llane < 15
  place : j < 16
  bad : s.hstate n j = 3
  carries : s.logical n j = o.llane
  standby : s.hstate n o.slane = 2
  others : ∀ x, x < 16 → x ≠ j → s.hstate n x = 3 → s.logical n x = 0xFF
  wide : widthOf (s.width n) ≤ (s.goodLanes n).length

/-- No lane operation of a port's receiver is open any more. -/
def State.opEnded (s : State) (n : Nat) : State := s.updOpt (fun p => { p with rxOp := Tab.set none p.rxOp n none })

section Switch

variable {s : State} {n q j : Nat} {o : LaneOp} (h : SwapDue s n o q j)
include h

/-- A state with the optical side and the registers of the one in which the swap is due. -/
theorem SwapDue.congr {t : State} (hopt : t.opt = s.opt) (hregs : t.regs = s.regs) : SwapDue t n o q j := by
  obtain ⟨op, swap, flit, spare, lane, place, bad, carries, standby, others, wide⟩ := h
  have hh (x : Nat) : t.hstate n x = s.hstate n x := State.rd_congr hregs _
  have hl (x : Nat) : t.logical n x = s.logical n x := State.rd_congr hregs _
  have hgood : t.goodLanes n = s.goodLanes n := by simp only [State.goodLanes, State.lanesIn, hh]
  refine ⟨by rwa [hopt], swap, flit, spare, lane, place, (hh j).trans bad, (hl j).trans carries, (hh _).trans standby, fun x hx hne hb => ?_, ?_⟩
  · rw [hl x]
    exact others x hx hne ((hh x).symm.trans hb)
  · rw [hgood, show t.width n = s.width n from State.rd_congr hregs _]
    exact wide

/-- Once swapped, the port is whole again. -/
theorem SwapDue.whole {t : State} (ht : Announced ((s.opEnded n).laneSwapped n j o.slane o.llane) t) (hn : n < 72) : t.mend n = t := by
  obtain ⟨-, -, -, hspare, hlane, hplace, hbad, hcarries, hstandby, hothers, hwide⟩ := h
  have hq (x : Nat) (hx : x < 16) := quiet_lane (portK_lt hn) (laneL_lt n hx)
  have hh (x : Nat) (hx : x < 16) : t.hstate n x = if x = o.slane then 1 else s.hstate n x := (ht.rd (hq x hx).1).trans (State.laneSwapped_hstate ..)
  have hl (x : Nat) (hx : x < 16) : t.logical n x = if x = o.slane then o.llane else if x = j then 0xFF else s.logical n x :=
    (ht.rd (hq x hx).2.2.1).trans (State.laneSwapped_logical _ _ _ _ _ (by omega))
  have hgood : t.goodLanes n = s.goodLanes n := by
    unfold State.goodLanes State.lanesIn
    refine List.filter_congr fun x hx => ?_
    rw [hh x (List.mem_range.mp hx)]
    split
    · next hxs => rw [hxs, hstandby]; rfl
    · rfl
  refine State.mend_whole (State.carriers_nil fun x hx hxbad => ?_) ?_
  · rw [hh x hx] at hxbad
    rw [hl x hx]
    split at hxbad
    · omega
    · next hne =>
      rw [if_neg hne]
      split
      · rfl
      · next hxj => exact hothers x hx hxj hxbad
  · have hquiet : quiet (OE_PORT_STAT.WIDTH (portK n) (portP n)) := by
      have := portK_lt hn
      have := portP_lt n
      simp only [quiet, OE_PORT_STAT.WIDTH]
      omega
    rw [hgood, show t.width n = s.width n from (ht.rd hquiet).trans (State.laneSwapped_width ..)]
    exact hwide

/-- The receiver switches: its BAD lane gives its logical lane to the spare, and is reported (R363, R364). -/
theorem execLaneSwitchAtFlit_swaps (hn : n < 72) : ∃ t, execLaneSwitchAtFlit n .rx s = .next t ∧
    t.hstate n o.slane = 1 ∧ t.logical n o.slane = o.llane ∧ t.logical n j = 0xFF ∧ t.mem = s.mem := by
  obtain ⟨hregs, hmem, hopt, -⟩ := s.spoilTime_frame n
  have hdue := h.congr hopt hregs
  generalize hu : s.spoilTime n = u at hmem hdue
  have hcarriers : u.carriers n = [j] := State.carriers_single hdue.place hdue.bad (hdue.carries ▸ hdue.lane) hdue.others
  have hne : j ≠ o.slane := fun hjs => by
    have := hdue.bad
    have := hdue.standby
    subst hjs
    omega
  have hann := State.laneBad_announced ((u.opEnded n).laneSwapped n j o.slane o.llane) n j true
  have hq {x : Nat} (hx : x < 16) := quiet_lane (portK_lt hn) (laneL_lt n hx)
  refine ⟨(((u.opEnded n).laneSwapped n j o.slane o.llane).laneBad n j true), ?_, ?_, ?_, ?_, ?_⟩
  · have hold : [j].filter (fun i => decide ((u.opEnded n).logical n i = o.llane)) = [j] :=
      List.filter_eq_self.mpr fun x hx => decide_eq_true (List.mem_singleton.mp hx ▸ hdue.carries)
    have hstandby : ¬ (u.opEnded n).hstate n o.slane ≠ 2 := fun hn2 => hn2 hdue.standby
    unfold execLaneSwitchAtFlit
    dsimp only
    rw [hu, hdue.op]
    dsimp only
    rw [hdue.flit, if_neg (show ¬ (some q).isNone = true from Bool.false_ne_true), hdue.swap, if_neg Bool.false_ne_true, hcarriers, ← State.opEnded,
      if_neg hstandby, hold]
    exact congrArg Host.Outcome.next (hdue.whole hann hn)
  · exact (hann.rd (hq hdue.spare).1).trans ((State.laneSwapped_hstate ..).trans (if_pos rfl))
  · exact (hann.rd (hq hdue.spare).2.2.1).trans ((State.laneSwapped_logical _ _ _ _ _ (by have := hdue.lane; omega)).trans (if_pos rfl))
  · exact (hann.rd (hq hdue.place).2.2.1).trans ((State.laneSwapped_logical _ _ _ _ _ (by have := hdue.lane; omega)).trans ((if_neg hne).trans (if_pos rfl)))
  · exact hann.mem.trans ((State.laneSwapped_mem ..).trans hmem)

end Switch

/-- What a port's TX lanes carry once the spare of a swap carries its logical lane (R358, R364); `lane` is what they carried. -/
def txMoved (n : Nat) (o : LaneOp) (lane : Nat → Nat) (t : Tab Nat) : Tab Nat :=
  forN 16 (fun i t =>
    if i = o.slane then Tab.set 0 t (16 * n + i) (o.llane + 1) else if lane i = o.llane + 1 then Tab.set 0 t (16 * n + i) 0 else t) t

theorem txMoved_spare {o : LaneOp} (hspare : o.slane < 16) (n : Nat) (lane : Nat → Nat) (t : Tab Nat) :
    Tab.get 0 (txMoved n o lane t) (16 * n + o.slane) = o.llane + 1 := by
  refine forN_at (P := fun _ => True) (Q := fun t : Tab Nat => Tab.get 0 t (16 * n + o.slane) = o.llane + 1) hspare (fun _ _ _ _ h => h) (fun t _ => ?_)
    (fun i hi hne t ht => ?_) trivial
  · rw [if_pos rfl]
    exact Tab.get_set_same 0 t _ _
  · have hkey : 16 * n + o.slane ≠ 16 * n + i := by omega
    rw [if_neg hne]
    split
    · exact (Tab.get_set_ne 0 t 0 hkey).trans ht
    · exact ht

/-- A port whose transmitter has ended its swap `o`. -/
def State.txSwapped (s : State) (n : Nat) (o : LaneOp) : State :=
  let u := s.updOpt (fun p => { p with txOp := Tab.set none p.txOp n none })
  u.updOpt (fun p => { p with txLane := txMoved n o (fun i => Tab.get 0 u.opt.txLane (16 * n + i)) p.txLane })

theorem State.txSwapped_txLane (s : State) (n : Nat) (o : LaneOp) :
    (s.txSwapped n o).opt.txLane = txMoved n o (fun i => Tab.get 0 s.opt.txLane (16 * n + i)) s.opt.txLane := rfl

/-- The transmitter switches: the spare carries the logical lane, and its old lane none (R364). -/
theorem execLaneSwitchAtFlit_carries {s : State} {n : Nat} {o : LaneOp} (hop : Tab.get none s.opt.txOp n = some o) (hswap : o.narrow = false)
    (hspare : o.slane < 16) (far : List Nat) : ∃ t, execLaneSwitchAtFlit n (.tx far) s = .next t ∧
    Tab.get none t.opt.txOp n = none ∧ Tab.get 0 t.opt.txLane (16 * n + o.slane) = o.llane + 1 ∧ t.regs = s.regs ∧ t.mem = s.mem := by
  obtain ⟨hregs, hmem, hopt, -⟩ := s.spoilTime_frame n
  refine ⟨(s.spoilTime n).txSwapped n o, ?_, Tab.get_set_same none (s.spoilTime n).opt.txOp n none, ?_, hregs, hmem⟩
  · unfold execLaneSwitchAtFlit
    dsimp only
    rw [show Tab.get none (s.spoilTime n).opt.txOp n = some o by rwa [hopt]]
    dsimp only
    rw [hswap, if_neg Bool.false_ne_true]
    rfl
  · rw [State.txSwapped_txLane]
    exact txMoved_spare hspare ..

/-! ### RETEST and lock (R361, R362) -/

/-- A BAD lane that passes its test is STANDBY, its lock found and its crossings cleared (R362). -/
def State.retested (s : State) (k l : Nat) : State :=
  ((((s.windowSet (48 * k + l) []).wr (OE_LANE_STAT.CROSS k l) 0).setHstate (3 * k + l / 16) (l % 16) 2).wr (OE_LANE_STAT.LOCK k l) 1).showBad (3 * k + l / 16)

section Retest

variable {k l : Nat} (hk : k < 24) (hl : l < 48) {s : State}
include hk hl

theorem execLaneRetest_bad (hup : s.pstate (3 * k + l / 16) = 2) (hbad : s.hstate (3 * k + l / 16) (l % 16) = 3)
    (hbare : s.logical (3 * k + l / 16) (l % 16) = 0xFF) (good : Bool) : execLaneRetest .fw k l good s =
    .next (if good then s.retested k l else s.laneBad (3 * k + l / 16) (l % 16) false) := by
  unfold execLaneRetest
  dsimp only
  rw [hup, hbad, hbare, if_neg (by simpa [pfOrFw] using ⟨hk, hl⟩)]
  cases good with
  | false => rfl
  | true => rfl

theorem State.retested_reads : let t := s.retested k l
    t.hstate (3 * k + l / 16) (l % 16) = 2 ∧ t.bit (OE_LANE_STAT.LOCK k l) = true ∧ t.rd (OE_LANE_STAT.CROSS k l) = 0 ∧ t.mem = s.mem ∧ t.out = s.out := by
  obtain ⟨hn, hK, hL, hi⟩ := lane_place hk hl
  have hp := portP_lt (3 * k + l / 16)
  generalize hn' : 3 * k + l / 16 = n at *
  obtain ⟨hmem, hout, -⟩ := ((s.windowSet (48 * k + l) []).wr (OE_LANE_STAT.CROSS k l) 0).setHstate_frame n (l % 16) 2
  have hshown (t : State) {f : Field} (hf : inEngine 0x100 0x400 f) : (t.showBad n).rd f = t.rd f := by
    refine t.rd_wr_ne _ ?_
    simp only [inEngine] at hf
    rw [hK]
    dsimp only [OE_PORT_STAT.BAD]
    omega
  have hin : inEngine 0x100 0x400 (OE_LANE_STAT.HSTATE k l) ∧ inEngine 0x100 0x400 (OE_LANE_STAT.LOCK k l) ∧ inEngine 0x100 0x400 (OE_LANE_STAT.CROSS k l) := by
    simp only [inEngine, OE_LANE_STAT.HSTATE, OE_LANE_STAT.LOCK, OE_LANE_STAT.CROSS]
    omega
  unfold State.retested
  rw [hn']
  refine ⟨?_, ?_, ?_, hmem, hout⟩
  · refine (congrArg (fun f => State.rd _ f) (show OE_LANE_STAT.HSTATE (portK n) (laneL n (l % 16)) = OE_LANE_STAT.HSTATE k l by rw [hK, hL])).trans ?_
    refine (hshown _ hin.1).trans ((State.rd_wr_ne _ _ (by dsimp only [OE_LANE_STAT.HSTATE, OE_LANE_STAT.LOCK]; omega)).trans ((State.rd_setHstate ..).trans ?_))
    rw [hK, hL]
    exact State.rd_wr_same ..
  · exact (State.bit_eq_of_rd (hshown _ hin.2.1)).trans (State.bit_wr_same _ _ 1 rfl)
  · refine (hshown _ hin.2.2).trans ((State.rd_wr_ne _ _ (by dsimp only [OE_LANE_STAT.CROSS, OE_LANE_STAT.LOCK]; omega)).trans ((State.rd_setHstate ..).trans ?_))
    rw [hK, hL]
    exact (State.rd_wr_ne _ _ (by dsimp only [OE_LANE_STAT.HSTATE, OE_LANE_STAT.CROSS]; omega)).trans (State.rd_wr_same ..)

/-- A lane that is not DARK regains its lock, or loses it: a loss is counted, and noted for the second's end (R361). -/
theorem execLaneLockLoss_regained (hlit : s.rd (OE_LANE_STAT.HSTATE k l) ≠ 4) : execLaneLockLoss k l true s = .next (s.wr (OE_LANE_STAT.LOCK k l) 1) := by
  unfold execLaneLockLoss
  rw [if_neg (by omega)]
  rfl

theorem execLaneLockLoss_lost (hlit : s.rd (OE_LANE_STAT.HSTATE k l) ≠ 4) (hlow : s.rd (OE_LANE_LOCK.COUNT k l) < 0x7FFF) :
    ∃ t, execLaneLockLoss k l false s = .next t ∧ t.bit (OE_LANE_STAT.LOCK k l) = false ∧
      t.rd (OE_LANE_LOCK.COUNT k l) = s.rd (OE_LANE_LOCK.COUNT k l) + 1 ∧ 48 * k + l ∈ t.opt.lostNow ∧ t.out = s.out := by
  unfold execLaneLockLoss
  rw [if_neg (by omega)]
  dsimp only
  rw [if_neg Bool.false_ne_true, State.lcount_low rfl hlow]
  refine ⟨_, rfl, State.bit_wr_same _ _ 0 rfl, ?_, ?_, rfl⟩
  · refine (State.rd_wr_ne _ _ (by dsimp only [OE_LANE_LOCK.COUNT, OE_LANE_STAT.LOCK]; omega)).trans ((State.rd_wr_same ..).trans ?_)
    dsimp only [OE_LANE_LOCK.COUNT] at hlow ⊢
    omega
  · show 48 * k + l ∈ (if s.opt.lostNow.contains (48 * k + l) then s.opt.lostNow else s.opt.lostNow ++ [48 * k + l])
    split
    · next h => simpa using h
    · simp

end Retest

/-! ### Baselines and powers (R365 to R367) -/

theorem State.logBase_announced (s : State) (k : Nat) : Announced s (s.logBase k) := s.logWrite_announced ..

/-- A fibre's baseline changes its own BASE register alone. -/
theorem State.baseFibre_rd (s : State) (k j : Nat) {f : Field} (hf : f.key ≠ (OE_FLOSS.BASE k j).key) : (s.baseFibre k j).rd f = s.rd f := by
  unfold State.baseFibre
  split
  · rfl
  · exact s.rd_wr_ne _ hf

theorem State.baseFibre_own {s : State} {k j : Nat} (hlit : s.rd (OE_FSTAT.LEVEL k j) ≠ 3) : (s.baseFibre k j).rd (OE_FLOSS.BASE k j) = s.rd (OE_FLOSS.LOSS k j) := by
  unfold State.baseFibre
  rw [if_neg hlit]
  exact (s.rd_wr_same ..).trans (Nat.mod_eq_of_lt (s.rd_lt (OE_FLOSS.LOSS k j)))

theorem State.baseFeed_regs (s : State) (k f : Nat) : (s.baseFeed k f).regs = s.regs := by
  unfold State.baseFeed
  split
  · rfl
  · rfl

/-- The fibres' baselines of an engine are the losses that they have, but those at LOS (R367). -/
theorem execBaselineWrite_fibres {k : Nat} (hk : k < 24) {v : W32} (hv : bitOf v.toNat 0 = true) (s : State) : ∃ t, execBaselineWrite .fw k v s = .next t ∧
    ∀ j, j < 6 → s.rd (OE_FSTAT.LEVEL k j) ≠ 3 → t.rd (OE_FLOSS.BASE k j) = s.rd (OE_FLOSS.LOSS k j) := by
  have hfw : (!pfOrFw Src.fw || decide (24 ≤ k)) = false := by simpa [pfOrFw] using hk
  unfold execBaselineWrite
  rw [hfw, if_neg Bool.false_ne_true]
  dsimp only
  rw [hv, if_pos rfl, Bool.true_or, if_pos rfl]
  refine ⟨_, rfl, fun j hj hlit => ?_⟩
  have hfibres : (forN 6 (fun j t => t.baseFibre k j) s).rd (OE_FLOSS.BASE k j) = s.rd (OE_FLOSS.LOSS k j) := by
    refine forN_at (P := fun t : State => t.rd (OE_FSTAT.LEVEL k j) = s.rd (OE_FSTAT.LEVEL k j) ∧ t.rd (OE_FLOSS.LOSS k j) = s.rd (OE_FLOSS.LOSS k j))
      (Q := fun t : State => t.rd (OE_FLOSS.BASE k j) = s.rd (OE_FLOSS.LOSS k j)) hj (fun x _ hne t ht => ⟨?_, ?_⟩) (fun t ht => ?_) (fun x _ hne t ht => ?_) ⟨rfl, rfl⟩
    · exact (t.baseFibre_rd k x (by dsimp only [OE_FSTAT.LEVEL, OE_FLOSS.BASE]; omega)).trans ht.1
    · exact (t.baseFibre_rd k x (by dsimp only [OE_FLOSS.LOSS, OE_FLOSS.BASE]; omega)).trans ht.2
    · exact (State.baseFibre_own (ht.1 ▸ hlit)).trans ht.2
    · exact (t.baseFibre_rd k x (by dsimp only [OE_FLOSS.BASE]; omega)).trans ht
  refine ((State.logBase_announced _ k).rd (by simp only [quiet, OE_FLOSS.BASE]; omega)).trans (Eq.trans ?_ hfibres)
  split
  · exact State.rd_congr (forN_keeps State.regs _ (fun f t => t.baseFeed_regs k f) 4 _) _
  · rfl

/-- A power as it was measured: of a fibre of an engine, either way, or of a feed (R365). -/
def powerField (f : Field) : Prop := inEngine 0x400 0x600 f ∧ f.key % 32 = 0 ∧ (f.key / 8 % 0x10000 < 0x500 → f.key / 8 % 16 < 8)

theorem powerField.offPorts {f : Field} (hf : powerField f) : offPorts f := by
  simp only [powerField, inEngine] at hf
  simp only [Machine.offPorts, offWidth, offTraffic, quiet, inEngine]
  omega

section Power

variable {f : Field} (hf : powerField f)
include hf

/-- A fibre that is judged has its loss and level written, and an event where the level changes (R366): no power. -/
theorem State.judgeFibre_rd (s : State) (k : Nat) {j : Nat} (hj : j < 6) : (s.judgeFibre k j).rd f = s.rd f := by
  have hquiet := hf.offPorts.1.1.1
  simp only [powerField, inEngine] at hf
  have hloss : f.key ≠ (OE_FLOSS.LOSS k j).key := by dsimp only [OE_FLOSS.LOSS]; omega
  have hlevel : f.key ≠ (OE_FSTAT.LEVEL k j).key := by dsimp only [OE_FSTAT.LEVEL]; omega
  unfold State.judgeFibre
  exact (((Announced.refl _).ite (State.postPanel_announced ..)).rd hquiet).trans ((State.rd_wr_ne _ _ hlevel).trans (s.rd_wr_ne _ hloss))

theorem State.judgeFeed_rd (s : State) (k j : Nat) : (s.judgeFeed k j).rd f = s.rd f := by
  have hquiet := hf.offPorts.1.1.1
  simp only [powerField, inEngine] at hf
  have hloss : f.key ≠ (OE_FEED.LOSS k j).key := by dsimp only [OE_FEED.LOSS]; omega
  have hlevel : f.key ≠ (OE_FEED.LEVEL k j).key := by dsimp only [OE_FEED.LEVEL]; omega
  unfold State.judgeFeed
  exact (((Announced.refl _).ite (State.postPanel_announced ..)).rd hquiet).trans ((State.rd_wr_ne _ _ hlevel).trans (s.rd_wr_ne _ hloss))

end Power

/-- The powers of an engine's fibres written (R365). -/
def State.fibrePowers (s : State) (k : Nat) (tx rx : List Int) : State :=
  forN 6 (fun j t => (t.wr (OE_FTX.POWER k j) (unsgn 16 (tx.getD j 0))).wr (OE_FRX.POWER k j) (unsgn 16 (rx.getD j 0))) s

/-- The powers of an engine's feeds written, and their outputs in the module (R365). -/
def State.feedPowers (s : State) (k : Nat) (feed out : List Int) : State :=
  forN 4 (fun f t =>
    let i := 4 * (k % 2) + f
    let g := if i % 2 = 0 then ELS_FEED.FEEDlo (elsOf k) (i / 2) else ELS_FEED.FEEDhi (elsOf k) (i / 2)
    (t.wr (OE_FEED.POWER k f) (unsgn 16 (feed.getD f 0))).wr g (unsgn 16 (out.getD f 0))) s

/-- The engine's losses judged, and its ports' reports sent (R366, R679). -/
def State.powersJudged (s : State) (k : Nat) : State :=
  forL (engPorts k) (fun n t =>
    if t.pstate n = 2 ∧ t.rd (OE_FSTAT.LEVEL k (2 * portP n)) = 3 ∧ t.rd (OE_FSTAT.LEVEL k (2 * portP n + 1)) = 3 then t.portDown n 0 else t.linkInfo n)
    (forN 4 (fun f t => t.judgeFeed k f) (forN 6 (fun j t => t.judgeFibre k j) s))

theorem unsgn_lt (w : Nat) (x : Int) : unsgn w x < 2 ^ w := by
  have hpos : (0 : Int) < (2 ^ w : Nat) := by exact_mod_cast Nat.two_pow_pos w
  have := Int.emod_lt_of_pos x hpos
  have := Int.emod_nonneg x (Int.ne_of_gt hpos)
  unfold unsgn
  omega

section Sample

variable {k : Nat} (hk : k < 24)
include hk

theorem State.powersJudged_rd {f : Field} (hf : powerField f) (s : State) : (s.powersJudged k).rd f = s.rd f := by
  have hfibres : (forN 6 (fun j t => t.judgeFibre k j) s).rd f = s.rd f :=
    forN_preserves_lt (P := fun t : State => t.rd f = s.rd f) (fun j hj t ht => (t.judgeFibre_rd hf k hj).trans ht) rfl
  have hfeeds : (forN 4 (fun j t => t.judgeFeed k j) (forN 6 (fun j t => t.judgeFibre k j) s)).rd f = s.rd f :=
    forN_preserves_lt (P := fun t : State => t.rd f = s.rd f) (fun j _ t ht => (t.judgeFeed_rd hf k j).trans ht) hfibres
  refine Eq.trans ((forL_leaves (P := offPorts) (fun n hn t => ?_) _).2 f hf.offPorts) hfeeds
  have hn72 := engPorts_lt hk hn
  exact (t.portDown_leaves hn72 0).ite ((t.linkInfo_sent hn72).leaves fun _ hg => hg.1.1)

theorem powerField_powers : (∀ j < 6, powerField (OE_FTX.POWER k j) ∧ powerField (OE_FRX.POWER k j)) ∧ ∀ f < 4, powerField (OE_FEED.POWER k f) := by
  refine ⟨fun j hj => ⟨?_, ?_⟩, fun f hf => ?_⟩
  · simp only [powerField, inEngine, OE_FTX.POWER]
    omega
  · simp only [powerField, inEngine, OE_FRX.POWER]
    omega
  · simp only [powerField, inEngine, OE_FEED.POWER]
    omega

omit hk in
theorem State.fibrePowers_rd {j : Nat} (hj : j < 6) (s : State) (tx rx : List Int) :
    (s.fibrePowers k tx rx).rd (OE_FTX.POWER k j) = unsgn 16 (tx.getD j 0) ∧ (s.fibrePowers k tx rx).rd (OE_FRX.POWER k j) = unsgn 16 (rx.getD j 0) := by
  refine forN_at (P := fun _ => True) (Q := fun t : State => t.rd (OE_FTX.POWER k j) = unsgn 16 (tx.getD j 0) ∧ t.rd (OE_FRX.POWER k j) = unsgn 16 (rx.getD j 0)) hj
    (fun _ _ _ _ h => h) (fun t _ => ⟨?_, ?_⟩) (fun x hx hne t ht => ⟨?_, ?_⟩) trivial
  · exact (State.rd_wr_ne _ _ (by dsimp only [OE_FTX.POWER, OE_FRX.POWER]; omega)).trans ((t.rd_wr_same ..).trans (Nat.mod_eq_of_lt (unsgn_lt 16 _)))
  · exact (State.rd_wr_same ..).trans (Nat.mod_eq_of_lt (unsgn_lt 16 _))
  · exact (State.rd_wr_ne _ _ (by dsimp only [OE_FTX.POWER, OE_FRX.POWER]; omega)).trans ((t.rd_wr_ne _ (by dsimp only [OE_FTX.POWER]; omega)).trans ht.1)
  · exact (State.rd_wr_ne _ _ (by dsimp only [OE_FRX.POWER]; omega)).trans ((t.rd_wr_ne _ (by dsimp only [OE_FTX.POWER, OE_FRX.POWER]; omega)).trans ht.2)

/-- The feeds' powers stand in the engine, and their outputs above the engines. -/
theorem State.feedPowers_rd (s : State) (feed out : List Int) : (∀ f < 4, (s.feedPowers k feed out).rd (OE_FEED.POWER k f) = unsgn 16 (feed.getD f 0)) ∧
    ∀ g : Field, inEngine 0x400 0x500 g → (s.feedPowers k feed out).rd g = s.rd g := by
  have hmodule (f : Nat) {g : Field} (hg : inEngine 0x400 0x600 g) :
      g.key ≠ (if (4 * (k % 2) + f) % 2 = 0 then ELS_FEED.FEEDlo (elsOf k) ((4 * (k % 2) + f) / 2) else ELS_FEED.FEEDhi (elsOf k) ((4 * (k % 2) + f) / 2)).key := by
    simp only [inEngine] at hg
    split
    · dsimp only [ELS_FEED.FEEDlo]; omega
    · dsimp only [ELS_FEED.FEEDhi]; omega
  constructor
  · intro f hf
    have hin : inEngine 0x400 0x600 (OE_FEED.POWER k f) := by simp only [inEngine, OE_FEED.POWER]; omega
    refine forN_at (P := fun _ => True) (Q := fun t : State => t.rd (OE_FEED.POWER k f) = unsgn 16 (feed.getD f 0)) hf (fun _ _ _ _ h => h) (fun t _ => ?_)
      (fun x hx hne t ht => ?_) trivial
    · exact (State.rd_wr_ne _ _ (hmodule f hin)).trans ((t.rd_wr_same ..).trans (Nat.mod_eq_of_lt (unsgn_lt 16 _)))
    · exact (State.rd_wr_ne _ _ (hmodule x hin)).trans ((t.rd_wr_ne _ (by dsimp only [OE_FEED.POWER]; omega)).trans ht)
  · intro g hg
    have hin : inEngine 0x400 0x600 g := ⟨hg.1, hg.2.1, by have := hg.2.2; omega⟩
    refine forN_preserves_lt (P := fun t : State => t.rd g = s.rd g) (fun x hx t ht => ?_) rfl
    refine (State.rd_wr_ne _ _ (hmodule x hin)).trans ((t.rd_wr_ne _ ?_).trans ht)
    simp only [inEngine] at hg
    dsimp only [OE_FEED.POWER]
    omega

/-- The powers measured stand in their registers (R365). -/
theorem execOpticalPowerSample_reads {s : State} (hin : s.bit (OE_STAT.INSERVICE k) = true) (tx rx feed out : List Int) : ∃ t,
    execOpticalPowerSample k tx rx feed out s = .next t ∧
      (∀ j, j < 6 → t.rd (OE_FTX.POWER k j) = unsgn 16 (tx.getD j 0) ∧ t.rd (OE_FRX.POWER k j) = unsgn 16 (rx.getD j 0)) ∧
      ∀ f, f < 4 → t.rd (OE_FEED.POWER k f) = unsgn 16 (feed.getD f 0) := by
  obtain ⟨hfibres, hfeeds⟩ := powerField_powers hk
  refine ⟨((s.fibrePowers k tx rx).feedPowers k feed out).powersJudged k, ?_, fun j hj => ⟨?_, ?_⟩, fun f hf => ?_⟩
  · unfold execOpticalPowerSample
    rw [if_neg (by rw [hin]; simpa using hk)]
    rfl
  · refine (State.powersJudged_rd hk (hfibres j hj).1 _).trans (((State.feedPowers_rd hk _ feed out).2 _ ?_).trans (s.fibrePowers_rd hj tx rx).1)
    simp only [inEngine, OE_FTX.POWER]
    omega
  · refine (State.powersJudged_rd hk (hfibres j hj).2 _).trans (((State.feedPowers_rd hk _ feed out).2 _ ?_).trans (s.fibrePowers_rd hj tx rx).2)
    simp only [inEngine, OE_FRX.POWER]
    omega
  · exact (State.powersJudged_rd hk (hfeeds f hf) _).trans ((State.feedPowers_rd hk _ feed out).1 f hf)

end Sample

/-! ### The end of training (R358, R362, R367) -/

/-- The lanes of a port that are good in `l`, as training counts them. -/
def trained (l : List Nat) : List Nat := (List.range 16).filter (fun i => l.contains i)

/-- The port's lanes as training leaves them: those that failed BAD, the others locked (R358, R362). -/
def State.lanesTrained (s : State) (n : Nat) (rx : List Nat) : State :=
  forL (trained rx) (fun i s => s.wr (OE_LANE_STAT.LOCK (portK n) (laneL n i)) 1)
    ((forL ((List.range 16).filter (fun i => !rx.contains i)) (fun i s => s.setHstate n i 3) s).showBad n)

/-- A port UP at width `w`, transmitting at `wt` (R358, R367). -/
def State.portTrained (s : State) (n w wt : Nat) (rx tx : List Nat) : State :=
  ((((s.setLanes n w (trained rx)).setTxLanes n wt (trained tx)).setPstate n 2).setWidth n w).firstBase n

theorem execPortTrainingComplete_eq {s : State} {n : Nat} (hn : n < 72) (htrains : s.pstate n = 1) (rx tx : List Nat) :
    let w := widthFor (trained rx).length (s.minw n)
    let wt := widthFor (trained tx).length (s.minw n)
    let u := s.lanesTrained n rx
    execPortTrainingComplete n rx tx s = .next ((forL ((List.range 16).filter (fun i => !rx.contains i)) (fun i s => s.laneBad n i false)
      (if w = 3 ∨ wt = 3 then u.setPstate n 0 else u.portTrained n w wt rx tx)).elsBack (elsOf (portK n))) := by
  unfold execPortTrainingComplete
  rw [if_neg (by omega)]
  rfl

theorem widthFor_le (cnt minw : Nat) : widthOf (widthFor cnt minw) ≤ cnt := by
  unfold widthFor
  split
  · assumption
  · split
    · next h => exact h.1
    · split
      · next h => exact h.1
      · exact Nat.zero_le cnt

theorem widthFor_lt (cnt minw : Nat) : widthFor cnt minw < 4 := by
  unfold widthFor
  split
  · decide
  · split
    · decide
    · split
      · decide
      · decide

theorem State.elsBack_rd (s : State) (k : Nat) {f : Field} (hf : quiet f) : (s.elsBack k).rd f = s.rd f := by
  unfold State.elsBack
  split
  · exact (State.postPanel_announced ..).rd hf
  · rfl

/-- A port's first baselines change their own registers (R367). -/
theorem State.firstBase_rd (s : State) (n : Nat) {f : Field} (hf : quiet f) (hbase : ∀ j, f.key ≠ (OE_FLOSS.BASE (portK n) j).key) :
    (s.firstBase n).rd f = s.rd f := by
  unfold State.firstBase
  dsimp only
  split
  · rfl
  · refine ((State.logBase_announced ..).rd hf).trans ((State.rd_congr (forL_keeps State.regs _ (fun f t => t.baseFeed_regs _ f) _ _) f).trans ?_)
    exact forL_keeps (fun t : State => t.rd f) _ (fun j t => t.baseFibre_rd _ j (hbase j)) _ s

/-- A lane that is not good keeps its state: it carries nothing (R358). -/
theorem State.setLanes_hstate (s : State) (n : Nat) {i code : Nat} {good : List Nat} (hbad : i ∉ good) (hwide : widthOf code ≤ good.length) :
    (s.setLanes n code good).hstate n i = s.hstate n i := by
  refine forN_keeps (fun t : State => t.hstate n i) _ (fun x t => ?_) 16 s
  dsimp only
  have hgood (hx : x ∈ good) (v : Nat) : (t.setHstate n x v).hstate n i = t.hstate n i := by
    refine (t.rd_setHstate ..).trans (t.rd_wr_ne v ?_)
    have hne : i ≠ x := fun h => hbad (h ▸ hx)
    dsimp only [OE_LANE_STAT.HSTATE, laneL]
    omega
  split
  · next hcarries =>
    obtain ⟨y, hy, hyx⟩ := List.findIdx_lt_length.mp (Nat.lt_of_lt_of_le hcarries hwide)
    rw [State.hstate_setLogical]
    exact hgood (of_decide_eq_true hyx ▸ hy) 1
  · split
    · next hspare =>
      rw [State.hstate_setLogical]
      exact hgood (by simpa using hspare) 2
    · rw [State.hstate_setLogical]

theorem State.lanesTrained_bad (s : State) (n : Nat) {i : Nat} (hi : i < 16) {rx : List Nat} (hbad : i ∉ rx) : (s.lanesTrained n rx).hstate n i = 3 := by
  have hp := portP_lt n
  have hfailed : (forL ((List.range 16).filter (fun i => !rx.contains i)) (fun i s => s.setHstate n i 3) s).hstate n i = 3 := by
    refine forL_establishes (P := fun _ => True) (Q := fun t : State => t.hstate n i = 3) (fun _ _ _ => trivial) (fun x t ht => ?_) (fun t _ => ?_) (a := i) ?_ trivial
    · rw [State.hstate_setHstate _ _ _ _ (by decide), ht, ite_self]
    · rw [State.hstate_setHstate _ _ _ _ (by decide), if_pos rfl]
    · simpa [hi] using hbad
  refine (forL_keeps (fun t : State => t.hstate n i) _ (fun x t => t.rd_wr_ne 1 ?_) _ _).trans ((State.rd_wr_ne _ _ ?_).trans hfailed)
  · dsimp only [OE_LANE_STAT.HSTATE, OE_LANE_STAT.LOCK]; omega
  · dsimp only [OE_LANE_STAT.HSTATE, OE_PORT_STAT.BAD, laneL]; omega

section Trained

variable {n : Nat} (hn : n < 72)
include hn

/-- Where the outcome of training stands: a lane's state, the port's, and its width. -/
theorem training_quiet {i : Nat} (hi : i < 16) : quiet (OE_LANE_STAT.HSTATE (portK n) (laneL n i)) ∧ quiet (OE_PORT_STAT.STATE (portK n) (portP n)) ∧
    quiet (OE_PORT_STAT.WIDTH (portK n) (portP n)) := by
  have hk := portK_lt hn
  have hp := portP_lt n
  refine ⟨(quiet_lane hk (laneL_lt n hi)).1, ?_, ?_⟩
  · simp only [quiet, OE_PORT_STAT.STATE]; omega
  · simp only [quiet, OE_PORT_STAT.WIDTH]; omega

theorem State.setWidth_width (s : State) {code : Nat} (hcode : code < 4) : (s.setWidth n code).rd (OE_PORT_STAT.WIDTH (portK n) (portP n)) = code := by
  have hwritten := (s.rd_wr_same (OE_PORT_STAT.WIDTH (portK n) (portP n)) code).trans (Nat.mod_eq_of_lt hcode)
  unfold State.setWidth
  dsimp only
  split
  · exact hwritten
  · exact ((State.postPanel_announced ..).rd (training_quiet hn (i := 0) (by decide)).2.2).trans hwritten

/-- A port that training brings UP: its width, its state, and its lanes that failed (R358). -/
theorem State.portTrained_reads (s : State) {rx : List Nat} {w : Nat} (hw : w < 4) (hwide : widthOf w ≤ (trained rx).length) (wt : Nat) (tx : List Nat) :
    let t := s.portTrained n w wt rx tx
    t.pstate n = 2 ∧ t.rd (OE_PORT_STAT.WIDTH (portK n) (portP n)) = w ∧ ∀ i < 16, i ∉ rx → t.hstate n i = s.hstate n i := by
  have hk := portK_lt hn
  have hp := portP_lt n
  have hstate (i : Nat) (hi : i < 16) : offWidth (OE_LANE_STAT.HSTATE (portK n) (laneL n i)) := 
    (laneField.offPorts hk (laneL_lt n hi) (.inr (.inl rfl))).1
  have hkeeps (i : Nat) (hbad : i ∉ rx) : ((s.setLanes n w (trained rx)).setTxLanes n wt (trained tx)).hstate n i = s.hstate n i :=
    s.setLanes_hstate n (fun h => hbad (by simpa using (List.mem_filter.mp h).2)) hwide
  unfold State.portTrained
  generalize (s.setLanes n w (trained rx)).setTxLanes n wt (trained tx) = u at hkeeps ⊢
  have hleaves := (u.setPstate n 2).setWidth_leaves hn w
  refine ⟨?_, ?_, fun i hi hbad => ?_⟩
  · refine (State.firstBase_rd _ n (training_quiet hn (i := 0) (by decide)).2.1 fun j => ?_).trans ((hleaves.2 _ (offWidth_state hn)).trans (u.rd_wr_same _ 2))
    dsimp only [OE_PORT_STAT.STATE, OE_FLOSS.BASE]; omega
  · refine (State.firstBase_rd _ n (training_quiet hn (i := 0) (by decide)).2.2 fun j => ?_).trans ?_
    · dsimp only [OE_PORT_STAT.WIDTH, OE_FLOSS.BASE]; omega
    · exact State.setWidth_width hn _ hw
  · refine (State.firstBase_rd _ n (training_quiet hn hi).1 fun j => ?_).trans ((hleaves.2 _ (hstate i hi)).trans ((u.rd_wr_ne 2 ?_).trans ?_))
    · dsimp only [OE_LANE_STAT.HSTATE, OE_FLOSS.BASE, laneL]; omega
    · dsimp only [OE_LANE_STAT.HSTATE, OE_PORT_STAT.STATE, laneL]; omega
    · exact hkeeps i hbad

/-- Training ends: the lanes that failed are BAD, and the port is UP at the width of the others, or DOWN (R358, R362). -/
theorem execPortTrainingComplete_reads {s : State} (htrains : s.pstate n = 1) (rx tx : List Nat) {i : Nat} (hi : i < 16) :
    let good := (trained rx).length
    let far := (trained tx).length
    ∃ t, execPortTrainingComplete n rx tx s = .next t ∧ (i ∉ rx → t.hstate n i = 3) ∧
      (widthFor good (s.minw n) = 3 ∨ widthFor far (s.minw n) = 3 → t.pstate n = 0) ∧
      (widthFor good (s.minw n) ≠ 3 → widthFor far (s.minw n) ≠ 3 → t.pstate n = 2 ∧
        t.rd (OE_PORT_STAT.WIDTH (portK n) (portP n)) = widthFor good (s.minw n)) := by
  refine ⟨_, execPortTrainingComplete_eq hn htrains rx tx, ?_⟩
  obtain ⟨hqlane, hqstate, hqwidth⟩ := training_quiet hn hi
  obtain ⟨hup, hwidth, hkeeps⟩ := (s.lanesTrained n rx).portTrained_reads hn (widthFor_lt ..) (widthFor_le (trained rx).length (s.minw n))
    (widthFor (trained tx).length (s.minw n)) tx
  have hreported (t : State) {f : Field} (hf : quiet f) : ((forL ((List.range 16).filter (fun i => !rx.contains i)) (fun i s => s.laneBad n i false) t).elsBack
      (elsOf (portK n))).rd f = t.rd f :=
    (State.elsBack_rd _ _ hf).trans (forL_keeps (fun t : State => t.rd f) _ (fun i t => (t.laneBad_announced n i false).rd hf) _ t)
  unfold State.hstate State.pstate at *
  rw [hreported _ hqlane, hreported _ hqstate, hreported _ hqwidth]
  refine ⟨fun hbad => ?_, fun hnone => ?_, fun hgood hfar => ?_⟩
  · have hfailed := s.lanesTrained_bad n hi hbad
    split
    · refine (State.rd_wr_ne _ _ ?_).trans hfailed
      have := portP_lt n
      dsimp only [OE_LANE_STAT.HSTATE, OE_PORT_STAT.STATE, laneL]
      omega
    · exact (hkeeps i hi hbad).trans hfailed
  · rw [if_pos hnone]
    exact State.rd_wr_same _ _ 0
  · rw [if_neg (not_or.mpr ⟨hgood, hfar⟩)]
    exact ⟨hup, hwidth⟩

end Trained

/-! ### The day's statistics (R375) -/

/-- The readings of a key that the day has. -/
def State.readings (s : State) (key : Nat) : Nat := (Tab.get ⟨0, 0, 0, 0⟩ s.opt.margins key).n

theorem State.daily_same (s : State) (key : Nat) (v : Int) : (s.daily key v).readings key = s.readings key + 1 := by
  refine (congrArg Daily.n (Tab.get_set_same ..)).trans ?_
  rw [apply_ite Daily.n]
  split
  · next hnone => exact congrArg (· + 1) hnone.symm
  · rfl

theorem State.daily_other (s : State) {key x : Nat} (hne : x ≠ key) (v : Int) : (s.daily key v).readings x = s.readings x :=
  congrArg Daily.n (Tab.get_set_ne ⟨0, 0, 0, 0⟩ s.opt.margins _ hne)

/-- What a sample leaves: all but the day's statistics. -/
def State.unsampled (s : State) : Tab Nat × List Host.Cell × List Out × Nat := (s.regs, s.mem, s.out, s.opt.day)

/-- The readings of the lanes. -/
def State.lanesSampled (s : State) : State :=
  forN 24 (fun k s => forN 48 (fun l s =>
    let b := 3 * (48 * k + l)
    ((s.daily b (s.rd (OE_LANE_SER.COUNT k l))).daily (b + 1) (s.rd (OE_LANE_LOCK.COUNT k l))).daily (b + 2) (s.rd (OE_LANE_STAT.CROSS k l))) s) s

/-- The readings of the fibres, the feeds and the lasers. -/
def State.opticsSampled (s : State) : State :=
  let s := forN 24 (fun k s => forN 6 (fun j s =>
    let b := 10000 + 3 * (6 * k + j)
    ((s.daily b (sgn 16 (s.rd (OE_FTX.POWER k j)))).daily (b + 1) (sgn 16 (s.rd (OE_FRX.POWER k j)))).daily (b + 2) (s.rd (OE_FLOSS.LOSS k j))) s) s
  let s := forN 24 (fun k s => forN 4 (fun f s =>
    let b := 20000 + 2 * (4 * k + f)
    (s.daily b (sgn 16 (s.rd (OE_FEED.POWER k f)))).daily (b + 1) (s.feedLoss k f)) s) s
  forN 12 (fun m s => forN 8 (fun w s =>
    let b := 30000 + 2 * (8 * m + w)
    (s.daily b (s.rd (OE_ELS_BIAS.BIAS m w))).daily (b + 1) (s.rd (ELS_LAS.COOLER m w))) s) s

/-- The statistics of the day that it is. -/
def State.dayBegun (s : State) : State :=
  if s.opt.day = dayOf s.ptime then s else s.updOpt (fun o => { o with margins := [], day := dayOf s.ptime })

theorem execMarginSample_eq {s : State} (hruns : s.bit GLB_STW_STAT.LOST_BOTH = false) : execMarginSample s = .next s.dayBegun.lanesSampled.opticsSampled := by
  unfold execMarginSample
  rw [hruns, if_neg Bool.false_ne_true]
  rfl

theorem State.daily_unsampled (s : State) (key : Nat) (v : Int) : (s.daily key v).unsampled = s.unsampled := rfl

theorem State.lanesSampled_unsampled (s : State) : s.lanesSampled.unsampled = s.unsampled := by
  refine forN_keeps State.unsampled _ (fun k t => forN_keeps State.unsampled _ (fun l u => ?_) 48 t) 24 s
  dsimp only
  rw [State.daily_unsampled, State.daily_unsampled, State.daily_unsampled]

theorem State.opticsSampled_unsampled (s : State) : s.opticsSampled.unsampled = s.unsampled := by
  refine (forN_keeps State.unsampled _ (fun m t => forN_keeps State.unsampled _ (fun w u => ?_) 8 t) 12 _).trans
    ((forN_keeps State.unsampled _ (fun k t => forN_keeps State.unsampled _ (fun f u => ?_) 4 t) 24 _).trans
      (forN_keeps State.unsampled _ (fun k t => forN_keeps State.unsampled _ (fun j u => ?_) 6 t) 24 s))
  · dsimp only
    rw [State.daily_unsampled, State.daily_unsampled]
  · dsimp only
    rw [State.daily_unsampled, State.daily_unsampled]
  · dsimp only
    rw [State.daily_unsampled, State.daily_unsampled, State.daily_unsampled]

/-- A lane's symbols are read once. -/
theorem State.lanesSampled_readings {k l : Nat} (hk : k < 24) (hl : l < 48) (s : State) :
    s.lanesSampled.readings (3 * (48 * k + l)) = s.readings (3 * (48 * k + l)) + 1 := by
  have hother {x y : Nat} (hy : y < 48) (hne : 48 * x + y ≠ 48 * k + l) (a b c : Int) (t : State) :
      (((t.daily (3 * (48 * x + y)) a).daily (3 * (48 * x + y) + 1) b).daily (3 * (48 * x + y) + 2) c).readings (3 * (48 * k + l)) = t.readings (3 * (48 * k + l)) := by
    rw [State.daily_other _ (by omega), State.daily_other _ (by omega), State.daily_other _ (by omega)]
  refine forN_once (P := fun _ => True) (g := fun t : State => t.readings (3 * (48 * k + l))) (F := (· + 1)) hk (fun _ _ _ _ => trivial) (fun x _ hne t _ => ?_) (fun t _ => ?_) trivial
  · exact forN_preserves_lt (P := fun u : State => u.readings (3 * (48 * k + l)) = t.readings (3 * (48 * k + l)))
      (fun y hy u hu => (hother hy (by omega) _ _ _ u).trans hu) rfl
  · refine forN_once (P := fun _ => True) (g := fun t : State => t.readings (3 * (48 * k + l))) (F := (· + 1)) hl (fun _ _ _ _ => trivial) (fun y hy hne u _ => ?_) (fun u _ => ?_) trivial
    · exact hother hy (by omega) _ _ _ u
    · dsimp only
      rw [State.daily_other _ (by omega), State.daily_other _ (by omega), State.daily_same]

/-- The other readings have keys of their own. -/
theorem State.opticsSampled_readings (s : State) {x : Nat} (hx : x < 10000) : s.opticsSampled.readings x = s.readings x := by
  have hpair {b : Nat} (hb : 10000 ≤ b) (v w : Int) (t : State) : ((t.daily b v).daily (b + 1) w).readings x = t.readings x := by
    rw [State.daily_other _ (by omega), State.daily_other _ (by omega)]
  refine (forN_keeps (fun t : State => t.readings x) _ (fun m t => ?_) 12 _).trans ((forN_keeps (fun t : State => t.readings x) _ (fun k t => ?_) 24 _).trans
    (forN_keeps (fun t : State => t.readings x) _ (fun k t => ?_) 24 s))
  · exact forN_keeps (fun t : State => t.readings x) _ (fun w u => hpair (by omega) _ _ u) 8 t
  · exact forN_keeps (fun t : State => t.readings x) _ (fun f u => hpair (by omega) _ _ u) 4 t
  · refine forN_keeps (fun t : State => t.readings x) _ (fun j u => ?_) 6 t
    dsimp only
    rw [State.daily_other _ (by omega)]
    exact hpair (by omega) _ _ u

theorem State.dayBegun_reads (s : State) (key : Nat) : let t := s.dayBegun
    t.regs = s.regs ∧ t.mem = s.mem ∧ t.out = s.out ∧ t.opt.day = dayOf s.ptime ∧ t.readings key = if s.opt.day = dayOf s.ptime then s.readings key else 0 := by
  unfold State.dayBegun
  dsimp only
  split
  · next hday => exact ⟨rfl, rfl, rfl, hday, rfl⟩
  · exact ⟨rfl, rfl, rfl, rfl, rfl⟩

/-- A sample reads each lane's symbols once, in the statistics of its day (R375). -/
theorem execMarginSample_reads {k l : Nat} (hk : k < 24) (hl : l < 48) {s : State} (hruns : s.bit GLB_STW_STAT.LOST_BOTH = false) :
    ∃ t, execMarginSample s = .next t ∧ t.regs = s.regs ∧ t.mem = s.mem ∧ t.out = s.out ∧ t.opt.day = dayOf s.ptime ∧
      t.readings (3 * (48 * k + l)) = (if s.opt.day = dayOf s.ptime then s.readings (3 * (48 * k + l)) else 0) + 1 := by
  obtain ⟨hregs, hmem, hout, hday, hreadings⟩ := s.dayBegun_reads (3 * (48 * k + l))
  have hkept : s.dayBegun.lanesSampled.opticsSampled.unsampled = s.dayBegun.unsampled := (State.opticsSampled_unsampled _).trans (State.lanesSampled_unsampled _)
  simp only [State.unsampled, Prod.mk.injEq] at hkept
  obtain ⟨kregs, kmem, kout, kday⟩ := hkept
  refine ⟨_, execMarginSample_eq hruns, kregs.trans hregs, kmem.trans hmem, kout.trans hout, kday.trans hday, ?_⟩
  rw [State.opticsSampled_readings _ (by omega), State.lanesSampled_readings hk hl, hreadings]

/-! ### The family of the optical ports -/

theorem satTo_allOnes (w x : Nat) : satTo (allOnes w) x = min (2 ^ w - 1) x := by
  unfold satTo allOnes
  split
  · omega
  · omega

/-- Settles O40: each clause is the lemma about its command; a lane is judged alone among its engine's lanes (`forN_at`), and a swap leaves its port whole
(`SwapDue.whole`). -/
theorem opticalPortsTrainSwitchAndMeasure : Obligations.OpticalPortsTrainSwitchAndMeasure := by
  intro s k l v hk hl n i
  obtain ⟨hn, hK, hL, hi⟩ := lane_place hk hl
  change n < 72 at hn
  change portK n = k at hK
  change laneL n i = l at hL
  have hstate (t : State) : t.hstate n i = t.rd (OE_LANE_STAT.HSTATE k l) := by rw [State.hstate, hK, hL]
  have hfw : (!pfOrFw Src.fw || decide (72 ≤ n)) = false := by simpa [pfOrFw] using hn
  have hels : elsOf (portK n) = k / 2 := congrArg elsOf hK
  refine ⟨fun counts far hin => ?_, fun hnone => ?_, fun o hop hswap => ⟨fun hopen => ?_, fun q j hflit hspare hlane hplace hbad hcarries hstandby hothers hwide => ?_⟩,
    fun o hop hswap hspare far => execLaneSwitchAtFlit_carries hop hswap hspare far, fun hmay => ?_, fun hmay => ?_, fun hup hbad hbare => ⟨?_, ?_⟩,
    fun hv => execBaselineWrite_fibres hk hv s, fun rx tx htrains => execPortTrainingComplete_reads hn htrains rx tx hi,
    fun tx rx feed out hin => execOpticalPowerSample_reads hk hin tx rx feed out, fun j hj => ?_, fun hruns => execMarginSample_reads hk hl hruns,
    fun hlit => ⟨execLaneLockLoss_regained hk hl hlit, execLaneLockLoss_lost hk hl hlit⟩, ?_, fun hdrains => ?_⟩
  · obtain ⟨t, ht, hcount, hcrossed, hfailed⟩ := execLaneHealthInterval_reads hk hl hin ⟨counts, far⟩
    refine ⟨t, ht, hcount.trans (satTo_allOnes 32 _), fun hmany hown hfar hused => ?_⟩
    exact ⟨hcrossed ⟨hmany, hown, hfar, hused⟩, fun hlong _ => (hstate t).trans (hfailed ⟨hmany, hown, hfar, hused⟩ hlong)⟩
  · refine congrArg Host.Outcome.next ?_
    unfold State.giveUpSwap
    rw [hnone]
  · exact congrArg Host.Outcome.next (State.giveUpSwap_narrows hop hopen hswap)
  · exact execLaneSwitchAtFlit_swaps ⟨hop, hswap, hflit, hspare, hlane, hplace, hbad, hcarries, hstandby, hothers, hwide⟩ hn
  · exact if_neg (by rw [hfw, hmay]; decide)
  · exact if_pos (by rw [hmay, Bool.not_false, Bool.or_true])
  · obtain ⟨hspare, hlock, hcross, hmem, hout⟩ := State.retested_reads hk hl (s := s)
    exact ⟨_, execLaneRetest_bad hk hl hup hbad hbare true, hspare, hlock, hcross, hmem, hout⟩
  · exact execLaneRetest_bad hk hl hup hbad hbare false
  · exact if_neg (by omega)
  · exact (if_neg (by omega)).trans (congrArg (fun m => Host.Outcome.next (s.elsReady m)) hels)
  · refine (if_neg (by omega)).trans ?_
    rw [hels]

end Sys2Proof.Machine

/-! PROOFS. The laser modules: their wavelengths, interlocks, light and swaps (R360, R369 to R374, R379, R381, R669). -/

namespace Sys2Proof.Machine

/-! ### A wavelength and its spare (R370) -/

/-- A field of the modules that the switch of wavelength `w` of module `m` leaves, but for REPLACE (R370, R379). -/
structure OffSpare (m w : Nat) (f : Field) : Prop where
  modules : ofModules f
  onSpare : f.key ≠ (OE_ELS_BIAS.ON_SPARE m w).key
  spareFail : f.key ≠ (OE_ELS_BIAS.SPARE_FAIL m w).key
  base : f.key ≠ (OE_ELS_BIAS.BASE m w).key
  failed : f.key ≠ (OE_ELS_STAT.FAILED m).key
  spared : f.key ≠ (OE_ELS_STAT.SPARED m).key
  lasOnSpare : f.key ≠ (ELS_LAS.ON_SPARE m w).key
  lasSpareFail : f.key ≠ (ELS_LAS.SPARE_FAIL m w).key
  statFailed : f.key ≠ (ELS_STAT.FAILED m).key
  statSpared : f.key ≠ (ELS_STAT.SPARED m).key

/-- The switch of a wavelength noted: REPLACE, and the lanes that it spares a crossing (R361, R370). -/
def State.switchNoted (s : State) (m w how : Nat) : State :=
  ((s.noteOpt 3 (8 * m + w) (s.rd (OE_ELS_BIAS.ON_SPARE m w)) how).wr (OE_ELS_STAT.REPLACE m) 1).updOpt (fun o => { o with switched := o.switched ++ [8 * (2 * m) + w, 8 * (2 * m + 1) + w] })

/-- A wavelength with no spare left, before its lanes are told (R370). -/
def State.laserLost (s : State) (m w : Nat) : State :=
  (((s.wr (OE_ELS_BIAS.SPARE_FAIL m w) 1).wrBit (OE_ELS_STAT.FAILED m) w true).wr (ELS_LAS.SPARE_FAIL m w) 1).wrBit (ELS_STAT.FAILED m) w true

/-- A wavelength on its spare, its baseline the spare's (R370). -/
def State.laserSpared (s : State) (m w : Nat) : State :=
  let s := (s.wr (OE_ELS_BIAS.ON_SPARE m w) 1).wrBit (OE_ELS_STAT.SPARED m) w true
  let s := (s.wr (ELS_LAS.ON_SPARE m w) 1).wrBit (ELS_STAT.SPARED m) w true
  s.wr (OE_ELS_BIAS.BASE m w) (Tab.get 0 s.opt.laserBase (16 * m + 2 * w + 1) - 1)

theorem State.switchLaser_eq (s : State) (m w how : Nat) : s.switchLaser m w how =
    let u := s.switchNoted m w how
    if u.bit (OE_ELS_BIAS.ON_SPARE m w) || u.bit (OE_ELS_BIAS.SPARE_FAIL m w) then ((u.laserLost m w).sparedEvent m w 2).darkWave m w
    else (u.sparedEvent m w how).laserSpared m w := rfl

theorem State.sparedEvent_announced (s : State) (m w how : Nat) : Announced s (s.sparedEvent m w how) := s.postPanel_announced ..

theorem State.laserLost_leaves (s : State) (m w : Nat) : Leaves (OffSpare m w) s (s.laserLost m w) :=
  (s.wr_leaves (fun _ hf => hf.spareFail) _).trans ((State.wr_leaves (fun _ hf => hf.failed) _ _).trans
    ((State.wr_leaves (fun _ hf => hf.lasSpareFail) _ _).trans (State.wr_leaves (fun _ hf => hf.statFailed) _ _)))

theorem State.laserSpared_leaves (s : State) (m w : Nat) : Leaves (OffSpare m w) s (s.laserSpared m w) :=
  (s.wr_leaves (fun _ hf => hf.onSpare) _).trans ((State.wr_leaves (fun _ hf => hf.spared) _ _).trans
    ((State.wr_leaves (fun _ hf => hf.lasOnSpare) _ _).trans ((State.wr_leaves (fun _ hf => hf.statSpared) _ _).trans (State.wr_leaves (fun _ hf => hf.base) _ _))))

theorem bitOf_wrBit_true {s : State} {f : Field} {w x : Nat} (hx : x < f.w) : bitOf ((s.wrBit f w true).rd f) x = if x = w then true else bitOf (s.rd f) x := by
  rw [State.wrBit, State.rd_wr_same, bitOf_eq_testBit, bitOf_eq_testBit, Nat.testBit_mod_two_pow, testBit_setBit, decide_eq_true hx, Bool.true_and]

/-- A wavelength that is lost fails, and no other. -/
theorem State.laserLost_reads (s : State) (m w : Nat) : (s.laserLost m w).bit (OE_ELS_BIAS.SPARE_FAIL m w) = true ∧
    ∀ x < 8, bitOf ((s.laserLost m w).rd (OE_ELS_STAT.FAILED m)) x = if x = w then true else bitOf (s.rd (OE_ELS_STAT.FAILED m)) x := by
  constructor
  · refine (State.bit_wr_ne _ _ ?_).trans ((State.bit_wr_ne _ _ ?_).trans ((State.bit_wr_ne _ _ ?_).trans (s.bit_wr_same _ 1 rfl)))
    · dsimp only [OE_ELS_BIAS.SPARE_FAIL, ELS_STAT.FAILED]; omega
    · dsimp only [OE_ELS_BIAS.SPARE_FAIL, ELS_LAS.SPARE_FAIL]; omega
    · dsimp only [OE_ELS_BIAS.SPARE_FAIL, OE_ELS_STAT.FAILED]; omega
  · intro x hx
    have hkept : (s.laserLost m w).rd (OE_ELS_STAT.FAILED m) = ((s.wr (OE_ELS_BIAS.SPARE_FAIL m w) 1).wrBit (OE_ELS_STAT.FAILED m) w true).rd (OE_ELS_STAT.FAILED m) := by
      refine (State.rd_wr_ne _ _ ?_).trans (State.rd_wr_ne _ _ ?_)
      · dsimp only [OE_ELS_STAT.FAILED, ELS_STAT.FAILED]; omega
      · dsimp only [OE_ELS_STAT.FAILED, ELS_LAS.SPARE_FAIL]; omega
    rw [hkept, bitOf_wrBit_true hx, s.rd_wr_ne (f := OE_ELS_BIAS.SPARE_FAIL m w) 1 (by dsimp only [OE_ELS_STAT.FAILED, OE_ELS_BIAS.SPARE_FAIL]; omega)]

/-- A wavelength on its spare is shown so, and none fails. -/
theorem State.laserSpared_reads (s : State) {m w : Nat} (hw : w < 8) : let t := s.laserSpared m w
    t.bit (OE_ELS_BIAS.ON_SPARE m w) = true ∧ bitOf (t.rd (OE_ELS_STAT.SPARED m)) w = true ∧ t.rd (OE_ELS_STAT.FAILED m) = s.rd (OE_ELS_STAT.FAILED m) ∧ t.mem = s.mem := by
  refine ⟨?_, ?_, ?_, rfl⟩
  · refine (State.bit_wr_ne _ _ ?_).trans ((State.bit_wr_ne _ _ ?_).trans ((State.bit_wr_ne _ _ ?_).trans ((State.bit_wr_ne _ _ ?_).trans (s.bit_wr_same _ 1 rfl))))
    · dsimp only [OE_ELS_BIAS.ON_SPARE, OE_ELS_BIAS.BASE]; omega
    · dsimp only [OE_ELS_BIAS.ON_SPARE, ELS_STAT.SPARED]; omega
    · dsimp only [OE_ELS_BIAS.ON_SPARE, ELS_LAS.ON_SPARE]; omega
    · dsimp only [OE_ELS_BIAS.ON_SPARE, OE_ELS_STAT.SPARED]; omega
  · refine (congrArg (bitOf · w) ((State.rd_wr_ne _ _ ?_).trans ((State.rd_wr_ne _ _ ?_).trans (State.rd_wr_ne _ _ ?_)))).trans ((bitOf_wrBit_true hw).trans (if_pos rfl))
    · dsimp only [OE_ELS_STAT.SPARED, OE_ELS_BIAS.BASE]; omega
    · dsimp only [OE_ELS_STAT.SPARED, ELS_STAT.SPARED]; omega
    · dsimp only [OE_ELS_STAT.SPARED, ELS_LAS.ON_SPARE]; omega
  · refine (State.rd_wr_ne _ _ ?_).trans ((State.rd_wr_ne _ _ ?_).trans ((State.rd_wr_ne _ _ ?_).trans ((State.rd_wr_ne _ _ ?_).trans (s.rd_wr_ne _ ?_))))
    · dsimp only [OE_ELS_STAT.FAILED, OE_ELS_BIAS.BASE]; omega
    · dsimp only [OE_ELS_STAT.FAILED, ELS_STAT.SPARED]; omega
    · dsimp only [OE_ELS_STAT.FAILED, ELS_LAS.ON_SPARE]; omega
    · dsimp only [OE_ELS_STAT.FAILED, OE_ELS_STAT.SPARED]; omega
    · dsimp only [OE_ELS_STAT.FAILED, OE_ELS_BIAS.ON_SPARE]; omega

section Module

variable {m w : Nat} (hm : m < 12) (hw : w < 8)
include hm hw

/-- The lanes of a wavelength, told that it is out, change beside the modules. -/
theorem State.darkWave_leaves (s : State) : Leaves ofModules s (s.darkWave m w) := by
  refine Leaves.trans (forL_leaves (fun n hn t => forL_leaves (fun i hi u => ?_) t) s) (forL_leaves (fun n hn t => ?_) _)
  · have hi16 : i < 16 := by
      simp only [List.mem_cons, List.not_mem_nil, or_false] at hi
      omega
    exact ((u.failLane_leaves (elsPorts_lt hm hn) hi16).mono fun _ hf => hf.offLanes).ite (Leaves.refl _ u)
  · exact (t.mend_leaves (elsPorts_lt hm hn)).mono fun _ hf => hf.offPorts

/-- What a wavelength that is lost, or goes to its spare, leaves after the switch is noted. -/
theorem State.switchLaser_noted (s : State) (how : Nat) : Leaves (OffSpare m w) (s.switchNoted m w how) (s.switchLaser m w how) := by
  have hevent (t : State) (how : Nat) : Leaves (OffSpare m w) t (t.sparedEvent m w how) := (t.sparedEvent_announced m w how).leaves fun _ hf => hf.modules.offTraffic
  rw [s.switchLaser_eq]
  exact ((State.laserLost_leaves _ m w).trans ((hevent _ 2).trans ((State.darkWave_leaves hm hw _).mono fun _ hf => hf.modules))).ite
    ((hevent _ how).trans (State.laserSpared_leaves _ m w))

theorem State.switchLaser_leaves (s : State) (how : Nat) : Leaves (fun f => OffSpare m w f ∧ f.key ≠ (OE_ELS_STAT.REPLACE m).key) s (s.switchLaser m w how) := by
  refine Leaves.trans ?_ ((s.switchLaser_noted hm hw how).mono fun _ hf => hf.1)
  exact (State.noteOpt_leaves ..).trans ((State.wr_leaves (fun _ hf => hf.2) _ _).trans (Leaves.of_eq rfl rfl))

omit hm hw in
/-- REPLACE is asked for at every switch (R370). -/
theorem offSpare_replace (m w : Nat) : OffSpare m w (OE_ELS_STAT.REPLACE m) := by
  refine ⟨?_, ?_, ?_, ?_, ?_, ?_, ?_, ?_, ?_, ?_⟩
  · simp only [ofModules, OE_ELS_STAT.REPLACE]
    omega
  all_goals dsimp only [OE_ELS_STAT.REPLACE, OE_ELS_BIAS.ON_SPARE, OE_ELS_BIAS.SPARE_FAIL, OE_ELS_BIAS.BASE, OE_ELS_STAT.FAILED, OE_ELS_STAT.SPARED, ELS_LAS.ON_SPARE, ELS_LAS.SPARE_FAIL, ELS_STAT.FAILED, ELS_STAT.SPARED]; omega

omit hm hw in
/-- The switch noted, the wavelength has the lasers that it had. -/
theorem State.switchNoted_bit (s : State) (how : Nat) : let t := s.switchNoted m w how
    t.bit (OE_ELS_BIAS.ON_SPARE m w) = s.bit (OE_ELS_BIAS.ON_SPARE m w) ∧ t.bit (OE_ELS_BIAS.SPARE_FAIL m w) = s.bit (OE_ELS_BIAS.SPARE_FAIL m w) :=
  ⟨State.bit_wr_ne _ 1 (by dsimp only [OE_ELS_BIAS.ON_SPARE, OE_ELS_STAT.REPLACE]; omega),
    State.bit_wr_ne _ 1 (by dsimp only [OE_ELS_BIAS.SPARE_FAIL, OE_ELS_STAT.REPLACE]; omega)⟩

theorem State.switchLaser_replace (s : State) (how : Nat) : (s.switchLaser m w how).bit (OE_ELS_STAT.REPLACE m) = true :=
  ((s.switchLaser_noted hm hw how).bit (offSpare_replace m w)).trans (State.bit_wr_same _ _ 1 rfl)

theorem ofModules_laser : ofModules (OE_ELS_STAT.FAILED m) ∧ ofModules (OE_ELS_BIAS.SPARE_FAIL m w) := by
  simp only [ofModules, OE_ELS_STAT.FAILED, OE_ELS_BIAS.SPARE_FAIL]
  omega

/-- The switch of one wavelength fails no other. -/
theorem State.switchLaser_failed {x : Nat} (hx : x < 8) (hne : x ≠ w) (s : State) (how : Nat) :
    bitOf ((s.switchLaser m w how).rd (OE_ELS_STAT.FAILED m)) x = bitOf (s.rd (OE_ELS_STAT.FAILED m)) x := by
  obtain ⟨hmodules, -⟩ := ofModules_laser hm hw
  have hnoted : (s.switchNoted m w how).rd (OE_ELS_STAT.FAILED m) = s.rd (OE_ELS_STAT.FAILED m) :=
    State.rd_wr_ne _ 1 (by dsimp only [OE_ELS_STAT.FAILED, OE_ELS_STAT.REPLACE]; omega)
  have hevent (t : State) (how : Nat) : (t.sparedEvent m w how).rd (OE_ELS_STAT.FAILED m) = t.rd (OE_ELS_STAT.FAILED m) :=
    (t.sparedEvent_announced m w how).rd hmodules.offTraffic.1
  rw [s.switchLaser_eq]
  dsimp only
  split
  · rw [(State.darkWave_leaves hm hw _).2 _ hmodules, hevent, (State.laserLost_reads ..).2 x hx, if_neg hne, hnoted]
  · rw [(State.laserSpared_reads _ hw).2.2.1, hevent, hnoted]

omit hm in
/-- A wavelength on its primary laser goes to its spare (R370). -/
theorem State.switchLaser_spares {s : State} (hon : s.bit (OE_ELS_BIAS.ON_SPARE m w) = false) (hgood : s.bit (OE_ELS_BIAS.SPARE_FAIL m w) = false) (how : Nat) :
    let t := s.switchLaser m w how
    t.bit (OE_ELS_BIAS.ON_SPARE m w) = true ∧ bitOf (t.rd (OE_ELS_STAT.SPARED m)) w = true ∧ t.mem = s.mem := by
  obtain ⟨non, ngood⟩ := s.switchNoted_bit (m := m) (w := w) how
  have hspares : s.switchLaser m w how = ((s.switchNoted m w how).sparedEvent m w how).laserSpared m w := by
    rw [s.switchLaser_eq]
    exact if_neg (by rw [non, hon, ngood, hgood]; decide)
  obtain ⟨hspare, hshown, -, hmem⟩ := ((s.switchNoted m w how).sparedEvent m w how).laserSpared_reads (m := m) hw
  rw [hspares]
  exact ⟨hspare, hshown, hmem.trans (State.sparedEvent_announced _ m w how).mem⟩

/-- A wavelength on its spare is out (R370). -/
theorem State.switchLaser_loses {s : State} (hon : s.bit (OE_ELS_BIAS.ON_SPARE m w) = true) (how : Nat) :
    let t := s.switchLaser m w how
    t.bit (OE_ELS_BIAS.SPARE_FAIL m w) = true ∧ bitOf (t.rd (OE_ELS_STAT.FAILED m)) w = true := by
  obtain ⟨hfailed, hspare⟩ := ofModules_laser hm hw
  obtain ⟨non, -⟩ := s.switchNoted_bit (m := m) (w := w) how
  have hloses : s.switchLaser m w how = (((s.switchNoted m w how).laserLost m w).sparedEvent m w 2).darkWave m w := by
    rw [s.switchLaser_eq]
    exact if_pos (by rw [non, hon, Bool.true_or])
  have hleaves : Leaves ofModules ((s.switchNoted m w how).laserLost m w) (s.switchLaser m w how) :=
    hloses ▸ ((State.sparedEvent_announced _ m w 2).leaves fun _ hf => hf.offTraffic).trans (State.darkWave_leaves hm hw _)
  obtain ⟨hlost, hshown⟩ := (s.switchNoted m w how).laserLost_reads m w
  refine ⟨(hleaves.bit hspare).trans hlost, ?_⟩
  rw [hleaves.2 _ hfailed, hshown w hw, if_pos rfl]

end Module

/-! ### The lasers measured (R369) -/

/-- A field of the modules that the measures of wavelength `w` of module `m` leave. -/
structure OffMeasure (m w : Nat) (f : Field) : Prop where
  modules : ofModules f
  bias : f.key ≠ (OE_ELS_BIAS.BIAS m w).key
  base : f.key ≠ (OE_ELS_BIAS.BASE m w).key
  lasBias : f.key ≠ (ELS_LAS.BIAS m w).key

/-- The bias of a wavelength's active laser, and its baseline. -/
def State.laserMeasured (s : State) (m w b : Nat) : State := ((s.wr (OE_ELS_BIAS.BIAS m w) b).wr (ELS_LAS.BIAS m w) b).baseLaser m w b

/-- Does a bias of `b` lie `pct` per cent above its baseline? -/
def State.biasPast (s : State) (m w b pct : Nat) : Bool := decide (s.rd (OE_ELS_BIAS.BASE m w) * (100 + pct) < b % 65536 * 100)

/-- LASER_WARN at a bias past the warning (R369). -/
def State.laserWarned (s : State) (m w b : Nat) : State :=
  if s.biasPast m w b (s.rd (OE_ELS_CFG.WARN_PCT m)) && !s.opt.warned.contains (8 * m + w) then
    (s.updOpt (fun o => { o with warned := o.warned ++ [8 * m + w] })).postPanel 0x0304 31 0
      (leBytes 1 m ++ leBytes 1 w ++ leBytes 2 0 ++ leBytes 2 b ++ leBytes 2 (s.rd (OE_ELS_BIAS.BASE m w)))
  else s

/-- Wavelength `w` of a trend check: measured where it has not FAILED, and switched where its laser is at its end (R369, R381). -/
def laserChecked (m : Nat) (reads : LaserReads) (weak : List Nat) (w : Nat) (s : State) : State :=
  let b := reads.bias.getD w 0
  let s := s.wr (ELS_LAS.COOLER m w) (reads.cooler.getD w 0)
  if bitOf (s.rd (OE_ELS_STAT.FAILED m)) w then s
  else
    let u := s.laserMeasured m w b
    let v := u.laserWarned m w b
    if (u.biasPast m w b (v.rd (OE_ELS_CFG.EOL_PCT m)) || weak.contains w) && decide (Tab.get 0 v.opt.swap m ≠ 1) then v.switchLaser m w 0 else v

theorem execLaserTrendCheck_eq {s : State} {m : Nat} (hm : m < 12) (hon : s.rd (OE_ELS_STAT.STATE m) = 2) (reads : LaserReads) (weak : List Nat) :
    execLaserTrendCheck m reads weak s =
      let t := forN 8 (laserChecked m reads weak) s
      .next (if t.opt.laserBase = s.opt.laserBase then t else t.logLaser m) := by
  unfold execLaserTrendCheck
  rw [if_neg (by omega)]
  rfl

/-- A baseline changes BASE alone. -/
theorem State.baseLaser_leaves (s : State) (m w b : Nat) : Leaves (fun f => f.key ≠ (OE_ELS_BIAS.BASE m w).key) s (s.baseLaser m w b) := by
  have hwr (t : State) (v : Nat) : Leaves (fun f => f.key ≠ (OE_ELS_BIAS.BASE m w).key) t (t.wr (OE_ELS_BIAS.BASE m w) v) := t.wr_leaves (fun _ hf => hf) v
  unfold State.baseLaser
  dsimp only
  split
  · exact (State.updOpt_leaves (fun _ => rfl) s).trans (hwr _ _)
  · exact hwr s _

theorem State.laserMeasured_leaves (s : State) (m w b : Nat) : Leaves (OffMeasure m w) s (s.laserMeasured m w b) :=
  (s.wr_leaves (fun _ hf => hf.bias) b).trans ((State.wr_leaves (fun _ hf => hf.lasBias) _ b).trans ((State.baseLaser_leaves ..).mono fun _ hf => hf.base))

theorem State.laserMeasured_bias (s : State) (m w b : Nat) : (s.laserMeasured m w b).rd (OE_ELS_BIAS.BIAS m w) = b % 2 ^ 16 :=
  ((State.baseLaser_leaves ..).2 _ (by dsimp only [OE_ELS_BIAS.BIAS, OE_ELS_BIAS.BASE]; omega)).trans
    ((State.rd_wr_ne _ _ (by dsimp only [OE_ELS_BIAS.BIAS, ELS_LAS.BIAS]; omega)).trans (s.rd_wr_same ..))

theorem State.laserWarned_leaves (s : State) (m w b : Nat) : Leaves ofModules s (s.laserWarned m w b) := by
  unfold State.laserWarned
  refine Leaves.ite (Leaves.trans (State.updOpt_leaves ?_ s) ((State.postPanel_announced ..).leaves fun _ hf => hf.offTraffic)) (Leaves.refl _ s)
  exact fun _ => rfl

/-- A wavelength measured, before any switch. -/
def State.laserSeen (s : State) (m w : Nat) (reads : LaserReads) : State :=
  ((s.wr (ELS_LAS.COOLER m w) (reads.cooler.getD w 0)).laserMeasured m w (reads.bias.getD w 0)).laserWarned m w (reads.bias.getD w 0)

/-- A field that the check of a wavelength leaves. -/
structure OffCheck (m w : Nat) (f : Field) : Prop where
  measure : OffMeasure m w f
  cooler : f.key ≠ (ELS_LAS.COOLER m w).key
  spare : OffSpare m w f
  replace : f.key ≠ (OE_ELS_STAT.REPLACE m).key

section Check

variable {m w : Nat} (hm : m < 12) (hw : w < 8)
include hm hw

/-- The registers of one wavelength are no business of another's check. -/
theorem offCheck_other {x : Nat} (hx : x < 8) (hne : x ≠ w) {f : Field}
    (hf : f.key / 64 = (OE_ELS_BIAS.BIAS m w).key / 64 ∨ f.key / 64 = (ELS_LAS.BIAS m w).key / 64) : OffCheck m x f := by
  simp only [OE_ELS_BIAS.BIAS, ELS_LAS.BIAS] at hf
  have hmodules : ofModules f := by
    simp only [ofModules]
    omega
  refine ⟨⟨hmodules, ?_, ?_, ?_⟩, ?_, ⟨hmodules, ?_, ?_, ?_, ?_, ?_, ?_, ?_, ?_, ?_⟩, ?_⟩
  · dsimp only [OE_ELS_BIAS.BIAS]; omega
  · dsimp only [OE_ELS_BIAS.BASE]; omega
  · dsimp only [ELS_LAS.BIAS]; omega
  · dsimp only [ELS_LAS.COOLER]; omega
  · dsimp only [OE_ELS_BIAS.ON_SPARE]; omega
  · dsimp only [OE_ELS_BIAS.SPARE_FAIL]; omega
  · dsimp only [OE_ELS_BIAS.BASE]; omega
  · dsimp only [OE_ELS_STAT.FAILED]; omega
  · dsimp only [OE_ELS_STAT.SPARED]; omega
  · dsimp only [ELS_LAS.ON_SPARE]; omega
  · dsimp only [ELS_LAS.SPARE_FAIL]; omega
  · dsimp only [ELS_STAT.FAILED]; omega
  · dsimp only [ELS_STAT.SPARED]; omega
  · dsimp only [OE_ELS_STAT.REPLACE]; omega

/-- What a wavelength measured shows: bias and cooler; and what its measures leave. -/
theorem State.laserSeen_reads (s : State) (reads : LaserReads) : let t := s.laserSeen m w reads
    t.rd (OE_ELS_BIAS.BIAS m w) = reads.bias.getD w 0 % 2 ^ 16 ∧ t.rd (ELS_LAS.COOLER m w) = reads.cooler.getD w 0 % 2 ^ 16 ∧
      Leaves (fun f => OffMeasure m w f ∧ f.key ≠ (ELS_LAS.COOLER m w).key) s t := by
  have hwarned (t : State) := t.laserWarned_leaves m w (reads.bias.getD w 0)
  have hbias : ofModules (OE_ELS_BIAS.BIAS m w) := by
    simp only [ofModules, OE_ELS_BIAS.BIAS]
    omega
  have hcooler : OffMeasure m w (ELS_LAS.COOLER m w) := by
    refine ⟨?_, ?_, ?_, ?_⟩
    · simp only [ofModules, ELS_LAS.COOLER]; omega
    · dsimp only [ELS_LAS.COOLER, OE_ELS_BIAS.BIAS]; omega
    · dsimp only [ELS_LAS.COOLER, OE_ELS_BIAS.BASE]; omega
    · dsimp only [ELS_LAS.COOLER, ELS_LAS.BIAS]; omega
  refine ⟨?_, ?_, ?_⟩
  · exact ((hwarned _).2 _ hbias).trans (State.laserMeasured_bias ..)
  · exact ((hwarned _).2 _ hcooler.modules).trans (((State.laserMeasured_leaves ..).2 _ hcooler).trans (s.rd_wr_same ..))
  · exact (s.wr_leaves (fun _ hf => hf.2) _).trans (((State.laserMeasured_leaves ..).mono fun _ hf => hf.1).trans ((hwarned _).mono fun _ hf => hf.1.modules))

omit hm hw in
/-- A check ends measured alone, or with a switch; a wavelength that has FAILED has its cooler read. -/
theorem laserChecked_cases (reads : LaserReads) (weak : List Nat) (s : State) :
    laserChecked m reads weak w s = s.wr (ELS_LAS.COOLER m w) (reads.cooler.getD w 0) ∨ laserChecked m reads weak w s = s.laserSeen m w reads ∨
      laserChecked m reads weak w s = (s.laserSeen m w reads).switchLaser m w 0 := by
  unfold laserChecked
  dsimp only
  split
  · exact .inl rfl
  · split
    · exact .inr (.inr rfl)
    · exact .inr (.inl rfl)

theorem laserChecked_leaves (reads : LaserReads) (weak : List Nat) (s : State) : Leaves (OffCheck m w) s (laserChecked m reads weak w s) := by
  have hseen : Leaves (OffCheck m w) s (s.laserSeen m w reads) := (s.laserSeen_reads hm hw reads).2.2.mono fun _ hf => ⟨hf.measure, hf.cooler⟩
  rcases laserChecked_cases (m := m) (w := w) reads weak s with h | h | h
  · exact h ▸ s.wr_leaves (fun _ hf => hf.cooler) _
  · exact h ▸ hseen
  · exact h ▸ hseen.trans ((State.switchLaser_leaves hm hw _ 0).mono fun _ hf => ⟨hf.spare, hf.replace⟩)

end Check

/-- The registers of a module above its wavelengths, which the measures leave: which have FAILED, REPLACE, STATE, and LASER_EN. -/
theorem offMeasure_module {m : Nat} (hm : m < 12) {w : Nat} (hw : w < 8) {f : Field}
    (hf : f.key = (OE_ELS_STAT.FAILED m).key ∨ f.key = (OE_ELS_STAT.REPLACE m).key ∨ f.key = (OE_ELS_STAT.STATE m).key ∨ f.key = (ELS_CTL.LASER_EN m).key) :
    OffMeasure m w f ∧ f.key ≠ (ELS_LAS.COOLER m w).key := by
  simp only [OE_ELS_STAT.FAILED, OE_ELS_STAT.REPLACE, OE_ELS_STAT.STATE, ELS_CTL.LASER_EN] at hf
  refine ⟨⟨?_, ?_, ?_, ?_⟩, ?_⟩
  · simp only [ofModules]; omega
  · dsimp only [OE_ELS_BIAS.BIAS]; omega
  · dsimp only [OE_ELS_BIAS.BASE]; omega
  · dsimp only [ELS_LAS.BIAS]; omega
  · dsimp only [ELS_LAS.COOLER]; omega

/-- Wavelength `w` of `t` is that of `s`, before its own check comes. -/
structure LaserStands (m w : Nat) (s t : State) : Prop where
  swap : Tab.get 0 t.opt.swap m = Tab.get 0 s.opt.swap m
  failed : bitOf (t.rd (OE_ELS_STAT.FAILED m)) w = bitOf (s.rd (OE_ELS_STAT.FAILED m)) w
  onSpare : t.bit (OE_ELS_BIAS.ON_SPARE m w) = s.bit (OE_ELS_BIAS.ON_SPARE m w)
  spareFail : t.bit (OE_ELS_BIAS.SPARE_FAIL m w) = s.bit (OE_ELS_BIAS.SPARE_FAIL m w)

/-- Does the check of `s` switch wavelength `w` to its spare? -/
def Weak (s : State) (m w : Nat) (weak : List Nat) : Prop :=
  w ∈ weak ∧ Tab.get 0 s.opt.swap m ≠ 1 ∧ s.bit (OE_ELS_BIAS.ON_SPARE m w) = false ∧ s.bit (OE_ELS_BIAS.SPARE_FAIL m w) = false

/-- What the check of a wavelength of `s` leaves. -/
structure LaserFound (s : State) (m w : Nat) (reads : LaserReads) (weak : List Nat) (t : State) : Prop where
  bias : t.rd (OE_ELS_BIAS.BIAS m w) = reads.bias.getD w 0 % 2 ^ 16
  cooler : t.rd (ELS_LAS.COOLER m w) = reads.cooler.getD w 0 % 2 ^ 16
  spared : Weak s m w weak → t.bit (OE_ELS_BIAS.ON_SPARE m w) = true ∧ t.bit (OE_ELS_STAT.REPLACE m) = true

section Found

variable {m w : Nat} (hm : m < 12) (hw : w < 8) {reads : LaserReads} {weak : List Nat}
include hm hw

/-- Another wavelength's check leaves this one. -/
theorem laserChecked_stands {x : Nat} (hx : x < 8) (hne : x ≠ w) (s : State) : LaserStands m w s (laserChecked m reads weak x s) := by
  have hleaves := laserChecked_leaves hm hx reads weak s
  have hother {f : Field} (hf : f.key / 64 = (OE_ELS_BIAS.BIAS m w).key / 64) : OffCheck m x f := offCheck_other hm hw hx hne (.inl hf)
  have hfailed : (s.laserSeen m x reads).rd (OE_ELS_STAT.FAILED m) = s.rd (OE_ELS_STAT.FAILED m) := (s.laserSeen_reads hm hx reads).2.2.2 _ (offMeasure_module hm hx (.inl rfl))
  refine ⟨congrArg (Tab.get 0 · m) hleaves.1, ?_, hleaves.bit (hother ?_), hleaves.bit (hother ?_)⟩
  · rcases laserChecked_cases (m := m) (w := x) reads weak s with h | h | h
    · rw [h, s.rd_wr_ne _ (offMeasure_module hm hx (.inl rfl)).2]
    · rw [h, hfailed]
    · rw [h, State.switchLaser_failed hm hx hw hne.symm, hfailed]
  · dsimp only [OE_ELS_BIAS.BIAS, OE_ELS_BIAS.ON_SPARE]; omega
  · dsimp only [OE_ELS_BIAS.BIAS, OE_ELS_BIAS.SPARE_FAIL]; omega

/-- A wavelength that has not FAILED is measured, and where it is weak, with no swap begun, it is switched (R369, R381). -/
theorem laserChecked_good {u : State} (hgood : bitOf (u.rd (OE_ELS_STAT.FAILED m)) w = false) :
    (laserChecked m reads weak w u = u.laserSeen m w reads ∨ laserChecked m reads weak w u = (u.laserSeen m w reads).switchLaser m w 0) ∧
    (w ∈ weak → Tab.get 0 u.opt.swap m ≠ 1 → laserChecked m reads weak w u = (u.laserSeen m w reads).switchLaser m w 0) := by
  have hread : bitOf ((u.wr (ELS_LAS.COOLER m w) (reads.cooler.getD w 0)).rd (OE_ELS_STAT.FAILED m)) w = false := by
    rwa [u.rd_wr_ne _ (offMeasure_module hm hw (.inl rfl)).2]
  have hswap : Tab.get 0 (u.laserSeen m w reads).opt.swap m = Tab.get 0 u.opt.swap m := congrArg (Tab.get 0 · m) (u.laserSeen_reads hm hw reads).2.2.1
  unfold laserChecked
  dsimp only
  rw [hread, if_neg Bool.false_ne_true]
  refine ⟨?_, fun hweak hnone => if_pos ?_⟩
  · split
    · exact .inr rfl
    · exact .inl rfl
  · rw [show weak.contains w = true by simpa using hweak, Bool.or_true, Bool.true_and]
    exact decide_eq_true (hswap.trans_ne hnone)

/-- What a switch leaves of its wavelength: bias and cooler. -/
theorem offSpare_measures {f : Field} (hf : f.key = (OE_ELS_BIAS.BIAS m w).key ∨ f.key = (ELS_LAS.COOLER m w).key) :
    OffSpare m w f ∧ f.key ≠ (OE_ELS_STAT.REPLACE m).key := by
  simp only [OE_ELS_BIAS.BIAS, ELS_LAS.COOLER] at hf
  refine ⟨⟨?_, ?_, ?_, ?_, ?_, ?_, ?_, ?_, ?_, ?_⟩, ?_⟩
  · simp only [ofModules]; omega
  · dsimp only [OE_ELS_BIAS.ON_SPARE]; omega
  · dsimp only [OE_ELS_BIAS.SPARE_FAIL]; omega
  · dsimp only [OE_ELS_BIAS.BASE]; omega
  · dsimp only [OE_ELS_STAT.FAILED]; omega
  · dsimp only [OE_ELS_STAT.SPARED]; omega
  · dsimp only [ELS_LAS.ON_SPARE]; omega
  · dsimp only [ELS_LAS.SPARE_FAIL]; omega
  · dsimp only [ELS_STAT.FAILED]; omega
  · dsimp only [ELS_STAT.SPARED]; omega
  · dsimp only [OE_ELS_STAT.REPLACE]; omega

/-- What the measures leave of their wavelength: which of its lasers is in use, and whether its spare has failed. -/
theorem offMeasure_spare {f : Field} (hf : f.key = (OE_ELS_BIAS.ON_SPARE m w).key ∨ f.key = (OE_ELS_BIAS.SPARE_FAIL m w).key) :
    OffMeasure m w f ∧ f.key ≠ (ELS_LAS.COOLER m w).key := by
  simp only [OE_ELS_BIAS.ON_SPARE, OE_ELS_BIAS.SPARE_FAIL] at hf
  refine ⟨⟨?_, ?_, ?_, ?_⟩, ?_⟩
  · simp only [ofModules]; omega
  · dsimp only [OE_ELS_BIAS.BIAS]; omega
  · dsimp only [OE_ELS_BIAS.BASE]; omega
  · dsimp only [ELS_LAS.BIAS]; omega
  · dsimp only [ELS_LAS.COOLER]; omega

/-- A wavelength is checked by its measures, and where it is weak it goes to its spare (R369, R370). -/
theorem laserChecked_own {s u : State} (hlaser : bitOf (s.rd (OE_ELS_STAT.FAILED m)) w = false) (hstands : LaserStands m w s u) :
    LaserFound s m w reads weak (laserChecked m reads weak w u) := by
  obtain ⟨hswap, hfailed, honspare, hsparefail⟩ := hstands
  obtain ⟨hbias, hcooler, hseen⟩ := u.laserSeen_reads hm hw reads
  obtain ⟨hcases, hweak⟩ := laserChecked_good hm hw (reads := reads) (weak := weak) (hfailed.trans hlaser)
  have hkept := (State.switchLaser_leaves hm hw (u.laserSeen m w reads) 0).2
  refine ⟨?_, ?_, fun ⟨hmem, hnone, hprimary, hspare⟩ => ?_⟩
  · rcases hcases with h | h
    · rw [h, hbias]
    · rw [h, hkept _ (offSpare_measures hm hw (.inl rfl)), hbias]
  · rcases hcases with h | h
    · rw [h, hcooler]
    · rw [h, hkept _ (offSpare_measures hm hw (.inr rfl)), hcooler]
  · rw [hweak hmem (hswap.trans_ne hnone)]
    refine ⟨(State.switchLaser_spares hw ?_ ?_ 0).1, State.switchLaser_replace hm hw _ 0⟩
    · exact (hseen.bit (offMeasure_spare hm hw (.inl rfl))).trans (honspare.trans hprimary)
    · exact (hseen.bit (offMeasure_spare hm hw (.inr rfl))).trans (hsparefail.trans hspare)

/-- Another wavelength's check leaves what this one's has found. -/
theorem LaserFound.other {x : Nat} (hx : x < 8) (hne : x ≠ w) {s t : State} (h : LaserFound s m w reads weak t) :
    LaserFound s m w reads weak (laserChecked m reads weak x t) := by
  have hleaves := laserChecked_leaves hm hx reads weak t
  have hother {f : Field} (hf : f.key / 64 = (OE_ELS_BIAS.BIAS m w).key / 64 ∨ f.key / 64 = (ELS_LAS.BIAS m w).key / 64) : OffCheck m x f := offCheck_other hm hw hx hne hf
  obtain ⟨hbias, hcooler, hspared⟩ := h
  refine ⟨(hleaves.2 _ (hother (.inl rfl))).trans hbias, (hleaves.2 _ (hother (.inr ?_))).trans hcooler, fun hweak => ⟨(hleaves.bit (hother (.inl ?_))).trans (hspared hweak).1, ?_⟩⟩
  · dsimp only [ELS_LAS.COOLER, ELS_LAS.BIAS]; omega
  · dsimp only [OE_ELS_BIAS.ON_SPARE, OE_ELS_BIAS.BIAS]; omega
  · have hreplace := (hspared hweak).2
    rcases laserChecked_cases (m := m) (w := x) reads weak t with h | h | h
    · rw [h, t.bit_wr_ne _ (offMeasure_module hm hx (.inr (.inl rfl))).2, hreplace]
    · rw [h, (t.laserSeen_reads hm hx reads).2.2.bit (offMeasure_module hm hx (.inr (.inl rfl))), hreplace]
    · rw [h, State.switchLaser_replace hm hx]

/-- What is announced after a check leaves what it found. -/
theorem LaserFound.announced {s t u : State} (h : LaserFound s m w reads weak t) (hann : Announced t u) : LaserFound s m w reads weak u := by
  have hquiet {f : Field} (hf : ofModules f) : quiet f := hf.offTraffic.1
  obtain ⟨hbias, hcooler, hspared⟩ := h
  refine ⟨(hann.rd (hquiet (offSpare_measures hm hw (.inl rfl)).1.modules)).trans hbias, (hann.rd (hquiet (offSpare_measures hm hw (.inr rfl)).1.modules)).trans hcooler,
    fun hweak => ⟨(hann.bit (hquiet (offMeasure_spare hm hw (.inl rfl)).1.modules)).trans (hspared hweak).1, ?_⟩⟩
  exact (hann.bit (hquiet (offSpare_replace m w).modules)).trans (hspared hweak).2

/-- The module's lasers are checked, each as it was before the check (R369). -/
theorem execLaserTrendCheck_finds {s : State} (hon : s.rd (OE_ELS_STAT.STATE m) = 2) (hlaser : bitOf (s.rd (OE_ELS_STAT.FAILED m)) w = false)
    (reads : LaserReads) (weak : List Nat) : ∃ t, execLaserTrendCheck m reads weak s = .next t ∧ LaserFound s m w reads weak t := by
  refine ⟨_, execLaserTrendCheck_eq hm hon reads weak, ?_⟩
  have hfound : LaserFound s m w reads weak (forN 8 (laserChecked m reads weak) s) := by
    refine forN_at (P := LaserStands m w s) hw (fun x hx hne t ht => ?_) (fun t ht => laserChecked_own hm hw hlaser ht) (fun x hx hne t ht => ht.other hm hw hx hne) ⟨rfl, rfl, rfl, rfl⟩
    obtain ⟨h1, h2, h3, h4⟩ := laserChecked_stands hm hw hx hne t (reads := reads) (weak := weak)
    exact ⟨h1.trans ht.swap, h2.trans ht.failed, h3.trans ht.onSpare, h4.trans ht.spareFail⟩
  exact hfound.announced hm hw ((Announced.refl _).ite (State.logWrite_announced ..))

end Found

/-! ### The light of a module: interlock, insertion, warm-up (R371 to R374) -/

/-- The states of a module: in place, verified, its lasers' state, and lit. -/
def modStatus (k : Nat) (f : Field) : Prop :=
  f.key = (OE_ELS_STAT.PRESENT k).key ∨ f.key = (OE_ELS_STAT.VERIFIED k).key ∨ f.key = (OE_ELS_STAT.STATE k).key ∨ f.key = (ELS_CTL.LASER_EN k).key

theorem modStatus.modules {k : Nat} (hk : k < 12) {f : Field} (hf : modStatus k f) : ofModules f := by
  simp only [modStatus, OE_ELS_STAT.PRESENT, OE_ELS_STAT.VERIFIED, OE_ELS_STAT.STATE, ELS_CTL.LASER_EN] at hf
  simp only [ofModules]
  omega

theorem State.elsEvent_announced (s : State) (k phase : Nat) : Announced s (s.elsEvent k phase) := s.postPanel_announced ..

/-- A module's lasers off, in a state. -/
theorem State.elsOff_reads (s : State) (k : Nat) {st : Nat} (hst : st < 4) : let t := s.elsOff k st
    t.rd (OE_ELS_STAT.STATE k) = st ∧ t.bit (ELS_CTL.LASER_EN k) = false ∧ t.bit (OE_ELS_STAT.PRESENT k) = s.bit (OE_ELS_STAT.PRESENT k) ∧
      t.bit (OE_ELS_STAT.VERIFIED k) = s.bit (OE_ELS_STAT.VERIFIED k) := by
  refine ⟨?_, State.bit_wr_same _ _ 0 rfl, ?_, ?_⟩
  · refine (State.rd_wr_ne _ _ ?_).trans ((State.rd_wr_ne _ _ ?_).trans ((s.rd_wr_same ..).trans (Nat.mod_eq_of_lt hst)))
    · dsimp only [OE_ELS_STAT.STATE, ELS_CTL.LASER_EN]; omega
    · dsimp only [OE_ELS_STAT.STATE, ELS_CTL.IND]; omega
  · refine (State.bit_wr_ne _ _ ?_).trans ((State.bit_wr_ne _ _ ?_).trans (s.bit_wr_ne _ ?_))
    · dsimp only [OE_ELS_STAT.PRESENT, ELS_CTL.LASER_EN]; omega
    · dsimp only [OE_ELS_STAT.PRESENT, ELS_CTL.IND]; omega
    · dsimp only [OE_ELS_STAT.PRESENT, OE_ELS_STAT.STATE]; omega
  · refine (State.bit_wr_ne _ _ ?_).trans ((State.bit_wr_ne _ _ ?_).trans (s.bit_wr_ne _ ?_))
    · dsimp only [OE_ELS_STAT.VERIFIED, ELS_CTL.LASER_EN]; omega
    · dsimp only [OE_ELS_STAT.VERIFIED, ELS_CTL.IND]; omega
    · dsimp only [OE_ELS_STAT.VERIFIED, OE_ELS_STAT.STATE]; omega

/-- A module whose interlock has broken, before its engines are told (R371). -/
def State.unmated (s : State) (k : Nat) : State :=
  let s := ((s.wr (OE_ELS_STAT.PRESENT k) 0).wr (OE_ELS_STAT.VERIFIED k) 0).elsOff k 0
  ((s.wr (ELS_STAT.ILK_A k) 0).wr (ELS_STAT.ILK_B k) 0).wr (ELS_STAT.LOCKED k) 0

section Module

variable {k : Nat} (hk : k < 12)
include hk

omit hk in
/-- An interlock's state is no state of the module. -/
theorem State.wr_interlock {f : Field} (hf : modStatus k f) (s : State) (a b c : Nat) :
    (((s.wr (ELS_STAT.ILK_A k) a).wr (ELS_STAT.ILK_B k) b).wr (ELS_STAT.LOCKED k) c).rd f = s.rd f := by
  simp only [modStatus, OE_ELS_STAT.PRESENT, OE_ELS_STAT.VERIFIED, OE_ELS_STAT.STATE, ELS_CTL.LASER_EN] at hf
  refine (State.rd_wr_ne _ _ ?_).trans ((State.rd_wr_ne _ _ ?_).trans (s.rd_wr_ne _ ?_))
  · dsimp only [ELS_STAT.LOCKED]; omega
  · dsimp only [ELS_STAT.ILK_B]; omega
  · dsimp only [ELS_STAT.ILK_A]; omega

omit hk in
theorem State.unmated_reads (s : State) : let t := s.unmated k
    t.bit (OE_ELS_STAT.PRESENT k) = false ∧ t.bit (OE_ELS_STAT.VERIFIED k) = false ∧ t.rd (OE_ELS_STAT.STATE k) = 0 ∧ t.bit (ELS_CTL.LASER_EN k) = false := by
  obtain ⟨hstate, hoff, hpresent, hverified⟩ := ((s.wr (OE_ELS_STAT.PRESENT k) 0).wr (OE_ELS_STAT.VERIFIED k) 0).elsOff_reads k (st := 0) (by decide)
  have hrd {f : Field} (hf : modStatus k f) := State.wr_interlock hf (((s.wr (OE_ELS_STAT.PRESENT k) 0).wr (OE_ELS_STAT.VERIFIED k) 0).elsOff k 0) 0 0 0
  refine ⟨(State.bit_eq_of_rd (hrd (.inl rfl))).trans (hpresent.trans ?_), (State.bit_eq_of_rd (hrd (.inr (.inl rfl)))).trans (hverified.trans (State.bit_wr_same _ _ 0 rfl)),
    (hrd (.inr (.inr (.inl rfl)))).trans hstate, (State.bit_eq_of_rd (hrd (.inr (.inr (.inr rfl))))).trans hoff⟩
  exact (State.bit_wr_ne _ _ (by dsimp only [OE_ELS_STAT.PRESENT, OE_ELS_STAT.VERIFIED]; omega)).trans (s.bit_wr_same _ 0 rfl)

/-- A module's interlock breaks: it is gone, and its engines go dark where it was not ready to be pulled (R371, R372). -/
theorem execInterlockBreak_reads {s : State} (hin : s.bit (OE_ELS_STAT.PRESENT k) = true) : ∃ t, execInterlockBreak k s = .next t ∧
    t.bit (OE_ELS_STAT.PRESENT k) = false ∧ t.bit (OE_ELS_STAT.VERIFIED k) = false ∧ t.rd (OE_ELS_STAT.STATE k) = 0 ∧ t.bit (ELS_CTL.LASER_EN k) = false ∧
    (s.rd (OE_ELS_STAT.STATE k) ≠ 3 → t.bit (OE_STAT.DARK (2 * k)) = true ∧ t.bit (OE_STAT.DARK (2 * k + 1)) = true) := by
  obtain ⟨hpresent, hverified, hstate, hoff⟩ := s.unmated_reads (k := k)
  have hguard : ¬ (decide (12 ≤ k) || !s.bit (OE_ELS_STAT.PRESENT k)) = true := by simpa [hin] using hk
  unfold execInterlockBreak
  rw [if_neg hguard]
  dsimp only
  rw [← State.unmated]
  by_cases hready : s.rd (OE_ELS_STAT.STATE k) = 3
  · rw [if_pos (decide_eq_true hready)]
    exact ⟨_, rfl, hpresent, hverified, hstate, hoff, fun h => absurd hready h⟩
  · rw [if_neg (by simpa using hready)]
    generalize hu : (s.unmated k).updOpt (fun o => { o with swap := Tab.set 0 o.swap k (if decide (s.rd (OE_ELS_STAT.STATE k) = 3) then 3 else 0) }) = u
    have hrd (f : Field) : u.rd f = (s.unmated k).rd f := hu ▸ rfl
    have hbit (f : Field) : u.bit f = (s.unmated k).bit f := State.bit_eq_of_rd (hrd f)
    generalize (if u.engPowered (2 * k) = true then 2 else 3) = cause
    obtain ⟨⟨hdark0, hdark1⟩, hleaves⟩ := State.darkBoth hk u cause
    have hevent := ((u.darken (2 * k) cause).darken (2 * k + 1) cause).elsEvent_announced k 7
    have hdarkq {e : Nat} (he : e < 24) := (offLanes_dark he).1.1.1.1
    have hkept : Leaves ofModules u (((u.darken (2 * k) cause).darken (2 * k + 1) cause).elsEvent k 7) := hleaves.trans (hevent.leaves fun _ hf => hf.offTraffic)
    refine ⟨_, rfl, ?_, ?_, ?_, ?_, fun _ => ⟨(hevent.bit (hdarkq (by omega))).trans hdark0, (hevent.bit (hdarkq (by omega))).trans hdark1⟩⟩
    · exact (hkept.bit (modStatus.modules hk (.inl rfl))).trans ((hbit _).trans hpresent)
    · exact (hkept.bit (modStatus.modules hk (.inr (.inl rfl)))).trans ((hbit _).trans hverified)
    · exact (hkept.2 _ (modStatus.modules hk (.inr (.inr (.inl rfl))))).trans ((hrd _).trans hstate)
    · exact (hkept.bit (modStatus.modules hk (.inr (.inr (.inr rfl))))).trans ((hbit _).trans hoff)

end Module

/-! ### Insertion (R373, R374) -/

/-- A module in place, its interlock mated, and what is known of it that of a fresh one. -/
def State.mated (s : State) (k : Nat) (record : List Byte) : State :=
  let s := ((s.wr (OE_ELS_STAT.PRESENT k) 1).wr (ELS_STAT.ILK_A k) 1).wr (ELS_STAT.ILK_B k) 1
  let s := s.updOpt (fun o => { o with
    modRec := Tab.set [] o.modRec k record
    warned := o.warned.filter (fun x => decide (x / 8 ≠ k))
    laserBase := o.laserBase.filter (fun e => decide (e.1 / 16 ≠ k)) })
  let s := ((s.wr (OE_ELS_STAT.SPARED k) 0).wr (OE_ELS_STAT.FAILED k) 0).wr (ELS_STAT.SPARED k) 0
  (s.wr (ELS_STAT.FAILED k) 0).wr (OE_ELS_STAT.REPLACE k) 0

/-- A module's wavelengths on their primary lasers. -/
def State.primaries (s : State) (k : Nat) : State :=
  forN 8 (fun w s => (((s.wr (OE_ELS_BIAS.ON_SPARE k w) 0).wr (OE_ELS_BIAS.SPARE_FAIL k w) 0).wr (ELS_LAS.ON_SPARE k w) 0).wr (ELS_LAS.SPARE_FAIL k w) 0) s

theorem execModuleInsert_eq {k : Nat} (hk : k < 12) {s : State} (hout : s.bit (OE_ELS_STAT.PRESENT k) = false) (record : List Byte) :
    execModuleInsert k record s = .next (((s.mated k record).primaries k).elsSeated k) := by
  unfold execModuleInsert
  rw [if_neg (by rw [hout]; simpa using hk)]
  rfl

/-- No register of a laser module, on either side (R377, R669). -/
def offEls (f : Field) : Prop := (f.key < 8 * 0x5C0000 ∨ 8 * 0x5C0C00 ≤ f.key) ∧ f.key < 8 * 0x4000000

/-- Whether a module is powered, and whether a steward runs, are no registers of the modules. -/
theorem offEls_power (k : Nat) : offEls (PWR_CT_STAT.STATE (engCart k)) ∧ offEls GLB_STW_STAT.LOST_BOTH := by
  refine ⟨?_, ?_⟩
  · unfold engCart
    split
    · simp only [offEls, PWR_CT_STAT.STATE]; omega
    · simp only [offEls, PWR_CT_STAT.STATE]; omega
  · simp only [offEls, GLB_STW_STAT.LOST_BOTH]; omega

theorem quiet_power (k : Nat) : quiet (PWR_CT_STAT.STATE (engCart k)) ∧ quiet GLB_STW_STAT.LOST_BOTH := by
  refine ⟨?_, ?_⟩
  · unfold engCart
    split
    · simp only [quiet, PWR_CT_STAT.STATE]; omega
    · simp only [quiet, PWR_CT_STAT.STATE]; omega
  · simp only [quiet, GLB_STW_STAT.LOST_BOTH]; omega

/-- A module as verified: its identity, and its lasers warming (R373). -/
def State.elsVerified (s : State) (k serial rev : Nat) : State :=
  (((s.wr (OE_ELS_ID.SERIAL k) serial).wr (OE_ELS_ID.HWREV k) rev).wr (OE_ELS_STAT.VERIFIED k) 1).setEls k 1

/-- A module refused: its lasers off, its indicator red, its swap over (R373). -/
def State.elsRefused (s : State) (k : Nat) : State :=
  (((s.wr (OE_ELS_STAT.VERIFIED k) 0).elsOff k 0).wr (ELS_CTL.IND k) 3).updOpt (fun o => { o with swap := Tab.set 0 o.swap k 0 })

theorem State.verifyEls_eq {s : State} {k : Nat} (hon : s.engPowered (2 * k) = true) (hruns : s.bit GLB_STW_STAT.LOST_BOTH = false) (record : List Byte) :
    s.verifyEls k record = if elsRecordOk record then (s.elsVerified k (leNat ((record.drop 8).take 6)) (leNat ((record.drop 6).take 1))).elsEvent k 3
      else (s.elsRefused k).elsEvent k 5 := by
  unfold State.verifyEls
  rw [if_neg (by rw [hon, hruns]; decide)]
  rfl

section Insert

variable {k : Nat} (hk : k < 12)
include hk

theorem State.mated_reads (s : State) (record : List Byte) : let t := s.mated k record
    t.bit (OE_ELS_STAT.PRESENT k) = true ∧ Tab.get [] t.opt.modRec k = record ∧ t.mem = s.mem ∧ ∀ f, offEls f → t.rd f = s.rd f := by
  refine ⟨?_, Tab.get_set_same [] s.opt.modRec k record, rfl, fun f hf => ?_⟩
  · refine (State.bit_wr_ne _ _ ?_).trans ((State.bit_wr_ne _ _ ?_).trans ((State.bit_wr_ne _ _ ?_).trans ((State.bit_wr_ne _ _ ?_).trans ((State.bit_wr_ne _ _ ?_).trans
      ((State.bit_wr_ne _ _ ?_).trans ((State.bit_wr_ne _ _ ?_).trans (s.bit_wr_same _ 1 rfl)))))))
    · dsimp only [OE_ELS_STAT.PRESENT, OE_ELS_STAT.REPLACE]; omega
    · dsimp only [OE_ELS_STAT.PRESENT, ELS_STAT.FAILED]; omega
    · dsimp only [OE_ELS_STAT.PRESENT, ELS_STAT.SPARED]; omega
    · dsimp only [OE_ELS_STAT.PRESENT, OE_ELS_STAT.FAILED]; omega
    · dsimp only [OE_ELS_STAT.PRESENT, OE_ELS_STAT.SPARED]; omega
    · dsimp only [OE_ELS_STAT.PRESENT, ELS_STAT.ILK_B]; omega
    · dsimp only [OE_ELS_STAT.PRESENT, ELS_STAT.ILK_A]; omega
  · simp only [offEls] at hf
    refine (State.rd_wr_ne _ _ ?_).trans ((State.rd_wr_ne _ _ ?_).trans ((State.rd_wr_ne _ _ ?_).trans ((State.rd_wr_ne _ _ ?_).trans ((State.rd_wr_ne _ _ ?_).trans
      ((State.rd_wr_ne _ _ ?_).trans ((State.rd_wr_ne _ _ ?_).trans (s.rd_wr_ne _ ?_)))))))
    · dsimp only [OE_ELS_STAT.REPLACE]; omega
    · dsimp only [ELS_STAT.FAILED]; omega
    · dsimp only [ELS_STAT.SPARED]; omega
    · dsimp only [OE_ELS_STAT.FAILED]; omega
    · dsimp only [OE_ELS_STAT.SPARED]; omega
    · dsimp only [ELS_STAT.ILK_B]; omega
    · dsimp only [ELS_STAT.ILK_A]; omega
    · dsimp only [OE_ELS_STAT.PRESENT]; omega

/-- Fresh lasers change registers of the wavelengths alone. -/
theorem State.primaries_reads (s : State) : let t := s.primaries k
    t.opt = s.opt ∧ t.mem = s.mem ∧ ∀ f, offEls f ∨ f.key = (OE_ELS_STAT.PRESENT k).key → t.rd f = s.rd f := by
  refine ⟨forN_keeps State.opt _ (fun w t => ?_) 8 s, forN_keeps State.mem _ (fun w t => ?_) 8 s, fun f hf => ?_⟩
  · rfl
  · rfl
  · simp only [offEls, OE_ELS_STAT.PRESENT] at hf
    refine forN_preserves_lt (P := fun t : State => t.rd f = s.rd f) (fun w hw t ht => ?_) rfl
    refine (State.rd_wr_ne _ _ ?_).trans ((State.rd_wr_ne _ _ ?_).trans ((State.rd_wr_ne _ _ ?_).trans ((t.rd_wr_ne _ ?_).trans ht)))
    · dsimp only [ELS_LAS.SPARE_FAIL]; omega
    · dsimp only [ELS_LAS.ON_SPARE]; omega
    · dsimp only [OE_ELS_BIAS.SPARE_FAIL]; omega
    · dsimp only [OE_ELS_BIAS.ON_SPARE]; omega

omit hk in
theorem State.elsVerified_reads (s : State) (serial rev : Nat) : let t := s.elsVerified k serial rev
    t.bit (OE_ELS_STAT.PRESENT k) = s.bit (OE_ELS_STAT.PRESENT k) ∧ t.bit (OE_ELS_STAT.VERIFIED k) = true ∧ t.rd (OE_ELS_STAT.STATE k) = 1 := by
  refine ⟨?_, ?_, ?_⟩
  · refine (State.bit_wr_ne _ _ ?_).trans ((State.bit_wr_ne _ _ ?_).trans ((State.bit_wr_ne _ _ ?_).trans ((State.bit_wr_ne _ _ ?_).trans (s.bit_wr_ne _ ?_))))
    · dsimp only [OE_ELS_STAT.PRESENT, ELS_CTL.IND]; omega
    · dsimp only [OE_ELS_STAT.PRESENT, OE_ELS_STAT.STATE]; omega
    · dsimp only [OE_ELS_STAT.PRESENT, OE_ELS_STAT.VERIFIED]; omega
    · dsimp only [OE_ELS_STAT.PRESENT, OE_ELS_ID.HWREV]; omega
    · dsimp only [OE_ELS_STAT.PRESENT, OE_ELS_ID.SERIAL]; omega
  · refine (State.bit_wr_ne _ _ ?_).trans ((State.bit_wr_ne _ _ ?_).trans (State.bit_wr_same _ _ 1 rfl))
    · dsimp only [OE_ELS_STAT.VERIFIED, ELS_CTL.IND]; omega
    · dsimp only [OE_ELS_STAT.VERIFIED, OE_ELS_STAT.STATE]; omega
  · exact (State.rd_wr_ne _ _ (by dsimp only [OE_ELS_STAT.STATE, ELS_CTL.IND]; omega)).trans (State.rd_wr_same _ _ 1)

omit hk in
theorem State.elsRefused_reads (s : State) : let t := s.elsRefused k
    t.bit (OE_ELS_STAT.PRESENT k) = s.bit (OE_ELS_STAT.PRESENT k) ∧ t.bit (OE_ELS_STAT.VERIFIED k) = false ∧ t.rd (OE_ELS_STAT.STATE k) = 0 := by
  obtain ⟨hstate, -, hpresent, hverified⟩ := (s.wr (OE_ELS_STAT.VERIFIED k) 0).elsOff_reads k (st := 0) (by decide)
  refine ⟨?_, ?_, ?_⟩
  · refine (State.bit_wr_ne _ 3 ?_).trans (hpresent.trans (s.bit_wr_ne 0 ?_))
    · dsimp only [OE_ELS_STAT.PRESENT, ELS_CTL.IND]; omega
    · dsimp only [OE_ELS_STAT.PRESENT, OE_ELS_STAT.VERIFIED]; omega
  · exact (State.bit_wr_ne _ 3 (by dsimp only [OE_ELS_STAT.VERIFIED, ELS_CTL.IND]; omega)).trans (hverified.trans (s.bit_wr_same _ 0 rfl))
  · exact (State.rd_wr_ne _ 3 (by dsimp only [OE_ELS_STAT.STATE, ELS_CTL.IND]; omega)).trans hstate

/-- A module verified warms up, and one that is refused stays off (R373). -/
theorem State.verifyEls_reads {s : State} (hon : s.engPowered (2 * k) = true) (hruns : s.bit GLB_STW_STAT.LOST_BOTH = false) (record : List Byte) :
    let t := s.verifyEls k record
    t.bit (OE_ELS_STAT.PRESENT k) = s.bit (OE_ELS_STAT.PRESENT k) ∧ t.mem = s.mem ∧
      (elsRecordOk record = true → t.bit (OE_ELS_STAT.VERIFIED k) = true ∧ t.rd (OE_ELS_STAT.STATE k) = 1) ∧
      (elsRecordOk record = false → t.bit (OE_ELS_STAT.VERIFIED k) = false ∧ t.rd (OE_ELS_STAT.STATE k) = 0) := by
  have hquiet {f : Field} (hf : modStatus k f) : quiet f := (hf.modules hk).offTraffic.1
  obtain ⟨hpresent, hverified, hstate⟩ := And.intro (hquiet (.inl rfl)) (And.intro (hquiet (.inr (.inl rfl))) (hquiet (.inr (.inr (.inl rfl)))))
  rw [State.verifyEls_eq hon hruns]
  dsimp only
  split
  · next hok =>
    obtain ⟨vpresent, vverified, vstate⟩ := s.elsVerified_reads (k := k) (leNat ((record.drop 8).take 6)) (leNat ((record.drop 6).take 1))
    have hann := (s.elsVerified k (leNat ((record.drop 8).take 6)) (leNat ((record.drop 6).take 1))).elsEvent_announced k 3
    exact ⟨(hann.bit hpresent).trans vpresent, hann.mem, fun _ => ⟨(hann.bit hverified).trans vverified, (hann.rd hstate).trans vstate⟩, fun h => by rw [hok] at h; cases h⟩
  · next hok =>
    obtain ⟨vpresent, vverified, vstate⟩ := s.elsRefused_reads (k := k)
    have hann := (s.elsRefused k).elsEvent_announced k 5
    exact ⟨(hann.bit hpresent).trans vpresent, hann.mem, fun h => absurd h hok, fun _ => ⟨(hann.bit hverified).trans vverified, (hann.rd hstate).trans vstate⟩⟩

/-- A module seated with its cartridge in place is verified or refused (R374). -/
theorem State.elsSeated_verifies {s : State} (hon : s.engPowered (2 * k) = true) (hruns : s.bit GLB_STW_STAT.LOST_BOTH = false) :
    let t := s.elsSeated k
    t.bit (OE_ELS_STAT.PRESENT k) = s.bit (OE_ELS_STAT.PRESENT k) ∧ t.mem = s.mem ∧
      (elsRecordOk (Tab.get [] s.opt.modRec k) = true → t.bit (OE_ELS_STAT.VERIFIED k) = true ∧ t.rd (OE_ELS_STAT.STATE k) = 1) ∧
      (elsRecordOk (Tab.get [] s.opt.modRec k) = false → t.bit (OE_ELS_STAT.VERIFIED k) = false ∧ t.rd (OE_ELS_STAT.STATE k) = 0) := by
  obtain ⟨qct, qlost⟩ := quiet_power (2 * k)
  generalize hv : s.updOpt (fun o => { o with swap := Tab.set 0 o.swap k 2 }) = v
  have hann := v.elsEvent_announced k 2
  have hvon : (v.elsEvent k 2).engPowered (2 * k) = true := by
    rw [State.engPowered, hann.rd qct]
    exact hv ▸ hon
  have hvruns : (v.elsEvent k 2).bit GLB_STW_STAT.LOST_BOTH = false := (hann.bit qlost).trans (hv ▸ hruns)
  have hrecord : Tab.get [] v.opt.modRec k = Tab.get [] s.opt.modRec k := hv ▸ rfl
  obtain ⟨tpresent, tmem, tok, trefused⟩ := State.verifyEls_reads hk hvon hvruns (Tab.get [] s.opt.modRec k)
  have hseated : s.elsSeated k = (v.elsEvent k 2).verifyEls k (Tab.get [] s.opt.modRec k) := by
    unfold State.elsSeated
    rw [hon]
    dsimp only
    rw [if_pos rfl, if_pos rfl, hv, hrecord]
  rw [hseated]
  refine ⟨tpresent.trans ((hann.bit (modStatus.modules hk (.inl rfl)).offTraffic.1).trans ?_), tmem.trans (hann.mem.trans ?_), tok, trefused⟩
  · exact hv ▸ rfl
  · exact hv ▸ rfl

/-- A module inserted in a panel that powers it is in place, and verified or refused (R373, R374). -/
theorem execModuleInsert_reads {s : State} (hout : s.bit (OE_ELS_STAT.PRESENT k) = false) (hon : s.engPowered (2 * k) = true)
    (hruns : s.bit GLB_STW_STAT.LOST_BOTH = false) (record : List Byte) : ∃ t, execModuleInsert k record s = .next t ∧
    t.bit (OE_ELS_STAT.PRESENT k) = true ∧ t.mem = s.mem ∧
      (elsRecordOk record = true → t.bit (OE_ELS_STAT.VERIFIED k) = true ∧ t.rd (OE_ELS_STAT.STATE k) = 1) ∧
      (elsRecordOk record = false → t.bit (OE_ELS_STAT.VERIFIED k) = false ∧ t.rd (OE_ELS_STAT.STATE k) = 0) := by
  obtain ⟨hpresent, hrecord, hmem, hrd⟩ := s.mated_reads hk record
  obtain ⟨popt, pmem, prd⟩ := (s.mated k record).primaries_reads hk
  obtain ⟨oct, olost⟩ := offEls_power (2 * k)
  have huon : ((s.mated k record).primaries k).engPowered (2 * k) = true := by rwa [State.engPowered, prd _ (.inl oct), hrd _ oct]
  have huruns := (State.bit_eq_of_rd ((prd _ (.inl olost)).trans (hrd _ olost))).trans hruns
  have hurecord : Tab.get [] ((s.mated k record).primaries k).opt.modRec k = record := (congrArg (fun o => Tab.get [] o.modRec k) popt).trans hrecord
  obtain ⟨tpresent, tmem, tverified⟩ := State.elsSeated_verifies hk huon huruns
  rw [hurecord] at tverified
  exact ⟨_, execModuleInsert_eq hk hout record, tpresent.trans ((State.bit_eq_of_rd (prd _ (.inr rfl))).trans hpresent), tmem.trans (pmem.trans hmem), tverified⟩

end Insert

/-! ### Warm-up (R360, R374) -/

/-- A module's lasers lit, and measured for the first time (R374 step 6). -/
def State.warmed (s : State) (k : Nat) (bias : List Nat) : State :=
  forN 8 (fun w s => s.laserMeasured k w (bias.getD w 0)) (((s.wr (ELS_STAT.LOCKED k) 1).wr (ELS_CTL.LASER_EN k) 1).setEls k 2)

/-- The light of an engine in service whose cartridge powers it comes back (R374 step 7). -/
def State.engLit (s : State) (e : Nat) : State := if s.bit (OE_STAT.INSERVICE e) && decide (s.rd (OE_STAT.CAUSE e) ≠ 4) && s.engPowered e then s.lighten e else s

theorem execLaserWarmupComplete_eq {k : Nat} (hk : k < 12) {s : State} (hwarm : s.rd (OE_ELS_STAT.STATE k) = 1) (hok : s.bit (OE_ELS_STAT.VERIFIED k) = true)
    (hin : s.bit (OE_ELS_STAT.PRESENT k) = true) (bias : List Nat) :
    execLaserWarmupComplete k bias s = .next (((((s.warmed k bias).logLaser k).engLit (2 * k)).engLit (2 * k + 1)).elsBack k) := by
  unfold execLaserWarmupComplete
  rw [if_neg (by rw [hwarm, hok, hin]; simpa using hk)]
  rfl

section Warm

variable {k w : Nat} (hk : k < 12) (hw : w < 8)
include hk hw

theorem State.warmed_reads (s : State) (bias : List Nat) : let t := s.warmed k bias
    t.rd (OE_ELS_STAT.STATE k) = 2 ∧ t.bit (ELS_CTL.LASER_EN k) = true ∧ t.rd (OE_ELS_BIAS.BIAS k w) = bias.getD w 0 % 2 ^ 16 := by
  have hkept {f : Field} (hf : f.key = (OE_ELS_STAT.STATE k).key ∨ f.key = (ELS_CTL.LASER_EN k).key) :
      (s.warmed k bias).rd f = (((s.wr (ELS_STAT.LOCKED k) 1).wr (ELS_CTL.LASER_EN k) 1).setEls k 2).rd f :=
    forN_preserves_lt (P := fun t : State => t.rd f = (((s.wr (ELS_STAT.LOCKED k) 1).wr (ELS_CTL.LASER_EN k) 1).setEls k 2).rd f)
      (fun x hx t ht => ((t.laserMeasured_leaves ..).2 f (offMeasure_module hk hx (.inr (.inr hf))).1).trans ht) rfl
  refine ⟨(hkept (.inl rfl)).trans ?_, (State.bit_eq_of_rd (hkept (.inr rfl))).trans ?_, ?_⟩
  · exact (State.rd_wr_ne _ _ (by dsimp only [OE_ELS_STAT.STATE, ELS_CTL.IND]; omega)).trans (State.rd_wr_same _ _ 2)
  · refine (State.bit_wr_ne _ _ ?_).trans ((State.bit_wr_ne _ _ ?_).trans (State.bit_wr_same _ _ 1 rfl))
    · dsimp only [ELS_CTL.LASER_EN, ELS_CTL.IND]; omega
    · dsimp only [ELS_CTL.LASER_EN, OE_ELS_STAT.STATE]; omega
  · exact forN_at (P := fun _ => True) (Q := fun t : State => t.rd (OE_ELS_BIAS.BIAS k w) = bias.getD w 0 % 2 ^ 16) hw (fun _ _ _ _ h => h)
      (fun t _ => t.laserMeasured_bias ..) (fun x hx hne t ht => ((t.laserMeasured_leaves ..).2 _ (offCheck_other hk hw hx hne (.inl rfl)).measure).trans ht) trivial

/-- The coolers lock: the lasers are on, and their bias is read (R374). -/
theorem execLaserWarmupComplete_reads {s : State} (hwarm : s.rd (OE_ELS_STAT.STATE k) = 1) (hok : s.bit (OE_ELS_STAT.VERIFIED k) = true)
    (hin : s.bit (OE_ELS_STAT.PRESENT k) = true) (bias : List Nat) : ∃ t, execLaserWarmupComplete k bias s = .next t ∧
    t.rd (OE_ELS_STAT.STATE k) = 2 ∧ t.bit (ELS_CTL.LASER_EN k) = true ∧ t.rd (OE_ELS_BIAS.BIAS k w) = bias.getD w 0 % 2 ^ 16 := by
  obtain ⟨hstate, hon, hbias⟩ := s.warmed_reads hk hw bias
  have hlit (t : State) {e : Nat} (he : e < 24) : Leaves ofModules t (t.engLit e) := ((t.lighten_leaves he).mono fun _ hf => hf.offLight he).ite (Leaves.refl _ t)
  have hkept {f : Field} (hf : ofModules f) : (((((s.warmed k bias).logLaser k).engLit (2 * k)).engLit (2 * k + 1)).elsBack k).rd f = (s.warmed k bias).rd f :=
    (State.elsBack_rd _ k hf.offTraffic.1).trans (((hlit _ (by omega)).2 f hf).trans (((hlit _ (by omega)).2 f hf).trans ((State.logWrite_announced ..).rd hf.offTraffic.1)))
  refine ⟨_, execLaserWarmupComplete_eq hk hwarm hok hin bias, (hkept ?_).trans hstate, (State.bit_eq_of_rd (hkept ?_)).trans hon, (hkept ?_).trans hbias⟩
  · exact modStatus.modules hk (.inr (.inr (.inl rfl)))
  · exact modStatus.modules hk (.inr (.inr (.inr rfl)))
  · exact (offSpare_measures hk hw (.inl rfl)).1.modules

end Warm

/-! ### The swap of a module (R374, R379, R400) -/

/-- Steps that each leave a state leave it together. -/
theorem forL_unchanged {σ α : Type} {f : α → σ → σ} {s : σ} {l : List α} (h : ∀ a ∈ l, f a s = s) : forL l f s = s :=
  forL_preserves_mem (P := fun t => t = s) (fun a ha t ht => by rw [ht, h a ha]) rfl

/-- A table that holds `v` in place of its default has an entry of it. -/
theorem Tab.mem_of_get {α : Type} {d v : α} {t : Tab α} {k : Nat} (h : Tab.get d t k = v) (hne : d ≠ v) : ∃ e ∈ t, e.2 = v := by
  induction t with
  | nil => exact absurd h hne
  | cons e t ih =>
    rw [Tab.get] at h
    split at h
    · exact ⟨e, List.mem_cons_self, h⟩
    · obtain ⟨x, hx, hxv⟩ := ih h
      exact ⟨x, List.mem_cons_of_mem _ hx, hxv⟩

/-- A module that may be pulled (R374 step 3). -/
def State.elsPullable (s : State) (k : Nat) : State := ((s.setEls k 3).updOpt (fun o => { o with swap := Tab.set 0 o.swap k 3 })).elsEvent k 0

/-- SWAP_READY changes the module's own swap and STATE. -/
theorem State.elsPullable_reads (s : State) (k : Nat) : let t := s.elsPullable k
    t.opt.swap = Tab.set 0 s.opt.swap k 3 ∧ ∀ f, quiet f → f.key ≠ (ELS_CTL.IND k).key → t.rd f = (s.wr (OE_ELS_STAT.STATE k) 3).rd f := by
  have hann := State.elsEvent_announced ((s.setEls k 3).updOpt (fun o => { o with swap := Tab.set 0 o.swap k 3 })) k 0
  exact ⟨congrArg Optics.swap hann.opt.1, fun f hq hf => (hann.rd hq).trans (State.rd_wr_ne _ _ hf)⟩

section Module

variable {k : Nat} (hk : k < 12)
include hk

/-- Lasers off and engines dark, for a cause (R371, R372). -/
theorem State.elsDark_reads (s : State) (cause : Nat) : let t := ((s.elsOff k 0).darken (2 * k) cause).darken (2 * k + 1) cause
    t.rd (OE_ELS_STAT.STATE k) = 0 ∧ t.bit (ELS_CTL.LASER_EN k) = false ∧ t.bit (OE_STAT.DARK (2 * k)) = true ∧ t.bit (OE_STAT.DARK (2 * k + 1)) = true := by
  obtain ⟨hstate, hoff, -, -⟩ := s.elsOff_reads k (st := 0) (by decide)
  obtain ⟨⟨hdark0, hdark1⟩, hleaves⟩ := State.darkBoth hk (s.elsOff k 0) cause
  exact ⟨(hleaves.2 _ (modStatus.modules hk (.inr (.inr (.inl rfl))))).trans hstate, (hleaves.bit (modStatus.modules hk (.inr (.inr (.inr rfl))))).trans hoff, hdark0, hdark1⟩

/-- A swap asked for with nothing left to drain turns the lasers off at once (R374). -/
theorem State.elsSwap_drained {s : State} (hruns : s.bit GLB_STW_STAT.LOST_BOTH = false) (hin : s.bit (OE_ELS_STAT.PRESENT k) = true)
    (hnone : Tab.get 0 s.opt.swap k ∉ [1, 3, 4]) (hdrained : ∀ n ∈ elsPorts k, s.lstate n ≠ 2 ∧ s.drained n = true) : let t := s.elsSwap k
    t.rd (OE_ELS_STAT.STATE k) = 0 ∧ t.bit (ELS_CTL.LASER_EN k) = false ∧ (t.bit (OE_STAT.DARK (2 * k)) = true ∧ t.bit (OE_STAT.DARK (2 * k + 1)) = true) ∧
      Tab.get 0 t.opt.swap k = 4 := by
  have hguard : ¬ (decide (12 ≤ k) || !s.bit (OE_ELS_STAT.PRESENT k) || s.bit GLB_STW_STAT.LOST_BOTH || [1, 3, 4].contains (Tab.get 0 s.opt.swap k)) = true := by
    rw [hin, hruns, show [1, 3, 4].contains (Tab.get 0 s.opt.swap k) = false by simpa using hnone]
    simpa using hk
  generalize hu : s.updOpt (fun o => { o with swap := Tab.set 0 o.swap k 1 }) = u
  have hbegun : Tab.get 0 u.opt.swap k = 1 := hu ▸ Tab.get_set_same 0 s.opt.swap k 1
  have huruns : u.bit GLB_STW_STAT.LOST_BOTH = false := hu ▸ hruns
  have hports : ∀ n ∈ elsPorts k, u.lstate n ≠ 2 ∧ u.drained n = true := hu ▸ hdrained
  have hstill : forL (elsPorts k) (fun n s => if s.lstate n = 2 then s.wr (JX_PORT_STAT.LSTATE (portK n) (portP n)) 3 else s) u = u :=
    forL_unchanged fun n hn => if_neg (hports n hn).1
  have hready : s.elsSwap k = (((u.elsOff k 0).darken (2 * k) 1).darken (2 * k + 1) 1).updOpt (fun o => { o with swap := Tab.set 0 o.swap k 4 }) := by
    unfold State.elsSwap
    rw [if_neg hguard]
    dsimp only
    rw [hu, hstill]
    exact if_pos ⟨hbegun, huruns, List.all_eq_true.mpr fun n hn => (hports n hn).2⟩
  obtain ⟨hstate, hoff, hdark0, hdark1⟩ := u.elsDark_reads hk 1
  rw [hready]
  exact ⟨hstate, hoff, ⟨hdark0, hdark1⟩, Tab.get_set_same 0 _ k 4⟩

/-- Step 3: a module whose lasers are off may be pulled (R374). -/
theorem State.elsTick_ready {s : State} (hruns : s.bit GLB_STW_STAT.LOST_BOTH = false) (hoff : Tab.get 0 s.opt.swap k = 4) :
    s.elsTick.rd (OE_ELS_STAT.STATE k) = 3 ∧ Tab.get 0 s.elsTick.opt.swap k = 3 := by
  have hdue : s.opt.swap.all (fun e => decide (e.2 ≠ 4)) = false := by
    obtain ⟨e, he, hval⟩ := Tab.mem_of_get hoff (by decide)
    exact List.all_eq_false.mpr ⟨e, he, by simp [hval]⟩
  have hquiet : quiet (OE_ELS_STAT.STATE k) := (modStatus.modules hk (.inr (.inr (.inl rfl)))).offTraffic.1
  unfold State.elsTick
  rw [hdue, hruns, if_neg (by decide)]
  refine forN_at (P := fun t : State => Tab.get 0 t.opt.swap k = 4) (Q := fun t : State => t.rd (OE_ELS_STAT.STATE k) = 3 ∧ Tab.get 0 t.opt.swap k = 3) hk
    (fun i hi hne t ht => ?_) (fun t ht => ?_) (fun i hi hne t ht => ?_) hoff
  · split
    · rw [← State.elsPullable, (t.elsPullable_reads i).1, Tab.get_set_ne 0 _ _ hne.symm, ht]
    · exact ht
  · obtain ⟨hswap, hrd⟩ := t.elsPullable_reads k
    rw [if_pos ht, ← State.elsPullable, hswap]
    refine ⟨(hrd _ hquiet ?_).trans (State.rd_wr_same _ _ 3), Tab.get_set_same 0 _ k 3⟩
    dsimp only [OE_ELS_STAT.STATE, ELS_CTL.IND]
    omega
  · split
    · obtain ⟨hswap, hrd⟩ := t.elsPullable_reads i
      rw [← State.elsPullable, hswap, Tab.get_set_ne 0 _ _ hne.symm]
      refine ⟨(hrd _ hquiet ?_).trans ((State.rd_wr_ne _ _ ?_).trans ht.1), ht.2⟩
      · dsimp only [OE_ELS_STAT.STATE, ELS_CTL.IND]; omega
      · dsimp only [OE_ELS_STAT.STATE]; omega
    · exact ht

/-- A swap over: lasers that were off warm up (R374, R379). -/
def State.swapOver (s : State) (k : Nat) : State :=
  let u := s.updOpt (fun o => { o with swap := Tab.set 0 o.swap k 0 })
  if Tab.get 0 s.opt.swap k = 4 then u.setEls k 1 else u

theorem State.swapOver_reads (s : State) : let t := s.swapOver k
    Tab.get 0 t.opt.swap k = 0 ∧ t.mem = s.mem ∧ (∀ n, t.lstate n = s.lstate n) ∧ (Tab.get 0 s.opt.swap k = 4 → t.rd (OE_ELS_STAT.STATE k) = 1) := by
  have hover : Tab.get 0 (Tab.set 0 s.opt.swap k 0) k = 0 := Tab.get_set_same 0 s.opt.swap k 0
  unfold State.swapOver
  dsimp only
  split
  · refine ⟨hover, rfl, fun n => ?_, fun _ => ?_⟩
    · have hp := portP_lt n
      refine (State.rd_wr_ne _ _ ?_).trans (State.rd_wr_ne _ _ ?_)
      · dsimp only [JX_PORT_STAT.LSTATE, ELS_CTL.IND]; omega
      · dsimp only [JX_PORT_STAT.LSTATE, OE_ELS_STAT.STATE]; omega
    · exact (State.rd_wr_ne _ _ (by dsimp only [OE_ELS_STAT.STATE, ELS_CTL.IND]; omega)).trans (State.rd_wr_same _ _ 1)
  · next hnot => exact ⟨hover, rfl, fun _ => rfl, fun hoff => absurd hoff hnot⟩

omit hk in
/-- A port put back to its traffic is so, and the others stay as they are. -/
theorem State.lstate_resumed (s : State) (b n : Nat) : (s.wr (JX_PORT_STAT.LSTATE (portK b) (portP b)) 2).lstate n = if n = b then 2 else s.lstate n := by
  have := portP_lt b
  have := portP_lt n
  split
  · next h =>
    subst h
    exact s.rd_wr_same _ 2
  · next h =>
    refine s.rd_wr_ne 2 ?_
    dsimp only [JX_PORT_STAT.LSTATE, portK, portP] at *
    omega

/-- The ports of a module go on with their traffic. -/
def State.portsResumed (s : State) (k : Nat) : State :=
  forL (elsPorts k) (fun n s => if s.lstate n = 3 then s.wr (JX_PORT_STAT.LSTATE (portK n) (portP n)) 2 else s) s

theorem execElsSwapCancel_eq {s : State} (hruns : s.bit GLB_STW_STAT.LOST_BOTH = false) (hswap : Tab.get 0 s.opt.swap k = 1 ∨ Tab.get 0 s.opt.swap k = 4) :
    execElsSwapCancel .fw k s = .next (((s.swapOver k).portsResumed k).elsEvent k 6) := by
  have hguard : ¬ (!pfOrFw .fw || decide (12 ≤ k) || s.bit GLB_STW_STAT.LOST_BOTH || decide (Tab.get 0 s.opt.swap k ≠ 1 ∧ Tab.get 0 s.opt.swap k ≠ 4)) = true := by
    rw [hruns]
    simp only [pfOrFw, Bool.not_true, Bool.false_or, Bool.or_false, Bool.or_eq_true, decide_eq_true_eq]
    omega
  unfold execElsSwapCancel
  rw [if_neg hguard]
  simp only [decide_eq_true_eq]
  rfl

theorem State.portsResumed_reads (s : State) : let t := s.portsResumed k
    t.opt = s.opt ∧ t.mem = s.mem ∧ t.rd (OE_ELS_STAT.STATE k) = s.rd (OE_ELS_STAT.STATE k) ∧ ∀ n ∈ elsPorts k, s.lstate n = 3 → t.lstate n = 2 := by
  have hkeeps {β : Type} (g : State → β) (hg : ∀ n ∈ elsPorts k, ∀ t : State, g (t.wr (JX_PORT_STAT.LSTATE (portK n) (portP n)) 2) = g t) :
      g (s.portsResumed k) = g s := by
    refine forL_preserves_mem (P := fun t => g t = g s) (fun n hn t ht => ?_) rfl
    split
    · exact (hg n hn t).trans ht
    · exact ht
  refine ⟨hkeeps State.opt fun _ _ _ => rfl, hkeeps State.mem fun _ _ _ => rfl, hkeeps (State.rd · (OE_ELS_STAT.STATE k)) fun n hn t => t.rd_wr_ne 2 ?_, fun n hn hdrains => ?_⟩
  · have := portK_lt (elsPorts_lt hk hn)
    have := portP_lt n
    dsimp only [OE_ELS_STAT.STATE, JX_PORT_STAT.LSTATE]
    omega
  · refine forL_establishes (P := fun t : State => t.lstate n = 3 ∨ t.lstate n = 2) (Q := fun t : State => t.lstate n = 2) (fun b t ht => ?_) (fun b t ht => ?_) (fun t ht => ?_)
      hn (.inl hdrains)
    · split
      · rw [State.lstate_resumed]
        split
        · exact .inr rfl
        · exact ht
      · exact ht
    · split
      · rw [State.lstate_resumed, ht, ite_self]
      · exact ht
    · split
      · rw [State.lstate_resumed, if_pos rfl]
      · next hnot => exact ht.resolve_left hnot

theorem execElsSwapCancel_reads {s : State} (hruns : s.bit GLB_STW_STAT.LOST_BOTH = false) (hswap : Tab.get 0 s.opt.swap k = 1 ∨ Tab.get 0 s.opt.swap k = 4) :
    ∃ t, execElsSwapCancel .fw k s = .next t ∧ Tab.get 0 t.opt.swap k = 0 ∧ t.mem = s.mem ∧ (Tab.get 0 s.opt.swap k = 4 → t.rd (OE_ELS_STAT.STATE k) = 1) ∧
      ∀ n ∈ elsPorts k, s.lstate n = 3 → t.lstate n = 2 := by
  obtain ⟨hover, hmem, hlstate, hwarm⟩ := s.swapOver_reads hk
  obtain ⟨hopt, rmem, hstate, hports⟩ := (s.swapOver k).portsResumed_reads hk
  have hann := ((s.swapOver k).portsResumed k).elsEvent_announced k 6
  refine ⟨_, execElsSwapCancel_eq hk hruns hswap, ?_, hann.mem.trans (rmem.trans hmem), fun hoff => ?_, fun n hn hdrains => ?_⟩
  · rw [hann.opt.1, hopt]
    exact hover
  · exact (hann.rd (modStatus.modules hk (.inr (.inr (.inl rfl)))).offTraffic.1).trans (hstate.trans (hwarm hoff))
  · refine (hann.rd ?_).trans (hports n hn ((hlstate n).trans hdrains))
    have := portK_lt (elsPorts_lt hk hn)
    have := portP_lt n
    simp only [quiet, JX_PORT_STAT.LSTATE]
    omega

/-! ### LASER_EN (R372, R669) -/

theorem execElsLaserEn_eq {s : State} (hin : s.bit (OE_ELS_STAT.PRESENT k) = true) (v : W32) :
    execElsLaserEn k v s = .next ((s.laserEn k (bitOf v.toNat 0)).wr (ELS_CTL.IND k) (bitsOf v.toNat 1 3)) := by
  unfold execElsLaserEn
  exact if_neg (by rw [hin]; simpa using hk)

omit hk in
/-- The indicator written leaves the module's status. -/
theorem State.wr_ind {f : Field} (hf : modStatus k f ∨ ∃ e < 24, f = OE_STAT.DARK e) (s : State) (v : Nat) : (s.wr (ELS_CTL.IND k) v).rd f = s.rd f := by
  refine s.rd_wr_ne v ?_
  rcases hf with hf | ⟨e, he, rfl⟩
  · simp only [modStatus, OE_ELS_STAT.PRESENT, OE_ELS_STAT.VERIFIED, OE_ELS_STAT.STATE, ELS_CTL.LASER_EN] at hf
    dsimp only [ELS_CTL.IND]
    omega
  · dsimp only [OE_STAT.DARK, ELS_CTL.IND]
    omega

/-- Lasers that may emit do (R372). -/
theorem execElsLaserEn_lit {s : State} {v : W32} (hin : s.bit (OE_ELS_STAT.PRESENT k) = true) (hon : bitOf v.toNat 0 = true)
    (hok : s.bit (OE_ELS_STAT.VERIFIED k) = true) (hlocked : s.bit (ELS_STAT.LOCKED k) = true) (ha : s.bit (ELS_STAT.ILK_A k) = true)
    (hb : s.bit (ELS_STAT.ILK_B k) = true) : ∃ t, execElsLaserEn k v s = .next t ∧ t.bit (ELS_CTL.LASER_EN k) = true ∧ t.rd (OE_ELS_STAT.STATE k) = 2 ∧
      t.rd (ELS_CTL.IND k) = bitsOf v.toNat 1 3 ∧ t.mem = s.mem ∧ t.out = s.out := by
  have hlit : s.laserEn k (bitOf v.toNat 0) = (s.wr (ELS_CTL.LASER_EN k) 1).wr (OE_ELS_STAT.STATE k) 2 := by
    unfold State.laserEn
    rw [hon, if_pos rfl, hok, hlocked, ha, hb]
    rfl
  refine ⟨_, execElsLaserEn_eq hk hin v, ?_⟩
  rw [hlit]
  refine ⟨(State.bit_eq_of_rd (State.wr_ind (.inl (.inr (.inr (.inr rfl)))) _ _)).trans ?_, (State.wr_ind (.inl (.inr (.inr (.inl rfl)))) _ _).trans (State.rd_wr_same _ _ 2),
    (State.rd_wr_same ..).trans (Nat.mod_eq_of_lt (Nat.mod_lt _ (by decide))), rfl, rfl⟩
  exact (State.bit_wr_ne _ 2 (by dsimp only [ELS_CTL.LASER_EN, OE_ELS_STAT.STATE]; omega)).trans (s.bit_wr_same _ 1 rfl)

/-- An interlock that is not mated keeps the lasers as they are (R669). -/
theorem execElsLaserEn_unmated {s : State} {v : W32} (hin : s.bit (OE_ELS_STAT.PRESENT k) = true) (hon : bitOf v.toNat 0 = true)
    (ha : s.bit (ELS_STAT.ILK_A k) = false) : execElsLaserEn k v s = .next (s.wr (ELS_CTL.IND k) (bitsOf v.toNat 1 3)) := by
  have hkept : s.laserEn k (bitOf v.toNat 0) = s := by
    unfold State.laserEn
    rw [hon, if_pos rfl, ha, Bool.and_false, Bool.false_and, if_neg Bool.false_ne_true]
  rw [execElsLaserEn_eq hk hin, hkept]

/-- Lasers turned off leave their engines dark (R372). -/
theorem execElsLaserEn_off {s : State} {v : W32} (hin : s.bit (OE_ELS_STAT.PRESENT k) = true) (hoff : bitOf v.toNat 0 = false)
    (hlit : s.bit (ELS_CTL.LASER_EN k) = true) : ∃ t, execElsLaserEn k v s = .next t ∧ t.bit (ELS_CTL.LASER_EN k) = false ∧ t.rd (OE_ELS_STAT.STATE k) = 0 ∧
      t.bit (OE_STAT.DARK (2 * k)) = true ∧ t.bit (OE_STAT.DARK (2 * k + 1)) = true := by
  have hdark : s.laserEn k (bitOf v.toNat 0) = ((s.elsOff k 0).darken (2 * k) 2).darken (2 * k + 1) 2 := by
    unfold State.laserEn
    rw [hoff, if_neg Bool.false_ne_true, if_pos hlit]
  obtain ⟨tstate, toff, hdark0, hdark1⟩ := s.elsDark_reads hk 2
  refine ⟨_, execElsLaserEn_eq hk hin v, ?_⟩
  rw [hdark]
  generalize ((s.elsOff k 0).darken (2 * k) 2).darken (2 * k + 1) 2 = t at tstate toff hdark0 hdark1
  have hrd {f : Field} (hf : modStatus k f ∨ ∃ e < 24, f = OE_STAT.DARK e) := t.wr_ind hf (bitsOf v.toNat 1 3)
  exact ⟨(State.bit_eq_of_rd (hrd (.inl (.inr (.inr (.inr rfl)))))).trans toff, (hrd (.inl (.inr (.inr (.inl rfl))))).trans tstate,
    (State.bit_eq_of_rd (hrd (.inr ⟨2 * k, by omega, rfl⟩))).trans hdark0, (State.bit_eq_of_rd (hrd (.inr ⟨2 * k + 1, by omega, rfl⟩))).trans hdark1⟩

end Module

/-- An active laser that fails at once is switched (R370, R381). -/
theorem execLaserSuddenFail_switches {k w : Nat} (hk : k < 12) (hw : w < 8) {s : State} (hon : s.rd (OE_ELS_STAT.STATE k) = 2)
    (hgood : bitOf (s.rd (OE_ELS_STAT.FAILED k)) w = false) : execLaserSuddenFail k w s = .next (s.switchLaser k w 1) := by
  unfold execLaserSuddenFail
  rw [hon, hgood]
  exact if_neg (by simpa using ⟨hk, hw⟩)

/-- Settles O41: each clause is the lemma about its command; a wavelength is checked alone among its module's (`forN_at`), and what a module's ports and lanes do
beside leaves the modules' registers (`ofModules`). -/
theorem laserModulesSpareSwapAndLight : Obligations.LaserModulesSpareSwapAndLight := by
  intro s k w v hk hw st dark
  refine ⟨fun bias cooler weak hon hgood => ?_, fun hon hgood => ⟨fun hprimary hspare => ?_, fun hspare => ?_⟩, fun hin => execInterlockBreak_reads hk hin,
    fun record hout hpower hruns => execModuleInsert_reads hk hout hpower hruns record, fun bias hwarm hok hin => execLaserWarmupComplete_reads hk hw hwarm hok hin bias,
    rfl, fun hruns => ⟨fun hin hnone hdrained => ⟨_, rfl, State.elsSwap_drained hk hruns hin hnone hdrained⟩, State.elsTick_ready hk hruns,
      execElsSwapCancel_reads hk hruns⟩, fun f hf => ⟨?_, ?_⟩, fun hin => ⟨execElsLaserEn_lit hk hin, execElsLaserEn_unmated hk hin, execElsLaserEn_off hk hin⟩⟩
  · obtain ⟨t, ht, hbias, hcooler, hspared⟩ := execLaserTrendCheck_finds hk hw hon hgood ⟨bias, cooler⟩ weak
    exact ⟨t, ht, hbias, hcooler, fun hweak hnone hprimary hspare => hspared ⟨hweak, hnone, hprimary, hspare⟩⟩
  · have hswitched := execLaserSuddenFail_switches hk hw hon hgood
    exact ⟨_, hswitched, State.switchLaser_spares hw hprimary hspare 1⟩
  · have hswitched := execLaserSuddenFail_switches hk hw hon hgood
    exact ⟨_, hswitched, State.switchLaser_loses hk hw hspare 1⟩
  · exact if_neg (by rw [pfOrFw, hf]; decide)
  · exact if_pos (by rw [pfOrFw, hf]; rfl)

end Sys2Proof.Machine
